-- ==== Sys2Proof/Word.lean ====
section
/-! DEFINITION. The engine's word types and their plainest views. -/

namespace Sys2Proof

/-- A register word (R497: every access is a whole 32-bit word). -/
abbrev Word := BitVec 32

/-- A byte of memory. -/
abbrev Byte := BitVec 8

/-- A 64-bit quantity: hall times, ticks, seals, sequence numbers. -/
abbrev DWord := BitVec 64

end Sys2Proof
end

