-- ==== Sys2Proof/Syntax.lean ====
section
/-! DEFINITION. The commands: one constructor per row of the opcode table, with the row's operands. Operands the table does not list (it gives no bits for any row) are those the spec's rules give the step; physical outcomes the engine meets (a sensor reading, a training result) are operands too (log entry 2). -/

namespace Sys2Proof

/-- Who makes a register access: the register port or a management core (R15, R503). -/
inductive Path where
  | port
  | core (c : Fin 4)
  deriving DecidableEq, Repr

/-- A command on a bank's bus (R223, R467). `wr` carries 64 byte enables and the sector's data. `merge` is the RD and the WR that make
up a write of parts of bytes, each byte with a mask of the bits written (R226). `ref` gives the readings its refresh took (R250). `raw`
and `peek` are the wrapper's write and read of a cell with its parity bit (R244). -/
inductive TowerCmd where
  | act (row : Nat)
  | rd (sector : Nat)
  | wr (sector : Nat) (enables : BitVec 64) (data : List Byte)
  | merge (sector : Nat) (mask data : List Byte)
  | pre
  | ref (eyes : List Nat)
  | raw (row col : Nat) (data : Byte) (badParity : Bool)
  | peek (row col : Nat)
  deriving DecidableEq, Repr


/-- The kinds of queue (R193, R263). -/
inductive QKind where
  | lane | page | fabric | collective | restore
  deriving DecidableEq, Repr
/-- A check of a lane that fails (R183): its row, the logical lane, the output, and which check. -/
inductive LaneFault where
  | arith (row lane out : Nat)
  | stationary (row lane out : Nat)
  | bandstand (row out : Nat)
  deriving DecidableEq, Repr


/-- A request at the boundary arbiter (R378): class 1 to 3, 4 a switch transfer, 0 late-weight traffic (R382); the requesting
unit, its partition if it has one, and whether it is a sub-byte write (R226). -/
structure ArbReq where
  cls : Fin 5
  unit : Nat
  part : Option (Fin 8)
  rmw : Bool
  deriving DecidableEq, Repr
/-- What the arbiter grants: a bank's open cycles or a channel of the external tier port (R378). -/
inductive ArbRes where
  | bank (b : Fin 512)
  | channel (k : Fin 8)
  deriving DecidableEq, Repr

/-- What a start meets outside the engine (R478, R485, R487–R489): counts of the monitor's windows in order, the words of the
fuse stream, the rows that fail the lane self-test with their failing lanes and columns, whether the Philox check passes, whether
the external region took the fill without error, a step that fails or exceeds its limit for another cause, microseconds from the
release to the release of the cores. -/
structure StartIn where
  windows : List (BitVec 12)
  fuse : List Word
  tests : List (Fin 768 × Word × Word)
  philoxOk : Bool
  extOk : Bool
  fail : Option (Fin 8)
  us : BitVec 24
  deriving DecidableEq, Repr

/-- The commands of the opcode table. -/
inductive Instr where
  /-- `HALL_STROBE` (R25): A rising edge of pse_hall_strobe while pse_hall_valid is high sets the local hall time to the value on the time port. -/
  | hallStrobe (time : BitVec 64) (here : BitVec 64)
  /-- `HOLDOVER` (R28): pse_hall_valid is low, so the engine runs the local hall time on LCLK alone while ticks and plans continue. -/
  | holdover
  /-- `HOLDOVER_TIMEOUT` (R28): After 10 ms of continuous holdover the engine logs 0x0A20, sets TCK_STAT.HOLDOVER and from then on refuses barrier arms. -/
  | holdoverTimeout
  /-- `HOLDOVER_END` (R28): After 16 consecutive strobes with pse_hall_valid high, the engine accepts barrier arms again. -/
  | holdoverEnd
  /-- `TICK_BOUNDARY` (R35): At a tick boundary the engine swaps in an accepted plan, starts the plan in force or counts an overrun and queues a pending instance, and applies the changes held for a boundary. -/
  | tickBoundary
  /-- `PLAN_SLOT` (R507): A plan slot of 256 LCLK cycles begins, and the engine carries out the plan entries for that slot. -/
  | planSlot (part : Fin 8) (eyes : List (Nat × List Nat))
  /-- `FEED` (R507): A FEED entry connects a trio to a feeder pair and delivers the pair's beats to the named rows. -/
  | feedEntry (part : Fin 8) (trio : Fin 256) (pair : Fin 256) (rows : BitVec 3)
  /-- `LANE` (R194): A LANE entry is a consume point: the engine takes the next descriptor of the queue, or skips the span when the queue is empty or its completion ring is full. -/
  | laneEntry (part : Fin 8) (queue : Fin 16) (kind : Fin 4) (split : Nat) (first : Fin 256) (last : Fin 256) (slots : Nat)
  /-- `UPDATE` (R129): An UPDATE entry gives the update unit cycles in which it issues its tower accesses, up to 32 elements per ECLK cycle. -/
  | updateSlot (part : Fin 8) (cycles : Nat)
  /-- `BANK` (R507): A BANK entry reserves class-0 cycles of one bank for a user, and the engine issues that user's commands in those cycles. -/
  | bankEntry (bank : Fin 512) (user : Fin 5) (cmds : List TowerCmd)
  /-- `REFRESH` (R38): A REFRESH entry issues one REF to a bank, or skips every second one while the warn state is not in force. -/
  | refreshEntry (bank : Fin 512) (eyes : List Nat)
  /-- `PLAN_RETIRE` (R41): An instance retires its last slot; the engine arrives at the barrier and starts the next pending instance, if any. -/
  | planRetire (part : Fin 8) (time : BitVec 64)
  /-- `TIME_COMMIT` (R30): The engine accepts the staged period, epoch and tick base, or refuses them with TIME_REFUSED. -/
  | timeCommit (path : Path)
  /-- `TIME_EPOCH` (R32): At hall time TCK_EPOCH the committed values take effect; accepted plans for the old period are withdrawn with reason 0x2, and an armed first release at or after the epoch is cancelled. -/
  | timeEpoch
  /-- `PLAN_COMMIT` (R34): The engine locks a partition's next buffer and starts the plan check, or ignores the commit when that buffer is busy. -/
  | planCommit (path : Path) (part : Fin 8)
  /-- `PLAN_CHECK_DONE` (R37): The plan check ends; the engine reports the first cause of refusal or accepts the plan. -/
  | planCheckDone (part : Fin 8)
  /-- `PLAN_CANCEL` (R36): The engine withdraws a partition's committed plan, when the withdrawal arrives at least one slot before the swap boundary. -/
  | planCancel (path : Path) (part : Fin 8)
  /-- `PLAN_DATA_ACCESS` (R36): An access to TCK_PLAN_DATA reads or writes a word of the next buffer and then advances TCK_PLAN_ADDR; a write to a locked buffer is dropped and sets PLAN_LOCKED_WR. -/
  | planDataAccess (path : Path) (wr : Option Word)
  /-- `BARRIER_ARM` (R39): A write of TCK_BARRIER on the manager arms the first release and sends RELEASE on the ring, or is refused with ARM_REFUSED. -/
  | barrierArm (path : Path) (hi : Word)
  /-- `RELEASE` (R39): An engine receives a RELEASE ring message for a boundary, or with CANCEL set withdraws the release it holds; a release received after its boundary starts that instance at the next boundary. -/
  | ringRelease (hdr : BitVec 64) (payload : List (BitVec 64))
  /-- `RELEASE_TIMEOUT` (R17): A worker has received no release for a boundary 4 tick periods after it, so it starts no further plan and raises a tick overrun. -/
  | releaseTimeout
  /-- `SEAL` (R18): The manager receives a SEAL ring message carrying an engine's tick seal and forms the chip seal in TCK_CHIP_SEAL. -/
  | ringSeal (hdr : BitVec 64) (payload : List (BitVec 64))
  /-- `RING_ARRIVAL` (R41): The manager receives an ARRIVAL ring message and records the engine's place in TCK_ARRIVAL. -/
  | ringArrival (hdr : BitVec 64) (payload : List (BitVec 64))
  /-- `COUNTER` (R404): An engine receives a COUNTER ring message and arms the snapshot, freeze or unfreeze it carries. -/
  | ringCounter (hdr : BitVec 64) (payload : List (BitVec 64))
  /-- `RELAY` (R431): An engine receives a RELAY ring message carrying up to 16 bytes of a Kiosk message for a mailbox. -/
  | ringRelay (hdr : BitVec 64) (payload : List (BitVec 64))
  /-- `CHECK` (R460): An engine receives a CHECK ring message and checks the straps of the sender against its own. -/
  | ringCheck (hdr : BitVec 64) (payload : List (BitVec 64))
  /-- `CHECK_TIMEOUT` (R460): An engine's own CHECK has not returned within 10 µs of a cold start, so it logs fatal error 0x0A50 and arms no barrier. -/
  | checkTimeout
  /-- `WRITE` (R444): A host data port WRITE request is accepted and applied as a class-1 write, and one response is sent once the write is visible. -/
  | hostWrite (ch : Fin 4) (hdr : BitVec 128) (beats : List (List Byte × List Bool))
  /-- `READ` (R444): A host data port READ request is accepted and answered with data, poison or a refusal status. -/
  | hostRead (ch : Fin 4) (hdr : BitVec 128)
  /-- `WRITE_ADMIT` (R80): Room frees in the Cold frame or in a block chain, and a stalled write is admitted in class order. -/
  | writeAdmit
  /-- `DELTA_SEND` (R73): The coding engine hands the delta record of an open entry to the fabric port for each parity holder. -/
  | deltaSend (entry : Nat) (damaged : Bool)
  /-- `DELTA_RECORD` (R75): A holder receives a delta record and checks it; it then applies it in sequence order, holds it for reordering, drops it as a duplicate or stale record, or answers a NAK. -/
  | deltaRecord (gate : Bool) (src : BitVec 20) (msg : List Byte)
  /-- `ACK_SEND` (R77): 1 µs after an applied record, or after every 8 records applied, the holder sends a cumulative ACK. -/
  | ackSend (slot : Fin 16) (member : Fin 32)
  /-- `ACK` (R79): A sender receives an ACK and closes every Cold frame entry that all its holders have now acknowledged. -/
  | ack (gate : Bool) (src : BitVec 20) (msg : List Byte)
  /-- `NAK` (R77): A sender receives a NAK and resends every unacknowledged record from the expected sequence number, with RESENT set. -/
  | nak (gate : Bool) (src : BitVec 20) (msg : List Byte)
  /-- `RESEND` (R81): CDJ_RESEND has passed since an unacknowledged record was last sent, so the engine resends it to that holder. -/
  | resend (entry : Nat) (holder : Fin 32)
  /-- `ACK_TIMEOUT` (R82): An entry has not been acknowledged by a holder CDJ_ACK_TIMEOUT after it was first sent, so that holder's role is marked suspect. -/
  | ackTimeout (entry : Nat) (holder : Fin 32)
  /-- `MEMBER_SEAL` (R84): The manager role receives a member seal message and advances the group seal when the lowest member seal rises. -/
  | memberSeal (gate : Bool) (src : BitVec 20) (msg : List Byte)
  /-- `GROUP_SEAL` (R84): A member receives a group seal message and records a higher group seal in CDE_GRP_SEAL. -/
  | groupSeal (gate : Bool) (src : BitVec 20) (msg : List Byte)
  /-- `INSTALL` (R88): CDE_GRP_CMD INSTALL checks the selected group slot and installs the group, or refuses it with the first cause found. -/
  | installGroup (path : Path)
  /-- `ZERO_FILL_DONE` (R89): The zero fill of an installed region and its tag area ends, and CDE_GRP_STAT.BUSY clears. -/
  | zeroFillDone (slot : Fin 16)
  /-- `TAG_CHECK_DONE` (R490): The tag line check of an INSTALL with ZERO clear ends, and the slot becomes ACTIVE. -/
  | tagCheckDone (slot : Fin 16)
  /-- `DRAIN` (R91): CDE_GRP_CMD DRAIN stalls new writes to the region and moves the slot to DRAINING. -/
  | drainSlot (path : Path)
  /-- `RESUME` (R91): CDE_GRP_CMD RESUME returns a DRAINED slot to ACTIVE. -/
  | resume (path : Path)
  /-- `DISSOLVE` (R91): CDE_GRP_CMD DISSOLVE discards the slot's open deltas and empties the slot. -/
  | dissolve (path : Path)
  /-- `DECLARE_LOST` (R95): CDR_ROLE_CMD DECLARE_LOST marks a role LOST, counts its acknowledgements as given, resets the sequences with it and records the declaration seal and tick. -/
  | declareLost (path : Path) (role : Fin 32)
  /-- `REBUILD_INSTALL_DONE` (R100): An install with REBUILD_ON_INSTALL has written PENDING tag lines for every slot, and CDR_CMD_STAT.AWAIT_START is set. -/
  | rebuildInstallDone (slot : Fin 16)
  /-- `REPLACE` (R101): CDR_ROLE_CMD REPLACE gives a LOST role a new node and new labels, or refuses them for a domain clash or a node already in use. -/
  | replace (path : Path) (role : Fin 32) (node : BitVec 20)
  /-- `START` (R99): CDR_ROLE_CMD START on the spare begins the rebuild of its PENDING rows. -/
  | startRebuild (path : Path) (role : Fin 32)
  /-- `REBUILD_ROW` (R110): The spare begins the background rebuild of the next PENDING row, pacing its gathers to the rebuild share. -/
  | rebuildRow (slot : Fin 16)
  /-- `GATHER_REQUEST` (R104): A member receives a gather request and answers with a snapshot of the slot, its tag line and its journal deltas, or with UNAVAILABLE or REFUSED. -/
  | gatherRequest (gate : Bool) (src : BitVec 20) (msg : List Byte)
  /-- `GATHER_RESPONSE` (R105): A gather response arrives; once the row has its sources, the engine decodes the row, writes it and releases the records held for it. -/
  | gatherResponse (gate : Bool) (src : BitVec 20) (msg : List Byte) (damaged : Bool)
  /-- `GATHER_TIMEOUT` (R114): A source has not answered a gather within CDR_GATHER_TIMEOUT, so it is marked suspect and another set of sources is chosen. -/
  | gatherTimeout (slot : Fin 16) (row : Nat) (role : Fin 32)
  /-- `REPAIR_RECORD` (R108): A holder receives a repair record and XORs its payload into the parity slot without a coefficient. -/
  | repairRecord (gate : Bool) (src : BitVec 20) (msg : List Byte)
  /-- `RESEED` (R117): A holder receives a reseed message and rebuilds its parity slot of the row from current values. -/
  | reseed (gate : Bool) (src : BitVec 20) (msg : List Byte)
  /-- `ARRIVAL` (R121): The acting manager receives an arrival message and counts as last the roles with the largest offset. -/
  | arrival (gate : Bool) (src : BitVec 20) (msg : List Byte)
  /-- `ARRIVAL_MISSING` (R121): A role's arrival message has not come by the boundary two ticks later, so the role is counted as last. -/
  | arrivalMissing (slot : Fin 16) (role : Fin 32) (tick : BitVec 64)
  /-- `STRAG_WINDOW_END` (R121): A straggler window of CDR_STRAG_WIN ticks ends, and the last-arrival counts start again. -/
  | stragWindowEnd (slot : Fin 16)
  /-- `UPD_PASS_GO` (R128): UPD_PASS.GO requests an update pass of the selected partition. -/
  | updPassGo (path : Path)
  /-- `PASS_BEGIN` (R128): At the first eligible boundary the pass begins and latches its clip scale, step, hyperparameters and seed. -/
  | passBegin (part : Fin 8)
  /-- `LAYER_BEGIN` (R130): The layer's READY flag is set, so the unit checks the layer descriptor and starts the layer, or skips it. -/
  | layerBegin (part : Fin 8)
  /-- `PASS_END` (R129): The last element of the last layer is written; Belvedere copies its result banks and the READY flags are cleared. -/
  | passEnd (part : Fin 8)
  /-- `SGD_MOM` (R136): The built-in heavy-ball momentum program updates an element. -/
  | sgdMom (part : Fin 8)
  /-- `SGD_NESTEROV` (R136): The built-in Nesterov momentum program updates an element. -/
  | sgdNesterov (part : Fin 8)
  /-- `ADAMW` (R136): The built-in AdamW program updates an element. -/
  | adamw (part : Fin 8)
  /-- `LION` (R136): The built-in Lion program updates an element. -/
  | lion (part : Fin 8)
  /-- `ADAGRAD_ROW` (R137): The built-in row-wise Adagrad program updates a row of L elements. -/
  | adagradRow (part : Fin 8)
  /-- `GEN_ONLY` (R137): The GEN_ONLY program writes the generator copy from the master and changes no state. -/
  | genOnly (part : Fin 8)
  /-- `NOP` (R132): An update operation word with no result. -/
  | nopOp (d : Fin 32) (a : Fin 32) (b : Fin 32) (c : Fin 32)
  /-- `MOV` (R132): An update operation word that copies a. -/
  | movOp (d : Fin 32) (a : Fin 32) (b : Fin 32) (c : Fin 32)
  /-- `ADD` (R132): An update operation word that computes a + b. -/
  | addOp (d : Fin 32) (a : Fin 32) (b : Fin 32) (c : Fin 32)
  /-- `SUB` (R132): An update operation word that computes a − b. -/
  | subOp (d : Fin 32) (a : Fin 32) (b : Fin 32) (c : Fin 32)
  /-- `MUL` (R132): An update operation word that computes a · b. -/
  | mulOp (d : Fin 32) (a : Fin 32) (b : Fin 32) (c : Fin 32)
  /-- `FMA` (R132): An update operation word that computes a · b + c with one rounding. -/
  | fmaOp (d : Fin 32) (a : Fin 32) (b : Fin 32) (c : Fin 32)
  /-- `FNMA` (R132): An update operation word that computes c − a · b with one rounding. -/
  | fnmaOp (d : Fin 32) (a : Fin 32) (b : Fin 32) (c : Fin 32)
  /-- `DIV` (R132): An update operation word that computes a / b. -/
  | divOp (d : Fin 32) (a : Fin 32) (b : Fin 32) (c : Fin 32)
  /-- `SQRT` (R132): An update operation word that computes the square root of a. -/
  | sqrtOp (d : Fin 32) (a : Fin 32) (b : Fin 32) (c : Fin 32)
  /-- `MAX` (R132): An update operation word that takes the larger of a and b. -/
  | maxOp (d : Fin 32) (a : Fin 32) (b : Fin 32) (c : Fin 32)
  /-- `MIN` (R132): An update operation word that takes the smaller of a and b. -/
  | minOp (d : Fin 32) (a : Fin 32) (b : Fin 32) (c : Fin 32)
  /-- `ABS` (R132): An update operation word that computes |a|. -/
  | absOp (d : Fin 32) (a : Fin 32) (b : Fin 32) (c : Fin 32)
  /-- `NEG` (R132): An update operation word that computes −a. -/
  | negOp (d : Fin 32) (a : Fin 32) (b : Fin 32) (c : Fin 32)
  /-- `SIGN` (R132): An update operation word that gives the sign of a. -/
  | signOp (d : Fin 32) (a : Fin 32) (b : Fin 32) (c : Fin 32)
  /-- `SEL` (R132): An update operation word that gives b when a > 0, otherwise c. -/
  | selOp (d : Fin 32) (a : Fin 32) (b : Fin 32) (c : Fin 32)
  /-- `SQR` (R132): An update operation word that computes a · a. -/
  | sqrOp (d : Fin 32) (a : Fin 32) (b : Fin 32) (c : Fin 32)
  /-- `PROG_LOAD` (R133): UPD_PROG_CMD LOAD checks the staged words and commits them to a user program slot, or reports the reason and the first failing word. -/
  | progLoad (path : Path) (value : Word)
  /-- `UPD_FLIP` (R145): A write of a version to UPD_FLIP arms a flip, or is refused with a reason. -/
  | updFlip (path : Path) (value : Word)
  /-- `TLM_RD_SEL_WRITE` (R154): A write of a slot number to TLM_RD_SEL copies that slot's result bank into the read window in one step. -/
  | tlmRdSelWrite (path : Path) (value : Word)
  /-- `TLM_CLEAR` (R158): TLM_CLEAR zeroes the live and result banks of one Belvedere slot at once. -/
  | tlmClear (path : Path) (value : Word)
  /-- `TLM_CLEAR_ALL` (R158): TLM_CLEAR with ALL set zeroes every Belvedere slot. -/
  | tlmClearAll (path : Path) (value : Word)
  /-- `NOISE_GO` (R155): CNV_NOISE_CMD.GO starts a noise fill of Philox-derived elements, or refuses it. -/
  | noiseGo (path : Path)
  /-- `NOISE_ABORT` (R159): CNV_NOISE_CMD.ABORT stops a noise fill and keeps the elements already written. -/
  | noiseAbort (path : Path) (written : Nat)
  /-- `NOISE_DONE` (R159): A noise fill ends, and DONE and RESULT are set. -/
  | noiseDone
  /-- `BYPASS_WRITE` (R186): A write to a row's lane or column bypass mask is held pending, and no new step starts on that row. -/
  | bypassWrite (path : Path) (cols : Bool) (value : Word)
  /-- `KWIDTH_PIN_WRITE` (R186): A write to LNF_KWIDTH_PIN is held pending for every row whose K-width it changes. -/
  | kwidthPinWrite (path : Path) (value : Word)
  /-- `ROW_TEST` (R189): LNF_ROW_TEST.GO self-tests the selected row, or is refused when the row's partition has a plan. -/
  | rowTest (path : Path)
  /-- `ROW_TEST_DONE` (R189): A row self-test ends and reports its failing lanes and columns. -/
  | rowTestDone (lanes : Word) (cols : Word)
  /-- `IDLE_WINDOW` (R190): A 64-cycle idle window begins, and the applied idle value is taken from the largest demand. -/
  | idleWindow (len : Nat)
  /-- `STREAM_MM` (R206): A STREAM-MM descriptor multiplies a streamed operand against stationary samples on the consume point's rows. -/
  | streamMm (queue : Fin 16) (faults : List LaneFault)
  /-- `GATHER_POOL` (R211): A GATHER-POOL descriptor fetches table rows by index and pools them per bag. -/
  | gatherPool (queue : Fin 16)
  /-- `REDUCE_ADD` (R214): A REDUCE-ADD descriptor adds a landed collective fragment into its destination and then sets its flag. -/
  | reduceAdd (queue : Fin 16)
  /-- `CHAIN_END` (R204): The last descriptor of a chain ends and releases its generator buffer pin. -/
  | chainEnd (queue : Fin 16)
  /-- `CHAIN_LIMIT` (R205): A chain has stayed open for LNP_CHAIN_LIMIT boundaries, so the engine closes it and releases its pin. -/
  | chainLimit (queue : Fin 16)
  /-- `OPERAND_LAND` (R44): A late operand arrives, and the bubbles of the slots that wait on it end. -/
  | operandLand (queue : Fin 16)
  /-- `Q_TAIL_WRITE` (R197): A write to a queue's tail register covers new descriptors, or is dropped and sets TAIL_BAD. -/
  | qTailWrite (path : Path) (kind : QKind) (value : Word)
  /-- `Q_ENABLE` (R220): A write that changes a queue's ENABLE from 0 to 1 zeroes its four ring indices. -/
  | qEnable (path : Path) (kind : QKind) (value : Word)
  /-- `ARB_GRANT` (R378): The boundary arbiter grants a class 1 to 3 or switch access into an open burst opportunity of a bank, or a channel of the external tier port. -/
  | arbGrant (res : ArbRes) (reqs : List ArbReq) (holder : Option (ArbReq × Bool)) (cmds : List TowerCmd) (damage : List (BitVec 33 × BitVec 9))
  /-- `QUOTA_WINDOW` (R379): A 64-ECLK arbiter window begins, and class 1 is unmasked. -/
  | quotaWindow
  /-- `AUTONOMOUS_REFRESH` (R233): The controller refreshes a bank that no running plan refreshes, at its autonomous rate. -/
  | autonomousRefresh (bank : Fin 512) (eyes : List Nat)
  /-- `APPLY` (R240): TWR_ORG_CMD APPLY accepts an Orangery entry into COPYING or PENDING_WARM, or refuses it with a reason. -/
  | apply (path : Path)
  /-- `ORANGERY_COPY_DONE` (R241): The copy of a row or column-group repair ends, and the spare takes over at the next boundary. -/
  | orangeryCopyDone (entry : Fin 256)
  /-- `TEMP_SAMPLE` (R245): Every 10 µs the engine samples the layer sensors and enters or leaves the warn, throttle and critical states. -/
  | tempSample (readings : List (Option Int))
  /-- `CRIT_CLEAR` (R248): TTH_CRIT_CLEAR.GO ends the critical halt when every layer is at or below 90 °C, and otherwise is ignored. -/
  | critClear (path : Path)
  /-- `PROBE_GO` (R249): TWR_PROBE_CFG.GO writes a bank group's probe row and leaves it unrefreshed for the interval. -/
  | probeGo (path : Path)
  /-- `PROBE_DONE` (R249): The probe interval ends, and the probe row is read and its failing bits reported. -/
  | probeDone (fails : Nat)
  /-- `TTH_PEAK_WRITE` (R253): Any write to TTH_PEAK sets it to the current temperature. -/
  | tthPeakWrite (path : Path)
  /-- `MAP` (R264): The page queue operation MAP maps pages as ZERO, FIXED or CODED. -/
  | mapPages (part : Fin 8)
  /-- `UNMAP` (R264): The page queue operation UNMAP clears each page's anchor and drops its reference. -/
  | unmap (part : Fin 8)
  /-- `MOVE` (R268): The page queue operation MOVE starts a move of each page to the tier it names. -/
  | movePages (part : Fin 8)
  /-- `PAGE_MOVE_DONE` (R268): The copy of a page ends; the PME switches in one step and the source frame is released once its pins end. -/
  | pageMoveDone (part : Fin 8) (page : BitVec 24)
  /-- `RESERVE` (R264): The page queue operation RESERVE reserves free frames to the partition, or returns them when FREE is set. -/
  | reserveFrames (part : Fin 8)
  /-- `SEQ_ADD` (R273): The page queue operation SEQ_ADD maps empty virtual pages of a sequence to fresh pages from the KV pool. -/
  | seqAdd (part : Fin 8)
  /-- `SEQ_SHARE` (R273): The page queue operation SEQ_SHARE points virtual pages at an existing page of current generation. -/
  | seqShare (part : Fin 8)
  /-- `SEQ_FREE` (R275): The page queue operation SEQ_FREE drops a sequence's references. -/
  | seqFree (part : Fin 8)
  /-- `COW` (R274): The page queue operation COW gives a sequence a private copy of a shared page. -/
  | cow (part : Fin 8)
  /-- `PFT_LOOKUP` (R280): The page queue operation PFT_LOOKUP looks up prefix hashes and writes one result per key. -/
  | pftLookup (part : Fin 8)
  /-- `PFT_INSERT` (R278): The page queue operation PFT_INSERT writes a prefix entry in its bucket, or fails with NO_SPACE. -/
  | pftInsert (part : Fin 8)
  /-- `PFT_REMOVE` (R278): The page queue operation PFT_REMOVE clears the entry at FIRST. -/
  | pftRemove (part : Fin 8)
  /-- `PIN_RELEASE` (R276): An access's last beat leaves the bank, and the page loses its pin. -/
  | pinRelease (part : Fin 8) (page : BitVec 24)
  /-- `AGER_PASS` (R270): Every PGM_AGE_TICKS ticks the ager raises the AGE of every page not accessed since the last pass. -/
  | agerPass
  /-- `EVICT` (R272): While free T1 frames are below LOW, the engine evicts the page with the highest AGE. -/
  | evict
  /-- `ZERO_FILL` (R271): The mover fills a dirty free frame with zeros before it can be allocated. -/
  | zeroFill (t2 : Bool) (frame : Nat)
  /-- `MAP_PAGES_WRITE` (R259): A write of PGM_MAP_PAGES takes the map frames out of the pool or returns them, or is dropped with MAP_REFUSED. -/
  | mapPagesWrite (path : Path) (value : Word)
  /-- `PFT_ENABLE` (R289): Setting PFT_CFG.ENABLE clears VALID in every prefix entry. -/
  | pftEnable (path : Path) (value : Word)
  /-- `LOAN` (R283): A lender receives LOAN and answers GRANT with a zeroed frame, or with NO_SPACE or KEY_FAIL. -/
  | loan (gate : Bool) (src : BitVec 20) (msg : List Byte)
  /-- `GRANT` (R283): A borrower receives GRANT with the index of a lent frame. -/
  | grant (gate : Bool) (src : BitVec 20) (msg : List Byte)
  /-- `LOAN_TIMEOUT` (R283): A borrower has no GRANT within FBP_MS_TIMEOUT, so it repeats the LOAN with the same request number. -/
  | loanTimeout (part : Fin 8) (page : BitVec 24)
  /-- `RETURN` (R283): A lender receives RETURN and zeroes the frame. -/
  | returnFrame (gate : Bool) (src : BitVec 20) (msg : List Byte)
  /-- `REVOKE` (R285): A borrower receives a revoke notice and returns the page to HOME, or makes it DROPPED. -/
  | revoke (gate : Bool) (src : BitVec 20) (msg : List Byte)
  /-- `LEND_PAGES_WRITE` (R285): Lowering PGM_LEND_PAGES below PGM_LENT revokes loans, highest lent frame first. -/
  | lendPagesWrite (path : Path) (value : Word)
  /-- `LENDER_NODE_WRITE` (R285): Clearing VALID of a lender entry handles every page borrowed from that lender as revoked. -/
  | lenderNodeWrite (path : Path) (value : Word)
  /-- `BORROWER_NODE_WRITE` (R283): Clearing VALID of a borrower entry revokes every frame lent to that node. -/
  | borrowerNodeWrite (path : Path) (value : Word)
  /-- `FABRIC_ENABLE` (R290): Setting FBP_CTRL.EN starts sending held transactions and returning receive credits. -/
  | fabricEnable (path : Path) (value : Word)
  /-- `LOAD` (R295): An inbound LOAD is checked and read as a class-2 access, and answered with a RESPONSE. -/
  | fabLoad (hdr : List Byte) (payload : List Byte)
  /-- `STORE` (R295): An inbound STORE is checked and written as a class-2 access, and answered with a RESPONSE. -/
  | fabStore (hdr : List Byte) (payload : List Byte)
  /-- `ATOMIC` (R297): An inbound ATOMIC is checked and applied indivisibly to its word, and returns the old value. -/
  | atomic (hdr : List Byte) (payload : List Byte)
  /-- `ADD_I32` (R296): Atomic 32-bit wrapping add. -/
  | addI32 (hdr : List Byte) (payload : List Byte)
  /-- `ADD_I64` (R296): Atomic 64-bit wrapping add. -/
  | addI64 (hdr : List Byte) (payload : List Byte)
  /-- `ADD_F32` (R296): Atomic FP32 add. -/
  | addF32 (hdr : List Byte) (payload : List Byte)
  /-- `MIN_S32` (R296): Atomic signed 32-bit minimum. -/
  | minS32 (hdr : List Byte) (payload : List Byte)
  /-- `MIN_S64` (R296): Atomic signed 64-bit minimum. -/
  | minS64 (hdr : List Byte) (payload : List Byte)
  /-- `MIN_U32` (R296): Atomic unsigned 32-bit minimum. -/
  | minU32 (hdr : List Byte) (payload : List Byte)
  /-- `MIN_U64` (R296): Atomic unsigned 64-bit minimum. -/
  | minU64 (hdr : List Byte) (payload : List Byte)
  /-- `MIN_F32` (R296): Atomic FP32 minimum. -/
  | minF32 (hdr : List Byte) (payload : List Byte)
  /-- `MAX_S32` (R296): Atomic signed 32-bit maximum. -/
  | maxS32 (hdr : List Byte) (payload : List Byte)
  /-- `MAX_S64` (R296): Atomic signed 64-bit maximum. -/
  | maxS64 (hdr : List Byte) (payload : List Byte)
  /-- `MAX_U32` (R296): Atomic unsigned 32-bit maximum. -/
  | maxU32 (hdr : List Byte) (payload : List Byte)
  /-- `MAX_U64` (R296): Atomic unsigned 64-bit maximum. -/
  | maxU64 (hdr : List Byte) (payload : List Byte)
  /-- `MAX_F32` (R296): Atomic FP32 maximum. -/
  | maxF32 (hdr : List Byte) (payload : List Byte)
  /-- `CAS_32` (R296): Atomic 32-bit compare and swap. -/
  | cas32 (hdr : List Byte) (payload : List Byte)
  /-- `CAS_64` (R296): Atomic 64-bit compare and swap. -/
  | cas64 (hdr : List Byte) (payload : List Byte)
  /-- `RESPONSE` (R314): A RESPONSE arrives and completes its request when its tag and generation match; otherwise it is dropped as stale or unexpected. -/
  | response (hdr : List Byte) (payload : List Byte)
  /-- `TEARDOWN` (R319): A TEARDOWN from the fabric manager resets the partition of the named job; from any other node it is dropped as hostile. -/
  | teardown (hdr : List Byte) (payload : List Byte)
  /-- `GET` (R301): A fabric queue GET is split at 256-byte boundaries and issued as LOADs. -/
  | fabGet (part : Fin 8)
  /-- `PUT` (R301): A fabric queue PUT is split at 256-byte boundaries and issued as STOREs. -/
  | fabPut (part : Fin 8)
  /-- `ATOMIC_DESCRIPTOR` (R301): A fabric queue ATOMIC issues one atomic request and writes the old value at LOCAL. -/
  | atomicDescriptor (part : Fin 8)
  /-- `TRANSACTION_SEND` (R309): The port chooses and sends an outbound transaction's flits, when the transaction holds its response room and credits. -/
  | transactionSend (vc : Fin 8) (tag : Fin 4096)
  /-- `MS_TIMEOUT` (R315): A memory-semantic request has no response FBP_MS_TIMEOUT after it was sent; it completes with poison or TIMEOUT and its tag is quarantined. -/
  | msTimeout (entry : Fin 4096) (tag : Fin 4096)
  /-- `GENERATION_STEP` (R316): A partner entry with a quarantined tag steps its generation and frees the quarantined tags. -/
  | generationStep (entry : Fin 4096)
  /-- `PARTNER_WRITE` (R318): A new node written to a partner entry, or VALID cleared, steps its generation and completes its outstanding requests with GONE. -/
  | partnerWrite (path : Path) (value : Word)
  /-- `REGION_ENTRY_WRITE` (R307): A write to a region entry or KX window applies to later requests; a write that duplicates a key is dropped and sets DUP_KEY. -/
  | regionEntryWrite (path : Path) (off : BitVec 12) (value : Word)
  /-- `BLOCK_REMOVE` (R324): Writing 1 to FBK_BLK_NODE.VALID removes the entry from the block list. -/
  | blockRemove (path : Path) (value : Word)
  /-- `FVC_BUF_WRITE` (R325): A write of FVC_BUF sets a channel's receive pool, or is dropped and sets BUF_REFUSED. -/
  | fvcBufWrite (path : Path) (value : Word)
  /-- `LINK_UP` (R453): pse_fb_link_up rises, and the link controller returns its initial credits. -/
  | linkUp (initial : List Nat)
  /-- `LINK_DOWN` (R454): pse_fb_link_up falls; partly received transactions are discarded, credits are zeroed and 0x0620 is logged. -/
  | linkDown
  /-- `LINK_RETRY` (R322): A retry pulse on pse_fb_retry is counted in FBP_RETRY_CNT. -/
  | linkRetry
  /-- `CREDIT_RETURN` (R453): The link controller returns one outbound credit for a channel and class. -/
  | creditReturn (vc : Fin 8) (resp : Bool)
  /-- `COL_INSTALL` (R327): COL_GRP_CMD INSTALL checks and installs a collective group entry. -/
  | colInstall (path : Path)
  /-- `COL_REMOVE` (R327): COL_GRP_CMD REMOVE removes a collective group entry with no collective in progress. -/
  | colRemove (path : Path)
  /-- `ALL_REDUCE` (R330): The collective ALL_REDUCE reduces every member's elements into DST on each member. -/
  | allReduce (part : Fin 8)
  /-- `REDUCE_SCATTER` (R330): The collective REDUCE_SCATTER leaves chunk r of the reduction on rank r. -/
  | reduceScatter (part : Fin 8)
  /-- `ALL_GATHER` (R330): The collective ALL_GATHER gathers every member's block in rank order. -/
  | allGather (part : Fin 8)
  /-- `BROADCAST` (R339): The collective BROADCAST copies ROOT's elements to every member, or with WEIGHTS set its generator buffer. -/
  | broadcast (part : Fin 8)
  /-- `ALL_TO_ALL` (R330): The collective ALL_TO_ALL exchanges one block between every pair of ranks. -/
  | allToAll (part : Fin 8)
  /-- `BARRIER` (R330): The collective BARRIER completes once every member has arrived. -/
  | colBarrier (part : Fin 8)
  /-- `KV_RING` (R340): The collective KV_RING circulates KV blocks around the ring for n − 1 steps. -/
  | kvRing (part : Fin 8)
  /-- `SEGMENT` (R332): A collective SEGMENT arrives; it lands its step's data, or is dropped as corrupt or not current. -/
  | colSegment (gate : Bool) (src : BitVec 20) (msg : List Byte)
  /-- `READY` (R332): A collective READY arrives and lets the sender send the step's data, or is held until the collective starts. -/
  | colReady (gate : Bool) (src : BitVec 20) (msg : List Byte)
  /-- `BARRIER_ARRIVAL` (R330): A collective ARRIVAL message for a BARRIER arrives. -/
  | barrierArrival (gate : Bool) (src : BitVec 20) (msg : List Byte)
  /-- `COL_TIMEOUT` (R342): A step has waited longer than COL_TIMEOUT, so its handle becomes FAILED and no further step starts. -/
  | colTimeout (part : Fin 8)
  /-- `ARCHIVE_ARM` (R348): ARC_CMD ARM arms an archive point, or refuses it with the first cause found. -/
  | archiveArm (path : Path) (full : Bool)
  /-- `ARCHIVE_ABORT` (R356): ARC_CMD ABORT fails the point in progress and keeps its capture bits for the next point. -/
  | archiveAbort (path : Path)
  /-- `ARCHIVE_POINT` (R349): An armed point takes effect: the live and capture maps swap, ARC_SEQ increments and capture begins. -/
  | archivePoint (part : Fin 8)
  /-- `CAPTURE_RECORD` (R350): The capture reads the next changed granule and stages and sends its record, when the window has room. -/
  | captureRecord (part : Fin 8)
  /-- `ARCHIVE_ACK` (R355): An archive acknowledgement frees the stage slots up to the sequence it names, and sends or completes the end record. -/
  | archiveAck (gate : Bool) (src : BitVec 20) (msg : List Byte)
  /-- `ARCHIVE_RESEND` (R355): A record not acknowledged within ARC_ACK_TIMEOUT is resent; after its eighth resend the point fails. -/
  | archiveResend (part : Fin 8) (seq : Nat)
  /-- `RESTORE` (R358): The restore queue operation RESTORE decodes records and writes each element into every matching shard. -/
  | restore (part : Fin 8)
  /-- `CREATE` (R367): PTC_CMD CREATE makes a partition RESIDENT or PARKED on its seat, or refuses it. -/
  | createPart (path : Path)
  /-- `SWITCH` (R369): PTC_CMD SWITCH requests that a PARKED partition replace the resident partition of its seat. -/
  | switchPart (path : Path)
  /-- `SWITCH_DONE` (R369): The image transfers end: the outgoing partition becomes PARKED and the incoming one RESIDENT. -/
  | switchDone (seat : Fin 8) (time : BitVec 64)
  /-- `RESET` (R375): PTC_CMD RESET makes a partition RESETTING and ends its work in every engine. -/
  | resetPart (path : Path)
  /-- `DRAIN_LIMIT` (R376): A resetting partition's group slot has not reached DRAINED within PTC_DRAIN_LIMIT, so it is dissolved. -/
  | drainLimit (part : Fin 8)
  /-- `RESET_DONE` (R377): The reset's work has ended: the partition's pages and frames are released and it becomes EMPTY. -/
  | resetDone (part : Fin 8)
  /-- `SLOWDOWN_WINDOW` (R373): A window of PTC_SLOW_WIN ticks ends, and PTC_SLOWDOWN is computed. -/
  | slowdownWindow
  /-- `XT_RESPONSE` (R450): The external tier port returns read data or a write acknowledgement, or an uncorrectable error that poisons or reconstructs the granule. -/
  | xtResponse (granule : BitVec 29) (wr : Bool) (err : Bool)
  /-- `ERU_POP` (R387): ERU_POP removes the head record and presents the next one. -/
  | eruPop (path : Path)
  /-- `ERU_INJECT` (R393): ERU_INJECT generates a record with a given code and severity. -/
  | eruInject (path : Path) (value : Word)
  /-- `FATAL_CLEAR` (R390): A W1C of ERU_STAT.FATAL clears it when no fatal condition remains, and pse_nmi falls. -/
  | fatalClear (path : Path)
  /-- `CTR_CFG_WRITE` (R401): A write of CTR_CFG is staged to take effect at the next tick boundary. -/
  | ctrCfgWrite (path : Path) (value : Word)
  /-- `PRELOAD` (R401): CTR_PRELOAD_HI.LOAD stages a preload of the counter for the next tick boundary. -/
  | preload (path : Path) (value : Word)
  /-- `SNAPSHOT` (R404): CTR_SNAP_CMD SNAPSHOT arms a snapshot at a hall time. -/
  | snapshot (path : Path) (host : Bool)
  /-- `FREEZE` (R404): CTR_SNAP_CMD FREEZE arms a snapshot followed by a stop of the counters. -/
  | freeze (path : Path) (host : Bool)
  /-- `UNFREEZE` (R404): CTR_SNAP_CMD UNFREEZE arms a restart of the counters. -/
  | unfreeze (path : Path) (host : Bool)
  /-- `SNAP_TIME` (R405): The armed hall time arrives; the counters are copied into the shadow bank and stopped or restarted. -/
  | snapTime
  /-- `LATCHED_READ` (R403): A read of the LO register of a latched pair latches that path's HI value. -/
  | latchedRead (path : Path) (off : BitVec 17)
  /-- `RESTART` (R422): MGC_CORE_CTRL.RESTART restarts the selected core and clears HALTED. -/
  | restart (path : Path)
  /-- `HALT` (R434): MGC_CORE_CTRL.HALT halts the selected core. -/
  | haltCore (path : Path)
  /-- `WDT_KICK` (R421): A core's write of its own number to MGC_WDT_KICK restarts its watchdog and sets ALIVE. -/
  | wdtKick (path : Path) (value : BitVec 2)
  /-- `WATCHDOG_EXPIRY` (R421): A core's watchdog expires; the core restarts alone, or is left HALTED, or an activation reverts. -/
  | watchdogExpiry (core : Fin 4)
  /-- `KIOSK_DOORBELL` (R420): MGC_KSK_DOORBELL commits the message written in the window to the request ring, or is refused when the ring is full. -/
  | kioskDoorbell (path : Path)
  /-- `KIOSK_TAKE` (R434): MGC_KSK_TAKE frees the reply shown in the window. -/
  | kioskTake (path : Path)
  /-- `HELLO` (R420): The Kiosk request HELLO returns the accepted majors, the firmware versions and IDN_IPVER. -/
  | kioskHello (mbox : Fin 4)
  /-- `STATUS` (R420): The Kiosk request STATUS returns core, Kiosk and gate states. -/
  | kioskStatus (mbox : Fin 4)
  /-- `LOG_READ` (R420): The Kiosk request LOG_READ returns drained error records from a given sequence. -/
  | logRead (mbox : Fin 4)
  /-- `REPAIR_PUT` (R414): The Kiosk request REPAIR_PUT applies repair entries with FILL set, after which the Kiosk becomes READY. -/
  | repairPut (mbox : Fin 4)
  /-- `REPAIR_GET` (R420): The Kiosk request REPAIR_GET returns firmware's copy of the repair list. -/
  | repairGet (mbox : Fin 4)
  /-- `AGEING_GET` (R420): The Kiosk request AGEING_GET returns the last re-plan's results. -/
  | ageingGet (mbox : Fin 4)
  /-- `REPLAN` (R428): The Kiosk request REPLAN starts a re-plan at once. -/
  | replan (mbox : Fin 4) (ro : List (BitVec 24))
  /-- `FW_STAGE` (R423): The Kiosk request FW_STAGE writes a segment into staging and checks it. -/
  | fwStage (mbox : Fin 4)
  /-- `FW_ACTIVATE` (R423): The Kiosk request FW_ACTIVATE starts activation of the staged segment for a core, or is refused. -/
  | fwActivate (mbox : Fin 4)
  /-- `CORE_EXCHANGE` (R423): The old core has halted after its handoff, so the hardware exchanges staging and its region and starts the new segment. -/
  | coreExchange (ver : BitVec 16) (area : List (BitVec 8))
  /-- `FW_REVERT` (R424): The Kiosk request FW_REVERT reverts a core to its previous segment. -/
  | fwRevert (mbox : Fin 4)
  /-- `REPLAN_TIMER` (R428): Every PWA_REPLAN.HOURS hours core 2 starts an ageing re-plan. -/
  | replanTimer (ro : List (BitVec 24))
  /-- `REPLAN_NOW` (R428): PWA_REPLAN.NOW starts a re-plan at once. -/
  | replanNow (path : Path) (value : Word) (ro : List (BitVec 24))
  /-- `BUDGET_REQUEST` (R461): A write of PWA_BUDGET_REQ sets the request value and toggles pse_pwr_req_tgl. -/
  | budgetRequest (path : Path) (value : Word)
  /-- `BUDGET_GRANT` (R426): A toggle of pse_pwr_grant_tgl delivers a grant that takes effect at the next tick boundary. -/
  | budgetGrant (grant : BitVec 10)
  /-- `GOVERNOR_STEP` (R427): At each new microsecond estimate the governor raises, lowers or keeps the POWER idle demand. -/
  | governorStep (est : BitVec 10)
  /-- `SET_ENDPOINT_ID` (R430): The MCTP control message Set Endpoint ID. -/
  | setEndpointId (pkts : List (List (BitVec 8)))
  /-- `GET_ENDPOINT_ID` (R430): The MCTP control message Get Endpoint ID. -/
  | getEndpointId (pkts : List (List (BitVec 8)))
  /-- `GET_ENDPOINT_UUID` (R430): The MCTP control message Get Endpoint UUID. -/
  | getEndpointUuid (pkts : List (List (BitVec 8)))
  /-- `GET_MCTP_VERSION_SUPPORT` (R430): The MCTP control message Get MCTP Version Support. -/
  | getMctpVersionSupport (pkts : List (List (BitVec 8)))
  /-- `GET_MESSAGE_TYPE_SUPPORT` (R430): The MCTP control message Get Message Type Support. -/
  | getMessageTypeSupport (pkts : List (List (BitVec 8)))
  /-- `GET_VENDOR_DEFINED_MSG_SUPPORT` (R430): The MCTP control message Get Vendor Defined Message Support. -/
  | getVendorDefinedMsgSupport (pkts : List (List (BitVec 8)))
  /-- `VENDOR_DEFINED_MESSAGE` (R431): A type 0x7F MCTP message delivers a Kiosk message to mailbox 1 of the target engine. -/
  | vendorDefinedMessage (pkts : List (List (BitVec 8)))
  /-- `OPEN` (R432): A request to open the Lych gate starts the erase sequence, or is refused when pse_tsg_authorised is low. -/
  | openGate (via : Option Path) (authorised : Bool)
  /-- `GATE_ERASE_DONE` (R433): The tower erase ends; the gate opens, or stays ERASED_CLOSED when authorisation has fallen. -/
  | gateEraseDone (authorised : Bool) (us : BitVec 16)
  /-- `WS_BYPASS` (R464): The wrapper instruction WS_BYPASS selects the 1-bit bypass register. -/
  | wsBypass
  /-- `WS_IDCODE` (R464): The wrapper instruction WS_IDCODE selects the IDN_IPVER value. -/
  | wsIdcode
  /-- `WS_EXTEST` (R464): The wrapper instruction WS_EXTEST selects the boundary register, only while the gate is open. -/
  | wsExtest
  /-- `WS_INTEST_SCAN` (R464): The wrapper instruction WS_INTEST_SCAN selects the internal scan chains, only while the gate is open. -/
  | wsIntestScan
  /-- `TOWER_ACCESS` (R244): The wrapper instruction TOWER_ACCESS reaches the tower test resources, only while the gate is open. -/
  | towerAccess (bank : Fin 512) (cmds : List TowerCmd)
  /-- `COLD_RESET` (R439): pse_rst_cold_n is asserted, and the engine is held in reset. -/
  | coldReset
  /-- `COLD_START` (R485): On release of pse_rst_cold_n the engine samples straps and runs the cold start steps up to Kiosk ready. -/
  | coldStart (mgr : Bool) (inst : BitVec 4) (refdly : BitVec 8) (inp : StartIn)
  /-- `WARM_RESET` (R488): pse_rst_warm_n is asserted: the tower enters self-refresh, outstanding responses are dropped and UNDRAINED is recorded. -/
  | warmReset
  /-- `WARM_START` (R488): On release of pse_rst_warm_n the engine runs the warm start steps, or a forced cold start after three failures. -/
  | warmStart (inp : StartIn)
  /-- `START_LIMIT` (R493): Kiosk READY is not reached within CRG_START_LIMIT of a warm start's release, so the start counts as failed. -/
  | startLimit
  /-- `MONITOR_WINDOW` (R478): A window of 1024 IROSC cycles ends; the monitor takes its base, or marks the window out and falls back after two such windows. -/
  | monitorWindow (count : BitVec 12)
  /-- `PLL_LOCK_LOSS` (R479): A PLL loses lock after a start, and the engine falls back. -/
  | pllLockLoss (pll : Fin 3)
  /-- `RECAL` (R478): CRG_MON_CFG.RECAL measures the monitor base afresh. -/
  | recal (path : Path) (value : Word)
  /-- `RUN` (R484): A write of RUN to CRG_PWR_MODE wakes the engine from SLEEP or DEEP-SLEEP. -/
  | runMode (path : Path)
  /-- `SLEEP` (R482): A write of SLEEP to CRG_PWR_MODE enters SLEEP at the next boundary, or is refused. -/
  | sleepMode (path : Path)
  /-- `DEEP_SLEEP` (R483): A write of DEEP-SLEEP to CRG_PWR_MODE puts the tower into self-refresh and stops PLLs A and C, or is refused. -/
  | deepSleep (path : Path)
  /-- `LOCK` (R501): A write of 1 to LOCK locks the page's RWL fields until the next cold reset. -/
  | lockPage (path : Path) (page : BitVec 5)
  /-- `IRQ_SET` (R499): A write to IRQ_SET sets bits of IRQ_STAT and raises their lines as an event would. -/
  | irqSet (path : Path) (page : BitVec 5) (value : Word)
  /-- `CLR_CNT` (R505): CTRL.CLR_CNT clears ERR_CNT and the page's listed counters for every item of their selectors. -/
  | clrCnt (path : Path) (page : BitVec 5)
  /-- `CDJ_HWM_WRITE` (R94): Any write to CDJ_HWM sets it to the current open-entry count. -/
  | cdjHwmWrite (path : Path)
  /-- `ARB_C1_MAX_WRITE` (R384): Any write to ARB_C1_MAX sets it to 0. -/
  | arbC1MaxWrite (path : Path)
  /-- `REGISTER_WRITE` (R500): A write to a register with no behaviour of its own sets its fields under the access codes, with writes from the two paths ordered as R15 gives. -/
  | registerWrite (path : Path) (off : BitVec 17) (value : Word)
  /-- `POWER_ON` (R493): Power is applied to the engine, and the always-on domain starts with the warm start failure count at 0. -/
  | powerOn
  /-- `MANAGEMENT_SRAM_PARITY_ERROR` (R411): A management core reads management SRAM that fails byte parity, and that core halts and is then restarted as by its watchdog. -/
  | managementSramParityError (core : Fin 4) (addr : BitVec 19)
  /-- `RSP_READY` (R446): The host raises pse_hd{c}_rsp_ready and takes a held response beat of the host data port; when the last beat transfers, the request's TAG may be reused. -/
  | rspReady (ch : Fin 4) (lat : Option Nat)
  /-- `KIOSK_REPLY` (R425): Firmware receives a Kiosk reply from another engine on the response class of VC0, for example a HELLO reply whose majors it keeps for that peer. -/
  | kioskReply (hdr : List Byte) (payload : List Byte)
  deriving DecidableEq, Repr

end Sys2Proof
end

