-- ==== Sys2Proof/Machine/Gf.lean ====
section
/-! DEFINITION. GF(2^8) over 0x11D and the Cauchy code of R61. -/

namespace Sys2Proof.Machine

/-- Multiplication by x in GF(2^8) over 0x11D. -/
def gfX (a : Nat) : Nat := if a < 128 then 2 * a else (2 * a) ^^^ 0x11D

/-- The sum of b's bits times a shifted, `n` bits. -/
def gfMulAux : Nat → Nat → Nat → Nat
  | 0, _, _ => 0
  | n + 1, a, b => (if b % 2 = 1 then a else 0) ^^^ gfMulAux n (gfX a) (b / 2)

/-- Product in GF(2^8) (R61). -/
def gfMul (a b : Nat) : Nat := gfMulAux 8 a b

/-- a^(2^n) products: a^(2^n - 1) squared onwards; a^254 is the inverse. -/
def gfPow : Nat → Nat → Nat
  | 0, _ => 1
  | n + 1, a => gfMul a (gfPow n a)

/-- Inverse in GF(2^8); of 0 it is 0, which no coefficient needs (R61). -/
def gfInv (a : Nat) : Nat := gfPow 254 a

/-- Coefficient of data symbol q in parity j: inverse of j XOR (m + q) (R61). -/
def coef (m j q : Nat) : Nat := gfInv (j ^^^ (m + q))

/-- A byte list times a coefficient. -/
def gfScale (c : Nat) (bs : List Byte) : List Byte := bs.map fun b => BitVec.ofNat 8 (gfMul c b.toNat)

/-- Row operation: r − f·p in GF(2^8). -/
def gfRowSub (f : Nat) (p r : List Nat) : List Nat := List.zipWith (fun a b => b ^^^ gfMul f a) p r

/-- One column of Gauss–Jordan elimination over rows (coefficients, right side). The pivot row is the first with a
non-zero entry in the column, among the rows not used yet. -/
def gfElim (c : Nat) (done rest : List (List Nat × List Byte)) : List (List Nat × List Byte) × List (List Nat × List Byte) :=
  match rest.find? (fun r => r.1.getD c 0 != 0) with
  | none => (done, rest)
  | some p =>
    let i := gfInv (p.1.getD c 0)
    let p : List Nat × List Byte := (p.1.map (gfMul i), gfScale i p.2)
    let red (r : List Nat × List Byte) : List Nat × List Byte :=
      let f := r.1.getD c 0
      (gfRowSub f p.1 r.1, xorBytes r.2 (gfScale f p.2))
    let i0 := rest.findIdx (fun r => r.1.getD c 0 != 0)
    ((done.map red) ++ [p], (rest.eraseIdx i0).map red)

/-- The u unknowns of u independent equations, each unknown a byte list (R105 step 5). -/
def gfSolve (u : Nat) (eqs : List (List Nat × List Byte)) : List (List Byte) :=
  let (done, _) := (List.range u).foldl (fun acc c => gfElim c acc.1 acc.2) (([] : List (List Nat × List Byte)), eqs)
  done.map (·.2)

end Sys2Proof.Machine
end

