-- ==== Sys2Proof/Config.lean ====
section
/-! DEFINITION. What the spec leaves open: opaque constants nothing in Lean can evaluate, and the fixed numbers of one engine. -/

namespace Sys2Proof.Config

/-- A free value: what the spec calls undefined or does not state while the engine goes on. Applied to the counter
`State.freeCtr`, which every use advances (log entry 5). -/
opaque freeValue : Nat → BitVec 64

/-- `MGC_MCTP_IANA.NUMBER`: fixed in each engine, its value not in the spec (R434). -/
opaque mctpIana : BitVec 32

/-- The endpoint UUID of the MCTP endpoint, byte by byte (R430). -/
opaque endpointUuid : Nat → BitVec 8

/-- The body of a Kiosk message whose layout the spec does not give, from what it carries (R420, log entry 41). -/
opaque kioskBody : Nat → List Nat → List (BitVec 8)

/-- An LZ4 block for some bytes: the spec fixes the decoder, not the encoder (R354). -/
opaque lz4Form : List (BitVec 8) → List (BitVec 8)

/-- Whether a collective message of a collective that the engine knows nothing of yet came on VC5: the transaction says so, the
command does not (R332, R339, log entry 105). -/
opaque weightsChannel : List (BitVec 8) → Bool

/-- Which estimator coefficient weights an activity count of the governor (R427, log entry 94). -/
opaque activityCoef : Nat → Nat

/-- Which entry the translation cache gives up when it is full (R259, log entry 5). -/
opaque xltVictim : Nat → Nat

end Sys2Proof.Config
end

