-- ==== Sys2Proof/Machine/Crc.lean ====
section
/-! DEFINITION. CRC-32C, the check of every message, record, image and table of the spec. -/

namespace Sys2Proof.Machine

/-- One bit step of the reflected Castagnoli polynomial 0x82F6_3B78. -/
def crcStep (c : Nat) : Nat := if c % 2 = 1 then (c / 2) ^^^ 0x82F63B78 else c / 2

/-- `n` bit steps. -/
def crcSteps : Nat → Nat → Nat
  | 0, c => c
  | n + 1, c => crcSteps n (crcStep c)

/-- CRC-32C running value after some bytes. -/
def crcBytes (c : Nat) : List Byte → Nat
  | [] => c
  | b :: bs => crcBytes (crcSteps 8 (c ^^^ b.toNat)) bs

/-- CRC-32C of some bytes. -/
def crc32c (bs : List Byte) : Nat := (crcBytes 0xFFFFFFFF bs) ^^^ 0xFFFFFFFF

/-- `bs` followed by its CRC-32C. -/
def withCrc (bs : List Byte) : List Byte := bs ++ leBytes 4 (crc32c bs)

/-- Whether bytes `n` to `n + 3` hold the CRC-32C of bytes 0 to `n − 1`. -/
def crcOk (bs : List Byte) (n : Nat) : Bool := fieldLE bs n 4 == crc32c (bs.take n)

end Sys2Proof.Machine
end

