-- ==== Sys2Proof/Machine/Sparse.lean ====
section
/-! DEFINITION. Sparse maps from `Nat` as plain data: lists of (key, value) with strictly rising keys. A map with a
default lists no entry equal to its default, so that equal maps are equal data. -/

namespace Sys2Proof.Machine

/-- The entry listed at `k`, if there is one. -/
def alGet {β : Type} : List (Nat × β) → Nat → Option β
  | [], _ => none
  | (a, b) :: m, k => if a = k then some b else alGet m k

/-- The list with key `k` set to `v`, in its sorted place. -/
def alPut {β : Type} : List (Nat × β) → Nat → β → List (Nat × β)
  | [], k, v => [(k, v)]
  | (a, b) :: m, k, v =>
    if k < a then (k, v) :: (a, b) :: m
    else if k = a then (k, v) :: m
    else (a, b) :: alPut m k v

/-- The list without key `k`. -/
def alDel {β : Type} : List (Nat × β) → Nat → List (Nat × β)
  | [], _ => []
  | (a, b) :: m, k => if a = k then m else (a, b) :: alDel m k

/-- The entry at `k` set when `v` is some value, removed when it is none. -/
def alUpd {β : Type} (m : List (Nat × β)) (k : Nat) : Option β → List (Nat × β)
  | none => alDel m k
  | some v => alPut m k v

/-- Reading a map whose unlisted keys read as `dflt`. -/
def spGet {β : Type} (dflt : Nat → β) (m : List (Nat × β)) (k : Nat) : β := (alGet m k).getD (dflt k)

/-- Writing a map whose unlisted keys read as `dflt`: a value equal to the default is not listed. -/
def spSet {β : Type} [DecidableEq β] (dflt : Nat → β) (m : List (Nat × β)) (k : Nat) (v : β) : List (Nat × β) :=
  if v = dflt k then alDel m k else alPut m k v

/-- Keys strictly rising, every key above `lo` when `lo` is given. -/
def risingFrom {β : Type} : Option Nat → List (Nat × β) → Bool
  | _, [] => true
  | none, (a, _) :: m => risingFrom (some a) m
  | some l, (a, _) :: m => decide (l < a) && risingFrom (some a) m

/-- The canonical form of a map with default: keys strictly rising and no entry equal to its default. -/
def spWf {β : Type} [DecidableEq β] (dflt : Nat → β) (m : List (Nat × β)) : Bool :=
  risingFrom none m && m.all fun p => decide (p.2 ≠ dflt p.1)

/-- Member of a sorted list of numbers. -/
def nsMem (m : List Nat) (k : Nat) : Bool := m.contains k

/-- A number put into a strictly rising list. -/
def nsAdd : List Nat → Nat → List Nat
  | [], k => [k]
  | a :: m, k => if k < a then k :: a :: m else if k = a then a :: m else a :: nsAdd m k

/-- A number taken out of a strictly rising list. -/
def nsDel : List Nat → Nat → List Nat
  | [], _ => []
  | a :: m, k => if a = k then m else a :: nsDel m k

/-- A strictly rising list of numbers. -/
def nsWf : List Nat → Bool
  | [] => true
  | [_] => true
  | a :: b :: m => decide (a < b) && nsWf (b :: m)

end Sys2Proof.Machine
end

