-- ==== Sys2Proof/Machine/RegNames.lean ====
section
/-! DEFINITION. Names of the registers (aperture byte offset, R497) and of their fields, from the binding tables named by R504. -/

namespace Sys2Proof.Machine

/-- A field of a register: the register's aperture offset, the lowest bit, the width. -/
structure Fld where
  reg : Nat
  lo : Nat
  width : Nat
  deriving DecidableEq, Repr

namespace R

-- page CDE (R93)
abbrev CDE_DOMAIN_A : Nat := 0xC100
abbrev CDE_DOMAIN_B : Nat := 0xC104
abbrev CDE_GRP_SEL : Nat := 0xC108
abbrev CDE_GRP_CFG : Nat := 0xC10C
abbrev CDE_GRP_ID : Nat := 0xC110
abbrev CDE_GRP_BASE : Nat := 0xC114
abbrev CDE_GRP_ROWS : Nat := 0xC118
abbrev CDE_GRP_TAG : Nat := 0xC11C
abbrev CDE_GRP_CMD : Nat := 0xC120
abbrev CDE_GRP_STAT : Nat := 0xC124
abbrev CDE_MEMB_SEL : Nat := 0xC128
abbrev CDE_MEMB_NODE : Nat := 0xC12C
abbrev CDE_MEMB_DOM_A : Nat := 0xC130
abbrev CDE_MEMB_DOM_B : Nat := 0xC134
abbrev CDE_GRP_SEAL_LO : Nat := 0xC138
abbrev CDE_GRP_SEAL_HI : Nat := 0xC13C
abbrev CDE_MBR_SEAL_LO : Nat := 0xC140
abbrev CDE_MBR_SEAL_HI : Nat := 0xC144
abbrev CDE_ACTIVE : Nat := 0xC148
-- page CDJ (R94)
abbrev CDJ_ACK_TIMEOUT : Nat := 0xD100
abbrev CDJ_RESEND : Nat := 0xD104
abbrev CDJ_OPEN : Nat := 0xD108
abbrev CDJ_OPEN_SECT : Nat := 0xD10C
abbrev CDJ_HWM : Nat := 0xD110
abbrev CDJ_STALL_CNT : Nat := 0xD114
abbrev CDJ_SUSP_SEL : Nat := 0xD118
abbrev CDJ_SUSPECT : Nat := 0xD11C
abbrev CDJ_OLDEST_LO : Nat := 0xD120
abbrev CDJ_OLDEST_HI : Nat := 0xD124
abbrev CDJ_RESEND_CNT : Nat := 0xD128
abbrev CDJ_RX_DUP : Nat := 0xD12C
abbrev CDJ_RX_STALE : Nat := 0xD130
abbrev CDJ_RX_BAD : Nat := 0xD134
-- page CDR (R122)
abbrev CDR_CTRL : Nat := 0xE100
abbrev CDR_REBUILD_SHARE : Nat := 0xE104
abbrev CDR_SEL : Nat := 0xE108
abbrev CDR_ROLE_CMD : Nat := 0xE10C
abbrev CDR_ROLE_DOM_A : Nat := 0xE110
abbrev CDR_ROLE_DOM_B : Nat := 0xE114
abbrev CDR_CMD_STAT : Nat := 0xE118
abbrev CDR_LOST : Nat := 0xE11C
abbrev CDR_DECL_SEAL_LO : Nat := 0xE120
abbrev CDR_DECL_SEAL_HI : Nat := 0xE124
abbrev CDR_DECL_TICK_LO : Nat := 0xE128
abbrev CDR_DECL_TICK_HI : Nat := 0xE12C
abbrev CDR_CURSOR : Nat := 0xE130
abbrev CDR_LEFT : Nat := 0xE134
abbrev CDR_REPORT_BASE : Nat := 0xE138
abbrev CDR_REPORT_SIZE : Nat := 0xE13C
abbrev CDR_REPORT_CNT : Nat := 0xE140
abbrev CDR_REPORT_LOST : Nat := 0xE144
abbrev CDR_ESC_CNT : Nat := 0xE148
abbrev CDR_DEGRADED_CNT : Nat := 0xE14C
abbrev CDR_REPAIR_CNT : Nat := 0xE150
abbrev CDR_GATHER_TIMEOUT : Nat := 0xE154
abbrev CDR_STRAG_WIN : Nat := 0xE158
abbrev CDR_STRAG_THRESH : Nat := 0xE15C
abbrev CDR_STRAG_SUSPECT : Nat := 0xE160
abbrev CDR_STRAG_SEL : Nat := 0xE164
abbrev CDR_STRAG_LAST : Nat := 0xE168
abbrev CDR_STRAG_LATE : Nat := 0xE16C
-- page UPD (R157)
abbrev UPD_PART_SEL : Nat := 0x9100
abbrev UPD_LTAB_BASE : Nat := 0x9104
abbrev UPD_LTAB_COUNT : Nat := 0x9108
abbrev UPD_PASS : Nat := 0x910C
abbrev UPD_CLIP_SCALE : Nat := 0x9110
abbrev UPD_STEP : Nat := 0x9114
abbrev UPD_LOAD_EN : Nat := 0x9118
abbrev UPD_FLIP : Nat := 0x911C
abbrev UPD_VER : Nat := 0x9120
abbrev UPD_FLIP_STAT : Nat := 0x9124
abbrev UPD_HP_SEL : Nat := 0x9128
abbrev UPD_HP_0 : Nat := 0x912C
abbrev UPD_PROG_SEL : Nat := 0x915C
abbrev UPD_PROG_DATA : Nat := 0x9160
abbrev UPD_PROG_CMD : Nat := 0x9164
abbrev UPD_PROG_STAT : Nat := 0x9168
abbrev UPD_LAYER_ERR : Nat := 0x916C
abbrev UPD_NF_IN : Nat := 0x9170
abbrev UPD_NF_OUT : Nat := 0x9174
abbrev UPD_IDX_BAD : Nat := 0x9178
abbrev UPD_WR_REFUSED : Nat := 0x917C
abbrev UPD_PIN_STALL : Nat := 0x9180
-- page TLM (R158)
abbrev TLM_SLOT_SEL : Nat := 0xA100
abbrev TLM_SLOT_MODE : Nat := 0xA104
abbrev TLM_CLEAR : Nat := 0xA108
abbrev TLM_RD_SEL : Nat := 0xA10C
abbrev TLM_STAT : Nat := 0xA110
abbrev TLM_RD_0 : Nat := 0xA180
-- page CNV (R159)
abbrev CNV_PART_SEL : Nat := 0xB100
abbrev CNV_SEED_LO : Nat := 0xB104
abbrev CNV_SEED_HI : Nat := 0xB108
abbrev CNV_NOISE_DST : Nat := 0xB10C
abbrev CNV_NOISE_COUNT : Nat := 0xB110
abbrev CNV_NOISE_TID : Nat := 0xB114
abbrev CNV_NOISE_STEP : Nat := 0xB118
abbrev CNV_NOISE_CFG : Nat := 0xB11C
abbrev CNV_NOISE_CMD : Nat := 0xB120
abbrev CNV_NOISE_STAT : Nat := 0xB124
abbrev CNV_STAT : Nat := 0xB128
abbrev CNV_OVF_CNT : Nat := 0xB12C
abbrev CNV_FTZ_CNT : Nat := 0xB130
-- page LNF (R192)
abbrev LNF_KWIDTH_PIN : Nat := 0x7100
abbrev LNF_PART_SEL : Nat := 0x7104
abbrev LNF_LATE_POLICY : Nat := 0x7108
abbrev LNF_ROW_SEL : Nat := 0x710C
abbrev LNF_ROW_LANE_BYP : Nat := 0x7110
abbrev LNF_ROW_COL_BYP : Nat := 0x7114
abbrev LNF_ROW_STAT : Nat := 0x7118
abbrev LNF_ROW_TEST : Nat := 0x711C
abbrev LNF_TEST_STAT : Nat := 0x7120
abbrev LNF_TEST_LANES : Nat := 0x7124
abbrev LNF_TEST_COLS : Nat := 0x7128
abbrev LNF_IDLE : Nat := 0x712C
abbrev LNF_STAT : Nat := 0x7130
abbrev LNF_ROWS_USABLE : Nat := 0x7134
abbrev LNF_FMT_FAULT_CNT : Nat := 0x7138
abbrev LNF_SAT_CNT : Nat := 0x713C
abbrev LNF_RESIDUE_CNT : Nat := 0x7140
abbrev LNF_BS_PAR_CNT : Nat := 0x7144
abbrev LNF_IDLE_CNT : Nat := 0x7148
abbrev LNF_STAT_PAR_CNT : Nat := 0x714C
-- page LNP (R220)
abbrev LNP_Q_SEL : Nat := 0x8100
abbrev LNP_Q_CFG : Nat := 0x8104
abbrev LNP_Q_BASE : Nat := 0x8108
abbrev LNP_Q_CBASE : Nat := 0x810C
abbrev LNP_Q_TAIL : Nat := 0x8110
abbrev LNP_Q_HEAD : Nat := 0x8114
abbrev LNP_Q_CTAIL : Nat := 0x8118
abbrev LNP_Q_CHEAD : Nat := 0x811C
abbrev LNP_Q_STAT : Nat := 0x8120
abbrev LNP_Q_ERR : Nat := 0x8124
abbrev LNP_CHAIN_LIMIT : Nat := 0x8128
abbrev LNP_EMPTY_CNT : Nat := 0x812C
abbrev LNP_CFULL_CNT : Nat := 0x8130
abbrev LNP_LATE_CNT : Nat := 0x8134
abbrev LNP_DIRECT_KB : Nat := 0x8138
abbrev LNP_SLIP_CNT : Nat := 0x813C
abbrev LNP_REFUSED_CNT : Nat := 0x8140
abbrev LNP_IDX_BAD : Nat := 0x8144
-- page TWC (R251)
abbrev TWC_GEOM : Nat := 0x4100
abbrev TWC_REF_CTRL : Nat := 0x4104
abbrev TWC_REF_AUTO : Nat := 0x4108
abbrev TWC_TIMING0 : Nat := 0x410C
abbrev TWC_TIMING1 : Nat := 0x4110
abbrev TWC_TIMING2 : Nat := 0x4114
abbrev TWC_FILL_STAT : Nat := 0x4118
abbrev TWC_PAR_CNT : Nat := 0x411C
abbrev TWC_POISON_CNT : Nat := 0x4120
abbrev TWC_RMW_CNT : Nat := 0x4124
-- page TWR (R252)
abbrev TWR_FUSE_STAT : Nat := 0x5100
abbrev TWR_SPARE_SEL : Nat := 0x5104
abbrev TWR_SPARE_STAT : Nat := 0x5108
abbrev TWR_ORG_SEL : Nat := 0x510C
abbrev TWR_ORG_ENTRY : Nat := 0x5110
abbrev TWR_ORG_CMD : Nat := 0x5114
abbrev TWR_ORG_STAT : Nat := 0x5118
abbrev TWR_PROBE_SEL : Nat := 0x511C
abbrev TWR_PROBE_CFG : Nat := 0x5120
abbrev TWR_PROBE_RES : Nat := 0x5124
abbrev TWR_PROBE_TEMP : Nat := 0x5128
abbrev TWR_EYE_SEL : Nat := 0x512C
abbrev TWR_EYE : Nat := 0x5130
abbrev TWR_EYE_MIN : Nat := 0x5134
-- page TTH (R253)
abbrev TTH_TEMP_01 : Nat := 0x6100
abbrev TTH_MAX : Nat := 0x6110
abbrev TTH_THROTTLE_FRAC : Nat := 0x6114
abbrev TTH_STAT : Nat := 0x6118
abbrev TTH_CRIT_CLEAR : Nat := 0x611C
abbrev TTH_SENSOR_FAULT : Nat := 0x6120
abbrev TTH_LIMITS : Nat := 0x6124
abbrev TTH_PEAK : Nat := 0x6128
abbrev TTH_THROTTLE_US : Nat := 0x612C
abbrev TTH_WARN_CNT : Nat := 0x6130
-- page PGM (R287)
abbrev PGM_PART_SEL : Nat := 0xF100
abbrev PGM_MAP_BASE : Nat := 0xF104
abbrev PGM_MAP_PAGES : Nat := 0xF108
abbrev PGM_RESERVE : Nat := 0xF10C
abbrev PGM_Q_CFG : Nat := 0xF110
abbrev PGM_Q_BASE : Nat := 0xF114
abbrev PGM_Q_CBASE : Nat := 0xF118
abbrev PGM_Q_TAIL : Nat := 0xF11C
abbrev PGM_Q_HEAD : Nat := 0xF120
abbrev PGM_Q_CTAIL : Nat := 0xF124
abbrev PGM_Q_CHEAD : Nat := 0xF128
abbrev PGM_Q_ERR : Nat := 0xF12C
abbrev PGM_AGE_TICKS : Nat := 0xF130
abbrev PGM_WATER : Nat := 0xF134
abbrev PGM_FREE_T1 : Nat := 0xF138
abbrev PGM_FREE_T2 : Nat := 0xF13C
abbrev PGM_DIRTY_FREE : Nat := 0xF140
abbrev PGM_LEND_PAGES : Nat := 0xF144
abbrev PGM_LENT : Nat := 0xF148
abbrev PGM_LENDER_SEL : Nat := 0xF14C
abbrev PGM_LENDER_NODE : Nat := 0xF150
abbrev PGM_LENDER_PAGES : Nat := 0xF154
abbrev PGM_BORROWED : Nat := 0xF158
abbrev PGM_STAT : Nat := 0xF15C
abbrev PGM_EVICT_CNT : Nat := 0xF160
abbrev PGM_DROP_CNT : Nat := 0xF164
abbrev PGM_ZERO_CNT : Nat := 0xF168
abbrev PGM_NOSPACE_CNT : Nat := 0xF16C
abbrev PGM_C0_DISCARD_CNT : Nat := 0xF170
abbrev PGM_BORROWER_SEL : Nat := 0xF174
abbrev PGM_BORROWER_NODE : Nat := 0xF178
-- page XLT (R288)
abbrev XLT_PART_SEL : Nat := 0x10100
abbrev XLT_SEQ_BASE : Nat := 0x10104
abbrev XLT_SEQ_COUNT : Nat := 0x10108
abbrev XLT_SEQ_PAGES : Nat := 0x1010C
abbrev XLT_KV_FIRST : Nat := 0x10110
abbrev XLT_KV_COUNT : Nat := 0x10114
abbrev XLT_KV_FREE : Nat := 0x10118
abbrev XLT_COW_CNT : Nat := 0x1011C
abbrev XLT_GONE_CNT : Nat := 0x10120
abbrev XLT_PIN_STALL_CNT : Nat := 0x10124
abbrev XLT_MISS_CNT : Nat := 0x10128
-- page PFT (R289)
abbrev PFT_BASE : Nat := 0x11100
abbrev PFT_CFG : Nat := 0x11104
abbrev PFT_USED : Nat := 0x11108
abbrev PFT_MULTI_CNT : Nat := 0x1110C
abbrev PFT_STALE_CNT : Nat := 0x11110
abbrev PFT_FULL_CNT : Nat := 0x11114
abbrev PFT_LAST_MULTI : Nat := 0x11118
-- page FBP (R323)
abbrev FBP_CTRL : Nat := 0x12100
abbrev FBP_NODE : Nat := 0x12104
abbrev FBP_MS_TIMEOUT : Nat := 0x12108
abbrev FBP_FM_NODE : Nat := 0x1210C
abbrev FBP_PART_SEL : Nat := 0x12110
abbrev FBP_PART_JOB : Nat := 0x12114
abbrev FBP_Q_CFG : Nat := 0x12118
abbrev FBP_Q_BASE : Nat := 0x1211C
abbrev FBP_Q_CBASE : Nat := 0x12120
abbrev FBP_Q_TAIL : Nat := 0x12124
abbrev FBP_Q_HEAD : Nat := 0x12128
abbrev FBP_Q_CTAIL : Nat := 0x1212C
abbrev FBP_Q_CHEAD : Nat := 0x12130
abbrev FBP_Q_ERR : Nat := 0x12134
abbrev FBP_PTN_SEL : Nat := 0x12138
abbrev FBP_PTN_NODE : Nat := 0x1213C
abbrev FBP_PTN_JOB : Nat := 0x12140
abbrev FBP_STAT : Nat := 0x12144
abbrev FBP_RETRY_CNT : Nat := 0x12148
abbrev FBP_TIMEOUT_CNT : Nat := 0x1214C
abbrev FBP_STALE_CNT : Nat := 0x12150
abbrev FBP_RX_UNEXP : Nat := 0x12154
abbrev FBP_RX_BAD : Nat := 0x12158
abbrev FBP_GATE_REFUSED : Nat := 0x1215C
abbrev FBP_COMBINED_CNT : Nat := 0x12160
abbrev FBP_RX_HOSTILE : Nat := 0x12164
-- page FBK (R324)
abbrev FBK_CTRL : Nat := 0x13100
abbrev FBK_REG_SEL : Nat := 0x13104
abbrev FBK_REG_KEY : Nat := 0x13108
abbrev FBK_REG_BASE : Nat := 0x1310C
abbrev FBK_REG_LEN_LO : Nat := 0x13110
abbrev FBK_REG_LEN_HI : Nat := 0x13114
abbrev FBK_REG_CFG : Nat := 0x13118
abbrev FBK_KX_SEL : Nat := 0x1311C
abbrev FBK_KX_CFG : Nat := 0x13120
abbrev FBK_KX_VA : Nat := 0x13124
abbrev FBK_KX_PAGES : Nat := 0x13128
abbrev FBK_KX_BASE : Nat := 0x1312C
abbrev FBK_BLK_SEL : Nat := 0x13130
abbrev FBK_BLK_NODE : Nat := 0x13134
abbrev FBK_STAT : Nat := 0x13138
abbrev FBK_KEY_FAIL_CNT : Nat := 0x1313C
abbrev FBK_BLOCKED_CNT : Nat := 0x13140
abbrev FBK_LAST_FAIL : Nat := 0x13144
-- page FVC (R325)
abbrev FVC_WEIGHT_LO : Nat := 0x14100
abbrev FVC_WEIGHT_HI : Nat := 0x14104
abbrev FVC_VC1_MIN : Nat := 0x14108
abbrev FVC_BUF_SEL : Nat := 0x1410C
abbrev FVC_BUF : Nat := 0x14110
abbrev FVC_STAT_SEL : Nat := 0x14114
abbrev FVC_TX_KB : Nat := 0x14118
abbrev FVC_RX_KB : Nat := 0x1411C
abbrev FVC_CREDIT_STALL : Nat := 0x14120
abbrev FVC_RESV_STALL : Nat := 0x14124
abbrev FVC_STAT : Nat := 0x14128
-- page COL (R343)
abbrev COL_PART_SEL : Nat := 0x15100
abbrev COL_THRESHOLD : Nat := 0x15104
abbrev COL_TIMEOUT : Nat := 0x15108
abbrev COL_GRID_DIM_01 : Nat := 0x1510C
abbrev COL_GRID_CRD_01 : Nat := 0x15118
abbrev COL_GRP_SEL : Nat := 0x15124
abbrev COL_GRP_CFG : Nat := 0x15128
abbrev COL_GRP_AXES : Nat := 0x1512C
abbrev COL_GRP_MEMB : Nat := 0x15130
abbrev COL_GRP_CMD : Nat := 0x15134
abbrev COL_GRP_STAT : Nat := 0x15138
abbrev COL_Q_CFG : Nat := 0x1513C
abbrev COL_Q_BASE : Nat := 0x15140
abbrev COL_Q_CBASE : Nat := 0x15144
abbrev COL_Q_TAIL : Nat := 0x15148
abbrev COL_Q_HEAD : Nat := 0x1514C
abbrev COL_Q_CTAIL : Nat := 0x15150
abbrev COL_Q_CHEAD : Nat := 0x15154
abbrev COL_Q_ERR : Nat := 0x15158
abbrev COL_FRAG_SEL : Nat := 0x1515C
abbrev COL_FRAG_STAT : Nat := 0x15160
abbrev COL_TIMEOUT_CNT : Nat := 0x15164
abbrev COL_REFUSED_CNT : Nat := 0x15168
abbrev COL_STALE_CNT : Nat := 0x1516C
abbrev COL_FLAG_0 : Nat := 0x15180
-- page ARC (R361)
abbrev ARC_PART_SEL : Nat := 0x16100
abbrev ARC_TAB_BASE : Nat := 0x16104
abbrev ARC_TAB_COUNT : Nat := 0x16108
abbrev ARC_MAP_BASE : Nat := 0x1610C
abbrev ARC_MAP_PAGES : Nat := 0x16110
abbrev ARC_STAGE_BASE : Nat := 0x16114
abbrev ARC_TARGET : Nat := 0x16118
abbrev ARC_POINT_LO : Nat := 0x1611C
abbrev ARC_POINT_HI : Nat := 0x16120
abbrev ARC_CMD : Nat := 0x16124
abbrev ARC_STAT : Nat := 0x16128
abbrev ARC_SEQ : Nat := 0x1612C
abbrev ARC_ACK_TIMEOUT : Nat := 0x16130
abbrev ARC_WINDOW : Nat := 0x16134
abbrev ARC_Q_CFG : Nat := 0x16138
abbrev ARC_Q_BASE : Nat := 0x1613C
abbrev ARC_Q_CBASE : Nat := 0x16140
abbrev ARC_Q_TAIL : Nat := 0x16144
abbrev ARC_Q_HEAD : Nat := 0x16148
abbrev ARC_Q_CTAIL : Nat := 0x1614C
abbrev ARC_Q_CHEAD : Nat := 0x16150
abbrev ARC_Q_ERR : Nat := 0x16154
abbrev ARC_REC_CNT : Nat := 0x16158
abbrev ARC_RAW_KB : Nat := 0x1615C
abbrev ARC_SENT_KB : Nat := 0x16160
abbrev ARC_LZ4_CNT : Nat := 0x16164
abbrev ARC_NEWER_CNT : Nat := 0x16168
abbrev ARC_RESEND_CNT : Nat := 0x1616C
abbrev ARC_SKIP_CNT : Nat := 0x16170
abbrev ARC_GONE_CNT : Nat := 0x16174
abbrev ARC_RESTORE_CNT : Nat := 0x16178
-- page PTC (R383)
abbrev PTC_PART_SEL : Nat := 0x17100
abbrev PTC_CMD : Nat := 0x17104
abbrev PTC_CFG : Nat := 0x17108
abbrev PTC_SH_BASE : Nat := 0x1710C
abbrev PTC_SH_FRAMES : Nat := 0x17110
abbrev PTC_STAT : Nat := 0x17114
abbrev PTC_SLOWDOWN : Nat := 0x17118
abbrev PTC_SLOW_WIN : Nat := 0x1711C
abbrev PTC_SLOW_ALERT : Nat := 0x17120
abbrev PTC_DRAIN_LIMIT : Nat := 0x17124
abbrev PTC_SEAT_SEL : Nat := 0x17128
abbrev PTC_SEAT_SLOTS : Nat := 0x1712C
abbrev PTC_SEAT_SRAM : Nat := 0x17130
abbrev PTC_SEAT_TRIO_0 : Nat := 0x17134
abbrev PTC_SEAT_STAT : Nat := 0x17154
abbrev PTC_VC_SEL : Nat := 0x17158
abbrev PTC_VC_RESV : Nat := 0x1715C
abbrev PTC_CLIENT_SEL : Nat := 0x17160
abbrev PTC_JOB_CNT : Nat := 0x17164
abbrev PTC_SWITCH_US : Nat := 0x17168
abbrev PTC_SWITCH_CNT : Nat := 0x1716C
abbrev PTC_RESET_CNT : Nat := 0x17170
-- page ARB (R384)
abbrev ARB_QUOTA : Nat := 0x3100
abbrev ARB_CTRL : Nat := 0x3104
abbrev ARB_STAT : Nat := 0x3108
abbrev ARB_C1_GRANTS : Nat := 0x310C
abbrev ARB_C2_GRANTS : Nat := 0x3110
abbrev ARB_C3_GRANTS : Nat := 0x3114
abbrev ARB_PREEMPT_CNT : Nat := 0x3118
abbrev ARB_MASK_CNT : Nat := 0x311C
abbrev ARB_C1_MAX : Nat := 0x3120
abbrev ARB_C1_OVER_CNT : Nat := 0x3124
-- page ERU (R409)
abbrev ERU_STAT : Nat := 0x19100
abbrev ERU_LOST : Nat := 0x19104
abbrev ERU_POP : Nat := 0x19108
abbrev ERU_SEQ_NEXT : Nat := 0x1910C
abbrev ERU_INJECT : Nat := 0x19110
abbrev ERU_REC_0 : Nat := 0x19140
abbrev ERU_FATAL_0 : Nat := 0x19180
-- page CTR (R410)
abbrev CTR_SEL : Nat := 0x18100
abbrev CTR_CFG : Nat := 0x18104
abbrev CTR_PRELOAD_LO : Nat := 0x18108
abbrev CTR_PRELOAD_HI : Nat := 0x1810C
abbrev CTR_LIVE_LO : Nat := 0x18110
abbrev CTR_LIVE_HI : Nat := 0x18114
abbrev CTR_OVF_LO : Nat := 0x18118
abbrev CTR_OVF_HI : Nat := 0x1811C
abbrev CTR_CYCLE_LO : Nat := 0x18120
abbrev CTR_CYCLE_HI : Nat := 0x18124
abbrev CTR_TD_SEL : Nat := 0x18128
abbrev CTR_TD_LO : Nat := 0x1812C
abbrev CTR_TD_HI : Nat := 0x18130
abbrev CTR_SNAP_LO : Nat := 0x18134
abbrev CTR_SNAP_HI : Nat := 0x18138
abbrev CTR_SNAP_CMD : Nat := 0x1813C
abbrev CTR_SNAP_STAT : Nat := 0x18140
abbrev CTR_SNAP_SEQ : Nat := 0x18144
abbrev CTR_SHADOW_SEL : Nat := 0x18148
abbrev CTR_SHADOW_LO : Nat := 0x1814C
abbrev CTR_SHADOW_HI : Nat := 0x18150
abbrev CTR_USER_EN : Nat := 0x18154
abbrev CTR_USER_SEL : Nat := 0x18158
abbrev CTR_USER_PAGE : Nat := 0x1815C
abbrev CTR_STAT : Nat := 0x18160
-- page MGC (R434)
abbrev MGC_CORE_SEL : Nat := 0x1A100
abbrev MGC_CORE_CTRL : Nat := 0x1A104
abbrev MGC_CORE_STAT : Nat := 0x1A108
abbrev MGC_CORE_VER : Nat := 0x1A10C
abbrev MGC_CORE_IFC : Nat := 0x1A110
abbrev MGC_WDT_CFG : Nat := 0x1A114
abbrev MGC_WDT_KICK : Nat := 0x1A118
abbrev MGC_CTRL : Nat := 0x1A11C
abbrev MGC_STAT : Nat := 0x1A120
abbrev MGC_KSK_SEL : Nat := 0x1A124
abbrev MGC_KSK_DOORBELL : Nat := 0x1A128
abbrev MGC_KSK_TAKE : Nat := 0x1A12C
abbrev MGC_KSK_STAT : Nat := 0x1A130
abbrev MGC_KSK_BAD : Nat := 0x1A134
abbrev MGC_MCTP_EID : Nat := 0x1A138
abbrev MGC_MCTP_IANA : Nat := 0x1A13C
abbrev MGC_HOFF_STAT : Nat := 0x1A140
abbrev MGC_KSK_WIN_0 : Nat := 0x1A800
-- page PWA (R435)
abbrev PWA_BUDGET_REQ : Nat := 0x1B100
abbrev PWA_BUDGET_GRANT : Nat := 0x1B104
abbrev PWA_BUDGET_EFF : Nat := 0x1B108
abbrev PWA_EST : Nat := 0x1B10C
abbrev PWA_CTRL : Nat := 0x1B110
abbrev PWA_FLOOR : Nat := 0x1B114
abbrev PWA_COEF_SEL : Nat := 0x1B118
abbrev PWA_COEF : Nat := 0x1B11C
abbrev PWA_RO_SEL : Nat := 0x1B120
abbrev PWA_RO_CNT : Nat := 0x1B124
abbrev PWA_RO_BASE : Nat := 0x1B128
abbrev PWA_REPLAN : Nat := 0x1B12C
abbrev PWA_REPLAN_STAT : Nat := 0x1B130
abbrev PWA_VREQ : Nat := 0x1B134
abbrev PWA_STAT : Nat := 0x1B138
-- page TSG (R436)
abbrev TSG_CMD : Nat := 0x1C100
abbrev TSG_STAT : Nat := 0x1C104
abbrev TSG_REFUSED_CNT : Nat := 0x1C108
abbrev TSG_ERASE_US : Nat := 0x1C10C
abbrev TSG_WIR : Nat := 0x1C110
-- page IDN (R494)
abbrev IDN_IPVER : Nat := 0x100
abbrev IDN_STRAP : Nat := 0x104
abbrev IDN_GEOM : Nat := 0x108
abbrev IDN_FREQ0 : Nat := 0x10C
abbrev IDN_FREQ1 : Nat := 0x110
abbrev IDN_FREQ2 : Nat := 0x114
-- page CRG (R495)
abbrev CRG_STAT : Nat := 0x1100
abbrev CRG_START_STAT : Nat := 0x1104
abbrev CRG_WARM_FAIL : Nat := 0x1108
abbrev CRG_START_US : Nat := 0x110C
abbrev CRG_PLLA : Nat := 0x1110
abbrev CRG_PLLB : Nat := 0x1114
abbrev CRG_PLLC : Nat := 0x1118
abbrev CRG_MON_BASE : Nat := 0x111C
abbrev CRG_MON_CNT : Nat := 0x1120
abbrev CRG_MON_CFG : Nat := 0x1124
abbrev CRG_PWR_MODE : Nat := 0x1128
abbrev CRG_START_LIMIT : Nat := 0x112C
-- page TCK (R496)
abbrev TCK_PERIOD : Nat := 0x2100
abbrev TCK_EPOCH_LO : Nat := 0x2104
abbrev TCK_EPOCH_HI : Nat := 0x2108
abbrev TCK_TICK_BASE_LO : Nat := 0x210C
abbrev TCK_TICK_BASE_HI : Nat := 0x2110
abbrev TCK_CTRL : Nat := 0x2114
abbrev TCK_STAT : Nat := 0x2118
abbrev TCK_SLOTS : Nat := 0x211C
abbrev TCK_NOW_LO : Nat := 0x2120
abbrev TCK_NOW_HI : Nat := 0x2124
abbrev TCK_HALL_LO : Nat := 0x2128
abbrev TCK_HALL_HI : Nat := 0x212C
abbrev TCK_BARRIER_LO : Nat := 0x2130
abbrev TCK_BARRIER_HI : Nat := 0x2134
abbrev TCK_ARRIVAL_LO : Nat := 0x2138
abbrev TCK_ARRIVAL_HI : Nat := 0x213C
abbrev TCK_CHIP_SEAL_LO : Nat := 0x2140
abbrev TCK_CHIP_SEAL_HI : Nat := 0x2144
abbrev TCK_PLAN_SEL : Nat := 0x2148
abbrev TCK_PLAN_ADDR : Nat := 0x214C
abbrev TCK_PLAN_DATA : Nat := 0x2150
abbrev TCK_PLAN_COMMIT : Nat := 0x2154
abbrev TCK_PLAN_CANCEL : Nat := 0x2158
abbrev TCK_PLAN_STAT : Nat := 0x215C
abbrev TCK_PLAN_ID : Nat := 0x2160
abbrev TCK_PLAN_RUN_ID : Nat := 0x2164
abbrev TCK_OVERRUN_CNT : Nat := 0x2168
abbrev TCK_LAPSE_CNT : Nat := 0x216C

end R

/-- Page numbers (R504). -/
abbrev Page.IDN : Nat := 0x00
abbrev Page.CRG : Nat := 0x01
abbrev Page.TCK : Nat := 0x02
abbrev Page.ARB : Nat := 0x03
abbrev Page.TWC : Nat := 0x04
abbrev Page.TWR : Nat := 0x05
abbrev Page.TTH : Nat := 0x06
abbrev Page.LNF : Nat := 0x07
abbrev Page.LNP : Nat := 0x08
abbrev Page.UPD : Nat := 0x09
abbrev Page.TLM : Nat := 0x0A
abbrev Page.CNV : Nat := 0x0B
abbrev Page.CDE : Nat := 0x0C
abbrev Page.CDJ : Nat := 0x0D
abbrev Page.CDR : Nat := 0x0E
abbrev Page.PGM : Nat := 0x0F
abbrev Page.XLT : Nat := 0x10
abbrev Page.PFT : Nat := 0x11
abbrev Page.FBP : Nat := 0x12
abbrev Page.FBK : Nat := 0x13
abbrev Page.FVC : Nat := 0x14
abbrev Page.COL : Nat := 0x15
abbrev Page.ARC : Nat := 0x16
abbrev Page.PTC : Nat := 0x17
abbrev Page.CTR : Nat := 0x18
abbrev Page.ERU : Nat := 0x19
abbrev Page.MGC : Nat := 0x1A
abbrev Page.PWA : Nat := 0x1B
abbrev Page.TSG : Nat := 0x1C

namespace F

-- page CDE (R93)
def CDE_DOMAIN_A_TRAY : Fld := ⟨0xC100, 0, 16⟩
def CDE_DOMAIN_A_POWER : Fld := ⟨0xC100, 16, 16⟩
def CDE_DOMAIN_B_COOLING : Fld := ⟨0xC104, 0, 16⟩
def CDE_DOMAIN_B_SWITCH : Fld := ⟨0xC104, 16, 16⟩
def CDE_GRP_SEL_SLOT : Fld := ⟨0xC108, 0, 4⟩
def CDE_GRP_CFG_K : Fld := ⟨0xC10C, 0, 5⟩
def CDE_GRP_CFG_M : Fld := ⟨0xC10C, 5, 3⟩
def CDE_GRP_CFG_OWN_ROLE : Fld := ⟨0xC10C, 8, 5⟩
def CDE_GRP_CFG_MGR_ROLE : Fld := ⟨0xC10C, 13, 5⟩
def CDE_GRP_CFG_SEPARATE : Fld := ⟨0xC10C, 18, 4⟩
def CDE_GRP_CFG_TIER : Fld := ⟨0xC10C, 22, 1⟩
def CDE_GRP_CFG_ZERO : Fld := ⟨0xC10C, 23, 1⟩
def CDE_GRP_ID_GROUP_ID : Fld := ⟨0xC110, 0, 16⟩
def CDE_GRP_ID_GEN : Fld := ⟨0xC110, 16, 8⟩
def CDE_GRP_ID_PARTITION : Fld := ⟨0xC110, 24, 3⟩
def CDE_GRP_BASE_BASE : Fld := ⟨0xC114, 0, 23⟩
def CDE_GRP_ROWS_ROWS : Fld := ⟨0xC118, 0, 23⟩
def CDE_GRP_TAG_TAG_BASE : Fld := ⟨0xC11C, 0, 23⟩
def CDE_GRP_CMD_OP : Fld := ⟨0xC120, 0, 3⟩
def CDE_GRP_STAT_STATE : Fld := ⟨0xC124, 0, 3⟩
def CDE_GRP_STAT_REASON : Fld := ⟨0xC124, 4, 4⟩
def CDE_GRP_STAT_BUSY : Fld := ⟨0xC124, 8, 1⟩
def CDE_GRP_STAT_CFG_DROPPED : Fld := ⟨0xC124, 9, 1⟩
def CDE_MEMB_SEL_ROLE : Fld := ⟨0xC128, 0, 5⟩
def CDE_MEMB_NODE_NODE : Fld := ⟨0xC12C, 0, 20⟩
def CDE_MEMB_NODE_VALID : Fld := ⟨0xC12C, 31, 1⟩
def CDE_MEMB_DOM_A_TRAY : Fld := ⟨0xC130, 0, 16⟩
def CDE_MEMB_DOM_A_POWER : Fld := ⟨0xC130, 16, 16⟩
def CDE_MEMB_DOM_B_COOLING : Fld := ⟨0xC134, 0, 16⟩
def CDE_MEMB_DOM_B_SWITCH : Fld := ⟨0xC134, 16, 16⟩
def CDE_GRP_SEAL_LO_SEAL : Fld := ⟨0xC138, 0, 32⟩
def CDE_GRP_SEAL_HI_SEAL : Fld := ⟨0xC13C, 0, 32⟩
def CDE_MBR_SEAL_LO_SEAL : Fld := ⟨0xC140, 0, 32⟩
def CDE_MBR_SEAL_HI_SEAL : Fld := ⟨0xC144, 0, 32⟩
def CDE_ACTIVE_SLOTS : Fld := ⟨0xC148, 0, 16⟩
-- page CDJ (R94)
def CDJ_ACK_TIMEOUT_TIMEOUT : Fld := ⟨0xD100, 0, 24⟩
def CDJ_RESEND_INTERVAL : Fld := ⟨0xD104, 0, 16⟩
def CDJ_OPEN_ENTRIES : Fld := ⟨0xD108, 0, 12⟩
def CDJ_OPEN_SECT_SECTORS : Fld := ⟨0xD10C, 0, 18⟩
def CDJ_HWM_ENTRIES : Fld := ⟨0xD110, 0, 12⟩
def CDJ_STALL_CNT_COUNT : Fld := ⟨0xD114, 0, 32⟩
def CDJ_SUSP_SEL_SLOT : Fld := ⟨0xD118, 0, 4⟩
def CDJ_SUSPECT_ROLES : Fld := ⟨0xD11C, 0, 20⟩
def CDJ_OLDEST_LO_TICK : Fld := ⟨0xD120, 0, 32⟩
def CDJ_OLDEST_HI_TICK : Fld := ⟨0xD124, 0, 32⟩
def CDJ_RESEND_CNT_COUNT : Fld := ⟨0xD128, 0, 32⟩
def CDJ_RX_DUP_COUNT : Fld := ⟨0xD12C, 0, 32⟩
def CDJ_RX_STALE_COUNT : Fld := ⟨0xD130, 0, 32⟩
def CDJ_RX_BAD_COUNT : Fld := ⟨0xD134, 0, 32⟩
-- page CDR (R122)
def CDR_CTRL_REBUILD_ON_INSTALL : Fld := ⟨0xE100, 0, 1⟩
def CDR_CTRL_PAUSE : Fld := ⟨0xE100, 1, 1⟩
def CDR_REBUILD_SHARE_SHARE : Fld := ⟨0xE104, 0, 7⟩
def CDR_SEL_SLOT : Fld := ⟨0xE108, 0, 4⟩
def CDR_ROLE_CMD_ROLE : Fld := ⟨0xE10C, 0, 5⟩
def CDR_ROLE_CMD_OP : Fld := ⟨0xE10C, 5, 3⟩
def CDR_ROLE_CMD_NODE : Fld := ⟨0xE10C, 8, 20⟩
def CDR_ROLE_DOM_A_TRAY : Fld := ⟨0xE110, 0, 16⟩
def CDR_ROLE_DOM_A_POWER : Fld := ⟨0xE110, 16, 16⟩
def CDR_ROLE_DOM_B_COOLING : Fld := ⟨0xE114, 0, 16⟩
def CDR_ROLE_DOM_B_SWITCH : Fld := ⟨0xE114, 16, 16⟩
def CDR_CMD_STAT_REASON : Fld := ⟨0xE118, 0, 4⟩
def CDR_CMD_STAT_AWAIT_START : Fld := ⟨0xE118, 8, 1⟩
def CDR_CMD_STAT_REBUILDING : Fld := ⟨0xE118, 9, 1⟩
def CDR_LOST_ROLES : Fld := ⟨0xE11C, 0, 20⟩
def CDR_DECL_SEAL_LO_SEAL : Fld := ⟨0xE120, 0, 32⟩
def CDR_DECL_SEAL_HI_SEAL : Fld := ⟨0xE124, 0, 32⟩
def CDR_DECL_TICK_LO_TICK : Fld := ⟨0xE128, 0, 32⟩
def CDR_DECL_TICK_HI_TICK : Fld := ⟨0xE12C, 0, 32⟩
def CDR_CURSOR_ROW : Fld := ⟨0xE130, 0, 23⟩
def CDR_LEFT_ROWS : Fld := ⟨0xE134, 0, 23⟩
def CDR_REPORT_BASE_BASE : Fld := ⟨0xE138, 0, 23⟩
def CDR_REPORT_BASE_TIER : Fld := ⟨0xE138, 23, 1⟩
def CDR_REPORT_SIZE_SLOTS : Fld := ⟨0xE13C, 0, 16⟩
def CDR_REPORT_CNT_COUNT : Fld := ⟨0xE140, 0, 32⟩
def CDR_REPORT_LOST_COUNT : Fld := ⟨0xE144, 0, 32⟩
def CDR_ESC_CNT_COUNT : Fld := ⟨0xE148, 0, 32⟩
def CDR_DEGRADED_CNT_COUNT : Fld := ⟨0xE14C, 0, 32⟩
def CDR_REPAIR_CNT_COUNT : Fld := ⟨0xE150, 0, 32⟩
def CDR_GATHER_TIMEOUT_TIMEOUT : Fld := ⟨0xE154, 0, 16⟩
def CDR_STRAG_WIN_TICKS : Fld := ⟨0xE158, 0, 16⟩
def CDR_STRAG_THRESH_COUNT : Fld := ⟨0xE15C, 0, 16⟩
def CDR_STRAG_SUSPECT_ROLES : Fld := ⟨0xE160, 0, 20⟩
def CDR_STRAG_SEL_ROLE : Fld := ⟨0xE164, 0, 5⟩
def CDR_STRAG_LAST_CUR : Fld := ⟨0xE168, 0, 16⟩
def CDR_STRAG_LAST_PREV : Fld := ⟨0xE168, 16, 16⟩
def CDR_STRAG_LATE_NS : Fld := ⟨0xE16C, 0, 32⟩
-- page UPD (R157)
def UPD_PART_SEL_PART : Fld := ⟨0x9100, 0, 3⟩
def UPD_LTAB_BASE_BASE : Fld := ⟨0x9104, 0, 28⟩
def UPD_LTAB_COUNT_COUNT : Fld := ⟨0x9108, 0, 13⟩
def UPD_PASS_GO : Fld := ⟨0x910C, 0, 1⟩
def UPD_CLIP_SCALE_SCALE : Fld := ⟨0x9110, 0, 32⟩
def UPD_STEP_STEP : Fld := ⟨0x9114, 0, 32⟩
def UPD_LOAD_EN_PARTS : Fld := ⟨0x9118, 0, 8⟩
def UPD_FLIP_VERSION : Fld := ⟨0x911C, 0, 32⟩
def UPD_VER_VERSION : Fld := ⟨0x9120, 0, 32⟩
def UPD_FLIP_STAT_REASON : Fld := ⟨0x9124, 0, 3⟩
def UPD_FLIP_STAT_ARMED : Fld := ⟨0x9124, 4, 1⟩
def UPD_FLIP_STAT_CUR : Fld := ⟨0x9124, 5, 1⟩
def UPD_FLIP_STAT_PASS_ACTIVE : Fld := ⟨0x9124, 6, 1⟩
def UPD_FLIP_STAT_PASS_PENDING : Fld := ⟨0x9124, 7, 1⟩
def UPD_FLIP_STAT_PIN_A : Fld := ⟨0x9124, 8, 8⟩
def UPD_FLIP_STAT_PIN_B : Fld := ⟨0x9124, 16, 8⟩
def UPD_HP_SEL_SET : Fld := ⟨0x9128, 0, 6⟩
def UPD_HP_0_VALUE : Fld := ⟨0x912C, 0, 32⟩
def UPD_PROG_SEL_INDEX : Fld := ⟨0x915C, 0, 5⟩
def UPD_PROG_SEL_SLOT : Fld := ⟨0x915C, 8, 3⟩
def UPD_PROG_DATA_WORD : Fld := ⟨0x9160, 0, 32⟩
def UPD_PROG_CMD_LEN : Fld := ⟨0x9164, 0, 5⟩
def UPD_PROG_CMD_SLOT : Fld := ⟨0x9164, 8, 3⟩
def UPD_PROG_CMD_LOAD : Fld := ⟨0x9164, 16, 1⟩
def UPD_PROG_STAT_VALID : Fld := ⟨0x9168, 0, 8⟩
def UPD_PROG_STAT_REASON : Fld := ⟨0x9168, 8, 4⟩
def UPD_PROG_STAT_FIRST_BAD : Fld := ⟨0x9168, 16, 5⟩
def UPD_LAYER_ERR_LAYER : Fld := ⟨0x916C, 0, 12⟩
def UPD_LAYER_ERR_PART : Fld := ⟨0x916C, 12, 3⟩
def UPD_LAYER_ERR_REASON : Fld := ⟨0x916C, 16, 4⟩
def UPD_LAYER_ERR_VALID : Fld := ⟨0x916C, 31, 1⟩
def UPD_NF_IN_COUNT : Fld := ⟨0x9170, 0, 32⟩
def UPD_NF_OUT_COUNT : Fld := ⟨0x9174, 0, 32⟩
def UPD_IDX_BAD_COUNT : Fld := ⟨0x9178, 0, 32⟩
def UPD_WR_REFUSED_COUNT : Fld := ⟨0x917C, 0, 32⟩
def UPD_PIN_STALL_CYCLES : Fld := ⟨0x9180, 0, 32⟩
-- page TLM (R158)
def TLM_SLOT_SEL_SLOT : Fld := ⟨0xA100, 0, 12⟩
def TLM_SLOT_MODE_MODE : Fld := ⟨0xA104, 0, 1⟩
def TLM_SLOT_MODE_AUTO_CLEAR : Fld := ⟨0xA104, 1, 1⟩
def TLM_SLOT_MODE_CHANGE_PENDING : Fld := ⟨0xA104, 2, 1⟩
def TLM_CLEAR_SLOT : Fld := ⟨0xA108, 0, 12⟩
def TLM_CLEAR_ALL : Fld := ⟨0xA108, 12, 1⟩
def TLM_RD_SEL_SLOT : Fld := ⟨0xA10C, 0, 12⟩
def TLM_STAT_SAT_ANY : Fld := ⟨0xA110, 0, 1⟩
def TLM_RD_0_DATA : Fld := ⟨0xA180, 0, 32⟩
-- page CNV (R159)
def CNV_PART_SEL_PART : Fld := ⟨0xB100, 0, 3⟩
def CNV_SEED_LO_SEED : Fld := ⟨0xB104, 0, 32⟩
def CNV_SEED_HI_SEED : Fld := ⟨0xB108, 0, 32⟩
def CNV_NOISE_DST_PAGE : Fld := ⟨0xB10C, 0, 28⟩
def CNV_NOISE_DST_PART : Fld := ⟨0xB10C, 28, 3⟩
def CNV_NOISE_COUNT_COUNT : Fld := ⟨0xB110, 0, 32⟩
def CNV_NOISE_TID_TENSOR_ID : Fld := ⟨0xB114, 0, 32⟩
def CNV_NOISE_STEP_STEP : Fld := ⟨0xB118, 0, 32⟩
def CNV_NOISE_CFG_DIST : Fld := ⟨0xB11C, 0, 2⟩
def CNV_NOISE_CFG_FMT : Fld := ⟨0xB11C, 4, 1⟩
def CNV_NOISE_CMD_GO : Fld := ⟨0xB120, 0, 1⟩
def CNV_NOISE_CMD_ABORT : Fld := ⟨0xB120, 1, 1⟩
def CNV_NOISE_STAT_BUSY : Fld := ⟨0xB124, 0, 1⟩
def CNV_NOISE_STAT_DONE : Fld := ⟨0xB124, 1, 1⟩
def CNV_NOISE_STAT_RESULT : Fld := ⟨0xB124, 2, 2⟩
def CNV_STAT_KAT_OK : Fld := ⟨0xB128, 0, 1⟩
def CNV_STAT_KAT_FAIL : Fld := ⟨0xB128, 1, 1⟩
def CNV_OVF_CNT_COUNT : Fld := ⟨0xB12C, 0, 32⟩
def CNV_FTZ_CNT_COUNT : Fld := ⟨0xB130, 0, 32⟩
-- page LNF (R192)
def LNF_KWIDTH_PIN_WIDTH : Fld := ⟨0x7100, 0, 6⟩
def LNF_KWIDTH_PIN_PENDING : Fld := ⟨0x7100, 6, 1⟩
def LNF_PART_SEL_PART : Fld := ⟨0x7104, 0, 3⟩
def LNF_LATE_POLICY_POLICY : Fld := ⟨0x7108, 0, 1⟩
def LNF_ROW_SEL_ROW : Fld := ⟨0x710C, 0, 10⟩
def LNF_ROW_LANE_BYP_LANES : Fld := ⟨0x7110, 0, 32⟩
def LNF_ROW_COL_BYP_COLS : Fld := ⟨0x7114, 0, 32⟩
def LNF_ROW_STAT_KWIDTH : Fld := ⟨0x7118, 0, 6⟩
def LNF_ROW_STAT_BATCH : Fld := ⟨0x7118, 8, 6⟩
def LNF_ROW_STAT_PENDING : Fld := ⟨0x7118, 16, 1⟩
def LNF_ROW_STAT_FAULT : Fld := ⟨0x7118, 17, 1⟩
def LNF_ROW_STAT_NO_WORK : Fld := ⟨0x7118, 18, 1⟩
def LNF_ROW_STAT_PART : Fld := ⟨0x7118, 20, 3⟩
def LNF_ROW_STAT_OWNED : Fld := ⟨0x7118, 23, 1⟩
def LNF_ROW_TEST_GO : Fld := ⟨0x711C, 0, 1⟩
def LNF_TEST_STAT_BUSY : Fld := ⟨0x7120, 0, 1⟩
def LNF_TEST_STAT_DONE : Fld := ⟨0x7120, 1, 1⟩
def LNF_TEST_STAT_REFUSED : Fld := ⟨0x7120, 2, 1⟩
def LNF_TEST_STAT_PASS : Fld := ⟨0x7120, 3, 1⟩
def LNF_TEST_STAT_ROW : Fld := ⟨0x7120, 16, 10⟩
def LNF_TEST_LANES_LANES : Fld := ⟨0x7124, 0, 32⟩
def LNF_TEST_COLS_COLS : Fld := ⟨0x7128, 0, 32⟩
def LNF_IDLE_THERMAL : Fld := ⟨0x712C, 0, 6⟩
def LNF_IDLE_POWER : Fld := ⟨0x712C, 8, 6⟩
def LNF_IDLE_MIN : Fld := ⟨0x712C, 16, 6⟩
def LNF_IDLE_APPLIED : Fld := ⟨0x712C, 24, 6⟩
def LNF_STAT_CLASS_CHANGED : Fld := ⟨0x7130, 0, 1⟩
def LNF_STAT_CHANGE_PENDING : Fld := ⟨0x7130, 1, 1⟩
def LNF_STAT_HALTED : Fld := ⟨0x7130, 2, 1⟩
def LNF_ROWS_USABLE_ROWS : Fld := ⟨0x7134, 0, 10⟩
def LNF_FMT_FAULT_CNT_COUNT : Fld := ⟨0x7138, 0, 32⟩
def LNF_SAT_CNT_COUNT : Fld := ⟨0x713C, 0, 32⟩
def LNF_RESIDUE_CNT_COUNT : Fld := ⟨0x7140, 0, 32⟩
def LNF_BS_PAR_CNT_COUNT : Fld := ⟨0x7144, 0, 32⟩
def LNF_IDLE_CNT_CYCLES : Fld := ⟨0x7148, 0, 32⟩
def LNF_STAT_PAR_CNT_COUNT : Fld := ⟨0x714C, 0, 32⟩
-- page LNP (R220)
def LNP_Q_SEL_QUEUE : Fld := ⟨0x8100, 0, 4⟩
def LNP_Q_CFG_PART : Fld := ⟨0x8104, 0, 3⟩
def LNP_Q_CFG_ENABLE : Fld := ⟨0x8104, 8, 1⟩
def LNP_Q_CFG_SIZE_LOG2 : Fld := ⟨0x8104, 12, 4⟩
def LNP_Q_BASE_PAGE : Fld := ⟨0x8108, 0, 28⟩
def LNP_Q_CBASE_PAGE : Fld := ⟨0x810C, 0, 28⟩
def LNP_Q_TAIL_INDEX : Fld := ⟨0x8110, 0, 12⟩
def LNP_Q_HEAD_INDEX : Fld := ⟨0x8114, 0, 12⟩
def LNP_Q_CTAIL_INDEX : Fld := ⟨0x8118, 0, 12⟩
def LNP_Q_CHEAD_INDEX : Fld := ⟨0x811C, 0, 12⟩
def LNP_Q_STAT_CHAIN_OPEN : Fld := ⟨0x8120, 0, 1⟩
def LNP_Q_STAT_CHAIN_BUF : Fld := ⟨0x8120, 1, 1⟩
def LNP_Q_STAT_TAIL_BAD : Fld := ⟨0x8120, 2, 1⟩
def LNP_Q_STAT_EMPTY_SEEN : Fld := ⟨0x8120, 3, 1⟩
def LNP_Q_STAT_CFULL : Fld := ⟨0x8120, 4, 1⟩
def LNP_Q_ERR_INDEX : Fld := ⟨0x8124, 0, 12⟩
def LNP_Q_ERR_REASON : Fld := ⟨0x8124, 12, 4⟩
def LNP_Q_ERR_VALID : Fld := ⟨0x8124, 31, 1⟩
def LNP_CHAIN_LIMIT_TICKS : Fld := ⟨0x8128, 0, 16⟩
def LNP_EMPTY_CNT_COUNT : Fld := ⟨0x812C, 0, 32⟩
def LNP_CFULL_CNT_COUNT : Fld := ⟨0x8130, 0, 32⟩
def LNP_LATE_CNT_COUNT : Fld := ⟨0x8134, 0, 32⟩
def LNP_DIRECT_KB_KIB : Fld := ⟨0x8138, 0, 32⟩
def LNP_SLIP_CNT_CYCLES : Fld := ⟨0x813C, 0, 32⟩
def LNP_REFUSED_CNT_COUNT : Fld := ⟨0x8140, 0, 32⟩
def LNP_IDX_BAD_COUNT : Fld := ⟨0x8144, 0, 32⟩
-- page TWC (R251)
def TWC_GEOM_LAYERS : Fld := ⟨0x4100, 0, 4⟩
def TWC_GEOM_BANKS : Fld := ⟨0x4100, 4, 8⟩
def TWC_GEOM_ROWS : Fld := ⟨0x4100, 12, 16⟩
def TWC_REF_CTRL_FULL : Fld := ⟨0x4104, 0, 1⟩
def TWC_REF_CTRL_HALF : Fld := ⟨0x4104, 1, 1⟩
def TWC_REF_AUTO_BANKS : Fld := ⟨0x4108, 0, 10⟩
def TWC_TIMING0_TRCD : Fld := ⟨0x410C, 0, 8⟩
def TWC_TIMING0_CL : Fld := ⟨0x410C, 8, 8⟩
def TWC_TIMING0_TRP : Fld := ⟨0x410C, 16, 8⟩
def TWC_TIMING0_TRAS : Fld := ⟨0x410C, 24, 8⟩
def TWC_TIMING1_TWR : Fld := ⟨0x4110, 0, 8⟩
def TWC_TIMING1_TWTR : Fld := ⟨0x4110, 8, 8⟩
def TWC_TIMING1_TRTW : Fld := ⟨0x4110, 16, 8⟩
def TWC_TIMING1_TRFC : Fld := ⟨0x4110, 24, 8⟩
def TWC_TIMING2_CWL : Fld := ⟨0x4114, 0, 8⟩
def TWC_TIMING2_DERATE : Fld := ⟨0x4114, 8, 8⟩
def TWC_TIMING2_DERATED : Fld := ⟨0x4114, 16, 8⟩
def TWC_FILL_STAT_DONE : Fld := ⟨0x4118, 0, 1⟩
def TWC_FILL_STAT_WARM : Fld := ⟨0x4118, 1, 1⟩
def TWC_FILL_STAT_SELFREF : Fld := ⟨0x4118, 2, 1⟩
def TWC_PAR_CNT_COUNT : Fld := ⟨0x411C, 0, 32⟩
def TWC_POISON_CNT_COUNT : Fld := ⟨0x4120, 0, 32⟩
def TWC_RMW_CNT_COUNT : Fld := ⟨0x4124, 0, 32⟩
-- page TWR (R252)
def TWR_FUSE_STAT_APPLIED : Fld := ⟨0x5100, 0, 12⟩
def TWR_FUSE_STAT_SKIPPED : Fld := ⟨0x5100, 12, 12⟩
def TWR_FUSE_STAT_LOADED : Fld := ⟨0x5100, 24, 1⟩
def TWR_SPARE_SEL_BANK : Fld := ⟨0x5104, 0, 9⟩
def TWR_SPARE_STAT_ROWS : Fld := ⟨0x5108, 0, 16⟩
def TWR_SPARE_STAT_COLS : Fld := ⟨0x5108, 16, 4⟩
def TWR_SPARE_STAT_LANES : Fld := ⟨0x5108, 20, 2⟩
def TWR_ORG_SEL_ENTRY : Fld := ⟨0x510C, 0, 8⟩
def TWR_ORG_ENTRY_WORD : Fld := ⟨0x5110, 0, 32⟩
def TWR_ORG_CMD_OP : Fld := ⟨0x5114, 0, 2⟩
def TWR_ORG_STAT_STATE : Fld := ⟨0x5118, 0, 2⟩
def TWR_ORG_STAT_REASON : Fld := ⟨0x5118, 4, 4⟩
def TWR_ORG_STAT_USED : Fld := ⟨0x5118, 8, 9⟩
def TWR_PROBE_SEL_GROUP : Fld := ⟨0x511C, 0, 6⟩
def TWR_PROBE_CFG_INTERVAL : Fld := ⟨0x5120, 0, 11⟩
def TWR_PROBE_CFG_GO : Fld := ⟨0x5120, 16, 1⟩
def TWR_PROBE_RES_FAIL_BITS : Fld := ⟨0x5124, 0, 16⟩
def TWR_PROBE_RES_BUSY : Fld := ⟨0x5124, 16, 1⟩
def TWR_PROBE_RES_DONE : Fld := ⟨0x5124, 17, 1⟩
def TWR_PROBE_TEMP_TEMP : Fld := ⟨0x5128, 0, 16⟩
def TWR_EYE_SEL_BANK : Fld := ⟨0x512C, 0, 9⟩
def TWR_EYE_SEL_LANE : Fld := ⟨0x512C, 16, 7⟩
def TWR_EYE_WIDTH : Fld := ⟨0x5130, 0, 7⟩
def TWR_EYE_MIN_WIDTH : Fld := ⟨0x5134, 0, 7⟩
def TWR_EYE_MIN_BANK : Fld := ⟨0x5134, 16, 9⟩
def TWR_EYE_MIN_LANE : Fld := ⟨0x5134, 25, 7⟩
-- page TTH (R253)
def TTH_TEMP_01_EVEN : Fld := ⟨0x6100, 0, 16⟩
def TTH_TEMP_01_ODD : Fld := ⟨0x6100, 16, 16⟩
def TTH_MAX_TEMP : Fld := ⟨0x6110, 0, 16⟩
def TTH_MAX_LAYER : Fld := ⟨0x6110, 16, 3⟩
def TTH_THROTTLE_FRAC_FRAC : Fld := ⟨0x6114, 0, 6⟩
def TTH_STAT_WARN : Fld := ⟨0x6118, 0, 8⟩
def TTH_STAT_THROTTLE : Fld := ⟨0x6118, 8, 8⟩
def TTH_STAT_ENGAGED : Fld := ⟨0x6118, 16, 1⟩
def TTH_STAT_HALTED : Fld := ⟨0x6118, 17, 1⟩
def TTH_CRIT_CLEAR_GO : Fld := ⟨0x611C, 0, 1⟩
def TTH_SENSOR_FAULT_SENSORS : Fld := ⟨0x6120, 0, 32⟩
def TTH_LIMITS_WARN : Fld := ⟨0x6124, 0, 8⟩
def TTH_LIMITS_THROTTLE : Fld := ⟨0x6124, 8, 8⟩
def TTH_LIMITS_CRITICAL : Fld := ⟨0x6124, 16, 8⟩
def TTH_PEAK_TEMP : Fld := ⟨0x6128, 0, 16⟩
def TTH_THROTTLE_US_US : Fld := ⟨0x612C, 0, 32⟩
def TTH_WARN_CNT_COUNT : Fld := ⟨0x6130, 0, 32⟩
-- page PGM (R287)
def PGM_PART_SEL_PART : Fld := ⟨0xF100, 0, 3⟩
def PGM_MAP_BASE_FRAME : Fld := ⟨0xF104, 0, 17⟩
def PGM_MAP_PAGES_PAGES : Fld := ⟨0xF108, 0, 25⟩
def PGM_RESERVE_PAGES : Fld := ⟨0xF10C, 0, 17⟩
def PGM_Q_CFG_SIZE_LOG2 : Fld := ⟨0xF110, 0, 4⟩
def PGM_Q_CFG_ENABLE : Fld := ⟨0xF110, 8, 1⟩
def PGM_Q_CFG_TAIL_BAD : Fld := ⟨0xF110, 9, 1⟩
def PGM_Q_BASE_PAGE : Fld := ⟨0xF114, 0, 28⟩
def PGM_Q_CBASE_PAGE : Fld := ⟨0xF118, 0, 28⟩
def PGM_Q_TAIL_INDEX : Fld := ⟨0xF11C, 0, 12⟩
def PGM_Q_HEAD_INDEX : Fld := ⟨0xF120, 0, 12⟩
def PGM_Q_CTAIL_INDEX : Fld := ⟨0xF124, 0, 12⟩
def PGM_Q_CHEAD_INDEX : Fld := ⟨0xF128, 0, 12⟩
def PGM_Q_ERR_INDEX : Fld := ⟨0xF12C, 0, 12⟩
def PGM_Q_ERR_REASON : Fld := ⟨0xF12C, 12, 4⟩
def PGM_Q_ERR_VALID : Fld := ⟨0xF12C, 31, 1⟩
def PGM_AGE_TICKS_TICKS : Fld := ⟨0xF130, 0, 16⟩
def PGM_WATER_LOW : Fld := ⟨0xF134, 0, 16⟩
def PGM_WATER_HIGH : Fld := ⟨0xF134, 16, 16⟩
def PGM_FREE_T1_FRAMES : Fld := ⟨0xF138, 0, 17⟩
def PGM_FREE_T2_FRAMES : Fld := ⟨0xF13C, 0, 19⟩
def PGM_DIRTY_FREE_FRAMES : Fld := ⟨0xF140, 0, 20⟩
def PGM_LEND_PAGES_PAGES : Fld := ⟨0xF144, 0, 17⟩
def PGM_LENT_PAGES : Fld := ⟨0xF148, 0, 17⟩
def PGM_LENDER_SEL_LENDER : Fld := ⟨0xF14C, 0, 4⟩
def PGM_LENDER_NODE_NODE : Fld := ⟨0xF150, 0, 20⟩
def PGM_LENDER_NODE_VALID : Fld := ⟨0xF150, 31, 1⟩
def PGM_LENDER_PAGES_LIMIT : Fld := ⟨0xF154, 0, 17⟩
def PGM_BORROWED_PAGES : Fld := ⟨0xF158, 0, 17⟩
def PGM_STAT_EVICTING : Fld := ⟨0xF15C, 0, 1⟩
def PGM_STAT_REVOKING : Fld := ⟨0xF15C, 1, 1⟩
def PGM_STAT_NO_SPACE : Fld := ⟨0xF15C, 2, 1⟩
def PGM_STAT_LENDER_LOST : Fld := ⟨0xF15C, 3, 1⟩
def PGM_STAT_MAP_REFUSED : Fld := ⟨0xF15C, 4, 1⟩
def PGM_EVICT_CNT_COUNT : Fld := ⟨0xF160, 0, 32⟩
def PGM_DROP_CNT_COUNT : Fld := ⟨0xF164, 0, 32⟩
def PGM_ZERO_CNT_COUNT : Fld := ⟨0xF168, 0, 32⟩
def PGM_NOSPACE_CNT_COUNT : Fld := ⟨0xF16C, 0, 32⟩
def PGM_C0_DISCARD_CNT_COUNT : Fld := ⟨0xF170, 0, 32⟩
def PGM_BORROWER_SEL_BORROWER : Fld := ⟨0xF174, 0, 4⟩
def PGM_BORROWER_NODE_NODE : Fld := ⟨0xF178, 0, 20⟩
def PGM_BORROWER_NODE_VALID : Fld := ⟨0xF178, 31, 1⟩
-- page XLT (R288)
def XLT_PART_SEL_PART : Fld := ⟨0x10100, 0, 3⟩
def XLT_SEQ_BASE_PAGE : Fld := ⟨0x10104, 0, 28⟩
def XLT_SEQ_COUNT_COUNT : Fld := ⟨0x10108, 0, 17⟩
def XLT_SEQ_PAGES_LOG2 : Fld := ⟨0x1010C, 0, 5⟩
def XLT_KV_FIRST_PAGE : Fld := ⟨0x10110, 0, 24⟩
def XLT_KV_COUNT_PAGES : Fld := ⟨0x10114, 0, 24⟩
def XLT_KV_FREE_PAGES : Fld := ⟨0x10118, 0, 24⟩
def XLT_COW_CNT_COUNT : Fld := ⟨0x1011C, 0, 32⟩
def XLT_GONE_CNT_COUNT : Fld := ⟨0x10120, 0, 32⟩
def XLT_PIN_STALL_CNT_COUNT : Fld := ⟨0x10124, 0, 32⟩
def XLT_MISS_CNT_COUNT : Fld := ⟨0x10128, 0, 32⟩
-- page PFT (R289)
def PFT_BASE_FRAME : Fld := ⟨0x11100, 0, 17⟩
def PFT_CFG_LOG2 : Fld := ⟨0x11104, 0, 5⟩
def PFT_CFG_ENABLE : Fld := ⟨0x11104, 8, 1⟩
def PFT_USED_ENTRIES : Fld := ⟨0x11108, 0, 21⟩
def PFT_MULTI_CNT_COUNT : Fld := ⟨0x1110C, 0, 32⟩
def PFT_STALE_CNT_COUNT : Fld := ⟨0x11110, 0, 32⟩
def PFT_FULL_CNT_COUNT : Fld := ⟨0x11114, 0, 32⟩
def PFT_LAST_MULTI_INDEX : Fld := ⟨0x11118, 0, 20⟩
def PFT_LAST_MULTI_PART : Fld := ⟨0x11118, 20, 3⟩
def PFT_LAST_MULTI_VALID : Fld := ⟨0x11118, 31, 1⟩
-- page FBP (R323)
def FBP_CTRL_EN : Fld := ⟨0x12100, 0, 1⟩
def FBP_NODE_NODE : Fld := ⟨0x12104, 0, 20⟩
def FBP_MS_TIMEOUT_US : Fld := ⟨0x12108, 0, 14⟩
def FBP_FM_NODE_NODE : Fld := ⟨0x1210C, 0, 20⟩
def FBP_FM_NODE_VALID : Fld := ⟨0x1210C, 31, 1⟩
def FBP_PART_SEL_PART : Fld := ⟨0x12110, 0, 3⟩
def FBP_PART_JOB_JOB : Fld := ⟨0x12114, 0, 16⟩
def FBP_PART_JOB_VALID : Fld := ⟨0x12114, 31, 1⟩
def FBP_Q_CFG_SIZE_LOG2 : Fld := ⟨0x12118, 0, 4⟩
def FBP_Q_CFG_ENABLE : Fld := ⟨0x12118, 8, 1⟩
def FBP_Q_CFG_TAIL_BAD : Fld := ⟨0x12118, 9, 1⟩
def FBP_Q_BASE_PAGE : Fld := ⟨0x1211C, 0, 28⟩
def FBP_Q_CBASE_PAGE : Fld := ⟨0x12120, 0, 28⟩
def FBP_Q_TAIL_INDEX : Fld := ⟨0x12124, 0, 12⟩
def FBP_Q_HEAD_INDEX : Fld := ⟨0x12128, 0, 12⟩
def FBP_Q_CTAIL_INDEX : Fld := ⟨0x1212C, 0, 12⟩
def FBP_Q_CHEAD_INDEX : Fld := ⟨0x12130, 0, 12⟩
def FBP_Q_ERR_INDEX : Fld := ⟨0x12134, 0, 12⟩
def FBP_Q_ERR_REASON : Fld := ⟨0x12134, 12, 4⟩
def FBP_Q_ERR_VALID : Fld := ⟨0x12134, 31, 1⟩
def FBP_PTN_SEL_ENTRY : Fld := ⟨0x12138, 0, 12⟩
def FBP_PTN_NODE_NODE : Fld := ⟨0x1213C, 0, 20⟩
def FBP_PTN_NODE_PART : Fld := ⟨0x1213C, 20, 3⟩
def FBP_PTN_NODE_GEN : Fld := ⟨0x1213C, 24, 4⟩
def FBP_PTN_NODE_KX_OK : Fld := ⟨0x1213C, 30, 1⟩
def FBP_PTN_NODE_VALID : Fld := ⟨0x1213C, 31, 1⟩
def FBP_PTN_JOB_JOB : Fld := ⟨0x12140, 0, 16⟩
def FBP_PTN_JOB_OUTSTANDING : Fld := ⟨0x12140, 16, 13⟩
def FBP_STAT_LINK_UP : Fld := ⟨0x12144, 0, 1⟩
def FBP_STAT_GATE_OPENED : Fld := ⟨0x12144, 1, 1⟩
def FBP_RETRY_CNT_COUNT : Fld := ⟨0x12148, 0, 32⟩
def FBP_TIMEOUT_CNT_COUNT : Fld := ⟨0x1214C, 0, 32⟩
def FBP_STALE_CNT_COUNT : Fld := ⟨0x12150, 0, 32⟩
def FBP_RX_UNEXP_COUNT : Fld := ⟨0x12154, 0, 32⟩
def FBP_RX_BAD_COUNT : Fld := ⟨0x12158, 0, 32⟩
def FBP_GATE_REFUSED_COUNT : Fld := ⟨0x1215C, 0, 32⟩
def FBP_COMBINED_CNT_COUNT : Fld := ⟨0x12160, 0, 32⟩
def FBP_RX_HOSTILE_COUNT : Fld := ⟨0x12164, 0, 32⟩
-- page FBK (R324)
def FBK_CTRL_KX_EN : Fld := ⟨0x13100, 0, 1⟩
def FBK_CTRL_FAIL_LIMIT : Fld := ⟨0x13100, 8, 8⟩
def FBK_REG_SEL_ENTRY : Fld := ⟨0x13104, 0, 8⟩
def FBK_REG_KEY_KEY : Fld := ⟨0x13108, 0, 32⟩
def FBK_REG_BASE_BASE : Fld := ⟨0x1310C, 0, 28⟩
def FBK_REG_LEN_LO_LEN : Fld := ⟨0x13110, 0, 32⟩
def FBK_REG_LEN_HI_LEN : Fld := ⟨0x13114, 0, 8⟩
def FBK_REG_CFG_KIND : Fld := ⟨0x13118, 0, 1⟩
def FBK_REG_CFG_PART : Fld := ⟨0x13118, 1, 3⟩
def FBK_REG_CFG_READ : Fld := ⟨0x13118, 4, 1⟩
def FBK_REG_CFG_WRITE : Fld := ⟨0x13118, 5, 1⟩
def FBK_REG_CFG_ATOMIC : Fld := ⟨0x13118, 6, 1⟩
def FBK_REG_CFG_VALID : Fld := ⟨0x13118, 31, 1⟩
def FBK_KX_SEL_WINDOW : Fld := ⟨0x1311C, 0, 6⟩
def FBK_KX_CFG_JOB : Fld := ⟨0x13120, 0, 16⟩
def FBK_KX_CFG_PART : Fld := ⟨0x13120, 16, 3⟩
def FBK_KX_CFG_READ : Fld := ⟨0x13120, 19, 1⟩
def FBK_KX_CFG_WRITE : Fld := ⟨0x13120, 20, 1⟩
def FBK_KX_CFG_ATOMIC : Fld := ⟨0x13120, 21, 1⟩
def FBK_KX_CFG_VALID : Fld := ⟨0x13120, 31, 1⟩
def FBK_KX_VA_VA : Fld := ⟨0x13124, 0, 32⟩
def FBK_KX_PAGES_PAGES : Fld := ⟨0x13128, 0, 24⟩
def FBK_KX_BASE_PAGE : Fld := ⟨0x1312C, 0, 24⟩
def FBK_BLK_SEL_ENTRY : Fld := ⟨0x13130, 0, 4⟩
def FBK_BLK_NODE_NODE : Fld := ⟨0x13134, 0, 20⟩
def FBK_BLK_NODE_VALID : Fld := ⟨0x13134, 31, 1⟩
def FBK_STAT_DUP_KEY : Fld := ⟨0x13138, 0, 1⟩
def FBK_STAT_BLOCK_FULL : Fld := ⟨0x13138, 1, 1⟩
def FBK_KEY_FAIL_CNT_COUNT : Fld := ⟨0x1313C, 0, 32⟩
def FBK_BLOCKED_CNT_COUNT : Fld := ⟨0x13140, 0, 32⟩
def FBK_LAST_FAIL_NODE : Fld := ⟨0x13144, 0, 20⟩
def FBK_LAST_FAIL_STEP : Fld := ⟨0x13144, 20, 4⟩
-- page FVC (R325)
def FVC_WEIGHT_LO_VC1 : Fld := ⟨0x14100, 0, 8⟩
def FVC_WEIGHT_LO_VC2 : Fld := ⟨0x14100, 8, 8⟩
def FVC_WEIGHT_LO_VC3 : Fld := ⟨0x14100, 16, 8⟩
def FVC_WEIGHT_LO_VC4 : Fld := ⟨0x14100, 24, 8⟩
def FVC_WEIGHT_HI_VC5 : Fld := ⟨0x14104, 0, 8⟩
def FVC_WEIGHT_HI_VC6 : Fld := ⟨0x14104, 8, 8⟩
def FVC_WEIGHT_HI_VC7 : Fld := ⟨0x14104, 16, 8⟩
def FVC_VC1_MIN_MIN : Fld := ⟨0x14108, 0, 6⟩
def FVC_BUF_SEL_VC : Fld := ⟨0x1410C, 0, 3⟩
def FVC_BUF_SIZE : Fld := ⟨0x14110, 0, 13⟩
def FVC_BUF_RESP : Fld := ⟨0x14110, 16, 13⟩
def FVC_STAT_SEL_VC : Fld := ⟨0x14114, 0, 3⟩
def FVC_TX_KB_KIB : Fld := ⟨0x14118, 0, 32⟩
def FVC_RX_KB_KIB : Fld := ⟨0x1411C, 0, 32⟩
def FVC_CREDIT_STALL_CYCLES : Fld := ⟨0x14120, 0, 32⟩
def FVC_RESV_STALL_COUNT : Fld := ⟨0x14124, 0, 32⟩
def FVC_STAT_BUF_REFUSED : Fld := ⟨0x14128, 0, 1⟩
-- page COL (R343)
def COL_PART_SEL_PART : Fld := ⟨0x15100, 0, 3⟩
def COL_THRESHOLD_KIB : Fld := ⟨0x15104, 0, 16⟩
def COL_TIMEOUT_US : Fld := ⟨0x15108, 0, 16⟩
def COL_GRID_DIM_01_EVEN : Fld := ⟨0x1510C, 0, 16⟩
def COL_GRID_DIM_01_ODD : Fld := ⟨0x1510C, 16, 16⟩
def COL_GRID_CRD_01_EVEN : Fld := ⟨0x15118, 0, 16⟩
def COL_GRID_CRD_01_ODD : Fld := ⟨0x15118, 16, 16⟩
def COL_GRP_SEL_ENTRY : Fld := ⟨0x15124, 0, 6⟩
def COL_GRP_CFG_TAG : Fld := ⟨0x15128, 0, 16⟩
def COL_GRP_CFG_PART : Fld := ⟨0x15128, 16, 3⟩
def COL_GRP_CFG_NAXES : Fld := ⟨0x15128, 19, 3⟩
def COL_GRP_CFG_VALID : Fld := ⟨0x15128, 31, 1⟩
def COL_GRP_AXES_AXES : Fld := ⟨0x1512C, 0, 18⟩
def COL_GRP_MEMB_PAGE : Fld := ⟨0x15130, 0, 28⟩
def COL_GRP_CMD_OP : Fld := ⟨0x15134, 0, 2⟩
def COL_GRP_STAT_MEMBERS : Fld := ⟨0x15138, 0, 13⟩
def COL_GRP_STAT_RANK : Fld := ⟨0x15138, 16, 12⟩
def COL_GRP_STAT_REASON : Fld := ⟨0x15138, 28, 4⟩
def COL_Q_CFG_SIZE_LOG2 : Fld := ⟨0x1513C, 0, 4⟩
def COL_Q_CFG_ENABLE : Fld := ⟨0x1513C, 8, 1⟩
def COL_Q_CFG_TAIL_BAD : Fld := ⟨0x1513C, 9, 1⟩
def COL_Q_BASE_PAGE : Fld := ⟨0x15140, 0, 28⟩
def COL_Q_CBASE_PAGE : Fld := ⟨0x15144, 0, 28⟩
def COL_Q_TAIL_INDEX : Fld := ⟨0x15148, 0, 12⟩
def COL_Q_HEAD_INDEX : Fld := ⟨0x1514C, 0, 12⟩
def COL_Q_CTAIL_INDEX : Fld := ⟨0x15150, 0, 12⟩
def COL_Q_CHEAD_INDEX : Fld := ⟨0x15154, 0, 12⟩
def COL_Q_ERR_INDEX : Fld := ⟨0x15158, 0, 12⟩
def COL_Q_ERR_REASON : Fld := ⟨0x15158, 12, 4⟩
def COL_Q_ERR_VALID : Fld := ⟨0x15158, 31, 1⟩
def COL_FRAG_SEL_HANDLE : Fld := ⟨0x1515C, 0, 12⟩
def COL_FRAG_STAT_STATE : Fld := ⟨0x15160, 0, 2⟩
def COL_TIMEOUT_CNT_COUNT : Fld := ⟨0x15164, 0, 32⟩
def COL_REFUSED_CNT_COUNT : Fld := ⟨0x15168, 0, 32⟩
def COL_STALE_CNT_COUNT : Fld := ⟨0x1516C, 0, 32⟩
def COL_FLAG_0_FLAGS : Fld := ⟨0x15180, 0, 32⟩
-- page ARC (R361)
def ARC_PART_SEL_PART : Fld := ⟨0x16100, 0, 3⟩
def ARC_TAB_BASE_PAGE : Fld := ⟨0x16104, 0, 28⟩
def ARC_TAB_COUNT_COUNT : Fld := ⟨0x16108, 0, 11⟩
def ARC_MAP_BASE_FRAME : Fld := ⟨0x1610C, 0, 17⟩
def ARC_MAP_PAGES_PAGES : Fld := ⟨0x16110, 0, 25⟩
def ARC_STAGE_BASE_PAGE : Fld := ⟨0x16114, 0, 28⟩
def ARC_TARGET_NODE : Fld := ⟨0x16118, 0, 20⟩
def ARC_TARGET_VALID : Fld := ⟨0x16118, 31, 1⟩
def ARC_POINT_LO_TICK : Fld := ⟨0x1611C, 0, 32⟩
def ARC_POINT_HI_TICK : Fld := ⟨0x16120, 0, 32⟩
def ARC_CMD_OP : Fld := ⟨0x16124, 0, 2⟩
def ARC_CMD_FULL : Fld := ⟨0x16124, 8, 1⟩
def ARC_STAT_STATE : Fld := ⟨0x16128, 0, 2⟩
def ARC_STAT_RESULT : Fld := ⟨0x16128, 2, 2⟩
def ARC_STAT_LIVE : Fld := ⟨0x16128, 4, 1⟩
def ARC_STAT_INCONSISTENT : Fld := ⟨0x16128, 5, 1⟩
def ARC_STAT_DONE : Fld := ⟨0x16128, 6, 1⟩
def ARC_STAT_REASON : Fld := ⟨0x16128, 8, 4⟩
def ARC_SEQ_SEQ : Fld := ⟨0x1612C, 0, 32⟩
def ARC_ACK_TIMEOUT_US : Fld := ⟨0x16130, 0, 16⟩
def ARC_WINDOW_RECORDS : Fld := ⟨0x16134, 0, 7⟩
def ARC_Q_CFG_SIZE_LOG2 : Fld := ⟨0x16138, 0, 4⟩
def ARC_Q_CFG_ENABLE : Fld := ⟨0x16138, 8, 1⟩
def ARC_Q_CFG_TAIL_BAD : Fld := ⟨0x16138, 9, 1⟩
def ARC_Q_BASE_PAGE : Fld := ⟨0x1613C, 0, 28⟩
def ARC_Q_CBASE_PAGE : Fld := ⟨0x16140, 0, 28⟩
def ARC_Q_TAIL_INDEX : Fld := ⟨0x16144, 0, 12⟩
def ARC_Q_HEAD_INDEX : Fld := ⟨0x16148, 0, 12⟩
def ARC_Q_CTAIL_INDEX : Fld := ⟨0x1614C, 0, 12⟩
def ARC_Q_CHEAD_INDEX : Fld := ⟨0x16150, 0, 12⟩
def ARC_Q_ERR_INDEX : Fld := ⟨0x16154, 0, 12⟩
def ARC_Q_ERR_REASON : Fld := ⟨0x16154, 12, 4⟩
def ARC_Q_ERR_VALID : Fld := ⟨0x16154, 31, 1⟩
def ARC_REC_CNT_COUNT : Fld := ⟨0x16158, 0, 32⟩
def ARC_RAW_KB_KIB : Fld := ⟨0x1615C, 0, 32⟩
def ARC_SENT_KB_KIB : Fld := ⟨0x16160, 0, 32⟩
def ARC_LZ4_CNT_COUNT : Fld := ⟨0x16164, 0, 32⟩
def ARC_NEWER_CNT_COUNT : Fld := ⟨0x16168, 0, 32⟩
def ARC_RESEND_CNT_COUNT : Fld := ⟨0x1616C, 0, 32⟩
def ARC_SKIP_CNT_COUNT : Fld := ⟨0x16170, 0, 32⟩
def ARC_GONE_CNT_COUNT : Fld := ⟨0x16174, 0, 32⟩
def ARC_RESTORE_CNT_COUNT : Fld := ⟨0x16178, 0, 32⟩
-- page PTC (R383)
def PTC_PART_SEL_PART : Fld := ⟨0x17100, 0, 3⟩
def PTC_CMD_OP : Fld := ⟨0x17104, 0, 2⟩
def PTC_CFG_CLIENT : Fld := ⟨0x17108, 0, 8⟩
def PTC_CFG_SEAT : Fld := ⟨0x17108, 8, 3⟩
def PTC_SH_BASE_FRAME : Fld := ⟨0x1710C, 0, 17⟩
def PTC_SH_FRAMES_FRAMES : Fld := ⟨0x17110, 0, 8⟩
def PTC_SH_FRAMES_NEED : Fld := ⟨0x17110, 16, 8⟩
def PTC_STAT_STATE : Fld := ⟨0x17114, 0, 3⟩
def PTC_STAT_REASON : Fld := ⟨0x17114, 4, 4⟩
def PTC_STAT_DONE : Fld := ⟨0x17114, 8, 1⟩
def PTC_STAT_POISON : Fld := ⟨0x17114, 9, 1⟩
def PTC_SLOWDOWN_Q88 : Fld := ⟨0x17118, 0, 16⟩
def PTC_SLOW_WIN_TICKS : Fld := ⟨0x1711C, 0, 16⟩
def PTC_SLOW_ALERT_Q88 : Fld := ⟨0x17120, 0, 16⟩
def PTC_DRAIN_LIMIT_US : Fld := ⟨0x17124, 0, 16⟩
def PTC_DRAIN_LIMIT_DISSOLVE : Fld := ⟨0x17124, 16, 1⟩
def PTC_SEAT_SEL_SEAT : Fld := ⟨0x17128, 0, 3⟩
def PTC_SEAT_SLOTS_FIRST : Fld := ⟨0x1712C, 0, 13⟩
def PTC_SEAT_SLOTS_COUNT : Fld := ⟨0x1712C, 16, 13⟩
def PTC_SEAT_SRAM_DRAIN : Fld := ⟨0x17130, 0, 6⟩
def PTC_SEAT_SRAM_STAGE : Fld := ⟨0x17130, 8, 7⟩
def PTC_SEAT_TRIO_0_TRIOS : Fld := ⟨0x17134, 0, 32⟩
def PTC_SEAT_STAT_PART : Fld := ⟨0x17154, 0, 3⟩
def PTC_SEAT_STAT_OCCUPIED : Fld := ⟨0x17154, 3, 1⟩
def PTC_SEAT_STAT_ROWS : Fld := ⟨0x17154, 4, 10⟩
def PTC_VC_SEL_VC : Fld := ⟨0x17158, 0, 3⟩
def PTC_VC_RESV_KIB : Fld := ⟨0x1715C, 0, 13⟩
def PTC_CLIENT_SEL_CLIENT : Fld := ⟨0x17160, 0, 8⟩
def PTC_JOB_CNT_COUNT : Fld := ⟨0x17164, 0, 32⟩
def PTC_SWITCH_US_US : Fld := ⟨0x17168, 0, 16⟩
def PTC_SWITCH_CNT_COUNT : Fld := ⟨0x1716C, 0, 32⟩
def PTC_RESET_CNT_COUNT : Fld := ⟨0x17170, 0, 32⟩
-- page ARB (R384)
def ARB_QUOTA_GRANTS : Fld := ⟨0x3100, 0, 8⟩
def ARB_CTRL_PREEMPT_EN : Fld := ⟨0x3104, 0, 1⟩
def ARB_STAT_MASKED : Fld := ⟨0x3108, 0, 1⟩
def ARB_C1_GRANTS_COUNT : Fld := ⟨0x310C, 0, 32⟩
def ARB_C2_GRANTS_COUNT : Fld := ⟨0x3110, 0, 32⟩
def ARB_C3_GRANTS_COUNT : Fld := ⟨0x3114, 0, 32⟩
def ARB_PREEMPT_CNT_COUNT : Fld := ⟨0x3118, 0, 32⟩
def ARB_MASK_CNT_COUNT : Fld := ⟨0x311C, 0, 32⟩
def ARB_C1_MAX_NS : Fld := ⟨0x3120, 0, 16⟩
def ARB_C1_OVER_CNT_COUNT : Fld := ⟨0x3124, 0, 32⟩
-- page ERU (R409)
def ERU_STAT_COUNT : Fld := ⟨0x19100, 0, 6⟩
def ERU_STAT_OVERFLOW : Fld := ⟨0x19100, 8, 1⟩
def ERU_STAT_FATAL : Fld := ⟨0x19100, 9, 1⟩
def ERU_LOST_COUNT : Fld := ⟨0x19104, 0, 32⟩
def ERU_POP_POP : Fld := ⟨0x19108, 0, 1⟩
def ERU_SEQ_NEXT_SEQ : Fld := ⟨0x1910C, 0, 32⟩
def ERU_INJECT_CODE : Fld := ⟨0x19110, 0, 16⟩
def ERU_INJECT_SEVERITY : Fld := ⟨0x19110, 16, 2⟩
def ERU_REC_0_DATA : Fld := ⟨0x19140, 0, 32⟩
def ERU_FATAL_0_DATA : Fld := ⟨0x19180, 0, 32⟩
-- page CTR (R410)
def CTR_SEL_COUNTER : Fld := ⟨0x18100, 0, 6⟩
def CTR_CFG_EVENT : Fld := ⟨0x18104, 0, 16⟩
def CTR_CFG_PART : Fld := ⟨0x18104, 16, 3⟩
def CTR_CFG_PART_EN : Fld := ⟨0x18104, 19, 1⟩
def CTR_CFG_ENABLE : Fld := ⟨0x18104, 20, 1⟩
def CTR_CFG_IRQ_OVF : Fld := ⟨0x18104, 21, 1⟩
def CTR_PRELOAD_LO_VALUE : Fld := ⟨0x18108, 0, 32⟩
def CTR_PRELOAD_HI_VALUE : Fld := ⟨0x1810C, 0, 16⟩
def CTR_PRELOAD_HI_LOAD : Fld := ⟨0x1810C, 31, 1⟩
def CTR_LIVE_LO_VALUE : Fld := ⟨0x18110, 0, 32⟩
def CTR_LIVE_HI_VALUE : Fld := ⟨0x18114, 0, 16⟩
def CTR_OVF_LO_OVF : Fld := ⟨0x18118, 0, 32⟩
def CTR_OVF_HI_OVF : Fld := ⟨0x1811C, 0, 32⟩
def CTR_CYCLE_LO_VALUE : Fld := ⟨0x18120, 0, 32⟩
def CTR_CYCLE_HI_VALUE : Fld := ⟨0x18124, 0, 32⟩
def CTR_TD_SEL_PART : Fld := ⟨0x18128, 0, 3⟩
def CTR_TD_SEL_CLASS : Fld := ⟨0x18128, 4, 2⟩
def CTR_TD_LO_VALUE : Fld := ⟨0x1812C, 0, 32⟩
def CTR_TD_HI_VALUE : Fld := ⟨0x18130, 0, 32⟩
def CTR_SNAP_LO_TIME : Fld := ⟨0x18134, 0, 32⟩
def CTR_SNAP_HI_TIME : Fld := ⟨0x18138, 0, 32⟩
def CTR_SNAP_CMD_OP : Fld := ⟨0x1813C, 0, 2⟩
def CTR_SNAP_CMD_SCOPE : Fld := ⟨0x1813C, 8, 1⟩
def CTR_SNAP_STAT_ARMED : Fld := ⟨0x18140, 0, 1⟩
def CTR_SNAP_STAT_FROZEN : Fld := ⟨0x18140, 1, 1⟩
def CTR_SNAP_STAT_DONE : Fld := ⟨0x18140, 2, 1⟩
def CTR_SNAP_STAT_REFUSED : Fld := ⟨0x18140, 3, 1⟩
def CTR_SNAP_SEQ_SEQ : Fld := ⟨0x18144, 0, 32⟩
def CTR_SHADOW_SEL_ITEM : Fld := ⟨0x18148, 0, 7⟩
def CTR_SHADOW_LO_VALUE : Fld := ⟨0x1814C, 0, 32⟩
def CTR_SHADOW_HI_VALUE : Fld := ⟨0x18150, 0, 32⟩
def CTR_USER_EN_PARTS : Fld := ⟨0x18154, 0, 8⟩
def CTR_USER_SEL_PART : Fld := ⟨0x18158, 0, 3⟩
def CTR_USER_PAGE_PAGE : Fld := ⟨0x1815C, 0, 28⟩
def CTR_STAT_USER_FAIL : Fld := ⟨0x18160, 0, 1⟩
-- page MGC (R434)
def MGC_CORE_SEL_CORE : Fld := ⟨0x1A100, 0, 2⟩
def MGC_CORE_CTRL_RESTART : Fld := ⟨0x1A104, 0, 1⟩
def MGC_CORE_CTRL_HALT : Fld := ⟨0x1A104, 1, 1⟩
def MGC_CORE_STAT_STATE : Fld := ⟨0x1A108, 0, 2⟩
def MGC_CORE_STAT_ALIVE : Fld := ⟨0x1A108, 2, 1⟩
def MGC_CORE_STAT_RESTARTS : Fld := ⟨0x1A108, 8, 8⟩
def MGC_CORE_STAT_FOREIGN_WR : Fld := ⟨0x1A108, 16, 8⟩
def MGC_CORE_VER_FW_VER : Fld := ⟨0x1A10C, 0, 32⟩
def MGC_CORE_IFC_IFC_MIN : Fld := ⟨0x1A110, 0, 8⟩
def MGC_CORE_IFC_IFC_MAX : Fld := ⟨0x1A110, 8, 8⟩
def MGC_WDT_CFG_MS : Fld := ⟨0x1A114, 0, 12⟩
def MGC_WDT_CFG_EN : Fld := ⟨0x1A114, 16, 1⟩
def MGC_WDT_KICK_CORE : Fld := ⟨0x1A118, 0, 2⟩
def MGC_CTRL_NOTE_SB : Fld := ⟨0x1A11C, 0, 1⟩
def MGC_STAT_KIOSK_STATE : Fld := ⟨0x1A120, 0, 2⟩
def MGC_STAT_MANAGER : Fld := ⟨0x1A120, 2, 1⟩
def MGC_STAT_STAGED : Fld := ⟨0x1A120, 3, 1⟩
def MGC_STAT_ACTIVATING : Fld := ⟨0x1A120, 4, 1⟩
def MGC_STAT_STAGED_CORE : Fld := ⟨0x1A120, 5, 2⟩
def MGC_KSK_SEL_MBOX : Fld := ⟨0x1A124, 0, 2⟩
def MGC_KSK_DOORBELL_RING : Fld := ⟨0x1A128, 0, 1⟩
def MGC_KSK_TAKE_TAKE : Fld := ⟨0x1A12C, 0, 1⟩
def MGC_KSK_STAT_REQ_FULL : Fld := ⟨0x1A130, 0, 1⟩
def MGC_KSK_STAT_REPLY_PEND : Fld := ⟨0x1A130, 1, 1⟩
def MGC_KSK_STAT_REQ_QUEUED : Fld := ⟨0x1A130, 8, 8⟩
def MGC_KSK_STAT_NOTE_LOST : Fld := ⟨0x1A130, 16, 16⟩
def MGC_KSK_BAD_COUNT : Fld := ⟨0x1A134, 0, 32⟩
def MGC_MCTP_EID_EID : Fld := ⟨0x1A138, 0, 8⟩
def MGC_MCTP_IANA_NUMBER : Fld := ⟨0x1A13C, 0, 32⟩
def MGC_HOFF_STAT_VERSION : Fld := ⟨0x1A140, 0, 16⟩
def MGC_HOFF_STAT_CORE : Fld := ⟨0x1A140, 16, 2⟩
def MGC_KSK_WIN_0_DATA : Fld := ⟨0x1A800, 0, 32⟩
-- page PWA (R435)
def PWA_BUDGET_REQ_REQ : Fld := ⟨0x1B100, 0, 10⟩
def PWA_BUDGET_GRANT_GRANT : Fld := ⟨0x1B104, 0, 10⟩
def PWA_BUDGET_GRANT_VALID : Fld := ⟨0x1B104, 16, 1⟩
def PWA_BUDGET_EFF_BUDGET : Fld := ⟨0x1B108, 0, 10⟩
def PWA_EST_POWER : Fld := ⟨0x1B10C, 0, 10⟩
def PWA_CTRL_GOV_EN : Fld := ⟨0x1B110, 0, 1⟩
def PWA_CTRL_HYST : Fld := ⟨0x1B110, 8, 8⟩
def PWA_FLOOR_FLOOR : Fld := ⟨0x1B114, 0, 10⟩
def PWA_COEF_SEL_INDEX : Fld := ⟨0x1B118, 0, 4⟩
def PWA_COEF_VALUE : Fld := ⟨0x1B11C, 0, 32⟩
def PWA_RO_SEL_MONITOR : Fld := ⟨0x1B120, 0, 5⟩
def PWA_RO_CNT_COUNT : Fld := ⟨0x1B124, 0, 24⟩
def PWA_RO_BASE_COUNT : Fld := ⟨0x1B128, 0, 24⟩
def PWA_REPLAN_HOURS : Fld := ⟨0x1B12C, 0, 14⟩
def PWA_REPLAN_NOW : Fld := ⟨0x1B12C, 16, 1⟩
def PWA_REPLAN_STAT_BUSY : Fld := ⟨0x1B130, 0, 1⟩
def PWA_REPLAN_STAT_DONE : Fld := ⟨0x1B130, 1, 1⟩
def PWA_REPLAN_STAT_PASSES : Fld := ⟨0x1B130, 16, 16⟩
def PWA_VREQ_GUARD_MV : Fld := ⟨0x1B134, 0, 8⟩
def PWA_VREQ_SLOW_PCT : Fld := ⟨0x1B134, 8, 8⟩
def PWA_STAT_GOVERNING : Fld := ⟨0x1B138, 0, 1⟩
def PWA_STAT_BELOW_FLOOR : Fld := ⟨0x1B138, 1, 1⟩
-- page TSG (R436)
def TSG_CMD_OPEN : Fld := ⟨0x1C100, 0, 1⟩
def TSG_STAT_STATE : Fld := ⟨0x1C104, 0, 3⟩
def TSG_STAT_AUTHORISED : Fld := ⟨0x1C104, 8, 1⟩
def TSG_STAT_OPENED : Fld := ⟨0x1C104, 9, 1⟩
def TSG_STAT_REFUSED : Fld := ⟨0x1C104, 10, 1⟩
def TSG_REFUSED_CNT_COUNT : Fld := ⟨0x1C108, 0, 32⟩
def TSG_ERASE_US_US : Fld := ⟨0x1C10C, 0, 16⟩
def TSG_WIR_INSTR : Fld := ⟨0x1C110, 0, 8⟩
-- page IDN (R494)
def IDN_IPVER_VERSION : Fld := ⟨0x100, 0, 32⟩
def IDN_STRAP_MGR : Fld := ⟨0x104, 0, 1⟩
def IDN_STRAP_INST : Fld := ⟨0x104, 4, 4⟩
def IDN_STRAP_REFDLY : Fld := ⟨0x104, 8, 8⟩
def IDN_GEOM_ROWS : Fld := ⟨0x108, 0, 10⟩
def IDN_GEOM_BANKS : Fld := ⟨0x108, 10, 10⟩
def IDN_GEOM_PARTS : Fld := ⟨0x108, 20, 4⟩
def IDN_GEOM_LAYERS : Fld := ⟨0x108, 24, 4⟩
def IDN_FREQ0_LCLK : Fld := ⟨0x10C, 0, 16⟩
def IDN_FREQ0_ECLK : Fld := ⟨0x10C, 16, 16⟩
def IDN_FREQ1_TCLK : Fld := ⟨0x110, 0, 16⟩
def IDN_FREQ1_FCLK : Fld := ⟨0x110, 16, 16⟩
def IDN_FREQ2_MCLK : Fld := ⟨0x114, 0, 16⟩
def IDN_FREQ2_PCLK : Fld := ⟨0x114, 16, 16⟩
-- page CRG (R495)
def CRG_STAT_PHASE : Fld := ⟨0x1100, 0, 4⟩
def CRG_STAT_FALLBACK : Fld := ⟨0x1100, 4, 1⟩
def CRG_STAT_LOCKED : Fld := ⟨0x1100, 5, 3⟩
def CRG_STAT_MODE : Fld := ⟨0x1100, 8, 2⟩
def CRG_STAT_MON_OUT : Fld := ⟨0x1100, 10, 1⟩
def CRG_START_STAT_KIND : Fld := ⟨0x1104, 0, 2⟩
def CRG_START_STAT_FAILED_STEP : Fld := ⟨0x1104, 4, 4⟩
def CRG_START_STAT_UNDRAINED : Fld := ⟨0x1104, 8, 1⟩
def CRG_START_STAT_FALLBACK_PRIOR : Fld := ⟨0x1104, 9, 1⟩
def CRG_WARM_FAIL_COUNT : Fld := ⟨0x1108, 0, 2⟩
def CRG_START_US_US : Fld := ⟨0x110C, 0, 24⟩
def CRG_PLLA_N : Fld := ⟨0x1110, 0, 6⟩
def CRG_PLLB_N : Fld := ⟨0x1114, 0, 6⟩
def CRG_PLLB_ECLK_DIV : Fld := ⟨0x1114, 8, 4⟩
def CRG_PLLB_FCLK_DIV : Fld := ⟨0x1114, 12, 4⟩
def CRG_PLLB_MCLK_DIV : Fld := ⟨0x1114, 16, 4⟩
def CRG_PLLB_PCLK_DIV : Fld := ⟨0x1114, 20, 8⟩
def CRG_PLLC_N : Fld := ⟨0x1118, 0, 6⟩
def CRG_MON_BASE_COUNT : Fld := ⟨0x111C, 0, 12⟩
def CRG_MON_CNT_COUNT : Fld := ⟨0x1120, 0, 12⟩
def CRG_MON_CFG_TOL : Fld := ⟨0x1124, 0, 8⟩
def CRG_MON_CFG_RECAL : Fld := ⟨0x1124, 8, 1⟩
def CRG_PWR_MODE_REQ : Fld := ⟨0x1128, 0, 2⟩
def CRG_PWR_MODE_REASON : Fld := ⟨0x1128, 8, 4⟩
def CRG_START_LIMIT_MS : Fld := ⟨0x112C, 0, 12⟩
-- page TCK (R496)
def TCK_PERIOD_US : Fld := ⟨0x2100, 0, 10⟩
def TCK_EPOCH_LO_TIME : Fld := ⟨0x2104, 0, 32⟩
def TCK_EPOCH_HI_TIME : Fld := ⟨0x2108, 0, 32⟩
def TCK_TICK_BASE_LO_TICK : Fld := ⟨0x210C, 0, 32⟩
def TCK_TICK_BASE_HI_TICK : Fld := ⟨0x2110, 0, 32⟩
def TCK_CTRL_TIME_COMMIT : Fld := ⟨0x2114, 0, 1⟩
def TCK_STAT_HOLDOVER : Fld := ⟨0x2118, 0, 1⟩
def TCK_STAT_TIME_REFUSED : Fld := ⟨0x2118, 1, 1⟩
def TCK_STAT_ARM_REFUSED : Fld := ⟨0x2118, 2, 1⟩
def TCK_STAT_PLAN_LOCKED_WR : Fld := ⟨0x2118, 3, 1⟩
def TCK_STAT_LAPSE : Fld := ⟨0x2118, 4, 3⟩
def TCK_STAT_ARMED : Fld := ⟨0x2118, 7, 1⟩
def TCK_STAT_ARRIVED : Fld := ⟨0x2118, 8, 5⟩
def TCK_SLOTS_S : Fld := ⟨0x211C, 0, 13⟩
def TCK_NOW_LO_TICK : Fld := ⟨0x2120, 0, 32⟩
def TCK_NOW_HI_TICK : Fld := ⟨0x2124, 0, 32⟩
def TCK_HALL_LO_TIME : Fld := ⟨0x2128, 0, 32⟩
def TCK_HALL_HI_TIME : Fld := ⟨0x212C, 0, 32⟩
def TCK_BARRIER_LO_TIME : Fld := ⟨0x2130, 0, 32⟩
def TCK_BARRIER_HI_TIME : Fld := ⟨0x2134, 0, 32⟩
def TCK_ARRIVAL_LO_ORDER : Fld := ⟨0x2138, 0, 32⟩
def TCK_ARRIVAL_HI_ORDER : Fld := ⟨0x213C, 0, 32⟩
def TCK_CHIP_SEAL_LO_SEAL : Fld := ⟨0x2140, 0, 32⟩
def TCK_CHIP_SEAL_HI_SEAL : Fld := ⟨0x2144, 0, 32⟩
def TCK_PLAN_SEL_PART : Fld := ⟨0x2148, 0, 3⟩
def TCK_PLAN_ADDR_WORD : Fld := ⟨0x214C, 2, 14⟩
def TCK_PLAN_DATA_DATA : Fld := ⟨0x2150, 0, 32⟩
def TCK_PLAN_COMMIT_PART : Fld := ⟨0x2154, 0, 3⟩
def TCK_PLAN_CANCEL_PART : Fld := ⟨0x2158, 0, 3⟩
def TCK_PLAN_STAT_REASON : Fld := ⟨0x215C, 0, 4⟩
def TCK_PLAN_STAT_CHECKING : Fld := ⟨0x215C, 4, 1⟩
def TCK_PLAN_STAT_ACCEPTED : Fld := ⟨0x215C, 5, 1⟩
def TCK_PLAN_STAT_RUNNING : Fld := ⟨0x215C, 6, 1⟩
def TCK_PLAN_ID_ID : Fld := ⟨0x2160, 0, 32⟩
def TCK_PLAN_RUN_ID_ID : Fld := ⟨0x2164, 0, 32⟩
def TCK_OVERRUN_CNT_COUNT : Fld := ⟨0x2168, 0, 32⟩
def TCK_LAPSE_CNT_COUNT : Fld := ⟨0x216C, 0, 32⟩

end F

end Sys2Proof.Machine
end

