-- ==== Sys2Proof/Machine/RegTable.lean ====
section
/-! DEFINITION. The register tables of the pages (R504 and the rules it names): fields, access codes (R500), reset values, and which selector directs each register (R503). -/

namespace Sys2Proof.Machine

/-- Access codes of R500. -/
inductive Acc where
  | ro | rw | wo | w1c | w1s | rwl
  deriving DecidableEq, Repr

/-- One row of a register table: bit range, access code, reset value (0 where the table gives none). -/
structure FldDef where
  lo : Nat
  width : Nat
  acc : Acc
  reset : Nat
  deriving DecidableEq, Repr

/-- A term of the item number a register acts on: a field of a selector register in the accessing path's copy, times a stride;
or the copy number itself (R503). -/
inductive SelTerm where
  | fld (f : Fld) (mul : Nat)
  | copy (mul : Nat)
  deriving DecidableEq, Repr

/-- A register, or a window of `count` registers of one layout. -/
structure RegDef where
  off : Nat
  count : Nat
  sel : List SelTerm
  flds : List FldDef
  deriving DecidableEq, Repr

/-- Page IDN. -/
def regTableIDN : List RegDef := [
  ⟨R.IDN_IPVER, 1, [], [⟨0, 32, .ro, 50397184⟩]⟩,
  ⟨R.IDN_STRAP, 1, [], [⟨0, 1, .ro, 0⟩, ⟨4, 4, .ro, 0⟩, ⟨8, 8, .ro, 0⟩]⟩,
  ⟨R.IDN_GEOM, 1, [], [⟨0, 10, .ro, 768⟩, ⟨10, 10, .ro, 512⟩, ⟨20, 4, .ro, 8⟩, ⟨24, 4, .ro, 8⟩]⟩,
  ⟨R.IDN_FREQ0, 1, [], [⟨0, 16, .ro, 1700⟩, ⟨16, 16, .ro, 1200⟩]⟩,
  ⟨R.IDN_FREQ1, 1, [], [⟨0, 16, .ro, 1600⟩, ⟨16, 16, .ro, 800⟩]⟩,
  ⟨R.IDN_FREQ2, 1, [], [⟨0, 16, .ro, 600⟩, ⟨16, 16, .ro, 200⟩]⟩]

/-- Page CRG. -/
def regTableCRG : List RegDef := [
  ⟨R.CRG_STAT, 1, [], [⟨0, 4, .ro, 0⟩, ⟨4, 1, .ro, 0⟩, ⟨5, 3, .ro, 0⟩, ⟨8, 2, .ro, 0⟩, ⟨10, 1, .ro, 0⟩]⟩,
  ⟨R.CRG_START_STAT, 1, [], [⟨0, 2, .ro, 0⟩, ⟨4, 4, .ro, 0⟩, ⟨8, 1, .ro, 0⟩, ⟨9, 1, .ro, 0⟩]⟩,
  ⟨R.CRG_WARM_FAIL, 1, [], [⟨0, 2, .ro, 0⟩]⟩,
  ⟨R.CRG_START_US, 1, [], [⟨0, 24, .ro, 0⟩]⟩,
  ⟨R.CRG_PLLA, 1, [], [⟨0, 6, .rwl, 34⟩]⟩,
  ⟨R.CRG_PLLB, 1, [], [⟨0, 6, .rwl, 48⟩, ⟨8, 4, .rwl, 4⟩, ⟨12, 4, .rwl, 6⟩, ⟨16, 4, .rwl, 8⟩, ⟨20, 8, .rwl, 24⟩]⟩,
  ⟨R.CRG_PLLC, 1, [], [⟨0, 6, .rwl, 32⟩]⟩,
  ⟨R.CRG_MON_BASE, 1, [], [⟨0, 12, .ro, 0⟩]⟩,
  ⟨R.CRG_MON_CNT, 1, [], [⟨0, 12, .ro, 0⟩]⟩,
  ⟨R.CRG_MON_CFG, 1, [], [⟨0, 8, .rw, 16⟩, ⟨8, 1, .wo, 0⟩]⟩,
  ⟨R.CRG_PWR_MODE, 1, [], [⟨0, 2, .rw, 0⟩, ⟨8, 4, .ro, 0⟩]⟩,
  ⟨R.CRG_START_LIMIT, 1, [], [⟨0, 12, .rw, 1000⟩]⟩]

/-- Page TCK. -/
def regTableTCK : List RegDef := [
  ⟨R.TCK_PERIOD, 1, [], [⟨0, 10, .rw, 100⟩]⟩,
  ⟨R.TCK_EPOCH_LO, 1, [], [⟨0, 32, .rw, 0⟩]⟩,
  ⟨R.TCK_EPOCH_HI, 1, [], [⟨0, 32, .rw, 0⟩]⟩,
  ⟨R.TCK_TICK_BASE_LO, 1, [], [⟨0, 32, .rw, 0⟩]⟩,
  ⟨R.TCK_TICK_BASE_HI, 1, [], [⟨0, 32, .rw, 0⟩]⟩,
  ⟨R.TCK_CTRL, 1, [], [⟨0, 1, .wo, 0⟩]⟩,
  ⟨R.TCK_STAT, 1, [], [⟨0, 1, .ro, 0⟩, ⟨1, 1, .w1c, 0⟩, ⟨2, 1, .w1c, 0⟩, ⟨3, 1, .w1c, 0⟩, ⟨4, 3, .w1c, 0⟩, ⟨7, 1, .ro, 0⟩, ⟨8, 5, .ro, 0⟩]⟩,
  ⟨R.TCK_SLOTS, 1, [], [⟨0, 13, .ro, 664⟩]⟩,
  ⟨R.TCK_NOW_LO, 1, [], [⟨0, 32, .ro, 0⟩]⟩,
  ⟨R.TCK_NOW_HI, 1, [], [⟨0, 32, .ro, 0⟩]⟩,
  ⟨R.TCK_HALL_LO, 1, [], [⟨0, 32, .ro, 0⟩]⟩,
  ⟨R.TCK_HALL_HI, 1, [], [⟨0, 32, .ro, 0⟩]⟩,
  ⟨R.TCK_BARRIER_LO, 1, [], [⟨0, 32, .rw, 0⟩]⟩,
  ⟨R.TCK_BARRIER_HI, 1, [], [⟨0, 32, .rw, 0⟩]⟩,
  ⟨R.TCK_ARRIVAL_LO, 1, [], [⟨0, 32, .ro, 0⟩]⟩,
  ⟨R.TCK_ARRIVAL_HI, 1, [], [⟨0, 32, .ro, 0⟩]⟩,
  ⟨R.TCK_CHIP_SEAL_LO, 1, [], [⟨0, 32, .ro, 0⟩]⟩,
  ⟨R.TCK_CHIP_SEAL_HI, 1, [], [⟨0, 32, .ro, 0⟩]⟩,
  ⟨R.TCK_PLAN_SEL, 1, [.copy 1], [⟨0, 3, .rw, 0⟩]⟩,
  ⟨R.TCK_PLAN_ADDR, 1, [.copy 1, .fld F.TCK_PLAN_SEL_PART 2], [⟨2, 14, .rw, 0⟩]⟩,
  ⟨R.TCK_PLAN_DATA, 1, [], [⟨0, 32, .rw, 0⟩]⟩,
  ⟨R.TCK_PLAN_COMMIT, 1, [], [⟨0, 3, .wo, 0⟩]⟩,
  ⟨R.TCK_PLAN_CANCEL, 1, [], [⟨0, 3, .wo, 0⟩]⟩,
  ⟨R.TCK_PLAN_STAT, 1, [.fld F.TCK_PLAN_SEL_PART 1], [⟨0, 4, .ro, 0⟩, ⟨4, 1, .ro, 0⟩, ⟨5, 1, .ro, 0⟩, ⟨6, 1, .ro, 0⟩]⟩,
  ⟨R.TCK_PLAN_ID, 1, [.fld F.TCK_PLAN_SEL_PART 1], [⟨0, 32, .ro, 0⟩]⟩,
  ⟨R.TCK_PLAN_RUN_ID, 1, [.fld F.TCK_PLAN_SEL_PART 1], [⟨0, 32, .ro, 0⟩]⟩,
  ⟨R.TCK_OVERRUN_CNT, 1, [], [⟨0, 32, .rw, 0⟩]⟩,
  ⟨R.TCK_LAPSE_CNT, 1, [], [⟨0, 32, .rw, 0⟩]⟩]

/-- Page ARB. -/
def regTableARB : List RegDef := [
  ⟨R.ARB_QUOTA, 1, [], [⟨0, 8, .rw, 48⟩]⟩,
  ⟨R.ARB_CTRL, 1, [], [⟨0, 1, .rw, 1⟩]⟩,
  ⟨R.ARB_STAT, 1, [], [⟨0, 1, .ro, 0⟩]⟩,
  ⟨R.ARB_C1_GRANTS, 1, [], [⟨0, 32, .rw, 0⟩]⟩,
  ⟨R.ARB_C2_GRANTS, 1, [], [⟨0, 32, .rw, 0⟩]⟩,
  ⟨R.ARB_C3_GRANTS, 1, [], [⟨0, 32, .rw, 0⟩]⟩,
  ⟨R.ARB_PREEMPT_CNT, 1, [], [⟨0, 32, .rw, 0⟩]⟩,
  ⟨R.ARB_MASK_CNT, 1, [], [⟨0, 32, .rw, 0⟩]⟩,
  ⟨R.ARB_C1_MAX, 1, [], [⟨0, 16, .rw, 0⟩]⟩,
  ⟨R.ARB_C1_OVER_CNT, 1, [], [⟨0, 32, .rw, 0⟩]⟩]

/-- Page TWC. -/
def regTableTWC : List RegDef := [
  ⟨R.TWC_GEOM, 1, [], [⟨0, 4, .ro, 8⟩, ⟨4, 8, .ro, 64⟩, ⟨12, 16, .ro, 6144⟩]⟩,
  ⟨R.TWC_REF_CTRL, 1, [], [⟨0, 1, .rw, 0⟩, ⟨1, 1, .ro, 1⟩]⟩,
  ⟨R.TWC_REF_AUTO, 1, [], [⟨0, 10, .ro, 512⟩]⟩,
  ⟨R.TWC_TIMING0, 1, [], [⟨0, 8, .ro, 22⟩, ⟨8, 8, .ro, 22⟩, ⟨16, 8, .ro, 22⟩, ⟨24, 8, .ro, 52⟩]⟩,
  ⟨R.TWC_TIMING1, 1, [], [⟨0, 8, .ro, 24⟩, ⟨8, 8, .ro, 8⟩, ⟨16, 8, .ro, 6⟩, ⟨24, 8, .ro, 96⟩]⟩,
  ⟨R.TWC_TIMING2, 1, [], [⟨0, 8, .ro, 12⟩, ⟨8, 8, .ro, 4⟩, ⟨16, 8, .ro, 0⟩]⟩,
  ⟨R.TWC_FILL_STAT, 1, [], [⟨0, 1, .ro, 0⟩, ⟨1, 1, .ro, 0⟩, ⟨2, 1, .ro, 0⟩]⟩,
  ⟨R.TWC_PAR_CNT, 1, [], [⟨0, 32, .rw, 0⟩]⟩,
  ⟨R.TWC_POISON_CNT, 1, [], [⟨0, 32, .rw, 0⟩]⟩,
  ⟨R.TWC_RMW_CNT, 1, [], [⟨0, 32, .rw, 0⟩]⟩]

/-- Page TWR. -/
def regTableTWR : List RegDef := [
  ⟨R.TWR_FUSE_STAT, 1, [], [⟨0, 12, .ro, 0⟩, ⟨12, 12, .ro, 0⟩, ⟨24, 1, .ro, 0⟩]⟩,
  ⟨R.TWR_SPARE_SEL, 1, [.copy 1], [⟨0, 9, .rw, 0⟩]⟩,
  ⟨R.TWR_SPARE_STAT, 1, [.fld F.TWR_SPARE_SEL_BANK 1], [⟨0, 16, .ro, 0⟩, ⟨16, 4, .ro, 0⟩, ⟨20, 2, .ro, 0⟩]⟩,
  ⟨R.TWR_ORG_SEL, 1, [.copy 1], [⟨0, 8, .rw, 0⟩]⟩,
  ⟨R.TWR_ORG_ENTRY, 1, [.fld F.TWR_ORG_SEL_ENTRY 1], [⟨0, 32, .rw, 0⟩]⟩,
  ⟨R.TWR_ORG_CMD, 1, [], [⟨0, 2, .wo, 0⟩]⟩,
  ⟨R.TWR_ORG_STAT, 1, [], [⟨0, 2, .ro, 0⟩, ⟨4, 4, .ro, 0⟩, ⟨8, 9, .ro, 0⟩]⟩,
  ⟨R.TWR_PROBE_SEL, 1, [.copy 1], [⟨0, 6, .rw, 0⟩]⟩,
  ⟨R.TWR_PROBE_CFG, 1, [], [⟨0, 11, .rw, 64⟩, ⟨16, 1, .wo, 0⟩]⟩,
  ⟨R.TWR_PROBE_RES, 1, [], [⟨0, 16, .ro, 0⟩, ⟨16, 1, .ro, 0⟩, ⟨17, 1, .w1c, 0⟩]⟩,
  ⟨R.TWR_PROBE_TEMP, 1, [], [⟨0, 16, .ro, 0⟩]⟩,
  ⟨R.TWR_EYE_SEL, 1, [.copy 1], [⟨0, 9, .rw, 0⟩, ⟨16, 7, .rw, 0⟩]⟩,
  ⟨R.TWR_EYE, 1, [.fld F.TWR_EYE_SEL_LANE 1, .fld F.TWR_EYE_SEL_BANK 128], [⟨0, 7, .ro, 0⟩]⟩,
  ⟨R.TWR_EYE_MIN, 1, [], [⟨0, 7, .ro, 0⟩, ⟨16, 9, .ro, 0⟩, ⟨25, 7, .ro, 0⟩]⟩]

/-- Page TTH. -/
def regTableTTH : List RegDef := [
  ⟨R.TTH_TEMP_01, 4, [], [⟨0, 16, .ro, 0⟩, ⟨16, 16, .ro, 0⟩]⟩,
  ⟨R.TTH_MAX, 1, [], [⟨0, 16, .ro, 0⟩, ⟨16, 3, .ro, 0⟩]⟩,
  ⟨R.TTH_THROTTLE_FRAC, 1, [], [⟨0, 6, .rw, 54⟩]⟩,
  ⟨R.TTH_STAT, 1, [], [⟨0, 8, .ro, 0⟩, ⟨8, 8, .ro, 0⟩, ⟨16, 1, .ro, 0⟩, ⟨17, 1, .ro, 0⟩]⟩,
  ⟨R.TTH_CRIT_CLEAR, 1, [], [⟨0, 1, .wo, 0⟩]⟩,
  ⟨R.TTH_SENSOR_FAULT, 1, [], [⟨0, 32, .w1c, 0⟩]⟩,
  ⟨R.TTH_LIMITS, 1, [], [⟨0, 8, .ro, 85⟩, ⟨8, 8, .ro, 92⟩, ⟨16, 8, .ro, 100⟩]⟩,
  ⟨R.TTH_PEAK, 1, [], [⟨0, 16, .rw, 0⟩]⟩,
  ⟨R.TTH_THROTTLE_US, 1, [], [⟨0, 32, .rw, 0⟩]⟩,
  ⟨R.TTH_WARN_CNT, 1, [], [⟨0, 32, .rw, 0⟩]⟩]

/-- Page LNF. -/
def regTableLNF : List RegDef := [
  ⟨R.LNF_KWIDTH_PIN, 1, [], [⟨0, 6, .rw, 0⟩, ⟨6, 1, .ro, 0⟩]⟩,
  ⟨R.LNF_PART_SEL, 1, [.copy 1], [⟨0, 3, .rw, 0⟩]⟩,
  ⟨R.LNF_LATE_POLICY, 1, [.fld F.LNF_PART_SEL_PART 1], [⟨0, 1, .rw, 0⟩]⟩,
  ⟨R.LNF_ROW_SEL, 1, [.copy 1], [⟨0, 10, .rw, 0⟩]⟩,
  ⟨R.LNF_ROW_LANE_BYP, 1, [.fld F.LNF_ROW_SEL_ROW 1], [⟨0, 32, .rw, 0⟩]⟩,
  ⟨R.LNF_ROW_COL_BYP, 1, [.fld F.LNF_ROW_SEL_ROW 1], [⟨0, 32, .rw, 0⟩]⟩,
  ⟨R.LNF_ROW_STAT, 1, [.fld F.LNF_ROW_SEL_ROW 1], [⟨0, 6, .ro, 0⟩, ⟨8, 6, .ro, 0⟩, ⟨16, 1, .ro, 0⟩, ⟨17, 1, .w1c, 0⟩, ⟨18, 1, .ro, 0⟩, ⟨20, 3, .ro, 0⟩, ⟨23, 1, .ro, 0⟩]⟩,
  ⟨R.LNF_ROW_TEST, 1, [], [⟨0, 1, .wo, 0⟩]⟩,
  ⟨R.LNF_TEST_STAT, 1, [], [⟨0, 1, .ro, 0⟩, ⟨1, 1, .w1c, 0⟩, ⟨2, 1, .ro, 0⟩, ⟨3, 1, .ro, 0⟩, ⟨16, 10, .ro, 0⟩]⟩,
  ⟨R.LNF_TEST_LANES, 1, [], [⟨0, 32, .ro, 0⟩]⟩,
  ⟨R.LNF_TEST_COLS, 1, [], [⟨0, 32, .ro, 0⟩]⟩,
  ⟨R.LNF_IDLE, 1, [], [⟨0, 6, .ro, 0⟩, ⟨8, 6, .ro, 0⟩, ⟨16, 6, .rw, 0⟩, ⟨24, 6, .ro, 0⟩]⟩,
  ⟨R.LNF_STAT, 1, [], [⟨0, 1, .w1c, 0⟩, ⟨1, 1, .ro, 0⟩, ⟨2, 1, .ro, 0⟩]⟩,
  ⟨R.LNF_ROWS_USABLE, 1, [], [⟨0, 10, .ro, 0⟩]⟩,
  ⟨R.LNF_FMT_FAULT_CNT, 1, [], [⟨0, 32, .rw, 0⟩]⟩,
  ⟨R.LNF_SAT_CNT, 1, [], [⟨0, 32, .rw, 0⟩]⟩,
  ⟨R.LNF_RESIDUE_CNT, 1, [], [⟨0, 32, .rw, 0⟩]⟩,
  ⟨R.LNF_BS_PAR_CNT, 1, [], [⟨0, 32, .rw, 0⟩]⟩,
  ⟨R.LNF_IDLE_CNT, 1, [], [⟨0, 32, .rw, 0⟩]⟩,
  ⟨R.LNF_STAT_PAR_CNT, 1, [], [⟨0, 32, .rw, 0⟩]⟩]

/-- Page LNP. -/
def regTableLNP : List RegDef := [
  ⟨R.LNP_Q_SEL, 1, [.copy 1], [⟨0, 4, .rw, 0⟩]⟩,
  ⟨R.LNP_Q_CFG, 1, [.fld F.LNP_Q_SEL_QUEUE 1], [⟨0, 3, .rw, 0⟩, ⟨8, 1, .rw, 0⟩, ⟨12, 4, .rw, 6⟩]⟩,
  ⟨R.LNP_Q_BASE, 1, [.fld F.LNP_Q_SEL_QUEUE 1], [⟨0, 28, .rw, 0⟩]⟩,
  ⟨R.LNP_Q_CBASE, 1, [.fld F.LNP_Q_SEL_QUEUE 1], [⟨0, 28, .rw, 0⟩]⟩,
  ⟨R.LNP_Q_TAIL, 1, [.fld F.LNP_Q_SEL_QUEUE 1], [⟨0, 12, .rw, 0⟩]⟩,
  ⟨R.LNP_Q_HEAD, 1, [.fld F.LNP_Q_SEL_QUEUE 1], [⟨0, 12, .ro, 0⟩]⟩,
  ⟨R.LNP_Q_CTAIL, 1, [.fld F.LNP_Q_SEL_QUEUE 1], [⟨0, 12, .ro, 0⟩]⟩,
  ⟨R.LNP_Q_CHEAD, 1, [.fld F.LNP_Q_SEL_QUEUE 1], [⟨0, 12, .rw, 0⟩]⟩,
  ⟨R.LNP_Q_STAT, 1, [.fld F.LNP_Q_SEL_QUEUE 1], [⟨0, 1, .ro, 0⟩, ⟨1, 1, .ro, 0⟩, ⟨2, 1, .w1c, 0⟩, ⟨3, 1, .w1c, 0⟩, ⟨4, 1, .ro, 0⟩]⟩,
  ⟨R.LNP_Q_ERR, 1, [.fld F.LNP_Q_SEL_QUEUE 1], [⟨0, 12, .ro, 0⟩, ⟨12, 4, .ro, 0⟩, ⟨31, 1, .w1c, 0⟩]⟩,
  ⟨R.LNP_CHAIN_LIMIT, 1, [], [⟨0, 16, .rw, 64⟩]⟩,
  ⟨R.LNP_EMPTY_CNT, 1, [], [⟨0, 32, .rw, 0⟩]⟩,
  ⟨R.LNP_CFULL_CNT, 1, [], [⟨0, 32, .rw, 0⟩]⟩,
  ⟨R.LNP_LATE_CNT, 1, [], [⟨0, 32, .rw, 0⟩]⟩,
  ⟨R.LNP_DIRECT_KB, 1, [], [⟨0, 32, .rw, 0⟩]⟩,
  ⟨R.LNP_SLIP_CNT, 1, [], [⟨0, 32, .rw, 0⟩]⟩,
  ⟨R.LNP_REFUSED_CNT, 1, [], [⟨0, 32, .rw, 0⟩]⟩,
  ⟨R.LNP_IDX_BAD, 1, [], [⟨0, 32, .rw, 0⟩]⟩]

/-- Page UPD. -/
def regTableUPD : List RegDef := [
  ⟨R.UPD_PART_SEL, 1, [.copy 1], [⟨0, 3, .rw, 0⟩]⟩,
  ⟨R.UPD_LTAB_BASE, 1, [.fld F.UPD_PART_SEL_PART 1], [⟨0, 28, .rw, 0⟩]⟩,
  ⟨R.UPD_LTAB_COUNT, 1, [.fld F.UPD_PART_SEL_PART 1], [⟨0, 13, .rw, 0⟩]⟩,
  ⟨R.UPD_PASS, 1, [.fld F.UPD_PART_SEL_PART 1], [⟨0, 1, .wo, 0⟩]⟩,
  ⟨R.UPD_CLIP_SCALE, 1, [.fld F.UPD_PART_SEL_PART 1], [⟨0, 32, .rw, 1065353216⟩]⟩,
  ⟨R.UPD_STEP, 1, [.fld F.UPD_PART_SEL_PART 1], [⟨0, 32, .rw, 0⟩]⟩,
  ⟨R.UPD_LOAD_EN, 1, [], [⟨0, 8, .rw, 0⟩]⟩,
  ⟨R.UPD_FLIP, 1, [.fld F.UPD_PART_SEL_PART 1], [⟨0, 32, .wo, 0⟩]⟩,
  ⟨R.UPD_VER, 1, [.fld F.UPD_PART_SEL_PART 1], [⟨0, 32, .ro, 0⟩]⟩,
  ⟨R.UPD_FLIP_STAT, 1, [.fld F.UPD_PART_SEL_PART 1], [⟨0, 3, .ro, 0⟩, ⟨4, 1, .ro, 0⟩, ⟨5, 1, .ro, 0⟩, ⟨6, 1, .ro, 0⟩, ⟨7, 1, .ro, 0⟩, ⟨8, 8, .ro, 0⟩, ⟨16, 8, .ro, 0⟩]⟩,
  ⟨R.UPD_HP_SEL, 1, [.copy 1], [⟨0, 6, .rw, 0⟩]⟩,
  ⟨R.UPD_HP_0, 12, [.fld F.UPD_HP_SEL_SET 1], [⟨0, 32, .rw, 0⟩]⟩,
  ⟨R.UPD_PROG_SEL, 1, [.copy 1], [⟨0, 5, .rw, 0⟩, ⟨8, 3, .rw, 0⟩]⟩,
  ⟨R.UPD_PROG_DATA, 1, [.fld F.UPD_PROG_SEL_INDEX 1, .fld F.UPD_PROG_SEL_SLOT 32], [⟨0, 32, .rw, 0⟩]⟩,
  ⟨R.UPD_PROG_CMD, 1, [], [⟨0, 5, .wo, 0⟩, ⟨8, 3, .wo, 0⟩, ⟨16, 1, .wo, 0⟩]⟩,
  ⟨R.UPD_PROG_STAT, 1, [], [⟨0, 8, .ro, 0⟩, ⟨8, 4, .ro, 0⟩, ⟨16, 5, .ro, 0⟩]⟩,
  ⟨R.UPD_LAYER_ERR, 1, [], [⟨0, 12, .ro, 0⟩, ⟨12, 3, .ro, 0⟩, ⟨16, 4, .ro, 0⟩, ⟨31, 1, .w1c, 0⟩]⟩,
  ⟨R.UPD_NF_IN, 1, [], [⟨0, 32, .rw, 0⟩]⟩,
  ⟨R.UPD_NF_OUT, 1, [], [⟨0, 32, .rw, 0⟩]⟩,
  ⟨R.UPD_IDX_BAD, 1, [], [⟨0, 32, .rw, 0⟩]⟩,
  ⟨R.UPD_WR_REFUSED, 1, [], [⟨0, 32, .rw, 0⟩]⟩,
  ⟨R.UPD_PIN_STALL, 1, [], [⟨0, 32, .rw, 0⟩]⟩]

/-- Page TLM. -/
def regTableTLM : List RegDef := [
  ⟨R.TLM_SLOT_SEL, 1, [.copy 1], [⟨0, 12, .rw, 0⟩]⟩,
  ⟨R.TLM_SLOT_MODE, 1, [.fld F.TLM_SLOT_SEL_SLOT 1], [⟨0, 1, .rw, 0⟩, ⟨1, 1, .rw, 1⟩, ⟨2, 1, .ro, 0⟩]⟩,
  ⟨R.TLM_CLEAR, 1, [], [⟨0, 12, .wo, 0⟩, ⟨12, 1, .wo, 0⟩]⟩,
  ⟨R.TLM_RD_SEL, 1, [.copy 1], [⟨0, 12, .rw, 0⟩]⟩,
  ⟨R.TLM_STAT, 1, [], [⟨0, 1, .w1c, 0⟩]⟩,
  ⟨R.TLM_RD_0, 32, [.copy 1], [⟨0, 32, .ro, 0⟩]⟩]

/-- Page CNV. -/
def regTableCNV : List RegDef := [
  ⟨R.CNV_PART_SEL, 1, [.copy 1], [⟨0, 3, .rw, 0⟩]⟩,
  ⟨R.CNV_SEED_LO, 1, [.fld F.CNV_PART_SEL_PART 1], [⟨0, 32, .rw, 0⟩]⟩,
  ⟨R.CNV_SEED_HI, 1, [.fld F.CNV_PART_SEL_PART 1], [⟨0, 32, .rw, 0⟩]⟩,
  ⟨R.CNV_NOISE_DST, 1, [], [⟨0, 28, .rw, 0⟩, ⟨28, 3, .rw, 0⟩]⟩,
  ⟨R.CNV_NOISE_COUNT, 1, [], [⟨0, 32, .rw, 0⟩]⟩,
  ⟨R.CNV_NOISE_TID, 1, [], [⟨0, 32, .rw, 0⟩]⟩,
  ⟨R.CNV_NOISE_STEP, 1, [], [⟨0, 32, .rw, 0⟩]⟩,
  ⟨R.CNV_NOISE_CFG, 1, [], [⟨0, 2, .rw, 0⟩, ⟨4, 1, .rw, 0⟩]⟩,
  ⟨R.CNV_NOISE_CMD, 1, [], [⟨0, 1, .wo, 0⟩, ⟨1, 1, .wo, 0⟩]⟩,
  ⟨R.CNV_NOISE_STAT, 1, [], [⟨0, 1, .ro, 0⟩, ⟨1, 1, .w1c, 0⟩, ⟨2, 2, .ro, 0⟩]⟩,
  ⟨R.CNV_STAT, 1, [], [⟨0, 1, .ro, 0⟩, ⟨1, 1, .ro, 0⟩]⟩,
  ⟨R.CNV_OVF_CNT, 1, [], [⟨0, 32, .rw, 0⟩]⟩,
  ⟨R.CNV_FTZ_CNT, 1, [], [⟨0, 32, .rw, 0⟩]⟩]

/-- Page CDE. -/
def regTableCDE : List RegDef := [
  ⟨R.CDE_DOMAIN_A, 1, [], [⟨0, 16, .rw, 0⟩, ⟨16, 16, .rw, 0⟩]⟩,
  ⟨R.CDE_DOMAIN_B, 1, [], [⟨0, 16, .rw, 0⟩, ⟨16, 16, .rw, 0⟩]⟩,
  ⟨R.CDE_GRP_SEL, 1, [.copy 1], [⟨0, 4, .rw, 0⟩]⟩,
  ⟨R.CDE_GRP_CFG, 1, [.fld F.CDE_GRP_SEL_SLOT 1], [⟨0, 5, .rw, 8⟩, ⟨5, 3, .rw, 2⟩, ⟨8, 5, .rw, 0⟩, ⟨13, 5, .rw, 0⟩, ⟨18, 4, .rw, 15⟩, ⟨22, 1, .rw, 0⟩, ⟨23, 1, .rw, 1⟩]⟩,
  ⟨R.CDE_GRP_ID, 1, [.fld F.CDE_GRP_SEL_SLOT 1], [⟨0, 16, .rw, 0⟩, ⟨16, 8, .rw, 0⟩, ⟨24, 3, .rw, 0⟩]⟩,
  ⟨R.CDE_GRP_BASE, 1, [.fld F.CDE_GRP_SEL_SLOT 1], [⟨0, 23, .rw, 0⟩]⟩,
  ⟨R.CDE_GRP_ROWS, 1, [.fld F.CDE_GRP_SEL_SLOT 1], [⟨0, 23, .rw, 0⟩]⟩,
  ⟨R.CDE_GRP_TAG, 1, [.fld F.CDE_GRP_SEL_SLOT 1], [⟨0, 23, .rw, 0⟩]⟩,
  ⟨R.CDE_GRP_CMD, 1, [.fld F.CDE_GRP_SEL_SLOT 1], [⟨0, 3, .wo, 0⟩]⟩,
  ⟨R.CDE_GRP_STAT, 1, [.fld F.CDE_GRP_SEL_SLOT 1], [⟨0, 3, .ro, 0⟩, ⟨4, 4, .ro, 0⟩, ⟨8, 1, .ro, 0⟩, ⟨9, 1, .w1c, 0⟩]⟩,
  ⟨R.CDE_MEMB_SEL, 1, [.copy 1], [⟨0, 5, .rw, 0⟩]⟩,
  ⟨R.CDE_MEMB_NODE, 1, [.fld F.CDE_MEMB_SEL_ROLE 1, .fld F.CDE_GRP_SEL_SLOT 32], [⟨0, 20, .rw, 0⟩, ⟨31, 1, .rw, 0⟩]⟩,
  ⟨R.CDE_MEMB_DOM_A, 1, [.fld F.CDE_MEMB_SEL_ROLE 1, .fld F.CDE_GRP_SEL_SLOT 32], [⟨0, 16, .rw, 0⟩, ⟨16, 16, .rw, 0⟩]⟩,
  ⟨R.CDE_MEMB_DOM_B, 1, [.fld F.CDE_MEMB_SEL_ROLE 1, .fld F.CDE_GRP_SEL_SLOT 32], [⟨0, 16, .rw, 0⟩, ⟨16, 16, .rw, 0⟩]⟩,
  ⟨R.CDE_GRP_SEAL_LO, 1, [.fld F.CDE_GRP_SEL_SLOT 1], [⟨0, 32, .ro, 0⟩]⟩,
  ⟨R.CDE_GRP_SEAL_HI, 1, [.fld F.CDE_GRP_SEL_SLOT 1], [⟨0, 32, .ro, 0⟩]⟩,
  ⟨R.CDE_MBR_SEAL_LO, 1, [.fld F.CDE_GRP_SEL_SLOT 1], [⟨0, 32, .ro, 0⟩]⟩,
  ⟨R.CDE_MBR_SEAL_HI, 1, [.fld F.CDE_GRP_SEL_SLOT 1], [⟨0, 32, .ro, 0⟩]⟩,
  ⟨R.CDE_ACTIVE, 1, [], [⟨0, 16, .ro, 0⟩]⟩]

/-- Page CDJ. -/
def regTableCDJ : List RegDef := [
  ⟨R.CDJ_ACK_TIMEOUT, 1, [], [⟨0, 24, .rw, 2000⟩]⟩,
  ⟨R.CDJ_RESEND, 1, [], [⟨0, 16, .rw, 250⟩]⟩,
  ⟨R.CDJ_OPEN, 1, [], [⟨0, 12, .ro, 0⟩]⟩,
  ⟨R.CDJ_OPEN_SECT, 1, [], [⟨0, 18, .ro, 0⟩]⟩,
  ⟨R.CDJ_HWM, 1, [], [⟨0, 12, .rw, 0⟩]⟩,
  ⟨R.CDJ_STALL_CNT, 1, [], [⟨0, 32, .rw, 0⟩]⟩,
  ⟨R.CDJ_SUSP_SEL, 1, [.copy 1], [⟨0, 4, .rw, 0⟩]⟩,
  ⟨R.CDJ_SUSPECT, 1, [.fld F.CDJ_SUSP_SEL_SLOT 1], [⟨0, 20, .w1c, 0⟩]⟩,
  ⟨R.CDJ_OLDEST_LO, 1, [], [⟨0, 32, .ro, 0⟩]⟩,
  ⟨R.CDJ_OLDEST_HI, 1, [], [⟨0, 32, .ro, 0⟩]⟩,
  ⟨R.CDJ_RESEND_CNT, 1, [], [⟨0, 32, .rw, 0⟩]⟩,
  ⟨R.CDJ_RX_DUP, 1, [], [⟨0, 32, .rw, 0⟩]⟩,
  ⟨R.CDJ_RX_STALE, 1, [], [⟨0, 32, .rw, 0⟩]⟩,
  ⟨R.CDJ_RX_BAD, 1, [], [⟨0, 32, .rw, 0⟩]⟩]

/-- Page CDR. -/
def regTableCDR : List RegDef := [
  ⟨R.CDR_CTRL, 1, [], [⟨0, 1, .rw, 0⟩, ⟨1, 1, .rw, 0⟩]⟩,
  ⟨R.CDR_REBUILD_SHARE, 1, [], [⟨0, 7, .rw, 25⟩]⟩,
  ⟨R.CDR_SEL, 1, [.copy 1], [⟨0, 4, .rw, 0⟩]⟩,
  ⟨R.CDR_ROLE_CMD, 1, [.fld F.CDR_SEL_SLOT 1], [⟨0, 5, .wo, 0⟩, ⟨5, 3, .wo, 0⟩, ⟨8, 20, .wo, 0⟩]⟩,
  ⟨R.CDR_ROLE_DOM_A, 1, [.fld F.CDR_SEL_SLOT 1], [⟨0, 16, .rw, 0⟩, ⟨16, 16, .rw, 0⟩]⟩,
  ⟨R.CDR_ROLE_DOM_B, 1, [.fld F.CDR_SEL_SLOT 1], [⟨0, 16, .rw, 0⟩, ⟨16, 16, .rw, 0⟩]⟩,
  ⟨R.CDR_CMD_STAT, 1, [.fld F.CDR_SEL_SLOT 1], [⟨0, 4, .ro, 0⟩, ⟨8, 1, .ro, 0⟩, ⟨9, 1, .ro, 0⟩]⟩,
  ⟨R.CDR_LOST, 1, [.fld F.CDR_SEL_SLOT 1], [⟨0, 20, .ro, 0⟩]⟩,
  ⟨R.CDR_DECL_SEAL_LO, 1, [.fld F.CDR_SEL_SLOT 1], [⟨0, 32, .rw, 0⟩]⟩,
  ⟨R.CDR_DECL_SEAL_HI, 1, [.fld F.CDR_SEL_SLOT 1], [⟨0, 32, .rw, 0⟩]⟩,
  ⟨R.CDR_DECL_TICK_LO, 1, [.fld F.CDR_SEL_SLOT 1], [⟨0, 32, .rw, 0⟩]⟩,
  ⟨R.CDR_DECL_TICK_HI, 1, [.fld F.CDR_SEL_SLOT 1], [⟨0, 32, .rw, 0⟩]⟩,
  ⟨R.CDR_CURSOR, 1, [.fld F.CDR_SEL_SLOT 1], [⟨0, 23, .ro, 0⟩]⟩,
  ⟨R.CDR_LEFT, 1, [.fld F.CDR_SEL_SLOT 1], [⟨0, 23, .ro, 0⟩]⟩,
  ⟨R.CDR_REPORT_BASE, 1, [.fld F.CDR_SEL_SLOT 1], [⟨0, 23, .rw, 0⟩, ⟨23, 1, .rw, 0⟩]⟩,
  ⟨R.CDR_REPORT_SIZE, 1, [.fld F.CDR_SEL_SLOT 1], [⟨0, 16, .rw, 0⟩]⟩,
  ⟨R.CDR_REPORT_CNT, 1, [.fld F.CDR_SEL_SLOT 1], [⟨0, 32, .ro, 0⟩]⟩,
  ⟨R.CDR_REPORT_LOST, 1, [.fld F.CDR_SEL_SLOT 1], [⟨0, 32, .ro, 0⟩]⟩,
  ⟨R.CDR_ESC_CNT, 1, [.fld F.CDR_SEL_SLOT 1], [⟨0, 32, .rw, 0⟩]⟩,
  ⟨R.CDR_DEGRADED_CNT, 1, [.fld F.CDR_SEL_SLOT 1], [⟨0, 32, .rw, 0⟩]⟩,
  ⟨R.CDR_REPAIR_CNT, 1, [.fld F.CDR_SEL_SLOT 1], [⟨0, 32, .rw, 0⟩]⟩,
  ⟨R.CDR_GATHER_TIMEOUT, 1, [.fld F.CDR_SEL_SLOT 1], [⟨0, 16, .rw, 100⟩]⟩,
  ⟨R.CDR_STRAG_WIN, 1, [.fld F.CDR_SEL_SLOT 1], [⟨0, 16, .rw, 1024⟩]⟩,
  ⟨R.CDR_STRAG_THRESH, 1, [.fld F.CDR_SEL_SLOT 1], [⟨0, 16, .rw, 256⟩]⟩,
  ⟨R.CDR_STRAG_SUSPECT, 1, [.fld F.CDR_SEL_SLOT 1], [⟨0, 20, .w1c, 0⟩]⟩,
  ⟨R.CDR_STRAG_SEL, 1, [.copy 1], [⟨0, 5, .rw, 0⟩]⟩,
  ⟨R.CDR_STRAG_LAST, 1, [.fld F.CDR_STRAG_SEL_ROLE 1, .fld F.CDR_SEL_SLOT 32], [⟨0, 16, .ro, 0⟩, ⟨16, 16, .ro, 0⟩]⟩,
  ⟨R.CDR_STRAG_LATE, 1, [.fld F.CDR_STRAG_SEL_ROLE 1, .fld F.CDR_SEL_SLOT 32], [⟨0, 32, .ro, 0⟩]⟩]

/-- Page PGM. -/
def regTablePGM : List RegDef := [
  ⟨R.PGM_PART_SEL, 1, [.copy 1], [⟨0, 3, .rw, 0⟩]⟩,
  ⟨R.PGM_MAP_BASE, 1, [.fld F.PGM_PART_SEL_PART 1], [⟨0, 17, .rw, 0⟩]⟩,
  ⟨R.PGM_MAP_PAGES, 1, [.fld F.PGM_PART_SEL_PART 1], [⟨0, 25, .rw, 0⟩]⟩,
  ⟨R.PGM_RESERVE, 1, [.fld F.PGM_PART_SEL_PART 1], [⟨0, 17, .rw, 0⟩]⟩,
  ⟨R.PGM_Q_CFG, 1, [.fld F.PGM_PART_SEL_PART 1], [⟨0, 4, .rw, 6⟩, ⟨8, 1, .rw, 0⟩, ⟨9, 1, .w1c, 0⟩]⟩,
  ⟨R.PGM_Q_BASE, 1, [.fld F.PGM_PART_SEL_PART 1], [⟨0, 28, .rw, 0⟩]⟩,
  ⟨R.PGM_Q_CBASE, 1, [.fld F.PGM_PART_SEL_PART 1], [⟨0, 28, .rw, 0⟩]⟩,
  ⟨R.PGM_Q_TAIL, 1, [.fld F.PGM_PART_SEL_PART 1], [⟨0, 12, .rw, 0⟩]⟩,
  ⟨R.PGM_Q_HEAD, 1, [.fld F.PGM_PART_SEL_PART 1], [⟨0, 12, .ro, 0⟩]⟩,
  ⟨R.PGM_Q_CTAIL, 1, [.fld F.PGM_PART_SEL_PART 1], [⟨0, 12, .ro, 0⟩]⟩,
  ⟨R.PGM_Q_CHEAD, 1, [.fld F.PGM_PART_SEL_PART 1], [⟨0, 12, .rw, 0⟩]⟩,
  ⟨R.PGM_Q_ERR, 1, [.fld F.PGM_PART_SEL_PART 1], [⟨0, 12, .ro, 0⟩, ⟨12, 4, .ro, 0⟩, ⟨31, 1, .w1c, 0⟩]⟩,
  ⟨R.PGM_AGE_TICKS, 1, [], [⟨0, 16, .rw, 16⟩]⟩,
  ⟨R.PGM_WATER, 1, [], [⟨0, 16, .rw, 1024⟩, ⟨16, 16, .rw, 2048⟩]⟩,
  ⟨R.PGM_FREE_T1, 1, [], [⟨0, 17, .ro, 0⟩]⟩,
  ⟨R.PGM_FREE_T2, 1, [], [⟨0, 19, .ro, 0⟩]⟩,
  ⟨R.PGM_DIRTY_FREE, 1, [], [⟨0, 20, .ro, 0⟩]⟩,
  ⟨R.PGM_LEND_PAGES, 1, [], [⟨0, 17, .rw, 0⟩]⟩,
  ⟨R.PGM_LENT, 1, [], [⟨0, 17, .ro, 0⟩]⟩,
  ⟨R.PGM_LENDER_SEL, 1, [.copy 1], [⟨0, 4, .rw, 0⟩]⟩,
  ⟨R.PGM_LENDER_NODE, 1, [.fld F.PGM_LENDER_SEL_LENDER 1], [⟨0, 20, .rw, 0⟩, ⟨31, 1, .rw, 0⟩]⟩,
  ⟨R.PGM_LENDER_PAGES, 1, [.fld F.PGM_LENDER_SEL_LENDER 1], [⟨0, 17, .rw, 0⟩]⟩,
  ⟨R.PGM_BORROWED, 1, [.fld F.PGM_LENDER_SEL_LENDER 1], [⟨0, 17, .ro, 0⟩]⟩,
  ⟨R.PGM_STAT, 1, [], [⟨0, 1, .ro, 0⟩, ⟨1, 1, .ro, 0⟩, ⟨2, 1, .w1c, 0⟩, ⟨3, 1, .w1c, 0⟩, ⟨4, 1, .w1c, 0⟩]⟩,
  ⟨R.PGM_EVICT_CNT, 1, [], [⟨0, 32, .rw, 0⟩]⟩,
  ⟨R.PGM_DROP_CNT, 1, [], [⟨0, 32, .rw, 0⟩]⟩,
  ⟨R.PGM_ZERO_CNT, 1, [], [⟨0, 32, .rw, 0⟩]⟩,
  ⟨R.PGM_NOSPACE_CNT, 1, [], [⟨0, 32, .rw, 0⟩]⟩,
  ⟨R.PGM_C0_DISCARD_CNT, 1, [], [⟨0, 32, .rw, 0⟩]⟩,
  ⟨R.PGM_BORROWER_SEL, 1, [.copy 1], [⟨0, 4, .rw, 0⟩]⟩,
  ⟨R.PGM_BORROWER_NODE, 1, [.fld F.PGM_BORROWER_SEL_BORROWER 1], [⟨0, 20, .rw, 0⟩, ⟨31, 1, .rw, 0⟩]⟩]

/-- Page XLT. -/
def regTableXLT : List RegDef := [
  ⟨R.XLT_PART_SEL, 1, [.copy 1], [⟨0, 3, .rw, 0⟩]⟩,
  ⟨R.XLT_SEQ_BASE, 1, [.fld F.XLT_PART_SEL_PART 1], [⟨0, 28, .rw, 0⟩]⟩,
  ⟨R.XLT_SEQ_COUNT, 1, [.fld F.XLT_PART_SEL_PART 1], [⟨0, 17, .rw, 0⟩]⟩,
  ⟨R.XLT_SEQ_PAGES, 1, [.fld F.XLT_PART_SEL_PART 1], [⟨0, 5, .rw, 8⟩]⟩,
  ⟨R.XLT_KV_FIRST, 1, [.fld F.XLT_PART_SEL_PART 1], [⟨0, 24, .rw, 0⟩]⟩,
  ⟨R.XLT_KV_COUNT, 1, [.fld F.XLT_PART_SEL_PART 1], [⟨0, 24, .rw, 0⟩]⟩,
  ⟨R.XLT_KV_FREE, 1, [.fld F.XLT_PART_SEL_PART 1], [⟨0, 24, .ro, 0⟩]⟩,
  ⟨R.XLT_COW_CNT, 1, [], [⟨0, 32, .rw, 0⟩]⟩,
  ⟨R.XLT_GONE_CNT, 1, [], [⟨0, 32, .rw, 0⟩]⟩,
  ⟨R.XLT_PIN_STALL_CNT, 1, [], [⟨0, 32, .rw, 0⟩]⟩,
  ⟨R.XLT_MISS_CNT, 1, [], [⟨0, 32, .rw, 0⟩]⟩]

/-- Page PFT. -/
def regTablePFT : List RegDef := [
  ⟨R.PFT_BASE, 1, [], [⟨0, 17, .rw, 0⟩]⟩,
  ⟨R.PFT_CFG, 1, [], [⟨0, 5, .rw, 4⟩, ⟨8, 1, .rw, 0⟩]⟩,
  ⟨R.PFT_USED, 1, [], [⟨0, 21, .ro, 0⟩]⟩,
  ⟨R.PFT_MULTI_CNT, 1, [], [⟨0, 32, .rw, 0⟩]⟩,
  ⟨R.PFT_STALE_CNT, 1, [], [⟨0, 32, .rw, 0⟩]⟩,
  ⟨R.PFT_FULL_CNT, 1, [], [⟨0, 32, .rw, 0⟩]⟩,
  ⟨R.PFT_LAST_MULTI, 1, [], [⟨0, 20, .ro, 0⟩, ⟨20, 3, .ro, 0⟩, ⟨31, 1, .w1c, 0⟩]⟩]

/-- Page FBP. -/
def regTableFBP : List RegDef := [
  ⟨R.FBP_CTRL, 1, [], [⟨0, 1, .rw, 0⟩]⟩,
  ⟨R.FBP_NODE, 1, [], [⟨0, 20, .rwl, 0⟩]⟩,
  ⟨R.FBP_MS_TIMEOUT, 1, [], [⟨0, 14, .rw, 64⟩]⟩,
  ⟨R.FBP_FM_NODE, 1, [], [⟨0, 20, .rw, 0⟩, ⟨31, 1, .rw, 0⟩]⟩,
  ⟨R.FBP_PART_SEL, 1, [.copy 1], [⟨0, 3, .rw, 0⟩]⟩,
  ⟨R.FBP_PART_JOB, 1, [.fld F.FBP_PART_SEL_PART 1], [⟨0, 16, .rw, 0⟩, ⟨31, 1, .rw, 0⟩]⟩,
  ⟨R.FBP_Q_CFG, 1, [.fld F.FBP_PART_SEL_PART 1], [⟨0, 4, .rw, 6⟩, ⟨8, 1, .rw, 0⟩, ⟨9, 1, .w1c, 0⟩]⟩,
  ⟨R.FBP_Q_BASE, 1, [.fld F.FBP_PART_SEL_PART 1], [⟨0, 28, .rw, 0⟩]⟩,
  ⟨R.FBP_Q_CBASE, 1, [.fld F.FBP_PART_SEL_PART 1], [⟨0, 28, .rw, 0⟩]⟩,
  ⟨R.FBP_Q_TAIL, 1, [.fld F.FBP_PART_SEL_PART 1], [⟨0, 12, .rw, 0⟩]⟩,
  ⟨R.FBP_Q_HEAD, 1, [.fld F.FBP_PART_SEL_PART 1], [⟨0, 12, .ro, 0⟩]⟩,
  ⟨R.FBP_Q_CTAIL, 1, [.fld F.FBP_PART_SEL_PART 1], [⟨0, 12, .ro, 0⟩]⟩,
  ⟨R.FBP_Q_CHEAD, 1, [.fld F.FBP_PART_SEL_PART 1], [⟨0, 12, .rw, 0⟩]⟩,
  ⟨R.FBP_Q_ERR, 1, [.fld F.FBP_PART_SEL_PART 1], [⟨0, 12, .ro, 0⟩, ⟨12, 4, .ro, 0⟩, ⟨31, 1, .w1c, 0⟩]⟩,
  ⟨R.FBP_PTN_SEL, 1, [.copy 1], [⟨0, 12, .rw, 0⟩]⟩,
  ⟨R.FBP_PTN_NODE, 1, [.fld F.FBP_PTN_SEL_ENTRY 1], [⟨0, 20, .rw, 0⟩, ⟨20, 3, .rw, 0⟩, ⟨24, 4, .ro, 0⟩, ⟨30, 1, .rw, 0⟩, ⟨31, 1, .rw, 0⟩]⟩,
  ⟨R.FBP_PTN_JOB, 1, [.fld F.FBP_PTN_SEL_ENTRY 1], [⟨0, 16, .rw, 0⟩, ⟨16, 13, .ro, 0⟩]⟩,
  ⟨R.FBP_STAT, 1, [], [⟨0, 1, .ro, 0⟩, ⟨1, 1, .ro, 0⟩]⟩,
  ⟨R.FBP_RETRY_CNT, 1, [], [⟨0, 32, .rw, 0⟩]⟩,
  ⟨R.FBP_TIMEOUT_CNT, 1, [], [⟨0, 32, .rw, 0⟩]⟩,
  ⟨R.FBP_STALE_CNT, 1, [], [⟨0, 32, .rw, 0⟩]⟩,
  ⟨R.FBP_RX_UNEXP, 1, [], [⟨0, 32, .rw, 0⟩]⟩,
  ⟨R.FBP_RX_BAD, 1, [], [⟨0, 32, .rw, 0⟩]⟩,
  ⟨R.FBP_GATE_REFUSED, 1, [], [⟨0, 32, .rw, 0⟩]⟩,
  ⟨R.FBP_COMBINED_CNT, 1, [], [⟨0, 32, .rw, 0⟩]⟩,
  ⟨R.FBP_RX_HOSTILE, 1, [], [⟨0, 32, .rw, 0⟩]⟩]

/-- Page FBK. -/
def regTableFBK : List RegDef := [
  ⟨R.FBK_CTRL, 1, [], [⟨0, 1, .rw, 0⟩, ⟨8, 8, .rw, 64⟩]⟩,
  ⟨R.FBK_REG_SEL, 1, [.copy 1], [⟨0, 8, .rw, 0⟩]⟩,
  ⟨R.FBK_REG_KEY, 1, [.fld F.FBK_REG_SEL_ENTRY 1], [⟨0, 32, .rw, 0⟩]⟩,
  ⟨R.FBK_REG_BASE, 1, [.fld F.FBK_REG_SEL_ENTRY 1], [⟨0, 28, .rw, 0⟩]⟩,
  ⟨R.FBK_REG_LEN_LO, 1, [.fld F.FBK_REG_SEL_ENTRY 1], [⟨0, 32, .rw, 0⟩]⟩,
  ⟨R.FBK_REG_LEN_HI, 1, [.fld F.FBK_REG_SEL_ENTRY 1], [⟨0, 8, .rw, 0⟩]⟩,
  ⟨R.FBK_REG_CFG, 1, [.fld F.FBK_REG_SEL_ENTRY 1], [⟨0, 1, .rw, 0⟩, ⟨1, 3, .rw, 0⟩, ⟨4, 1, .rw, 0⟩, ⟨5, 1, .rw, 0⟩, ⟨6, 1, .rw, 0⟩, ⟨31, 1, .rw, 0⟩]⟩,
  ⟨R.FBK_KX_SEL, 1, [.copy 1], [⟨0, 6, .rw, 0⟩]⟩,
  ⟨R.FBK_KX_CFG, 1, [.fld F.FBK_KX_SEL_WINDOW 1], [⟨0, 16, .rw, 0⟩, ⟨16, 3, .rw, 0⟩, ⟨19, 1, .rw, 0⟩, ⟨20, 1, .rw, 0⟩, ⟨21, 1, .rw, 0⟩, ⟨31, 1, .rw, 0⟩]⟩,
  ⟨R.FBK_KX_VA, 1, [.fld F.FBK_KX_SEL_WINDOW 1], [⟨0, 32, .rw, 0⟩]⟩,
  ⟨R.FBK_KX_PAGES, 1, [.fld F.FBK_KX_SEL_WINDOW 1], [⟨0, 24, .rw, 0⟩]⟩,
  ⟨R.FBK_KX_BASE, 1, [.fld F.FBK_KX_SEL_WINDOW 1], [⟨0, 24, .rw, 0⟩]⟩,
  ⟨R.FBK_BLK_SEL, 1, [.copy 1], [⟨0, 4, .rw, 0⟩]⟩,
  ⟨R.FBK_BLK_NODE, 1, [.fld F.FBK_BLK_SEL_ENTRY 1], [⟨0, 20, .ro, 0⟩, ⟨31, 1, .w1c, 0⟩]⟩,
  ⟨R.FBK_STAT, 1, [], [⟨0, 1, .w1c, 0⟩, ⟨1, 1, .w1c, 0⟩]⟩,
  ⟨R.FBK_KEY_FAIL_CNT, 1, [], [⟨0, 32, .rw, 0⟩]⟩,
  ⟨R.FBK_BLOCKED_CNT, 1, [], [⟨0, 32, .rw, 0⟩]⟩,
  ⟨R.FBK_LAST_FAIL, 1, [], [⟨0, 20, .ro, 0⟩, ⟨20, 4, .ro, 0⟩]⟩]

/-- Page FVC. -/
def regTableFVC : List RegDef := [
  ⟨R.FVC_WEIGHT_LO, 1, [], [⟨0, 8, .rw, 8⟩, ⟨8, 8, .rw, 4⟩, ⟨16, 8, .rw, 4⟩, ⟨24, 8, .rw, 8⟩]⟩,
  ⟨R.FVC_WEIGHT_HI, 1, [], [⟨0, 8, .rw, 4⟩, ⟨8, 8, .rw, 1⟩, ⟨16, 8, .rw, 2⟩]⟩,
  ⟨R.FVC_VC1_MIN, 1, [], [⟨0, 6, .rw, 16⟩]⟩,
  ⟨R.FVC_BUF_SEL, 1, [.copy 1], [⟨0, 3, .rw, 0⟩]⟩,
  ⟨R.FVC_BUF, 1, [.fld F.FVC_BUF_SEL_VC 1], [⟨0, 13, .rw, 0⟩, ⟨16, 13, .rw, 0⟩]⟩,
  ⟨R.FVC_STAT_SEL, 1, [.copy 1], [⟨0, 3, .rw, 0⟩]⟩,
  ⟨R.FVC_TX_KB, 1, [.fld F.FVC_STAT_SEL_VC 1], [⟨0, 32, .rw, 0⟩]⟩,
  ⟨R.FVC_RX_KB, 1, [.fld F.FVC_STAT_SEL_VC 1], [⟨0, 32, .rw, 0⟩]⟩,
  ⟨R.FVC_CREDIT_STALL, 1, [.fld F.FVC_STAT_SEL_VC 1], [⟨0, 32, .rw, 0⟩]⟩,
  ⟨R.FVC_RESV_STALL, 1, [.fld F.FVC_STAT_SEL_VC 1], [⟨0, 32, .rw, 0⟩]⟩,
  ⟨R.FVC_STAT, 1, [], [⟨0, 1, .w1c, 0⟩]⟩]

/-- Page COL. -/
def regTableCOL : List RegDef := [
  ⟨R.COL_PART_SEL, 1, [.copy 1], [⟨0, 3, .rw, 0⟩]⟩,
  ⟨R.COL_THRESHOLD, 1, [], [⟨0, 16, .rw, 256⟩]⟩,
  ⟨R.COL_TIMEOUT, 1, [], [⟨0, 16, .rw, 1000⟩]⟩,
  ⟨R.COL_GRID_DIM_01, 3, [.fld F.COL_PART_SEL_PART 1], [⟨0, 16, .rw, 1⟩, ⟨16, 16, .rw, 1⟩]⟩,
  ⟨R.COL_GRID_CRD_01, 3, [.fld F.COL_PART_SEL_PART 1], [⟨0, 16, .rw, 0⟩, ⟨16, 16, .rw, 0⟩]⟩,
  ⟨R.COL_GRP_SEL, 1, [.copy 1], [⟨0, 6, .rw, 0⟩]⟩,
  ⟨R.COL_GRP_CFG, 1, [.fld F.COL_GRP_SEL_ENTRY 1], [⟨0, 16, .rw, 0⟩, ⟨16, 3, .rw, 0⟩, ⟨19, 3, .rw, 0⟩, ⟨31, 1, .ro, 0⟩]⟩,
  ⟨R.COL_GRP_AXES, 1, [.fld F.COL_GRP_SEL_ENTRY 1], [⟨0, 18, .rw, 0⟩]⟩,
  ⟨R.COL_GRP_MEMB, 1, [.fld F.COL_GRP_SEL_ENTRY 1], [⟨0, 28, .rw, 0⟩]⟩,
  ⟨R.COL_GRP_CMD, 1, [.fld F.COL_GRP_SEL_ENTRY 1], [⟨0, 2, .wo, 0⟩]⟩,
  ⟨R.COL_GRP_STAT, 1, [.fld F.COL_GRP_SEL_ENTRY 1], [⟨0, 13, .ro, 0⟩, ⟨16, 12, .ro, 0⟩, ⟨28, 4, .ro, 0⟩]⟩,
  ⟨R.COL_Q_CFG, 1, [.fld F.COL_PART_SEL_PART 1], [⟨0, 4, .rw, 6⟩, ⟨8, 1, .rw, 0⟩, ⟨9, 1, .w1c, 0⟩]⟩,
  ⟨R.COL_Q_BASE, 1, [.fld F.COL_PART_SEL_PART 1], [⟨0, 28, .rw, 0⟩]⟩,
  ⟨R.COL_Q_CBASE, 1, [.fld F.COL_PART_SEL_PART 1], [⟨0, 28, .rw, 0⟩]⟩,
  ⟨R.COL_Q_TAIL, 1, [.fld F.COL_PART_SEL_PART 1], [⟨0, 12, .rw, 0⟩]⟩,
  ⟨R.COL_Q_HEAD, 1, [.fld F.COL_PART_SEL_PART 1], [⟨0, 12, .ro, 0⟩]⟩,
  ⟨R.COL_Q_CTAIL, 1, [.fld F.COL_PART_SEL_PART 1], [⟨0, 12, .ro, 0⟩]⟩,
  ⟨R.COL_Q_CHEAD, 1, [.fld F.COL_PART_SEL_PART 1], [⟨0, 12, .rw, 0⟩]⟩,
  ⟨R.COL_Q_ERR, 1, [.fld F.COL_PART_SEL_PART 1], [⟨0, 12, .ro, 0⟩, ⟨12, 4, .ro, 0⟩, ⟨31, 1, .w1c, 0⟩]⟩,
  ⟨R.COL_FRAG_SEL, 1, [.copy 1], [⟨0, 12, .rw, 0⟩]⟩,
  ⟨R.COL_FRAG_STAT, 1, [.fld F.COL_FRAG_SEL_HANDLE 1], [⟨0, 2, .ro, 0⟩]⟩,
  ⟨R.COL_TIMEOUT_CNT, 1, [], [⟨0, 32, .rw, 0⟩]⟩,
  ⟨R.COL_REFUSED_CNT, 1, [], [⟨0, 32, .rw, 0⟩]⟩,
  ⟨R.COL_STALE_CNT, 1, [], [⟨0, 32, .rw, 0⟩]⟩,
  ⟨R.COL_FLAG_0, 32, [.fld F.COL_PART_SEL_PART 1], [⟨0, 32, .w1c, 0⟩]⟩]

/-- Page ARC. -/
def regTableARC : List RegDef := [
  ⟨R.ARC_PART_SEL, 1, [.copy 1], [⟨0, 3, .rw, 0⟩]⟩,
  ⟨R.ARC_TAB_BASE, 1, [.fld F.ARC_PART_SEL_PART 1], [⟨0, 28, .rw, 0⟩]⟩,
  ⟨R.ARC_TAB_COUNT, 1, [.fld F.ARC_PART_SEL_PART 1], [⟨0, 11, .rw, 0⟩]⟩,
  ⟨R.ARC_MAP_BASE, 1, [.fld F.ARC_PART_SEL_PART 1], [⟨0, 17, .rw, 0⟩]⟩,
  ⟨R.ARC_MAP_PAGES, 1, [.fld F.ARC_PART_SEL_PART 1], [⟨0, 25, .rw, 0⟩]⟩,
  ⟨R.ARC_STAGE_BASE, 1, [.fld F.ARC_PART_SEL_PART 1], [⟨0, 28, .rw, 0⟩]⟩,
  ⟨R.ARC_TARGET, 1, [.fld F.ARC_PART_SEL_PART 1], [⟨0, 20, .rw, 0⟩, ⟨31, 1, .rw, 0⟩]⟩,
  ⟨R.ARC_POINT_LO, 1, [.fld F.ARC_PART_SEL_PART 1], [⟨0, 32, .rw, 0⟩]⟩,
  ⟨R.ARC_POINT_HI, 1, [.fld F.ARC_PART_SEL_PART 1], [⟨0, 32, .rw, 0⟩]⟩,
  ⟨R.ARC_CMD, 1, [.fld F.ARC_PART_SEL_PART 1], [⟨0, 2, .wo, 0⟩, ⟨8, 1, .wo, 0⟩]⟩,
  ⟨R.ARC_STAT, 1, [.fld F.ARC_PART_SEL_PART 1], [⟨0, 2, .ro, 0⟩, ⟨2, 2, .ro, 0⟩, ⟨4, 1, .ro, 0⟩, ⟨5, 1, .w1c, 0⟩, ⟨6, 1, .w1c, 0⟩, ⟨8, 4, .ro, 0⟩]⟩,
  ⟨R.ARC_SEQ, 1, [.fld F.ARC_PART_SEL_PART 1], [⟨0, 32, .ro, 0⟩]⟩,
  ⟨R.ARC_ACK_TIMEOUT, 1, [], [⟨0, 16, .rw, 500⟩]⟩,
  ⟨R.ARC_WINDOW, 1, [], [⟨0, 7, .rw, 64⟩]⟩,
  ⟨R.ARC_Q_CFG, 1, [.fld F.ARC_PART_SEL_PART 1], [⟨0, 4, .rw, 6⟩, ⟨8, 1, .rw, 0⟩, ⟨9, 1, .w1c, 0⟩]⟩,
  ⟨R.ARC_Q_BASE, 1, [.fld F.ARC_PART_SEL_PART 1], [⟨0, 28, .rw, 0⟩]⟩,
  ⟨R.ARC_Q_CBASE, 1, [.fld F.ARC_PART_SEL_PART 1], [⟨0, 28, .rw, 0⟩]⟩,
  ⟨R.ARC_Q_TAIL, 1, [.fld F.ARC_PART_SEL_PART 1], [⟨0, 12, .rw, 0⟩]⟩,
  ⟨R.ARC_Q_HEAD, 1, [.fld F.ARC_PART_SEL_PART 1], [⟨0, 12, .ro, 0⟩]⟩,
  ⟨R.ARC_Q_CTAIL, 1, [.fld F.ARC_PART_SEL_PART 1], [⟨0, 12, .ro, 0⟩]⟩,
  ⟨R.ARC_Q_CHEAD, 1, [.fld F.ARC_PART_SEL_PART 1], [⟨0, 12, .rw, 0⟩]⟩,
  ⟨R.ARC_Q_ERR, 1, [.fld F.ARC_PART_SEL_PART 1], [⟨0, 12, .ro, 0⟩, ⟨12, 4, .ro, 0⟩, ⟨31, 1, .w1c, 0⟩]⟩,
  ⟨R.ARC_REC_CNT, 1, [], [⟨0, 32, .rw, 0⟩]⟩,
  ⟨R.ARC_RAW_KB, 1, [], [⟨0, 32, .rw, 0⟩]⟩,
  ⟨R.ARC_SENT_KB, 1, [], [⟨0, 32, .rw, 0⟩]⟩,
  ⟨R.ARC_LZ4_CNT, 1, [], [⟨0, 32, .rw, 0⟩]⟩,
  ⟨R.ARC_NEWER_CNT, 1, [], [⟨0, 32, .rw, 0⟩]⟩,
  ⟨R.ARC_RESEND_CNT, 1, [], [⟨0, 32, .rw, 0⟩]⟩,
  ⟨R.ARC_SKIP_CNT, 1, [], [⟨0, 32, .rw, 0⟩]⟩,
  ⟨R.ARC_GONE_CNT, 1, [], [⟨0, 32, .rw, 0⟩]⟩,
  ⟨R.ARC_RESTORE_CNT, 1, [], [⟨0, 32, .rw, 0⟩]⟩]

/-- Page PTC. -/
def regTablePTC : List RegDef := [
  ⟨R.PTC_PART_SEL, 1, [.copy 1], [⟨0, 3, .rw, 0⟩]⟩,
  ⟨R.PTC_CMD, 1, [.fld F.PTC_PART_SEL_PART 1], [⟨0, 2, .wo, 0⟩]⟩,
  ⟨R.PTC_CFG, 1, [.fld F.PTC_PART_SEL_PART 1], [⟨0, 8, .rw, 0⟩, ⟨8, 3, .rw, 0⟩]⟩,
  ⟨R.PTC_SH_BASE, 1, [.fld F.PTC_PART_SEL_PART 1], [⟨0, 17, .rw, 0⟩]⟩,
  ⟨R.PTC_SH_FRAMES, 1, [.fld F.PTC_PART_SEL_PART 1], [⟨0, 8, .rw, 0⟩, ⟨16, 8, .ro, 0⟩]⟩,
  ⟨R.PTC_STAT, 1, [.fld F.PTC_PART_SEL_PART 1], [⟨0, 3, .ro, 0⟩, ⟨4, 4, .ro, 0⟩, ⟨8, 1, .w1c, 0⟩, ⟨9, 1, .w1c, 0⟩]⟩,
  ⟨R.PTC_SLOWDOWN, 1, [.fld F.PTC_PART_SEL_PART 1], [⟨0, 16, .ro, 256⟩]⟩,
  ⟨R.PTC_SLOW_WIN, 1, [], [⟨0, 16, .rw, 1024⟩]⟩,
  ⟨R.PTC_SLOW_ALERT, 1, [.fld F.PTC_PART_SEL_PART 1], [⟨0, 16, .rw, 0⟩]⟩,
  ⟨R.PTC_DRAIN_LIMIT, 1, [], [⟨0, 16, .rw, 2000⟩, ⟨16, 1, .rw, 0⟩]⟩,
  ⟨R.PTC_SEAT_SEL, 1, [.copy 1], [⟨0, 3, .rw, 0⟩]⟩,
  ⟨R.PTC_SEAT_SLOTS, 1, [.fld F.PTC_SEAT_SEL_SEAT 1], [⟨0, 13, .rw, 0⟩, ⟨16, 13, .rw, 0⟩]⟩,
  ⟨R.PTC_SEAT_SRAM, 1, [.fld F.PTC_SEAT_SEL_SEAT 1], [⟨0, 6, .rw, 0⟩, ⟨8, 7, .rw, 0⟩]⟩,
  ⟨R.PTC_SEAT_TRIO_0, 8, [.fld F.PTC_SEAT_SEL_SEAT 1], [⟨0, 32, .rw, 0⟩]⟩,
  ⟨R.PTC_SEAT_STAT, 1, [.fld F.PTC_SEAT_SEL_SEAT 1], [⟨0, 3, .ro, 0⟩, ⟨3, 1, .ro, 0⟩, ⟨4, 10, .ro, 0⟩]⟩,
  ⟨R.PTC_VC_SEL, 1, [.copy 1], [⟨0, 3, .rw, 0⟩]⟩,
  ⟨R.PTC_VC_RESV, 1, [.fld F.PTC_VC_SEL_VC 1, .fld F.PTC_PART_SEL_PART 8], [⟨0, 13, .rw, 0⟩]⟩,
  ⟨R.PTC_CLIENT_SEL, 1, [.copy 1], [⟨0, 8, .rw, 0⟩]⟩,
  ⟨R.PTC_JOB_CNT, 1, [.fld F.PTC_CLIENT_SEL_CLIENT 1], [⟨0, 32, .rw, 0⟩]⟩,
  ⟨R.PTC_SWITCH_US, 1, [.fld F.PTC_PART_SEL_PART 1], [⟨0, 16, .ro, 0⟩]⟩,
  ⟨R.PTC_SWITCH_CNT, 1, [], [⟨0, 32, .rw, 0⟩]⟩,
  ⟨R.PTC_RESET_CNT, 1, [], [⟨0, 32, .rw, 0⟩]⟩]

/-- Page CTR. -/
def regTableCTR : List RegDef := [
  ⟨R.CTR_SEL, 1, [.copy 1], [⟨0, 6, .rw, 0⟩]⟩,
  ⟨R.CTR_CFG, 1, [.fld F.CTR_SEL_COUNTER 1], [⟨0, 16, .rw, 0⟩, ⟨16, 3, .rw, 0⟩, ⟨19, 1, .rw, 0⟩, ⟨20, 1, .rw, 0⟩, ⟨21, 1, .rw, 0⟩]⟩,
  ⟨R.CTR_PRELOAD_LO, 1, [.fld F.CTR_SEL_COUNTER 1], [⟨0, 32, .rw, 0⟩]⟩,
  ⟨R.CTR_PRELOAD_HI, 1, [.fld F.CTR_SEL_COUNTER 1], [⟨0, 16, .rw, 0⟩, ⟨31, 1, .wo, 0⟩]⟩,
  ⟨R.CTR_LIVE_LO, 1, [.fld F.CTR_SEL_COUNTER 1], [⟨0, 32, .ro, 0⟩]⟩,
  ⟨R.CTR_LIVE_HI, 1, [.fld F.CTR_SEL_COUNTER 1], [⟨0, 16, .ro, 0⟩]⟩,
  ⟨R.CTR_OVF_LO, 1, [], [⟨0, 32, .w1c, 0⟩]⟩,
  ⟨R.CTR_OVF_HI, 1, [], [⟨0, 32, .w1c, 0⟩]⟩,
  ⟨R.CTR_CYCLE_LO, 1, [], [⟨0, 32, .ro, 0⟩]⟩,
  ⟨R.CTR_CYCLE_HI, 1, [], [⟨0, 32, .ro, 0⟩]⟩,
  ⟨R.CTR_TD_SEL, 1, [.copy 1], [⟨0, 3, .rw, 0⟩, ⟨4, 2, .rw, 0⟩]⟩,
  ⟨R.CTR_TD_LO, 1, [.fld F.CTR_TD_SEL_CLASS 1, .fld F.CTR_TD_SEL_PART 4], [⟨0, 32, .ro, 0⟩]⟩,
  ⟨R.CTR_TD_HI, 1, [.fld F.CTR_TD_SEL_CLASS 1, .fld F.CTR_TD_SEL_PART 4], [⟨0, 32, .ro, 0⟩]⟩,
  ⟨R.CTR_SNAP_LO, 1, [], [⟨0, 32, .rw, 0⟩]⟩,
  ⟨R.CTR_SNAP_HI, 1, [], [⟨0, 32, .rw, 0⟩]⟩,
  ⟨R.CTR_SNAP_CMD, 1, [], [⟨0, 2, .wo, 0⟩, ⟨8, 1, .wo, 0⟩]⟩,
  ⟨R.CTR_SNAP_STAT, 1, [], [⟨0, 1, .ro, 0⟩, ⟨1, 1, .ro, 0⟩, ⟨2, 1, .w1c, 0⟩, ⟨3, 1, .w1c, 0⟩]⟩,
  ⟨R.CTR_SNAP_SEQ, 1, [], [⟨0, 32, .ro, 0⟩]⟩,
  ⟨R.CTR_SHADOW_SEL, 1, [.copy 1], [⟨0, 7, .rw, 0⟩]⟩,
  ⟨R.CTR_SHADOW_LO, 1, [.fld F.CTR_SHADOW_SEL_ITEM 1], [⟨0, 32, .ro, 0⟩]⟩,
  ⟨R.CTR_SHADOW_HI, 1, [.fld F.CTR_SHADOW_SEL_ITEM 1], [⟨0, 32, .ro, 0⟩]⟩,
  ⟨R.CTR_USER_EN, 1, [], [⟨0, 8, .rw, 0⟩]⟩,
  ⟨R.CTR_USER_SEL, 1, [.copy 1], [⟨0, 3, .rw, 0⟩]⟩,
  ⟨R.CTR_USER_PAGE, 1, [.fld F.CTR_USER_SEL_PART 1], [⟨0, 28, .rw, 0⟩]⟩,
  ⟨R.CTR_STAT, 1, [], [⟨0, 1, .w1c, 0⟩]⟩]

/-- Page ERU. -/
def regTableERU : List RegDef := [
  ⟨R.ERU_STAT, 1, [], [⟨0, 6, .ro, 0⟩, ⟨8, 1, .w1c, 0⟩, ⟨9, 1, .w1c, 0⟩]⟩,
  ⟨R.ERU_LOST, 1, [], [⟨0, 32, .rw, 0⟩]⟩,
  ⟨R.ERU_POP, 1, [], [⟨0, 1, .wo, 0⟩]⟩,
  ⟨R.ERU_SEQ_NEXT, 1, [], [⟨0, 32, .ro, 1⟩]⟩,
  ⟨R.ERU_INJECT, 1, [], [⟨0, 16, .wo, 0⟩, ⟨16, 2, .wo, 0⟩]⟩,
  ⟨R.ERU_REC_0, 16, [], [⟨0, 32, .ro, 0⟩]⟩,
  ⟨R.ERU_FATAL_0, 16, [], [⟨0, 32, .ro, 0⟩]⟩]

/-- Page MGC. -/
def regTableMGC : List RegDef := [
  ⟨R.MGC_CORE_SEL, 1, [.copy 1], [⟨0, 2, .rw, 0⟩]⟩,
  ⟨R.MGC_CORE_CTRL, 1, [.fld F.MGC_CORE_SEL_CORE 1], [⟨0, 1, .wo, 0⟩, ⟨1, 1, .wo, 0⟩]⟩,
  ⟨R.MGC_CORE_STAT, 1, [.fld F.MGC_CORE_SEL_CORE 1], [⟨0, 2, .ro, 0⟩, ⟨2, 1, .ro, 0⟩, ⟨8, 8, .ro, 0⟩, ⟨16, 8, .ro, 0⟩]⟩,
  ⟨R.MGC_CORE_VER, 1, [.fld F.MGC_CORE_SEL_CORE 1], [⟨0, 32, .ro, 0⟩]⟩,
  ⟨R.MGC_CORE_IFC, 1, [.fld F.MGC_CORE_SEL_CORE 1], [⟨0, 8, .ro, 0⟩, ⟨8, 8, .ro, 0⟩]⟩,
  ⟨R.MGC_WDT_CFG, 1, [.fld F.MGC_CORE_SEL_CORE 1], [⟨0, 12, .rw, 1000⟩, ⟨16, 1, .rw, 1⟩]⟩,
  ⟨R.MGC_WDT_KICK, 1, [], [⟨0, 2, .wo, 0⟩]⟩,
  ⟨R.MGC_CTRL, 1, [], [⟨0, 1, .rw, 0⟩]⟩,
  ⟨R.MGC_STAT, 1, [], [⟨0, 2, .ro, 0⟩, ⟨2, 1, .ro, 0⟩, ⟨3, 1, .ro, 0⟩, ⟨4, 1, .ro, 0⟩, ⟨5, 2, .ro, 0⟩]⟩,
  ⟨R.MGC_KSK_SEL, 1, [.copy 1], [⟨0, 2, .rw, 0⟩]⟩,
  ⟨R.MGC_KSK_DOORBELL, 1, [.fld F.MGC_KSK_SEL_MBOX 1], [⟨0, 1, .wo, 0⟩]⟩,
  ⟨R.MGC_KSK_TAKE, 1, [.fld F.MGC_KSK_SEL_MBOX 1], [⟨0, 1, .wo, 0⟩]⟩,
  ⟨R.MGC_KSK_STAT, 1, [.fld F.MGC_KSK_SEL_MBOX 1], [⟨0, 1, .w1c, 0⟩, ⟨1, 1, .ro, 0⟩, ⟨8, 8, .ro, 0⟩, ⟨16, 16, .ro, 0⟩]⟩,
  ⟨R.MGC_KSK_BAD, 1, [], [⟨0, 32, .rw, 0⟩]⟩,
  ⟨R.MGC_MCTP_EID, 1, [], [⟨0, 8, .ro, 0⟩]⟩,
  ⟨R.MGC_MCTP_IANA, 1, [], [⟨0, 32, .ro, 0⟩]⟩,
  ⟨R.MGC_HOFF_STAT, 1, [], [⟨0, 16, .ro, 0⟩, ⟨16, 2, .ro, 0⟩]⟩,
  ⟨R.MGC_KSK_WIN_0, 512, [], [⟨0, 32, .rw, 0⟩]⟩]

/-- Page PWA. -/
def regTablePWA : List RegDef := [
  ⟨R.PWA_BUDGET_REQ, 1, [], [⟨0, 10, .rw, 480⟩]⟩,
  ⟨R.PWA_BUDGET_GRANT, 1, [], [⟨0, 10, .ro, 0⟩, ⟨16, 1, .ro, 0⟩]⟩,
  ⟨R.PWA_BUDGET_EFF, 1, [], [⟨0, 10, .ro, 1023⟩]⟩,
  ⟨R.PWA_EST, 1, [], [⟨0, 10, .ro, 0⟩]⟩,
  ⟨R.PWA_CTRL, 1, [], [⟨0, 1, .rw, 1⟩, ⟨8, 8, .rw, 10⟩]⟩,
  ⟨R.PWA_FLOOR, 1, [], [⟨0, 10, .rw, 63⟩]⟩,
  ⟨R.PWA_COEF_SEL, 1, [.copy 1], [⟨0, 4, .rw, 0⟩]⟩,
  ⟨R.PWA_COEF, 1, [.fld F.PWA_COEF_SEL_INDEX 1], [⟨0, 32, .rw, 0⟩]⟩,
  ⟨R.PWA_RO_SEL, 1, [.copy 1], [⟨0, 5, .rw, 0⟩]⟩,
  ⟨R.PWA_RO_CNT, 1, [.fld F.PWA_RO_SEL_MONITOR 1], [⟨0, 24, .ro, 0⟩]⟩,
  ⟨R.PWA_RO_BASE, 1, [.fld F.PWA_RO_SEL_MONITOR 1], [⟨0, 24, .ro, 0⟩]⟩,
  ⟨R.PWA_REPLAN, 1, [], [⟨0, 14, .rw, 168⟩, ⟨16, 1, .wo, 0⟩]⟩,
  ⟨R.PWA_REPLAN_STAT, 1, [], [⟨0, 1, .ro, 0⟩, ⟨1, 1, .w1c, 0⟩, ⟨16, 16, .ro, 0⟩]⟩,
  ⟨R.PWA_VREQ, 1, [], [⟨0, 8, .rw, 0⟩, ⟨8, 8, .rw, 0⟩]⟩,
  ⟨R.PWA_STAT, 1, [], [⟨0, 1, .ro, 0⟩, ⟨1, 1, .w1c, 0⟩]⟩]

/-- Page TSG. -/
def regTableTSG : List RegDef := [
  ⟨R.TSG_CMD, 1, [], [⟨0, 1, .wo, 0⟩]⟩,
  ⟨R.TSG_STAT, 1, [], [⟨0, 3, .ro, 0⟩, ⟨8, 1, .ro, 0⟩, ⟨9, 1, .ro, 0⟩, ⟨10, 1, .w1c, 0⟩]⟩,
  ⟨R.TSG_REFUSED_CNT, 1, [], [⟨0, 32, .rw, 0⟩]⟩,
  ⟨R.TSG_ERASE_US, 1, [], [⟨0, 16, .ro, 0⟩]⟩,
  ⟨R.TSG_WIR, 1, [], [⟨0, 8, .ro, 0⟩]⟩]

/-- The block registers of a page (R504). -/
def regTable : Nat → List RegDef
  | 0x00 => regTableIDN
  | 0x01 => regTableCRG
  | 0x02 => regTableTCK
  | 0x03 => regTableARB
  | 0x04 => regTableTWC
  | 0x05 => regTableTWR
  | 0x06 => regTableTTH
  | 0x07 => regTableLNF
  | 0x08 => regTableLNP
  | 0x09 => regTableUPD
  | 0x0A => regTableTLM
  | 0x0B => regTableCNV
  | 0x0C => regTableCDE
  | 0x0D => regTableCDJ
  | 0x0E => regTableCDR
  | 0x0F => regTablePGM
  | 0x10 => regTableXLT
  | 0x11 => regTablePFT
  | 0x12 => regTableFBP
  | 0x13 => regTableFBK
  | 0x14 => regTableFVC
  | 0x15 => regTableCOL
  | 0x16 => regTableARC
  | 0x17 => regTablePTC
  | 0x18 => regTableCTR
  | 0x19 => regTableERU
  | 0x1A => regTableMGC
  | 0x1B => regTablePWA
  | 0x1C => regTableTSG
  | _ => []

/-- Clocks each block uses, bits LCLK, ECLK, TCLK, FCLK, MCLK, PCLK from bit 0 (R481). The spec gives no block's clocks (R481 points to R504, whose table has no such column): DESIGN CHOICE, log entry 3 -/
def clocksUsed : Nat → Nat
  | 0x00 => 0b100000  -- IDN
  | 0x01 => 0b100000  -- CRG
  | 0x02 => 0b100001  -- TCK
  | 0x03 => 0b100010  -- ARB
  | 0x04 => 0b100110  -- TWC
  | 0x05 => 0b100110  -- TWR
  | 0x06 => 0b100000  -- TTH
  | 0x07 => 0b100001  -- LNF
  | 0x08 => 0b100011  -- LNP
  | 0x09 => 0b100010  -- UPD
  | 0x0A => 0b100010  -- TLM
  | 0x0B => 0b100010  -- CNV
  | 0x0C => 0b100010  -- CDE
  | 0x0D => 0b100010  -- CDJ
  | 0x0E => 0b100010  -- CDR
  | 0x0F => 0b100010  -- PGM
  | 0x10 => 0b100010  -- XLT
  | 0x11 => 0b100010  -- PFT
  | 0x12 => 0b101010  -- FBP
  | 0x13 => 0b101010  -- FBK
  | 0x14 => 0b101000  -- FVC
  | 0x15 => 0b101010  -- COL
  | 0x16 => 0b101010  -- ARC
  | 0x17 => 0b100010  -- PTC
  | 0x18 => 0b100010  -- CTR
  | 0x19 => 0b100000  -- ERU
  | 0x1A => 0b110000  -- MGC
  | 0x1B => 0b110000  -- PWA
  | 0x1C => 0b100000  -- TSG
  | _ => 0

end Sys2Proof.Machine
end

