-- ==== Sys2Proof/Machine/State.lean ====
section
/-! DEFINITION. The state of the engine as plain data, the state right after power is applied, and the reasons a step could stop. -/

namespace Sys2Proof.Machine

open Sys2Proof


/-- Where a run of the engine stands (R438, R439, R479, R485–R488). -/
inductive Run where
  /-- `pse_rst_cold_n` asserted, or power just applied -/
  | heldCold
  /-- `pse_rst_warm_n` asserted -/
  | heldWarm
  /-- a start stopped at a failed step (R487); the flag says a warm start, the number is the step -/
  | stopped (warm : Bool) (step : Nat)
  /-- hardware steps ended, the engine runs -/
  | running
  /-- fallen back to IROSC (R479) -/
  | fallback
  deriving DecidableEq, Repr

/-- One memory with byte parity. Unlisted bytes read 0 (R63, R236). `bad` lists the addresses whose stored parity bit
differs from the value R229 gives. -/
structure Mem where
  cells : List Host.Cell
  bad : List Nat
  deriving DecidableEq, Repr

/-- Error record fields (R386), all but the CRC, which is computed when the record is shown. -/
structure ErrRec where
  code : Nat
  sev : Nat
  block : Nat
  part : Option Nat
  addrKind : Nat
  nested : Bool
  injected : Bool
  suppressed : Nat
  addr : Nat
  hall : Nat
  tick : Nat
  tickSeal : Nat
  detail : List Nat
  seq : Nat
  deriving DecidableEq, Repr

/-- The error unit (R385–R393). -/
structure Eru where
  /-- the record queue, at most 32, head first (R387) -/
  queue : List ErrRec
  /-- the fatal latch (R390) -/
  latch : Option ErrRec
  /-- per code, occurrences left unrecorded since its previous record (R386 SUPPRESSED) -/
  suppressed : List (Nat × Nat)
  /-- keys of the once-per-interval limits already used in their interval -/
  once : List Nat
  /-- codes recorded at most once in a millisecond, with the hall time of the last record (R303, R417) -/
  lastAt : List (Nat × Nat)
  /-- a failed ring check is in force (R460, R390) -/
  checkFailed : Bool
  deriving DecidableEq, Repr

/-- The counters (R399–R408). Keys are counter numbers; unlisted counters are 0. -/
structure Ctr where
  prog : List (Nat × Nat)
  /-- top-down counters, key 4p + class -/
  topDown : List (Nat × Nat)
  cycle : Nat
  frozen : Bool
  /-- staged `CTR_CFG` words and preloads (R401) -/
  stagedCfg : List (Nat × Nat)
  stagedLoad : List (Nat × Nat)
  /-- armed command and hall time (R404): 1 SNAPSHOT, 2 FREEZE, 3 UNFREEZE -/
  armed : Option (Nat × Nat)
  /-- the shadow bank (R406), key as `CTR_SHADOW_SEL.ITEM` -/
  shadow : List (Nat × Nat)
  deriving DecidableEq, Repr

/-- An entry of a plan image (R507). -/
inductive PlanOp where
  | feed (trio pair rows : Nat)
  | lane (queue kind split first last : Nat)
  | update
  | bank (b user : Nat)
  | refresh (b : Nat)
  deriving DecidableEq, Repr

structure PlanEntry where
  slot : Nat
  first : Nat
  len : Nat
  op : PlanOp
  deriving DecidableEq, Repr

/-- A plan as decoded from its image (R507). -/
structure Plan where
  id : Nat
  part : Nat
  period : Nat
  lclk : Nat
  slots : Nat
  kwidth : Nat
  split : Nat
  entries : List PlanEntry
  deriving DecidableEq, Repr

/-- An instance of a plan: the plan, the tick number it is due at (R43), the hall time of that tick's boundary, the T0
block that holds the plan (R509), the next plan slot. -/
structure Inst where
  plan : Plan
  due : Nat
  start : Nat
  blk : Nat
  slot : Nat
  deriving DecidableEq, Repr

/-- A check in progress (R34, R36): the hall time of the commit, whether it was cancelled meanwhile. -/
structure PlanCheck where
  since : Nat
  cancelled : Bool
  deriving DecidableEq, Repr

/-- The plan state of one partition (R34–R36, R42). -/
structure PlanState where
  /-- which of the partition's two T0 blocks is the next buffer (R509) -/
  nextBlk : Nat
  check : Option PlanCheck
  /-- an accepted plan and the hall time of its acceptance -/
  accepted : Option (Plan × Nat)
  /-- checked against staged time values, swaps no earlier than that epoch (R32) -/
  acceptedEpoch : Option Nat
  inForce : Option Plan
  running : Option Inst
  waiting : List Inst
  /-- LCLK cycles of the current tick whose row cycles are already classed (R182) -/
  spent : Nat
  /-- cycles the plan still holds at the end of lane spans (R198): plan slot after the span, cycles, rows that work on -/
  hold : List (Nat × Nat × Nat)
  /-- its rows take no lane work until a plan is accepted (R187) -/
  barred : Bool
  /-- class-0 accesses that wait for cycles reserved in their bank, and those whose cycles have come since: user × 512 + bank (R507) -/
  owed : List Nat
  given : List Nat
  deriving DecidableEq, Repr

/-- Hall time, ticks and the barrier (R25–R43). -/
structure Tick where
  /-- local hall time in ns (R26) -/
  hall : Nat
  /-- a strobe has been taken since the last start (R25, R480) -/
  synced : Bool
  /-- hall time of the last boundary taken, if any (R27) -/
  lastBoundary : Option Nat
  /-- number of the last tick boundary taken -/
  now : Nat
  /-- values in effect (R29) -/
  epoch : Nat
  base : Nat
  /-- the staged copy that TIME_COMMIT applies (R30) -/
  stPeriod : Nat
  stEpoch : Nat
  stBase : Nat
  /-- an accepted commit waiting for its epoch: period in µs, epoch, base -/
  commit : Option (Nat × Nat × Nat)
  /-- a TIME_COMMIT has been accepted since the last start (R492) -/
  committed : Bool
  /-- `pse_hall_valid` is low -/
  holdover : Bool
  /-- strobes with valid high since holdover passed 10 ms -/
  goodStrobes : Nat
  /-- the armed first releases, rising (R39) -/
  armed : List Nat
  /-- release times held -/
  releases : List Nat
  /-- a first release has taken place since the last start -/
  released : Bool
  /-- boundaries that passed with no release held, since the first: tick number and hall time (R41) -/
  unreleased : List (Nat × Nat)
  /-- a worker gave up on its manager (R17) -/
  managerLost : Bool
  /-- tick seals received from the engines of the host, by instance (R18) -/
  seals : List (Nat × Nat)
  /-- the latest tick with an arrival, and the instances arrived in it, in order (R41) -/
  arrTick : Nat
  arrivals : List Nat
  /-- ticks at whose barrier this engine has not arrived yet: tick number and hall time of the boundary (R41) -/
  barrier : List (Nat × Nat)
  /-- ring CHECKs seen since the last cold start: instance and manager strap, this engine's own included (R460) -/
  checks : List (Nat × Bool)
  deriving DecidableEq, Repr

/-- A message on the instance ring (R459). -/
structure RingMsg where
  hdr : Nat
  payload : List Nat
  deriving DecidableEq, Repr


/-- What one holder owes an open delta (R79). -/
structure Ack where
  role : Nat
  parity : Nat
  /-- sequence number of the record once handed to the port -/
  seq : Option Nat
  acked : Bool
  /-- its remaining sends are replaced by a reseed (R396) -/
  reseed : Bool
  /-- the holder has fetched the block for it -/
  served : Bool
  deriving DecidableEq, Repr

/-- An open entry of the Cold frame (R70, R79): one block, one stamp and change count, the sectors of Δ. -/
structure Delta where
  slot : Nat
  row : Nat
  q : Nat
  count : Nat
  due : Nat
  mask : Nat
  /-- marked sectors, rising: sector number and its 64 bytes of Δ -/
  sectors : List (Nat × List Byte)
  acks : List Ack
  deriving DecidableEq, Repr

/-- The inbound record stream of one sender role in one group slot (R76, R77, R113). -/
structure RxStream where
  slot : Nat
  role : Nat
  /-- next expected sequence number -/
  next : Nat
  /-- reorder buffer: sequence number and record bytes -/
  ahead : List (Nat × List Byte)
  /-- records held while their row is gathered, in sequence order -/
  held : List (Nat × List Byte)
  /-- records written since the last ACK -/
  since : Nat
  deriving DecidableEq, Repr

/-- A journal delta of a gather response (R103). -/
structure JDelta where
  stamp : Nat
  count : Nat
  mask : Nat
  sectors : List (Nat × List Byte)
  deriving DecidableEq, Repr

/-- A source's symbol as a gather brought it (R103–R105). -/
structure SrcVal where
  role : Nat
  tag : List Byte
  data : Option (List Byte)
  journal : List JDelta
  deriving DecidableEq, Repr

/-- A repair record sent and not yet acknowledged (R77, R108): the holder role, its sequence number, parity index, data symbol,
change count, stamp and row, its sectors. -/
structure RepairRec where
  slot : Nat
  role : Nat
  seq : Nat
  parity : Nat
  symbol : Nat
  count : Nat
  stamp : Nat
  row : Nat
  sectors : List (Nat × List Byte)
  deriving DecidableEq, Repr

/-- Why a row is gathered: rebuild of a PENDING slot, repair of an erased slot, reseed of a parity slot (R110, R115, R117). -/
inductive GatherUse where
  | rebuild | erasure | reseed
  deriving DecidableEq, Repr

/-- A row being gathered (R105, R106). -/
structure Gather where
  slot : Nat
  row : Nat
  use : GatherUse
  /-- step of R105: 1 tag lines, 2 sources in full, 3 stale parities in full -/
  step : Nat
  /-- request tag, then role, whether TAG_ONLY, of the requests still unanswered -/
  asked : List (Nat × Nat × Bool)
  got : List SrcVal
  /-- roles that gave no symbol (R114) -/
  failed : List Nat
  /-- chosen parities J, by parity index -/
  setJ : List Nat
  /-- roles that answered UNAVAILABLE (R109) -/
  gone : List Nat
  /-- a reseed asked for this gather, so that its end is acknowledged (R117) -/
  reseed : Bool
  /-- sectors of the slot that failed their parity when it began: others found later are further failures (R116) -/
  bad : List Nat
  /-- lost symbols once solved: symbol, stamp, change count, value (R108) -/
  solved : List (Nat × Nat × Nat × List Byte)
  /-- roles whose parity is still to be repaired, in step 3 (R108) -/
  stale : List Nat
  deriving DecidableEq, Repr

/-- What a memory-semantic request is for: what its answer completes (R260, R283, R301). -/
inductive ReqUse where
  /-- nothing: a message, a response -/
  | message
  /-- a unit of a fabric queue descriptor, by the descriptor's job number -/
  | unit (job u : Nat)
  /-- a host READ of a page that lies in T3: channel, request header, the page -/
  | hostRead (ch : Nat) (hdr : BitVec 128) (part page : Nat)
  /-- an inbound LOAD of a page that lies in T3: its header, the page -/
  | loadOn (hdr : List Byte) (part page : Nat)
  /-- a 256-byte piece of a page copied from or to its lender -/
  | pageIn (part page piece : Nat)
  | pageOut (part page piece : Nat)
  /-- a 256-byte piece of a page in T3 that the engine itself reads: partition, partition address / 256 -/
  | pieceRead (part piece : Nat)
  deriving DecidableEq, Repr

/-- A fabric transaction (R293). `part` is the partition a request's response room is charged to (R311), `entry` the
partner entry whose tag a request takes when it is sent (R313), `room` the response room it reserves. -/
structure Txn where
  typ : Nat
  vc : Nat
  combinable : Bool
  gate : Bool
  kx : Bool
  poison : Bool
  resp : Bool
  op : Nat
  status : Nat
  dst : Nat
  src : Nat
  tag : Nat
  key : Nat
  offset : Nat
  count : Nat
  len : Nat
  payload : List Byte
  part : Option Nat
  entry : Option Nat
  use : ReqUse
  /-- already counted as held for response room (R311) -/
  held : Bool
  deriving DecidableEq, Repr

/-- A request in flight (R313, R314). -/
structure Flight where
  entry : Nat
  tag : Nat
  gen : Nat
  txn : Txn
  deriving DecidableEq, Repr

/-- A fabric queue descriptor in execution (R300, R301). -/
structure FabJob where
  id : Nat
  part : Nat
  index : Nat
  desc : List Byte
  units : Nat
  left : Nat
  /-- units that failed, with their status -/
  fails : List (Nat × Nat)
  /-- reason of its refusal, 0 when it was not refused -/
  reason : Nat
  deriving DecidableEq, Repr

/-- A fill or check a group slot is busy with (R89, R490, R100). -/
inductive SlotBusy where
  | zeroFill | tagCheck | markPending
  deriving DecidableEq, Repr

/-- Who makes an access that may have to wait, and is known by (R72, R94, R276). -/
inductive Who where
  /-- class 0: the update pass of a partition; a lane descriptor, by its job number -/
  | update (p : Nat)
  | lane (id : Nat)
  /-- an access of the list of those that wait, by its number -/
  | access (cls id : Nat)
  /-- class 2: a collective of a partition; a unit of a partition's page queue descriptor -/
  | coll (p : Nat)
  | page (p unit : Nat)
  /-- class 3: the noise generator; the archive's staging and its restore, by partition -/
  | noise
  | stage (p : Nat)
  | restore (p : Nat)
  /-- a read of the engine's own: class, partition, address and length -/
  | read (cls p a n : Nat)
  deriving DecidableEq, Repr

/-- The class of an access (R19). -/
def Who.cls : Who → Nat
  | .update _ => 0
  | .lane _ => 0
  | .access c _ => c
  | .coll _ => 2
  | .page _ _ => 2
  | .noise => 3
  | .stage _ => 3
  | .restore _ => 3
  | .read c _ _ _ => c

/-- What an access is for: who gets its outcome. -/
inductive AccUse where
  /-- a host READ or WRITE: channel and request header (R444) -/
  | hostRead (ch : Nat) (hdr : BitVec 128)
  | hostWrite (ch : Nat) (hdr : BitVec 128)
  /-- an inbound request: its header, an ATOMIC's payload (R295, R297) -/
  | fabLoad (hdr : List Byte)
  | fabStore (hdr : List Byte)
  | fabAtomic (hdr payload : List Byte)
  /-- local data of a PUT's unit (R301) -/
  | putRead (job u : Nat)
  /-- response data of a unit on its way to LOCAL, with the unit's status (R301) -/
  | landing (job u st : Nat)
  /-- a user block of counters (R407) -/
  | ctrBlock
  /-- a completion record, with its due tick (R68, R218) -/
  | record (due : Nat)
  deriving DecidableEq, Repr

/-- An access of class 1 or 2 in full: partition or sequence address, bytes to write or length to read. -/
structure Access where
  cls : Nat
  use : AccUse
  part : Nat
  seq : Option Nat
  addr : Nat
  len : Nat
  bytes : List (Option Byte)
  /-- its number among those that have had to wait -/
  id : Nat
  deriving DecidableEq, Repr

/-- Coding: journal, streams, seals, gathers (R56–R122). -/
structure Coding where
  /-- the Cold frame's open entries, oldest first -/
  open_ : List Delta
  rx : List RxStream
  /-- next sequence number to a holder: key slot × 32 + role; unlisted 1 (R76) -/
  txNext : List (Nat × Nat)
  busy : List (Nat × SlotBusy)
  /-- latest member seals held for the acting manager: key slot × 32 + role (R84) -/
  mgrSeals : List (Nat × Nat)
  /-- tick in which the slot last sent its member seal -/
  sealSent : List (Nat × Nat)
  /-- acting manager role last seen, by slot (R98) -/
  actMgr : List (Nat × Nat)
  gathers : List Gather
  /-- next request tag -/
  reqTag : Nat
  /-- rows of a slot to retry after the next background pass: slot × 2^24 + row (R114) -/
  retry : List Nat
  /-- member seal last told to the acting manager, by slot (R84) -/
  sealTold : List (Nat × Nat)
  /-- coded writes stalled on a full frame or chain and counted, in order of arrival (R72, R94): who writes, slot × 2^23 + row -/
  fullWait : List (Who × Nat)
  /-- slot being dissolved, whose stalled writes complete as plain writes (R91) -/
  plain : Option Nat
  /-- accesses that wait, in arrival order (R71, R72, R80, R111, R112, R276) -/
  stalled : List Access
  /-- the number the next access that waits takes -/
  nextAcc : Nat
  /-- arrival messages of a slot, tick and role: key (slot × 32 + role), list of (tick, offset) (R121) -/
  arrivals : List (Nat × List (Nat × Nat))
  /-- report-full already raised, by slot (R118) -/
  reportFull : List Nat
  /-- repair records sent and not yet acknowledged, oldest first (R77, R108) -/
  repairs : List RepairRec
  deriving DecidableEq, Repr

/-- A flit on a lane of the port (R292, R452): channel, class, whether it is the first or last of its transaction, and the
transaction's bytes in it. -/
structure FbFlit where
  lane : Nat
  vc : Nat
  resp : Bool
  sot : Bool
  eot : Bool
  bytes : List Byte
  deriving DecidableEq, Repr

/-- A transaction of which some flits have gone: its lane and the bytes still to go (R453). -/
structure Going where
  lane : Nat
  rest : List Byte
  txn : Txn
  deriving DecidableEq, Repr

/-- What the fabric port holds and has sent (R290–R325). -/
structure Fabric where
  /-- transactions offered and not yet sent, in order of offer -/
  txq : List Txn
  /-- transactions sent whole, oldest first -/
  sent : List Txn
  /-- transactions part-sent, at most one on a channel (R309) -/
  going : List Going
  /-- the flits that have left, oldest first (R452) -/
  out : List FbFlit
  /-- flits received since EN was set: key 2 × channel + class; unlisted 0 (R453) -/
  rxGot : List (Nat × Nat)
  flight : List Flight
  /-- quarantined tags: entry × 4096 + tag (R315) -/
  quar : List Nat
  /-- outbound credits: key 2 × channel + class; unlisted 0 (R453) -/
  credits : List (Nat × Nat)
  /-- channels of the last 64 flit times, newest first, 8 for one without a flit (R309, log entry 91) -/
  history : List Nat
  /-- flits counted towards the next KiB: key 2 × channel + direction (0 sent, 1 received) -/
  flits : List (Nat × Nat)
  jobs : List FabJob
  nextJob : Nat
  /-- key failures of the last millisecond, newest first: node and hall time (R321) -/
  fails : List (Nat × Nat)
  /-- bytes each channel may still send before its next turn; unlisted 0 (R309) -/
  deficit : List (Nat × Nat)
  deriving DecidableEq, Repr

/-- A Belvedere slot (R151–R154): mode in effect, live values (NORMS: SW, SG, SU as FP64 words; SHARES: eleven counts),
elements counted, SAT, and the result bank as the window lays it out. -/
structure TlmSlot where
  mode : Nat
  vals : List Nat
  count : Nat
  sat : Bool
  result : List Byte
  deriving DecidableEq, Repr

/-- Inputs of an element: its master and gradient (clipped), its state words; none where poison. -/
structure ElemIn where
  w : Option Nat
  g : Option Nat
  m1 : Option Nat
  m2 : Option Nat
  deriving DecidableEq, Repr

/-- A group of 32 elements of an ADAGRAD_ROW row: its first element, the row's new accumulator, none when the row is poisoned, and
what was read. -/
structure RowGroup where
  elem : Nat
  acc : Option Nat
  ins : List ElemIn
  deriving DecidableEq, Repr

/-- An update pass in progress (R128, R129): what it latched and where it stands. -/
structure Pass where
  scale : Nat
  step : Nat
  seed : Nat
  /-- hyperparameter words that are not 0: set × 12 + word -/
  hp : List (Nat × Nat)
  layer : Nat
  /-- descriptor of the layer in progress -/
  desc : Option (List Byte)
  /-- next element, in the order the layer takes them -/
  pos : Nat
  /-- writes of elements already computed that have not been made yet: partition address and bytes; the due tick of the plan that
  issued them (R43, R68) -/
  todo : List (Nat × List (Option Byte))
  due : Nat
  /-- READY flags of layers of this pass -/
  flags : List Nat
  /-- Belvedere slots that received elements -/
  slots : List Nat
  /-- pages the pass reads or writes, kept from eviction (R261) -/
  pages : List Nat
  /-- it stalls on a pinned generator buffer (R148) -/
  pinned : Bool
  /-- ADAGRAD_ROW: the elements of the row read so far, and the groups of 32 of a row whose sum is known that are still to be
  written (R129, R137) -/
  ins : List ElemIn
  late : List RowGroup
  deriving DecidableEq, Repr

/-- The update unit's state for one partition. -/
structure UpdPart where
  /-- hall time of a GO not yet begun -/
  go : Option Nat
  /-- armed version and the hall time it was armed -/
  flip : Option (Nat × Nat)
  /-- boundary of the last flip -/
  flipped : Option Nat
  /-- a pass has ended since the last flip -/
  passed : Bool
  pass : Option Pass
  deriving DecidableEq, Repr

/-- A noise fill in progress (R155). -/
structure Noise where
  part : Nat
  addr : Nat
  count : Nat
  tid : Nat
  step : Nat
  seed : Nat
  dist : Nat
  half : Bool
  /-- elements written -/
  pos : Nat
  deriving DecidableEq, Repr

/-- The update unit, Belvedere and the noise generator (R123–R159). -/
structure Upd where
  parts : List UpdPart
  /-- user programs by slot (R133) -/
  progs : List (Nat × List Nat)
  /-- the 32 registers of R132 as the last operation left them -/
  file : List Nat
  tlm : List (Nat × TlmSlot)
  noise : Option Noise
  deriving DecidableEq, Repr


/-- A lane row (R160, R162): its two stationary sets by logical lane and position (element codes), which one is active,
the accumulators, the drain FIFO's entries, at most 4 (a value per lane, none where poisoned), whether the shadow set is loaded
and not yet swapped in (R173). -/
structure LaneRow where
  setA : List (List Nat)
  setB : List (List Nat)
  bActive : Bool
  acc : List Nat
  fifo : List (List (Option Nat))
  loaded : Bool
  deriving DecidableEq, Repr

/-- An open chain of a lane queue (R204, R205): the buffer it pins, the boundaries it has stayed open, the rows its
descriptors run on, whether its last descriptor has ended; the job that opened it, and its last one once that is taken. -/
structure Chain where
  part : Nat
  buf : Nat
  bounds : Nat
  rows : List Nat
  ended : Bool
  id : Nat
  last : Option Nat
  /-- a LAYER-mode descriptor of it has been taken: it is a generator pass -/
  pass : Bool
  deriving DecidableEq, Repr

/-- A lane descriptor in execution (R194–R218). -/
structure LaneJob where
  id : Nat
  queue : Nat
  part : Nat
  index : Nat
  kind : Nat
  split : Nat
  rows : List Nat
  /-- slots of its span, and the plan slot after it -/
  span : Nat
  stop : Nat
  due : Nat
  plan : Nat
  /-- the descriptor once it has been read -/
  desc : Option (List Byte)
  /-- its check has passed and its sets are loaded -/
  begun : Bool
  /-- the generator buffer its chain holds -/
  buf : Nat
  /-- it has met a late beat (R216) -/
  late : Bool
  /-- next output, bag or element -/
  pos : Nat
  /-- next output whose entries are to leave the drain FIFOs (R179) -/
  drained : Nat
  /-- samples whose stationary elements read as poison -/
  badLanes : List Nat
  /-- results still to be written: partition address, bytes, unit -/
  todo : List (Nat × List (Option Byte) × Nat)
  /-- sectors to be stored as poison after them -/
  poison : List Nat
  fails : List (Nat × Nat)
  /-- pages kept from eviction (R261) -/
  held : List Nat
  /-- units and refusal reason once it has ended -/
  out : Option (Nat × Nat)
  /-- its last try met something it had to wait for, and the LCLK cycles of its span that have passed so (R182) -/
  wait : Bool
  starved : Nat
  /-- row cycles of each group of a GATHER-POOL (R211) -/
  cyc : List Nat
  /-- bytes fetched directly (R217) -/
  direct : Nat
  /-- the chain it belongs to, by the job that opened it (R204) -/
  chain : Option Nat
  deriving DecidableEq, Repr

/-- The lane field and the lane program queues (R160–R220). -/
structure LaneField where
  /-- rows that have held something -/
  rows : List (Nat × LaneRow)
  /-- bypass masks in effect where they are not 0: row, lanes × 2^32 + columns (R185, R186) -/
  masks : List (Nat × Nat)
  /-- the pinned K-width in effect -/
  pin : Nat
  /-- row of the self-test in progress -/
  test : Option Nat
  chains : List (Nat × Chain)
  /-- chains whose last descriptor still runs while the queue has gone on to the next: queue, chain (R204) -/
  oldChains : List (Nat × Chain)
  jobs : List LaneJob
  nextJob : Nat
  /-- tail values written and not yet one slot old, newest first, by queue: hall time and value (R194) -/
  tails : List (Nat × List (Nat × Nat))
  /-- rows that logged a reserved T2 code in the current tick (R165) -/
  fmtRows : List Nat
  /-- bytes fetched directly beyond the last whole KiB counted (R217) -/
  directRem : Nat
  /-- feeder pair a trio is connected to in the current slot, and the rows it feeds: trio, pair × 8 + rows (R163) -/
  feeds : List (Nat × Nat)
  /-- row of a trio whose FIFO the drain port looks at next, where it is not the first: trio, 0 to 2 (R179) -/
  turns : List (Nat × Nat)
  /-- pages that descriptors have pinned by SEQ-mode beats and GATHER-POOL fetches that wait for their data: job, page key (R276) -/
  pins : List (Nat × Nat)
  deriving DecidableEq, Repr


/-- What a bank's cells stand at for the command interface (R223, R232). -/
structure Bank where
  /-- the open row, if any -/
  openRow : Option Nat
  /-- place in the refresh sequence of 770 commands (R232) -/
  refPos : Nat
  /-- the next plan-scheduled refresh is one of those skipped (R38) -/
  skipNext : Bool
  deriving DecidableEq, Repr

/-- A repair in force (R238): kind 1 row, 2 column group, 3 vertical lane. -/
structure Repair where
  kind : Nat
  bank : Nat
  target : Nat
  spare : Nat
  deriving DecidableEq, Repr

inductive OrgState where
  | copying | active | pendingWarm
  deriving DecidableEq, Repr

/-- An Orangery entry (R240–R242). `copied` once its copy has ended; `img` is what a FILL spare holds, by tower
address of the target it will replace. -/
structure Org where
  state : OrgState
  repair : Repair
  fill : Bool
  copied : Bool
  img : Mem
  deriving DecidableEq, Repr

/-- The retention probe in progress (R249). -/
structure Probe where
  group : Nat
  deriving DecidableEq, Repr

/-- The tower (R221–R253). -/
structure Tower where
  mem : Mem
  /-- banks by number; an unlisted bank has no row open and stands at the start of its refresh sequence -/
  banks : List (Nat × Bank)
  /-- banks some running plan refreshes (R233), as decided at the last plan swap -/
  planRef : List Nat
  /-- spares in use: bank × 64 + kind × 16 + spare (R239, R240) -/
  spares : List Nat
  repairs : List Repair
  /-- the Orangery by entry number; an unlisted entry is EMPTY -/
  orangery : List (Nat × Org)
  probe : Option Probe
  /-- bank groups whose probe row holds the alternating pattern (R249) -/
  probeRows : List Nat
  /-- cells outside the addressable rows and columns in use, which only the wrapper reaches (R244): bank, row, column -/
  test : Mem
  selfRefresh : Bool
  /-- states of R246 -/
  warn : Bool
  throttle : Bool
  critical : Bool
  /-- the critical halt has been cleared; plans resume at the next boundary (R248) -/
  resume : Bool
  /-- sensors whose last sample was faulty, 4 × layer + sensor (R245) -/
  badSensors : List Nat
  /-- lanes whose last measured eye width is 0: bank × 128 + lane, rising (R250) -/
  noEye : List Nat
  /-- command words the controller has issued, oldest first: the bank, the words of one command (R467) -/
  issued : List (Nat × List Nat)
  deriving DecidableEq, Repr

/-- A request on a channel of the external tier port whose response has not been taken (R448). -/
structure XtReq where
  chan : Nat
  tag : Nat
  gran : Nat
  wr : Bool
  /-- a write's bytes, none where its byte enable is 0 -/
  data : List (Option Byte)
  deriving DecidableEq, Repr

/-- The external tier port (R448–R451). -/
structure XtPort where
  /-- the tag a channel uses next, where not 0 -/
  next : List (Nat × Nat)
  /-- requests without a response, oldest first; each holds one of its channel's 1024 tags -/
  sent : List XtReq
  /-- requests that wait for a free tag of their channel, oldest first; their tag is still 0 -/
  queue : List XtReq
  deriving DecidableEq, Repr

/-- What a T1 or T2 frame is used for (R254, R259, R271). -/
inductive Frame where
  /-- in the pool, zeroed -/
  | free
  /-- in the pool, to be filled with zeros first -/
  | dirty
  /-- in the pool, holding what a warm start kept -/
  | kept
  /-- reserved to a partition; `clean` when it needs no zero fill before a page is mapped on it -/
  | reserved (p : Nat) (clean : Bool)
  /-- holds a page of a partition, taken from the pool -/
  | page (p pg : Nat)
  /-- holds a FIXED page of a partition, on a reserved frame -/
  | fixed (p pg : Nat)
  /-- destination of a move -/
  | moving (p pg : Nat)
  /-- the T2 home copy of a page that lives elsewhere -/
  | home (p pg : Nat)
  /-- part of a partition's map (R259) -/
  | map (p : Nat)
  /-- lent to a borrower entry's node (R282) -/
  | lent (node : Nat)
  /-- named by a poisoned PME: out of the pool until the next cold start (R258) -/
  | lost
  deriving DecidableEq, Repr

/-- The frames of one tier: unlisted frames stand at `dflt`. -/
structure Frames where
  dflt : Frame
  tab : List (Nat × Frame)
  deriving DecidableEq, Repr

/-- A move in progress (R268): the page stands at MOVING and is read and written at its source. -/
structure Move where
  part : Nat
  page : Nat
  /-- the state the page had: 2 T1, 3 T2, 4 T3 -/
  src : Nat
  /-- destination: 1 T1, 2 T2, 3 T3 -/
  tier : Nat
  /-- destination frame, or the index at the lender once granted -/
  dst : Option Nat
  /-- the lender of a move to T3, and the request number of its LOAN (R283) -/
  lender : Nat
  req : Nat
  /-- pieces of 256 bytes still to be answered, for a copy over the fabric -/
  left : Nat
  /-- pieces written meanwhile, to be copied again -/
  marks : List Nat
  keepHome : Bool
  /-- the page becomes DROPPED when no lender takes it (R272) -/
  drop : Bool
  /-- its place in the mover's order (R267): 1 a late operand's, 2 an eviction, 3 a unit of its partition's page queue -/
  prio : Nat
  deriving DecidableEq, Repr

/-- A page queue descriptor in execution (R264, R268): statuses of the units ended so far, in order. -/
structure PageJob where
  part : Nat
  index : Nat
  desc : List Byte
  ended : List Nat
  /-- some key met a multi-match (R280) -/
  multi : Bool
  /-- the result of a lookup that still waits to be written, and whether equal winners met (R279, R280) -/
  found : Option (List Byte × Bool)
  deriving DecidableEq, Repr

/-- A loan on the lender's side (R283): index told to the borrower, frame, borrower's node, request number. -/
structure Loan where
  index : Nat
  frame : Nat
  node : Nat
  req : Nat
  deriving DecidableEq, Repr

/-- A source frame that waits for the pins taken before its move ended (R268). -/
structure Linger where
  part : Nat
  page : Nat
  tier : Nat
  frame : Nat
  pins : Nat
  deriving DecidableEq, Repr

/-- Pages, translation, borrowed memory (R254–R289). -/
structure Pages where
  t1 : Frames
  t2 : Frames
  /-- granules of the external region stored as poison (R508) -/
  poison : List Nat
  /-- KV pool free pages per partition, oldest released first (R273) -/
  kvFree : List (Nat × List Nat)
  /-- KV pool pages of a partition given out for the first time, from its first page up -/
  kvUsed : List (Nat × Nat)
  moves : List Move
  jobs : List PageJob
  /-- pages accessed since the last ager pass: partition × 2^24 + page (R270) -/
  touched : List Nat
  /-- ticks since the last ager pass -/
  ageTicks : Nat
  /-- PMEs that read as poison and have been logged -/
  badPme : List Nat
  loans : List Loan
  linger : List Linger
  /-- pages in T3: partition × 2^24 + page, lender × 65536 + index -/
  borrowed : List (Nat × Nat)
  /-- next LOAN request number -/
  loanReq : Nat
  /-- pages whose PME is in the translation cache: partition × 2^24 + page (R259) -/
  cache : List Nat
  /-- pages held under R261: partition × 2^24 + page -/
  held : List Nat
  /-- pieces of pages in T3 that have arrived for a read of the engine's own: partition × 2^32 + address / 256; empty where the
  lender did not give it (R260) -/
  far : List (Nat × List (Option Byte))
  /-- pages in T3 pinned by such a read: partition × 2^24 + page (R276) -/
  farPins : List Nat
  /-- accesses that stand stalled on a page whose pins are all taken, each counted once (R276) -/
  pinWait : List Who
  /-- frames that wait for their zero fill, in the order in which they came: tier × 2^20 + frame (R267, R271) -/
  dirtied : List Nat
  /-- sectors of pages in T3 that are poison, kept with the engine's records of its T3 frames (R255, R269): page key × 1024 + sector -/
  farBad : List Nat
  deriving DecidableEq, Repr

/-- What a fragment handle holds (R333): where its data lies, its bytes and data type. -/
structure Frag where
  part : Nat
  addr : Nat
  len : Nat
  dtype : Nat
  deriving DecidableEq, Repr

/-- Bytes a collective still has to store: address, bytes, whether they are combined with what stands there, the units of the result
they belong to. -/
structure ColWrite where
  addr : Nat
  bytes : List (Option Byte)
  comb : Bool
  lo : Nat
  hi : Nat
  deriving DecidableEq, Repr

/-- A collective in execution (R326–R342). -/
structure ColJob where
  part : Nat
  index : Nat
  desc : List Byte
  group : Nat
  seq : Nat
  n : Nat
  rank : Nat
  /-- the bandwidth algorithm of R330 runs -/
  wide : Bool
  /-- the step being received, from 1; whether READY was sent for it; bytes of it that have arrived, and the pieces: place and length -/
  rcv : Nat
  asked : Bool
  got : Nat
  segs : List (Nat × Nat)
  /-- the step being sent, from 1; its data once read; bytes sent -/
  snd : Nat
  data : Option (List (Option Byte))
  sent : Nat
  /-- lane descriptors of LQUEUE completed since the start (R340) -/
  laneDone : Nat
  /-- hall time of the last progress of what it receives, and of what it sends (R342) -/
  since : Nat
  sinceSnd : Nat
  /-- hall time from which a pinned buffer has stalled it (R148, R339) -/
  pinned : Option Nat
  /-- writes that must wait -/
  todo : List ColWrite
  /-- units that failed: first, end, status -/
  bad : List (Nat × Nat × Nat)
  /-- ended with this status, the record still to be written -/
  ended : Option Nat
  /-- an ended one's result is still to be looked over for poison (R342) -/
  scan : Bool
  /-- nodes of the group's members by rank, none where the member table reads as poison (R327) -/
  nodes : List (Option Nat)
  /-- address of DST (R328, R339) -/
  dst : Nat
  /-- handle whose data has arrived and is not all written yet (R333) -/
  landing : Option Nat
  /-- a REDUCE-ADD of another COUNT has marked a handle of it FAILED (R334) -/
  failed : Bool
  deriving DecidableEq, Repr

/-- A READY or a barrier ARRIVAL held (R332): group, rank, sequence, step. -/
structure ColHeld where
  group : Nat
  rank : Nat
  seq : Nat
  step : Nat
  deriving DecidableEq, Repr

/-- The collectives engine (R326–R343). -/
structure Col where
  jobs : List ColJob
  /-- sequence of the last collective by group since its installation -/
  seqs : List (Nat × Nat)
  ready : List ColHeld
  arrived : List ColHeld
  /-- handles that are not FREE -/
  frags : List (Nat × Frag)
  /-- groups whose INSTALL waits for the read of their own entry (R327) -/
  installs : List Nat
  /-- weight broadcasts since a group's installation: group and sequence (R339) -/
  weights : List (Nat × Nat)
  deriving DecidableEq, Repr


/-- A record staged and not yet acknowledged (R355): its stage slot, sequence, bytes, resends so far. -/
structure ArcRec where
  slot : Nat
  seq : Nat
  len : Nat
  resent : Nat
  deriving DecidableEq, Repr

/-- The archive point of one partition (R348–R356). -/
structure ArcPoint where
  full : Bool
  /-- its tick, from the ARM -/
  tick : Nat
  /-- next table entry and granule of it to look at -/
  entry : Nat
  gran : Nat
  /-- data records staged -/
  count : Nat
  /-- a NEWER record has been logged -/
  warned : Bool
  recs : List ArcRec
  /-- the end record has been staged -/
  ended : Bool
  deriving DecidableEq, Repr

/-- A restore descriptor in execution (R357–R360): next record and its address, failed units, whether 0x0713 was logged. -/
structure ArcRestore where
  part : Nat
  index : Nat
  desc : List Byte
  next : Nat
  addr : Nat
  fails : List (Nat × Nat)
  logged : Bool
  deriving DecidableEq, Repr

/-- The archive (R344–R361): points by partition; bytes captured and sent beyond the last whole KiB counted. -/
structure Archive where
  points : List (Nat × ArcPoint)
  rawRem : Nat
  sentRem : Nat
  restores : List ArcRestore
  /-- change-map words that the translation cache keeps and that are still to be written back (R347): by page key, the word's tower
  address and its value -/
  words : List (Nat × Nat × Nat)
  deriving DecidableEq, Repr


/-- A switch asked for (R369): the partition that comes in, the one that goes out, the hall time of the command, whether the
boundary of step 1 has passed, whether the transfers run, the hall time at which they began. -/
structure Switch where
  seat : Nat
  inP : Nat
  outP : Option Nat
  since : Nat
  bound : Bool
  moving : Bool
  began : Nat
  /-- bytes of the outgoing image still to be written before the incoming one is read (R369) -/
  left : Nat
  deriving DecidableEq, Repr

/-- A reset in progress (R375–R377): the partition, the hall time it began, whether it held its seat, whether it waits for a
switch to end. -/
structure PartReset where
  part : Nat
  since : Nat
  seated : Bool
  waits : Bool
  deriving DecidableEq, Repr

/-- Partitions (R362–R377). -/
structure Ptc where
  switches : List Switch
  resets : List PartReset
  /-- sums of the window of R373 by partition: A and P in LCLK cycles -/
  slow : List (Nat × (Nat × Nat))
  /-- partitions that had no plan for the current tick because they were PARKED or SWITCHING (R373) -/
  idle : List Nat
  deriving DecidableEq, Repr

/-- The boundary arbiter (R378–R382). Resources are 0–511 for banks, 512–519 for channels of the external tier port. -/
structure Arb where
  /-- class-1 grants of the current window -/
  grants : Nat
  /-- the unit number after that last granted, by resource × 4 + class -/
  last : List (Nat × Nat)
  /-- the unit pre-empted and not granted since, by resource × 4 + class (R380) -/
  again : List (Nat × Nat)
  /-- open burst opportunities of a bank in its current run of 64 × 128 + grants in them, while the throttle is engaged (R247) -/
  opps : List (Nat × Nat)
  deriving DecidableEq, Repr

/-- Who sent a Kiosk request, and so where its reply goes: the window of the register port, the sideband (peer endpoint and
message tag), another engine of the host over the ring, another node over the fabric. -/
inductive KskSrc where
  | window
  | sideband (eid tag : Nat)
  | ring (inst : Nat)
  | fabric (node : Nat)
  deriving DecidableEq, Repr

/-- A request in its ring. -/
structure KskReq where
  src : KskSrc
  msg : List Byte
  deriving DecidableEq, Repr

/-- A mailbox of the Kiosk (R415–R420): request ring, reply ring, replies and notifications that wait in shared SRAM, the last
16 replies by sequence. -/
structure Mbox where
  req : List KskReq
  rep : List (List Byte)
  spill : List (List Byte)
  kept : List (Nat × List Byte)
  deriving DecidableEq, Repr

/-- What the last ageing re-plan found (R428): guard in mV, worst slowdown in 0.1 %, bank groups that failed at 64 ms and at
32 ms. -/
structure AgeResult where
  guard : Nat
  slow : Nat
  fail64 : List Nat
  fail32 : List Nat
  deriving DecidableEq, Repr

/-- An exchange of segments: the core, its hall time, whether the new segment has set ALIVE (R423, R424). -/
structure Swap where
  core : Nat
  since : Nat
  alive : Bool
  deriving DecidableEq, Repr

/-- An ageing re-plan in progress (R428): worst slowdown in 0.1 % and the guard it gives, groups still to probe at 64 ms, groups
still to probe at 32 ms, groups that failed at each, the group and interval of the probe it waits for. -/
structure Replan where
  slow : Nat
  guard : Nat
  left64 : List Nat
  left32 : List Nat
  fail64 : List Nat
  fail32 : List Nat
  asked : Option (Nat × Nat)
  deriving DecidableEq, Repr

/-- A request forwarded to a worker (R431): its instance, the request's SEQUENCE, endpoint and tag of the requester. -/
structure Forward where
  inst : Nat
  seq : Nat
  eid : Nat
  tag : Nat
  deriving DecidableEq, Repr

/-- The management complex (R411–R436). -/
structure Mgmt where
  /-- management SRAM, 512 KiB -/
  sram : Mem
  boxes : List Mbox
  /-- firmware's own sequence for notifications and requests it sends -/
  noteSeq : Nat
  /-- hall times of the watchdog restarts of each core, the latest first, at most 3 -/
  restarts : List (List Nat)
  /-- fragments of FW_STAGE received so far: mailbox, sequence, bytes -/
  frag : Option (Nat × Nat × List Byte)
  /-- cores whose segment the boot agent has copied into place -/
  placed : List Nat
  /-- the core whose activation is in progress and not yet exchanged -/
  act : Option Nat
  /-- the core last exchanged, while staging holds its previous segment -/
  swap : Option Swap
  /-- error records core 1 has drained, oldest first -/
  log : List (List Byte)
  /-- firmware's copy of the repair list -/
  repairs : List Nat
  /-- entries of REPAIR_PUT still to be applied; Orangery entries applied for it and not yet ACTIVE; row and column entries that
  APPLY refused, which keep the Kiosk from READY (R414, R243) -/
  putLeft : List Nat
  putWait : List Nat
  putBad : List Nat
  /-- the inter-core queue from core 2 to core 1: lanes that need an Orangery entry, bank × 128 + lane (R411, R428) -/
  queue : List Nat
  /-- REPAIR_PUT has been accepted since the start, and READY follows when its entries are in force -/
  putSeen : Bool
  age : AgeResult
  replan : Option Replan
  /-- requests forwarded to workers, oldest first (R431) -/
  fwd : List Forward
  /-- the endpoint that set this one's ID (R430) -/
  tray : Nat
  /-- Kiosk majors of peers, oldest and newest, from their HELLO replies: by node (R425) -/
  peers : List (Nat × (Nat × Nat))
  /-- messages sent on the sideband, oldest first -/
  sb : List (List Byte)
  /-- Kiosk messages arriving in RELAY pieces: source instance and mailbox, bytes so far -/
  relay : List (Nat × List Byte)
  deriving DecidableEq, Repr

/-- A beat of a host response (R441, R443): the place of its first byte within the beat, the bytes of the request's range
that lie in it, the poison bits of its halves. The spec gives the other bytes of a beat no value. -/
structure HostBeat where
  first : Nat
  data : List Byte
  poison : Nat
  deriving DecidableEq, Repr

/-- A response the host data port holds (R444), its beats in order. -/
structure HostRsp where
  ch : Nat
  tag : Nat
  op : Nat
  status : Nat
  beats : List HostBeat
  deriving DecidableEq, Repr

/-- The host data port (R441–R447). -/
structure HostPort where
  /-- responses not yet taken, in the order of completion -/
  rsp : List HostRsp
  /-- requests outstanding: channel × 4096 + tag, once for each -/
  busy : List Nat
  deriving DecidableEq, Repr

/-- Power, modes, the clock monitor, the gate's pin, the straps (R426, R440, R461, R464, R478–R493). -/
structure Pwr where
  /-- the last grant received and not yet in effect -/
  grant : Option Nat
  /-- level of `pse_pwr_req_tgl` -/
  reqTgl : Bool
  /-- the budget in effect is below the floor -/
  below : Bool
  /-- an accepted mode that begins at the next boundary: 0 RUN, 1 SLEEP -/
  mode : Option Nat
  /-- level of `pse_tsg_authorised` -/
  authorised : Bool
  /-- consecutive monitor windows that were out -/
  outs : Nat
  /-- the next window that serves becomes the monitor base -/
  recal : Bool
  /-- bytes the wrapper's data register has given since its instruction was loaded, oldest first (R464) -/
  wso : List Byte
  /-- the data register that the wrapper's instruction selects, bit 0 first: BYPASS 1 bit, IDCODE 32 bits (R464) -/
  wdr : List Bool
  /-- `pse_tsg_authorised` has been low since the erase began (R433) -/
  fell : Bool
  /-- activity since the last estimate, by kind, and the hall time of that estimate (R427) -/
  activity : List (Nat × Nat)
  since : Nat
  /-- this warm start has been counted as failed (R493) -/
  failed : Bool
  /-- coefficients of the fuse map, the reset values of `PWA_COEF` (R462) -/
  coefs : List Nat
  deriving DecidableEq, Repr

/-- The whole state of the engine. -/
structure State where
  /-- Register words that differ from their reset values; key = aperture offset × 65536 + item (R497, R503). -/
  regs : List (Nat × BitVec 32)
  /-- Latched upper halves; key = aperture offset of the HI register × 65536 + copy (R503). -/
  latched : List (Nat × BitVec 32)
  /-- Where the run stands. -/
  run : Run
  /-- The error unit. -/
  eru : Eru
  /-- The counters. -/
  ctr : Ctr
  /-- Time, ticks and the barrier. -/
  tick : Tick
  /-- Plans, one per partition. -/
  plans : List PlanState
  /-- The tower. -/
  tower : Tower
  /-- Engine SRAM, 24 MiB (R509). -/
  t0 : Mem
  /-- The engine-owned external region (R255); its poison list is in `pages`. -/
  ext : Mem
  /-- The external tier port. -/
  xt : XtPort
  /-- Pages and translation. -/
  pages : Pages
  /-- The model's own counter of free values used (log entry 5); not the spec's. -/
  freeCtr : Nat
  /-- Coded groups. -/
  coding : Coding
  /-- The fabric port. -/
  fab : Fabric
  /-- The host data port. -/
  host : HostPort
  /-- The update unit, Belvedere, the noise generator. -/
  upd : Upd
  /-- The lane field and the lane program queues. -/
  lane : LaneField
  /-- The collectives engine. -/
  col : Col
  /-- Messages this engine has sent on the instance ring or passed on, oldest first (R458, R459). -/
  ring : List RingMsg
  /-- Partitions. -/
  ptc : Ptc
  /-- The boundary arbiter. -/
  arb : Arb
  /-- The archive. -/
  arc : Archive
  /-- The management complex. -/
  mgmt : Mgmt
  /-- Power, modes, clock monitor, gate pin. -/
  pwr : Pwr
  /-- The partition whose queue is looked at next, where it is not the first, by kind of queue (R264, R300, R328). -/
  turns : List (Nat × Nat)
  /-- Data the last read access of a register gave. -/
  rdata : BitVec 32
  /-- `pse_reg_err` of the register port’s last access with an address of its own (R455, log entry 107). -/
  regErr : Bool
  /-- Commands waiting, first in, first out. -/
  pending : List Instr
  deriving DecidableEq, Repr

/-- Faults. No rule of the spec stops the engine in a way a step could not describe as a next state, so no meaning raises one. -/
inductive Fault where
  /-- Raised by no meaning; here so that the type is inhabited. Safe. -/
  | none
  deriving DecidableEq, Repr

/-- Refusals. -/
inductive Refusal where
  /-- A command that has no meaning yet, by its name. Safe: nothing is claimed of it. -/
  | notModelled (mnemonic : String)
  deriving DecidableEq, Repr

/-- The engine when power has just been applied and `pse_rst_cold_n` holds it in reset (R439, R493): every register at its
table's reset value, memories with nothing listed, no command waiting. -/
def State.reset : State where
  regs := []
  latched := []
  run := .heldCold
  eru := ⟨[], none, [], [], [], false⟩
  ctr := ⟨[], [], 0, false, [], [], none, []⟩
  tick := { hall := 0, synced := false, lastBoundary := none, now := 0, epoch := 0, base := 0, stPeriod := 100, stEpoch := 0, stBase := 0, commit := none, committed := false, holdover := false, goodStrobes := 0, armed := [], releases := [], released := false, unreleased := [], managerLost := false, seals := [], arrTick := 0, arrivals := [], barrier := [], checks := [] }
  plans := List.replicate 8 ⟨0, none, none, none, none, none, [], 0, [], false, [], []⟩
  tower := ⟨⟨[], []⟩, [], [], [], [], [], none, [], ⟨[], []⟩, false, false, false, false, false, [], [], []⟩
  t0 := ⟨[], []⟩
  ext := ⟨[], []⟩
  xt := ⟨[], [], []⟩
  pages := { t1 := ⟨.free, []⟩, t2 := ⟨.free, []⟩, poison := [], kvFree := [], kvUsed := [], moves := [], jobs := [], touched := [], ageTicks := 0, badPme := [], loans := [], linger := [], borrowed := [], loanReq := 0, cache := [], held := [], far := [], farPins := [], pinWait := [], dirtied := [], farBad := [] }
  freeCtr := 0
  coding := ⟨[], [], [], [], [], [], [], [], 0, [], [], [], none, [], 0, [], [], []⟩
  fab := { txq := [], sent := [], going := [], out := [], rxGot := [], flight := [], quar := [], credits := [], history := [], flits := [], jobs := [], nextJob := 0, fails := [],
           deficit := [] }
  host := ⟨[], []⟩
  upd := ⟨List.replicate 8 ⟨none, none, none, false, none⟩, [], (List.replicate 32 0).set 17 0x3F800000, [], none⟩
  lane := { rows := [], masks := [], pin := 0, test := none, chains := [], oldChains := [], jobs := [], nextJob := 0, tails := [], fmtRows := [], directRem := 0, feeds := [], turns := [], pins := [] }
  col := ⟨[], [], [], [], [], [], []⟩
  ring := []
  ptc := ⟨[], [], [], []⟩
  arb := ⟨0, [], [], []⟩
  arc := ⟨[], 0, 0, [], []⟩
  mgmt := { sram := ⟨[], []⟩, boxes := List.replicate 4 ⟨[], [], [], []⟩, noteSeq := 0, restarts := List.replicate 4 [], frag := none, placed := [], act := none, swap := none, log := [], repairs := [], putLeft := [], putWait := [], putBad := [], queue := [], putSeen := false, replan := none, fwd := [], tray := 0, age := ⟨0, 0, [], []⟩, peers := [], sb := [], relay := [] }
  pwr := ⟨none, false, false, none, false, 0, false, [], [], false, [], 0, false, []⟩
  turns := []
  rdata := 0
  regErr := false
  pending := []

end Sys2Proof.Machine
end

