-- ==== Sys2Proof/Machine/Ops.lean ====
section
/-! DEFINITION. The shared operations: registers (R497–R503), interrupts (R499, R465), counters (R399–R403),
error records (R385–R393), memories with parity and poison (R229–R231, R508). -/

namespace Sys2Proof.Machine

open Sys2Proof

/-! ### Register words -/

/-- Pages with interrupt lines: the reset value of `CAP.LINES` (R504). -/
def capLines : Nat → Nat
  | 0x01 => 0x80 | 0x02 => 0x05 | 0x04 => 0x01 | 0x05 => 0x01 | 0x06 => 0x80 | 0x07 => 0x01 | 0x08 => 0x01
  | 0x09 => 0x01 | 0x0A => 0x40 | 0x0B => 0x01 | 0x0C => 0x08 | 0x0D => 0x08 | 0x0E => 0x08 | 0x0F => 0x10
  | 0x10 => 0x10 | 0x11 => 0x10 | 0x12 => 0x21 | 0x13 => 0x01 | 0x15 => 0x01 | 0x16 => 0x01 | 0x17 => 0x20
  | 0x18 => 0x40 | 0x19 => 0x01 | 0x1A => 0x03 | 0x1B => 0x80 | 0x1C => 0x01
  | _ => 0x00

/-- `CAP` (R498, R504). -/
def capWord (p : Nat) : Nat :=
  (if p = 0x00 ∨ p = 0x03 ∨ p = 0x14 then 0 else 1) + (if p = 0x01 ∨ p = 0x12 then 2 else 0)
    + capLines p * 2 ^ 8 + clocksUsed p * 2 ^ 16

/-- Reset value of `CLK_SLEEP` (R481, R498): every used clock except LCLK, every used clock on TCK. -/
def clkSleepReset (p : Nat) : Nat := if p = Page.TCK then clocksUsed p else setBit (clocksUsed p) 0 false

/-- Reset value of `CLK_DSLEEP` (R481, R498): PCLK, also MCLK on MGC and ECLK on CTR. -/
def clkDsleepReset (p : Nat) : Nat :=
  32 + (if p = Page.MGC then 16 else 0) + (if p = Page.CTR then 2 else 0)

/-- Reset values of `FVC_BUF` by channel, in KiB: SIZE and RESP (R310, R325). -/
def fvcBufReset : Nat → Nat
  | 0 => 64 + 16 * 2 ^ 16 | 1 => 1536 + 1024 * 2 ^ 16 | 2 => 256 | 3 => 1024 + 1024 * 2 ^ 16
  | 4 => 640 + 64 * 2 ^ 16 | 5 => 192 | 6 => 128 + 16 * 2 ^ 16 | 7 => 256 + 128 * 2 ^ 16
  | _ => 0

/-- The register definition that covers an aperture offset. -/
def regDefAt (off : Nat) : Option RegDef :=
  (regTable (off / 0x1000)).find? fun d => decide (d.off ≤ off ∧ off < d.off + 4 * d.count)

/-- The word a register definition resets to. -/
def RegDef.resetWord (d : RegDef) : Nat := d.flds.foldl (fun a f => a + f.reset % 2 ^ f.width * 2 ^ f.lo) 0

/-- The reset value of the register at an aperture offset, for one item of its selectors (R498, R504). -/
def resetWord (off item : Nat) : Nat :=
  let p := off / 0x1000
  match off % 0x1000 with
  | 0x000 => if p < 0x1D then (0xC500 + p) * 2 ^ 16 + 0x0100 else 0
  | 0x004 => if p < 0x1D then capWord p else 0
  | 0x00C => if p < 0x1D then 1 else 0
  | 0x020 => clocksUsed p
  | 0x024 => clkSleepReset p
  | 0x028 => if p < 0x1D then clkDsleepReset p else 0
  | _ =>
    if off = R.CDJ_OLDEST_LO ∨ off = R.CDJ_OLDEST_HI then 0xFFFFFFFF
    else if off = R.FVC_BUF then fvcBufReset item
    else if off = R.MGC_MCTP_IANA then Config.mctpIana.toNat
    else match regDefAt off with
      | some d => d.resetWord
      | none => 0

/-- Key of a register word in `State.regs`. -/
def regKey (off item : Nat) : Nat := off * 65536 + item % 65536

/-- The reset value at a key. -/
def resetAt (k : Nat) : BitVec 32 := BitVec.ofNat 32 (resetWord (k / 65536) (k % 65536))

/-- The word of a register, for one item. -/
def State.rd (s : State) (off : Nat) (item : Nat := 0) : Nat := (spGet resetAt s.regs (regKey off item)).toNat

/-- A register word written as it stands. -/
def State.wr (s : State) (off item v : Nat) : State :=
  { s with regs := spSet resetAt s.regs (regKey off item) (BitVec.ofNat 32 v) }

/-- The value of a field. -/
def State.fget (s : State) (f : Fld) (item : Nat := 0) : Nat := bits (s.rd f.reg item) f.lo f.width

/-- Whether a one-bit field is set. -/
def State.flag (s : State) (f : Fld) (item : Nat := 0) : Bool := s.fget f item == 1

/-- A field set to a value. -/
def State.fset (s : State) (f : Fld) (item v : Nat) : State :=
  s.wr f.reg item (setBits (s.rd f.reg item) f.lo f.width v)

/-- A one-bit field set. -/
def State.set1 (s : State) (f : Fld) (item : Nat := 0) : State := s.fset f item 1

/-- A one-bit field cleared. -/
def State.set0 (s : State) (f : Fld) (item : Nat := 0) : State := s.fset f item 0

/-- A counter field advanced, wrapping at its width. -/
def State.bump (s : State) (f : Fld) (item : Nat := 0) (n : Nat := 1) : State := s.fset f item (s.fget f item + n)

/-- A field advanced, saturating at its width. -/
def State.bumpSat (s : State) (f : Fld) (item : Nat := 0) (n : Nat := 1) : State :=
  s.fset f item (min (s.fget f item + n) (2 ^ f.width - 1))

/-- The value of a 64-bit pair whose low half is `lo`. -/
def State.rd64 (s : State) (lo : Nat) (item : Nat := 0) : Nat := s.rd lo item + s.rd (lo + 4) item * 2 ^ 32

/-- A 64-bit pair written. -/
def State.wr64 (s : State) (lo item v : Nat) : State := (s.wr lo item v).wr (lo + 4) item (v / 2 ^ 32)

/-- Which copy of the selectors a path uses (R503). -/
def pathCopy : Path → Nat
  | .port => 0
  | .core _ => 1

/-- The item a register acts on for a path (R503). -/
def State.itemOf (s : State) (p : Path) (sel : List SelTerm) : Nat :=
  sel.foldl (fun a t => match t with
    | .fld f mul => a + s.fget f (pathCopy p) * mul
    | .copy mul => a + (pathCopy p) * mul) 0

/-- The partition, slot, queue … a selector field names on a path. -/
def State.sel (s : State) (p : Path) (f : Fld) : Nat := s.fget f (pathCopy p)

/-! ### Interrupts -/

/-- The lines of a page's interrupt bits: `some (some l)` routed to line l, `some none` status only, `none` undefined. -/
def irqRoute (page b : Nat) : Option (Option Nat) :=
  let line (l : Nat) (bs so : List Nat) : Option (Option Nat) :=
    if bs.contains b then some (some l) else if so.contains b then some none else none
  match page with
  | 0x01 => line 7 [0, 1] [2]
  | 0x02 => if b = 0 then some (some 2) else line 0 [1, 2, 3] [4]
  | 0x04 => line 0 [0] [1]
  | 0x05 => line 0 [0, 1, 2, 3] []
  | 0x06 => line 7 [0, 1, 2, 3] []
  | 0x07 => line 0 [0, 1, 2] [3]
  | 0x08 => line 0 [0, 1, 2] [3]
  | 0x09 => line 0 [0, 1, 2, 3] [4, 5]
  | 0x0A => line 6 [0] []
  | 0x0B => line 0 [0, 1] [2]
  | 0x0C => line 3 [0, 1, 2] []
  | 0x0D => line 3 [0, 1, 2] []
  | 0x0E => line 3 [0, 1, 2, 3] []
  | 0x0F => line 4 [0, 1, 2, 3, 5] [4]
  | 0x10 => line 4 [0] []
  | 0x11 => line 4 [0] []
  | 0x12 => if b = 3 then some (some 5) else line 0 [0, 1, 2, 5] [4]
  | 0x13 => line 0 [0] []
  | 0x15 => line 0 [0, 1, 3] [2]
  | 0x16 => line 0 [0, 1, 2, 5] [3, 4]
  | 0x17 => line 5 [0, 1, 2, 3, 4] []
  | 0x18 => line 6 [0, 1, 2] []
  | 0x19 => line 0 [0, 1, 2] []
  | 0x1A => if b = 2 then some (some 0) else line 1 [0, 1] []
  | 0x1B => line 7 [0, 1] []
  | 0x1C => line 0 [0, 1] []
  | _ => none

/-- The defined interrupt bits of a page as a mask. -/
def irqMask (page : Nat) : Nat := (List.range 32).foldl (fun a b => if (irqRoute page b).isSome then a + 2 ^ b else a) 0

abbrev irqStatOff (page : Nat) : Nat := page * 0x1000 + 0x010
abbrev irqEnOff (page : Nat) : Nat := page * 0x1000 + 0x014
abbrev errCntOff (page : Nat) : Nat := page * 0x1000 + 0x01C
abbrev lockOff (page : Nat) : Nat := page * 0x1000 + 0x030

/-- An event sets its bit of `IRQ_STAT` whatever `IRQ_EN` holds (R499). -/
def State.irq (s : State) (page b : Nat) : State := s.wr (irqStatOff page) 0 (setBit (s.rd (irqStatOff page)) b true)

/-! ### Counters -/

/-- A programmable counter counts `n` occurrences, wrapping at 2^48 (R400, R402). -/
def State.countOne (s : State) (c n : Nat) : State :=
  let v := (alGet s.ctr.prog c).getD 0 + n
  let s1 := { s with ctr := { s.ctr with prog := spSet (fun _ => 0) s.ctr.prog c (v % 2 ^ 48) } }
  if v < 2 ^ 48 then s1
  else
    let r := if c < 32 then R.CTR_OVF_LO else R.CTR_OVF_HI
    let s2 := s1.wr r 0 (setBit (s1.rd r) (c % 32) true)
    if s2.flag F.CTR_CFG_IRQ_OVF c then s2.irq Page.CTR 0 else s2

/-- Counters whose `CTR_CFG` differs from its reset value. -/
def State.ctrsSet (s : State) : List Nat :=
  s.regs.filterMap fun e => if e.1 / 65536 = R.CTR_CFG then some (e.1 % 65536) else none

/-- Activity the governor's estimate counts (R427), by kind: 0 tower beats, 1 fabric flits, 2 port beats, from 8 on lane row-cycles by
operation and format. -/
def State.active (s : State) (kind n : Nat) : State :=
  if n = 0 then s
  else { s with pwr := { s.pwr with activity := spSet (fun _ => 0) s.pwr.activity kind ((alGet s.pwr.activity kind).getD 0 + n) } }

/-- `n` occurrences of an event of R400, for a partition when it belongs to one. Frozen counters do not count (R405). -/
def State.event (s : State) (ev : Nat) (part : Option Nat := none) (n : Nat := 1) : State :=
  if s.ctr.frozen then s
  else s.ctrsSet.foldl (fun s c =>
    if s.flag F.CTR_CFG_ENABLE c && s.fget F.CTR_CFG_EVENT c == ev
        && (!s.flag F.CTR_CFG_PART_EN c || part == some (s.fget F.CTR_CFG_PART c))
    then s.countOne c n else s) s

/-- A top-down counter of a RESIDENT partition advanced: 0 retired, 1 wasted, 2 front-starved, 3 back-starved (R182, R399). -/
def State.topDown (s : State) (p cls n : Nat) : State :=
  if s.ctr.frozen ∨ s.fget F.PTC_STAT_STATE p ≠ 2 then s
  else
    let v := (((alGet s.ctr.topDown (4 * p + cls)).getD 0) + n) % 2 ^ 64
    { s with ctr := { s.ctr with topDown := spSet (fun _ => 0) s.ctr.topDown (4 * p + cls) v } }

/-! ### Seals and error records -/

/-- Due ticks of class-0 writes that plans of a partition issued and that still have to be made: of the update pass, of lane descriptors
and their records, of records that wait (R71, R83). -/
def State.writesDue (s : State) (p : Nat) : List Nat :=
  (match (s.upd.parts[p]?).bind (·.pass) with
    | some x => if x.todo.isEmpty then [] else [x.due]
    | none => [])
  ++ (s.lane.jobs.filter (·.part == p)).map (·.due)
  ++ s.coding.stalled.filterMap fun a => match a.use with
    | .record due => if a.cls = 0 ∧ a.part = p then some due else none
    | _ => none

/-- The latest tick for which a partition's plan work has ended, its writes made, and whose next boundary has passed (R83, first
condition). -/
def State.planDone (s : State) (p : Nat) : Nat :=
  match s.plans[p]? with
  | none => s.tick.now - 1
  | some ps =>
    let dues := (ps.running.toList ++ ps.waiting).map (·.due) ++ s.writesDue p
    dues.foldl (fun a d => min a (d - 1)) (s.tick.now - 1)

/-- The first condition of R83 over every partition that is not EMPTY. -/
def State.allPlansDone (s : State) : Nat :=
  (List.range 8).foldl (fun a p => if s.fget F.PTC_STAT_STATE p = 0 then a else min a (s.planDone p)) (s.tick.now - 1)

/-- Group slots in a state of `CDE_GRP_STAT`. -/
def State.slotsIn (s : State) (st : Nat) : List Nat := (List.range 16).filter fun g => s.fget F.CDE_GRP_STAT_STATE g == st

/-- The engine's tick seal (R18, R83): over the groups whose installation is complete (R85, R89). -/
def State.engineSeal (s : State) : Nat :=
  match (s.slotsIn 1).filter fun g => !s.flag F.CDE_GRP_STAT_BUSY g with
  | [] => s.allPlansDone
  | g :: gs => gs.foldl (fun a g => min a (s.rd64 R.CDE_MBR_SEAL_LO g)) (s.rd64 R.CDE_MBR_SEAL_LO g)

/-- What a unit says when it reports an error; the rest of the record is the engine's. -/
structure ErrIn where
  block : Nat
  code : Nat
  sev : Nat
  part : Option Nat := none
  kind : Nat := 0
  addr : Nat := 0
  detail : List Nat := []
  nested : Bool := false
  injected : Bool := false
  deriving DecidableEq, Repr

/-- The 64 bytes of a record (R386). -/
def ErrRec.bytes (e : ErrRec) : List Byte :=
  withCrc (leBytes 2 e.code ++ leBytes 1 e.sev ++ leBytes 1 e.block
    ++ leBytes 1 (match e.part with | none => 0 | some p => 0x80 + p % 8)
    ++ leBytes 1 (e.addrKind % 16 + (if e.nested then 16 else 0) + (if e.injected then 32 else 0))
    ++ leBytes 2 e.suppressed ++ leBytes 8 e.addr ++ leBytes 8 e.hall ++ leBytes 8 e.tick ++ leBytes 8 e.tickSeal
    ++ (padTo 4 0 e.detail).flatMap (leBytes 4) ++ leBytes 4 e.seq)

/-- A record enters the queue, or is lost when 32 are queued (R387). -/
def State.enqueue (s : State) (r : ErrRec) : State :=
  if s.eru.queue.length < 32 then
    let s1 := { s with eru := { s.eru with queue := s.eru.queue ++ [r] } }
    if s.eru.queue.isEmpty then s1.irq Page.ERU 0 else s1
  else ((s.bump F.ERU_LOST_COUNT).set1 F.ERU_STAT_OVERFLOW).irq Page.ERU 1

/-- The first fatal record since FATAL was clear is latched (R390). -/
def State.latchFatal (s : State) (r : ErrRec) : State :=
  if s.flag F.ERU_STAT_FATAL then s
  else (({ s with eru := { s.eru with latch := some r } }).set1 F.ERU_STAT_FATAL).irq Page.ERU 2

/-- A detected error: its record enters the queue or is lost; the fatal latch, the counters and the interrupt bits
follow (R386–R390). -/
def State.logErr (s : State) (e : ErrIn) : State :=
  let r : ErrRec := {
    code := e.code, sev := e.sev, block := e.block, part := e.part, addrKind := e.kind, nested := e.nested,
    injected := e.injected, suppressed := min ((alGet s.eru.suppressed e.code).getD 0) 0xFFFF, addr := e.addr,
    hall := s.tick.hall, tick := s.tick.now, tickSeal := s.engineSeal, detail := padTo 4 0 e.detail,
    seq := s.rd R.ERU_SEQ_NEXT }
  let s := { s with eru := { s.eru with suppressed := alDel s.eru.suppressed e.code } }
  let s := s.bump F.ERU_SEQ_NEXT_SEQ
  let s := s.wr (errCntOff e.block) 0 (s.rd (errCntOff e.block) + 1)
  let s := s.event (e.block * 256) e.part
  let s := s.enqueue r
  if e.sev = 2 then s.latchFatal r else s

/-- An error limited to once per interval under `key`; further occurrences are counted as suppressed (R386). The
interval's end clears the key (`State.clearOnce`). -/
def State.logOnce (s : State) (key : Nat) (e : ErrIn) : State :=
  if s.eru.once.contains key then
    let n := min (((alGet s.eru.suppressed e.code).getD 0) + 1) 0xFFFF
    { s with eru := { s.eru with suppressed := alPut s.eru.suppressed e.code n } }
  else ({ s with eru := { s.eru with once := nsAdd s.eru.once key } }).logErr e

/-- Whether a millisecond has passed since a hall time (log entry 80: DEDUCED); a time that lies ahead, the clock having been set
back, is past. -/
def State.msSince (s : State) (t : Nat) : Bool := decide (t + 1000000 ≤ s.tick.hall) || decide (s.tick.hall < t)

/-- An error recorded at most once in any millisecond; further occurrences are counted as suppressed (R303, R386, R417). -/
def State.logMs (s : State) (e : ErrIn) : State :=
  if (alGet s.eru.lastAt e.code).any fun t => !s.msSince t then
    let n := min (((alGet s.eru.suppressed e.code).getD 0) + 1) 0xFFFF
    { s with eru := { s.eru with suppressed := alPut s.eru.suppressed e.code n } }
  else ({ s with eru := { s.eru with lastAt := alPut s.eru.lastAt e.code s.tick.hall } }).logErr e

/-- The interval of the once keys that `f` selects ends. -/
def State.clearOnce (s : State) (f : Nat → Bool) : State :=
  { s with eru := { s.eru with once := s.eru.once.filter fun k => !f k } }

/-! ### Free values -/

/-- A free value and the state in which the next one is another (log entry 5). -/
def State.free (s : State) : Nat × State :=
  ((Config.freeValue s.freeCtr).toNat, { s with freeCtr := s.freeCtr + 1 })

/-- `n` free words, as bytes. -/
def State.freeBytes : Nat → State → List Byte × State
  | 0, s => ([], s)
  | n + 1, s => match s.free with
    | (v, s) => match State.freeBytes n s with
      | (l, s) => (leBytes 8 v ++ l, s)

/-! ### Memories -/

/-- A byte as stored; unlisted bytes are 0. -/
def Mem.byte (m : Mem) (a : Nat) : Byte := (alGet m.cells a).getD 0

/-- Whether a byte's stored parity differs from R229's value. -/
def Mem.isBad (m : Mem) (a : Nat) : Bool := nsMem m.bad a

/-- A byte stored with valid parity. -/
def Mem.put (m : Mem) (a : Nat) (b : Byte) : Mem :=
  ⟨spSet (fun _ => 0) m.cells a b, nsDel m.bad a⟩

/-- A byte stored with inverted parity. -/
def Mem.putBad (m : Mem) (a : Nat) (b : Byte) : Mem :=
  ⟨spSet (fun _ => 0) m.cells a b, nsAdd m.bad a⟩

/-- Bytes stored from an address up. -/
def Mem.puts (m : Mem) (a : Nat) : List Byte → Mem
  | [] => m
  | b :: bs => (m.put a b).puts (a + 1) bs

/-- The bytes from an address up. -/
def Mem.bytes (m : Mem) (a n : Nat) : List Byte := (List.range n).map fun i => m.byte (a + i)

/-- A range filled with zeros and valid parity (R236, R271). -/
def Mem.zero (m : Mem) (a n : Nat) : Mem :=
  ⟨m.cells.filter fun c => !(decide (a ≤ c.1) && decide (c.1 < a + n)),
   m.bad.filter fun b => !(decide (a ≤ b) && decide (b < a + n))⟩

/-- A 64-byte sector stored as poison (R231). -/
def Mem.poisonSector (m : Mem) (sec : Nat) : Mem :=
  (List.range 64).foldl (fun m i => m.putBad (64 * sec + i) 0xFF) m

/-- Cells put back as raw data and parity, as a copy keeps them (R241). -/
def Mem.putRaw (m : Mem) (a : Nat) (b : Byte) (badParity : Bool) : Mem := if badParity then m.putBad a b else m.put a b

/-- A range copied, data and parity as stored. -/
def Mem.copyRaw (m src : Mem) (src0 dst n : Nat) : Mem :=
  let z := m.zero dst n
  let inR (a : Nat) : Bool := decide (src0 ≤ a) && decide (a < src0 + n)
  let z := (src.cells.filter fun c => inR c.1).foldl (fun z c => z.put (dst + (c.1 - src0)) c.2) z
  (src.bad.filter inR).foldl (fun z a => z.putBad (dst + (a - src0)) (src.byte a)) z

/-- The canonical form: addresses strictly rising, no byte listed that reads as an unlisted one. -/
def Mem.wf (m : Mem) : Bool := spWf (fun _ => (0 : Byte)) m.cells && nsWf m.bad

/-- How a sector reads (R230, R231). -/
inductive SecRead where
  | clean | poison | parity
  deriving DecidableEq, Repr

/-- How sector `sec` reads from a memory with byte parity, in a coded region or not (R231). -/
def Mem.secRead (m : Mem) (coded : Bool) (sec : Nat) : SecRead :=
  let bad := m.bad.filter fun a => a / 64 == sec
  if bad.isEmpty then .clean
  else if bad.all (fun a => m.byte a == 0xFF) && (!coded || bad.length == 64) then .poison
  else .parity

/-- A write of valid bytes over part or all of a sector of an uncoded region: bytes written take valid parity, the
others keep theirs, so a poisoned sector stays poisoned until one write covers it (R231). -/
def Mem.maskPut (m : Mem) (a : Nat) : List (Option Byte) → Mem
  | [] => m
  | none :: bs => m.maskPut (a + 1) bs
  | some b :: bs => (m.put a b).maskPut (a + 1) bs

end Sys2Proof.Machine
end

