-- ==== Sys2Proof/Machine/Tower.lean ====
section
/-! DEFINITION. The tower (R221–R253): addresses, accesses with parity and poison, refresh, repair, temperature, probes. -/

namespace Sys2Proof.Machine

open Sys2Proof

/-! ### Addresses (R222) -/

/-- Bank of a tower byte address. -/
def tBank (a : Nat) : Nat := 2 * bits a 12 8 + bits a 11 1

/-- Row of a tower byte address. -/
def tRow (a : Nat) : Nat := bits a 20 13

/-- Byte within the 2 KiB row. -/
def tCol (a : Nat) : Nat := bits a 0 11

/-- The tower byte address of a bank's row and column. -/
def tAddr (bank row col : Nat) : Nat := row * 2 ^ 20 + bank / 2 * 2 ^ 12 + bank % 2 * 2 ^ 11 + col % 2 ^ 11

/-- Bytes of the tower. -/
def towerSize : Nat := 6 * 2 ^ 30

/-- Bytes of the engine-owned external region (R255). -/
def extSize : Nat := 24000000000

/-- The layer of a bank (R221). -/
def layerOf (bank : Nat) : Nat := bank / 64

/-! ### Banks -/

/-- A bank nothing has addressed yet. -/
def bankIdle : Bank := ⟨none, 0, false⟩

def State.bank (s : State) (b : Nat) : Bank := spGet (fun _ => bankIdle) s.tower.banks b

def State.setBank (s : State) (b : Nat) (k : Bank) : State :=
  { s with tower := { s.tower with banks := spSet (fun _ => bankIdle) s.tower.banks b k } }

/-! ### Accesses -/

/-- The tier of a byte: the tower, or the external region. -/
inductive Tier where
  | t1 | t2
  deriving DecidableEq, Repr

/-- The `TTH_TEMP` half of a layer. -/
def tempField (layer : Nat) : Fld := ⟨R.TTH_TEMP_01 + 4 * (layer / 2), 16 * (layer % 2), 16⟩

/-- Whether a repair's target covers a tower address (R238; vertical lanes cover no address of their own). -/
def Repair.covers (r : Repair) (a : Nat) : Bool :=
  tBank a == r.bank && (if r.kind = 1 then tRow a == r.target else r.kind == 2 && tCol a / 8 == r.target)

/-- Sector numbers an access touches. -/
def sectorsOf (a n : Nat) : List Nat := if n = 0 then [] else (List.range ((a + n - 1) / 64 - a / 64 + 1)).map (· + a / 64)

/-- The frames of a tier. -/
def State.frames (s : State) : Tier → Frames
  | .t1 => s.pages.t1
  | .t2 => s.pages.t2

def Frames.get (f : Frames) (k : Nat) : Frame := spGet (fun _ => f.dflt) f.tab k

/-- The partition a frame belongs to, if any. -/
def Frame.part : Frame → Option Nat
  | .reserved p _ => some p
  | .page p _ => some p
  | .fixed p _ => some p
  | .moving p _ => some p
  | .home p _ => some p
  | .map p => some p
  | _ => none

/-- The partition that a frame of the tower belongs to: its sectors' reads and writes are events of it (R400). -/
def State.towerPart (s : State) (f : Nat) : Option Nat := (s.pages.t1.get f).part

/-- Sectors of a byte range of the tower written, those that `hit` holds of, counted for the partitions of their frames (R400 event
0x0402). -/
def State.secsWritten (s : State) (a n : Nat) (hit : Nat → Bool := fun _ => true) : State :=
  if n = 0 then s
  else
    (List.range ((a + n - 1) / 65536 - a / 65536 + 1)).foldl (fun s i =>
      let f := a / 65536 + i
      let lo := max (a / 64) (1024 * f)
      let hi := min ((a + n - 1) / 64) (1024 * f + 1023)
      let n := ((List.range (hi + 1 - lo)).filter fun x => hit (lo + x)).length
      (s.active 0 n).event 0x0402 (s.towerPart f) n) s

/-- A masked write of valid bytes at the tower's cells, counted; entries being copied with FILL take it too (R241). -/
def State.towerPut (s : State) (a : Nat) (bs : List (Option Byte)) : State :=
  let both (e : Nat × Org) : Nat × Org :=
    if e.2.state == .copying && e.2.fill then
      let masked := bs.mapIdx fun i b => if e.2.repair.covers (a + i) then b else none
      (e.1, { e.2 with img := e.2.img.maskPut a masked })
    else e
  let wrote (x : Nat) : Bool := ((bs.drop (64 * x - a)).take (64 - (a - 64 * x))).any (·.isSome)
  ({ s with tower := { s.tower with mem := s.tower.mem.maskPut a bs, orangery := s.tower.orangery.map both } }).secsWritten a bs.length wrote

/-- After a change to a whole range of the tower, the FILL spares being copied hold what it left in their targets (R241). -/
def State.mirrorFill (s : State) (a n : Nat) : State :=
  let hit (o : Org) (x : Nat) : Bool := decide (a ≤ x) && decide (x < a + n) && o.repair.covers x
  let m := s.tower.mem
  let both (e : Nat × Org) : Nat × Org :=
    if e.2.state == .copying && e.2.fill then
      let z : Mem := ⟨e.2.img.cells.filter fun c => !hit e.2 c.1, e.2.img.bad.filter fun x => !hit e.2 x⟩
      let z := (m.cells.filter fun c => hit e.2 c.1).foldl (fun z c => z.put c.1 c.2) z
      (e.1, { e.2 with img := (m.bad.filter fun x => hit e.2 x).foldl (fun z x => z.putBad x (m.byte x)) z })
    else e
  if s.tower.orangery.isEmpty then s
  else { s with tower := { s.tower with orangery := s.tower.orangery.map both } }

/-- The slots of 4 KiB that a group's region takes: whether an address of a tier lies in it (R58, R91). -/
def State.inRegion (s : State) (g : Nat) (t : Tier) (a : Nat) : Bool :=
  s.fget F.CDE_GRP_STAT_STATE g != 0 &&
  (s.fget F.CDE_GRP_CFG_TIER g == (match t with | .t1 => 0 | .t2 => 1)) &&
  (let b := s.fget F.CDE_GRP_BASE_BASE g
   decide (b ≤ a / 4096) && decide (a / 4096 < b + s.fget F.CDE_GRP_ROWS_ROWS g))

/-- The group slot whose coded region an address lies in, if any. -/
def State.codedAt (s : State) (t : Tier) (a : Nat) : Option Nat := (List.range 16).find? fun g => s.inRegion g t a

/-! ### The external tier port (R448, R451) -/

/-- Requests of a channel that hold a tag. -/
def XtPort.held (x : XtPort) (c : Nat) : List XtReq := x.sent.filter fun r => r.chan == c

/-- A request goes out on its channel under the channel's next free tag, from the one after the last given on. -/
def XtPort.issue (x : XtPort) (r : XtReq) : XtPort :=
  let c := r.chan
  let n := (alGet x.next c).getD 0
  let busy := x.held c
  match ((List.range 1024).map fun i => (n + i) % 1024).find? fun t => !busy.any fun q => q.tag == t with
  | some t => { x with next := alPut x.next c ((t + 1) % 1024), sent := x.sent ++ [{ r with tag := t }] }
  | none => { x with queue := x.queue ++ [r] }

/-- Requests that wait go out while their channel has a tag free, those of a channel in order (R451). -/
def XtPort.drain (x : XtPort) (c : Nat) : XtPort :=
  let k := 1024 - (x.held c).length
  let go := (x.queue.filter fun r => r.chan == c).take k
  let stay := ((x.queue.filter fun r => r.chan == c).drop k) ++ x.queue.filter fun r => r.chan != c
  go.foldl XtPort.issue { x with queue := stay }

/-- A request for a granule on its channel, with a write's bytes and enables: under a free tag of the channel, behind those that wait
for one (R448, R451). The engine's access takes the region's bytes at once (log entry 71: a DESIGN CHOICE). -/
def State.xtSend (s : State) (wr : Bool) (g : Nat) (data : List (Option Byte) := []) : State :=
  let r : XtReq := ⟨g % 8, 0, g, wr, data⟩
  let s := s.active 2 1
  { s with xt := if s.xt.queue.any fun q => q.chan == g % 8 then { s.xt with queue := s.xt.queue ++ [r] } else s.xt.issue r }

/-- Read requests for a run of granules. -/
def State.xtRun (s : State) (gs : List Nat) : State := gs.foldl (fun s g => s.xtSend false g) s

/-- Write requests for whole granules, with the bytes that the region then holds. -/
def State.xtStore (s : State) (gs : List Nat) : State :=
  gs.foldl (fun s g => s.xtSend true g ((s.ext.bytes (64 * g) 64).map some)) s

/-- The requests left by a response to the oldest request of a kind for a granule: those for it before that one have been answered
too (R449). -/
def xtTake (g : Nat) (wr : Bool) : List XtReq → List XtReq
  | [] => []
  | x :: l => if x.gran == g then (if x.wr == wr then l else xtTake g wr l) else x :: xtTake g wr l

/-- A response is taken: its request gives its tag back, for one that waits (R451). -/
def State.xtAnswer (s : State) (wr : Bool) (g : Nat) : State :=
  if s.xt.sent.any fun x => x.gran == g && x.wr == wr then
    { s with xt := ({ s.xt with sent := xtTake g wr s.xt.sent } : XtPort).drain (g % 8) }
  else s

/-- A sector of an uncoded tower region found with a parity error: rewritten as poison, logged and counted (R230). -/
def State.parityPoison (s : State) (sec : Nat) : State :=
  let s := (({ s with tower := { s.tower with mem := s.tower.mem.poisonSector sec } }).mirrorFill (64 * sec) 64).secsWritten (64 * sec) 64
  let s := (s.bump F.TWC_PAR_CNT_COUNT).irq Page.TWC 0
  let a := 64 * sec
  s.logErr { block := Page.TWC, code := 0x0101, sev := 1, kind := 1, addr := a,
             detail := [tBank a, tRow a, s.fget (tempField (layerOf (tBank a))),
                        2 ^ (tCol a / 64) % 2 ^ 32] }

/-- What a read of bytes found: each byte, or none where its sector reads as poison; and the coded sectors with a
parity error, which are erasures (R230, R115). -/
structure Read where
  bytes : List (Option Byte)
  erased : List Nat
  deriving DecidableEq, Repr

/-- One sector read with its parity check (R230, R231): the state after it, whether it reads as poison, whether it is an erasure. -/
def State.readSec (s : State) (t : Tier) (sec : Nat) : State × Bool × Bool :=
  match t with
  | .t2 =>
    let s := s.xtSend false sec
    if nsMem s.pages.poison sec then ((s.bump F.TWC_POISON_CNT_COUNT).irq Page.TWC 1, true, false) else (s, false, false)
  | .t1 =>
    let s := (s.active 0 1).event 0x0401 (s.towerPart (sec / 1024))
    let coded := (s.codedAt .t1 (64 * sec)).isSome
    match s.tower.mem.secRead coded sec with
    | .clean => (s, false, false)
    | .poison => ((s.bump F.TWC_POISON_CNT_COUNT).irq Page.TWC 1, true, false)
    | .parity => if coded then (s, false, true) else (s.parityPoison sec, true, false)

/-- The memory of a tier. -/
def State.tierMem (s : State) : Tier → Mem
  | .t1 => s.tower.mem
  | .t2 => s.ext

/-- Bytes read from a tier (R230, R231, R508). -/
def State.readTier (s : State) (t : Tier) (a n : Nat) : State × Read :=
  let (s, pois, erased) := (sectorsOf a n).foldl (fun (acc : State × List Nat × List Nat) sec =>
    let (s, p, e) := acc.1.readSec t sec
    (s, if p then sec :: acc.2.1 else acc.2.1, if e then sec :: acc.2.2 else acc.2.2)) (s, [], [])
  let m := s.tierMem t
  (s, ⟨(List.range n).map fun i => if pois.contains ((a + i) / 64) then none else some (m.byte (a + i)), erased.reverse⟩)

/-- Bytes written to an uncoded place of a tier; `none` leaves a byte (R226, R231, R508). -/
def State.writeTier (s : State) (t : Tier) (a : Nat) (bs : List (Option Byte)) : State :=
  match t with
  | .t1 => s.towerPut a bs
  | .t2 =>
    let whole (sec : Nat) : Bool := (List.range 64).all fun i =>
      let x := 64 * sec + i
      decide (a ≤ x) && decide (x < a + bs.length) && ((bs[x - a]?).join).isSome
    let s := (sectorsOf a bs.length).foldl (fun s sec => s.xtSend true sec
      ((List.range 64).map fun i => let x := 64 * sec + i; if x < a then none else (bs[x - a]?).join)) { s with ext := s.ext.maskPut a bs }
    { s with pages := { s.pages with poison := s.pages.poison.filter fun sec => !((sectorsOf a bs.length).contains sec && whole sec) } }

/-- Bytes of a descriptor, table or ring that the engine reads: poison shows as 0xFF (R231). -/
def Read.raw (r : Read) : List Byte := r.bytes.map (·.getD 0xFF)

/-- Whether some byte read as poison. -/
def Read.poisoned (r : Read) : Bool := r.bytes.any (·.isNone)

/-! ### Refresh (R232–R235, R250) -/

/-- `TWC_REF_CTRL.HALF` brought up to date: the skipping of R38 applies while neither warn nor the critical halt is in
force and FULL is 0 (R251). -/
def State.updHalf (s : State) : State :=
  s.fset F.TWC_REF_CTRL_HALF 0 (if s.tower.warn || s.tower.critical || s.flag F.TWC_REF_CTRL_FULL then 0 else 1)

/-- Lowest eye width above 0 over the lanes measured so far: width, bank, lane. -/
def State.eyeMin (s : State) : Nat × Nat × Nat :=
  s.regs.foldl (fun best e =>
    if e.1 / 65536 = R.TWR_EYE then
      let it := e.1 % 65536
      if e.2.toNat < best.1 then (e.2.toNat, it / 128, it % 128) else best
    else best) (128, 0, 0)

/-- Eye widths of a bank's lanes, in 1/64 UI, recorded (R250). -/
def State.recordEyes (s : State) (b : Nat) (eyes : List Nat) : State :=
  if eyes.isEmpty then s
  else
    let s := (List.zipIdx (eyes.take 74)).foldl (fun (s : State) e => s.fset F.TWR_EYE_WIDTH (b * 128 + e.2) e.1) s
    let old := s.tower.noEye.filter fun k => k / 128 != b || decide (eyes.length ≤ k % 128)
    let dead := (List.zipIdx (eyes.take 74)).foldl (fun l e => if e.1 = 0 then nsAdd l (b * 128 + e.2) else l) old
    let s := { s with tower := { s.tower with noEye := dead } }
    let (w, mb, ml) := match dead with
      | k :: _ => (0, k / 128, k % 128)
      | [] => s.eyeMin
    ((s.fset F.TWR_EYE_MIN_WIDTH 0 w).fset F.TWR_EYE_MIN_BANK 0 mb).fset F.TWR_EYE_MIN_LANE 0 ml

/-! ### Command words (R467) -/

/-- The first word of a command on a bank: its code, the bank of the feeder pair, its fields. -/
def cmdWord (code b fields : Nat) : Nat := code * 2 ^ 13 + b % 2 * 2 ^ 12 + fields

/-- Words issued to a bank's feeder pair. -/
def State.issue (s : State) (b : Nat) (ws : List Nat) : State := { s with tower := { s.tower with issued := s.tower.issued ++ [(b, ws)] } }

/-- The row that ACT names for a row of a bank: the spare of one that is repaired (R467). -/
def State.issuedRow (s : State) (b r : Nat) : Nat :=
  match s.tower.repairs.find? fun q => q.kind == 1 && q.bank == b && q.target == r with
  | some q => 6144 + q.spare
  | none => r

/-- The fields of RD, WR and WRM for a sector of a bank: one command, or one with SUB for each beat of 8 bytes whose column group is
repaired (R467; log entry 95: DESIGN CHOICE). -/
def State.issuedCols (s : State) (b sec : Nat) : List Nat :=
  let subs := (List.range 8).filterMap fun beat =>
    (s.tower.repairs.find? fun q => q.kind == 2 && q.bank == b && q.target == 8 * sec + beat).map
      fun q => sec + q.spare * 2 ^ 5 + 2 ^ 7 + beat * 2 ^ 8
  if subs.isEmpty then [sec] else subs

/-- The mask words of WRM: byte e in bit e mod 16 of word e/16. -/
def maskWords (be : Nat → Bool) : List Nat :=
  (List.range 4).map fun w => (List.range 16).foldl (fun a i => if be (16 * w + i) then a + 2 ^ i else a) 0

/-- A read or a write of a sector issued: RD, WR where every byte is written, WRM otherwise. -/
def State.issueRd (s : State) (b sec : Nat) : State := (s.issuedCols b sec).foldl (fun s f => s.issue b [cmdWord 2 b f]) s

def State.issueWr (s : State) (b sec : Nat) (be : Nat → Bool) : State :=
  (s.issuedCols b sec).foldl (fun s f =>
    s.issue b (if (List.range 64).all be then [cmdWord 3 b f] else cmdWord 4 b f :: maskWords be)) s

/-- One REF to a bank: the next 8 rows of its sequence of 770 commands, and its eyes measured (R232, R250). -/
def State.refBank (s : State) (b : Nat) (eyes : List Nat) : State :=
  if s.tower.selfRefresh then s
  else
    let k := s.bank b
    ((s.issue b [cmdWord 6 b (if eyes.isEmpty then 0 else 2), k.refPos]).setBank b
      { k with openRow := none, refPos := (k.refPos + 1) % 770 }).recordEyes b eyes

/-- A scheduled refresh: performed, or every second one skipped while HALF reads 1 (R38; the first is performed, log entry 20). -/
def State.planRefresh (s : State) (b : Nat) (eyes : List Nat) : State :=
  let k := s.bank b
  if s.flag F.TWC_REF_CTRL_HALF then
    if k.skipNext then s.setBank b { k with skipNext := false }
    else (s.refBank b eyes).setBank b { (s.refBank b eyes).bank b with skipNext := true }
  else s.refBank b eyes

/-- Whether the scheduled plane is halted: no entry of a plan does work (R248). -/
def State.planeHalted (s : State) : Bool := s.tower.critical || s.tower.resume

/-- The banks that running plans refresh, as decided at a plan swap (R233). -/
def State.setPlanRef (s : State) (bs : List Nat) : State :=
  let l := bs.foldl nsAdd []
  ({ s with tower := { s.tower with planRef := l } }).fset F.TWC_REF_AUTO_BANKS 0 (512 - l.length)

/-- The tower enters self-refresh: it accepts no command (R235). -/
def State.enterSelfRef (s : State) : State :=
  ({ s with tower := { s.tower with selfRefresh := true } }).set1 F.TWC_FILL_STAT_SELFREF

/-- The tower leaves self-refresh. -/
def State.leaveSelfRef (s : State) : State :=
  ({ s with tower := { s.tower with selfRefresh := false } }).set0 F.TWC_FILL_STAT_SELFREF

/-! ### Repair (R238–R243) -/

/-- A repair entry word's fields (R238). -/
def repairOf (w : Nat) : Repair := ⟨bits w 29 2, bits w 20 9, bits w 7 13, bits w 3 4⟩

/-- Whether a word has even parity over its 32 bits, and 0 in its reserved bits (R238). -/
def repairValid (w : Nat) : Bool :=
  popCount 32 w % 2 == 0 && bits w 0 2 == 0 &&
  (match bits w 29 2 with
   | 2 => bits w 15 5 == 0
   | 3 => bits w 14 6 == 0
   | _ => true)

/-- Whether target and spare are in range (R238). -/
def repairInRange (r : Repair) : Bool :=
  match r.kind with
  | 1 => decide (r.target < 6144)
  | 2 => decide (r.target < 256) && decide (r.spare < 4)
  | 3 => decide (r.target < 72) && decide (r.spare < 2)
  | _ => false

/-- Number of a spare in `Tower.spares`. -/
def Repair.spareKey (r : Repair) : Nat := r.bank * 64 + r.kind * 16 + r.spare

/-- A repair taken into use: a target repaired twice takes the later entry (R239). -/
def Tower.addRepair (t : Tower) (r : Repair) : Tower :=
  { t with
    repairs := t.repairs.filter (fun q => !(q.kind == r.kind && q.bank == r.bank && q.target == r.target)) ++ [r],
    spares := nsAdd t.spares r.spareKey }

/-- DETAIL words of a repair's record: bank, row where it is of a row, the layer's temperature (R386). -/
def Repair.detail (r : Repair) (temp : Nat) : List Nat := [r.bank, if r.kind = 1 then r.target else 0, temp, 0]

/-- One fuse map entry applied or skipped at cold start (R239). -/
def State.applyFuse (s : State) (w : Nat) : State :=
  if w = 0 then s
  else
    let r := repairOf w
    if repairValid w && bits w 2 1 == 0 && repairInRange r && !nsMem s.tower.spares r.spareKey then
      ({ s with tower := s.tower.addRepair r }).bump F.TWR_FUSE_STAT_APPLIED
    else
      let s := (s.bump F.TWR_FUSE_STAT_SKIPPED).irq Page.TWR 3
      s.logErr { block := Page.TWR, code := 0x0121, sev := 1, detail := r.detail (s.fget (tempField (layerOf r.bank))) }

def State.org (s : State) (e : Nat) : Option Org := alGet s.tower.orangery e

/-- First cause for which APPLY refuses the selected entry, 0 when it does not (R240). -/
def State.applyReason (s : State) (e : Nat) : Nat :=
  let w := s.rd R.TWR_ORG_ENTRY e
  let r := repairOf w
  if !repairValid w || r.kind == 0 then 1
  else if !repairInRange r then 2
  else if nsMem s.tower.spares r.spareKey then 3
  else if (s.org e).isSome then 4
  else if s.tower.orangery.any (fun o => o.2.state == .copying && o.2.repair.bank == r.bank) then 5
  else 0

/-- `TWR_ORG_CMD.OP` = APPLY on an entry (R240–R242). -/
def State.applyOrg (s : State) (e : Nat) : State :=
  let reason := s.applyReason e
  let s := s.fset F.TWR_ORG_STAT_REASON 0 reason
  if reason != 0 then s.irq Page.TWR 1
  else
    let w := s.rd R.TWR_ORG_ENTRY e
    let r := repairOf w
    let o : Org := ⟨if r.kind = 3 then .pendingWarm else .copying, r, bit w 2, false, ⟨[], []⟩⟩
    { s with tower := { s.tower with orangery := alPut s.tower.orangery e o, spares := nsAdd s.tower.spares r.spareKey } }

/-- A repair whose copy has ended takes over at a tick boundary (R241). -/
def State.orgTakeOver (s : State) (e : Nat) (o : Org) : State :=
  let gone (a : Nat) : Bool := o.repair.covers a
  let m := s.tower.mem
  let m := if o.fill then
      let z : Mem := ⟨m.cells.filter fun c => !gone c.1, m.bad.filter fun a => !gone a⟩
      o.img.bad.foldl (fun z a => z.putBad a (o.img.byte a)) (o.img.cells.foldl (fun z c => z.put c.1 c.2) z)
    else m
  let t := { s.tower with mem := m, orangery := alPut s.tower.orangery e { o with state := .active, copied := false, img := ⟨[], []⟩ } }
  let s := { s with tower := t.addRepair o.repair }
  let s := s.logErr { block := Page.TWR, code := 0x0120, sev := 0, detail := o.repair.detail (s.fget (tempField (layerOf o.repair.bank))) }
  s.irq Page.TWR 0

/-- Every repair whose copy has ended takes over (R241). -/
def State.orgBoundary (s : State) : State :=
  s.tower.orangery.foldl (fun s e => if e.2.state == .copying && e.2.copied then s.orgTakeOver e.1 e.2 else s) s

/-! ### Temperature (R245–R248) -/

/-- A sensor reading as the engine takes it: none when outside −40 °C to 150 °C or its self-check failed (R245). -/
def validReading (r : Option Int) : Option Int :=
  r.bind fun t => if -640 ≤ t ∧ t ≤ 2400 then some t else none

/-- The temperature of a layer from its four sensors: none when all are faulty (R245). -/
def layerTemp (rs : List (Option Int)) : Option Int :=
  rs.foldl (fun a r => match a, validReading r with
    | none, x => x
    | some a, some b => some (max a b)
    | some a, none => some a) none

/-- What a layer counts as in the comparisons of R246: a layer with no valid sensor is at the throttle threshold. -/
def layerEff (t : Option Int) : Int := t.getD 1472

/-- A stored 16-bit temperature as it counts in comparisons. -/
def State.tempEff (s : State) (layer : Nat) : Int :=
  let w := s.fget (tempField layer)
  if w = 0x7FFF then 1472 else signed 16 w

/-- The critical halt begins (R248). -/
def State.critHalt (s : State) (t : Int) : State :=
  let s := { s with tower := { s.tower with critical := true, resume := false } }
  let s := ((s.set1 F.TTH_STAT_HALTED).set1 F.LNF_STAT_HALTED).setPlanRef []
  (s.irq Page.TTH 2).logErr { block := Page.TTH, code := 0x0112, sev := 2, detail := [0, 0, unsigned 32 t, 0] }

/-- A faulty sensor shown (R245). -/
def State.sensorFault (s : State) (i : Nat) : State :=
  ({ s with tower := { s.tower with badSensors := nsAdd s.tower.badSensors i } }).wr R.TTH_SENSOR_FAULT 0
    (setBit (s.rd R.TTH_SENSOR_FAULT) i true)

/-- A sensor found faulty, logged after a valid sample of it, or at the first sample after a start (R245), with the temperature of its
layer (R386). -/
def State.sensorLog (s : State) (i : Nat) : State :=
  (s.irq Page.TTH 3).logErr { block := Page.TTH, code := 0x0113, sev := 0, detail := [0, 0, s.fget (tempField (i / 4)), 0] }

/-- The warn state entered at 85 °C and left at 83 °C (R246). -/
def State.warnStep (s : State) (t : Int) : State :=
  if !s.tower.warn && decide (1360 ≤ t) then
    let s := ({ s with tower := { s.tower with warn := true } }).bump F.TTH_WARN_CNT_COUNT
    (s.irq Page.TTH 0).logErr { block := Page.TTH, code := 0x0110, sev := 0, detail := [0, 0, unsigned 32 t, 0] }
  else if s.tower.warn && decide (t ≤ 1328) then { s with tower := { s.tower with warn := false } } else s

/-- The throttle engaged at 92 °C and released at 90 °C; tRCD and tRP are derated while it is (R224, R246). -/
def State.throttleStep (s : State) (t : Int) : State :=
  let s :=
    if !s.tower.throttle && decide (1472 ≤ t) then
      let s := ({ s with tower := { s.tower with throttle := true } }).set1 F.TTH_STAT_ENGAGED
      (s.irq Page.TTH 1).logErr { block := Page.TTH, code := 0x0111, sev := 0, detail := [0, 0, unsigned 32 t, 0] }
    else if s.tower.throttle && decide (t ≤ 1440) then
      ({ s with tower := { s.tower with throttle := false } }).set0 F.TTH_STAT_ENGAGED
    else s
  s.fset F.TWC_TIMING2_DERATED 0 (if s.tower.throttle then 1 else 0)

/-- The sensors' readings shown by layer; a sensor that gives none is faulty (R245). -/
def State.sensors (s : State) (rs : List (Option Int)) : State :=
  let s := (List.zipIdx rs).foldl (fun (s : State) r =>
    match validReading r.1 with
    | some _ => { s with tower := { s.tower with badSensors := nsDel s.tower.badSensors r.2 } }
    | none => s.sensorFault r.2) s
  let temps := (List.range 8).map fun i => layerTemp ((rs.drop (4 * i)).take 4)
  (List.zipIdx temps).foldl (fun (s : State) t =>
    s.fset (tempField t.2) 0 (match t.1 with | some v => unsigned 16 v | none => 0x7FFF)) s

/-- The layers at or above a limit, as a mask. -/
def State.hotMask (s : State) (lim : Int) : Nat := (List.range 8).foldl (fun a i => if lim ≤ s.tempEff i then a + 2 ^ i else a) 0

/-- The highest layer temperature and the layer it is of, the masks and the peak shown (R245, R246). -/
def State.showTemps (s : State) (hot : Nat) (t : Int) : State :=
  let s := (s.fset F.TTH_MAX_TEMP 0 (s.fget (tempField hot))).fset F.TTH_MAX_LAYER 0 hot
  let s := (s.fset F.TTH_STAT_WARN 0 (s.hotMask 1360)).fset F.TTH_STAT_THROTTLE 0 (s.hotMask 1472)
  if signed 16 (s.fget F.TTH_PEAK_TEMP) < t then s.fset F.TTH_PEAK_TEMP 0 (unsigned 16 t) else s

/-- One sample of the 32 sensors (sensor s of layer i at 4i + s), in 1/16 °C; none where a self-check failed (R245–R248). -/
def State.tempSample (s : State) (rs : List (Option Int)) : State :=
  let s := if s.tower.throttle then s.bump F.TTH_THROTTLE_US_US 0 10 else s
  let old := s.tower.badSensors
  let s := s.sensors (padTo 32 none rs)
  let hot := (List.range 8).foldl (fun b i => if s.tempEff b < s.tempEff i then i else b) 0
  let t := s.tempEff hot
  let s := ((s.showTemps hot t).warnStep t).throttleStep t
  let s := if !s.tower.critical && decide (1600 ≤ t) then s.critHalt t else s
  let s := (s.tower.badSensors.filter fun i => !nsMem old i).foldl (fun s i => s.sensorLog i) s
  s.updHalf

/-- `TTH_CRIT_CLEAR.GO`: ends the halt when every layer is at or below 90.0 °C; plans resume at the next boundary (R248). -/
def State.critClear (s : State) : State :=
  if s.tower.critical && (List.range 8).all (fun i => decide (s.tempEff i ≤ 1440)) then
    let s := { s with tower := { s.tower with critical := false, resume := true } }
    ((s.set0 F.TTH_STAT_HALTED).set0 F.LNF_STAT_HALTED).updHalf
  else s

/-! ### Probes (R249) -/

/-- `TWR_PROBE_CFG.GO` for a bank group: ignored while a probe is busy, and in self-refresh, when the banks take no command (R235). -/
def State.probeGo (s : State) (g : Nat) : State :=
  if s.tower.probe.isSome || s.tower.selfRefresh then s
  else ({ s with tower := { s.tower with probe := some ⟨g⟩, probeRows := nsAdd s.tower.probeRows g } }).set1 F.TWR_PROBE_RES_BUSY

/-- The probe's interval ends with this many failing bits read. -/
def State.probeDone (s : State) (fails : Nat) : State :=
  match s.tower.probe with
  | none => s
  | some p =>
    let s := { s with tower := { s.tower with probe := none } }
    let s := ((s.fset F.TWR_PROBE_RES_FAIL_BITS 0 (min fails 0xFFFF)).set0 F.TWR_PROBE_RES_BUSY).set1 F.TWR_PROBE_RES_DONE
    let s := (s.fset F.TWR_PROBE_TEMP_TEMP 0 (s.fget (tempField (layerOf (8 * p.group))))).irq Page.TWR 2
    if fails = 0 then s
    else s.logErr { block := Page.TWR, code := 0x0130, sev := 0,
                    detail := [8 * p.group, 0, s.fget (tempField (layerOf (8 * p.group))), 0] }

end Sys2Proof.Machine
end

