-- ==== Sys2Proof/Machine/Coding.lean ====
section
/-! DEFINITION. Coded groups in steady operation (R56–R91): geometry, tags, journal, seals, coded writes. -/

namespace Sys2Proof.Machine

open Sys2Proof

/-! ### Geometry (R59, R60) -/

/-- The symbol member p holds at row r. -/
def symOf (n p r : Nat) : Nat := (p + r) % n

/-- The member that holds symbol q of row r. -/
def roleOfSym (n q r : Nat) : Nat := (q + n - r % n) % n

/-- The row of member p's logical data block L. -/
def rowOfBlock (n k p L : Nat) : Nat := n * (L / k) + (L % k + n - p % n) % n

/-- The logical data block of the member that holds data symbol q of row r. -/
def blockOfRow (n k q r : Nat) : Nat := k * (r / n) + q

namespace Grp

abbrev k (s : State) (g : Nat) : Nat := s.fget F.CDE_GRP_CFG_K g
abbrev m (s : State) (g : Nat) : Nat := s.fget F.CDE_GRP_CFG_M g
abbrev n (s : State) (g : Nat) : Nat := Grp.k s g + Grp.m s g
abbrev own (s : State) (g : Nat) : Nat := s.fget F.CDE_GRP_CFG_OWN_ROLE g
abbrev mgr (s : State) (g : Nat) : Nat := s.fget F.CDE_GRP_CFG_MGR_ROLE g
abbrev gid (s : State) (g : Nat) : Nat := s.fget F.CDE_GRP_ID_GROUP_ID g
abbrev gen (s : State) (g : Nat) : Nat := s.fget F.CDE_GRP_ID_GEN g
abbrev part (s : State) (g : Nat) : Nat := s.fget F.CDE_GRP_ID_PARTITION g
abbrev rows (s : State) (g : Nat) : Nat := s.fget F.CDE_GRP_ROWS_ROWS g
abbrev state (s : State) (g : Nat) : Nat := s.fget F.CDE_GRP_STAT_STATE g

def tier (s : State) (g : Nat) : Tier := if s.fget F.CDE_GRP_CFG_TIER g = 0 then .t1 else .t2

/-- The node the member table gives for a role (R97). -/
def node (s : State) (g role : Nat) : Nat := s.fget F.CDE_MEMB_NODE_NODE (g * 32 + role)

/-- Whether a role is LOST (R95). -/
def lost (s : State) (g role : Nat) : Bool := bit (s.fget F.CDR_LOST_ROLES g) role

/-- Roles that are not LOST. -/
def live (s : State) (g : Nat) : List Nat := (List.range (Grp.n s g)).filter fun p => !Grp.lost s g p

/-- The role and parity index of the live holders of a row's parities. -/
def holders (s : State) (g r : Nat) : List (Nat × Nat) :=
  ((List.range (Grp.m s g)).map fun j => (roleOfSym (Grp.n s g) (Grp.k s g + j) r, j)).filter fun h => !Grp.lost s g h.1

/-- The acting manager role (R98). -/
def acting (s : State) (g : Nat) : Nat :=
  if Grp.lost s g (Grp.mgr s g) then (Grp.live s g).headD (Grp.mgr s g) else Grp.mgr s g

/-- Byte address of the slot of row r in its tier (R58). -/
def slotAddr (s : State) (g r : Nat) : Nat := (s.fget F.CDE_GRP_BASE_BASE g + r) * 4096

/-- Byte addresses of the copies of a row's tag line (R66). -/
def tagAddrs (s : State) (g r : Nat) : List Nat :=
  let base := s.fget F.CDE_GRP_TAG_TAG_BASE g
  match Grp.tier s g with
  | .t1 => [(base + r / 32) * 4096 + 64 * (r % 32), (base + r / 32) * 4096 + 2048 + 64 * (r % 32)]
  | .t2 => [(base + r / 64) * 4096 + 64 * (r % 64)]

/-- Slots of a region's tag area (R66). -/
def tagSlots (s : State) (g : Nat) : Nat :=
  match Grp.tier s g with
  | .t1 => ceilDiv (Grp.rows s g) 32
  | .t2 => ceilDiv (Grp.rows s g) 64

/-- Data blocks of a member's region (R58). -/
def blocks (s : State) (g : Nat) : Nat := Grp.k s g * Grp.rows s g / Grp.n s g

end Grp

/-! ### Tag lines (R64–R67) -/

/-- A tag line as read: 64 bytes. -/
abbrev TagLine := List Byte

def tagStamp (t : TagLine) (e : Nat) : Nat := fieldLE t (2 * e) 2
def tagCount (t : TagLine) (e : Nat) : Nat := fieldLE t (32 + e) 1
def tagPending (t : TagLine) : Bool := bit (fieldLE t 48 2) 0
def tagEscalated (t : TagLine) : Bool := bit (fieldLE t 48 2) 1

/-- A complete line for a row of the slot: stamps and counts from an old line, flags as given (R64, R65). -/
def tagMake (s : State) (g r : Nat) (old : TagLine) (flags : Nat) : TagLine :=
  withCrc ((padTo 48 0 (old.take 48)) ++ leBytes 2 flags ++ leBytes 2 (Grp.gid s g) ++ leBytes 1 (Grp.gen s g)
    ++ leBytes 1 (Grp.own s g) ++ leBytes 2 0 ++ leBytes 4 r)

/-- A line with entry e set to a stamp and change count. -/
def tagSet (t : TagLine) (e stamp count : Nat) : TagLine :=
  let t := modifyAt (fun _ => BitVec.ofNat 8 stamp) (2 * e) t
  let t := modifyAt (fun _ => BitVec.ofNat 8 (stamp / 256)) (2 * e + 1) t
  modifyAt (fun _ => BitVec.ofNat 8 count) (32 + e) t

/-- Whether a line's bytes are valid: all zero, or a matching CRC (R65). -/
def tagValid (t : TagLine) : Bool := t.all (· == 0) || crcOk t 60

/-- One copy of a line as stored: none when it fails byte parity, the external controller, or its CRC (R67). -/
def State.tagCopy (s : State) (t : Tier) (a : Nat) : Option TagLine :=
  let bs := (s.tierMem t).bytes a 64
  let ok := match t with
    | .t1 => (List.range 64).all fun i => !s.tower.mem.isBad (a + i)
    | .t2 => !nsMem s.pages.poison (a / 64)
  if ok && tagValid bs then some bs else none

/-- A line written to every copy (R65, R66). -/
def State.tagPut (s : State) (g r : Nat) (t : TagLine) : State :=
  (Grp.tagAddrs s g r).foldl (fun s a => s.writeTier (Grp.tier s g) a (t.map some)) s

/-- Whether every copy of a row's tag line fails: a further failure during a reconstruction (R67, R116). -/
def State.tagLost (s : State) (g r : Nat) : Bool := (Grp.tagAddrs s g r).all fun a => (s.tagCopy (Grp.tier s g) a).isNone

/-- Whether a row's slot is PENDING, from a valid copy of its tag line. -/
def State.rowPending (s : State) (g r : Nat) : Bool :=
  match (Grp.tagAddrs s g r).filterMap (s.tagCopy (Grp.tier s g)) with
  | t :: _ => tagPending t
  | [] => false

/-- Whether a row of a slot is being gathered, its stale parities and its own slot not yet all written (R108, R113). -/
def State.gathering (s : State) (g r : Nat) : Bool := s.coding.gathers.any fun x => x.slot == g && x.row == r

/-! ### Escalation and the rebuild's end (R101, R109, R116, R118) -/

/-- A report entry written, or counted as lost when the area is full (R118). -/
def State.report (s : State) (g r stamp count kind parity : Nat) : State :=
  let cap := 256 * s.fget F.CDR_REPORT_SIZE_SLOTS g
  let cnt := s.rd R.CDR_REPORT_CNT g
  if cap = 0 then s
  else if cnt < cap then
    let L := blockOfRow (Grp.n s g) (Grp.k s g) (symOf (Grp.n s g) (Grp.own s g) r) r
    let e := leBytes 4 L ++ leBytes 4 r ++ leBytes 2 stamp ++ leBytes 1 count ++ leBytes 1 kind ++ leBytes 1 g ++ leBytes 1 parity ++ leBytes 2 0
    let t : Tier := if s.fget F.CDR_REPORT_BASE_TIER g = 0 then .t1 else .t2
    (s.writeTier t (s.fget F.CDR_REPORT_BASE_BASE g * 4096 + 16 * cnt) (e.map some)).wr R.CDR_REPORT_CNT g (cnt + 1)
  else
    let s := s.wr R.CDR_REPORT_LOST g (s.rd R.CDR_REPORT_LOST g + 1)
    if s.coding.reportFull.contains g then s
    else ({ s with coding := { s.coding with reportFull := g :: s.coding.reportFull } }).irq Page.CDR 3

/-- The gather of a row given up or done. -/
def State.dropGather (s : State) (g r : Nat) : State :=
  { s with coding := { s.coding with gathers := s.coding.gathers.filter fun x => !(x.slot == g && x.row == r) } }

/-- The rows of a slot still PENDING are `left`; none left ends the rebuild (R101). -/
def State.setLeft (s : State) (g left : Nat) : State :=
  let s := s.fset F.CDR_LEFT_ROWS g left
  if left = 0 && s.flag F.CDR_CMD_STAT_REBUILDING g then
    let s := (s.set0 F.CDR_CMD_STAT_REBUILDING g).irq Page.CDR 0
    s.logErr { block := Page.CDR, code := 0x040B, sev := 0, part := some (Grp.part s g), detail := [g, Grp.own s g, 0, 0] }
  else s

/-- One row fewer is PENDING. -/
def State.rowDone (s : State) (g : Nat) : State := s.setLeft g (s.fget F.CDR_LEFT_ROWS g - 1)

/-- The rows still PENDING counted anew after a tag line was lost whole (R67, R122). -/
def State.recount (s : State) (g : Nat) : State :=
  if s.fget F.CDR_LEFT_ROWS g = 0 then s
  else s.setLeft g ((List.range (Grp.rows s g)).filter fun r => s.rowPending g r).length

/-- A block with tag line `tag` marked ESCALATED and reported: kind 1 too many unavailable, 2 no agreeing set, 3 nested failure
(R109, R116, R118), 0 poison that found the list full (R508); its gather ends. A parity slot is marked, without a report; a further failure is logged for it too (R116). NESTED is set when
the failure met a reconstruction in progress (R392). -/
def State.escalateAs (s : State) (g r kind : Nat) (tag : TagLine) : State :=
  let nested := kind == 3 && s.gathering g r
  let s := s.tagPut g r (tagMake s g r tag 2)
  let s := s.dropGather g r
  let isData : Bool := decide (symOf (Grp.n s g) (Grp.own s g) r < Grp.k s g)
  let s := if kind != 0 && (isData || kind == 3) then
      let a := Grp.slotAddr s g r
      let s := s.logErr { block := Page.CDR, code := 0x0407, sev := 1, part := some (Grp.part s g), nested := nested,
                          kind := if Grp.tier s g = .t1 then 1 else 3, addr := a, detail := [g, Grp.own s g, r, 0] }
      let s := if isData then s.report g r (tagStamp tag 0) (tagCount tag 0) kind 0xFF else s
      (s.bump F.CDR_ESC_CNT_COUNT g).irq Page.CDR 1
    else s
  if tagPending tag then s.rowDone g else s

/-- A tag line read under R67: a failing tower copy is restored; a line that fails whole marks the slot ESCALATED, its stamps
and counts free values (log entry 5), and ends a reconstruction of the block as a further failure (R116). A single copy that fails
while the block is reconstructed is restored, and is no further failure (log entry 64: DEDUCED). -/
def State.tagRead (s : State) (g r : Nat) : State × TagLine :=
  let t := Grp.tier s g
  let copies := (Grp.tagAddrs s g r).map fun a => (a, s.tagCopy t a)
  match copies.find? (fun c => c.2.isSome) with
  | some (_, some line) =>
    let s := copies.foldl (fun (s : State) c =>
      if c.2.isNone then
        (s.writeTier t c.1 (line.map some)).logErr
          { block := Page.CDE, code := 0x0403, sev := 0, part := some (Grp.part s g), detail := [g, Grp.own s g, r, 0] }
      else s) s
    (s, line)
  | _ =>
    match s.freeBytes 6 with
    | (old, s) =>
      let line := tagMake s g r old 2
      let s := (s.tagPut g r line).logErr
        { block := Page.CDE, code := 0x0404, sev := 1, part := some (Grp.part s g), detail := [g, Grp.own s g, r, 0] }
      let s := if s.gathering g r then s.escalateAs g r 3 line else s
      (s.recount g, line)

/-- A block escalated (R109, R116); one whose tag line fails whole in this moment is escalated by that. -/
def State.escalate (s : State) (g r kind : Nat) : State :=
  if s.tagLost g r && s.gathering g r then (s.tagRead g r).1
  else match s.tagRead g r with
    | (s, tag) => s.escalateAs g r kind tag

/-- A line rewritten with new flags. -/
def State.tagFlags (s : State) (g r flags : Nat) : State :=
  let (s, t) := s.tagRead g r
  s.tagPut g r (tagMake s g r t flags)

/-! ### Sending -/

/-- A transaction offered to the fabric port (R290, R292). -/
def State.offer (s : State) (t : Txn) : State := { s with fab := { s.fab with txq := s.fab.txq ++ [t] } }

/-- The 32 bytes of a transaction's header (R293). -/
def Txn.header (t : Txn) : List Byte :=
  withCrc (leBytes 1 t.typ
    ++ leBytes 1 (t.vc % 8 + t.combinable.toNat * 8 + t.gate.toNat * 16 + t.kx.toNat * 32 + t.poison.toNat * 64
        + t.resp.toNat * 128)
    ++ leBytes 1 t.op ++ leBytes 1 t.status ++ leBytes 4 t.dst ++ leBytes 4 t.src ++ leBytes 2 t.tag ++ leBytes 2 t.len
    ++ leBytes 4 t.key ++ leBytes 6 t.offset ++ leBytes 2 t.count)

/-- A MESSAGE on a channel, its payload in whole words (R293, R294). -/
def Txn.ofMsg (vc dst src : Nat) (payload : List Byte) (part : Option Nat) (resp gate : Bool) : Txn :=
  let p := padTo (roundUp payload.length 4) 0 payload
  { typ := 5, vc := vc, combinable := false, gate := gate, kx := false, poison := false, resp := resp, op := 0,
    status := 0, dst := dst, src := src, tag := 0, key := 0, offset := 0, count := 0,
    len := p.length / 4, payload := p, part := part, entry := none, use := .message, held := false }

/-- A message offered on a channel (R293, R294). -/
def State.sendMsg (s : State) (vc dst : Nat) (payload : List Byte) (part : Option Nat := none) (resp : Bool := false) : State :=
  s.offer (.ofMsg vc dst (s.fget F.FBP_NODE_NODE) payload part resp false)

/-- A 32-byte coding message from its first 28 bytes' fields (R78, R102). -/
def msg32 (typ gid b4 b5 gen b7 w8 w12 d16 : Nat) : List Byte :=
  withCrc (leBytes 1 typ ++ leBytes 1 1 ++ leBytes 2 gid ++ leBytes 1 b4 ++ leBytes 1 b5 ++ leBytes 1 gen ++ leBytes 1 b7
    ++ leBytes 4 w8 ++ leBytes 4 w12 ++ leBytes 8 d16 ++ leBytes 4 0)

/-- A coding message sent to a role of a group on VC1, as a request or in the response class (R308). -/
def State.sendRole (s : State) (g role : Nat) (m : List Byte) (resp : Bool := false) : State :=
  s.sendMsg 1 (Grp.node s g role) m none resp

/-! ### The Cold frame (R70, R71, R79, R80) -/

/-- Payload sectors in use. -/
def State.openSectors (s : State) : Nat := s.coding.open_.foldl (fun a d => a + d.sectors.length) 0

/-- Whether the Cold frame has no room for an entry of some sectors (R79). -/
def State.coldFull (s : State) (sectors : Nat) : Bool :=
  decide (2048 ≤ s.coding.open_.length) || decide (131072 < s.openSectors + sectors)

/-- The earliest due time of the open entries; all ones where none is open (R94). -/
def oldestDue (l : List Delta) : Nat :=
  match l with
  | [] => 2 ^ 64 - 1
  | d :: ds => ds.foldl (fun a d => min a d.due) d.due

/-- The journal's status registers brought up to date (R94). -/
def State.updCdj (s : State) : State :=
  let n := s.coding.open_.length
  let s := (s.fset F.CDJ_OPEN_ENTRIES 0 n).fset F.CDJ_OPEN_SECT_SECTORS 0 s.openSectors
  let s := if s.fget F.CDJ_HWM_ENTRIES < n then s.fset F.CDJ_HWM_ENTRIES 0 n else s
  s.wr64 R.CDJ_OLDEST_LO 0 (oldestDue s.coding.open_)

/-- The open entries replaced. -/
def State.setOpen (s : State) (l : List Delta) : State :=
  ({ s with coding := { s.coding with open_ := l } }).updCdj

/-- A block's chain, oldest first. -/
def State.chain (s : State) (g r : Nat) : List Delta := s.coding.open_.filter fun d => d.slot == g && d.row == r

/-- Whether an entry has been handed to the port for some holder (R70), or a reseed stands in for it (R396). -/
def Delta.sent (d : Delta) : Bool := d.acks.any fun a => a.seq.isSome || a.reseed

/-- Two Δ sector lists XORed together, sectors rising (R70). -/
def mergeSectors (a b : List (Nat × List Byte)) : List (Nat × List Byte) :=
  b.foldl (fun acc x => match alGet acc x.1 with
    | some y => alPut acc x.1 (xorBytes y x.2)
    | none => alPut acc x.1 x.2) a

/-- The mask of a sector list. -/
def sectorMask (l : List (Nat × List Byte)) : Nat := l.foldl (fun a x => setBit a x.1 true) 0

/-! ### Seals (R83–R85) -/

/-- A seal message to a role: 4 member seal, 5 group seal (R78). -/
def State.sendSeal (s : State) (g role typ tick : Nat) : State :=
  s.sendRole g role (msg32 typ (Grp.gid s g) (Grp.own s g) 0 (Grp.gen s g) 0 0 0 tick)

/-- A group seal recorded: never lower (R85). -/
def State.setGrpSeal (s : State) (g t : Nat) : State :=
  if s.rd64 R.CDE_GRP_SEAL_LO g < t then s.wr64 R.CDE_GRP_SEAL_LO g t else s

/-- The latest member seal of a role that the acting manager has: its own is the one it stands at, from its installation on
(log entry 54: a DESIGN CHOICE). -/
def State.latestSeal (s : State) (g p : Nat) : Option Nat :=
  if p = Grp.own s g then some (s.rd64 R.CDE_MBR_SEAL_LO g) else alGet s.coding.mgrSeals (g * 32 + p)

/-- The acting manager forms the group seal from the latest member seals and publishes an advance (R84, R96, R98). -/
def State.formGrpSeal (s : State) (g : Nat) : State :=
  if Grp.acting s g != Grp.own s g then s
  else
    let seals := (Grp.live s g).map fun p => s.latestSeal g p
    match seals.foldl (fun (a : Option (Option Nat)) x => match a, x with
        | none, _ => none
        | _, none => none
        | some none, some v => some (some v)
        | some (some u), some v => some (some (min u v))) (some none) with
    | some (some low) =>
      if s.rd64 R.CDE_GRP_SEAL_LO g < low then
        let s := s.setGrpSeal g low
        ((Grp.live s g).filter (· != Grp.own s g)).foldl (fun s p => s.sendSeal g p 5 low) s
      else s
    | _ => s

/-- A member seal held by the acting manager: never lower (R85). -/
def State.takeMbrSeal (s : State) (g role t : Nat) : State :=
  let key := g * 32 + role
  let s := if ((alGet s.coding.mgrSeals key).map (decide <| · < t)).getD true
    then { s with coding := { s.coding with mgrSeals := alPut s.coding.mgrSeals key t } } else s
  s.formGrpSeal g

/-- The member's current seal told to the acting manager (R84). -/
def State.tellSeal (s : State) (g : Nat) : State :=
  let t := s.rd64 R.CDE_MBR_SEAL_LO g
  let s := { s with coding := { s.coding with
      sealSent := alPut s.coding.sealSent g s.tick.now, sealTold := alPut s.coding.sealTold g t } }
  if Grp.acting s g == Grp.own s g then s.formGrpSeal g
  else s.sendSeal g (Grp.acting s g) 4 t

/-- A member's seal in a group advanced as far as R83 allows, and told at most once per tick; the acting manager forms the group
seal from its own at once (R84). -/
def State.updSeal (s : State) (g : Nat) : State :=
  if Grp.state s g = 0 ∨ s.flag F.CDE_GRP_STAT_BUSY g = true then s
  else
    let deltas := s.coding.open_.filter (·.slot == g)
    let t := deltas.foldl (fun a d => min a (d.due - 1)) (s.planDone (Grp.part s g))
    let s1 := if s.rd64 R.CDE_MBR_SEAL_LO g < t then s.wr64 R.CDE_MBR_SEAL_LO g t else s
    if alGet s1.coding.sealTold g != some (s1.rd64 R.CDE_MBR_SEAL_LO g) && alGet s1.coding.sealSent g != some s1.tick.now
    then s1.tellSeal g else s1.formGrpSeal g

/-- Every group's member seal brought up to date. -/
def State.updSeals (s : State) : State := (List.range 16).foldl (fun s g => s.updSeal g) s

/-- The acting manager of a group may have changed: every member then tells its seal to the new one (R98). -/
def State.actingCheck (s : State) (g : Nat) : State :=
  let a := Grp.acting s g
  if alGet s.coding.actMgr g == some a then s
  else
    let keep := s.coding.mgrSeals.filter fun e => e.1 / 32 != g
    let s := { s with coding := { s.coding with actMgr := alPut s.coding.actMgr g a, mgrSeals := keep } }
    s.tellSeal g

/-! ### Closing entries -/

/-- Whether every holder of an entry has acknowledged it (R79), LOST roles counting as given (R95). -/
def State.deltaDone (s : State) (d : Delta) : Bool := d.acks.all fun a => a.acked || Grp.lost s d.slot a.role

/-- A DRAINING slot with no open delta moves to DRAINED (R91). -/
def State.drainedCheck (s : State) (g : Nat) : State :=
  if Grp.state s g = 2 && (s.coding.open_.filter (·.slot == g)).isEmpty then
    (s.fset F.CDE_GRP_STAT_STATE g 3).irq Page.CDE 2
  else s

/-- Complete entries close; seals and draining slots follow (R79, R83, R91). -/
def State.closeDone (s : State) : State :=
  let s := s.setOpen (s.coding.open_.filter fun d => !s.deltaDone d)
  let s := (List.range 16).foldl (fun s g => s.drainedCheck g) s
  s.updSeals

/-! ### Coded writes (R69–R71, R112, R117) -/

/-- How a coded access ends. -/
inductive CodedOut where
  /-- applied -/
  | done
  /-- must wait: the slot is busy, draining or awaits START, the frame or the chain is full, the row is being rebuilt -/
  | wait
  /-- refused with status POISON (R231, R117) -/
  | poison
  deriving DecidableEq, Repr

/-- Whether a region's writes are stalled as a whole (R89, R91, R100). -/
def State.regionBusy (s : State) (g : Nat) : Bool :=
  Grp.state s g != 1 || s.flag F.CDE_GRP_STAT_BUSY g || s.flag F.CDR_CMD_STAT_AWAIT_START g

/-- Old contents overlaid with the bytes written. -/
def overlay (old : List Byte) (bs : List (Option Byte)) : List Byte := List.zipWith (fun o b => b.getD o) old bs

/-- Δ sectors of a write of `bs` at `off` in a 4 KiB block whose old sectors `oldSec` gives (R69). -/
def deltaSectors (oldSec : Nat → List Byte) (off : Nat) (bs : List (Option Byte)) : List (Nat × List Byte) :=
  (sectorsOf off bs.length).filterMap fun i =>
    let old := oldSec i
    let new := (List.range 64).map fun x =>
      let a := 64 * i + x
      if off ≤ a ∧ a < off + bs.length then ((bs[a - off]?).join).getD (old.getD x 0) else old.getD x 0
    let d := xorBytes new old
    if d.all (· == 0) then none else some (i, d)

/-- The delta of a coded write: merged into the block's newest unsent delta of one stamp, or a new entry; none when the
chain or the Cold frame has no room (R70, R71, R79), or others that wait for what it needs come before it (R72): `behind.1` for room in
the frame, `behind.2` for room in the frame or the chain. Answers the state and the change count used. -/
def State.openDelta (s : State) (g r due count0 : Nat) (behind : Bool × Bool) (ds : List (Nat × List Byte)) : Option (State × Nat) :=
  let ch := s.chain g r
  let newest := ch.getLast?
  match newest.filter (fun d => d.due % 65536 == due % 65536 && !d.sent) with
  | some d =>
    let merged := mergeSectors d.sectors ds
    if decide (d.sectors.length < merged.length)
        && (behind.1 || decide (131072 < s.openSectors + (merged.length - d.sectors.length))) then none
    else
      let l := s.coding.open_.map fun e =>
        if e == d then { e with sectors := merged, mask := sectorMask merged } else e
      some (s.setOpen l, d.count)
  | none =>
    if behind.2 || 16 ≤ ch.length || s.coldFull ds.length then none
    else
      let count := (count0 + 1) % 256
      let acks := (Grp.holders s g r).map fun h => (⟨h.1, h.2, none, false, false, false⟩ : Ack)
      let d : Delta := ⟨g, r, symOf (Grp.n s g) (Grp.own s g) r, count, due, sectorMask ds, ds, acks⟩
      let s := (s.setOpen (s.coding.open_ ++ [d])).event 0x0D01 (some (Grp.part s g))
      let s := if s.coldFull 1 then s.irq Page.CDJ 1 else s
      some (s, count)

/-- A block of a coded region, as the list of writes that wait for room names it. -/
def blockKey (g r : Nat) : Nat := g * 2 ^ 23 + r

/-- Whether a write to a block that waits for room waits for the Cold frame, the block's chain being shorter than 16 (R71, R80). -/
def State.waitsFrame (s : State) (b : Nat) : Bool := decide ((s.chain (b / 2 ^ 23) (b % 2 ^ 23)).length < 16)

/-- Whether a write comes after others that wait for what it needs: those of a lower class, and earlier ones of its own (R72). The first
component counts those that wait for the frame, the second also those that wait for the block's chain. -/
def State.fullBehind (s : State) (w : Who) (b : Nat) : Bool × Bool :=
  let l := s.coding.fullWait
  let before (holds : Nat → Bool) : Bool :=
    (l.takeWhile (· != (w, b))).any (fun k => k.1.cls == w.cls && holds k.2) || l.any fun k => decide (k.1.cls < w.cls) && holds k.2
  (before s.waitsFrame, before fun k => k == b || s.waitsFrame k)

/-- A coded write that finds the frame or its chain full, or others waiting for them: counted once, however often it is tried; a
full frame raises FULL (R71, R72, R79, R80, R94). -/
def State.fullStall (s : State) (w : Who) (b sectors : Nat) : State :=
  if s.coding.fullWait.contains (w, b) then s
  else
    let full := s.coldFull sectors
    let s := ({ s with coding := { s.coding with fullWait := s.coding.fullWait ++ [(w, b)] } }).bump F.CDJ_STALL_CNT_COUNT
    if full then s.irq Page.CDJ 1 else s

/-- A coded write no longer waits for room. -/
def State.fullOver (s : State) (w : Who) (b : Nat) : State :=
  { s with coding := { s.coding with fullWait := s.coding.fullWait.filter (· != (w, b)) } }

/-- Whether a write of `bs` at `off` of a block writes part of a poisoned sector, and not the whole of it (R117). -/
def poisonPart (rd : Read) (off : Nat) (bs : List (Option Byte)) : Bool :=
  (sectorsOf off bs.length).any fun i =>
    let new := (List.range 64).map fun x => decide (off ≤ 64 * i + x) && (((bs[64 * i + x - off]?).join).isSome)
    ((rd.bytes.drop (64 * (i - off / 64))).take 64).any (·.isNone) && new.any id && !new.all id

/-- A reseed message to each parity holder of a row (R117). -/
def State.sendReseeds (s : State) (g r : Nat) : State :=
  (Grp.holders s g r).foldl (fun s h =>
    s.sendRole g h.1 (msg32 0x0A (Grp.gid s g) (Grp.own s g) h.1 (Grp.gen s g) 0 r 0 0)) s

/-- A write of `bs` at byte `off` of logical data block L of a slot's region, with its due tick (R68–R71, R112, R117). A wait on a
PENDING or erased row asks for its gather (`need`). While the slot is being dissolved, a plain write (R91). -/
def State.codedWrite (s : State) (w : Who) (g L off due : Nat) (bs : List (Option Byte)) : State × CodedOut × Option (Nat × GatherUse) :=
  let r := rowOfBlock (Grp.n s g) (Grp.k s g) (Grp.own s g) L
  let b := blockKey g r
  let behind := s.fullBehind w b
  let s0 := s.fullOver w b
  if s.coding.plain = some g then (s0.writeTier (Grp.tier s g) (Grp.slotAddr s g r + off) bs, .done, none)
  else if s.regionBusy g then (s0, .wait, none)
  else
    let (s, tag) := s.tagRead g r
    let t := Grp.tier s g
    let a := Grp.slotAddr s g r
    if tagPending tag then (s.fullOver w b, .wait, some (r, .rebuild))
    else if tagEscalated tag then
      if off = 0 && bs.length == 4096 && bs.all (·.isSome) then
        let s := (s.fullOver w b).writeTier t a bs
        let s := s.tagPut g r (tagMake s g r (tagSet tag 0 (due % 65536) ((tagCount tag 0 + 1) % 256)) 0)
        (s.sendReseeds g r, .done, none)
      else (s.fullOver w b, .poison, none)
    else
      let (s, rd) := s.readTier t (a + 64 * (off / 64)) (64 * (sectorsOf off bs.length).length)
      if !rd.erased.isEmpty then (s.fullOver w b, .wait, some (r, .erasure))
      else if poisonPart rd off bs then (s.fullOver w b, .poison, none)
      else
        let old := rd.raw
        let ds := deltaSectors (fun i => (old.drop (64 * (i - off / 64))).take 64) off bs
        if ds.isEmpty then ((s.fullOver w b).writeTier t (a + off) bs, .done, none)
        else
          match s.openDelta g r due (tagCount tag 0) behind ds with
          | none => (s.fullStall w b ds.length, .wait, none)
          | some (s, count) =>
            let s := (s.fullOver w b).writeTier t (a + off) bs
            (s.tagPut g r (tagMake s g r (tagSet tag 0 (due % 65536) count) 0), .done, none)

/-- A read of bytes of a data block (R104, R111, R115, R117): the bytes, or none while it must wait, with the gather
it waits for. A spare stalls every access from its installation until START (R100). -/
def State.codedRead (s : State) (g L off n : Nat) : State × Option (List (Option Byte)) × Option (Nat × GatherUse) :=
  let r := rowOfBlock (Grp.n s g) (Grp.k s g) (Grp.own s g) L
  if s.flag F.CDR_CMD_STAT_AWAIT_START g || alGet s.coding.busy g == some .markPending then (s, none, none)
  else
    let (s, tag) := s.tagRead g r
    if tagPending tag then (s, none, some (r, .rebuild))
    else if tagEscalated tag then (s, some (List.replicate n none), none)
    else
      let (s, rd) := s.readTier (Grp.tier s g) (Grp.slotAddr s g r + off) n
      if rd.erased.isEmpty then (s, some rd.bytes, none) else (s, none, some (r, .erasure))

end Sys2Proof.Machine
end

