-- ==== Sys2Proof/Machine/Guard.lean ====
section
/-! DEFINITION. When a command has its effect: the run, the clocks of the page (R438, R479, R481, R486). A command whose
event cannot occur, or whose input the engine ignores, leaves the state as it is (log entry 4). -/

namespace Sys2Proof.Machine

open Sys2Proof

/-- The highest fabric node ID that the engine accepts (R290, log entry 77: DEDUCED). -/
def nodeMax : Nat := 262143

/-- The clock enables of a page in the mode in force (R481). -/
def State.clkEnables (s : State) (p : Nat) : Nat :=
  match s.fget F.CRG_STAT_MODE with
  | 0 => s.rd (p * 0x1000 + 0x020)
  | 1 => s.rd (p * 0x1000 + 0x024)
  | _ => s.rd (p * 0x1000 + 0x028)

/-- Whether every clock a page's block uses is enabled (R481, `STAT.CLK_OK`). -/
def State.clkOk (s : State) (p : Nat) : Bool := (clocksUsed p) &&& (s.clkEnables p) == clocksUsed p

/-- The effect of an event on a running engine; held in reset, stopped or fallen back, the engine takes no part (R438, R479, R487). -/
def onUp (s : State) (f : State → State) : Host.Outcome State Fault Refusal :=
  .next (if s.run = .running then f s else s)

/-- The effect of a command given through a page: the engine runs and the page's block has its clocks (R481). -/
def onPage (s : State) (p : Nat) (f : State → State) : Host.Outcome State Fault Refusal :=
  .next (if s.run = .running ∧ s.clkOk p = true then f s else s)

/-- The effect of an event of the page manager, which works in the tower: none while that is in self-refresh (R235). -/
def onMover (s : State) (f : State → State) : Host.Outcome State Fault Refusal :=
  onPage s Page.PGM fun s => if s.tower.selfRefresh then s else f s

/-- Whether a page takes part: the engine runs, or it has fallen back, which leaves the management complex and the register
port running (R479), or its start has stopped past step 2, when the register port answers for IDN, CRG and ERU (R486). -/
def State.pageUp (s : State) (p : Nat) : Bool :=
  match s.run with
  | .running => true
  | .fallback => true
  | .stopped _ n => decide (3 ≤ n) && (p == Page.IDN || p == Page.CRG || p == Page.ERU)
  | _ => false

/-- Whether the register port answers: from the end of step 2 of a start (R486). -/
def State.portUp (s : State) : Bool :=
  match s.run with
  | .running => true
  | .fallback => true
  | .stopped _ n => decide (3 ≤ n)
  | _ => false

/-- The effect of a command given through a page that keeps working in a fallback. -/
def onReg (s : State) (p : Nat) (f : State → State) : Host.Outcome State Fault Refusal :=
  .next (if s.pageUp p = true then f s else s)

/-! ### Writes by the management cores (R411, R412) -/

/-- Registers of the management cores' duties. -/
def dutyReg (c : Nat) (off : Nat) : Bool :=
  let p := off / 0x1000
  let probe := off == R.TWR_PROBE_SEL || off == R.TWR_PROBE_CFG || off == R.TWR_EYE_SEL
  match c with
  | 0 => p == Page.MGC
  | 1 => p == Page.ERU || (p == Page.TWR && !probe)
      || [R.LNF_ROW_SEL, R.LNF_ROW_LANE_BYP, R.LNF_ROW_COL_BYP, R.LNF_ROW_TEST, R.LNF_ROW_STAT, R.LNF_TEST_STAT].contains off
  | 2 => p == Page.PWA || p == Page.TTH || probe || off == R.TWC_REF_CTRL || off == R.CRG_MON_CFG
  | _ => [R.CDE_GRP_SEL, R.CDE_MEMB_SEL, R.CDJ_SUSP_SEL, R.CDR_SEL, R.CDR_STRAG_SEL].contains off

/-- Pages a core may write something of. -/
def dutyPages : Nat → List Nat
  | 0 => [Page.MGC]
  | 1 => [Page.ERU, Page.TWR, Page.LNF]
  | 2 => [Page.PWA, Page.TTH, Page.TWR, Page.TWC, Page.CRG]
  | _ => [Page.CDE, Page.CDJ, Page.CDR]

/-- Whether a core may write the register at an aperture offset (R412). -/
def coreMay (c off : Nat) : Bool :=
  off == R.MGC_WDT_KICK || (if off % 0x1000 < 0x100 then (dutyPages c).contains (off / 0x1000) else dutyReg c off)

/-- A write from a path to the register at an aperture offset: a core that does not run writes nothing, and what a running core
may not write is dropped and counted (R412). -/
def fromPath (path : Path) (off : Nat) (s : State) (f : State → Host.Outcome State Fault Refusal) : Host.Outcome State Fault Refusal :=
  match path with
  | .port => f s
  | .core c =>
    if s.pageUp Page.MGC = false ∨ s.fget F.MGC_CORE_STAT_STATE c ≠ 1 then .next s
    else if coreMay c off then f s
    else .next (s.bumpSat F.MGC_CORE_STAT_FOREIGN_WR c)

end Sys2Proof.Machine
end

