-- ==== Sys2Proof/Machine/Groups.lean ====
section
/-! DEFINITION. Group installation and commands (R86–R91, R490), delta records, acknowledgements and seals (R73–R85). -/

namespace Sys2Proof.Machine

open Sys2Proof

/-! ### Installation (R87–R90) -/

/-- Whether two half-open ranges overlap. -/
def overlaps (a n b m : Nat) : Bool := decide (a < b + m) && decide (b < a + n) && decide (0 < n) && decide (0 < m)

/-- The label of a role at level 0 tray, 1 power shelf, 2 cooling loop, 3 switch (R86). -/
def State.label (s : State) (g role level : Nat) : Nat :=
  bits (s.rd (if level < 2 then R.CDE_MEMB_DOM_A else R.CDE_MEMB_DOM_B) (g * 32 + role)) (16 * (level % 2)) 16

/-- Whether two of the roles carry one label at a level marked separate (R87). -/
def State.domainClash (s : State) (g : Nat) : Bool :=
  (setIndices 4 (s.fget F.CDE_GRP_CFG_SEPARATE g)).any fun lv =>
    let ls := (List.range (Grp.n s g)).map fun p => s.label g p lv
    decide (¬ ls.Nodup)

/-- Slots of a tier that regions may use (R88, R255). -/
def tierSlots : Tier → Nat
  | .t1 => 1572864
  | .t2 => 5858928

def Frames.set (f : Frames) (k : Nat) (v : Frame) : Frames := { f with tab := spSet (fun _ => f.dflt) f.tab k v }

/-- Whether a frame is reserved to a partition and holds no page. -/
def Frame.reservedTo (p : Nat) : Frame → Bool
  | .reserved q _ => q == p
  | _ => false

/-- Whether a frame is reserved to a partition, holding a FIXED page or not. -/
def Frame.ownedBy (p : Nat) : Frame → Bool
  | .fixed q _ => q == p
  | f => f.reservedTo p

/-- Whether a T1 frame lies in some partition's Summerhouse (R367, R368). -/
def State.isSummerhouse (s : State) (f : Nat) : Bool :=
  (List.range 8).any fun p =>
    s.fget F.PTC_STAT_STATE p != 0 && decide (s.fget F.PTC_SH_BASE_FRAME p ≤ f)
      && decide (f < s.fget F.PTC_SH_BASE_FRAME p + s.fget F.PTC_SH_FRAMES_FRAMES p)

/-- Whether a slot holds a group, be it in the check of its tag lines (R490). -/
def State.slotTaken (s : State) (h : Nat) : Bool := Grp.state s h != 0 || s.flag F.CDE_GRP_STAT_BUSY h

/-- Whether every frame of a run of slots is reserved to a partition, holding a FIXED page or not, and none lies in a Summerhouse,
which no access reaches (R88 reason 0x7, R368, log entry 74: DEDUCED). -/
def State.ownsSlots (s : State) (p : Nat) (t : Tier) (base n : Nat) : Bool :=
  let lo := base / 16
  let hi := (base + n - 1) / 16
  n == 0 || ((s.frames t).tab.filter fun e =>
    decide (lo ≤ e.1) && decide (e.1 ≤ hi) && e.2.ownedBy p && !(t == .t1 && s.isSummerhouse e.1)).length == hi - lo + 1

/-- First cause for which INSTALL refuses a slot, 0 when it does not (R88). -/
def State.installReason (s : State) (g : Nat) : Nat :=
  let k := Grp.k s g; let m := Grp.m s g; let n := Grp.n s g
  let nodes := (List.range n).map fun p => Grp.node s g p
  let t := Grp.tier s g
  let base := s.fget F.CDE_GRP_BASE_BASE g; let rows := Grp.rows s g
  let tb := s.fget F.CDE_GRP_TAG_TAG_BASE g; let ts := Grp.tagSlots s g
  let others := (List.range 16).filter fun h => h != g && s.slotTaken h && Grp.tier s h == t
  let clash (h : Nat) : Bool :=
    let b := s.fget F.CDE_GRP_BASE_BASE h; let c := s.fget F.CDE_GRP_TAG_TAG_BASE h
    overlaps base rows b (Grp.rows s h) || overlaps base rows c (Grp.tagSlots s h)
      || overlaps tb ts b (Grp.rows s h) || overlaps tb ts c (Grp.tagSlots s h)
  if k < 2 ∨ 16 < k ∨ m < 1 ∨ 4 < m ∨ 20 < n then 1
  else if n ≤ Grp.own s g ∨ n ≤ Grp.mgr s g ∨ Grp.node s g (Grp.own s g) ≠ s.fget F.FBP_NODE_NODE then 2
  else if !(List.range n).all (fun p => s.flag F.CDE_MEMB_NODE_VALID (g * 32 + p)) || decide (¬ nodes.Nodup) then 3
  else if s.domainClash g then 4
  else if rows = 0 ∨ rows % n ≠ 0 ∨ tierSlots t < base + rows ∨ tierSlots t < tb + ts then 5
  else if overlaps base rows tb ts || others.any clash then 6
  else if !s.ownsSlots (Grp.part s g) t base rows || !s.ownsSlots (Grp.part s g) t tb ts then 7
  else if s.slotTaken g = true ∨ ((List.range 16).any fun h => h != g && s.slotTaken h && Grp.gid s h == Grp.gid s g) = true then 8
  else 0

/-- A range of slots of a tier filled with zeros (R89). -/
def State.zeroSlots (s : State) (t : Tier) (base n : Nat) : State :=
  match t with
  | .t1 =>
    (({ s with tower := { s.tower with mem := s.tower.mem.zero (base * 4096) (n * 4096) } }).mirrorFill (base * 4096) (n * 4096)).secsWritten
      (base * 4096) (n * 4096)
  | .t2 =>
    let keep := s.pages.poison.filter fun x => !(decide (base * 64 ≤ x) && decide (x < (base + n) * 64))
    ({ s with ext := s.ext.zero (base * 4096) (n * 4096), pages := { s.pages with poison := keep } } : State).xtStore
      ((List.range (64 * n)).map (· + 64 * base))

/-- What a slot keeps outside its registers starts afresh (R76, R85, R95), and no row of it is PENDING (R122). -/
def State.slotFresh (s : State) (g : Nat) : State :=
  let s := (s.fset F.CDR_CURSOR_ROW g 0).fset F.CDR_LEFT_ROWS g 0
  let c := s.coding
  { s with coding := { c with
      open_ := c.open_.filter (·.slot != g), rx := c.rx.filter (·.slot != g),
      txNext := c.txNext.filter (fun e => e.1 / 32 != g), mgrSeals := c.mgrSeals.filter (fun e => e.1 / 32 != g),
      sealSent := alDel c.sealSent g, sealTold := alDel c.sealTold g, fullWait := c.fullWait.filter (·.2 / 2 ^ 23 != g), actMgr := alDel c.actMgr g, gathers := c.gathers.filter (·.slot != g),
      retry := c.retry.filter (· / 2 ^ 24 != g), arrivals := c.arrivals.filter (fun e => e.1 / 32 != g),
      reportFull := c.reportFull.filter (· != g), repairs := c.repairs.filter (·.slot != g) } }

def State.setBusy (s : State) (g : Nat) (b : SlotBusy) : State :=
  ({ s with coding := { s.coding with busy := alPut s.coding.busy g b } }).set1 F.CDE_GRP_STAT_BUSY g

def State.endBusy (s : State) (g : Nat) : State :=
  ({ s with coding := { s.coding with busy := alDel s.coding.busy g } }).set0 F.CDE_GRP_STAT_BUSY g

/-- A slot's state, and `CDE_ACTIVE` with it (R93). -/
def State.setSlotState (s : State) (g v : Nat) : State :=
  let s := s.fset F.CDE_GRP_STAT_STATE g v
  s.fset F.CDE_ACTIVE_SLOTS 0 ((List.range 16).foldl (fun a h => if Grp.state s h = 0 then a else a + 2 ^ h) 0)

/-- Installation completes: seals as R85 starts them, the interrupt of R88. A slot that was told to drain meanwhile stays so. -/
def State.installed (s : State) (g : Nat) : State :=
  let s := (if Grp.state s g = 0 then s.setSlotState g 1 else s).endBusy g
  let s := (s.wr64 R.CDE_MBR_SEAL_LO g (s.tick.now - 1)).wr64 R.CDE_GRP_SEAL_LO g 0
  let s := { s with coding := { s.coding with
      actMgr := alPut s.coding.actMgr g (Grp.acting s g), sealTold := alPut s.coding.sealTold g (s.tick.now - 1) } }
  s.irq Page.CDE 0

/-- Complete PENDING tag lines for every row of a region, and the area's unused bytes zero (R66, R100). -/
def State.markPending (s : State) (g : Nat) : State :=
  let s := s.zeroSlots (Grp.tier s g) (s.fget F.CDE_GRP_TAG_TAG_BASE g) (Grp.tagSlots s g)
  (List.range (Grp.rows s g)).foldl (fun s r => s.tagPut g r (tagMake s g r [] 1)) s

/-- `CDE_GRP_CMD` INSTALL on a slot (R88, R89, R100, R490). STATE shows ACTIVE with BUSY during the zero fill and while PENDING lines
are written, EMPTY with BUSY during the tag check (log entry 52: a DESIGN CHOICE); an install for rebuild starts the report's counts
over (log entry 57: a DESIGN CHOICE). -/
def State.install (s : State) (g : Nat) : State :=
  let reason := s.installReason g
  let s := s.fset F.CDE_GRP_STAT_REASON g reason
  if reason != 0 then s.irq Page.CDE 1
  else
    let s := (s.slotFresh g).fset F.CDR_LOST_ROLES g 0
    if s.flag F.CDR_CTRL_REBUILD_ON_INSTALL then
      let s := (s.setSlotState g 1).setBusy g .markPending
      let s := ((s.fset F.CDR_CURSOR_ROW g 0).fset F.CDR_LEFT_ROWS g (Grp.rows s g)).wr R.CDR_REPORT_CNT g 0
      (s.wr R.CDR_REPORT_LOST g 0).markPending g
    else if s.flag F.CDE_GRP_CFG_ZERO g then
      let s := (s.setSlotState g 1).setBusy g .zeroFill
      let s := s.zeroSlots (Grp.tier s g) (s.fget F.CDE_GRP_BASE_BASE g) (Grp.rows s g)
      s.zeroSlots (Grp.tier s g) (s.fget F.CDE_GRP_TAG_TAG_BASE g) (Grp.tagSlots s g)
    else s.setBusy g .tagCheck

/-- `INSTALL`. -/
def execInstallGroup (path : Path) (s : State) : Host.Outcome State Fault Refusal :=
  fromPath path R.CDE_GRP_CMD s fun s => onPage s Page.CDE fun s => s.install (s.sel path F.CDE_GRP_SEL_SLOT)

/-- `ZERO_FILL_DONE` (R89). -/
def execZeroFillDone (slot : Fin 16) (s : State) : Host.Outcome State Fault Refusal :=
  onUp s fun s => if alGet s.coding.busy slot = some .zeroFill then s.installed slot else s

/-- The rows that a region's tag lines show PENDING counted, as it was installed with them (R89, R122). -/
def State.countPending (s : State) (g : Nat) : State :=
  s.fset F.CDR_LEFT_ROWS g ((List.range (Grp.rows s g)).filter fun r => s.rowPending g r).length

/-- `TAG_CHECK_DONE`: every line read under R67, then the slot becomes ACTIVE (R490). -/
def execTagCheckDone (slot : Fin 16) (s : State) : Host.Outcome State Fault Refusal :=
  onUp s fun s =>
    if alGet s.coding.busy slot = some .tagCheck then
      (((List.range (Grp.rows s slot)).foldl (fun (s : State) r => (s.tagRead slot r).1) s).countPending slot).installed slot
    else s

/-- `DRAIN` (R91). -/
def execDrainSlot (path : Path) (s : State) : Host.Outcome State Fault Refusal :=
  fromPath path R.CDE_GRP_CMD s fun s => onPage s Page.CDE fun s =>
    let g := s.sel path F.CDE_GRP_SEL_SLOT
    if Grp.state s g = 1 then (s.setSlotState g 2).drainedCheck g else s

/-- `RESUME` (R91). -/
def execResume (path : Path) (s : State) : Host.Outcome State Fault Refusal :=
  fromPath path R.CDE_GRP_CMD s fun s => onPage s Page.CDE fun s =>
    let g := s.sel path F.CDE_GRP_SEL_SLOT
    if Grp.state s g = 3 then s.setSlotState g 1 else s

/-- A slot dissolved from any state: open deltas discarded, the slot EMPTY (R91). -/
def State.dissolve (s : State) (g : Nat) : State :=
  if Grp.state s g = 0 && !s.flag F.CDE_GRP_STAT_BUSY g then s
  else
    let s := ((s.slotFresh g).endBusy g).setSlotState g 0
    let s := (s.set0 F.CDR_CMD_STAT_AWAIT_START g).set0 F.CDR_CMD_STAT_REBUILDING g
    s.updCdj.updSeals

/-- DRAINED slots of partitions being reset are emptied (R376). -/
def State.emptyDrained (s : State) : State :=
  (List.range 16).foldl (fun s g =>
    if Grp.state s g = 3 ∧ s.fget F.PTC_STAT_STATE (Grp.part s g) = 4 then s.dissolve g else s) s

/-! ### Delta records out (R73, R74, R77, R81, R82) -/

/-- A record of an entry for one holder (R73). Type 0x01 delta, 0x08 repair. -/
def State.recordBytes (s : State) (typ g j q count r due seq : Nat) (resent : Bool) (ds : List (Nat × List Byte)) : List Byte :=
  let payload := ds.flatMap (·.2)
  withCrc (leBytes 1 typ ++ leBytes 1 1 ++ leBytes 2 (Grp.gid s g) ++ leBytes 1 (Grp.own s g) ++ leBytes 1 j ++ leBytes 1 q
    ++ leBytes 1 count ++ leBytes 2 due ++ leBytes 1 (Grp.gen s g) ++ leBytes 1 (if resent then 1 else 0) ++ leBytes 4 r
    ++ leBytes 8 (sectorMask ds) ++ leBytes 4 seq ++ leBytes 8 due ++ leBytes 4 (s.fget F.FBP_NODE_NODE)
    ++ leBytes 4 (crc32c payload)) ++ payload

/-- The next sequence number to a holder, and the state in which it is used (R76). -/
def State.nextSeq (s : State) (g role : Nat) : Nat × State :=
  let key := g * 32 + role
  let n := (alGet s.coding.txNext key).getD 1
  (n, { s with coding := { s.coding with txNext := alPut s.coding.txNext key ((n + 1) % 2 ^ 32) } })

/-- The record of an entry handed to the port for one holder, with its sequence number. -/
def State.sendDelta (s : State) (d : Delta) (a : Ack) (seq : Nat) (resent : Bool) : State :=
  s.sendRole d.slot a.role (s.recordBytes 1 d.slot a.parity d.q d.count d.row d.due seq resent d.sectors)

/-- The entry at a place of the journal replaced. -/
def State.setDelta (s : State) (i : Nat) (d : Delta) : State := s.setOpen (modifyAt (fun _ => d) i s.coding.open_)

/-- The records of the open entry at place `i` handed to the port, one for each live holder not sent yet (R73). A parity
error in its payload replaces the sends not yet acknowledged by a reseed of the row's holders (R396). -/
def State.deltaSend (s : State) (i : Nat) (damaged : Bool) : State :=
  match s.coding.open_[i]? with
  | none => s
  | some d =>
    if s.flag F.CDR_CMD_STAT_AWAIT_START d.slot then s
    else if damaged then
      let s := s.logErr { block := Page.CDJ, code := 0x040C, sev := 0, part := some (Grp.part s d.slot),
                          detail := [d.slot, Grp.own s d.slot, d.row, 0] }
      let s := (d.acks.filter fun a => !a.acked && !Grp.lost s d.slot a.role).foldl (fun s a =>
        s.sendRole d.slot a.role (msg32 0x0A (Grp.gid s d.slot) (Grp.own s d.slot) a.role (Grp.gen s d.slot) 0 d.row 0 0)) s
      s.setDelta i { d with acks := d.acks.map fun a => if a.acked then a else { a with reseed := true } }
    else
      let (s, acks) := d.acks.foldl (fun (acc : State × List Ack) a =>
        if a.seq.isSome || a.acked || a.reseed || Grp.lost acc.1 d.slot a.role then (acc.1, acc.2 ++ [a])
        else
          let (q, s) := acc.1.nextSeq d.slot a.role
          (s.sendDelta d a q false, acc.2 ++ [{ a with seq := some q }])) (s, [])
      s.setDelta i { d with acks := acks }

/-- `DELTA_SEND`. -/
def execDeltaSend (entry : Nat) (damaged : Bool) (s : State) : Host.Outcome State Fault Refusal :=
  onUp s fun s => s.deltaSend entry damaged

/-- A sent record that a holder has not acknowledged, resent with RESENT set (R81). -/
def State.resend (s : State) (d : Delta) (a : Ack) : State :=
  match a.seq with
  | some q =>
    if a.acked || a.reseed || Grp.lost s d.slot a.role then s
    else ((s.sendDelta d a q true).bump F.CDJ_RESEND_CNT_COUNT).event 0x0D03 (some (Grp.part s d.slot))
  | none => s

/-- A repair record handed to the port again (R77, R81). -/
def State.resendRepair (s : State) (x : RepairRec) : State :=
  ((s.sendRole x.slot x.role (s.recordBytes 8 x.slot x.parity x.symbol x.count x.row x.stamp x.seq true x.sectors)).bump
    F.CDJ_RESEND_CNT_COUNT).event 0x0D03 (some (Grp.part s x.slot))

/-- The number of the first repair record among the entries that RESEND names: those below are the Cold frame's (log entry 65). -/
abbrev firstRepair : Nat := 2048

/-- `RESEND` (R81). -/
def execResend (entry : Nat) (holder : Fin 32) (s : State) : Host.Outcome State Fault Refusal :=
  onUp s fun s => match s.coding.open_[entry]? with
    | some d => (d.acks.filter (·.role == holder.val)).foldl (fun s a => s.resend d a) s
    | none =>
      if entry < firstRepair then s
      else match s.coding.repairs[entry - firstRepair]? with
        | some x => if x.role = holder.val then s.resendRepair x else s
        | none => s

/-- A role marked suspect in `CDJ_SUSPECT` (R82, R114). -/
def State.suspect (s : State) (g role code : Nat) (row : Nat) : State :=
  let s := s.fset F.CDJ_SUSPECT_ROLES g (setBit (s.fget F.CDJ_SUSPECT_ROLES g) role true)
  (s.irq Page.CDJ 0).logErr { block := if code = 0x0402 then Page.CDJ else Page.CDR, code := code, sev := 0,
                              part := some (Grp.part s g), detail := [g, role, row, Grp.node s g role] }

/-- `ACK_TIMEOUT` (R82). -/
def execAckTimeout (entry : Nat) (holder : Fin 32) (s : State) : Host.Outcome State Fault Refusal :=
  onUp s fun s => match s.coding.open_[entry]? with
    | some d =>
      if d.acks.any (fun a => a.role == holder.val && a.seq.isSome && !a.acked) && !Grp.lost s d.slot holder
      then s.suspect d.slot holder 0x0402 d.row else s
    | none => s

/-! ### Messages in (R78, R97) -/

/-- Serial comparison mod 2^32: a is b or comes before it (R76). -/
def serialLe (a b : Nat) : Bool := decide ((b + 2 ^ 32 - a % 2 ^ 32) % 2 ^ 32 < 2 ^ 31)

/-- The slot a message's group ID and generation name, among ACTIVE, DRAINING and DRAINED slots (R75). -/
def State.slotOf (s : State) (gid gen : Nat) : Option Nat :=
  (List.range 16).find? fun g => Grp.state s g != 0 && Grp.gid s g == gid && Grp.gen s g == gen

/-- A record or message of a wrong generation, group or source: dropped and counted (R75, R97). -/
def State.rxStale (s : State) : State := s.bump F.CDJ_RX_STALE_COUNT

/-- A refused inbound transaction's source and step (R324). -/
def State.lastFail (s : State) (src step : Nat) : State := s.wr R.FBK_LAST_FAIL 0 (src % 2 ^ 20 + step * 2 ^ 20)

/-- A transaction with GATE_OPENED on a channel other than VC0: counted and logged (R320). -/
def State.gateDrop (s : State) (src vc : Nat) (tag st : Nat := 0) : State :=
  ((s.bump F.FBP_GATE_REFUSED_COUNT).lastFail src 2).logErr
    { block := Page.FBP, code := 0x0603, sev := 0, kind := 5, addr := src, detail := [src, tag, vc, st] }

/-- Flits counted on a channel, in a direction (0 sent, 1 received): whole KiB reach the register (R325, R400). -/
def State.countFlits (s : State) (vc dir n : Nat) : State :=
  let k := 2 * vc + dir
  let v := (alGet s.fab.flits k).getD 0 + n
  let s := { s with fab := { s.fab with flits := spSet (fun _ => 0) s.fab.flits k (v % 8) } }
  let s := s.bump (if dir = 0 then F.FVC_TX_KB_KIB else F.FVC_RX_KB_KIB) vc (v / 8)
  (s.active 1 n).event (if dir = 0 then 0x1201 else 0x1202) none n

/-- Flits of a request in the fabric buffers: those of an access it waits for; they leave the buffer when it is made (R310). -/
def Access.rxFlits (a : Access) (vc : Nat) : Nat :=
  let of (hdr : List Byte) (n : Nat) : Nat := if fieldLE hdr 1 1 % 8 = vc then ceilDiv (32 + n) 128 else 0
  match a.use with
  | .fabLoad hdr => of hdr 0
  | .fabStore hdr => of hdr a.bytes.length
  | .fabAtomic hdr payload => of hdr payload.length
  | _ => 0

def fabricArea : Nat := 0xE00000

/-- Byte offset in T0 of a channel's pool of fabric buffers, its response part and the bytes of the two parts: pools in channel order
from VC0, each with its response part first (R310, R509). -/
def State.poolAt (s : State) (vc : Nat) : Nat × Nat × Nat :=
  let resp := 1024 * s.fget F.FVC_BUF_RESP vc
  (fabricArea + (List.range vc).foldl (fun a c => a + 1024 * s.fget F.FVC_BUF_SIZE c) 0, resp,
   1024 * s.fget F.FVC_BUF_SIZE vc - resp)

/-- Flits of a channel and class received since EN was set. -/
def State.rxGot (s : State) (vc : Nat) (resp : Bool) : Nat := (alGet s.fab.rxGot (2 * vc + resp.toNat)).getD 0

/-- Byte offset in T0 where flit `i` of a channel and class lies: its part of the pool is filled round and round (R310, log entry 93:
DESIGN CHOICE). -/
def State.flitAt (s : State) (vc : Nat) (resp : Bool) (i : Nat) : Nat :=
  let (base, r, q) := s.poolAt vc
  if resp then base + 128 * (i % (r / 128)) else base + r + 128 * (i % (q / 128))

/-- A transaction's bytes received: its flits land in the channel's pool, and are counted (R292, R310, R325). -/
def State.received (s : State) (vc : Nat) (resp : Bool) (bytes : List Byte) : State :=
  let n := ceilDiv bytes.length 128
  let g := s.rxGot vc resp
  let land (s : State) (i : Nat) : State :=
    { s with t0 := s.t0.puts (s.flitAt vc resp (g + i)) ((bytes.drop (128 * i)).take 128) }
  let s := (List.range n).foldl land s
  ({ s with fab := { s.fab with rxGot := spSet (fun _ => 0) s.fab.rxGot (2 * vc + resp.toNat) (g + n) } }).countFlits vc 1 n

/-- A message received, under the header R293 gives it, its tag taken as 0. -/
def State.msgIn (s : State) (vc : Nat) (resp gate : Bool) (src : Nat) (msg : List Byte) : State :=
  s.received vc resp ((Txn.ofMsg vc (s.fget F.FBP_NODE_NODE) src msg none resp gate).header ++ msg)

/-- Flits of a channel and class that lie in its pool: those of requests that wait (R310, log entry 78: DEDUCED). -/
def State.rxHeld (s : State) (vc : Nat) (resp : Bool) : Nat :=
  if resp then 0 else s.coding.stalled.foldl (fun n a => n + a.rxFlits vc) 0

/-- Credits for inbound flits of a channel and class: 8 per KiB of its part of the receive pool while the port is enabled and the link
up, each taken while a flit lies in the pool (R290, R310, R453). -/
def State.rxCredits (s : State) (vc : Nat) (resp : Bool) : Nat :=
  if s.flag F.FBP_CTRL_EN && s.flag F.FBP_STAT_LINK_UP then
    let r := s.fget F.FVC_BUF_RESP vc
    8 * (if resp then r else s.fget F.FVC_BUF_SIZE vc - r) - s.rxHeld vc resp
  else 0

/-- Credits of a channel and class returned on `pse_fb_rxcr` since EN was set: those of the pool, and one for each flit that has left it
(R310, R452, R453). -/
def State.rxReturned (s : State) (vc : Nat) (resp : Bool) : Nat :=
  if s.flag F.FBP_CTRL_EN then
    let r := s.fget F.FVC_BUF_RESP vc
    8 * (if resp then r else s.fget F.FVC_BUF_SIZE vc - r) + s.rxGot vc resp - s.rxHeld vc resp
  else 0

/-- A transaction whose flits arrive without a credit: dropped, counted, logged (R453). -/
def State.noCredit (s : State) (src vc : Nat) : State :=
  (s.bump F.FBP_RX_BAD_COUNT).logErr
    { block := Page.FBP, code := 0x0621, sev := 0, kind := 5, addr := src, detail := [src, 0, vc, 0] }

/-- A message received on a channel, with its header's GATE_OPENED and source: checked as R303 steps 1 and 2 give, then
what its unit does with it (R290, R303, R320, R453). -/
def onMsg (s : State) (vc : Nat) (resp gate : Bool) (src : BitVec 20) (msg : List Byte) (f : State → State) :
    Host.Outcome State Fault Refusal :=
  onPage s Page.FBP fun s =>
    if s.rxCredits vc resp = 0 then s.noCredit src.toNat vc
    else
      let s := s.msgIn vc resp gate src.toNat msg
      if nodeMax < src.toNat then s.bump F.FBP_RX_BAD_COUNT
      else if gate && vc != 0 then s.gateDrop src.toNat vc
      else f s

/-- A 32-byte message's slot, when its length, type, version, CRC, group and generation are right and its fabric source is
the node of role `byte 4` or 5 as given (R78, R97, R102). -/
def State.msgSlot (s : State) (src : Nat) (m : List Byte) (typ roleByte : Nat) : State × Option Nat :=
  if m.length != 32 || fieldLE m 0 1 != typ || fieldLE m 1 1 != 1 || !crcOk m 28 then (s, none)
  else match s.slotOf (fieldLE m 2 2) (fieldLE m 6 1) with
    | none => (s.rxStale, none)
    | some g =>
      let role := fieldLE m roleByte 1
      if decide (role < Grp.n s g) && Grp.node s g role == src && !Grp.lost s g role then (s, some g) else (s.rxStale, none)

/-- Repair records that a filter keeps. -/
def State.keepRepairs (s : State) (f : RepairRec → Bool) : State :=
  { s with coding := { s.coding with repairs := s.coding.repairs.filter f } }

/-- A record's turn in a resend put in its place by sequence number, counted from `n` (R76, R77). -/
def putTurn (n : Nat) (x : Nat × (Delta × Ack ⊕ RepairRec)) : List (Nat × (Delta × Ack ⊕ RepairRec)) → List (Nat × (Delta × Ack ⊕ RepairRec))
  | [] => [x]
  | y :: l => if (x.1 + 2 ^ 32 - n) % 2 ^ 32 < (y.1 + 2 ^ 32 - n) % 2 ^ 32 then x :: y :: l else y :: putTurn n x l

/-- Every unacknowledged record to a holder from sequence number `n` on resent, in sequence order (R77). -/
def State.resendFrom (s : State) (g role n : Nat) : State :=
  let deltas := (s.coding.open_.filter (·.slot == g)).flatMap fun d =>
    (d.acks.filter fun a => a.role == role && (a.seq.map (serialLe n ·)).getD false).map fun a =>
      (a.seq.getD 0, (Sum.inl (d, a) : Delta × Ack ⊕ RepairRec))
  let repairs := (s.coding.repairs.filter fun x => x.slot == g && x.role == role && serialLe n x.seq).map fun x =>
    (x.seq, (Sum.inr x : Delta × Ack ⊕ RepairRec))
  ((deltas ++ repairs).foldl (fun l x => putTurn n x l) []).foldl (fun s x => match x.2 with
    | .inl (d, a) => s.resend d a
    | .inr x => s.resendRepair x) s

/-- A cumulative ACK: every record to that holder up to the number is acknowledged (R77, R79). An entry whose sends to the
holder a reseed replaced closes with it too: the holder answers a reseed with an ACK (R396; log entry 21). -/
def State.ackIn (s : State) (g holder seq : Nat) : State :=
  let upd (a : Ack) : Ack := if a.role == holder && ((a.reseed && a.served) || (a.seq.map (serialLe · seq)).getD false) then { a with acked := true } else a
  ((s.keepRepairs fun x => !(x.slot == g && x.role == holder && serialLe x.seq seq)).setOpen
    (s.coding.open_.map fun d => if d.slot == g then { d with acks := d.acks.map upd } else d)).closeDone

/-- `ACK`. -/
def execAck (gate : Bool) (src : BitVec 20) (msg : List Byte) (s : State) : Host.Outcome State Fault Refusal :=
  onMsg s 1 true gate src msg fun s =>
    match s.msgSlot src.toNat msg 2 5 with
      | (s, some g) => if fieldLE msg 4 1 = Grp.own s g then (s.ackIn g (fieldLE msg 5 1) (fieldLE msg 8 4)).emptyDrained else s
      | (s, none) => s

/-- `NAK`: every unacknowledged record to that holder from the number on is resent (R77). -/
def execNak (gate : Bool) (src : BitVec 20) (msg : List Byte) (s : State) : Host.Outcome State Fault Refusal :=
  onMsg s 1 true gate src msg fun s =>
    match s.msgSlot src.toNat msg 3 5 with
      | (s, some g) =>
        if fieldLE msg 4 1 = Grp.own s g then s.resendFrom g (fieldLE msg 5 1) (fieldLE msg 8 4) else s
      | (s, none) => s

/-- `MEMBER_SEAL` at the acting manager (R84, R85). -/
def execMemberSeal (gate : Bool) (src : BitVec 20) (msg : List Byte) (s : State) : Host.Outcome State Fault Refusal :=
  onMsg s 1 false gate src msg fun s =>
    match s.msgSlot src.toNat msg 4 4 with
      | (s, some g) => if Grp.acting s g = Grp.own s g then s.takeMbrSeal g (fieldLE msg 4 1) (fieldLE msg 16 8) else s
      | (s, none) => s

/-- `GROUP_SEAL` from the acting manager (R84, R85). -/
def execGroupSeal (gate : Bool) (src : BitVec 20) (msg : List Byte) (s : State) : Host.Outcome State Fault Refusal :=
  onMsg s 1 false gate src msg fun s =>
    match s.msgSlot src.toNat msg 5 4 with
      | (s, some g) => if fieldLE msg 4 1 = Grp.acting s g then s.setGrpSeal g (fieldLE msg 16 8) else s
      | (s, none) => s

/-! ### Delta records in (R75–R77, R108, R113) -/

/-- The stream of a sender role in a slot. -/
def State.rxGet (s : State) (g role : Nat) : RxStream :=
  (s.coding.rx.find? fun x => x.slot == g && x.role == role).getD ⟨g, role, 1, [], [], 0⟩

def State.rxSet (s : State) (x : RxStream) : State :=
  { s with coding := { s.coding with rx := (s.coding.rx.filter fun y => !(y.slot == x.slot && y.role == x.role)) ++ [x] } }

/-- A cumulative ACK to a sender role (R77). -/
def State.sendAck (s : State) (g role : Nat) : State :=
  let x := s.rxGet g role
  let high := (x.next + 2 ^ 32 - 1 - x.held.length) % 2 ^ 32
  let s := s.rxSet { x with since := 0 }
  s.sendRole g role (msg32 2 (Grp.gid s g) role (Grp.own s g) (Grp.gen s g) 0 high 0 0) true

/-- A NAK with the next expected number (R76). -/
def State.sendNak (s : State) (g role : Nat) : State :=
  s.sendRole g role (msg32 3 (Grp.gid s g) role (Grp.own s g) (Grp.gen s g) 0 (s.rxGet g role).next 0 0) true

/-- The sectors a record carries (R74). -/
def recordSectors (m : List Byte) : List (Nat × List Byte) :=
  (setIndices 64 (fieldLE m 16 8)).mapIdx fun i x => (x, (m.drop (48 + 64 * i)).take 64)

/-- A record's Δ applied to the parity slot and its tag entry written: multiplied by the holder's coefficient for a delta,
as it stands for a repair (R75, R108). The old slot's erasure asks for its repair instead (R115). -/
def State.applyRecord (s : State) (g : Nat) (m : List Byte) : State × Bool :=
  let r := fieldLE m 12 4
  let q := fieldLE m 6 1
  let c := if fieldLE m 0 1 = 8 then 1 else coef (Grp.m s g) (fieldLE m 5 1) q
  let t := Grp.tier s g
  let a := Grp.slotAddr s g r
  let (s, olds) := (recordSectors m).foldl (fun (acc : State × List (Nat × List Byte × Option (List Byte))) x =>
    let (s, rd) := acc.1.readTier t (a + 64 * x.1) 64
    (s, acc.2 ++ [(x.1, x.2, if rd.erased.isEmpty && !rd.poisoned then some rd.raw else none)])) (s, [])
  if olds.any (fun x => x.2.2.isNone) then (s, false)
  else
    let s := olds.foldl (fun (s : State) x =>
      s.writeTier t (a + 64 * x.1) ((xorBytes (x.2.2.getD []) (gfScale c x.2.1)).map some)) s
    let (s, tag) := s.tagRead g r
    (s.tagPut g r (tagMake s g r (tagSet tag q (fieldLE m 8 2) (fieldLE m 7 1)) (fieldLE tag 48 2)), true)

/-- A record consumed: counted towards the ACK after 8 (R77). -/
def State.rxCount (s : State) (g role : Nat) : State :=
  let x := s.rxGet g role
  let s := s.rxSet { x with since := x.since + 1 }
  if 8 ≤ x.since + 1 then s.sendAck g role else s

/-- A record taken in sequence (R113): held behind a gathering row, consumed without being applied on a PENDING or
ESCALATED slot, applied otherwise; on a parity slot found damaged it is held until the repair (R115). -/
def State.takeRecord (s : State) (g role seq : Nat) (m : List Byte) : State :=
  let r := fieldLE m 12 4
  let x := s.rxGet g role
  let s := s.rxSet { x with next := (seq + 1) % 2 ^ 32 }
  let hold (s : State) : State :=
    let x := s.rxGet g role
    s.rxSet { x with held := x.held ++ [(seq, m)] }
  if !x.held.isEmpty || s.gathering g r then hold s
  else
    let (s, tag) := s.tagRead g r
    if tagPending tag || tagEscalated tag then s.rxCount g role
    else
      match s.applyRecord g m with
      | (s, true) => s.rxCount g role
      | (s, false) => hold s

/-- Records of the reorder buffer that have come into sequence (R76); the fuel is the buffer's length. -/
def State.drainAhead (g role : Nat) : Nat → State → State
  | 0, s => s
  | fuel + 1, s =>
    let x := s.rxGet g role
    match alGet x.ahead x.next with
    | none => s
    | some m =>
      let s := s.rxSet { x with ahead := alDel x.ahead x.next }
      State.drainAhead g role fuel (s.takeRecord g role x.next m)

/-- A record of one of the two types received (R75, R76, R97). A NAK answers a failed CRC only where the bytes name a group slot held
and a source role below n that is not LOST (log entry 53: a DESIGN CHOICE). -/
def State.recordIn (s : State) (typ : Nat) (m : List Byte) : State :=
  let slot? := s.slotOf (fieldLE m 2 2) (fieldLE m 10 1)
  let role := fieldLE m 4 1
  let mask := fieldLE m 16 8
  if m.length < 48 || !crcOk m 44 || fieldLE m 40 4 != crc32c (m.drop 48) then
    let s := ((s.bump F.CDJ_RX_BAD_COUNT).irq Page.CDJ 2).logErr { block := Page.CDJ, code := 0x0401, sev := 0, detail := [slot?.getD 0, role, fieldLE m 12 4, fieldLE m 36 4] }
    match slot? with
    | some g => if role < Grp.n s g && !Grp.lost s g role then s.sendNak g role else s
    | none => s
  else match slot? with
    | none => s.rxStale
    | some g =>
      let n := Grp.n s g; let k := Grp.k s g; let r := fieldLE m 12 4; let q := fieldLE m 6 1
      if role < n && (Grp.lost s g role || Grp.node s g role != fieldLE m 36 4) then s.rxStale
      else if fieldLE m 0 1 != typ || fieldLE m 1 1 != 1 || n ≤ role || Grp.rows s g ≤ r || k ≤ q
          || q != symOf n role r || symOf n (Grp.own s g) r != k + fieldLE m 5 1
          || mask == 0 || m.length != 48 + 64 * popCount 64 mask then
        let s := (s.bump F.CDJ_RX_BAD_COUNT).irq Page.CDJ 2
        s.logErr { block := Page.CDJ, code := 0x0405, sev := 0, part := some (Grp.part s g), detail := [g, role, r, fieldLE m 36 4] }
      else
        let seq := fieldLE m 24 4
        let x := s.rxGet g role
        if seq = x.next then
          State.drainAhead g role x.ahead.length (s.takeRecord g role seq m)
        else if serialLe seq x.next then (s.bump F.CDJ_RX_DUP_COUNT).sendAck g role
        else if x.ahead.length < 64 then
          (s.rxSet { x with ahead := alPut x.ahead seq m }).sendNak g role
        else s.sendNak g role

/-- `ACK_SEND`: 1 µs after an applied record (R77). -/
def execAckSend (slot : Fin 16) (member : Fin 32) (s : State) : Host.Outcome State Fault Refusal :=
  onUp s fun s => if Grp.state s slot ≠ 0 ∧ 0 < (s.rxGet slot member).since then s.sendAck slot member else s

/-- `CDJ_HWM_WRITE`: any write sets it to the current open-entry count (R94). -/
def execCdjHwmWrite (path : Path) (s : State) : Host.Outcome State Fault Refusal :=
  fromPath path R.CDJ_HWM s fun s => onPage s Page.CDJ fun s => s.fset F.CDJ_HWM_ENTRIES 0 s.coding.open_.length

end Sys2Proof.Machine
end

