-- ==== Sys2Proof/Machine/Rebuild.lean ====
section
/-! DEFINITION. Losing a member and rebuilding (R95–R121): roles, gathers, decoding, reseeds, the report, stragglers. -/

namespace Sys2Proof.Machine

open Sys2Proof

/-! ### Values and journals (R104, R105) -/

/-- Whether change count a is newer than b (R71, R105): serial comparison of bytes. -/
def newerCount (a b : Nat) : Bool := a % 256 != b % 256 && decide ((a + 256 - b % 256) % 256 < 128)

/-- A 4 KiB block with the sectors of a delta XORed in. -/
def xorSectors (block : List Byte) (ds : List (Nat × List Byte)) : List Byte :=
  ds.foldl (fun b d => (b.take (64 * d.1)) ++ xorBytes ((b.drop (64 * d.1)).take 64) d.2 ++ b.drop (64 * d.1 + 64)) block

/-- A current value with its journal deltas undone, newest first, down to a tag entry (R105 step 4). -/
def unwind (v : SrcVal) (stamp count : Nat) : List Byte :=
  let cur := v.data.getD []
  if tagStamp v.tag 0 = stamp ∧ tagCount v.tag 0 = count then cur
  else (v.journal.filter fun d => newerCount d.count count).foldl (fun b d => xorSectors b d.sectors) cur

/-- Sorted sublists of a given length. -/
def sublistsN : Nat → List Nat → List (List Nat)
  | 0, _ => [[]]
  | _ + 1, [] => []
  | n + 1, x :: xs => (sublistsN n xs).map (x :: ·) ++ sublistsN (n + 1) xs

/-- Whether counts `a` are newer than `b` in the first place where they differ (log entry 55: a DESIGN CHOICE where there are two or
more lost symbols). -/
def newerCounts : List Nat → List Nat → Bool
  | a :: as, b :: bs => if a = b then newerCounts as bs else newerCount a b
  | _, _ => false

/-- The agreeing set J of u parities with the newest counts, lowest indices among equals (R105 step 2). `tags` gives each
surviving parity's tag line. -/
def chooseJ (tags : List (Nat × TagLine)) (lost : List Nat) : Option (List Nat) :=
  let countsOf (J : List Nat) : Option (List Nat) :=
    let cs := J.map fun j => lost.map fun l => tagCount ((alGet tags j).getD []) l
    match cs with
    | [] => some []
    | c :: rest => if rest.all (· == c) then some c else none
  let cands := (sublistsN lost.length (tags.map (·.1))).filterMap fun J => (countsOf J).map fun c => (J, c)
  (cands.foldl (fun (best : Option (List Nat × List Nat)) x => match best with
    | none => some x
    | some b => if newerCounts x.2 b.2 then some x else some b) none).map (·.1)

/-- The value gathered from the role that holds a symbol of a row. -/
def srcOf (got : List SrcVal) (n q r : Nat) : Option SrcVal := got.find? fun v => v.role == roleOfSym n q r

/-- The lost data symbols of a row solved from J (R105 step 5), in the order of `lost`. -/
def solveRow (n k m r : Nat) (got : List SrcVal) (J lost : List Nat) : List (List Byte) :=
  let eqs := J.map fun j =>
    let p := srcOf got n (k + j) r
    let pd := (p.bind (·.data)).getD (List.replicate 4096 0)
    let rhs := ((List.range k).filter (!lost.contains ·)).foldl (fun acc q =>
      match srcOf got n q r with
      | some v => xorBytes acc (gfScale (coef m j q) (unwind v (tagStamp ((p.map (·.tag)).getD []) q) (tagCount ((p.map (·.tag)).getD []) q)))
      | none => acc) pd
    (lost.map fun l => coef m j l, rhs)
  gfSolve lost.length eqs

/-! ### Reports (R118, R119) -/

/-- Whether a recovered stamp is reported AHEAD (R119). -/
def State.ahead (s : State) (g stamp : Nat) : Bool :=
  let G := s.rd64 R.CDR_DECL_SEAL_LO g
  let D := s.rd64 R.CDR_DECL_TICK_LO g
  let d := (stamp + 65536 - G % 65536) % 65536
  decide (65536 ≤ D - G) || (decide (0 < d) && decide (d ≤ D - G))

/-! ### Ending a gather -/

def State.putGather (s : State) (x : Gather) : State :=
  let s := s.dropGather x.slot x.row
  { s with coding := { s.coding with gathers := s.coding.gathers ++ [x] } }

/-- Held records released once their row is written: applied only when newer than the entry written, acknowledged either
way (R113). The fuel is the number held. -/
def State.releaseHeld (g role : Nat) : Nat → State → State
  | 0, s => s
  | fuel + 1, s =>
    let x := s.rxGet g role
    match x.held with
    | [] => s
    | (_, m) :: rest =>
      let r := fieldLE m 12 4
      if s.gathering g r then s
      else
        let (s, tag) := s.tagRead g r
        let go (s : State) : State := State.releaseHeld g role fuel ((s.rxSet { x with held := rest }).rxCount g role)
        if tagPending tag || tagEscalated tag || !newerCount (fieldLE m 7 1) (tagCount tag (fieldLE m 6 1)) then go s
        else match s.applyRecord g m with
          | (s, true) => go s
          | (s, false) => s

/-- Every stream of a slot released as far as it can go. -/
def State.releaseAll (s : State) (g : Nat) : State :=
  (s.coding.rx.filter (·.slot == g)).foldl (fun s x => State.releaseHeld g x.role x.held.length s) s

/-! ### Requests (R102–R104) -/

/-- A gather request to a role; its tag is remembered in the gather. -/
def State.askRole (s : State) (x : Gather) (role : Nat) (tagOnly : Bool) : State × Gather :=
  let t := s.coding.reqTag
  let s := { s with coding := { s.coding with reqTag := (t + 1) % 2 ^ 32 } }
  let s := s.sendRole x.slot role
    (msg32 6 (Grp.gid s x.slot) (Grp.own s x.slot) role (Grp.gen s x.slot) (if tagOnly then 1 else 0) x.row t 0)
  (s, { x with asked := x.asked ++ [(t, role, tagOnly)] })

/-- Requests to several roles. -/
def State.askRoles (s : State) (x : Gather) (roles : List Nat) (tagOnly : Bool) : State × Gather :=
  roles.foldl (fun acc role => acc.1.askRole acc.2 role tagOnly) (s, x)

/-- Roles a gather may use: live, not this engine's, not failed. -/
def State.usable (s : State) (x : Gather) : List Nat :=
  (Grp.live s x.slot).filter fun p => p != Grp.own s x.slot && !x.failed.contains p

/-- Data symbols of the row with no usable role, this engine's own among them when its slot is a data slot. -/
def State.lostData (s : State) (x : Gather) : List Nat :=
  let n := Grp.n s x.slot
  (List.range (Grp.k s x.slot)).filter fun q => !(s.usable x).contains (roleOfSym n q x.row)

/-- Roles that hold the row's parities and may be used. -/
def State.parityRoles (s : State) (x : Gather) : List Nat :=
  (s.usable x).filter fun p => Grp.k s x.slot ≤ symOf (Grp.n s x.slot) p x.row

/-- Roles that hold the row's data symbols and may be used. -/
def State.dataRoles (s : State) (x : Gather) : List Nat :=
  (s.usable x).filter fun p => symOf (Grp.n s x.slot) p x.row < Grp.k s x.slot

/-- A gather started over its usable sources: tag lines first when some data symbol is lost, otherwise the data symbols in
full (R105, R106). Too few sources escalate the row when more than m of its symbols are unavailable: this engine's own, those of LOST
roles and of roles that answered so (R109); otherwise a PENDING row waits for a later pass, and a live member's slot is tried again at
once with every source that was only late (R114, R115, R117). -/
def State.gatherBegin (s : State) (x : Gather) : State :=
  let x := { x with asked := [], got := [], setJ := [], step := 1, solved := [], stale := [] }
  let g := x.slot
  let out := (List.range (Grp.n s g)).filter fun p => p != Grp.own s g && (Grp.lost s g p || x.gone.contains p)
  if Grp.m s g < out.length + 1 then (s.escalate g x.row 1).releaseAll g
  else if x.use = .rebuild ∧ (s.parityRoles x).length < (s.lostData x).length then
    let s := s.dropGather g x.row
    ({ s with coding := { s.coding with retry := nsAdd s.coding.retry (g * 2 ^ 24 + x.row) } }).releaseAll g
  else
    let x := if (s.parityRoles x).length < (s.lostData x).length then { x with failed := x.gone } else x
    if (s.lostData x).isEmpty then
      let (s, x) := s.askRoles { x with step := 2 } (s.dataRoles x) false
      s.putGather x
    else
      let (s, x) := s.askRoles x (s.parityRoles x) true
      s.putGather x

/-- Sectors of a row's slot that fail their parity. -/
def State.erasedSecs (s : State) (g r : Nat) : List Nat :=
  let base := Grp.slotAddr s g r / 64
  match Grp.tier s g with
  | .t1 => (List.range 64).filter fun i => s.tower.mem.secRead true (base + i) == .parity
  | .t2 => []

/-- A row's gather started (R110, R111, R115, R117); `found` are sectors of the slot that the external tier's controller has given up
(R450). Under a gather that is under way a reseed begins it anew, to be acknowledged at its end (R117); a sector that fails and did
not when it began ends it (R116). -/
def State.gatherStart (s : State) (g r : Nat) (use : GatherUse) (found : List Nat := []) : State :=
  let bad := s.erasedSecs g r ++ found
  match s.coding.gathers.find? fun x => x.slot == g && x.row == r with
  | some x =>
    if use = .reseed then s.gatherBegin { x with reseed := true, failed := [], gone := [] }
    else if use = .erasure ∧ bad.any (fun i => !x.bad.contains i) = true then (s.escalate g r 3).releaseAll g
    else s
  | none =>
    let s := { s with coding := { s.coding with retry := nsDel s.coding.retry (g * 2 ^ 24 + r) } }
    s.gatherBegin ⟨g, r, use, 1, [], [], [], [], [], use == .reseed, bad, [], []⟩

/-- Streams whose oldest held record waits on a damaged parity slot have the slot repaired (R113, R115). -/
def State.heldRepairs (s : State) : State :=
  s.coding.rx.foldl (fun s x => match x.held with
    | [] => s
    | (_, m) :: _ => s.gatherStart x.slot (fieldLE m 12 4) .erasure) s

/-- The gather an access waits for, if it names one; a degraded decode is counted (R111, R112, R115). A row to be retried after
the next background pass waits for it (R114). -/
def State.gatherFor (s : State) (g : Nat) (need : Option (Nat × GatherUse)) : State :=
  match need with
  | none => s
  | some (r, .rebuild) =>
    if s.gathering g r || s.coding.retry.contains (g * 2 ^ 24 + r) then s
    else (s.bump F.CDR_DEGRADED_CNT_COUNT g).gatherStart g r .rebuild
  | some (r, use) => s.gatherStart g r use

/-- A holder that was sent a reseed has fetched this member's value: an ACK of its from now on ends what the entries of the row owe it
(R396; log entry 21: DEDUCED). -/
def State.reseedServed (s : State) (g r role : Nat) : State :=
  s.setOpen (s.coding.open_.map fun d =>
    if d.slot == g && d.row == r then { d with acks := d.acks.map fun a => if a.role == role && a.reseed then { a with served := true } else a } else d)

/-- A member's answer to a gather request (R103, R104). One of an unknown group or generation is dropped (R102); one whose requesting
node or row does not match is REFUSED (log entry 61: DEDUCED), and so is one for another target role; an answer other than OK carries
no payload (log entry 60: DESIGN CHOICES). A parity error found on the way asks for the slot's repair. -/
def State.gatherServe (s : State) (src : Nat) (m : List Byte) : State :=
  if m.length != 32 || fieldLE m 0 1 != 6 || fieldLE m 1 1 != 1 || !crcOk m 28 then s
  else match s.slotOf (fieldLE m 2 2) (fieldLE m 6 1) with
  | none => s.rxStale
  | some g =>
    let r := fieldLE m 8 4
    let own := Grp.own s g
    let role := fieldLE m 4 1
    let q := symOf (Grp.n s g) own r
    let tagOnly := bit (fieldLE m 7 1) 0
    let known := decide (role < Grp.n s g) && Grp.node s g role == src && !Grp.lost s g role
    let answer (s : State) (status stamp count d : Nat) (payload : List Byte) : State :=
      s.sendMsg 1 src (resp := true) (withCrc (leBytes 1 7 ++ leBytes 1 1 ++ leBytes 2 (Grp.gid s g) ++ leBytes 1 own ++ leBytes 1 (fieldLE m 4 1)
        ++ leBytes 1 (Grp.gen s g) ++ leBytes 1 status ++ leBytes 4 r ++ leBytes 4 (fieldLE m 12 4) ++ leBytes 1 q ++ leBytes 1 d
        ++ leBytes 2 stamp ++ leBytes 1 count ++ leBytes 3 0 ++ leBytes 4 payload.length ++ leBytes 12 0 ++ leBytes 4 (crc32c payload)) ++ payload)
    if !known || Grp.rows s g ≤ r || fieldLE m 5 1 != own then answer s 2 0 0 0 []
    else
      let (s, tag) := s.tagRead g r
      if tagPending tag || tagEscalated tag then answer s 1 0 0 0 []
      else
        let (s, rd) := if tagOnly then (s, (⟨[], []⟩ : Read)) else s.readTier (Grp.tier s g) (Grp.slotAddr s g r) 4096
        if !rd.erased.isEmpty || rd.poisoned then (answer s 1 0 0 0 []).gatherStart g r .erasure
        else
          let js := if q < Grp.k s g then (s.chain g r).reverse else []
          let jb := js.flatMap fun d => leBytes 2 d.due ++ leBytes 1 d.count ++ leBytes 5 0 ++ leBytes 8 d.mask ++ d.sectors.flatMap (·.2)
          let isData := q < Grp.k s g
          let s := if tagOnly then s else s.reseedServed g r role
          answer s 0 (if isData then tagStamp tag 0 else 0) (if isData then tagCount tag 0 else 0) js.length (tag ++ rd.raw ++ jb)

/-! ### Responses (R105–R109, R115–R117) -/

/-- The journal deltas of a response payload, newest first (R103); the fuel is their number. -/
def parseJournal : Nat → List Byte → List JDelta
  | 0, _ => []
  | d + 1, bs =>
    let mask := fieldLE bs 8 8
    let idx := setIndices 64 mask
    let secs := idx.mapIdx fun i x => (x, (bs.drop (16 + 64 * i)).take 64)
    ⟨fieldLE bs 0 2, fieldLE bs 2 1, mask, secs⟩ :: parseJournal d (bs.drop (16 + 64 * idx.length))

/-- This engine's slot written with a recovered data value: tag entry 0 from J, and for an erased slot its own younger open
entries rolled forward, oldest first (R107, R115). -/
def State.writeData (s : State) (x : Gather) (v : List Byte) (stamp count j : Nat) : State :=
  let g := x.slot; let r := x.row
  let young := if x.use = .erasure then (s.chain g r).filter fun d => newerCount d.count count else []
  let v := young.foldl (fun b d => xorSectors b d.sectors) v
  let (stamp', count') := young.foldl (fun _ d => (d.due % 65536, d.count)) (stamp, count)
  let (s, tag) := s.tagRead g r
  let s := s.writeTier (Grp.tier s g) (Grp.slotAddr s g r) (v.map some)
  let s := s.tagPut g r (tagMake s g r (tagSet tag 0 stamp' count') 0)
  match x.use with
  | .erasure => s.logErr { block := Page.CDR, code := 0x0406, sev := 0, part := some (Grp.part s g),
                           kind := if Grp.tier s g = .t1 then 1 else 3, addr := Grp.slotAddr s g r, detail := [g, Grp.own s g, r, 0] }
  | _ =>
    let s := if s.ahead g stamp then s.report g r stamp count 0 j else s
    s.rowDone g

/-- This engine's parity slot rebuilt over current values, its entries from the values used (R106). -/
def State.writeParity (s : State) (x : Gather) (vals : List (Nat × List Byte × Nat × Nat)) : State :=
  let g := x.slot; let r := x.row
  let m := Grp.m s g
  let j0 := symOf (Grp.n s g) (Grp.own s g) r - Grp.k s g
  let p := vals.foldl (fun acc v => xorBytes acc (gfScale (coef m j0 v.1) v.2.1)) (List.replicate 4096 (0 : Byte))
  let (s, tag) := s.tagRead g r
  let was := tagPending tag
  let s := s.writeTier (Grp.tier s g) (Grp.slotAddr s g r) (p.map some)
  let line := vals.foldl (fun t v => tagSet t v.1 v.2.2.1 v.2.2.2) tag
  let s := s.tagPut g r (tagMake s g r line 0)
  let s := if x.use = .erasure then
      s.logErr { block := Page.CDR, code := 0x0406, sev := 0, part := some (Grp.part s g), detail := [g, Grp.own s g, r, 0] }
    else s
  if was then s.rowDone g else s

/-- The surviving parities outside J whose entry for a lost symbol is older than J's (R108). -/
def staleParities (n k r : Nat) (tags : List (Nat × TagLine)) (J lost : List Nat) : List Nat :=
  let ref := (alGet tags (J.headD 0)).getD []
  (tags.filter fun t => !J.contains t.1 && lost.any fun l => newerCount (tagCount ref l) (tagCount t.2 l)).map fun t => roleOfSym n (k + t.1) r

/-- Tag lines of the parities a gather has, by parity index. -/
def parityTags (n k r : Nat) (got : List SrcVal) : List (Nat × TagLine) :=
  (got.filter fun v => k ≤ symOf n v.role r).foldl (fun acc v => alPut acc (symOf n v.role r - k) v.tag) []

/-- Whether a source's value reaches back to a tag entry through its journal (R104, R105 step 4). -/
def reaches (v : SrcVal) (stamp count : Nat) : Bool :=
  (tagStamp v.tag 0 == stamp && tagCount v.tag 0 == count)
    || (v.journal.filter fun d => newerCount d.count count).length == (tagCount v.tag 0 + 256 - count % 256) % 256

/-- What a stale parity should hold XOR what it holds, its changed sectors (R108); sector 0 as zeros when nothing differs but the
entry (R74). None while some survivor's value, as last fetched, does not reach back to the parity's entry. -/
def State.repairDiff (s : State) (x : Gather) (role : Nat) : Option (List (Nat × List Byte)) :=
  let g := x.slot; let r := x.row
  let n := Grp.n s g; let k := Grp.k s g; let m := Grp.m s g
  let j := symOf n role r - k
  let lost := x.solved.map (·.1)
  match x.got.find? fun v => v.role == role && v.data.isSome with
  | none => none
  | some pv =>
    let survivors := (List.range k).filter (!lost.contains ·)
    let want := survivors.foldl (fun acc q => match srcOf x.got n q r with
      | some v => xorBytes acc (gfScale (coef m j q) (unwind v (tagStamp pv.tag q) (tagCount pv.tag q)))
      | none => acc) (List.replicate 4096 (0 : Byte))
    let want := x.solved.foldl (fun acc l => xorBytes acc (gfScale (coef m j l.1) l.2.2.2)) want
    let diff := xorBytes want (pv.data.getD [])
    let ds := (chunks 64 diff).mapIdx (fun i d => (i, d)) |>.filter fun d => !d.2.all (· == 0)
    let ds := if ds.isEmpty then [(0, List.replicate 64 0)] else ds
    let known := survivors.all fun q => match srcOf x.got n q r with
      | some v => reaches v (tagStamp pv.tag q) (tagCount pv.tag q)
      | none => false
    if known then some ds else none

/-- A repair record for a stale parity, for this engine's symbol, kept until it is acknowledged (R77, R108). Its due tick field is J's
16-bit stamp (log entry 56: a DESIGN CHOICE). -/
def State.sendRepair (s : State) (x : Gather) (role : Nat) (ds : List (Nat × List Byte)) : State :=
  let g := x.slot; let r := x.row
  let n := Grp.n s g
  let j := symOf n role r - Grp.k s g
  match x.solved.find? fun l => l.1 == symOf n (Grp.own s g) r with
  | none => s
  | some (l, stamp, count, _) =>
    let (q, s) := s.nextSeq g role
    let rec_ : RepairRec := ⟨g, role, q, j, l, count, stamp, r, ds⟩
    let s := { s with coding := { s.coding with repairs := s.coding.repairs ++ [rec_] } }
    let s := s.bump F.CDR_REPAIR_CNT_COUNT g
    s.sendRole g role (s.recordBytes 8 g j l count r stamp q false ds)

/-- The end of a row's gather, its stale parities repaired: the slot is written, a data slot from what was solved, a parity slot from
`vals`; PENDING goes, and held records are released (R106–R108, R113). A completed reseed is answered with an ACK to every live role (log
entry 59: a DESIGN CHOICE). -/
def State.gatherEnd (s : State) (x : Gather) (vals : List (Nat × List Byte × Nat × Nat)) : State :=
  let g := x.slot
  let q0 := symOf (Grp.n s g) (Grp.own s g) x.row
  if s.tagLost g x.row then ((s.tagRead g x.row).1).releaseAll g
  else
    let s := if q0 < Grp.k s g then
        match x.solved.find? (·.1 == q0) with
        | some (_, stamp, count, v) => s.writeData x v stamp count (x.setJ.headD 0xFF)
        | none => s
      else s.writeParity x vals
    let s := s.dropGather g x.row
    let s := if x.reseed then
        (Grp.live s g).foldl (fun s p => if p = Grp.own s g then s else s.sendAck g p) s
      else s
    s.releaseAll g

/-- The stale parities of a row repaired as far as what was fetched allows; what is left is fetched again, with the survivors' values,
and the row gathered anew when they no longer suffice (R108). The row stays PENDING until its parities are repaired. -/
def State.repairStep (s : State) (x : Gather) : State :=
  let (s, left) := x.stale.foldl (fun (acc : State × List Nat) role => match acc.1.repairDiff x role with
    | some ds => (acc.1.sendRepair x role ds, acc.2)
    | none => (acc.1, acc.2 ++ [role])) (s, [])
  let left := left.filter fun p => (s.usable x).contains p
  if left.isEmpty then s.gatherEnd { x with stale := [] } []
  else if (x.solved.map (·.1)).length + (s.dataRoles x).length < Grp.k s x.slot then s.gatherBegin x
  else
    let (s, x) := s.askRoles { x with stale := left, got := [] } (left ++ s.dataRoles x) false
    s.putGather x

/-- Whether what was gathered forms one picture: J still agrees on the lost symbols, and every surviving value reaches back to
each of J's entries (R105). -/
def gatherMeets (n k r : Nat) (got : List SrcVal) (J lost : List Nat) : Bool :=
  let tags := (parityTags n k r got).filter fun t => J.contains t.1
  (lost.isEmpty || (chooseJ tags lost).isSome) &&
    tags.all fun t => ((List.range k).filter (!lost.contains ·)).all fun q => match srcOf got n q r with
      | some v => reaches v (tagStamp t.2 q) (tagCount t.2 q)
      | none => false

/-- Whether an erased block's own open entries cover every change after J's entry for it; one that closed meanwhile has reached the
parities, whose lines are then read again (R105, R115). -/
def State.ownReaches (s : State) (x : Gather) (count : Nat) : Bool :=
  match (s.tagRead x.slot x.row).2 with
  | tag => ((s.chain x.slot x.row).filter fun d => newerCount d.count count).length == (tagCount tag 0 + 256 - count % 256) % 256

/-- All sources asked for have answered: the next step of R105, the repair of stale parities (R108), or the row's end. -/
def State.gatherStep (s : State) (x : Gather) : State :=
  let g := x.slot; let r := x.row
  let n := Grp.n s g; let k := Grp.k s g; let m := Grp.m s g
  let q0 := symOf n (Grp.own s g) r
  let lost := s.lostData x
  if !x.asked.isEmpty then s.putGather x
  else if x.step = 1 then
    match chooseJ (parityTags n k r x.got) lost with
    | none => (s.escalate g r 2).releaseAll g
    | some J =>
      let (s, x) := s.askRoles { x with step := 2, setJ := J } (J.map fun j => roleOfSym n (k + j) r) false
      let (s, x) := s.askRoles x (s.dataRoles x) false
      s.putGather x
  else if x.step = 2 && !gatherMeets n k r x.got x.setJ lost then s.gatherBegin x
  else if x.step = 2 && s.tagLost g r then ((s.tagRead g r).1).releaseAll g
  else if x.step = 2 then
    let tags := parityTags n k r x.got
    let vals := solveRow n k m r x.got x.setJ lost
    let ref := (alGet tags (x.setJ.headD 0)).getD []
    let x := { x with solved := (lost.zip vals).map fun l => (l.1, tagStamp ref l.1, tagCount ref l.1, l.2) }
    if q0 < k then
      if x.use = .erasure ∧ s.ownReaches x (tagCount ref q0) = false then s.gatherBegin x
      else
        let stale := if x.use = .rebuild then staleParities n k r tags x.setJ lost else []
        if stale.isEmpty then s.gatherEnd x []
        else
          let (s, x) := s.askRoles { x with step := 3, stale := stale } stale false
          s.putGather x
    else
      let cur := ((List.range k).filter (!lost.contains ·)).filterMap fun q =>
        (srcOf x.got n q r).map fun v => (q, v.data.getD [], tagStamp v.tag 0, tagCount v.tag 0)
      s.gatherEnd x (cur ++ x.solved.map fun l => (l.1, l.2.2.2, l.2.1, l.2.2.1))
  else s.repairStep x

/-- A source gave no symbol: UNAVAILABLE (`gone`), REFUSED or no answer; the gather starts over without it (R109, R114). In the repair
of stale parities a parity that is not available needs none, its holder rebuilds it; another source is asked again. -/
def State.gatherFail (s : State) (x : Gather) (role : Nat) (gone : Bool) : State :=
  if x.step = 3 then
    let left := x.asked.filter (·.2.1 != role)
    s.gatherStep { x with asked := left, stale := if gone then x.stale.filter (· != role) else x.stale }
  else
    (s.dropGather x.slot x.row).gatherBegin { x with failed := x.failed ++ [role], gone := if gone then nsAdd x.gone role else x.gone }

/-- A gather response (R103, R105). `damaged` says a further parity failure met the gathered copy (R116). -/
def State.gatherIn (s : State) (src : Nat) (m : List Byte) (damaged : Bool) : State :=
  if m.length < 48 || !crcOk m 44 || fieldLE m 0 1 != 7 || fieldLE m 1 1 != 1 || fieldLE m 40 4 != crc32c (m.drop 48) then s
  else match s.slotOf (fieldLE m 2 2) (fieldLE m 6 1) with
    | none => s.rxStale
    | some g =>
      let role := fieldLE m 4 1
      if Grp.n s g ≤ role || Grp.lost s g role || Grp.node s g role != src then s.rxStale
      else match s.coding.gathers.find? (fun x => x.slot == g && x.row == fieldLE m 8 4 && x.asked.any fun a => a.1 == fieldLE m 12 4 && a.2.1 == role) with
        | none => s
        | some x =>
          if damaged then (s.escalate g x.row 3).releaseAll g
          else if fieldLE m 7 1 != 0 then s.gatherFail x role (fieldLE m 7 1 == 1)
          else
            let tagOnly := (x.asked.find? (·.1 == fieldLE m 12 4)).map (·.2.2) |>.getD false
            let p := m.drop 48
            let v : SrcVal := ⟨role, p.take 64, if tagOnly then none else some ((p.drop 64).take 4096),
              if tagOnly then [] else parseJournal (fieldLE m 17 1) (p.drop 4160)⟩
            let x := { x with asked := x.asked.filter (fun a => a.1 != fieldLE m 12 4),
                              got := x.got.filter (fun w => w.role != role) ++ [v] }
            s.gatherStep x

/-- A source has not answered in time (R114). -/
def State.gatherTimeout (s : State) (g r role : Nat) : State :=
  match s.coding.gathers.find? (fun x => x.slot == g && x.row == r && x.asked.any fun a => a.2.1 == role) with
  | none => s
  | some x => (s.suspect g role 0x0409 r).gatherFail x role false

/-- A delta or repair record received; parity slots found damaged are repaired (R75, R108, R115). -/
def State.recordRx (s : State) (typ : Nat) (m : List Byte) : State :=
  (s.recordIn typ m).heldRepairs

/-! ### Stragglers (R121) -/

/-- A role counted as last once more in the current window (R121). -/
def State.countLast (s : State) (g role : Nat) : State :=
  let s := s.bumpSat F.CDR_STRAG_LAST_CUR (g * 32 + role)
  let c := s.fget F.CDR_STRAG_LAST_CUR (g * 32 + role)
  let th := max 1 (s.fget F.CDR_STRAG_THRESH_COUNT g)
  if th ≤ c ∧ (c = th ∨ bit (s.fget F.CDR_STRAG_SUSPECT_ROLES g) role = false) then
    let s := s.fset F.CDR_STRAG_SUSPECT_ROLES g (setBit (s.fget F.CDR_STRAG_SUSPECT_ROLES g) role true)
    (s.irq Page.CDR 2).logErr { block := Page.CDR, code := 0x040A, sev := 0, part := some (Grp.part s g), detail := [g, role, 0, Grp.node s g role] }
  else s

/-- Stands for "no message came" among the offsets of a tick. -/
def missingOffset : Nat := 2 ^ 40

/-- A tick whose every live role is known: the largest offset counts as last (R121), in the window then current (log entry 58: a
DESIGN CHOICE). -/
def State.settleTick (s : State) (g t : Nat) : State :=
  let offs := (Grp.live s g).map fun p => (p, alGet ((alGet s.coding.arrivals (g * 32 + p)).getD []) t)
  if offs.all (fun o => o.2.isSome) then
    let came := offs.filter fun o => o.2 != some missingOffset
    let top := came.foldl (fun a o => max a (o.2.getD 0)) 0
    let s := (came.filter fun o => o.2 == some top).foldl (fun s o => s.countLast g o.1) s
    let strip (e : Nat × List (Nat × Nat)) : Nat × List (Nat × Nat) := if e.1 / 32 = g then (e.1, alDel e.2 t) else e
    { s with coding := { s.coding with arrivals := s.coding.arrivals.map strip } }
  else s

/-- Every tick that a slot's arrivals wait for is settled where it can be. -/
def State.settleAll (s : State) (g : Nat) : State :=
  let ticks := ((s.coding.arrivals.filter fun e => e.1 / 32 == g).flatMap fun e => e.2.map (·.1)).foldl nsAdd []
  ticks.foldl (fun s t => s.settleTick g t) s

/-! ### Roles (R95–R101) -/

/-- Streams of a role start over at 1 in both directions (R76, R95, R101). -/
def State.resetStreams (s : State) (g role : Nat) : State :=
  { s with coding := { s.coding with
      txNext := alDel s.coding.txNext (g * 32 + role), rx := s.coding.rx.filter fun x => !(x.slot == g && x.role == role),
      repairs := s.coding.repairs.filter fun x => !(x.slot == g && x.role == role) } }

/-- What a role owes open entries counts as given (R95). -/
def State.acksGiven (s : State) (g role : Nat) : State :=
  s.setOpen (s.coding.open_.map fun d =>
    if d.slot == g then { d with acks := d.acks.map fun a => if a.role == role then { a with acked := true } else a } else d)

/-- First cause for which a role command is refused (R122): 1 DECLARE_LOST, 2 REPLACE, 3 START. -/
def State.roleReason (s : State) (g op role node : Nat) : Nat :=
  let n := Grp.n s g
  let others := (List.range n).filter (· != role)
  let clash := (setIndices 4 (s.fget F.CDE_GRP_CFG_SEPARATE g)).any fun lv =>
    let l := bits (s.rd (if lv < 2 then R.CDR_ROLE_DOM_A else R.CDR_ROLE_DOM_B) g) (16 * (lv % 2)) 16
    others.any fun p => s.label g p lv == l
  if Grp.state s g = 0 then 1
  else if n ≤ role ∨ (op ≠ 3 ∧ role = Grp.own s g) ∨ (op = 3 ∧ role ≠ Grp.own s g) then 2
  else if (op = 1 ∧ Grp.lost s g role = true) ∨ (op = 2 ∧ Grp.lost s g role = false)
      ∨ (op = 3 ∧ s.flag F.CDR_CMD_STAT_AWAIT_START g = false) then 3
  else if op = 2 ∧ clash = true then 4
  else if op = 2 ∧ (others.any fun p => !Grp.lost s g p && Grp.node s g p == node) = true then 5
  else 0

/-- DECLARE_LOST (R95, R96, R98). Given on the spare for another LOST role it does all that R95 lists there too, and so overwrites
`CDR_DECL_SEAL` and `CDR_DECL_TICK` with the spare's own (log entry 88: DEDUCED). -/
def State.declareLost (s : State) (g role : Nat) : State :=
  let reason := s.roleReason g 1 role 0
  let s := s.fset F.CDR_CMD_STAT_REASON g reason
  if reason != 0 then s
  else
    let node := Grp.node s g role
    let s := (s.wr64 R.CDR_DECL_SEAL_LO g (s.rd64 R.CDE_GRP_SEAL_LO g)).wr64 R.CDR_DECL_TICK_LO g s.tick.now
    let s := s.fset F.CDR_LOST_ROLES g (setBit (s.fget F.CDR_LOST_ROLES g) role true)
    let s := (s.wr R.CDE_MEMB_NODE (g * 32 + role) 0).resetStreams g role
    let s := (s.acksGiven g role).closeDone
    let s := s.logErr { block := Page.CDR, code := 0x0408, sev := 0, part := some (Grp.part s g), detail := [g, role, 0, node] }
    let s := (s.coding.gathers.filter fun x => x.slot == g && x.asked.any fun a => a.2.1 == role).foldl (fun s x => s.gatherFail x role false) s
    ((s.actingCheck g).formGrpSeal g).settleAll g

/-- REPLACE (R101). -/
def State.replaceRole (s : State) (g role node : Nat) : State :=
  if nodeMax < node then s
  else
  let reason := s.roleReason g 2 role node
  let s := s.fset F.CDR_CMD_STAT_REASON g reason
  if reason != 0 then s
  else
    let i := g * 32 + role
    let s := (s.fset F.CDE_MEMB_NODE_NODE i node).set1 F.CDE_MEMB_NODE_VALID i
    let s := (s.wr R.CDE_MEMB_DOM_A i (s.rd R.CDR_ROLE_DOM_A g)).wr R.CDE_MEMB_DOM_B i (s.rd R.CDR_ROLE_DOM_B g)
    let s := s.fset F.CDR_LOST_ROLES g (setBit (s.fget F.CDR_LOST_ROLES g) role false)
    ((s.resetStreams g role)).actingCheck g

/-- START on the spare (R99, R100, R110). -/
def State.startRebuild (s : State) (g role : Nat) : State :=
  let reason := s.roleReason g 3 role 0
  let s := s.fset F.CDR_CMD_STAT_REASON g reason
  if reason != 0 then s
  else
    let s := ((s.set0 F.CDR_CMD_STAT_AWAIT_START g).set1 F.CDR_CMD_STAT_REBUILDING g).fset F.CDR_CURSOR_ROW g 0
    if s.fget F.CDR_LEFT_ROWS g = 0 then (s.fset F.CDR_LEFT_ROWS g 1).rowDone g else s

/-- The next PENDING row of a region that is being rebuilt, from the cursor on. -/
def State.nextPending (s : State) (g : Nat) : Option Nat :=
  (List.range (Grp.rows s g)).find? fun r => decide (s.fget F.CDR_CURSOR_ROW g ≤ r) && s.rowPending g r && !s.gathering g r

/-- Whether the background rebuild is still in the region of a lower slot (R110; log entry 62: the order of the regions is the model's,
a DESIGN CHOICE). -/
def State.regionBefore (s : State) (g : Nat) : Bool :=
  (List.range g).any fun h => s.flag F.CDR_CMD_STAT_REBUILDING h && (s.nextPending h).isSome

/-- The background rebuild of the next PENDING row from the cursor, in ascending order, region by region; rows left over are tried
again after the pass (R110, R114). -/
def State.rebuildRow (s : State) (g : Nat) : State :=
  if !s.flag F.CDR_CMD_STAT_REBUILDING g || s.flag F.CDR_CTRL_PAUSE || s.regionBefore g then s
  else match s.nextPending g with
    | some r => (s.fset F.CDR_CURSOR_ROW g (r + 1)).gatherStart g r .rebuild
    | none =>
      match (s.coding.retry.filter (· / 2 ^ 24 == g)).find? (fun x => s.rowPending g (x % 2 ^ 24) && !s.gathering g (x % 2 ^ 24)) with
      | some x => s.gatherStart g (x % 2 ^ 24) .rebuild
      | none => s

/-! ### Arrivals (R121) -/

/-- An arrival offset of a role recorded at the acting manager. -/
def State.noteArrival (s : State) (g role t off : Nat) : State :=
  let key := g * 32 + role
  let l := (alGet s.coding.arrivals key).getD []
  if (alGet l t).isSome then s
  else
    let s := { s with coding := { s.coding with arrivals := alPut s.coding.arrivals key (alPut l t off) } }
    let s := if off != missingOffset && s.rd R.CDR_STRAG_LATE key < off then s.wr R.CDR_STRAG_LATE key off else s
    s.settleTick g t

/-- This engine's arrival told to each group's acting manager: its hall time minus the tick's boundary (R41, R121). -/
def State.tellArrival (s : State) (t off : Nat) : State :=
  let off := min off 0xFFFFFFFF
  ((List.range 16).filter fun g => Grp.state s g != 0).foldl (fun s g =>
    if Grp.acting s g = Grp.own s g then s.noteArrival g (Grp.own s g) t off
    else s.sendRole g (Grp.acting s g) (msg32 9 (Grp.gid s g) (Grp.own s g) 0 (Grp.gen s g) 0 off 0 t)) s

/-! ### The commands -/

/-- `DECLARE_LOST`. -/
def execDeclareLost (path : Path) (role : Fin 32) (s : State) : Host.Outcome State Fault Refusal :=
  fromPath path R.CDR_ROLE_CMD s fun s => onPage s Page.CDR fun s => (s.declareLost (s.sel path F.CDR_SEL_SLOT) role).emptyDrained

/-- `REPLACE`. -/
def execReplace (path : Path) (role : Fin 32) (node : BitVec 20) (s : State) : Host.Outcome State Fault Refusal :=
  fromPath path R.CDR_ROLE_CMD s fun s => onPage s Page.CDR fun s => s.replaceRole (s.sel path F.CDR_SEL_SLOT) role node.toNat

/-- `START`. -/
def execStartRebuild (path : Path) (role : Fin 32) (s : State) : Host.Outcome State Fault Refusal :=
  fromPath path R.CDR_ROLE_CMD s fun s => onPage s Page.CDR fun s => s.startRebuild (s.sel path F.CDR_SEL_SLOT) role

/-- `REBUILD_INSTALL_DONE`: PENDING lines are written for every slot (R100). -/
def execRebuildInstallDone (slot : Fin 16) (s : State) : Host.Outcome State Fault Refusal :=
  onUp s fun s =>
    if alGet s.coding.busy slot = some .markPending then (s.installed slot).set1 F.CDR_CMD_STAT_AWAIT_START slot else s

/-- `REBUILD_ROW`. -/
def execRebuildRow (slot : Fin 16) (s : State) : Host.Outcome State Fault Refusal := onUp s fun s => s.rebuildRow slot

/-- `GATHER_REQUEST`. -/
def execGatherRequest (gate : Bool) (src : BitVec 20) (msg : List Byte) (s : State) : Host.Outcome State Fault Refusal :=
  onMsg s 1 false gate src msg fun s => s.gatherServe src.toNat msg

/-- `DELTA_RECORD`. -/
def execDeltaRecord (gate : Bool) (src : BitVec 20) (msg : List Byte) (s : State) : Host.Outcome State Fault Refusal :=
  onMsg s 1 false gate src msg fun s => s.recordRx 1 msg

/-- `REPAIR_RECORD`. -/
def execRepairRecord (gate : Bool) (src : BitVec 20) (msg : List Byte) (s : State) : Host.Outcome State Fault Refusal :=
  onMsg s 1 false gate src msg fun s => s.recordRx 8 msg

/-- `RESEED` (R117). -/
def execReseed (gate : Bool) (src : BitVec 20) (msg : List Byte) (s : State) : Host.Outcome State Fault Refusal :=
  onMsg s 1 false gate src msg fun s =>
    match s.msgSlot src.toNat msg 0x0A 4 with
      | (s, some g) =>
        let r := fieldLE msg 8 4
        if fieldLE msg 5 1 = Grp.own s g ∧ r < Grp.rows s g ∧ Grp.k s g ≤ symOf (Grp.n s g) (Grp.own s g) r then s.gatherStart g r .reseed else s
      | (s, none) => s

/-- `ARRIVAL` (R121). -/
def execArrival (gate : Bool) (src : BitVec 20) (msg : List Byte) (s : State) : Host.Outcome State Fault Refusal :=
  onMsg s 1 false gate src msg fun s =>
    match s.msgSlot src.toNat msg 9 4 with
      | (s, some g) =>
        if Grp.acting s g = Grp.own s g then s.noteArrival g (fieldLE msg 4 1) (fieldLE msg 16 8) (fieldLE msg 8 4) else s
      | (s, none) => s

/-- `ARRIVAL_MISSING` (R121): counted as last too. -/
def execArrivalMissing (slot : Fin 16) (role : Fin 32) (tick : BitVec 64) (s : State) : Host.Outcome State Fault Refusal :=
  onUp s fun s =>
    if Grp.state s slot ≠ 0 ∧ Grp.acting s slot = Grp.own s slot ∧ (Grp.live s slot).contains role.val = true
        ∧ (alGet ((alGet s.coding.arrivals (slot * 32 + role)).getD []) tick.toNat).isNone = true
    then (s.countLast slot role).noteArrival slot role tick.toNat missingOffset else s

/-- `STRAG_WINDOW_END` (R121). -/
def execStragWindowEnd (slot : Fin 16) (s : State) : Host.Outcome State Fault Refusal :=
  onUp s fun s =>
    if s.tick.now % max (s.fget F.CDR_STRAG_WIN_TICKS slot) 1 = 0 then
      (List.range 20).foldl (fun (s : State) p =>
        let i := slot.val * 32 + p
        ((s.fset F.CDR_STRAG_LAST_PREV i (s.fget F.CDR_STRAG_LAST_CUR i)).fset F.CDR_STRAG_LAST_CUR i 0).wr R.CDR_STRAG_LATE i 0) s
    else s

end Sys2Proof.Machine
end

