-- ==== Sys2Proof/Machine/Frames.lean ====
section
/-! DEFINITION. Frames of T1 and T2 (R254, R255, R271) and page map entries (R257–R259). -/

namespace Sys2Proof.Machine

open Sys2Proof

/-! ### Frames (R271) -/

/-- Frames of a tier that the pool may use (R254, R255). -/
def tierFrames : Tier → Nat
  | .t1 => 98304
  | .t2 => 366183

/-- Bytes of a frame. -/
abbrev frameSize : Nat := 65536

def State.frame (s : State) (t : Tier) (f : Nat) : Frame := (s.frames t).get f

def State.setFrame (s : State) (t : Tier) (f : Nat) (v : Frame) : State :=
  match t with
  | .t1 => { s with pages := { s.pages with t1 := s.pages.t1.set f v } }
  | .t2 => { s with pages := { s.pages with t2 := s.pages.t2.set f v } }

/-- The lowest frame number from `i` up whose use `want` holds of. -/
def lowestFrame (want : Frame → Bool) (dflt : Frame) (total : Nat) : Nat → List (Nat × Frame) → Option Nat
  | i, [] => if want dflt && decide (i < total) then some i else none
  | i, (k, f) :: m =>
    if want dflt && decide (i < k) then some i
    else if want f then some k
    else lowestFrame want dflt total (k + 1) m

/-- The lowest frame of a tier whose use `want` holds of. -/
def State.findFrame (s : State) (t : Tier) (want : Frame → Bool) : Option Nat :=
  lowestFrame want (s.frames t).dflt (tierFrames t) 0 (s.frames t).tab

/-- How many frames of a tier are in a use. -/
def State.countFrames (s : State) (t : Tier) (want : Frame → Bool) : Nat :=
  let f := s.frames t
  let listed := (f.tab.filter fun e => want e.2).length
  if want f.dflt then tierFrames t - f.tab.length + listed else listed

def Frame.isFree (f : Frame) : Bool := f == .free

/-- A frame's use after the entry of a page was lost: what held the page stays out of the pool (R258). -/
def Frame.lose (p pg : Nat) (f : Frame) : Frame :=
  if f = Frame.page p pg ∨ f = Frame.fixed p pg ∨ f = Frame.home p pg then Frame.lost else f

/-- The page a frame holds, or holds a home copy of: partition and page. -/
def Frame.pageOf : Frame → Option (Nat × Nat)
  | .page p pg => some (p, pg)
  | .fixed p pg => some (p, pg)
  | .home p pg => some (p, pg)
  | _ => none

/-- A frame of the pool that must be filled with zeros before it is allocated. -/
def Frame.toFill (f : Frame) : Bool := f == .dirty || f == .kept

/-- Key of a frame in the list of those that wait for their fill. -/
def frameKey (t : Tier) (f : Nat) : Nat := (match t with | .t1 => 0 | .t2 => 2 ^ 20) + f

/-- A frame filled with zeros and valid parity, counted (R271). -/
def State.fillFrame (s : State) (t : Tier) (f : Nat) : State :=
  let s := { s with pages := { s.pages with dirtied := s.pages.dirtied.erase (frameKey t f) } }
  (s.zeroSlots t (16 * f) 16).bump F.PGM_ZERO_CNT_COUNT

/-- The lowest zeroed frame of a tier, or else the lowest dirty or kept one once it has been filled (R271). -/
def State.takeFree (s : State) (t : Tier) : State × Option Nat :=
  match s.findFrame t Frame.isFree with
  | some f => (s, some f)
  | none =>
    match s.findFrame t Frame.toFill with
    | some f => (s.fillFrame t f, some f)
    | none => (s, none)

/-- A frame comes last among those that wait for their fill (R267). -/
def State.noteDirty (s : State) (t : Tier) (f : Nat) : State :=
  { s with pages := { s.pages with dirtied := s.pages.dirtied.erase (frameKey t f) ++ [frameKey t f] } }

/-- A frame leaves its use and goes to the free list marked dirty (R271). -/
def State.releaseFrame (s : State) (t : Tier) (f : Nat) : State := (s.setFrame t f .dirty).noteDirty t f

/-- The frame of a FIXED page that is unmapped stays reserved and waits for its fill (R275). -/
def State.unfixFrame (s : State) (t : Tier) (f p : Nat) : State := (s.setFrame t f (.reserved p false)).noteDirty t f

/-! ### Page map entries (R258) -/

/-- States of a page. -/
abbrev PgUnmapped := 0
abbrev PgZero := 1
abbrev PgT1 := 2
abbrev PgT2 := 3
abbrev PgT3 := 4
abbrev PgMoving := 5
abbrev PgCoded := 6
abbrev PgDropped := 7

/-- HOME when there is no home copy. -/
abbrev noHome : Nat := 0xFFFFF

/-- A page map entry. -/
structure Pme where
  state : Nat := 0
  master : Bool := false
  fixed : Bool := false
  dropOk : Bool := false
  dirty : Bool := false
  lock : Bool := false
  frame : Nat := 0
  home : Nat := 0
  anchor : Bool := false
  gen : Nat := 0
  refs : Nat := 0
  pins : Nat := 0
  age : Nat := 0
  deriving DecidableEq, Repr

/-- The fields of an entry word. -/
def Pme.ofNat (w : Nat) : Pme :=
  { state := bits w 0 3, master := bit w 3, fixed := bit w 4, dropOk := bit w 5, dirty := bit w 6, lock := bit w 7,
    frame := bits w 8 20, home := bits w 28 20, anchor := bit w 48, gen := bits w 56 8, refs := bits w 64 16,
    pins := bits w 80 8, age := bits w 88 8 }

/-- The word of an entry; reserved bits 0. -/
def Pme.toNat (d : Pme) : Nat :=
  d.state % 8 + d.master.toNat * 2 ^ 3 + d.fixed.toNat * 2 ^ 4 + d.dropOk.toNat * 2 ^ 5 + d.dirty.toNat * 2 ^ 6
    + d.lock.toNat * 2 ^ 7 + d.frame % 2 ^ 20 * 2 ^ 8 + d.home % 2 ^ 20 * 2 ^ 28 + d.anchor.toNat * 2 ^ 48
    + d.gen % 256 * 2 ^ 56 + d.refs % 2 ^ 16 * 2 ^ 64 + d.pins % 256 * 2 ^ 80 + d.age % 256 * 2 ^ 88

/-- Whether an entry has a home copy. -/
def Pme.hasHome (d : Pme) : Bool := d.state != PgCoded && d.home != noHome

/-- A page with nothing mapped, as UNMAP and a release leave it, keeping its generation (R275). -/
def Pme.blank (gen : Nat) : Pme := { gen := gen % 256, home := noHome }

/-- Byte address of a page's entry in the tower (R258). -/
def State.pmeAddr (s : State) (p pg : Nat) : Nat := s.fget F.PGM_MAP_BASE_FRAME p * frameSize + 16 * pg

/-- Whether the map has an entry for a page. -/
def State.inMap (s : State) (p pg : Nat) : Bool :=
  decide (pg < s.fget F.PGM_MAP_PAGES_PAGES p) && decide (s.pmeAddr p pg + 16 ≤ towerSize)

/-- A page's entry as it stands. -/
def State.pme (s : State) (p pg : Nat) : Pme := Pme.ofNat (ofLE (s.tower.mem.bytes (s.pmeAddr p pg) 16))

/-- Whether a byte of a page's entry is stored with wrong parity: the entry reads as poison (R229–R231, R258). -/
def State.pmeBad (s : State) (p pg : Nat) : Bool :=
  s.inMap p pg && (List.range 16).any fun i => s.tower.mem.isBad (s.pmeAddr p pg + i)

/-- A page's entry written whole. -/
def State.putPme (s : State) (p pg : Nat) (d : Pme) : State := s.towerPut (s.pmeAddr p pg) ((leBytes 16 d.toNat).map some)

/-- A page's entry changed in one step (R259). It is read first: one that reads as poison is left as it is, unusable (R229, R230,
R258). -/
def State.setPme (s : State) (p pg : Nat) (d : Pme) : State :=
  if s.pmeBad p pg then (s.readSec .t1 (s.pmeAddr p pg / 64)).1 else s.putPme p pg d

/-- Key of a page in the lists of `Pages`. -/
def pageKey (p pg : Nat) : Nat := p * 2 ^ 24 + pg

/-- What reading an entry gives. -/
inductive PmeRead where
  | beyond
  | poison
  | pme (d : Pme)
  deriving DecidableEq, Repr

/-- A change-map word that the cache keeps for a page is written back (R347). -/
def State.wordOut (s : State) (k : Nat) : State := match alGet s.arc.words k with
  | some (a, w) => ({ s with arc := { s.arc with words := alDel s.arc.words k } }).towerPut a ((leBytes 4 w).map some)
  | none => s

/-- The kept change-map words of a partition are written back, before a capture reads them (R347). -/
def State.wordsOut (s : State) (p : Nat) : State :=
  s.arc.words.foldl (fun s e => if e.1 / 2 ^ 24 = p then s.wordOut e.1 else s) s

/-- The entry enters the translation cache; a full cache gives up an entry of its choice, with its change-map word (R259, R347,
log entry 5). -/
def State.cachePme (s : State) (k : Nat) : State :=
  let kept := s.pages.cache
  if nsMem kept k then s
  else if kept.length < 8192 then { s with pages := { s.pages with cache := nsAdd kept k } }
  else
    let i := Config.xltVictim s.freeCtr % 8192
    let s := (kept[i]?.toList).foldl (fun s v => s.wordOut v) s
    { s with pages := { s.pages with cache := nsAdd (kept.eraseIdx i) k } }

/-- Tower address of a page's change-map word (R346). -/
def State.mapWordAt (s : State) (p pg : Nat) : Nat := s.fget F.ARC_MAP_BASE_FRAME p * frameSize + 4 * pg

/-- An entry read for an access (R258, R259): a cache miss is a tower read; one that reads as poison (R231) is logged once. -/
def State.pmeRead (s : State) (p pg : Nat) : State × PmeRead :=
  if !s.inMap p pg then (s, .beyond)
  else
    let k := pageKey p pg
    let a := s.pmeAddr p pg
    let s := if nsMem s.pages.cache k then s
      else (let s := s.bump F.XLT_MISS_CNT_COUNT; if s.pmeBad p pg then (s.readSec .t1 (a / 64)).1 else s)
    if s.pmeBad p pg then
      if nsMem s.pages.badPme k then (s, .poison)
      else
        let s := { s with pages := { s.pages with badPme := nsAdd s.pages.badPme k } }
        (s.logErr { block := Page.PGM, code := 0x0506, sev := 1, part := some p, kind := 2, addr := pg * frameSize,
                    detail := [pg, 0, 0, 0] }, .poison)
    else
      let s := { s with pages := { s.pages with badPme := nsDel s.pages.badPme k } }.cachePme k
      (s, .pme (s.pme p pg))

/-- An access to a page: AGE becomes 0, and the ager passes it over (R270). -/
def State.touch (s : State) (p pg : Nat) : State :=
  let s := { s with pages := { s.pages with touched := nsAdd s.pages.touched (pageKey p pg) } }
  let d := s.pme p pg
  if d.age = 0 then s else s.setPme p pg { d with age := 0 }

/-- The move of a page in progress, if any. -/
def State.moveOf (s : State) (p pg : Nat) : Option Move := s.pages.moves.find? fun m => m.part == p && m.page == pg

/-- The state a page's data is at: its own, or that of the source while it moves (R260, R268). -/
def State.effState (s : State) (p pg : Nat) (d : Pme) : Nat :=
  if d.state = PgMoving then ((s.moveOf p pg).map (·.src)).getD PgT1 else d.state

/-- Whether a page is moving to T2 or T3 (R261). -/
def State.leavesT1 (s : State) (p pg : Nat) : Bool :=
  s.inMap p pg && (s.pme p pg).state == PgMoving && (s.moveOf p pg).any fun m => m.tier != 1

/-- Frames of a partition's map (R259). -/
def mapFrames (pages : Nat) : Nat := ceilDiv pages 4096

/-- Whether a T1 frame belongs to some partition's map (R259). -/
def State.isMapFrame (s : State) (f : Nat) : Bool :=
  match s.frame .t1 f with
  | .map _ => true
  | _ => false

/-- Data blocks of the group slot a CODED page names, 0 while the slot is EMPTY (R262). -/
def State.codedBlocks (s : State) (g : Nat) : Nat := if s.slotTaken g then Grp.blocks s g else 0

/-! ### Looking without touching -/

/-- Bytes of a tier as the engine reads its tables: 0xFF in a sector that reads as poison or fails its parity (R229–R231). -/
def State.tableBytes (s : State) (t : Tier) (a n : Nat) : List Byte :=
  let m := s.tierMem t
  let bad (sec : Nat) : Bool := match t with
    | .t1 => m.secRead false sec != .clean
    | .t2 => nsMem s.pages.poison sec
  (List.range n).map fun i => if bad ((a + i) / 64) then 0xFF else m.byte (a + i)

/-- The bytes at a partition address as they lie, for what the engine keeps of its own tables; nothing for a page with
no data. -/
def State.peekGran (s : State) (p a n : Nat) : List Byte :=
  let pg := a / frameSize
  if !s.inMap p pg then []
  else
    let d := s.pme p pg
    let st := s.effState p pg d
    let off := a % frameSize
    if st = PgT1 then s.tableBytes .t1 (d.frame * frameSize + off) n
    else if st = PgT2 then s.tableBytes .t2 (d.frame * frameSize + off) n
    else if st = PgT3 then (if d.hasHome then s.tableBytes .t2 (d.home * frameSize + off) n else [])
    else if st = PgZero then List.replicate n 0
    else if st = PgCoded then
      let g := d.frame % 16
      let L := 16 * d.home + off / 4096
      if L < s.codedBlocks g then
        s.tableBytes (Grp.tier s g) (Grp.slotAddr s g (rowOfBlock (Grp.n s g) (Grp.k s g) (Grp.own s g) L) + off % 4096) n
      else []
    else []

end Sys2Proof.Machine
end

