-- ==== Sys2Proof/Machine/FabOps.lean ====
section
/-! DEFINITION. The fabric port's shared operations: headers (R293, R294), requests with tags and generations (R311–R316),
response room (R311). -/

namespace Sys2Proof.Machine

open Sys2Proof

/-! ### Headers (R293) -/

/-- The transaction a header and its payload spell. -/
def Txn.ofHeader (h payload : List Byte) : Txn :=
  let fl := fieldLE h 1 1
  { typ := fieldLE h 0 1, vc := bits fl 0 3, combinable := bit fl 3, gate := bit fl 4, kx := bit fl 5, poison := bit fl 6,
    resp := bit fl 7, op := fieldLE h 2 1, status := fieldLE h 3 1, dst := fieldLE h 4 4, src := fieldLE h 8 4,
    tag := fieldLE h 12 2, key := fieldLE h 16 4, offset := fieldLE h 20 6, count := fieldLE h 26 2, len := fieldLE h 14 2,
    payload := payload, part := none, entry := none, use := .message, held := false }

/-- Whether two nodes lie in one first switch stage (R291). -/
def sameStage (a b : Nat) : Bool := bits a 11 9 == bits b 11 9

/-! ### Requests -/

/-- A memory-semantic request offered to the port (R295, R313): 1 LOAD, 2 STORE, 3 ATOMIC; with KX its key is a job ID (R293). -/
def State.offerReq (s : State) (use : ReqUse) (typ vc entry op key offset len : Nat) (payload : List Byte)
    (part : Option Nat) (combinable kx : Bool := false) : State :=
  s.offer { typ := typ, vc := vc, combinable := combinable, gate := false, kx := kx, poison := false, resp := false, op := op,
            status := 0, dst := s.fget F.FBP_PTN_NODE_NODE entry, src := s.fget F.FBP_NODE_NODE, tag := 0,
            key := if kx then key % 2 ^ 16 else key, offset := offset, count := 0, len := len, payload := payload, part := part, entry := some entry, use := use,
            held := false }

/-- The partner entry bound to a lender (R313). -/
def lenderEntry (l : Nat) : Nat := 4080 + l

/-- The lender a node is, if it is one (R282). -/
def State.lenderOf (s : State) (node : Nat) : Option Nat :=
  (List.range 16).find? fun l => s.flag F.PGM_LENDER_NODE_VALID l && s.fget F.PGM_LENDER_NODE_NODE l == node

/-- The VALID borrower entry of a node, if any (R283). -/
def State.isBorrower (s : State) (node : Nat) : Bool :=
  (List.range 16).any fun b => s.flag F.PGM_BORROWER_NODE_VALID b && s.fget F.PGM_BORROWER_NODE_NODE b == node

/-- A lending message: 0x40 LOAN, 0x41 GRANT, 0x42 RETURN, 0x43 REVOKE (R283). -/
def lendMsg (typ index status req : Nat) : List Byte :=
  withCrc (leBytes 1 typ ++ leBytes 1 1 ++ leBytes 2 0 ++ leBytes 4 index ++ leBytes 1 status ++ leBytes 3 0
    ++ leBytes 4 req ++ leBytes 12 0)

/-! ### Response room (R311) -/

/-- The channel that carries the responses of a request's channel (R308). -/
def respChannel (vc : Nat) : Nat := if vc = 2 then 3 else vc

/-- Room a transaction's response needs in its pool, in bytes; 0 when it provokes none. A gather names the symbol its
role holds. -/
def State.roomOf (s : State) (t : Txn) : Nat :=
  match t.typ with
  | 1 => 32 + t.len
  | 2 => 32
  | 3 => 40
  | 5 =>
    if t.vc = 1 ∧ fieldLE t.payload 0 1 = 6 then
      if bit (fieldLE t.payload 7 1) 0 then 112
      else
        match (List.range 16).find? fun g => Grp.state s g != 0 && Grp.gid s g == fieldLE t.payload 2 2 with
        | some g => if symOf (Grp.n s g) (fieldLE t.payload 5 1) (fieldLE t.payload 8 4) < Grp.k s g then 70000 else 4208
        | none => 70000
    else 0
  | _ => 0

/-- The standing slots of VC1: 32 bytes per group slot and holder (R311). Parity turns over the roles (R59), so every other role of the
group is a holder of some row. -/
def State.standing (s : State) : Nat :=
  (List.range 16).foldl (fun a g => if Grp.state s g = 0 then a else a + 32 * (Grp.n s g - 1)) 0

/-- Gather requests unanswered that have left the port, by their tag. -/
def State.gatherRoom (s : State) (only : Option Nat := none) : Nat :=
  let waiting := s.fab.txq.filterMap fun t =>
    if t.typ = 5 ∧ t.vc = 1 ∧ fieldLE t.payload 0 1 = 6 then some (fieldLE t.payload 12 4) else none
  (s.coding.gathers.filter fun g => only == none || only == some (Grp.part s g.slot)).foldl (fun a g => g.asked.foldl (fun a x =>
    if waiting.contains x.1 then a
    else if x.2.2 then a + 112
    else if symOf (Grp.n s g.slot) x.2.1 g.row < Grp.k s g.slot then a + 70000 else a + 4208) a) 0

/-- Bytes reserved in a channel's response pool. -/
def State.roomUsed (s : State) (vc : Nat) : Nat :=
  let f := s.fab.flight.foldl (fun a x => if respChannel x.txn.vc = vc then a + s.roomOf x.txn else a) 0
  if vc = 1 then f + s.standing + s.gatherRoom else f

/-- The partition a transaction's room is charged to: that of its descriptor, or of its coding group (R365). -/
def State.chargedTo (s : State) (t : Txn) : Option Nat :=
  if t.typ = 5 ∧ t.vc = 1 then
    ((List.range 16).find? fun g => Grp.state s g != 0 && Grp.gid s g == fieldLE t.payload 2 2).map fun g => Grp.part s g
  else t.part

/-- Bytes a partition's transactions on a channel have reserved (R365). -/
def State.roomUsedBy (s : State) (p vc : Nat) : Nat :=
  let f := s.fab.flight.foldl (fun a x => if x.txn.vc = vc ∧ x.txn.part = some p then a + s.roomOf x.txn else a) 0
  if vc = 1 then f + s.gatherRoom (some p) else f

/-- Whether a transaction can reserve the room of its response, within its partition's limit (R311, R365). -/
def State.hasRoom (s : State) (t : Txn) : Bool :=
  let n := s.roomOf t
  n == 0 ||
    (decide (s.roomUsed (respChannel t.vc) + n ≤ 1024 * s.fget F.FVC_BUF_RESP (respChannel t.vc)) &&
     (match s.chargedTo t with
      | none => true
      | some p =>
        let lim := s.fget F.PTC_VC_RESV_KIB (t.vc + 8 * p)
        lim == 0 || decide (s.roomUsedBy p t.vc + n ≤ 1024 * lim)))

/-! ### The choice of what is sent (R309) -/

/-- Weight of a channel in the round robin. -/
def State.vcWeight (s : State) (c : Nat) : Nat :=
  if c = 0 then 0
  else if c < 5 then bits (s.rd R.FVC_WEIGHT_LO) (8 * (c - 1)) 8
  else bits (s.rd R.FVC_WEIGHT_HI) (8 * (c - 5)) 8

/-- Outbound credits held for a channel and class. -/
def State.txCredits (s : State) (vc : Nat) (resp : Bool) : Nat := (alGet s.fab.credits (2 * vc + resp.toNat)).getD 0

/-- Whether a tag of a partner entry is free (R313, R315). -/
def State.tagFree (s : State) (e tag : Nat) : Bool :=
  !(s.fab.flight.any fun f => f.entry == e && f.tag == tag) && !nsMem s.fab.quar (e * 4096 + tag)

/-- The tag a request takes: the one asked for when it is free, else the lowest free one. -/
def State.pickTag (s : State) (e want : Nat) : Option Nat :=
  if s.tagFree e want then some want else (List.range 4096).find? fun t => s.tagFree e t

/-- Whether a waiting transaction has the response room and tag it needs. -/
def State.sendable (s : State) (t : Txn) : Bool :=
  s.hasRoom t && (match t.entry with
    | some e => decide ((s.fab.flight.filter fun f => f.entry == e).length + (s.fab.quar.filter fun k => k / 4096 == e).length < 4096)
    | none => true)

/-- The descriptor whose unit a transaction is. -/
def Txn.job (t : Txn) : Option Nat :=
  match t.use with
  | .unit j _ => some j
  | _ => none

/-- The first place of a queue whose transaction may go by `ok`, units of one descriptor in order (R301). -/
def firstToGo (ok : Txn → Bool) (q : List Txn) : Option Nat :=
  (List.range q.length).find? fun i => q[i]?.any fun t => ok t && !((q.take i).any fun u => t.job.isSome && u.job == t.job)

/-- Place in the queue of the transaction a channel would begin next: response class first, oldest first (R309); none when
there is none or no credit is held for a flit of its class. -/
def State.nextOn (s : State) (c : Nat) : Option Nat :=
  let pick (resp : Bool) : Option Nat :=
    if s.txCredits c resp = 0 then none
    else firstToGo (fun t => t.vc == c && t.resp == resp && s.sendable t) s.fab.txq
  match pick true with
  | some i => some i
  | none => pick false

/-- The transaction a channel has begun and not ended: its flits go without interleaving within the channel (R309). -/
def State.goingOn (s : State) (c : Nat) : Option Going := s.fab.going.find? fun g => g.txn.vc == c

/-- Whether a channel has a flit ready and a credit for it (R309, R453). -/
def State.chanReady (s : State) (c : Nat) : Bool :=
  match s.goingOn c with
  | some g => s.txCredits c g.txn.resp != 0
  | none => (s.nextOn c).isSome

/-- Whether a channel holds back something ready for want of a credit. -/
def State.creditShort (s : State) (c : Nat) : Bool :=
  !s.chanReady c && ((s.goingOn c).isSome || s.fab.txq.any fun t => t.vc == c && s.sendable t)

/-- A span of FCLK and ECLK cycles in which a channel has something ready and no credit for it (R325, R400; log entry 79: DEDUCED). -/
def State.creditCycles (s : State) (fclk eclk : Nat) : State :=
  if s.flag F.FBP_CTRL_EN && s.flag F.FBP_STAT_LINK_UP then
    match (List.range 8).filter s.creditShort with
    | [] => s
    | short => (short.foldl (fun s c => s.bump F.FVC_CREDIT_STALL_CYCLES c fclk) s).event 0x1401 none eclk
  else s

/-- Flits of a channel in the last `n` flit times (log entry 91). -/
def State.sentOf (s : State) (c n : Nat) : Nat := ((s.fab.history.take n).filter (· == c)).length

/-! ### Byte-deficit round robin (R309, log entry 76) -/

/-- Bytes a channel earns in a round: one flit's for each unit of its weight. -/
def State.quantum (s : State) (c : Nat) : Nat := 128 * max 1 (s.vcWeight c)

/-- Rounds until a channel's deficit covers a flit. -/
def State.roundsOf (s : State) (c : Nat) : Nat := ceilDiv (128 - (alGet s.fab.deficit c).getD 0) (s.quantum c)

/-- The channels of the third step: VC1 to VC7 with a flit ready and a credit, those of weight 0 only when there are no others. -/
def State.drrPool (s : State) : List Nat :=
  let cs := (List.range 8).filter fun c => c != 0 && s.chanReady c
  let heavy := cs.filter fun c => s.vcWeight c != 0
  if heavy.isEmpty then cs else heavy

/-- The channel whose deficit is the first to cover a flit; where several are, the first from `at_` on. -/
def State.drrPick (s : State) (at_ : Nat) : Option Nat :=
  let pool := s.drrPool
  ((List.range 8).map fun i => (at_ + i) % 8).foldl (fun a c =>
    if !pool.contains c then a
    else match a with
      | none => some c
      | some b => if s.roundsOf c < s.roundsOf b then some c else some b) none

/-- A channel sends a flit in the third step: the rounds until then are earned by every channel with something to send, and the flit's
bytes are taken from its deficit; a channel with nothing to send keeps none. -/
def State.drrCharge (s : State) (c : Nat) : State :=
  let r := s.roundsOf c
  let of (x : Nat) : Nat := (alGet s.fab.deficit x).getD 0 + r * s.quantum x - (if x = c then 128 else 0)
  { s with fab := { s.fab with deficit := s.drrPool.foldl (fun m x => spSet (fun _ => 0) m x (of x)) [] } }

/-- The channel whose flit goes next (R309), and whether by the third step; `at_` is where the round robin stands. VC0 goes by the
first step only. -/
def State.pickChannel (s : State) (at_ : Nat) : Option (Nat × Bool) :=
  if s.chanReady 0 && s.sentOf 0 16 == 0 then some (0, false)
  else if s.chanReady 1 && decide (s.sentOf 1 64 < s.fget F.FVC_VC1_MIN_MIN) then some (1, false)
  else (s.drrPick at_).map fun c => (c, true)

end Sys2Proof.Machine
end

