-- ==== Sys2Proof/Machine/Moves.lean ====
section
/-! DEFINITION. Poison in the external region (R508), copying, allocation and eviction (R271, R272), moves (R267–R269),
references and release (R275), loans (R282–R285). -/

namespace Sys2Proof.Machine

open Sys2Proof

/-! ### Page changes that free frames -/

/-- A unit of a partition's MOVE descriptor ends with a status. -/
def State.endUnit (s : State) (p st : Nat) : State :=
  { s with pages := { s.pages with
      jobs := s.pages.jobs.map fun j => if j.part == p then { j with ended := j.ended ++ [st] } else j } }

/-- What is kept of a page in T3, the pieces read of it and its poison marks, is dropped. -/
def State.forgetFar (s : State) (p pg : Nat) : State :=
  { s with pages := { s.pages with
      far := s.pages.far.filter fun e => e.1 / 256 != pageKey p pg, farBad := s.pages.farBad.filter fun k => k / 1024 != pageKey p pg } }

/-- Whether a move is a unit of its partition's page queue. -/
def Move.unit (m : Move) : Bool := m.prio == 3

/-- Queue and ring index of the page queue descriptor a partition runs, as an error record gives them (R386). -/
def State.pageJobWord (s : State) (p : Nat) : Nat := match s.pages.jobs.find? fun j => j.part == p with
  | some j => p * 65536 + j.index
  | none => 0

/-- The mover's pin on the page it copies ends (R276). -/
def State.moverUnpin (s : State) (p pg : Nat) : State :=
  let d := s.pme p pg
  s.setPme p pg { d with pins := d.pins - 1 }

/-- A lent frame goes back to its lender (R283). -/
def State.giveBack (s : State) (p pg : Nat) : State :=
  let s := s.forgetFar p pg
  let k := pageKey p pg
  match alGet s.pages.borrowed k with
  | none => s
  | some v =>
    let l := v / 65536
    let s := { s with pages := { s.pages with borrowed := alDel s.pages.borrowed k } }
    let s := s.fset F.PGM_BORROWED_PAGES l (s.fget F.PGM_BORROWED_PAGES l - 1)
    s.sendMsg 7 (s.fget F.PGM_LENDER_NODE_NODE l) (lendMsg 0x42 (v % 65536) 0 0) (some p)

/-- The lent frame of a page that has moved elsewhere goes back once the pins of before the switch have ended (R268). -/
def State.giveBackAfterPins (s : State) (p pg pins : Nat) : State :=
  if pins = 0 then s.giveBack p pg
  else
    let s := s.forgetFar p pg
    let k := pageKey p pg
    match alGet s.pages.borrowed k with
    | none => s
    | some v => { s with pages := { s.pages with borrowed := alDel s.pages.borrowed k,
                                                 linger := s.pages.linger ++ [⟨p, pg, 3, v, pins⟩] } }

/-- A source frame that waited for its pins is given up: tier, and frame or lender and index (R268, R271, R283). -/
def State.releaseLinger (s : State) (p tier frame : Nat) : State :=
  match tier with
  | 1 => s.releaseFrame .t1 frame
  | 2 => s.releaseFrame .t2 frame
  | _ =>
    let l := frame / 65536
    let s := s.fset F.PGM_BORROWED_PAGES l (s.fget F.PGM_BORROWED_PAGES l - 1)
    s.sendMsg 7 (s.fget F.PGM_LENDER_NODE_NODE l) (lendMsg 0x42 (frame % 65536) 0 0) (some p)

/-- A move ends without taking effect: its destination is freed, the page returns to its former state (R268). -/
def State.cancelMove (s : State) (m : Move) (st : Nat) : State :=
  let s := { s with pages := { s.pages with moves := s.pages.moves.filter (· != m) } }
  let s := match m.tier, m.dst with
    | 1, some f => s.releaseFrame .t1 f
    | 2, some f => s.releaseFrame .t2 f
    | 3, some x =>
      let s := s.fset F.PGM_BORROWED_PAGES m.lender (s.fget F.PGM_BORROWED_PAGES m.lender - 1)
      s.sendMsg 7 (s.fget F.PGM_LENDER_NODE_NODE m.lender) (lendMsg 0x42 x 0 0) (some m.part)
    | _, _ => s
  let d := s.pme m.part m.page
  let s := if d.state = PgMoving then s.setPme m.part m.page { d with state := m.src, pins := d.pins - 1 } else s
  if m.unit then s.endUnit m.part st else s

/-- The frames a page's entry names are given up (R271, R275); a FIXED page's frame stays reserved. -/
def State.freeFrames (s : State) (p pg : Nat) (d : Pme) : State :=
  let s := match d.state with
    | 2 => if d.fixed then s.unfixFrame .t1 d.frame p else s.releaseFrame .t1 d.frame
    | 3 => if d.fixed then s.unfixFrame .t2 d.frame p else s.releaseFrame .t2 d.frame
    | 4 => s.giveBack p pg
    | _ => s
  if (d.state = 2 ∨ d.state = 3 ∨ d.state = 4) ∧ d.hasHome = true then s.releaseFrame .t2 d.home else s

/-- A page becomes DROPPED, its GEN incremented (R272, R285, R508). -/
def State.dropPage (s : State) (p pg : Nat) : State :=
  let s := match s.moveOf p pg with
    | some m => s.cancelMove m 7
    | none => s
  let d := s.pme p pg
  let s := s.freeFrames p pg d
  (s.setPme p pg { d with state := PgDropped, dirty := false, frame := 0, home := noHome, gen := (d.gen + 1) % 256 }).bump
    F.PGM_DROP_CNT_COUNT

/-- Whether a page is one of a partition's KV pool (R273). -/
def State.inKvPool (s : State) (p pg : Nat) : Bool :=
  let f := s.fget F.XLT_KV_FIRST_PAGE p
  decide (f ≤ pg) && decide (pg < f + s.fget F.XLT_KV_COUNT_PAGES p)

/-- A page is released: UNMAPPED, GEN incremented, its frame freed, a KV page back to its pool (R275). -/
def State.releasePage (s : State) (p pg : Nat) : State :=
  let s := match s.moveOf p pg with
    | some m => s.cancelMove m 7
    | none => s
  let d := s.pme p pg
  let s := s.freeFrames p pg d
  let s := s.setPme p pg (Pme.blank (d.gen + 1))
  if s.inKvPool p pg then
    let l := (alGet s.pages.kvFree p).getD []
    { s with pages := { s.pages with kvFree := alPut s.pages.kvFree p (l ++ [pg]) } }
  else s

/-- A page is released as soon as its references and pins are both 0 (R275). A copy of it under way ends without effect then, and
its pin with it (R269). -/
def State.releaseCheck (s : State) (p pg : Nat) : State :=
  let d := s.pme p pg
  let own := if (s.moveOf p pg).isSome then 1 else 0
  if d.state != PgUnmapped && d.refs == 0 && decide (d.pins ≤ own) then s.releasePage p pg else s

/-- A reference to a page ends (R275). -/
def State.dropRef (s : State) (p pg : Nat) : State :=
  let d := s.pme p pg
  (s.setPme p pg { d with refs := d.refs - 1 }).releaseCheck p pg

/-! ### Poison in T2 (R508) -/

/-- The page or region a T2 granule lies in, handled when the poison list is full; a granule of no mapped page is left off the
list, and a move that filled its frame fails. -/
def State.poisonFull (s : State) (gran : Nat) : State :=
  let log (s : State) : State := (s.logErr { block := Page.PGM, code := 0x0507, sev := 1, kind := 3, addr := 64 * gran }).irq Page.PGM 0
  match s.codedAt .t2 (64 * gran) with
  | some g =>
    let r := gran / 64 - s.fget F.CDE_GRP_BASE_BASE g
    log (s.escalate g r (if s.gathering g r then 3 else 0))
  | none =>
    match s.frame .t2 (gran / 1024) with
    | .page p pg => log (s.dropPage p pg)
    | .fixed p pg => log (s.dropPage p pg)
    | .moving p pg =>
      match s.moveOf p pg with
      | some m => s.cancelMove m 4
      | none => s
    | _ => s

/-- A granule of the external region stored as poison (R508). -/
def State.extPoison (s : State) (gran : Nat) : State :=
  let s := ({ s with ext := s.ext.puts (64 * gran) (List.replicate 64 0xFF) } : State).xtStore [gran]
  if nsMem s.pages.poison gran then s
  else if s.pages.poison.length < 262144 then
    { s with pages := { s.pages with poison := nsAdd s.pages.poison gran } }
  else s.poisonFull gran

/-- A whole sector of a tier stored as poison (R231, R508). -/
def State.putPoison (s : State) (t : Tier) (sec : Nat) : State :=
  match t with
  | .t1 => (({ s with tower := { s.tower with mem := s.tower.mem.poisonSector sec } }).mirrorFill (64 * sec) 64).secsWritten (64 * sec) 64
  | .t2 => s.extPoison sec

/-! ### Copying frames (R268, R269) -/

/-- Sectors of a frame that read as poison, after their parity has been checked (R230, R231, R508); those of a frame of the tower are read
here, and counted (R400). -/
def State.frameBad (s : State) (t : Tier) (f : Nat) : State × List Nat :=
  match t with
  | .t1 =>
    let secs := (s.tower.mem.bad.filter fun a => a / frameSize == f).foldl (fun l a => nsAdd l (a / 64)) []
    secs.foldl (fun acc sec =>
      let (s, p, _) := acc.1.readSec .t1 sec
      (s, if p then acc.2 ++ [sec] else acc.2)) ((s.active 0 (1024 - secs.length)).event 0x0401 (s.towerPart f) (1024 - secs.length), [])
  | .t2 => (s, s.pages.poison.filter fun g => g / 1024 == f)

/-- Granules of a frame of T2. -/
def frameGrans (f : Nat) : List Nat := (List.range 1024).map (· + 1024 * f)

/-- The sectors of a whole frame read: those of T2 come by the external port (R451). -/
def State.readFrame (s : State) (t : Tier) (f : Nat) : State :=
  match t with
  | .t1 => s
  | .t2 => s.xtRun (frameGrans f)

/-- A frame's contents copied into a zeroed frame, poison kept; whether there was any. -/
def State.copyFrame (s : State) (t : Tier) (f : Nat) (t' : Tier) (f' : Nat) : State × Bool :=
  let (s, bad) := s.frameBad t f
  let s := s.readFrame t f
  let src : Mem := ⟨(s.tierMem t).cells.filter fun c => c.1 / frameSize == f, []⟩
  let s := match t' with
    | .t1 =>
      ({ s with tower := { s.tower with mem := s.tower.mem.copyRaw src (f * frameSize) (f' * frameSize) frameSize } }).mirrorFill
        (f' * frameSize) frameSize |>.secsWritten (f' * frameSize) frameSize
    | .t2 => ({ s with ext := s.ext.copyRaw src (f * frameSize) (f' * frameSize) frameSize,
                       pages := { s.pages with poison := s.pages.poison.filter fun g => g / 1024 != f' } } : State).xtStore (frameGrans f')
  (bad.foldl (fun s sec => s.putPoison t' (f' * 1024 + sec % 1024)) s, !bad.isEmpty)

/-! ### Loans, the borrower's side (R282, R283, R285) -/

/-- Whether a lender is VALID and lies in the engine's own stage (R282, R291). -/
def State.lenderInStage (s : State) (l : Nat) : Bool :=
  s.flag F.PGM_LENDER_NODE_VALID l && sameStage (s.fget F.PGM_LENDER_NODE_NODE l) (s.fget F.FBP_NODE_NODE)

/-- Frames of T3 that the engine borrows from a lender; a LOAN not yet answered counts as one. -/
def State.lentBy (s : State) (l : Nat) : Nat :=
  s.fget F.PGM_BORROWED_PAGES l + (s.pages.moves.filter fun m => m.tier == 3 && m.lender == l && m.dst.isNone).length

/-- Frames a borrower may still take from a lender, within the 65,536 of its T3 (R254). -/
def State.lenderRoom (s : State) (l : Nat) : Nat :=
  if s.lenderInStage l then
    min (s.fget F.PGM_LENDER_PAGES_LIMIT l - s.lentBy l) (65536 - ((List.range 16).map s.lentBy).sum)
  else 0

/-- The lender with the most room left, lowest index among equals (R282). -/
def State.bestLender (s : State) : Option Nat :=
  (List.range 16).foldl (fun a l =>
    if s.lenderRoom l = 0 then a
    else match a with
      | some b => if s.lenderRoom b < s.lenderRoom l then some l else a
      | none => some l) none

/-- The pages a lender holds for this engine: page keys and indices. -/
def State.pagesAt (s : State) (l : Nat) : List (Nat × Nat) :=
  s.pages.borrowed.filterMap fun e => if e.2 / 65536 = l then some (e.1, e.2 % 65536) else none

/-- A borrowed page whose frame is gone: back to T2 at HOME, or DROPPED (R285). A copy from it under way ends with a status: STALE
where it was revoked, TIMEOUT where its lender does not answer (R269). -/
def State.loseLoan (s : State) (p pg st : Nat) : State :=
  let s := match s.moveOf p pg with
    | some m => s.cancelMove m st
    | none => s
  let s := s.forgetFar p pg
  let k := pageKey p pg
  let l := ((alGet s.pages.borrowed k).getD 0) / 65536
  let s := { s with pages := { s.pages with borrowed := alDel s.pages.borrowed k } }
  let s := s.fset F.PGM_BORROWED_PAGES l (s.fget F.PGM_BORROWED_PAGES l - 1)
  let d := s.pme p pg
  if d.hasHome then
    (s.setPme p pg { d with state := PgT2, frame := d.home, home := noHome, dirty := false }).setFrame .t2 d.home (.page p pg)
  else
    (s.setPme p pg { d with state := PgDropped, frame := 0, gen := (d.gen + 1) % 256 }).bump F.PGM_DROP_CNT_COUNT

/-! ### Stalls on pins (R276) -/

/-- An access stands stalled on a page whose pins are all taken: counted once, however often it is tried (R276). -/
def State.pinStall (s : State) (w : Who) : State :=
  if s.pages.pinWait.contains w then s
  else ({ s with pages := { s.pages with pinWait := s.pages.pinWait ++ [w] } }).bump F.XLT_PIN_STALL_CNT_COUNT

/-- An access no longer stands stalled on a pin. -/
def State.pinGo (s : State) (w : Who) : State :=
  if s.pages.pinWait.contains w then { s with pages := { s.pages with pinWait := s.pages.pinWait.filter (· != w) } } else s

/-! ### Starting a move (R268) -/

/-- How starting a move ends. -/
inductive MoveStart where
  | started
  /-- it must wait for a frame that a page is leaving -/
  | waits
  | failed (st : Nat)
  deriving DecidableEq, Repr

/-- What an allocation of a frame gives. -/
inductive Alloc where
  | frame (f : Nat)
  /-- a page is leaving the tier: its frame is waited for -/
  | wait
  | none
  deriving DecidableEq, Repr

/-- No frame and nothing evictable (R272), for a unit of the page queue or for an access. -/
def State.noSpace (s : State) (p pg : Nat) (unit : Bool) : State :=
  let d := s.pme p pg
  let s := ((s.bump F.PGM_NOSPACE_CNT_COUNT).set1 F.PGM_STAT_NO_SPACE).irq Page.PGM 0
  s.logErr { block := Page.PGM, code := 0x0501, sev := 0, part := some p,
             detail := [pg, d.state, if unit then s.pageJobWord p else 0, d.gen] }

/-- A page set to MOVING with its move on the list, pinned by the mover's copy (R276). -/
def State.putMove (s : State) (m : Move) : State :=
  let d := s.pme m.part m.page
  ({ s with pages := { s.pages with moves := s.pages.moves ++ [m] } }).setPme m.part m.page { d with state := PgMoving, pins := d.pins + 1 }

/-- Pieces of a page sent to the lent frame it moves to, as its source holds them now (R268, R283). -/
def State.sendPieces (s : State) (m : Move) (x : Nat) (is : List Nat) : State :=
  let d := s.pme m.part m.page
  is.foldl (fun s i =>
    let a := d.frame * frameSize + 256 * i
    let s := if m.src = 2 then s else s.xtRun (sectorsOf a 256)
    s.offerReq (.pageOut m.part m.page i) 2 7 (lenderEntry m.lender) 0 0 (x * frameSize + 256 * i) 256
      ((s.tierMem (if m.src = 2 then .t1 else .t2)).bytes a 256) (some m.part)) s

/-- A move changed in the list. -/
def State.setMove (s : State) (m m' : Move) : State :=
  { s with pages := { s.pages with moves := s.pages.moves.map fun y => if y == m then m' else y } }

/-- The pieces of a copy to T3 written meanwhile are copied again; a page that is no longer clean, its home copy being an older
one, stays at its source (R254, R268, R284). -/
def State.sendMarks (s : State) (m : Move) (x : Nat) : State :=
  if (s.pme m.part m.page).dirty then s.cancelMove m 3
  else (s.setMove m { m with left := m.marks.length, marks := [] }).sendPieces m x m.marks

/-- A move to T3 begins with a LOAN to the best lender (R282, R283). -/
def State.startLoan (s : State) (p pg : Nat) (drop : Bool) (prio : Nat) : State × MoveStart :=
  match s.bestLender with
  | none => (s, .failed 6)
  | some l =>
    let d := s.pme p pg
    let req := s.pages.loanReq % 2 ^ 32
    let s := { s with pages := { s.pages with loanReq := s.pages.loanReq + 1 } }
    let s := s.putMove ⟨p, pg, d.state, 3, none, l, req, 0, [], false, drop, prio⟩
    (s.sendMsg 7 (s.fget F.PGM_LENDER_NODE_NODE l) (lendMsg 0x40 0 0 req) (some p), .started)

/-- Pieces of a T3 page fetched from its lender (R283). -/
def State.fetchPieces (s : State) (p pg : Nat) : State :=
  let v := (alGet s.pages.borrowed (pageKey p pg)).getD 0
  (List.range 256).foldl (fun s i =>
    s.offerReq (.pageIn p pg i) 1 7 (lenderEntry (v / 65536)) 0 0 (v % 65536 * frameSize + 256 * i) 256 [] (some p)) s

/-- A move to a taken frame of T1 or T2 begins. -/
def State.startCopy (s : State) (p pg : Nat) (t : Tier) (f : Nat) (keepHome : Bool) (prio : Nat) : State :=
  let d := s.pme p pg
  let s := s.setFrame t f (.moving p pg)
  let far := d.state == PgT3
  let s := s.putMove ⟨p, pg, d.state, (match t with | .t1 => 1 | .t2 => 2), some f, 0, 0, if far then 256 else 0, [], keepHome, false, prio⟩
  if far then s.fetchPieces p pg else s

/-! ### Ending a move (R268, R269) -/

/-- The source frame of a page whose pins of before the switch have not ended waits for them (R268). -/
def State.releaseAfterPins (s : State) (p pg : Nat) (t : Tier) (f pins : Nat) : State :=
  if pins = 0 then s.releaseFrame t f
  else { s with pages := { s.pages with linger := s.pages.linger ++ [⟨p, pg, (match t with | .t1 => 1 | .t2 => 2), f, pins⟩] } }

/-- A move that carried a poisoned sector, a unit of the page queue or one of the engine's own (R269). -/
def State.logPoisonMove (s : State) (p pg st gen : Nat) (unit : Bool) : State :=
  s.logErr { block := Page.PGM, code := 0x0503, sev := 1, part := some p, kind := 2, addr := pg * frameSize,
             detail := [pg, st, if unit then s.pageJobWord p else 0, gen] }

/-- The switch of a page to the frame its move fills, from a T1 or T2 source (R268). -/
def State.switchPage (s : State) (m : Move) (f : Nat) : State :=
  let p := m.part; let pg := m.page
  let d := s.pme p pg
  let keep := m.keepHome && m.src == 3 && m.tier == 1
  let s := if keep then
      let s := if d.hasHome then s.releaseFrame .t2 d.home else s
      s.setFrame .t2 d.frame (.home p pg)
    else s.releaseAfterPins p pg (if m.src = 2 then .t1 else .t2) d.frame d.pins
  let s := match m.tier with
    | 1 => s.setFrame .t1 f (.page p pg)
    | 2 => s.setFrame .t2 f (.page p pg)
    | _ => { s with pages := { s.pages with borrowed := alPut s.pages.borrowed (pageKey p pg) (m.lender * 65536 + f) } }
  let d' := { d with
    state := m.tier + 1, frame := if m.tier = 3 then m.lender * 65536 + f else f,
    home := if keep then d.frame else d.home, dirty := if keep then false else d.dirty }
  (s.setPme p pg d').event 0x0F01 (some p)

/-- A page that has moved to T3 with poisoned sectors: the engine's records of the frame mark them (R255, R269). -/
def State.markFar (s : State) (p pg : Nat) (bad : List Nat) : State :=
  { s with pages := { s.pages with farBad := bad.foldl (fun l sec => nsAdd l (pageKey p pg * 1024 + sec % 1024)) s.pages.farBad } }

/-- The copy of a page ends (R268, R269): the state after it, whether a move ended. A page with a home copy that was written meanwhile
does not go to T3 (R254). -/
def State.finishMove (s : State) (m : Move) : State × Bool :=
  match m.dst with
  | none => (s, false)
  | some f =>
    if m.left != 0 then (s, false)
    else if m.tier = 3 ∧ (s.pme m.part m.page).dirty = true then (s.cancelMove m 3, true)
    else
      let s := s.moverUnpin m.part m.page
      let d := s.pme m.part m.page
      let s := { s with pages := { s.pages with moves := s.pages.moves.filter (· != m) } }
      let fin (s : State) (poison : Bool) : State :=
        let s := if poison then s.logPoisonMove m.part m.page (m.tier + 1) d.gen m.unit else s
        if m.unit then s.endUnit m.part (if poison then 4 else 0) else s
      match m.tier with
      | 3 =>
        let (s, bad) := s.frameBad (if m.src = 2 then .t1 else .t2) d.frame
        (fin ((s.switchPage m f).markFar m.part m.page bad) (!bad.isEmpty), true)
      | _ =>
        let t : Tier := if m.tier = 1 then .t1 else .t2
        if m.src = 4 then
          -- the pieces have landed in the frame already; the loan goes back
          let bad := match t with
            | .t1 => s.tower.mem.bad.any fun a => a / frameSize == f
            | .t2 => s.pages.poison.any fun g => g / 1024 == f
          let s := s.giveBackAfterPins m.part m.page d.pins
          let s := (s.setFrame t f (.page m.part m.page)).setPme m.part m.page { d with state := m.tier + 1, frame := f, dirty := false }
          (fin (s.event 0x0F01 (some m.part)) bad, true)
        else
          let (s, poison) := (s.switchPage m f).copyFrame (if m.src = 2 then .t1 else .t2) d.frame t f
          (fin s poison, true)

/-! ### Eviction and allocation (R271, R272) -/

/-- Pages of the pool in a tier: partition and page. -/
def State.poolPages (s : State) (t : Tier) : List (Nat × Nat) :=
  (s.frames t).tab.filterMap fun e => match e.2 with
    | .page p pg => some (p, pg)
    | _ => none

/-- Whether a pool page of T1 may be chosen for eviction (R272). -/
def State.evictable (s : State) (p pg : Nat) : Bool :=
  let d := s.pme p pg
  d.state == PgT1 && !d.fixed && !d.lock && d.pins == 0 && !nsMem s.pages.held (pageKey p pg)
    && decide (s.fget F.PGM_RESERVE_PAGES p < ((s.poolPages .t1).filter fun x => x.1 == p).length)

/-- The page with the highest AGE, ties by lowest partition and then lowest page (R272). -/
def State.oldest (s : State) (l : List (Nat × Nat)) : Option (Nat × Nat) :=
  l.foldl (fun a x => match a with
    | none => some x
    | some y =>
      let u := (s.pme x.1 x.2).age; let v := (s.pme y.1 y.2).age
      if v < u ∨ (u = v ∧ pageKey x.1 x.2 < pageKey y.1 y.2) then some x else a) none

/-- Whether a page is leaving a tier, so that its frame comes free (R268). -/
def State.leaving (s : State) (t : Tier) : Bool :=
  s.pages.moves.any fun m => m.src == (match t with | .t1 => PgT1 | .t2 => PgT2) && !m.keepHome

/-- The page of a tier that gives up its place next: pinned, held and FIXED pages aside, the oldest (R272). -/
def State.nextT2 (s : State) : Option (Nat × Nat) :=
  s.oldest ((s.poolPages .t2).filter fun x =>
    let d := s.pme x.1 x.2
    d.state == PgT2 && d.dropOk && !d.fixed && d.pins == 0 && !nsMem s.pages.held (pageKey x.1 x.2))

/-- Room made in T2: the oldest DROP_OK page there goes to T3, and its frame is waited for, or becomes DROPPED; a master page is never
lent (R254, R272). -/
def State.makeT2 : Nat → State → State × Alloc
  | 0, s => match s.takeFree .t2 with
    | (s, some f) => (s, .frame f)
    | (s, none) => (s, .none)
  | n + 1, s =>
    match s.takeFree .t2 with
    | (s, some f) => (s, .frame f)
    | (s, none) =>
      if s.leaving .t2 then (s, .wait)
      else
        match s.nextT2 with
        | none => (s, .none)
        | some (p, pg) =>
          if (s.pme p pg).master then State.makeT2 n (s.dropPage p pg)
          else
            match s.startLoan p pg true 2 with
            | (s, .started) => (s, .wait)
            | (s, _) => State.makeT2 n (s.dropPage p pg)

/-- A frame of T2 for an allocation; none when the allocation fails (R272). -/
def State.takeT2 (s : State) (p pg : Nat) (unit : Bool) : State × Alloc :=
  match s.makeT2 ((s.poolPages .t2).length) with
  | (s, .none) => (s.noSpace p pg unit, .none)
  | r => r

/-- A page counted as evicted. -/
def State.countEvict (s : State) (p : Nat) : State := (s.bump F.PGM_EVICT_CNT_COUNT).event 0x0F02 (some p)

/-- A page with a home copy leaves T1: written back where it is DIRTY, its entry returns to T2 at HOME (R272). Poison written back
is logged (R269). -/
def State.evictHome (s : State) (p pg : Nat) : State :=
  let d := s.pme p pg
  let s := ((s.releaseFrame .t1 d.frame).setFrame .t2 d.home (.page p pg)).setPme p pg
    { d with state := PgT2, frame := d.home, home := noHome, dirty := false }
  if d.dirty then
    let (s, poison) := (s.zeroSlots .t2 (16 * d.home) 16).copyFrame .t1 d.frame .t2 d.home
    if poison then s.logPoisonMove p pg PgT2 d.gen false else s
  else s

/-- One page leaves T1 (R272); a master page is never lent (R254). With `now` its copy ends in this step; otherwise PAGE_MOVE_DONE
ends it. The second component says whether it leaves: `wait` while T2 has no frame for it yet, `none` where T2 has none at all. -/
def State.evictPage (s : State) (p pg : Nat) (now : Bool) : State × Alloc :=
  let d := s.pme p pg
  if d.hasHome then ((s.countEvict p).evictHome p pg, .frame 0)
  else if d.dropOk then
    let s := s.countEvict p
    if d.master then (s.dropPage p pg, .frame 0)
    else
      match s.startLoan p pg true 2 with
      | (s, .started) => (s, .frame 0)
      | (s, _) => (s.dropPage p pg, .frame 0)
  else
    match s.makeT2 ((s.poolPages .t2).length) with
    | (s, .frame f) =>
      let s := (s.countEvict p).startCopy p pg .t2 f false 2
      (if now then
        match s.moveOf p pg with
        | some m => (s.finishMove m).1
        | none => s
      else s, .frame f)
    | r => r

/-- Frames of T1 made free by evicting pages, oldest first, while the pool is below LOW; those of `stuck`, for which T2 has no frame, are
passed over, and a page on its way out is waited for when no other can leave (R272). -/
def State.makeT1 (stuck : List (Nat × Nat)) : Nat → State → State × Alloc
  | 0, s => match s.takeFree .t1 with
    | (s, some f) => (s, .frame f)
    | (s, none) => (s, if s.leaving .t1 then .wait else .none)
  | n + 1, s =>
    match s.takeFree .t1 with
    | (s, some f) => (s, .frame f)
    | (s, none) =>
      let left : Alloc := if s.leaving .t1 then .wait else .none
      if s.fget F.PGM_WATER_LOW = 0 then (s, left)
      else
        match s.oldest ((s.poolPages .t1).filter fun x => s.evictable x.1 x.2 && !stuck.contains x) with
        | none => (s, left)
        | some (p, pg) =>
          match s.evictPage p pg true with
          | (s, .frame _) => State.makeT1 stuck n s
          | (s, .wait) => (s, .wait)
          | (s, .none) => State.makeT1 ((p, pg) :: stuck) n s

/-- A frame of T1 for an allocation; none when the allocation fails (R271, R272). -/
def State.takeT1 (s : State) (p pg : Nat) (unit : Bool) : State × Alloc :=
  match State.makeT1 [] ((s.poolPages .t1).length) s with
  | (s, .none) => (s.noSpace p pg unit, .none)
  | r => r

/-- A copy of a page to a frame that an allocation gave, if it gave one (R268). -/
def State.copyTo (p pg : Nat) (t : Tier) (keepHome : Bool) (prio : Nat) : State × Alloc → State × MoveStart
  | (s, .frame f) => (s.startCopy p pg t f keepHome prio, .started)
  | (s, .wait) => (s, .waits)
  | (s, .none) => (s, .failed 6)

/-- A move of a page to T1, T2 or T3 begins (R268). -/
def State.startMove (s : State) (p pg tier : Nat) (keepHome : Bool) (prio : Nat) : State × MoveStart :=
  match tier with
  | 3 => s.startLoan p pg false prio
  | 1 => State.copyTo p pg .t1 keepHome prio (s.takeT1 p pg (prio == 3))
  | _ => State.copyTo p pg .t2 false prio (s.takeT2 p pg (prio == 3))

/-- A move to T1 queued for a late operand, once for each page; a FIXED page is never moved (R216, R258, R261). One whose pins are all
taken stalls (R276). -/
def State.lateMove (s : State) (p pg : Nat) : State :=
  let d := s.pme p pg
  let w := Who.read 2 p (pg * frameSize) frameSize
  if (d.state = PgT2 ∨ d.state = PgT3) ∧ d.fixed = false then
    if 255 ≤ d.pins then s.pinStall w else ((s.pinGo w).startMove p pg 1 false 1).1
  else s

/-! ### The mover's order (R267) -/

/-- `PGM_STAT.EVICTING` brought up to date: from below LOW until HIGH is reached (R272). -/
def State.updEvicting (s : State) : State :=
  let n := s.countFrames .t1 Frame.isFree
  if n < s.fget F.PGM_WATER_LOW then s.set1 F.PGM_STAT_EVICTING
  else if s.fget F.PGM_WATER_HIGH ≤ n then s.set0 F.PGM_STAT_EVICTING
  else s

/-- The page that is evicted next, while eviction is in progress (R272). -/
def State.evictNext (s : State) : Option (Nat × Nat) :=
  if s.flag F.PGM_STAT_EVICTING then s.oldest ((s.poolPages .t1).filter fun x => s.evictable x.1 x.2) else none

/-- Whether an eviction can go on, so that what comes after it in the mover's order waits: the next page has a place to go to (R267,
R272). -/
def State.evictWaits (s : State) : Bool := match s.updEvicting.evictNext with
  | none => false
  | some (p, pg) =>
    let d := s.pme p pg
    d.hasHome || d.dropOk || (s.findFrame .t2 fun f => f.isFree || f.toFill).isSome || s.leaving .t2 || s.nextT2.isSome

/-- Whether the copy of a move goes on within the engine: one over the fabric waits for its lender. -/
def Move.local_ (m : Move) : Bool := m.dst.isSome && m.left == 0

/-- Whether the mover has work before a move: a copy of higher priority, or of the same that came before it, or an eviction still to be
begun (R267, log entry 75: DEDUCED). -/
def State.moveBehind (s : State) (m : Move) : Bool :=
  (s.pages.moves.any fun x => x.local_ && decide (x.prio < m.prio))
    || ((s.pages.moves.takeWhile (· != m)).any fun x => x.local_ && x.prio == m.prio)
    || (decide (2 < m.prio) && s.evictWaits)

/-- Whether copies stand before an eviction, or before a fill or the ager: those of a lower number in the order. -/
def State.moverBusy (s : State) (prio : Nat) : Bool := s.pages.moves.any fun x => x.local_ && decide (x.prio < prio)

end Sys2Proof.Machine
end

