-- ==== Sys2Proof/Machine/Access.lean ====
section
/-! DEFINITION. Accesses by partition address: page states, master pages, coded pages, sequences (R124, R258–R262, R273–R276). -/

namespace Sys2Proof.Machine

open Sys2Proof

/-! ### Pins (R276) -/

/-- An access to a page gains a pin, kept until its last beat leaves the bank. -/
def State.pin (s : State) (p pg : Nat) : State :=
  if s.inMap p pg then let d := s.pme p pg; s.setPme p pg { d with pins := d.pins + 1 } else s

/-- Whether a page's pins are all taken, for an access that would stall; an entry that reads as poison holds no pins (R258). -/
def State.pinsFull (s : State) (p pg : Nat) : Bool := s.inMap p pg && !s.pmeBad p pg && decide (255 ≤ (s.pme p pg).pins)

/-- The first page of a byte range whose pins are all taken. -/
def State.fullPage (s : State) (p a n : Nat) : Option Nat :=
  ((List.range (if n = 0 then 0 else (a + n - 1) / frameSize - a / frameSize + 1)).map (· + a / frameSize)).find? fun pg => s.pinsFull p pg

/-- Whether an access of the engine's own to a byte range stalls: the pins of one of its pages are all taken (R276). A page in T3 is
pinned, and its stall told, where its pieces are fetched. -/
def State.rangeStalls (s : State) (p a n : Nat) : Bool :=
  (List.range (if n = 0 then 0 else (a + n - 1) / frameSize - a / frameSize + 1)).any fun i =>
    let pg := a / frameSize + i
    s.pinsFull p pg && s.effState p pg (s.pme p pg) != PgT3

/-- An access that waits joins the list, under a number of its own (R72). -/
def State.park (s : State) (a : Access) : State :=
  { s with coding := { s.coding with stalled := s.coding.stalled ++ [{ a with id := s.coding.nextAcc }], nextAcc := s.coding.nextAcc + 1 } }

/-! ### Peeking at tables -/

/-- Bytes of a partition as they lie, without an access; 0xFF where nothing lies. -/
def State.peek (s : State) (p a n : Nat) : List Byte :=
  (List.range (ceilDiv (a % 4096 + n) 4096)).flatMap fun i =>
    let lo := if i = 0 then a else (a / 4096 + i) * 4096
    let hi := min (a + n) ((a / 4096 + i + 1) * 4096)
    padTo (hi - lo) 0xFF (s.peekGran p lo (hi - lo))

/-- Entry of a partition's layer table, as it lies (R126). -/
def State.layerDesc (s : State) (p i : Nat) : List Byte :=
  s.peek p (s.fget F.UPD_LTAB_BASE_BASE p * 4096 + 64 * i) 64

/-- Whether a page holds lo halves: a valid layer descriptor of its partition names it in its lo region (R124, R126;
log entry 22). -/
def State.isLo (s : State) (p pg : Nat) : Bool :=
  (List.range (s.fget F.UPD_LTAB_COUNT_COUNT p)).any fun i =>
    let d := s.layerDesc p i
    let lo := fieldLE d 4 4
    crcOk d 60 && decide (lo * 4096 / frameSize ≤ pg) && decide (pg ≤ (lo * 4096 + 2 * fieldLE d 28 4 - 1) / frameSize)

/-- Whether the master rule of R124 refuses an access by a class to a page. -/
def State.masterRefuses (s : State) (cls p pg : Nat) (wr : Bool) (d : Pme) : Bool :=
  d.master && cls != 0 && !bit (s.rd R.UPD_LOAD_EN) p && (wr || (cls != 3 && s.isLo p pg))

/-- A refusal of R124, counted and logged. -/
def State.masterRefused (s : State) (p a : Nat) : State :=
  ((s.bump F.UPD_WR_REFUSED_COUNT).irq Page.UPD 2).logErr
    { block := Page.UPD, code := 0x0301, sev := 0, part := some p, kind := 2, addr := a }

/-! ### The change map (R346) -/

/-- A page's change-map word: as the cache keeps it, or read with its parity check; one that cannot be read counts as all ones
(R229, R231, R347). -/
def State.mapWord (s : State) (p pg : Nat) : State × Nat := match alGet s.arc.words (pageKey p pg) with
  | some (_, w) => (s, w)
  | none =>
    let a := s.mapWordAt p pg
    match s.readSec .t1 (a / 64) with
    | (s, poison, erased) => (s, if poison || erased then 0xFFFFFFFF else ofLE (s.tower.mem.bytes a 4))

/-- A granule of a partition's page whose contents a write changed: its bit of the live map is set, in the word that the translation
cache keeps with the page's entry (R346, R347). -/
def State.noteWrite (s : State) (p a : Nat) : State :=
  let pg := a / frameSize
  if pg < s.fget F.ARC_MAP_PAGES_PAGES p then
    let b := a % frameSize / 4096 + 16 * s.fget F.ARC_STAT_LIVE p
    let k := pageKey p pg
    match s.mapWord p pg with
    | (s, old) =>
      if bit old b then s
      else
        let s := s.cachePme k
        { s with arc := { s.arc with words := alPut s.arc.words k (s.mapWordAt p pg, setBit old b true) } }
  else s

/-! ### Access outcomes -/

/-- What an access to one granule answers when it reads. -/
inductive RdOut where
  /-- the bytes, none where poison -/
  | data (bs : List (Option Byte))
  /-- refused, with a status of R398 -/
  | refused (st : Nat)
  /-- it must wait for a row (R111, R115) or for a pin (R276) -/
  | wait
  /-- class 0 found its page in T2 or T3 (R260, R261) -/
  | late
  /-- the page lies at a lender (R260) -/
  | far (lender index : Nat)
  deriving DecidableEq, Repr

/-- What an access to one granule answers when it writes. -/
inductive WrOut where
  | done
  | refused (st : Nat)
  | wait
  deriving DecidableEq, Repr

/-- A class-0 write that finds no place: discarded, counted, logged (R258, R260). -/
def State.discard (s : State) (p a st : Nat) (d : Pme) : State × WrOut :=
  ((s.bump F.PGM_C0_DISCARD_CNT_COUNT).logErr
    { block := Page.PGM, code := 0x0504, sev := 1, part := some p, kind := 2, addr := a,
      detail := [a / frameSize, d.state, 0, d.gen] }, .refused st)

/-- Blocks of coded regions that a byte range of a partition covers: slot × 2^23 + row. -/
def State.blocksAt (s : State) (p a n : Nat) : List Nat :=
  (List.range (if n = 0 then 0 else (a + n - 1) / 4096 - a / 4096 + 1)).filterMap fun i =>
    let x := a / 4096 + i
    let d := s.pme p (x / 16)
    let g := d.frame % 16
    if s.inMap p (x / 16) && s.effState p (x / 16) d == PgCoded then
      some (g * 2 ^ 23 + rowOfBlock (Grp.n s g) (Grp.k s g) (Grp.own s g) (16 * d.home + x % 16))
    else none

/-- Bytes of an element of a noise fill. -/
def Noise.size (n : Noise) : Nat := if n.dist ≠ 0 ∧ n.half = true then 2 else 4

/-- Whether a writer still has a write that waits (R72). -/
def State.whoWaits (s : State) : Who → Bool
  | .update p => ((s.upd.parts[p]?).bind fun u => u.pass).any fun x => !x.todo.isEmpty
  | .lane id => s.lane.jobs.any fun j => j.id == id && !j.todo.isEmpty
  | .access _ id => s.coding.stalled.any fun a => a.id == id
  | .coll p => s.col.jobs.any fun j => j.part == p && !j.todo.isEmpty
  | .page p u => s.pages.jobs.any fun j => j.part == p && j.ended.length == u
  | .noise => s.upd.noise.isSome
  | .stage p => s.arc.points.any fun x => x.1 == p
  | .restore p => s.arc.restores.any fun x => x.part == p
  | .read _ _ _ _ => false

/-- Writes known to wait for room whose writer, other than `w`, no longer holds them are forgotten. -/
def State.pruneWaits (s : State) (w : Who) : State :=
  if s.coding.fullWait.isEmpty then s
  else { s with coding := { s.coding with fullWait := s.coding.fullWait.filter fun k => k.1 == w || s.whoWaits k.1 } }

/-- A read within one granule of 4 KiB, by a class (R258–R262). -/
def State.pageRead (s : State) (cls p a n : Nat) : State × RdOut :=
  let pg := a / frameSize
  let off := a % frameSize
  match s.pmeRead p pg with
  | (s, .beyond) => (s, .refused 3)
  | (s, .poison) => (s, .refused 4)
  | (s, .pme d) =>
    let st := s.effState p pg d
    if st = PgUnmapped ∨ st = PgDropped then (s, .refused 9)
    else if s.masterRefuses cls p pg false d then (s.masterRefused p a, .refused 3)
    else
      let s := s.touch p pg
      match st with
      | 1 => (s, .data (List.replicate n (some 0)))
      | 2 =>
        if cls = 2 && s.isMapFrame d.frame then (s, .refused 3)
        else
          let (s, r) := s.readTier .t1 (d.frame * frameSize + off) n
          (s, .data r.bytes)
      | 3 =>
        if cls = 0 then (s, .late)
        else
          let (s, r) := s.readTier .t2 (d.frame * frameSize + off) n
          (s, .data r.bytes)
      | 4 => if cls = 0 then (s, .late) else (s, .far (d.frame / 65536) (d.frame % 65536))
      | _ =>
        let g := d.frame % 16
        let L := 16 * d.home + off / 4096
        if L < s.codedBlocks g then
          match s.codedRead g L (off % 4096) n with
          | (s, some bs, _) => (s, .data bs)
          | (s, none, need) => (s.gatherFor g need, .wait)
        else (s, .refused 9)

/-- A write to a frame: the bytes, DIRTY where a home copy exists, and the pieces of a copy to T3 to be copied again. -/
def State.frameWrite (s : State) (p a : Nat) (t : Tier) (d : Pme) (bs : List (Option Byte)) : State :=
  let pg := a / frameSize
  let s := s.writeTier t (d.frame * frameSize + a % frameSize) bs
  let s := if d.hasHome && !d.dirty then s.setPme p pg { s.pme p pg with dirty := true } else s
  let piece := a % frameSize / 256
  { s with pages := { s.pages with moves := s.pages.moves.map fun m =>
      if m.part == p && m.page == pg && m.tier == 3 && m.dst.isSome then
        let ps := (List.range (ceilDiv (a % 256 + bs.length) 256)).map (· + piece)
        { m with marks := ps.foldl nsAdd m.marks }
      else m } }

/-- A write within one granule of 4 KiB, with its due tick; `none` leaves a byte (R258–R262). -/
def State.pageWrite (s : State) (w : Who) (p a due : Nat) (bs : List (Option Byte)) : State × WrOut :=
  let cls := w.cls
  let pg := a / frameSize
  let off := a % frameSize
  match s.pmeRead p pg with
  | (s, .beyond) => if cls = 0 then s.discard p a 3 {} else (s, .refused 3)
  | (s, .poison) => if cls = 0 then s.discard p a 4 {} else (s, .refused 4)
  | (s, .pme d) =>
    let st := s.effState p pg d
    if cls = 0 ∧ st ≠ PgT1 ∧ st ≠ PgCoded then s.discard p a 6 d
    else if st = PgUnmapped ∨ st = PgDropped then (s, .refused 9)
    else if s.masterRefuses cls p pg true d then (s.masterRefused p a, .refused 3)
    else
      let s := s.touch p pg
      match st with
      | 1 =>
        match s.takeT1 p pg false with
        | (s, .none) => (s, .refused 6)
        | (s, .wait) => (s, .wait)
        | (s, .frame f) =>
          let s := (s.setFrame .t1 f (.page p pg)).setPme p pg { s.pme p pg with state := PgT1, frame := f }
          ((s.frameWrite p a .t1 (s.pme p pg) bs).noteWrite p a, .done)
      | 2 =>
        if cls != 0 && s.isMapFrame d.frame then (s, .refused 3)
        else ((s.frameWrite p a .t1 d bs).noteWrite p a, .done)
      | 3 => ((s.frameWrite p a .t2 d bs).noteWrite p a, .done)
      | 4 => (s, .refused 3)
      | _ =>
        let g := d.frame % 16
        let L := 16 * d.home + off / 4096
        if L < s.codedBlocks g then
          let blk := Grp.slotAddr s g (rowOfBlock (Grp.n s g) (Grp.k s g) (Grp.own s g) L) + off % 4096
          let old := (s.tierMem (Grp.tier s g)).bytes blk bs.length
          match (s.pruneWaits w).codedWrite w g L (off % 4096) due bs with
          | (s, .done, _) =>
            let new := (s.tierMem (Grp.tier s g)).bytes blk bs.length
            (if old == new then s else s.noteWrite p a, .done)
          | (s, .wait, need) => (s.gatherFor g need, .wait)
          | (s, .poison, _) => (s, .refused 4)
        else if cls = 0 then s.discard p a 6 d
        else (s, .refused 9)

/-- A sector stored as poison at a partition address: a ZERO page is given its frame first, a coded block's
sector is stored as it stands; a page without a frame keeps nothing (R231, R301). -/
def State.poisonAt (s : State) (w : Who) (p a : Nat) : State :=
  let pg := a / frameSize
  if !s.inMap p pg then s
  else
    let sec := a / 64 * 64
    let s := if s.effState p pg (s.pme p pg) = PgZero then (s.pageWrite w p sec s.tick.now (List.replicate 64 (some 0xFF))).1 else s
    let d := s.pme p pg
    let f := (d.frame * frameSize + a % frameSize) / 64
    match s.effState p pg d with
    | 2 => (s.putPoison .t1 f).noteWrite p a
    | 3 => (s.putPoison .t2 f).noteWrite p a
    | 6 =>
      let g := d.frame % 16
      let L := 16 * d.home + a % frameSize / 4096
      if L < s.codedBlocks g then
        (s.putPoison (Grp.tier s g)
          ((Grp.slotAddr s g (rowOfBlock (Grp.n s g) (Grp.k s g) (Grp.own s g) L) + a % 4096) / 64)).noteWrite p a
      else s
    | _ => s

/-! ### Runs of granules -/

/-- How a read or a write over several granules ends. -/
inductive Span where
  | ok
  /-- the status of the first refusal -/
  | refused (st : Nat)
  | wait
  | late
  deriving DecidableEq, Repr

/-- The granules of a byte range: address and length of each piece. -/
def granules (a n : Nat) : List (Nat × Nat) :=
  (List.range (if n = 0 then 0 else (a + n - 1) / 4096 - a / 4096 + 1)).map fun i =>
    let lo := if i = 0 then a else (a / 4096 + i) * 4096
    (lo, min (a + n) ((a / 4096 + i + 1) * 4096) - lo)

/-- A later piece's end joined to what came before. -/
def Span.join : Span → Span → Span
  | .wait, _ => .wait
  | _, .wait => .wait
  | .late, _ => .late
  | _, .late => .late
  | .refused a, _ => .refused a
  | .ok, x => x

/-- Whether a piece of a page in T3 has been asked for. -/
def State.pieceAsked (s : State) (p k : Nat) : Bool :=
  let u := ReqUse.pieceRead p k
  s.fab.txq.any (fun t => t.use == u) || s.fab.flight.any fun f => f.txn.use == u

/-- A page in T3 that the engine's own read fetches from gains a pin, once (R276). -/
def State.farPin (s : State) (p pg : Nat) : State :=
  let k := pageKey p pg
  if nsMem s.pages.farPins k then s else { s.pin p pg with pages := { (s.pin p pg).pages with farPins := nsAdd s.pages.farPins k } }

/-- A read of the engine's own within one granule of a page in T3, lender and index given: its pieces are fetched over the
fabric; where the lender does not give one, HOME does, or the page is GONE (R260, R285; log entry 23). It stalls while the page's pins
are all taken (R276). -/
def State.pieceFetch (s : State) (p a n l x : Nat) : State × RdOut :=
  let ks := (List.range (if n = 0 then 0 else (a + n - 1) / 256 - a / 256 + 1)).map (· + a / 256)
  let got := ks.map fun k => alGet s.pages.far (p * 2 ^ 32 + k)
  if got.all (·.isSome) then
    let bs := got.map (·.getD [])
    if bs.all (!·.isEmpty) then (s, .data ((bs.flatten.drop (a % 256)).take n))
    else
      let d := s.pme p (a / frameSize)
      if d.hasHome then
        match s.readTier .t2 (d.home * frameSize + a % frameSize) n with
        | (s, r) => (s, .data r.bytes)
      else (s, .refused 9)
  else if !nsMem s.pages.farPins (pageKey p (a / frameSize)) && s.pinsFull p (a / frameSize) then (s.pinStall (.read 2 p a n), .wait)
  else
    (ks.foldl (fun s k =>
      if (alGet s.pages.far (p * 2 ^ 32 + k)).isSome || s.pieceAsked p k then s
      else s.offerReq (.pieceRead p k) 1 7 (lenderEntry l) 0 0 (x * frameSize + k % 256 * 256) 256 [] (some p)) ((s.pinGo (.read 2 p a n)).farPin p (a / frameSize)), .wait)

/-- The pieces a finished read has taken are given up. -/
def State.farTaken (s : State) (p a n : Nat) : State :=
  { s with pages := { s.pages with far := s.pages.far.filter fun e =>
      !(e.1 / 2 ^ 32 == p && decide (a / 256 ≤ e.1 % 2 ^ 32) && decide (e.1 % 2 ^ 32 * 256 < a + n)) } }

/-- The granules of a read of the engine's own: bytes, poison where refused. -/
def State.readSpan (s : State) (cls p a n : Nat) : State × List (Option Byte) × Span :=
  let r := (granules a n).foldl (fun acc g =>
    let (s, out, sp) := acc
    match s.pageRead cls p g.1 g.2 with
    | (s, .data bs) => (s, out ++ bs, sp)
    | (s, .refused st) => (s, out ++ List.replicate g.2 none, sp.join (.refused st))
    | (s, .wait) => (s, out ++ List.replicate g.2 none, sp.join .wait)
    | (s, .late) => (s, out ++ List.replicate g.2 none, sp.join .late)
    | (s, .far l x) =>
      match s.pieceFetch p g.1 g.2 l x with
      | (s, .data bs) => (s, out ++ bs, sp)
      | (s, .refused st) => (s, out ++ List.replicate g.2 none, sp.join (.refused st))
      | (s, _) => (s, out ++ List.replicate g.2 none, sp.join .wait)) (s, [], .ok)
  if r.2.2 = .wait then r else (r.1.farTaken p a n, r.2)

/-- A read of the engine's own over a range (R260, R276): one of classes 1 to 3 stalls while the pins of a page of it are all taken;
it takes and gives back its own pins within the step. -/
def State.readRange (s : State) (cls p a n : Nat) : State × List (Option Byte) × Span :=
  if cls != 0 && s.rangeStalls p a n then (s.pinStall (.read cls p a n), List.replicate n none, .wait)
  else (s.pinGo (.read cls p a n)).readSpan cls p a n

/-- A write of the engine's own over a range, granule by granule in ascending order; it stalls on pins as a read does (R276). -/
def State.writeRange (s : State) (w : Who) (p a due : Nat) (bs : List (Option Byte)) : State × Span :=
  if w.cls != 0 && s.rangeStalls p a bs.length then (s.pinStall w, .wait)
  else (granules a bs.length).foldl (fun acc g =>
    let (s, sp) := acc
    match s.pageWrite w p g.1 due ((bs.drop (g.1 - a)).take g.2) with
    | (s, .done) => (s, sp)
    | (s, .refused st) => (s, sp.join (.refused st))
    | (s, .wait) => (s, sp.join .wait)) (s.pinGo w, .ok)

/-- Whether every page of a run lies in a partition's map. -/
def State.runInMap (s : State) (p a n : Nat) : Bool := n == 0 || s.inMap p ((a + n - 1) / frameSize)

/-- Whether some mapped page of a byte range is a master page. -/
def State.runMaster (s : State) (p a n : Nat) : Bool :=
  (List.range (if n = 0 then 0 else (a + n - 1) / frameSize - a / frameSize + 1)).any fun i =>
    s.inMap p (a / frameSize + i) && (s.pme p (a / frameSize + i)).master

/-! ### Pins (R276) -/

/-- A pin ends (R276): the oldest source frame waiting for it, then the page's release. -/
def State.unpin (s : State) (p pg : Nat) : State :=
  if !s.inMap p pg then s
  else
    let d := s.pme p pg
    if d.pins = 0 then s
    else
      let s := s.setPme p pg { d with pins := d.pins - 1 }
      let s := match s.pages.linger.find? fun x => x.part == p && x.page == pg with
        | none => s
        | some x =>
          if x.pins ≤ 1 then
            ({ s with pages := { s.pages with linger := s.pages.linger.erase x } }).releaseLinger x.part x.tier x.frame
          else { s with pages := { s.pages with linger := s.pages.linger.map fun y =>
                  if y == x then { y with pins := y.pins - 1 } else y } }
      s.releaseCheck p pg

/-! ### Sequences (R273, R274) -/

/-- Virtual pages of a sequence. -/
def State.seqPages (s : State) (p : Nat) : Nat := 2 ^ (min (s.fget F.XLT_SEQ_PAGES_LOG2 p) 16)

/-- Partition address of a KV table entry (R273). -/
def State.kvEntryAddr (s : State) (p q v : Nat) : Nat :=
  s.fget F.XLT_SEQ_BASE_PAGE p * 4096 + 4 * (q * s.seqPages p + v)

/-- What a virtual page maps to. -/
inductive SeqOut where
  | page (pg : Nat)
  | invalid
  | wait
  deriving DecidableEq, Repr

/-- A virtual page translated (R273). -/
def State.seqLookup (s : State) (p q v : Nat) : State × SeqOut :=
  if s.fget F.XLT_SEQ_COUNT_COUNT p ≤ q ∨ s.seqPages p ≤ v then (s, .invalid)
  else
    match s.readRange 2 p (s.kvEntryAddr p q v) 4 with
    | (s, bs, .ok) =>
      if bs.any (·.isNone) then (s, .invalid)
      else
        let w := ofLE (bs.map (·.getD 0))
        if bit w 31 then (s, .page (w % 2 ^ 24)) else (s, .invalid)
    | (s, _, .wait) => (s, .wait)
    | (s, _, _) => (s, .invalid)

/-- A KV table entry written: a page, or none. -/
def State.seqSet (s : State) (w : Who) (p q v : Nat) (pg : Option Nat) : State × Span :=
  let e := match pg with
    | some x => x + 2 ^ 31
    | none => 0
  s.writeRange w p (s.kvEntryAddr p q v) s.tick.now ((leBytes 4 e).map some)

/-- Free pages of a partition's KV pool. -/
def State.kvFreeCount (s : State) (p : Nat) : Nat :=
  s.fget F.XLT_KV_COUNT_PAGES p - (alGet s.pages.kvUsed p).getD 0 + ((alGet s.pages.kvFree p).getD []).length

/-- A page taken from the KV pool, oldest released first; pages never used come before them (R273). -/
def State.kvTake (s : State) (p : Nat) : State × Option Nat :=
  let u := (alGet s.pages.kvUsed p).getD 0
  if u < s.fget F.XLT_KV_COUNT_PAGES p then
    ({ s with pages := { s.pages with kvUsed := alPut s.pages.kvUsed p (u + 1) } }, some (s.fget F.XLT_KV_FIRST_PAGE p + u))
  else
    match (alGet s.pages.kvFree p).getD [] with
    | [] => (s.irq Page.XLT 0, none)
    | x :: xs => ({ s with pages := { s.pages with kvFree := if xs.isEmpty then alDel s.pages.kvFree p else alPut s.pages.kvFree p xs } }, some x)

/-- A page taken from the KV pool goes back to where it stood, its use not begun: it is the next to be taken again (R273). -/
def State.kvReturn (s : State) (p pg : Nat) : State :=
  let u := (alGet s.pages.kvUsed p).getD 0
  if 0 < u ∧ pg + 1 = s.fget F.XLT_KV_FIRST_PAGE p + u then
    { s with pages := { s.pages with kvUsed := if u = 1 then alDel s.pages.kvUsed p else alPut s.pages.kvUsed p (u - 1) } }
  else
    let l := (alGet s.pages.kvFree p).getD []
    { s with pages := { s.pages with kvFree := alPut s.pages.kvFree p (pg :: l) } }

/-- Sectors of T1 written in order, those with a poisoned byte as poison (R231). -/
def State.putSectors (s : State) (sec : Nat) : Nat → List (Option Byte) → State
  | 0, _ => s
  | n + 1, bs =>
    let c := bs.take 64
    let s := if c.any (·.isNone) then s.putPoison .t1 sec else s.writeTier .t1 (64 * sec) c
    State.putSectors s (sec + 1) n (bs.drop 64)

/-- A frame of T1 filled with a page's copy, and a page of the pool mapped on it for the sequence in its place (R274). -/
def State.cowSwitch (s : State) (p pg x f : Nat) (bs : List (Option Byte)) : State :=
  let d := s.pme p pg
  let s := match s.effState p pg d with
    | 2 => (s.copyFrame .t1 d.frame .t1 f).1
    | 3 => (s.copyFrame .t2 d.frame .t1 f).1
    | _ => s.putSectors (f * 1024) 1024 bs
  let old := s.pme p x
  let s := s.setPme p x { state := PgT1, frame := f, home := noHome, dropOk := d.dropOk, lock := d.lock, gen := old.gen, refs := 1 }
  let s := (List.range 16).foldl (fun s i => s.noteWrite p (x * frameSize + 4096 * i)) s
  (s.bump F.XLT_COW_CNT_COUNT).dropRef p pg

/-- The sequence's entry is written, and with it P' takes the place of P (R274); a write of the entry that waits, or is refused, leaves
all as it was. -/
def State.cowPoint (s : State) (w : Who) (p q v pg x f : Nat) (bs : List (Option Byte)) : State × Option (Nat ⊕ Nat) :=
  match (s.setFrame .t1 f (.page p x)).seqSet w p q v (some x) with
  | (s, .ok) => (s.cowSwitch p pg x f bs, some (.inl x))
  | (s, .refused st) => ((s.setFrame .t1 f .free).kvReturn p x, some (.inr st))
  | (s, _) => ((s.setFrame .t1 f .free).kvReturn p x, none)

/-- The copy of a shared page P, pinned, into a page P' of the pool and a frame of T1 (R274): P' must have an entry that can be
used. -/
def State.cowCopy (s : State) (w : Who) (p q v pg x : Nat) (bs : List (Option Byte)) : State × Option (Nat ⊕ Nat) :=
  match s.pmeRead p x with
  | (s, .beyond) => (s.kvReturn p x, some (.inr 3))
  | (s, .poison) => (s.kvReturn p x, some (.inr 4))
  | (s, .pme _) =>
    let unit : Bool := match w with
      | .page _ _ => true
      | _ => false
    match (s.pin p pg).takeT1 p x unit with
    | (s, .none) => ((s.moverUnpin p pg).kvReturn p x, some (.inr 6))
    | (s, .wait) => ((s.moverUnpin p pg).kvReturn p x, none)
    | (s, .frame f) => (s.moverUnpin p pg).cowPoint w p q v pg x f bs

/-- A sequence's private copy of a page that others name (R274), for a COW of the page queue or before a write: the page it then names,
or a failing status; none while the page's data, a frame, a pin or the table's entry must be waited for. -/
def State.cowPage (s : State) (w : Who) (p q v pg : Nat) : State × Option (Nat ⊕ Nat) :=
  match s.pmeRead p pg with
  | (s, .beyond) => (s, some (.inr 3))
  | (s, .poison) => (s, some (.inr 4))
  | (s, .pme d) =>
    if d.refs ≤ 1 then (s, some (.inl pg))
    else if s.pinsFull p pg then (s.pinStall w, none)
    else
      let s := s.pinGo w
      let st := s.effState p pg d
      let r := if st = PgT1 ∨ st = PgT2 then (s, [], Span.ok) else s.readRange 2 p (pg * frameSize) frameSize
      match r with
      | (s, _, .refused st) => (s, some (.inr st))
      | (s, bs, .ok) =>
        match s.kvTake p with
        | (s, none) => (s, some (.inr 6))
        | (s, some x) => s.cowCopy w p q v pg x bs
      | (s, _, _) => (s, none)

end Sys2Proof.Machine
end

