-- ==== Sys2Proof/Machine/TowerCmds.lean ====
section
/-! DEFINITION. The tower's commands: bank entries, refresh, repair, temperature, probes (R223–R250). -/

namespace Sys2Proof.Machine

open Sys2Proof

/-- The bytes of a sector that a WR writes: those its byte enables select (R223). -/
def enabled (be : BitVec 64) (data : List Byte) : List (Option Byte) :=
  (List.range 64).map fun i => if be.getLsbD i then data[i]? else none

/-- The tower row and symbol of the coded region that a sector lies in: row, data block where it is one. -/
def State.codedSec (s : State) (g sec : Nat) : Nat × Option Nat :=
  let r := sec / 64 - s.fget F.CDE_GRP_BASE_BASE g
  let q := symOf (Grp.n s g) (Grp.own s g) r
  (r, if q < Grp.k s g then some (blockOfRow (Grp.n s g) (Grp.k s g) q r) else none)

/-- A write of parts of bytes, as the arbiter grants it to a class: the sector is read with its parity check, the bits of each byte
under its mask are merged in, and the changed bytes are written back with their parity. In a coded region it is a coded write, whose old
read is that read (R226, R231); where it must wait it is asked for again. -/
def State.mergeSec (s : State) (cls sec : Nat) (mask data : List Byte) : State :=
  let merged (s : State) : List (Option Byte) := (List.range 64).map fun i =>
    let m := mask.getD i 0
    if m = 0 then none else some ((s.tower.mem.byte (64 * sec + i) &&& ~~~m) ||| (data.getD i 0 &&& m))
  match s.codedAt .t1 (64 * sec) with
  | none => let s := (s.readSec .t1 sec).1; s.towerPut (64 * sec) (merged s)
  | some g =>
    if s.tower.mem.secRead true sec = .poison then (s.readSec .t1 sec).1
    else match (s.codedSec g sec).2 with
      | none => s
      | some L =>
        match s.codedWrite (.read cls (Grp.part s g) (64 * sec) 64) g L (64 * sec % 4096) s.tick.now (merged s) with
        | (s, .wait, need) => s.gatherFor g need
        | (s, _, _) => s

/-- A sector read by a command of its own; one of a coded region that fails its parity is an erasure, and is reconstructed (R230). -/
def State.bankRead (s : State) (sec : Nat) : State :=
  match s.readSec .t1 sec with
  | (s, _, true) => match s.codedAt .t1 (64 * sec) with
    | some g => s.gatherFor g (some ((s.codedSec g sec).1, .erasure))
    | none => s
  | (s, _, false) => s

/-- One command on a bank: ACT opens a row of a precharged bank, RD reads a sector of the open row with its parity check,
WR writes one with byte enables, PRE closes the row, REF refreshes the next 8 rows (R223). Class 0 never writes part of a byte (R228). -/
def State.bankCmd (s : State) (b cls : Nat) (c : TowerCmd) : State :=
  if s.tower.selfRefresh then s
  else
    let k := s.bank b
    match c, k.openRow with
    | .act r, none =>
      if r < 6144 then (s.issue b [cmdWord 1 b 0, s.issuedRow b r]).setBank b { k with openRow := some r } else s
    | .rd x, some r => if x < 32 ∧ r < 6144 then (s.issueRd b x).bankRead (tAddr b r (64 * x) / 64) else s
    | .wr x be data, some r =>
      if x < 32 ∧ r < 6144 then (s.issueWr b x be.getLsbD).towerPut (tAddr b r (64 * x)) (enabled be data) else s
    | .merge x mask data, some r =>
      if x < 32 ∧ r < 6144 ∧ cls ≠ 0 then
        ((s.issueRd b x).issueWr b x fun i => mask.getD i 0 != 0).mergeSec cls (tAddr b r (64 * x) / 64) mask data
      else s
    | .ref eyes, _ => s.refBank b eyes
    | .pre, some _ => (s.issue b [cmdWord 5 b 0]).setBank b { k with openRow := none }
    | _, _ => s

/-- `BANK`: class-0 occupancy of a bank, in which the engine issues the user's commands (R507). -/
def execBankEntry (bank : Fin 512) (user : Fin 5) (cmds : List TowerCmd) (s : State) : Host.Outcome State Fault Refusal :=
  onUp s fun s => if user = 0 then s else cmds.foldl (fun s c => s.bankCmd bank 0 c) s

/-- `REFRESH`: a plan's REFRESH entry (R38, R232); none is carried out while the scheduled plane is halted (R248). -/
def execRefreshEntry (bank : Fin 512) (eyes : List Nat) (s : State) : Host.Outcome State Fault Refusal :=
  onUp s fun s => if s.planeHalted then s else s.planRefresh bank eyes

/-- `AUTONOMOUS_REFRESH`: of a bank that no running plan refreshes (R233). -/
def execAutonomousRefresh (bank : Fin 512) (eyes : List Nat) (s : State) : Host.Outcome State Fault Refusal :=
  onUp s fun s => if s.tower.planRef.contains bank.val then s else s.refBank bank eyes

/-- `APPLY` (R240). -/
def execApply (path : Path) (s : State) : Host.Outcome State Fault Refusal :=
  fromPath path R.TWR_ORG_CMD s fun s => onPage s Page.TWR fun s => s.applyOrg (s.sel path F.TWR_ORG_SEL_ENTRY)

/-- `TEMP_SAMPLE` (R245, R246). -/
def execTempSample (readings : List (Option Int)) (s : State) : Host.Outcome State Fault Refusal :=
  onUp s fun s => s.tempSample readings

/-- `CRIT_CLEAR` (R248). -/
def execCritClear (path : Path) (s : State) : Host.Outcome State Fault Refusal :=
  fromPath path R.TTH_CRIT_CLEAR s fun s => onPage s Page.TTH fun s => s.critClear

/-- `PROBE_GO` (R249). -/
def execProbeGo (path : Path) (s : State) : Host.Outcome State Fault Refusal :=
  fromPath path R.TWR_PROBE_CFG s fun s => onPage s Page.TWR fun s => s.probeGo (s.sel path F.TWR_PROBE_SEL_GROUP)

/-- `TTH_PEAK_WRITE`: any write sets the peak to the current value (R253). -/
def execTthPeakWrite (path : Path) (s : State) : Host.Outcome State Fault Refusal :=
  fromPath path R.TTH_PEAK s fun s => onPage s Page.TTH fun s => s.fset F.TTH_PEAK_TEMP 0 (unsigned 16 (s.tempEff (s.fget F.TTH_MAX_LAYER)))

end Sys2Proof.Machine
end

