-- ==== Sys2Proof/Machine/Arbiter.lean ====
section
/-! DEFINITION. The boundary arbiter (R378–R382, R384): grants, pre-emption, the class-1 quota, the throttle's share. -/

namespace Sys2Proof

open Sys2Proof.Machine

/-- Number of a resource in the arbiter's tables. -/
def ArbRes.key : ArbRes → Nat
  | .bank b => b.val
  | .channel k => 512 + k.val

/-- Whether a resource is a bank of the tower. -/
def ArbRes.isBank : ArbRes → Bool
  | .bank _ => true
  | .channel _ => false

end Sys2Proof

namespace Sys2Proof.Machine

open Sys2Proof

/-- The unit of a class that is next at a resource: the one pre-empted before, else round robin from the unit last granted (R378, R380). -/
def State.arbUnit (s : State) (key cls : Nat) (reqs : List ArbReq) : Option ArbReq :=
  let rs := reqs.filter fun r => r.cls.val == cls
  let k := 4 * key + cls % 4
  match (alGet s.arb.again k).bind fun u => rs.find? fun r => r.unit == u with
  | some r => some r
  | none =>
    let next := (alGet s.arb.last k).getD 0
    let least (l : List ArbReq) : Option ArbReq := l.foldl (fun b r => match b with
      | none => some r
      | some x => if r.unit < x.unit then some r else b) none
    match least (rs.filter fun r => decide (next ≤ r.unit)) with
    | some r => some r
    | none => least rs

/-- The switch transfer that is next at a resource: the one pre-empted before, else the first that asks (R370, R380). -/
def State.arbSwitch (s : State) (key : Nat) (reqs : List ArbReq) : Option ArbReq :=
  let rs := reqs.filter fun r => r.cls.val == 4
  (((alGet s.arb.again (4 * key)).bind fun u => rs.find? fun r => r.unit == u)) <|> rs.head?

/-- The request granted at a resource: late-weight traffic at the external tier port, class 1 unless masked, switch transfers,
class 2, class 3 (R378, R379, R382). -/
def State.arbPick (s : State) (res : ArbRes) (reqs : List ArbReq) : Option ArbReq :=
  let get (c : Nat) := s.arbUnit res.key c reqs
  let late := match res with
    | .channel _ => reqs.find? fun r => r.cls.val == 0
    | .bank _ => none
  let c1 := if s.flag F.ARB_STAT_MASKED then none else get 1
  late <|> c1 <|> s.arbSwitch res.key reqs <|> get 2 <|> get 3

/-- A class-1 grant counts against the quota of its window (R379). -/
def State.quotaUse (s : State) : State :=
  let n := s.arb.grants + 1
  let s := { s with arb := { s.arb with grants := n } }
  let q := s.fget F.ARB_QUOTA_GRANTS
  if q ≠ 0 ∧ q ≤ n ∧ s.flag F.ARB_STAT_MASKED = false then (s.set1 F.ARB_STAT_MASKED).bump F.ARB_MASK_CNT_COUNT else s

/-- A grant: its counter, the round robin, the quota; a sub-byte write is a read-modify-write, counted at every start (R226, R227). -/
def State.arbTake (s : State) (res : ArbRes) (r : ArbReq) : State :=
  let c := r.cls.val
  let s := if r.rmw && res.isBank then (s.bump F.TWC_RMW_CNT_COUNT).event 0x0403 (r.part.map (·.val)) else s
  let k := 4 * res.key + c % 4
  let again := if c ≠ 0 ∧ alGet s.arb.again k = some r.unit then alDel s.arb.again k else s.arb.again
  let s := { s with arb := { s.arb with again := again } }
  if c = 0 ∨ c = 4 then s
  else
    let s := { s with arb := { s.arb with last := alPut s.arb.last k (r.unit + 1) } }
    match c with
    | 1 => ((s.bump F.ARB_C1_GRANTS_COUNT).event 0x0301 (r.part.map (·.val))).quotaUse
    | 2 => s.bump F.ARB_C2_GRANTS_COUNT
    | _ => s.bump F.ARB_C3_GRANTS_COUNT

/-- An access in its read phase loses its grant and will request again ahead of its class (R380). -/
def State.arbPreempt (s : State) (res : ArbRes) (h : ArbReq) : State :=
  let s := (s.bump F.ARB_PREEMPT_CNT_COUNT).event 0x0302 (h.part.map (·.val))
  { s with arb := { s.arb with again := alPut s.arb.again (4 * res.key + h.cls.val % 4) h.unit } }

/-- An open burst opportunity of a bank passes, while the throttle is engaged counted in runs of 64 (R247): the state, and
whether classes 1 to 3 may still take it. -/
def State.arbOpp (s : State) (res : ArbRes) : State × Bool :=
  match res with
  | .channel _ => (s, true)
  | .bank b =>
    if !s.tower.throttle then ({ s with arb := { s.arb with opps := alDel s.arb.opps b.val } }, true)
    else
      let v := (alGet s.arb.opps b.val).getD 0
      let (n, g) := if 64 ≤ v / 128 then (0, 0) else (v / 128, v % 128)
      ({ s with arb := { s.arb with opps := alPut s.arb.opps b.val ((n + 1) * 128 + g) } },
       decide (g < s.fget F.TTH_THROTTLE_FRAC_FRAC))

/-- A grant of classes 1 to 3 in an opportunity that the throttle counts. -/
def State.arbOppUse (s : State) (res : ArbRes) (r : ArbReq) : State :=
  match res, alGet s.arb.opps res.key with
  | .bank b, some v => if r.cls.val = 4 then s else { s with arb := { s.arb with opps := alPut s.arb.opps b.val (v + 1) } }
  | _, _ => s

/-- The requests that may be granted: with the throttle's share used up, only switch transfers. -/
def arbOpen (ok : Bool) (reqs : List ArbReq) : List ArbReq := if ok then reqs else reqs.filter fun r => r.cls.val == 4

/-- One cycle of the arbiter at a resource: `holder` is the access that holds it and whether it is in its write phase. A cycle in
which none does is an opportunity of a bank (R225); one within a span that an access holds is not another, and a class-1 access that
takes the rest of it over uses the opportunity already counted (R247, R380). The state after it, and the request granted. -/
def State.arbCycle (s : State) (res : ArbRes) (reqs : List ArbReq) (holder : Option (ArbReq × Bool)) : State × Option ArbReq :=
  match holder, res with
  | none, _ =>
    let (s, ok) := s.arbOpp res
    match s.arbPick res (arbOpen ok reqs) with
    | none => (s, none)
    | some r => ((s.arbTake res r).arbOppUse res r, some r)
  | some (h, writing), .bank _ =>
    let c1 := if s.flag F.ARB_STAT_MASKED then none else s.arbUnit res.key 1 reqs
    match c1 with
    | none => (s, none)
    | some r =>
      if writing || !s.flag F.ARB_CTRL_PREEMPT_EN || h.cls.val < 2 then (s, none)
      else ((s.arbPreempt res h).arbTake res r, some r)
  | some _, .channel _ => (s, none)

/-- Cells that have flipped: per tower byte a mask of its eight bits and, as bit 8, its parity cell. -/
def State.flipCells (s : State) (damage : List (BitVec 33 × BitVec 9)) : State :=
  { s with tower := { s.tower with mem := damage.foldl (fun m d =>
      let a := d.1.toNat
      let b := m.byte a ^^^ BitVec.ofNat 8 d.2.toNat
      if a < towerSize then m.putRaw a b (m.isBad a != (popCount 9 d.2.toNat % 2 == 1)) else m) s.tower.mem } }

/-- `ARB_GRANT` (R378–R382): the requests presented at a resource in one cycle and the access that holds it. `cmds` are the
bank commands the granted access issues; `damage` lists cells that have flipped in the tower (R230). -/
def execArbGrant (res : ArbRes) (reqs : List ArbReq) (holder : Option (ArbReq × Bool)) (cmds : List TowerCmd)
    (damage : List (BitVec 33 × BitVec 9)) (s : State) : Host.Outcome State Fault Refusal :=
  onUp s fun s =>
    match (s.flipCells damage).arbCycle res reqs holder, res with
    | (s, some r), .bank b => cmds.foldl (fun s c => s.bankCmd b r.cls.val c) s
    | (s, _), _ => s

/-- A window of the arbiter begins: class 1 is unmasked (R379). -/
def State.arbWindow (s : State) : State := { s.set0 F.ARB_STAT_MASKED with arb := { s.arb with grants := 0 } }

/-- `QUOTA_WINDOW`. -/
def execQuotaWindow (s : State) : Host.Outcome State Fault Refusal := onUp s State.arbWindow

/-- `ARB_C1_MAX_WRITE` (R384). -/
def execArbC1MaxWrite (path : Path) (s : State) : Host.Outcome State Fault Refusal :=
  fromPath path R.ARB_C1_MAX s fun s => onPage s Page.ARB fun s => s.wr R.ARB_C1_MAX 0 0

/-- A class-1 tower read took `ns` to its first response beat (R381, R384). -/
def State.c1Latency (s : State) (ns : Nat) : State :=
  let s := s.fset F.ARB_C1_MAX_NS 0 (max (s.fget F.ARB_C1_MAX_NS) (min ns 0xFFFF))
  if 240 < ns then s.bump F.ARB_C1_OVER_CNT_COUNT else s

end Sys2Proof.Machine
end

