-- ==== Sys2Proof/Machine/Float.lean ====
section
/-! DEFINITION. Floating-point values as exact dyadic numbers, and the rounding of a value to a format (R131, R142, R164):
every operation computes its exact result and rounds it once. -/

namespace Sys2Proof.Machine

/-- A number, or what stands in its place: `fin neg m e` is (−1)^neg · m · 2^e. -/
inductive Num where
  | nan
  | inf (neg : Bool)
  | fin (neg : Bool) (m : Nat) (e : Int)
  deriving DecidableEq, Repr

/-- A binary format: fraction bits, exponent of the lowest bit of a subnormal, exponent field's width. -/
structure FFmt where
  frac : Nat
  qmin : Int
  ebits : Nat
  deriving DecidableEq, Repr

abbrev fp32 : FFmt := ⟨23, -149, 8⟩
abbrev fp64 : FFmt := ⟨52, -1074, 11⟩
abbrev bf16 : FFmt := ⟨7, -133, 8⟩

/-- The code of positive infinity. -/
def FFmt.infCode (f : FFmt) : Nat := (2 ^ f.ebits - 1) * 2 ^ f.frac

/-- Weight of the sign bit. -/
def FFmt.signBit (f : FFmt) : Nat := 2 ^ (f.frac + f.ebits)

/-- The canonical NaN: 0x7FC0_0000 in FP32, 0x7FC0 in BF16 (R131, R143). -/
def FFmt.nanCode (f : FFmt) : Nat := f.infCode + 2 ^ (f.frac - 1)

/-- The value a code spells. -/
def FFmt.decode (f : FFmt) (w : Nat) : Num :=
  let neg := bit w (f.frac + f.ebits)
  let ex := bits w f.frac f.ebits
  let fr := w % 2 ^ f.frac
  if ex = 2 ^ f.ebits - 1 then (if fr = 0 then .inf neg else .nan)
  else if ex = 0 then .fin neg fr f.qmin
  else .fin neg (2 ^ f.frac + fr) (f.qmin + ex - 1)

/-- `m / 2^d` rounded to the nearest integer, ties to even. -/
def rneShift (m d : Nat) : Nat :=
  let q := m >>> d
  let r := m % 2 ^ d
  if d = 0 then m
  else if r > 2 ^ (d - 1) ∨ (r = 2 ^ (d - 1) ∧ q % 2 = 1) then q + 1 else q

/-- Exponent of the grid on which a magnitude m · 2^e lies, with `frac` fraction bits and no exponent below `qmin`. -/
def gridExp (frac : Nat) (qmin : Int) (m : Nat) (e : Int) : Int := max qmin ((Nat.log2 m : Int) + e - frac)

/-- Code of a magnitude that lies n steps of 2^q above zero. -/
def gridCode (frac : Nat) (qmin : Int) (n : Nat) (q : Int) : Nat := n + (q - qmin).toNat * 2 ^ frac

/-- The code of a magnitude rounded to nearest even, the exponent unbounded above. -/
def nearestCode (frac : Nat) (qmin : Int) (m : Nat) (e : Int) : Nat :=
  let q := gridExp frac qmin m e
  if m = 0 then 0
  else if q ≤ e then gridCode frac qmin (m * 2 ^ (e - q).toNat) q
  else gridCode frac qmin (rneShift m (q - e).toNat) q

/-- A value rounded once to a format, nearest even; NaN is the canonical one (R131). -/
def FFmt.round (f : FFmt) : Num → Nat
  | .nan => f.nanCode
  | .inf neg => f.infCode + neg.toNat * f.signBit
  | .fin neg m e => min (nearestCode f.frac f.qmin m e) f.infCode + neg.toNat * f.signBit

/-! ### Exact operations -/

def Num.isNan : Num → Bool
  | .nan => true
  | _ => false

def Num.isFinite : Num → Bool
  | .fin _ _ _ => true
  | _ => false

def Num.isZero : Num → Bool
  | .fin _ m _ => m == 0
  | _ => false

def Num.neg : Num → Num
  | .nan => .nan
  | .inf n => .inf !n
  | .fin n m e => .fin (!n) m e

def Num.abs : Num → Num
  | .nan => .nan
  | .inf _ => .inf false
  | .fin _ m e => .fin false m e

/-- Signed integer of a sign and a magnitude. -/
def sgn (neg : Bool) (m : Nat) : Int := if neg then -(m : Int) else m

/-- Sum, exact; a sum of zero is +0 unless both terms are negative; ∞ − ∞ is NaN. -/
def Num.add : Num → Num → Num
  | .nan, _ => .nan
  | _, .nan => .nan
  | .inf a, .inf b => if a = b then .inf a else .nan
  | .inf a, _ => .inf a
  | _, .inf b => .inf b
  | .fin na ma ea, .fin nb mb eb =>
    let e := min ea eb
    let z := sgn na (ma * 2 ^ (ea - e).toNat) + sgn nb (mb * 2 ^ (eb - e).toNat)
    if z = 0 then .fin (na && nb) 0 e else .fin (decide (z < 0)) z.natAbs e

def Num.sub (a b : Num) : Num := a.add b.neg

/-- Product, exact; 0 · ∞ is NaN. -/
def Num.mul : Num → Num → Num
  | .nan, _ => .nan
  | _, .nan => .nan
  | .inf a, .inf b => .inf (a != b)
  | .inf a, .fin n m _ => if m = 0 then .nan else .inf (a != n)
  | .fin n m _, .inf b => if m = 0 then .nan else .inf (n != b)
  | .fin na ma ea, .fin nb mb eb => .fin (na != nb) (ma * mb) (ea + eb)

/-- Quotient to a precision that rounds correctly to FP32: 40 quotient bits and a bit for the rest. -/
def Num.div : Num → Num → Num
  | .nan, _ => .nan
  | _, .nan => .nan
  | .inf _, .inf _ => .nan
  | .inf a, .fin n _ _ => .inf (a != n)
  | .fin n _ _, .inf b => .fin (n != b) 0 0
  | .fin na ma ea, .fin nb mb eb =>
    if mb = 0 then (if ma = 0 then .nan else .inf (na != nb))
    else
      let k := 40 + Nat.log2 mb
      let q := (ma * 2 ^ k) / mb
      .fin (na != nb) (2 * q + (if (ma * 2 ^ k) % mb = 0 then 0 else 1)) (ea - eb - k - 1)

/-- Integer square root by bits from bit `n` − 1 down. -/
def isqrtAux (m : Nat) : Nat → Nat → Nat
  | 0, r => r
  | n + 1, r => if (r + 2 ^ n) * (r + 2 ^ n) ≤ m then isqrtAux m n (r + 2 ^ n) else isqrtAux m n r

/-- ⌊√m⌋. -/
def isqrt (m : Nat) : Nat := isqrtAux m (Nat.log2 m / 2 + 1) 0

/-- Square root to a precision that rounds correctly to FP32; below zero it is NaN (R131). -/
def Num.sqrt : Num → Num
  | .nan => .nan
  | .inf neg => if neg then .nan else .inf false
  | .fin neg m e =>
    if m = 0 then .fin neg 0 e
    else if neg then .nan
    else
      let m := if e % 2 = 0 then m else 2 * m
      let e := if e % 2 = 0 then e else e - 1
      let x := m * 2 ^ 64
      let r := isqrt x
      .fin false (2 * r + (if r * r = x then 0 else 1)) (e / 2 - 33)

/-- Order of two numbers that are not NaN. -/
def Num.lt : Num → Num → Bool
  | .nan, _ => false
  | _, .nan => false
  | .inf a, .inf b => a && !b
  | .inf a, .fin _ _ _ => a
  | .fin _ _ _, .inf b => !b
  | .fin na ma ea, .fin nb mb eb =>
    let e := min ea eb
    decide (sgn na (ma * 2 ^ (ea - e).toNat) < sgn nb (mb * 2 ^ (eb - e).toNat))

/-- Powers of two. -/
def Num.pow2 (x : Int) : Num := .fin false 1 x

/-- A value times 2^x. -/
def Num.scale (x : Int) : Num → Num
  | .fin n m e => .fin n m (e + x)
  | v => v

/-! ### FP32 words -/

/-- The value of an FP32 word. -/
abbrev f32 (w : Nat) : Num := fp32.decode w

/-- An operation of R131 on FP32 words: exact, rounded once. -/
def f32op2 (f : Num → Num → Num) (a b : Nat) : Nat := fp32.round (f (f32 a) (f32 b))

def f32Add : Nat → Nat → Nat := f32op2 Num.add
def f32Mul : Nat → Nat → Nat := f32op2 Num.mul
def f32Fma (a b c : Nat) : Nat := fp32.round (((f32 a).mul (f32 b)).add (f32 c))
def f32Fnma (a b c : Nat) : Nat := fp32.round ((f32 c).sub ((f32 a).mul (f32 b)))
def f32Sqrt (a : Nat) : Nat := fp32.round (f32 a).sqrt
def f32Div : Nat → Nat → Nat := f32op2 Num.div

/-- The larger or smaller of two FP32 words, the first when they compare equal, the canonical NaN when either is NaN (R131, R132). -/
def f32Pick (larger : Bool) (a b : Nat) : Nat :=
  if (f32 a).isNan || (f32 b).isNan then fp32.nanCode
  else if (if larger then (f32 a).lt (f32 b) else (f32 b).lt (f32 a)) then b else a

/-- Whether an FP32 word is finite. -/
def f32Finite (w : Nat) : Bool := (f32 w).isFinite

/-! ### Sums by pairwise tree (R137) -/

/-- One level: neighbours added, an odd last value kept. -/
def pairUp {α : Type} (f : α → α → α) : List α → List α
  | [] => []
  | [a] => [a]
  | a :: b :: l => f a b :: pairUp f l

/-- `n` levels. -/
def treeSum {α : Type} (f : α → α → α) : Nat → List α → List α
  | 0, l => l
  | n + 1, l => treeSum f n (pairUp f l)

end Sys2Proof.Machine
end

