-- ==== Sys2Proof/Machine/Convert.lean ====
section
/-! DEFINITION. Generator formats: block scales, rounding with and without random numbers, saturation and what is counted
(R141–R143). -/

namespace Sys2Proof.Machine

/-- The generator formats by `GEN_FMT` (R126). -/
inductive GenFmt where
  | t2 | mxfp4 | e4m3 | e5m2 | bf16
  deriving DecidableEq, Repr

def genFmtOf : Nat → Option GenFmt
  | 1 => some .t2
  | 2 => some .mxfp4
  | 3 => some .e4m3
  | 4 => some .e5m2
  | 5 => some .bf16
  | _ => none

/-- Fraction bits, exponent of the lowest bit, code of the largest magnitude, code width (R142). -/
def GenFmt.grid : GenFmt → Nat × Int × Nat × Nat
  | .t2 => (0, 0, 1, 2)
  | .mxfp4 => (1, -1, 7, 4)
  | .e4m3 => (3, -9, 0x7E, 8)
  | .e5m2 => (2, -16, 0x7B, 8)
  | .bf16 => (7, -133, 0x7F7F, 16)

/-- Whether blocks of 32 elements carry a scale. -/
def GenFmt.scaled (f : GenFmt) : Bool := f == .t2 || f == .mxfp4

/-- A magnitude's code on a grid before saturation, with the random number when there is one (R142). -/
def gridRound (frac : Nat) (qmin : Int) (sr : Option Nat) (m : Nat) (e : Int) : Nat :=
  match sr with
  | none => nearestCode frac qmin m e
  | some x0 =>
    let q := gridExp frac qmin m e
    if m = 0 then 0
    else if q ≤ e then gridCode frac qmin (m * 2 ^ (e - q).toNat) q
    else
      let d := (q - e).toNat
      let φ := (m % 2 ^ d) * 2 ^ 32 / 2 ^ d
      gridCode frac qmin (m / 2 ^ d + (if x0 < φ then 1 else 0)) q

/-- A converted element: its code and whether it counts as saturated or NaN, or as flushed to zero (R143). -/
structure GenElem where
  code : Nat
  ovf : Bool
  ftz : Bool
  deriving DecidableEq, Repr

/-- Code of the largest magnitude, of zero, of a sign and magnitude. -/
def GenFmt.pack (f : GenFmt) (neg : Bool) (mag : Nat) : Nat :=
  match f with
  | .t2 => if mag = 0 then 0 else if neg then 3 else 1
  | _ => mag + neg.toNat * 2 ^ (f.grid.2.2.2 - 1)

/-- A NaN master's code outside MXFP4 (R143). -/
def GenFmt.nan : GenFmt → Nat
  | .t2 => 0
  | .mxfp4 => 0
  | .bf16 => 0x7FC0
  | _ => 0x7F

/-- An element of a block with scale 2^X converted (R142, R143). -/
def GenFmt.elem (f : GenFmt) (x : Int) (sr : Option Nat) (v : Num) : GenElem :=
  let (frac, qmin, top, _) := f.grid
  match v with
  | .nan => ⟨f.nan, true, false⟩
  | .inf neg => ⟨f.pack neg top, true, false⟩
  | .fin neg m e =>
    let e := e - x
    if f = .t2 ∧ (Num.pow2 0).lt (.fin false m e) then ⟨f.pack neg top, true, false⟩
    else
      let c := gridRound frac qmin sr m e
      if top < c then ⟨f.pack neg top, true, false⟩
      else ⟨f.pack neg c, false, m != 0 && c == 0⟩

/-- ⌊log₂⌋ of a magnitude that is not 0. -/
def floorLog2 (m : Nat) (e : Int) : Int := (Nat.log2 m : Int) + e

/-- The largest magnitude of a block's masters that are not NaN; infinite when one is. -/
def maxMag (vs : List Num) : Num :=
  vs.foldl (fun a v => if v.isNan then a else if a.lt v.abs then v.abs else a) (.fin false 0 0)

/-- The scale exponent X of a block, clamped (R141). -/
def GenFmt.blockExp (f : GenFmt) (vs : List Num) : Int :=
  match maxMag vs with
  | .fin _ m e =>
    if m = 0 then -127
    else
      let l := floorLog2 m e
      let x := if f = .t2 then (if m = 2 ^ Nat.log2 m then l else l + 1) else l - 2
      max (-127) (min 127 x)
  | _ => 127

/-- A block of masters converted: the scale code, and the elements; random numbers by element when SR is set. -/
def GenFmt.block (f : GenFmt) (vs : List (Num × Option Nat)) : Nat × List GenElem :=
  let ns := vs.map (·.1)
  if f = .mxfp4 ∧ ns.any Num.isNan = true then (0xFF, vs.map fun _ => ⟨0, true, false⟩)
  else
    let x := if f.scaled then f.blockExp ns else 0
    ((x + 127).toNat, vs.map fun v => f.elem x v.2 v.1)

/-- The value of a small element code: E2M1, E4M3, E5M2 with the format's own NaN and infinity codes. -/
def GenFmt.value (f : GenFmt) (c : Nat) : Num :=
  let (frac, qmin, top, w) := f.grid
  match f with
  | .t2 => if c = 1 then .fin false 1 0 else if c = 3 then .fin true 1 0 else .fin false 0 0
  | .bf16 => Machine.bf16.decode c
  | _ =>
    let neg := bit c (w - 1)
    let mag := c % 2 ^ (w - 1)
    if f = .e5m2 ∧ mag = 0x7C then .inf neg
    else if top < mag then .nan
    else if mag / 2 ^ frac = 0 then .fin neg mag qmin
    else .fin neg (2 ^ frac + mag % 2 ^ frac) (qmin + mag / 2 ^ frac - 1)

end Sys2Proof.Machine
end

