-- ==== Sys2Proof/Machine/Philox.lean ====
section
/-! DEFINITION. Philox4x32-10 (R53, R54) and the noise distributions (R155). -/

namespace Sys2Proof.Machine

/-! ### The generator -/

/-- Words of a Philox counter. -/
structure PhCtr where
  c0 : Nat
  c1 : Nat
  c2 : Nat
  c3 : Nat
  deriving DecidableEq, Repr

/-- One round with keys k0 and k1. -/
def philoxRound (c : PhCtr) (k0 k1 : Nat) : PhCtr :=
  let p0 := 0xD2511F53 * c.c0
  let p1 := 0xCD9E8D57 * c.c2
  ⟨(p1 / 2 ^ 32) ^^^ c.c1 ^^^ k0, p1 % 2 ^ 32, (p0 / 2 ^ 32) ^^^ c.c3 ^^^ k1, p0 % 2 ^ 32⟩

/-- `n` rounds, the keys stepped after each. -/
def philoxRounds : Nat → PhCtr → Nat → Nat → PhCtr
  | 0, c, _, _ => c
  | n + 1, c, k0, k1 => philoxRounds n (philoxRound c k0 k1) ((k0 + 0x9E3779B9) % 2 ^ 32) ((k1 + 0xBB67AE85) % 2 ^ 32)

/-- The evaluation of R53 for an element. -/
def philox (seed index tid step : Nat) : PhCtr :=
  philoxRounds 10 ⟨index % 2 ^ 32, index / 2 ^ 32 % 2 ^ 32, tid % 2 ^ 32, step % 2 ^ 32⟩ (seed % 2 ^ 32) (seed / 2 ^ 32 % 2 ^ 32)

/-! ### Fixed point with 192 fraction bits, for the exact real of R155 (log entry 30) -/

abbrev fxBits : Nat := 192
abbrev fxOne : Nat := 2 ^ fxBits

/-- Odd powers t, t³/3, t⁵/5 … added with the given sign alternation: atanh for `alt` false, atan for true. -/
def oddSeries (alt : Bool) (t2 : Nat) : Nat → Nat → Nat → Int → Int
  | 0, _, _, acc => acc
  | n + 1, k, t, acc =>
    let term : Int := (t / (2 * k + 1) : Nat)
    oddSeries alt t2 n (k + 1) (t * t2 / fxOne) (if alt && k % 2 == 1 then acc - term else acc + term)

/-- 2 · atanh(a / b) in fixed point. -/
def twoAtanh (a b : Nat) : Nat :=
  let t := a * fxOne / b
  2 * (oddSeries false (t * t / fxOne) 70 0 t 0).toNat

/-- ln 2. -/
def fxLn2 : Nat := twoAtanh 1 3

/-- π by Machin's formula. -/
def fxPi : Nat :=
  let at' (b : Nat) : Int := let t := fxOne / b; oddSeries true (t * t / fxOne) 50 0 t 0
  (16 * at' 5 - 4 * at' 239).toNat

/-- −ln(a · 2^−24) for 1 ≤ a ≤ 2^24. -/
def fxNegLn (a : Nat) : Nat :=
  let k := Nat.log2 a
  (24 - k) * fxLn2 - twoAtanh (a - 2 ^ k) (a + 2 ^ k)

/-- Terms of the cosine or sine series: each term from the one before. -/
def trigSeries (x2 : Nat) : Nat → Nat → Nat → Bool → Int → Int
  | 0, _, _, _, acc => acc
  | n + 1, k, t, minus, acc =>
    trigSeries x2 n (k + 2) (t * x2 / fxOne / ((k + 1) * (k + 2))) (!minus) (if minus then acc - t else acc + t)

/-- cos(2π · b · 2^−24) for b below 2^24, with its sign. -/
def fxCos (b : Nat) : Bool × Nat :=
  let q := b / 2 ^ 22
  let r := b % 2 ^ 22
  let d := if q % 2 = 0 then r else 2 ^ 22 - r
  let neg := q == 1 || q == 2
  if d = 2 ^ 22 then (false, 0)
  else if d ≤ 2 ^ 21 then
    let x := fxPi * d / 2 ^ 23
    (neg, (trigSeries (x * x / fxOne) 40 0 fxOne false 0).toNat)
  else
    let x := fxPi * (2 ^ 22 - d) / 2 ^ 23
    (neg, (trigSeries (x * x / fxOne) 40 1 x false 0).toNat)

/-- z = √(−2 ln u1) · cos(2π u2) from a Philox evaluation (R155). -/
def normalNum (c : PhCtr) : Num :=
  let s := isqrt (2 * fxNegLn (c.c0 / 2 ^ 8 + 1) * fxOne)
  let (neg, k) := fxCos (c.c1 / 2 ^ 8)
  let m := s * k
  if m = 0 then .fin false 0 0 else .fin neg m (-(2 * fxBits : Int))

/-- A noise element's bytes (R155): distribution 0 RAW32, 1 UNIFORM, 2 NORMAL; FP32, or BF16 when `half`. -/
def noiseElem (dist : Nat) (half : Bool) (c : PhCtr) : List Byte :=
  let out (v : Num) : List Byte := if half then leBytes 2 (bf16.round v) else leBytes 4 (fp32.round v)
  match dist with
  | 0 => leBytes 4 c.c0
  | 1 => out (.fin false (c.c0 / 2 ^ 8) (-24))
  | _ => out (normalNum c)

end Sys2Proof.Machine
end

