-- ==== Sys2Proof/Machine/Operands.lean ====
section
/-! DEFINITION. The operands of the host data port: the request header's fields, the halves a range covers, the beats of a
WRITE (R442, R443). -/

namespace Sys2Proof.Machine

open Sys2Proof

/-- Fields of a host request header. -/
abbrev hdOp (h : BitVec 128) : Nat := bits h.toNat 0 4
abbrev hdForm (h : BitVec 128) : Nat := bits h.toNat 4 1
abbrev hdPart (h : BitVec 128) : Nat := bits h.toNat 5 3
abbrev hdAddr (h : BitVec 128) : Nat := bits h.toNat 8 40
abbrev hdSeq (h : BitVec 128) : Nat := bits h.toNat 48 16
abbrev hdLen (h : BitVec 128) : Nat := bits h.toNat 64 8 + 1
abbrev hdTag (h : BitVec 128) : Nat := bits h.toNat 72 12

/-- A beat without data. -/
def emptyBeat : HostBeat := ⟨0, [], 0⟩

/-- The halves a request's range covers: number of each. -/
def hostHalves (h : BitVec 128) : List Nat :=
  let o := hdAddr h % 256
  (if o < 128 then [0] else []) ++ (if 128 < o + hdLen h then [1] else [])

/-- Whether a header is well formed in itself (R442, R443). -/
def hdrOk (h : BitVec 128) (op : Nat) : Bool :=
  hdOp h == op && bits h.toNat 84 44 == 0 && decide (hdAddr h % 256 + hdLen h ≤ 256)
    && (if hdForm h = 1 then decide (hdAddr h < 2 ^ 32) else hdSeq h == 0)

/-- Whether the byte enables of a WRITE's beats are exactly the bytes of its range, one beat for each half (R443). -/
def beatsOk (h : BitVec 128) (beats : List (List Byte × List Bool)) : Bool :=
  let o := hdAddr h % 256
  let hs := hostHalves h
  beats.length == hs.length && (List.zipWith (fun k b =>
    b.1.length == 128 && b.2 == (List.range 128).map fun i => decide (o ≤ 128 * k + i) && decide (128 * k + i < o + hdLen h))
    hs beats).all (· == true)

/-- The bytes a WRITE carries for its range. -/
def writeBytes (h : BitVec 128) (beats : List (List Byte × List Bool)) : List Byte :=
  let o := hdAddr h % 256
  let start := if o < 128 then 0 else 128
  ((beats.flatMap (·.1)).drop (o - start)).take (hdLen h)

end Sys2Proof.Machine
end

