-- ==== Sys2Proof/Machine/Queue.lean ====
section
/-! DEFINITION. Queues (R193–R201, R218, R219, R263) and completion records (R397, R398), once for the lane, page, fabric,
collective and restore queues. -/

namespace Sys2Proof

open Sys2Proof.Machine

/-- The kinds of queue; the number is SOURCE of a completion record (R397). -/
def QKind.source : QKind → Nat
  | .lane => 1
  | .page => 2
  | .fabric => 3
  | .collective => 4
  | .restore => 5

/-- Aperture offset of a kind's `_Q_CFG`; the other queue registers follow it in one order. -/
def QKind.cfg : QKind → Nat
  | .lane => R.LNP_Q_CFG
  | .page => R.PGM_Q_CFG
  | .fabric => R.FBP_Q_CFG
  | .collective => R.COL_Q_CFG
  | .restore => R.ARC_Q_CFG

def QKind.regPage : QKind → Nat
  | .lane => Page.LNP
  | .page => Page.PGM
  | .fabric => Page.FBP
  | .collective => Page.COL
  | .restore => Page.ARC

/-- Interrupt bits REFUSED, COMPLETION and TAIL_BAD of a kind's page. -/
def QKind.irqs : QKind → Nat × Nat × Nat
  | .lane => (0, 3, 2)
  | .page => (2, 4, 5)
  | .fabric => (2, 4, 5)
  | .collective => (1, 2, 3)
  | .restore => (2, 4, 5)

/-- Error code of a refused descriptor (R200, R264, R302, R329; the restore queue follows the page queue, log entry 24). -/
def QKind.refuseCode : QKind → Nat
  | .lane => 0x0207
  | .page => 0x0505
  | .fabric => 0x0605
  | .collective => 0x0705
  | .restore => 0x0505

def QKind.base (k : QKind) : Fld := ⟨k.cfg + 4, 0, 28⟩
def QKind.cbase (k : QKind) : Fld := ⟨k.cfg + 8, 0, 28⟩
def QKind.tail (k : QKind) : Fld := ⟨k.cfg + 0xC, 0, 12⟩
def QKind.head (k : QKind) : Fld := ⟨k.cfg + 0x10, 0, 12⟩
def QKind.ctail (k : QKind) : Fld := ⟨k.cfg + 0x14, 0, 12⟩
def QKind.chead (k : QKind) : Fld := ⟨k.cfg + 0x18, 0, 12⟩
def QKind.enable (k : QKind) : Fld := ⟨k.cfg, 8, 1⟩
def QKind.sizeLog (k : QKind) : Fld := ⟨k.cfg, if k = .lane then 12 else 0, 4⟩
def QKind.err (k : QKind) : Nat := if k = .lane then k.cfg + 0x20 else k.cfg + 0x1C
def QKind.tailBad (k : QKind) : Fld := if k = .lane then ⟨k.cfg + 0x1C, 2, 1⟩ else ⟨k.cfg, 9, 1⟩

end Sys2Proof

namespace Sys2Proof.Machine

open Sys2Proof

/-- Entries of a queue's rings (R193, R263). -/
def State.qSize (s : State) (k : QKind) (q : Nat) : Nat := 2 ^ clamp 6 12 (s.fget k.sizeLog q)

/-- The partition a queue belongs to (R193, R263). -/
def State.qPart (s : State) (k : QKind) (q : Nat) : Nat := if k = .lane then s.fget F.LNP_Q_CFG_PART q else q

/-- Whether a queue's completion ring is full (R194). -/
def State.qFull (s : State) (k : QKind) (q : Nat) : Bool :=
  let n := s.qSize k q
  (s.fget k.ctail q + 4096 - s.fget k.chead q) % n == n - 1

/-- A lane queue's CFULL bit brought up to date (R220). -/
def State.qShowFull (s : State) (k : QKind) (q : Nat) : State :=
  if k = .lane then s.fset F.LNP_Q_STAT_CFULL q (s.qFull k q).toNat else s

/-- A write of a value to a queue's tail register (R197). -/
def State.qTailWrite (s : State) (k : QKind) (q v : Nat) : State :=
  let n := s.qSize k q
  let t := s.fget k.tail q
  let o := (t + n - s.fget k.head q) % n
  if n ≤ v ∨ n - 1 - o < (v + n - t % n) % n then (s.set1 k.tailBad q).irq k.regPage k.irqs.2.2
  else s.fset k.tail q v

/-- A change of ENABLE from 0 to 1 zeroes the four ring indices (R220, R263). -/
def State.qEnable (s : State) (k : QKind) (q : Nat) (on : Bool) : State :=
  if on && !s.flag k.enable q then
    ((((s.set1 k.enable q).fset k.tail q 0).fset k.head q 0).fset k.ctail q 0).fset k.chead q 0 |>.qShowFull k q
  else s.fset k.enable q on.toNat

/-- Whether a queue has a descriptor that may be taken: enabled, not empty, its completion ring not full (R194, R264). -/
def State.qWaits (s : State) (k : QKind) (q : Nat) : Bool :=
  s.flag k.enable q && s.fget k.head q != s.fget k.tail q && !s.qFull k q

/-- Whether the completion of a descriptor that a partition's fabric queue has taken is still to be written: it is in execution, or its
record waits (R300). -/
def State.fabUnwritten (s : State) (p : Nat) : Bool :=
  let base := s.fget QKind.fabric.cbase p * 4096
  let ring (a : Access) : Bool := match a.use with
    | .record _ => a.part == p && a.cls == 2 && decide (base ≤ a.addr) && decide (a.addr < base + 32 * s.qSize .fabric p)
    | _ => false
  (s.fab.jobs.any fun x => x.part == p) || s.coding.stalled.any ring

/-- Whether a FENCE holds the head of a partition's fabric queue (R300). -/
def State.fabFenced (s : State) (p : Nat) : Bool :=
  s.fabUnwritten p && bit (ofLE (s.peek p (s.fget QKind.fabric.base p * 4096 + 64 * s.fget QKind.fabric.head p + 2) 1)) 1

/-- Whether a partition's queue takes nothing now: it runs its descriptors strictly one after another (R264, R328), a FENCE holds its
head (R300), or the partition is EMPTY or being reset. -/
def State.qBusy (s : State) (k : QKind) (p : Nat) : Bool :=
  let st := s.fget F.PTC_STAT_STATE p
  (st == 0 && k != .page) || st == 4 || match k with
    | .page => !s.pages.jobs.isEmpty
    | .collective => s.col.jobs.any fun x => x.part == p
    | .restore => s.arc.restores.any fun x => x.part == p
    | .fabric => s.fabFenced p
    | .lane => false

/-- The partition whose queue is served next: the first in turn that has a descriptor to take (R264, R300, R328; log entry 69). -/
def State.qNext (s : State) (k : QKind) : Option Nat :=
  let first := (alGet s.turns k.source).getD 0
  ((List.range 8).map fun i => (first + i) % 8).find? fun p => s.qWaits k p && !s.qBusy k p

/-- Whether a queue's next descriptor may be taken, and it is the queue's turn. -/
def State.qReady (s : State) (k : QKind) (q : Nat) : Bool := s.qWaits k q && s.qNext k == some q

/-- The descriptor at a queue's head, read by a class; none while the read must wait (R194, R264). -/
def State.qHead (s : State) (k : QKind) (q cls : Nat) : State × Option (List Byte) :=
  let a := s.fget k.base q * 4096 + 64 * s.fget k.head q
  match s.readRange cls (s.qPart k q) a 64 with
  | (s, _, .wait) => (s, none)
  | (s, _, .late) => (s, none)
  | (s, bs, _) => (s, some (bs.map (·.getD 0xFF)))

/-- The head descriptor is taken; the turn passes to the next partition. -/
def State.qTake (s : State) (k : QKind) (q : Nat) : State :=
  let s := s.fset k.head q ((s.fget k.head q + 1) % s.qSize k q)
  if k = .lane then s else { s with turns := spSet (fun _ => 0) s.turns k.source ((q + 1) % 8) }

/-! ### Completion (R218, R397) -/

/-- First unit of part i of U units in P parts. -/
def partStart (u p i : Nat) : Nat := i * u / p

/-- The parts of a descriptor of U units whose failed units are listed, rising: P, the bitmap, the status, the first
failed unit (R218, R398). -/
def partsOf (u : Nat) (fails : List (Nat × Nat)) : Nat × Nat × Nat × Nat :=
  let p := min 16 u
  let whole (i : Nat) : Bool := !(fails.any fun f => decide (partStart u p i ≤ f.1) && decide (f.1 < partStart u p (i + 1)))
  let map := (List.range p).foldl (fun a i => if whole i then a + 2 ^ i else a) 0
  let status := if map = 2 ^ p - 1 then 0 else if map ≠ 0 then 1 else (fails.head?.map (·.2)).getD 0
  (p, map, status, (fails.head?.map (·.1)).getD 0xFFFFFFFF)

/-- A completion record's 32 bytes (R397). -/
def complRecord (status opcode map tag p source queue reason index units firstFail tick : Nat) : List Byte :=
  withCrc (leBytes 1 status ++ leBytes 1 opcode ++ leBytes 2 map ++ leBytes 4 tag ++ leBytes 1 p ++ leBytes 1 source
    ++ leBytes 1 queue ++ leBytes 1 reason ++ leBytes 4 index ++ leBytes 4 units ++ leBytes 4 firstFail ++ leBytes 4 tick)

/-- The tick whose plan work a partition runs (R43): that of the running instance, else the current tick. -/
def State.dueOf (s : State) (p : Nat) : Nat := ((s.plans[p]?).bind fun x => x.running.map (·.due)).getD s.tick.now

/-- A record written at the completion tail of a queue (R218, R219); the lane queues write it as class 0, with the due tick of the
plan that issued it (R43, R68). A record that must wait is written later. -/
def State.qRecord (s : State) (k : QKind) (q : Nat) (due : Option Nat) (rec_ : List Byte) : State :=
  let a := s.fget k.cbase q * 4096 + 32 * s.fget k.ctail q
  let p := s.qPart k q
  let cls := if k = .lane then 0 else 2
  let due := due.getD (if k = .lane then s.dueOf p else s.tick.now)
  let s := match s.writeRange (.access cls s.coding.nextAcc) p a due (rec_.map some) with
    | (s, .wait) => s.park ⟨cls, .record due, p, none, a, 0, rec_.map some, 0⟩
    | (s, _) => s
  ((s.fset k.ctail q ((s.fget k.ctail q + 1) % s.qSize k q)).irq k.regPage k.irqs.2.1).qShowFull k q

/-- A descriptor ends with its failed units (R218); `multi` is the exception of R280, `due` the due tick of a lane descriptor. -/
def State.qComplete (s : State) (k : QKind) (q index : Nat) (desc : List Byte) (units : Nat) (fails : List (Nat × Nat))
    (multi : Bool := false) (due : Option Nat := none) : State :=
  let (p, map, st, ff) := partsOf units fails
  let st := if st = 0 ∧ multi = true then 8 else st
  let s := if k = .lane then s.event 0x0801 (some (s.qPart k q)) else s
  if bit (fieldLE desc 2 1) 2 && st == 0 then s
  else s.qRecord k q due (complRecord st (fieldLE desc 0 1) map (fieldLE desc 4 4) p k.source q 0 index units ff s.tick.now)

/-- The status of a refusal reason (R200). -/
def refuseStatus (reason : Nat) : Nat := if reason = 3 ∨ reason = 6 then 3 else 5

/-- Plan ID of the instance a partition runs, 0 when it runs none. -/
def State.planId (s : State) (p : Nat) : Nat := ((s.plans[p]?).bind fun x => x.running.map fun i => i.plan.id).getD 0

/-- A descriptor refused (R200, R264): its record, `_Q_ERR`, the error and the interrupt. -/
def State.qRefuse (s : State) (k : QKind) (q index : Nat) (desc : List Byte) (reason : Nat) (due : Option Nat := none) : State :=
  let s := s.qRecord k q due (complRecord (refuseStatus reason) (fieldLE desc 0 1) 0 (fieldLE desc 4 4) 0 k.source q reason index 0
    0xFFFFFFFF s.tick.now)
  let s := match k with
    | .lane => s.bump F.LNP_REFUSED_CNT_COUNT
    | .collective => s.bump F.COL_REFUSED_CNT_COUNT
    | _ => s
  let s := s.wr k.err q (index + reason * 2 ^ 12 + 2 ^ 31)
  let detail := match k with
    | .lane => [0, 0, q * 65536 + index, s.planId (s.qPart k q)]
    | .page => [0, 0, q * 65536 + index, 0]
    | .fabric => [s.fget F.FBP_PTN_NODE_NODE (fieldLE desc 8 2), 0, 0, refuseStatus reason]
    | _ => []
  let s := s.logErr { block := k.regPage, code := k.refuseCode, sev := 0, part := some (s.qPart k q), detail := detail }
  s.irq k.regPage k.irqs.1

/-- Whether the head every descriptor starts with is in order: CRC, version, reserved bits, and CHAIN_NEXT where it is
reserved (R199, R263). -/
def descHeadOk (d : List Byte) (chain : Bool) : Bool :=
  crcOk d 60 && fieldLE d 1 1 == 1 && bits (fieldLE d 2 1) 3 5 == 0 && (chain || !bit (fieldLE d 2 1) 0) && fieldLE d 3 1 == 0

/-- Whether a run of descriptor bytes is all zero. -/
def descZero (d : List Byte) (off n : Nat) : Bool := fieldLE d off n == 0

/-- The command of one opcode runs on the head of a queue: nothing while no descriptor may be taken or it must wait; a
descriptor whose head is out of order, or whose opcode the queue does not know, is refused; one of another opcode is left. -/
def State.qRun (s : State) (k : QKind) (q : Nat) (opcode : Nat) (known : Nat → Bool)
    (body : State → Nat → List Byte → State) : State :=
  if !s.qReady k q then s
  else
    match s.qHead k q 2 with
    | (s, none) => s
    | (s, some d) =>
      let i := s.fget k.head q
      if !descHeadOk d false || !known (fieldLE d 0 1) then (s.qTake k q).qRefuse k q i d 1
      else if fieldLE d 0 1 = opcode then body s i d
      else s

end Sys2Proof.Machine
end

