-- ==== Sys2Proof/Machine/Request.lean ====
section
/-! DEFINITION. Accesses of classes 1 and 2 in full: translation, pins, the access itself, its outcome for whoever made it, and
the list of those that wait (R72, R111, R112, R260, R273–R276, R295–R297, R444, R445). -/

namespace Sys2Proof.Machine

open Sys2Proof

/-! ### Atomics (R296) -/

/-- Width in bytes of an atomic operation, none where OP is reserved. -/
def atomWidth (op : Nat) : Option Nat :=
  if op = 1 ∨ op = 3 ∨ op = 4 ∨ op = 6 ∨ op = 8 ∨ op = 9 ∨ op = 11 ∨ op = 13 ∨ op = 14 then some 4
  else if op = 2 ∨ op = 5 ∨ op = 7 ∨ op = 10 ∨ op = 12 ∨ op = 15 then some 8
  else none

/-- Whether an atomic may be combined. -/
def atomCombinable (op : Nat) : Bool := op == 1 || op == 2 || (4 ≤ op && op ≤ 7) || (9 ≤ op && op ≤ 12)

/-- The new value of an atomic from the old one, the operand and the compare value. -/
def atomNew (op old x cmp : Nat) : Nat :=
  let smin (w : Nat) : Nat := if signed w x < signed w old then x else old
  let smax (w : Nat) : Nat := if signed w old < signed w x then x else old
  match op with
  | 1 => (old + x) % 2 ^ 32
  | 2 => (old + x) % 2 ^ 64
  | 3 => f32Add old x
  | 4 => smin 32
  | 5 => smin 64
  | 6 => min old x
  | 7 => min old x
  | 8 => f32Pick false old x
  | 9 => smax 32
  | 10 => smax 64
  | 11 => max old x
  | 12 => max old x
  | 13 => f32Pick true old x
  | _ => if old = cmp then x else old

/-! ### One access -/

/-- What an access answers. -/
inductive AccOut where
  /-- it waits for a row, a pin or room -/
  | wait
  /-- a write is done (0), or the access is refused with a status -/
  | status (st : Nat)
  /-- bytes read, none where poison -/
  | data (bs : List (Option Byte))
  /-- the page lies at a lender -/
  | far (lender index pg : Nat)
  deriving DecidableEq, Repr

/-- Whether an access writes. -/
def AccUse.writes : AccUse → Bool
  | .hostWrite _ _ => true
  | .fabStore _ => true
  | .fabAtomic _ _ => true
  | .landing _ _ _ => true
  | .record _ => true
  | _ => false

/-- An access as a writer. -/
def Access.who (a : Access) : Who := .access a.cls a.id

/-- The page an access acts on: translated through its sequence, with the copy of R274 before a write to a shared page. -/
def State.accPage (s : State) (a : Access) : State × (SeqOut ⊕ Nat) :=
  match a.seq with
  | none => (s, .inl (.page (a.addr / frameSize)))
  | some q =>
    match s.seqLookup a.part q (a.addr / frameSize) with
    | (s, .page pg) =>
      if a.use.writes && s.inMap a.part pg then
        match s.cowPage a.who a.part q (a.addr / frameSize) pg with
        | (s, some (.inl x)) => (s, .inl (.page x))
        | (s, some (.inr st)) => (s, .inr st)
        | (s, none) => (s, .inl .wait)
      else (s, .inl (.page pg))
    | (s, .invalid) => (s.bump F.XLT_GONE_CNT_COUNT, .inl .invalid)
    | (s, .wait) => (s, .inl .wait)

/-- A write's outcome as an access's. -/
def WrOut.out : WrOut → AccOut
  | .done => .status 0
  | .refused st => .status st
  | .wait => .wait

/-- A read's outcome as an access's. -/
def RdOut.out (pg : Nat) : RdOut → AccOut
  | .data bs => .data bs
  | .refused st => .status st
  | .wait => .wait
  | .late => .wait
  | .far l i => .far l i pg

/-- An atomic at a partition address (R296, R297): old bytes, none where poison; a poisoned word is left. -/
def State.atomicAt (s : State) (w : Who) (p addr : Nat) (hdr payload : List Byte) : State × AccOut :=
  let op := fieldLE hdr 2 1
  let n := (atomWidth op).getD 4
  let pg := addr / frameSize
  match s.pageRead 2 p addr n with
  | (s, .data bs) =>
    if bs.any (·.isNone) then (s, .data (List.replicate 8 none))
    else
      let old := ofLE (bs.map (·.getD 0))
      let new := atomNew op old (fieldLE payload 0 n) (fieldLE payload 8 n)
      match s.pageWrite w p addr s.tick.now ((leBytes n new).map some) with
      | (s, .done) => (s, .data ((leBytes 8 old).map some))
      | (s, r) => (s, r.out)
  | (s, .far _ _) => (s, .status 3)
  | (s, r) => (s, r.out pg)

/-- An access tried: it waits while the tower is in self-refresh (R235, R481) and is refused while its partition is being reset (R375);
else it is made at its page (R260). A record of class 2 carries the tick in which it is written at last (R68). -/
def State.tryAccess (s : State) (a : Access) : State × AccOut :=
  if s.tower.selfRefresh then (s, .wait)
  else match a.use with
  | .record due =>
    match s.writeRange a.who a.part a.addr (if a.cls = 0 then due else s.tick.now) a.bytes with
    | (s, .wait) => (s, .wait)
    | (s, _) => (s, .status 0)
  | _ =>
  if s.fget F.PTC_STAT_STATE a.part = 4 then (s, .status 5)
  else
    match a.use with
    | .landing _ _ _ =>
      if (s.fullPage a.part a.addr a.bytes.length).isSome then (s, .wait)
      else match s.writeRange a.who a.part a.addr s.tick.now a.bytes with
      | (s, .ok) => (s, .status 0)
      | (s, .refused st) => (s, .status st)
      | (s, _) => (s, .wait)
    | .putRead _ _ =>
      if (s.fullPage a.part a.addr a.len).isSome then (s, .wait)
      else match s.readRange 2 a.part a.addr a.len with
      | (s, bs, .ok) => (s, .data bs)
      | (s, _, .refused st) => (s, .status st)
      | (s, _, _) => (s, .wait)
    | u =>
      match s.accPage a with
      | (s, .inr st) => (s, .status st)
      | (s, .inl .wait) => (s, .wait)
      | (s, .inl .invalid) => (s, .status 9)
      | (s, .inl (.page pg)) =>
        if s.pinsFull a.part pg then (s, .wait)
        else
          let addr := pg * frameSize + a.addr % frameSize
          match u with
          | .fabAtomic hdr payload => s.atomicAt a.who a.part addr hdr payload
          | .hostRead _ _ =>
            match s.pageRead 1 a.part addr a.len with
            | (s, .data bs) => (s.pin a.part pg, .data bs)
            | (s, r) => (s, r.out pg)
          | .fabLoad _ =>
            match s.pageRead 2 a.part addr a.len with
            | (s, .data bs) => (s.pin a.part pg, .data bs)
            | (s, r) => (s, r.out pg)
          | _ =>
            match s.pageWrite a.who a.part addr s.tick.now a.bytes with
            | (s, r) => (s, r.out)

/-- Whether an access is an inbound STORE or ATOMIC. -/
def AccUse.fabWrite : AccUse → Bool
  | .fabStore _ => true
  | .fabAtomic _ _ => true
  | _ => false

/-- Whether an earlier access that waits holds a later one back: units of one descriptor are issued in order (R301); requests of one
channel that may touch one sector are applied in order (R447), and so are atomics, and STOREs beside them, on one word (R297). -/
def Access.blocks (a b : Access) : Bool :=
  let overlap : Bool := a.part == b.part &&
    decide (a.addr % frameSize / 64 ≤ (b.addr % frameSize + max b.len b.bytes.length - 1) / 64) &&
    decide (b.addr % frameSize / 64 ≤ (a.addr % frameSize + max a.len a.bytes.length - 1) / 64)
  (a.use.fabWrite && b.use.fabWrite && overlap) ||
  match a.use, b.use with
  | .putRead j _, .putRead i _ => j == i
  | .hostRead c _, .hostRead d _ => c == d && overlap
  | .hostRead c _, .hostWrite d _ => c == d && overlap
  | .hostWrite c _, .hostRead d _ => c == d && overlap
  | .hostWrite c _, .hostWrite d _ => c == d && overlap
  | .ctrBlock, .ctrBlock => a.part == b.part
  | _, _ => false

/-! ### Host responses (R442–R446) -/

/-- A response held until the host takes it. -/
def State.hostAnswer (s : State) (ch : Nat) (h : BitVec 128) (st : Nat) (beats : List HostBeat) : State :=
  let r : HostRsp := ⟨ch, hdTag h, hdOp h, st, beats⟩
  { s with host := { s.host with rsp := s.host.rsp ++ [r] } }

/-- The beats of a READ's data (R443, R444): bytes of a poisoned sector are 0xFF. -/
def readBeats (h : BitVec 128) (bs : List (Option Byte)) : List HostBeat :=
  let o := hdAddr h % 256
  (hostHalves h).map fun k =>
    let lo := max o (128 * k)
    let hi := min (o + hdLen h) (128 * k + 128)
    let part := (bs.drop (lo - o)).take (hi - lo)
    let bad (half : Nat) : Bool := (List.zipIdx part).any fun x => x.1.isNone && (lo + x.2) % 128 / 64 == half
    ⟨lo % 128, part.map (·.getD 0xFF), (bad 0).toNat + 2 * (bad 1).toNat⟩

/-- A READ answered with its bytes or with a refusal. -/
def State.hostReadDone (s : State) (ch : Nat) (h : BitVec 128) (st : Nat) (bs : List (Option Byte)) : State :=
  if st = 0 then s.hostAnswer ch h (if bs.any (·.isNone) then 4 else 0) (readBeats h bs)
  else s.hostAnswer ch h st ((hostHalves h).map fun _ => emptyBeat)

/-! ### Fabric responses (R294, R295) -/

/-- A RESPONSE to an inbound request, offered to the port. -/
def State.respond (s : State) (hdr : List Byte) (st : Nat) (payload : List Byte) (poison : Bool) : State :=
  let t := Txn.ofHeader hdr []
  s.offer { typ := 4, vc := respChannel t.vc, combinable := false, gate := false, kx := false, poison := poison, resp := true,
            op := 0, status := st, dst := t.src, src := t.dst, tag := t.tag, key := t.key, offset := 0, count := 0,
            len := payload.length, payload := payload, part := none, entry := none, use := .message, held := false }

/-- A LOAD or ATOMIC answered with its bytes. -/
def State.respondData (s : State) (hdr : List Byte) (bs : List (Option Byte)) : State :=
  let bad := bs.any (·.isNone)
  s.respond hdr (if bad then 4 else 0) (bs.map (·.getD 0xFF)) bad

/-- An inbound request is refused under R303: counted by its step, logged, answered. -/
def State.refuseReq (s : State) (hdr : List Byte) (step st : Nat) : State :=
  let src := fieldLE hdr 8 4
  let s := (s.lastFail src step).logMs
    { block := Page.FBP, code := 0x0602, sev := 0, kind := 5, addr := src,
      detail := [src, fieldLE hdr 12 2, bits (fieldLE hdr 1 1) 0 3, st] }
  s.respond hdr st [] false

/-! ### Jobs of the fabric queue -/

def State.fabJob (s : State) (j : Nat) : Option FabJob := s.fab.jobs.find? fun x => x.id == j

/-- Unit `u` of a job ends with a status. -/
def State.unitDone (s : State) (j u st : Nat) : State :=
  { s with fab := { s.fab with jobs := s.fab.jobs.map fun x =>
      if x.id == j then { x with left := x.left - 1, fails := if st = 0 then x.fails else alPut x.fails u st } else x } }

/-- Jobs of a partition that have ended are completed, in the order they were taken, while their completion ring has room
(R219, R301). -/
def State.flushJobs (p : Nat) : Nat → State → State
  | 0, s => s
  | n + 1, s =>
    match s.fab.jobs.find? fun x => x.part == p with
    | none => s
    | some x =>
      if x.left != 0 || s.qFull .fabric p then s
      else
        let s := { s with fab := { s.fab with jobs := s.fab.jobs.filter fun y => y.id != x.id } }
        let s := if x.reason = 0 then s.qComplete .fabric p x.index x.desc x.units x.fails
          else s.qRefuse .fabric p x.index x.desc x.reason
        State.flushJobs p n s

/-- Every partition's ended jobs completed. -/
def State.flushAll (s : State) : State := (List.range 8).foldl (fun s p => s.flushJobs p s.fab.jobs.length) s

/-- Remote address and length of unit `u` of a GET or PUT (R301). -/
def unitSpan (d : List Byte) (u : Nat) : Nat × Nat :=
  let r := fieldLE d 16 6
  let n := fieldLE d 32 4
  let lo := if u = 0 then r else (r / 256 + u) * 256
  (lo, min (r + n) ((r / 256 + u + 1) * 256) - lo)

/-- LOCAL as a partition address (R257, R301). -/
abbrev dLocal (d : List Byte) : Nat := fieldLE d 24 4 % 2 ^ 28 * 4096 + fieldLE d 28 2 % 4096

/-- Local address of unit `u`. -/
def unitLocal (d : List Byte) (u : Nat) : Nat := dLocal d + ((unitSpan d u).1 - fieldLE d 16 6)

/-- Local bytes of a unit become poison (R301). -/
def State.poisonLocal (s : State) (p a n : Nat) : State :=
  (List.range (if n = 0 then 0 else (a + n - 1) / 64 - a / 64 + 1)).foldl (fun s i => s.poisonAt (.read 2 p a n) p ((a / 64 + i) * 64)) s

/-- A PUT's unit issued with its data (R301). -/
def State.putUnit (s : State) (x : FabJob) (u : Nat) (bs : List Byte) : State :=
  let d := x.desc
  s.offerReq (.unit x.id u) 2 2 (fieldLE d 8 2) 0 (fieldLE d 12 4) ((unitSpan d u).1 % 2 ^ 48) bs.length bs (some x.part) false
    (bit (fieldLE d 11 1) 1)

/-! ### Outcomes -/

/-- A page at a lender is read over the fabric for a host READ or an inbound LOAD, under a pin (R260, R276, R283). -/
def State.farRead (s : State) (use : ReqUse) (a : Access) (l i pg : Nat) : State :=
  (s.pin a.part pg).offerReq use 1 7 (lenderEntry l) 0 0 (i * frameSize + a.addr % frameSize) a.len [] (some a.part)

/-- A read of a page at a lender that cannot be answered from there: from HOME, or GONE (R285). -/
def State.homeRead (s : State) (p pg off n : Nat) : State × Nat × List (Option Byte) :=
  let d := s.pme p pg
  if s.inMap p pg && (s.effState p pg d == PgT2 || d.hasHome) then
    let f := if s.effState p pg d = PgT2 then d.frame else d.home
    let (s, r) := s.readTier .t2 (f * frameSize + off) n
    (s, 0, r.bytes)
  else (s, 9, [])

/-- The outcome of an access goes to whoever made it. -/
def State.accDone (s : State) (a : Access) (o : AccOut) : State :=
  match a.use, o with
  | .hostRead ch h, .data bs => s.hostReadDone ch h 0 bs
  | .hostRead ch h, .far l i pg => s.farRead (.hostRead ch h a.part pg) a l i pg
  | .hostRead ch h, .status st => s.hostReadDone ch h st []
  | .hostWrite ch h, .status st => s.hostAnswer ch h st [emptyBeat]
  | .fabLoad hdr, .data bs => s.respondData hdr bs
  | .fabLoad hdr, .far l i pg => s.farRead (.loadOn hdr a.part pg) a l i pg
  | .fabLoad hdr, .status st => s.refuseReq hdr 8 st
  | .fabStore hdr, .status st => if st = 0 then s.respond hdr 0 [] false else s.refuseReq hdr 8 st
  | .fabAtomic hdr _, .data bs => s.respondData hdr bs
  | .fabAtomic hdr _, .status st => s.refuseReq hdr 8 st
  | .putRead j u, .data bs =>
    match s.fabJob j with
    | some x => if bs.any (·.isNone) then s.unitDone j u 4 else s.putUnit x u (bs.map (·.getD 0))
    | none => s
  | .putRead j u, .status st => s.unitDone j u st
  | .landing j u st, .status w =>
    let n := a.bytes.length
    let bad := (List.zipIdx a.bytes).filterMap fun x => if x.1.isNone then some ((a.addr + x.2) / 64) else none
    let s := if w = 0 ∧ n ≠ 0 then (bad.foldl nsAdd []).foldl (fun s k => s.poisonAt a.who a.part (64 * k)) s else s
    s.unitDone j u (if st = 0 then w else st)
  | .ctrBlock, .status st => if st = 0 then s else (s.set1 F.CTR_STAT_USER_FAIL).irq Page.CTR 2
  | _, _ => s

/-- An access made: it waits behind those that hold it back, or ends. -/
def State.access (s : State) (a : Access) : State :=
  let a := { a with id := s.coding.nextAcc }
  if s.coding.stalled.any (·.blocks a) then s.park a
  else
    match s.tryAccess a with
    | (s, .wait) =>
      let pg := match a.seq with
        | none => a.addr / frameSize
        | some q => ofLE (s.peek a.part (s.kvEntryAddr a.part q (a.addr / frameSize)) 4) % 2 ^ 24
      let full : Bool := match a.use with
        | .landing _ _ _ => (s.fullPage a.part a.addr a.bytes.length).isSome
        | .putRead _ _ => (s.fullPage a.part a.addr a.len).isSome
        | _ => s.pinsFull a.part pg
      (if full then s.pinStall a.who else s).park a
    | (s, o) => s.accDone a o

/-- An access that waits is tried again, unless an earlier one holds it back. -/
def State.retryOne (s : State) (a : Access) : State :=
  if (s.coding.stalled.takeWhile (· != a)).any (·.blocks a) then s
  else
    match s.tryAccess a with
    | (s, .wait) => s
    | (s, o) => (({ s with coding := { s.coding with stalled := s.coding.stalled.erase a } }).pinGo a.who).accDone a o

/-- Accesses of the list tried again that `f` selects, in class order and in order of arrival within a class (R72). -/
def State.retryThose (s : State) (f : Access → Bool) : State :=
  let l := s.coding.stalled.filter f
  ((List.range 4).flatMap fun c => l.filter (·.cls == c)).foldl (fun s a => s.retryOne a) s

/-- Accesses that wait are tried again (R72). -/
def State.retryStalled (s : State) : State := (s.retryThose fun _ => true).flushAll

end Sys2Proof.Machine
end

