-- ==== Sys2Proof/Machine/T0.lean ====
section
/-! DEFINITION. Shares of the engine SRAM (R256, R363, R509), slots in time (R33), the due tick of plan work (R43). -/

namespace Sys2Proof.Machine

open Sys2Proof

/-! ### Time -/

/-- LCLK in MHz. -/
def State.lclk (s : State) : Nat := s.fget F.IDN_FREQ0_LCLK

/-- ECLK in MHz. -/
def State.eclk (s : State) : Nat := s.fget F.IDN_FREQ0_ECLK

/-- FCLK in MHz. -/
def State.fclk (s : State) : Nat := s.fget F.IDN_FREQ1_FCLK

/-- Whether hall time `b` falls at least one slot of 256 LCLK cycles after `a` (R33). -/
def State.slotAfter (s : State) (a b : Nat) : Bool := decide (a ≤ b) && decide (256000 ≤ (b - a) * s.lclk)

/-- Pin count of a partition's next generator buffer (R147). -/
def State.nextPins (s : State) (p : Nat) : Nat :=
  s.fget (if s.flag F.UPD_FLIP_STAT_CUR p then F.UPD_FLIP_STAT_PIN_A else F.UPD_FLIP_STAT_PIN_B) p

/-! ### Shares of T0 -/

def coldArea : Nat := 0x600000
def drainArea : Nat := 0x1200000
def metadataArea : Nat := 0x1500000
def t0PlanArea : Nat := 0x1700000

/-- The seat a partition is bound to. -/
def State.seatOf (s : State) (p : Nat) : Nat := s.fget F.PTC_CFG_SEAT p

/-- Byte offset in T0 and length of a seat's update staging share. -/
def State.stageShare (s : State) (seat : Nat) : Nat × Nat :=
  ((List.range seat).foldl (fun a i => a + 65536 * s.fget F.PTC_SEAT_SRAM_STAGE i) 0, 65536 * s.fget F.PTC_SEAT_SRAM_STAGE seat)

/-- Byte offset in T0 and length of a seat's lane drain share. -/
def State.drainShare (s : State) (seat : Nat) : Nat × Nat :=
  ((List.range seat).foldl (fun a i => a + 65536 * s.fget F.PTC_SEAT_SRAM_DRAIN i) drainArea,
   65536 * s.fget F.PTC_SEAT_SRAM_DRAIN seat)

/-- Bytes of T0, none in a sector whose parity fails (R396). -/
def State.t0Read (s : State) (a n : Nat) : List (Option Byte) :=
  let bad := s.t0.bad
  (List.range n).map fun i =>
    if bad.any fun b => b / 64 == (a + i) / 64 then none else some (s.t0.byte (a + i))

/-- Bytes written to T0; `none` stores poison: 0xFF with its parity inverted. -/
def State.t0Write (s : State) (a : Nat) (bs : List (Option Byte)) : State :=
  { s with t0 := (List.zipIdx bs).foldl (fun m x => match x.1 with
      | some b => m.put (a + x.2) b
      | none => m.putBad (a + x.2) 0xFF) s.t0 }

end Sys2Proof.Machine
end

