-- ==== Sys2Proof/Machine/UpdOps.lean ====
section
/-! DEFINITION. The fixed operation set of the update unit, its programs, and their check (R131–R137). -/

namespace Sys2Proof.Machine

/-! ### Operation words (R132) -/

/-- An operation word from its fields. -/
def opWord (op d a b c : Nat) : Nat := op * 2 ^ 27 + d * 2 ^ 22 + a * 2 ^ 17 + b * 2 ^ 12 + c * 2 ^ 7

abbrev rW := 0
abbrev rG := 1
abbrev rM1 := 2
abbrev rM2 := 3
/-- Hyperparameter register H0–H11. -/
abbrev rH (i : Nat) : Nat := 4 + i
/-- Temporary T0–T9. -/
abbrev rT (i : Nat) : Nat := 18 + i
abbrev rOW := 28
abbrev rOM1 := 29
abbrev rOM2 := 30

/-- +1.0 and −1.0. -/
abbrev f32One : Nat := 0x3F800000
abbrev f32MinusOne : Nat := 0xBF800000

/-- A word as it stands, or the canonical NaN for any NaN (R131). -/
def f32Canon (w : Nat) : Nat := if (f32 w).isNan then fp32.nanCode else w

/-- The sign of a word: +1.0, −1.0, +0.0, NaN. -/
def f32Sign (a : Nat) : Nat :=
  match f32 a with
  | .nan => fp32.nanCode
  | v => if v.isZero then 0 else if v.lt (.fin false 0 0) then f32MinusOne else f32One

/-- SEL: `b` when `a` is above zero, otherwise `c`; a NaN in `a` or in the one selected gives the canonical NaN. -/
def f32Sel (a b c : Nat) : Nat :=
  if (f32 a).isNan then fp32.nanCode
  else f32Canon (if (Num.fin false 0 0).lt (f32 a) then b else c)

/-- The result of an operation on its operands; none for NOP and reserved opcodes. -/
def opResult (op a b c : Nat) : Option Nat :=
  match op with
  | 0x01 => some (f32Canon a)
  | 0x02 => some (f32Add a b)
  | 0x03 => some (f32op2 Num.sub a b)
  | 0x04 => some (f32Mul a b)
  | 0x05 => some (f32Fma a b c)
  | 0x06 => some (f32Fnma a b c)
  | 0x07 => some (f32Div a b)
  | 0x08 => some (f32Sqrt a)
  | 0x09 => some (f32Pick true a b)
  | 0x0A => some (f32Pick false a b)
  | 0x0B => some (fp32.round (f32 a).abs)
  | 0x0C => some (fp32.round (f32 a).neg)
  | 0x0D => some (f32Sign a)
  | 0x0E => some (f32Sel a b c)
  | 0x0F => some (f32Mul a a)
  | _ => none

/-- One operation word on the register file. -/
def runOp (file : List Nat) (w : Nat) : List Nat :=
  let r (i : Nat) : Nat := file.getD i 0
  match opResult (bits w 27 5) (r (bits w 17 5)) (r (bits w 12 5)) (r (bits w 7 5)) with
  | some v => file.set (bits w 22 5) v
  | none => file

/-! ### Programs (R134–R137) -/

/-- A layer's program. -/
inductive Prog where
  | words (ws : List Nat)
  | adagrad
  | genOnly
  deriving DecidableEq, Repr

/-- Program 1. -/
def progSgdMom : List Nat :=
  [opWord 5 (rT 0) (rH 6) rW rG, opWord 5 (rT 1) (rH 9) rM1 (rT 0), opWord 1 rOM1 (rT 1) 0 0, opWord 6 rOW (rH 0) (rT 1) rW]

/-- Program 2. -/
def progNesterov : List Nat :=
  [opWord 5 (rT 0) (rH 6) rW rG, opWord 5 (rT 1) (rH 9) rM1 (rT 0), opWord 1 rOM1 (rT 1) 0 0,
   opWord 5 (rT 2) (rH 9) (rT 1) (rT 0), opWord 6 rOW (rH 0) (rT 2) rW]

/-- Program 3. -/
def progAdamw : List Nat :=
  [opWord 4 (rT 0) (rH 2) rG 0, opWord 5 (rT 1) (rH 1) rM1 (rT 0), opWord 1 rOM1 (rT 1) 0 0,
   opWord 15 (rT 2) rG 0 0, opWord 4 (rT 2) (rH 4) (rT 2) 0, opWord 5 (rT 3) (rH 3) rM2 (rT 2), opWord 1 rOM2 (rT 3) 0 0,
   opWord 4 (rT 4) (rT 1) (rH 7) 0, opWord 4 (rT 5) (rT 3) (rH 8) 0, opWord 8 (rT 5) (rT 5) 0 0,
   opWord 2 (rT 5) (rT 5) (rH 5) 0, opWord 7 (rT 4) (rT 4) (rT 5) 0, opWord 5 (rT 4) (rH 6) rW (rT 4),
   opWord 6 rOW (rH 0) (rT 4) rW]

/-- Program 4. -/
def progLion : List Nat :=
  [opWord 4 (rT 0) (rH 2) rG 0, opWord 5 (rT 0) (rH 1) rM1 (rT 0), opWord 13 (rT 0) (rT 0) 0 0,
   opWord 5 (rT 0) (rH 6) rW (rT 0), opWord 6 rOW (rH 0) (rT 0) rW,
   opWord 4 (rT 1) (rH 4) rG 0, opWord 5 rOM1 (rH 3) rM1 (rT 1)]

/-- How many operands an opcode takes. -/
def opArity (op : Nat) : Nat :=
  if op = 0 then 0
  else if op = 5 ∨ op = 6 ∨ op = 0x0E then 3
  else if op = 1 ∨ op = 8 ∨ op = 0x0B ∨ op = 0x0C ∨ op = 0x0D ∨ op = 0x0F then 1
  else 2

/-- Operand registers of a word. -/
def opUses (w : Nat) : List Nat := ([bits w 17 5, bits w 12 5, bits w 7 5]).take (opArity (bits w 27 5))

/-- Whether a program names a register as an operand, or writes it. -/
def progReads (ws : List Nat) (r : Nat) : Bool := ws.any fun w => (opUses w).contains r
def progWrites (ws : List Nat) (r : Nat) : Bool := ws.any fun w => bits w 27 5 != 0 && bits w 22 5 == r

/-! ### The check of R133 -/

/-- First cause for which a word is refused, with the temporaries written before it; 0 when there is none. A NOP's destination counts as a
field that must be 0 (log entry 98: DESIGN CHOICE). -/
def wordReason (w : Nat) (written : List Nat) : Nat :=
  let op := bits w 27 5
  let n := opArity op
  let d := bits w 22 5
  let unused := ([bits w 17 5, bits w 12 5, bits w 7 5]).drop n
  if 0x10 ≤ op ∨ bits w 0 7 ≠ 0 ∨ unused.any (· != 0) = true ∨ (op = 0 ∧ d ≠ 0) then 2
  else if op ≠ 0 ∧ (d < 18 ∨ d = 31) then 3
  else if (opUses w).any (fun r => decide (28 ≤ r) || (decide (18 ≤ r) && !written.contains r)) then 4
  else 0

/-- First failing word of a program and its cause. -/
def scanWords : Nat → List Nat → List Nat → Option (Nat × Nat)
  | _, [], _ => none
  | i, w :: ws, written =>
    let r := wordReason w written
    if r ≠ 0 then some (r, i)
    else scanWords (i + 1) ws (if bits w 27 5 = 0 then written else bits w 22 5 :: written)

/-- The result of the check of R133: reason and first failing word. -/
def progReason (len : Nat) (ws : List Nat) (inUse : Bool) : Nat × Nat :=
  if len = 0 ∨ 24 < len then (1, 0)
  else
    match scanWords 0 ws [] with
    | some x => x
    | none => if !progWrites ws rOW then (5, 0) else if inUse then (6, 0) else (0, 0)

/-! ### One element (R131, R134) -/

/-- The register file an element starts with. -/
def elemFile (w g m1 m2 : Nat) (hp : List Nat) : List Nat :=
  [w, g, m1, m2] ++ padTo 12 0 hp ++ [0, f32One] ++ List.replicate 14 0

/-- A program run on an element's register file. -/
def runWords (file ws : List Nat) : List Nat := ws.foldl runOp file

end Sys2Proof.Machine
end

