-- ==== Sys2Proof/Machine/Update.lean ====
section
/-! DEFINITION. The update unit: layer descriptors, passes, elements, generator copies, Belvedere (R123–R154, R261, R395). -/

namespace Sys2Proof.Machine

open Sys2Proof

/-! ### State of the unit -/

def State.updPart (s : State) (p : Nat) : UpdPart := (s.upd.parts[p]?).getD ⟨none, none, none, false, none⟩

def State.setUpdPart (s : State) (p : Nat) (u : UpdPart) : State :=
  { s with upd := { s.upd with parts := s.upd.parts.set p u } }

/-- The pass of a partition replaced. -/
def State.setPass (s : State) (p : Nat) (x : Option Pass) : State := s.setUpdPart p { s.updPart p with pass := x }

/-- A hyperparameter word a pass latched. -/
def Pass.hpWord (x : Pass) (set i : Nat) : Nat := (alGet x.hp (12 * set + i)).getD 0

/-! ### Layer descriptors (R126, R127) -/

/-- Page fields of a descriptor by byte offset, as partition addresses. -/
def ldAddr (d : List Byte) (off : Nat) : Nat := fieldLE d off 4 % 2 ^ 28 * 4096
abbrev ldCount (d : List Byte) : Nat := fieldLE d 28 4
abbrev ldProgram (d : List Byte) : Nat := fieldLE d 32 2
abbrev ldGradFmt (d : List Byte) : Nat := fieldLE d 34 1
abbrev ldGenFmt (d : List Byte) : Nat := fieldLE d 35 1
abbrev ldTid (d : List Byte) : Nat := fieldLE d 36 4
abbrev ldHpSet (d : List Byte) : Nat := fieldLE d 40 1
abbrev ldSparse (d : List Byte) : Bool := bit (fieldLE d 41 1) 0
abbrev ldClip (d : List Byte) : Bool := bit (fieldLE d 41 1) 1
abbrev ldSr (d : List Byte) : Bool := bit (fieldLE d 41 1) 2
abbrev ldTlm (d : List Byte) : Bool := bit (fieldLE d 41 1) 3
abbrev ldSlot (d : List Byte) : Nat := fieldLE d 42 2
abbrev ldReady (d : List Byte) : Nat := fieldLE d 44 2
abbrev ldRow (d : List Byte) : Nat := 32 * fieldLE d 46 2
abbrev ldIndexCount (d : List Byte) : Nat := fieldLE d 52 4

/-- The program a descriptor names. -/
def State.ldProg (s : State) (d : List Byte) : Option Prog :=
  let n := ldProgram d
  if n = 1 then some (.words progSgdMom)
  else if n = 2 then some (.words progNesterov)
  else if n = 3 then some (.words progAdamw)
  else if n = 4 then some (.words progLion)
  else if n = 5 then some .adagrad
  else if n = 6 then some .genOnly
  else if 0x0100 ≤ n ∧ n ≤ 0x0107 then (alGet s.upd.progs (n - 0x0100)).map .words
  else none

/-- Whether a program needs the M1 region, the M2 region (R127, R134, R137). -/
def Prog.needs : Prog → Bool × Bool
  | .words ws => (progReads ws rM1 || progWrites ws rOM1, progReads ws rM2 || progWrites ws rOM2)
  | .adagrad => (true, false)
  | .genOnly => (false, false)

/-- Whether a program's elements read M1, M2: an output it never writes leaves its region alone (R134, log entry 31). -/
def Prog.reads : Prog → Bool × Bool
  | .words ws => (progReads ws rM1 && progWrites ws rOM1, progReads ws rM2 && progWrites ws rOM2)
  | _ => (false, false)

/-- Whether a program names a state word whose region it leaves alone (log entry 31). -/
def Prog.strays : Prog → Bool
  | .words ws => (progReads ws rM1 && !progWrites ws rOM1) || (progReads ws rM2 && !progWrites ws rOM2)
  | _ => false

/-- Elements a layer's gradient region holds (R138). -/
def ldGradCount (d : List Byte) : Nat := if ldSparse d then ldIndexCount d * ldRow d else ldCount d

/-- Bytes of a gradient element. -/
def ldGradSize (d : List Byte) : Nat := if ldGradFmt d = 0 then 2 else 4

/-- Whether the gradient lies in the partition's update staging share (log entry 32). -/
def ldStaged (d : List Byte) : Bool := decide (2 ^ 28 ≤ fieldLE d 16 4)

/-- Byte offset of the scale area in a buffer of a scaled format (R169). -/
def genScaleOff (f : GenFmt) (count : Nat) : Nat := roundUp (ceilDiv (count * f.grid.2.2.2) 8) 64

/-- Bytes of a generator buffer (R169). -/
def genBytes (f : GenFmt) (count : Nat) : Nat :=
  if f.scaled then genScaleOff f count + roundUp (ceilDiv count 32) 64 else ceilDiv (count * f.grid.2.2.2) 8

/-- Whether every page of a run is one that `f` holds of. -/
def State.runAll (s : State) (p a n : Nat) (f : Pme → Bool) : Bool :=
  (List.range (if n = 0 then 0 else (a + n - 1) / frameSize - a / frameSize + 1)).all fun i =>
    f (s.pme p (a / frameSize + i))

/-- The regions of a partition's pages that a layer uses: address and bytes; the first two are hi and lo. -/
def ldRegions (d : List Byte) (g : Prog) : List (Nat × Nat) :=
  let n := ldCount d
  let m := if g = .adagrad then 4 * (n / max 1 (ldRow d)) else 4 * n
  let gen := match genFmtOf (ldGenFmt d) with
    | some f => [(ldAddr d 20, genBytes f n), (ldAddr d 24, genBytes f n)]
    | none => []
  [(ldAddr d 0, 2 * n), (ldAddr d 4, 2 * n)]
    ++ (if g.needs.1 then [(ldAddr d 8, m)] else []) ++ (if g.needs.2 then [(ldAddr d 12, m)] else [])
    ++ (if g ≠ .genOnly ∧ ldStaged d = false then [(ldAddr d 16, ldGradSize d * ldGradCount d)] else [])
    ++ gen ++ (if ldSparse d then [(ldAddr d 48, 4 * ldIndexCount d)] else [])

/-- Whether a layer's regions lie where reason 0x3 asks. -/
def State.ldPlaced (s : State) (p : Nat) (d : List Byte) (g : Prog) : Bool :=
  let rs := ldRegions d g
  let share := s.stageShare (s.seatOf p)
  rs.all (fun r => s.runInMap p r.1 r.2)
    && (rs.take 2).all (fun r => s.runAll p r.1 r.2 (·.master))
    && (match genFmtOf (ldGenFmt d) with
        | some f => [20, 24].all fun o => s.runAll p (ldAddr d o) (genBytes f (ldCount d)) (fun e => e.state != PgCoded)
        | none => true)
    && (g == .genOnly || !ldStaged d || decide (ldAddr d 16 + ldGradSize d * ldGradCount d ≤ share.2))

/-- First reason for which a descriptor is skipped, 0 when it is not (R127, R156). -/
def State.ldReason (s : State) (p : Nat) (d : List Byte) : Nat :=
  let pages := [0, 4, 8, 12, 20, 24, 48]
  let useRow := ldSparse d || ldProgram d == 5
  if !crcOk d 60 || fieldLE d 56 4 != 0 || decide (16 ≤ fieldLE d 41 1) || pages.any (fun o => decide (2 ^ 28 ≤ fieldLE d o 4)) then 1
  else
    match s.ldProg d with
    | none => 2
    | some g =>
      if !s.ldPlaced p d g then 3
      else if ldCount d = 0 ∨ ((ldGenFmt d = 1 ∨ ldGenFmt d = 2) ∧ ldCount d % 32 ≠ 0) ∨
          (useRow = true ∧ ldCount d % ldRow d ≠ 0) then 4
      else if (g.needs.1 = true ∧ fieldLE d 8 4 = 0) ∨ (g.needs.2 = true ∧ fieldLE d 12 4 = 0) ∨
          (ldGenFmt d ≠ 0 ∧ (fieldLE d 20 4 = 0 ∨ fieldLE d 24 4 = 0)) then 5
      else if 63 < ldHpSet d ∨ 4095 < ldSlot d ∨ (1023 < ldReady d ∧ ldReady d ≠ 0xFFFF) ∨
          ldRow d = 0 ∨ 256 * 32 < ldRow d ∨ 1 < ldGradFmt d ∨ 5 < ldGenFmt d then 6
      else if ldSr d = true ∧ s.flag F.CNV_STAT_KAT_FAIL = true then 6
      else 0

/-! ### Errors once a layer (R130, R131, R395) -/

/-- An error of the unit, limited to once a layer and pass. -/
def State.updErr (s : State) (p code sev layer elem prog step : Nat) : State :=
  s.logOnce (code * 16 + p) { block := Page.UPD, code := code, sev := sev, part := some p,
                              detail := [layer, elem % 2 ^ 32, prog, step] }

/-- A new layer: its limits start again. -/
def State.updErrClear (s : State) (p : Nat) : State :=
  s.clearOnce fun k => k % 16 == p && (k / 16 == 0x0302 || k / 16 == 0x0304 || k / 16 == 0x0307)

/-! ### Belvedere (R151–R154) -/

/-- An element the pass processed, as Belvedere sees it. -/
inductive BelElem where
  /-- the old and new master, and g -/
  | upd (w w' g : Nat)
  /-- left unchanged under R130 -/
  | same (w : Nat)
  /-- left unchanged under R395: not counted -/
  | poisoned
  deriving DecidableEq, Repr

def TlmSlot.empty (mode : Nat) : TlmSlot := ⟨mode, [], 0, false, []⟩

def State.tlmSlot (s : State) (i : Nat) : TlmSlot := (alGet s.upd.tlm i).getD (TlmSlot.empty 0)

def State.setTlm (s : State) (i : Nat) (t : TlmSlot) : State :=
  { s with upd := { s.upd with tlm := spSet (fun _ => TlmSlot.empty 0) s.upd.tlm i t } }

/-- A square of an FP32 word in FP64, exact. -/
def sqr64 (w : Nat) : Nat := fp64.round ((f32 w).mul (f32 w))

/-- What an element adds to SW, SG, SU. -/
def BelElem.norms : BelElem → Nat × Nat × Nat
  | .upd w w' g =>
    let d := fp64.round ((f32 w').sub (f32 w))
    (sqr64 w', sqr64 g, fp64.round ((fp64.decode d).mul (fp64.decode d)))
  | .same w => (sqr64 w, 0, 0)
  | .poisoned => (0, 0, 0)

/-- FP64 sum, rounded; one that is no number has the code of the quiet NaN (R152; log entry 101: DESIGN CHOICE). -/
def f64Add (a b : Nat) : Nat := fp64.round ((fp64.decode a).add (fp64.decode b))

/-- Sum of a group of at most 32 values by the pairwise tree (R137, R152). -/
def groupSum64 (vs : List Nat) : Nat := (treeSum f64Add 5 (padTo 32 0 vs)).headD 0

/-- The masters an element shows SHARES. -/
def BelElem.master : BelElem → Option Nat
  | .upd _ w' _ => some w'
  | .same w => some w
  | .poisoned => none

/-- The eleven counts a group adds (R153). -/
def shareCounts (es : List BelElem) : List Nat :=
  let vs := es.filterMap fun e => e.master.map fun w => (f32 w, (none : Option Nat))
  vs.length :: [GenFmt.bf16, .e4m3, .e5m2, .mxfp4, .t2].flatMap fun f =>
    let r := (f.block vs).2
    [r.countP (·.ovf), r.countP (·.ftz)]

/-- A group of at most 32 elements added to a slot (R151–R153). -/
def State.belAdd (s : State) (slot : Nat) (es : List BelElem) : State :=
  let t := s.tlmSlot slot
  let n := t.count + es.countP (· != .poisoned)
  if t.mode = 0 then
    let vs := es.map (·.norms)
    let sums := [groupSum64 (vs.map (·.1)), groupSum64 (vs.map (·.2.1)), groupSum64 (vs.map (·.2.2))]
    s.setTlm slot { t with vals := List.zipWith f64Add (padTo 3 0 t.vals) sums, count := n }
  else
    let vals := List.zipWith (fun a b => min (a + b) (2 ^ 48 - 1)) (padTo 11 0 t.vals) (shareCounts es)
    let sat := vals.any (· == 2 ^ 48 - 1)
    let s := s.setTlm slot { t with vals := vals, count := n, sat := t.sat || sat }
    if sat && !t.sat then (s.set1 F.TLM_STAT_SAT_ANY).irq Page.TLM 0 else s

/-- A slot's live values as the window lays them out (R154). -/
def TlmSlot.window (t : TlmSlot) (step : Nat) : List Byte :=
  let sat := leBytes 1 t.sat.toNat
  if t.mode = 0 then
    padTo 128 0 (padTo 92 0 ((padTo 3 0 t.vals).flatMap (leBytes 8) ++ leBytes 8 t.count ++ leBytes 4 step) ++ sat)
  else padTo 128 0 ((padTo 11 0 t.vals).flatMap (leBytes 8) ++ leBytes 4 step ++ sat)

/-- End of a pass for one slot: result bank, and live values zeroed where AUTO_CLEAR is set, SAT among them (R154; log entry 102:
DESIGN CHOICE). -/
def State.belEnd (s : State) (step slot : Nat) : State :=
  let t := s.tlmSlot slot
  let t := { t with result := t.window step }
  s.setTlm slot (if s.flag F.TLM_SLOT_MODE_AUTO_CLEAR slot then { t with vals := [], count := 0, sat := false } else t)

/-- Pending mode changes take effect: those slots are zeroed (R151). -/
def State.belModes (s : State) : State :=
  let slots := (s.regs.filter fun e => e.1 / 65536 == R.TLM_SLOT_MODE).map (·.1 % 65536) ++ s.upd.tlm.map (·.1)
  (slots.foldl nsAdd []).foldl (fun s i =>
    let m := s.fget F.TLM_SLOT_MODE_MODE i
    if (s.tlmSlot i).mode = m then s
    else (s.setTlm i (TlmSlot.empty m)).set0 F.TLM_SLOT_MODE_CHANGE_PENDING i) s

/-! ### Reading elements -/

/-- A read of the unit. -/
inductive UpdRead where
  | ok (bs : List (Option Byte))
  /-- the page is on its way, or a row is being gathered -/
  | wait
  deriving DecidableEq, Repr

/-- The tower banks in which a class-0 access to a run of a partition's bytes works; a coded write works in its tag line's too (R222,
R507). -/
def State.bankRun (s : State) (p a n : Nat) (wr : Bool) : List Nat :=
  (granules a n).flatMap fun g =>
    let pg := g.1 / frameSize
    let off := g.1 % frameSize
    let d := s.pme p pg
    let st := s.effState p pg d
    if st = PgT1 then [tBank (d.frame * frameSize + off)]
    else if st = PgCoded then
      let h := d.frame % 16
      let r := rowOfBlock (Grp.n s h) (Grp.k s h) (Grp.own s h) (16 * d.home + off / 4096)
      if Grp.tier s h = .t1 then
        tBank (Grp.slotAddr s h r + off % 4096) :: if wr then (Grp.tagAddrs s h r).map tBank else []
      else []
    else []

/-- Whether a plan reserves cycles of a bank for a user in the plan slots from `lo` to `hi` (R507). -/
def Plan.reserves (x : Plan) (user bank lo hi : Nat) : Bool :=
  x.entries.any fun e => decide (lo ≤ e.slot) && decide (e.slot < hi) && (match e.op with
    | .bank b u => b == bank && u == user
    | _ => false)

/-- Whether class-0 accesses of a user of the running plan may be issued in their banks: in cycles that the plan reserves there for it
in the slots from `lo` to `hi`, or that have come since it began to wait for them. Otherwise it waits for the next (R507; log entry 90:
a DESIGN CHOICE). -/
def State.bankTurns (s : State) (p user : Nat) (banks : List Nat) (lo hi : Nat) : State × Bool :=
  match s.plans[p]? with
  | none => (s, true)
  | some x =>
    match x.running with
    | none => (s, true)
    | some i =>
      let keys := banks.map (user * 512 + ·)
      let short := (banks.filter fun b => !i.plan.reserves user b lo hi && !x.given.contains (user * 512 + b)).map (user * 512 + ·)
      if short.isEmpty then
        if x.owed.isEmpty then (s, true)
        else
          ({ s with plans := s.plans.set p { x with owed := x.owed.filter (!keys.contains ·), given := x.given.filter (!keys.contains ·) } },
            true)
      else ({ s with plans := s.plans.set p { x with owed := short.foldl nsAdd x.owed } }, false)

/-- The plan slot that a partition's running instance is at. -/
def State.slotNow (s : State) (p : Nat) : Nat := (((s.plans[p]?).bind (·.running)).map (·.slot)).getD 0

/-- The cycles that a BANK entry reserves pass: an access that waits for them is issued (R507). -/
def State.bankGives (s : State) (p user bank : Nat) : State :=
  match s.plans[p]? with
  | none => s
  | some x =>
    if x.owed.contains (user * 512 + bank) then { s with plans := s.plans.set p { x with given := nsAdd x.given (user * 512 + bank) } } else s

/-- A class-0 read other than a beat, by a user of the plan in its slots from `lo` to `hi`: a late page is called to T1, one on its way
out is waited for (R261), and so are the cycles reserved in its banks (R507). -/
def State.slotRead (s : State) (user lo hi p a n : Nat) : State × UpdRead :=
  match s.bankTurns p user (s.bankRun p a n false) lo hi with
  | (s, false) => (s, .wait)
  | (s, true) =>
    if (granules a n).any fun g => s.leavesT1 p (g.1 / frameSize) then (s, .wait)
    else match s.readRange 0 p a n with
    | (s, bs, .ok) => (s, .ok bs)
    | (s, bs, .refused _) => (s, .ok bs)
    | (s, _, .wait) => (s, .wait)
    | (s, _, .late) => ((granules a n).foldl (fun s g => s.lateMove p (g.1 / frameSize)) s, .wait)

/-- A read of the update unit, in the plan slot at hand (R129, R507). -/
def State.updRead (s : State) (p a n : Nat) : State × UpdRead := s.slotRead 3 (s.slotNow p) (s.slotNow p + 1) p a n

/-- Words of `size` bytes; none where a byte is poison. -/
def wordsOf (size : Nat) (bs : List (Option Byte)) : List (Option Nat) :=
  (chunks size bs).map fun c => if c.any (·.isNone) then none else some (ofLE (c.map (·.getD 0)))

/-- A gradient word as FP32: BF16 widened, its subnormals flushed (R130). -/
def widenGrad (fmt w : Nat) : Nat :=
  if fmt = 0 then (if bits w 7 8 = 0 then bits w 15 1 * 2 ^ 31 else w * 2 ^ 16) else w

/-- The gradients of a layer from element `i` of its region on (R126, R130). -/
def State.readGrads (s : State) (p : Nat) (d : List Byte) (i n : Nat) : State × Option (List (Option Nat)) :=
  let a := ldAddr d 16 + ldGradSize d * i
  let fin (bs : List (Option Byte)) := (wordsOf (ldGradSize d) bs).map fun w => w.map (widenGrad (ldGradFmt d))
  if ldStaged d then (s, some (fin (s.t0Read ((s.stageShare (s.seatOf p)).1 + a) (ldGradSize d * n))))
  else
    match s.updRead p a (ldGradSize d * n) with
    | (s, .ok bs) => (s, some (fin bs))
    | (s, .wait) => (s, none)

/-- Elements `e` to `e + n − 1` of a layer read; `i` is the first one's place in the gradient region. -/
def State.readElems (s : State) (p : Nat) (x : Pass) (d : List Byte) (g : Prog) (e i n : Nat) : State × Option (List ElemIn) :=
  match s.updRead p (ldAddr d 0 + 2 * e) (2 * n) with
  | (s, .wait) => (s, none)
  | (s, .ok hi) =>
    match s.updRead p (ldAddr d 4 + 2 * e) (2 * n) with
    | (s, .wait) => (s, none)
    | (s, .ok lo) =>
      let mom (s : State) (off : Nat) (on : Bool) : State × Option (List (Option Nat)) :=
        if on then
          match s.updRead p (ldAddr d off + 4 * e) (4 * n) with
          | (s, .ok bs) => (s, some (wordsOf 4 bs))
          | (s, .wait) => (s, none)
        else (s, some (List.replicate n (some 0)))
      match mom s 8 g.reads.1 with
      | (s, none) => (s, none)
      | (s, some m1) =>
        match mom s 12 g.reads.2 with
        | (s, none) => (s, none)
        | (s, some m2) =>
          let grads := if g = .genOnly then (s, some (List.replicate n (some 0))) else s.readGrads p d i n
          match grads with
          | (s, none) => (s, none)
          | (s, some gs) =>
            let ws := List.zipWith (fun h l => h.bind fun h => l.map fun l => h * 65536 + l) (wordsOf 2 hi) (wordsOf 2 lo)
            let clip (v : Nat) : Nat := if ldClip d then f32Mul x.scale v else v
            (s, some ((List.range n).map fun k =>
              ⟨(ws[k]?).join, ((gs[k]?).join).map clip, (m1[k]?).join, (m2[k]?).join⟩))

/-! ### Computing elements -/

/-- What an element becomes: outputs that are written, and how Belvedere sees it. -/
structure ElemOut where
  bel : BelElem
  w : Option Nat
  m1 : Option Nat
  m2 : Option Nat
  file : Option (List Nat)
  deriving DecidableEq, Repr

/-- An element under a program of words (R130–R134, R395). `f1`, `f2` stand in for state words the program names but
whose region it leaves alone (log entry 31). -/
def wordsElem (ws : List Nat) (hp : List Nat) (f1 f2 : Nat) (x : ElemIn) : ElemOut :=
  match x.w, x.g, x.m1, x.m2 with
  | some w, some g, some m1, some m2 =>
    if !f32Finite g then ⟨.same w, none, none, none, none⟩
    else
      let m1 := if progReads ws rM1 && !progWrites ws rOM1 then f1 else m1
      let m2 := if progReads ws rM2 && !progWrites ws rOM2 then f2 else m2
      let file := runWords (elemFile w g m1 m2 hp) ws
      let out (r : Nat) : Option Nat := if progWrites ws r then some (file.getD r 0) else none
      ⟨.upd w (file.getD rOW 0) g, out rOW, out rOM1, out rOM2, some file⟩
  | _, _, _, _ => ⟨.poisoned, none, none, none, none⟩

/-- An element of GEN_ONLY (R137). -/
def genOnlyElem (x : ElemIn) : ElemOut :=
  match x.w with
  | some w => ⟨.upd w w 0, none, none, none, none⟩
  | none => ⟨.poisoned, none, none, none, none⟩

/-- The free values a group of `n` elements may take: two for each. -/
def State.frees : Nat → State → State × List Nat
  | 0, s => (s, [])
  | n + 1, s =>
    let (v, s) := s.free
    let (s, l) := State.frees n s
    (s, v % 2 ^ 32 :: l)

/-! ### Writing elements -/

/-- Writes of one run of state words; elements without an output keep theirs. -/
def stateWrites (base size e : Nat) (outs : List (Option Nat)) : List (Nat × List (Option Byte)) :=
  if outs.all (·.isNone) then []
  else [(base + size * e, outs.flatMap fun o => match o with
    | some v => (leBytes size v).map some
    | none => List.replicate size none)]

/-- Element codes packed at `w` bits each, in order. -/
def packCodes (w : Nat) (cs : List Nat) : List Byte :=
  leBytes (ceilDiv (w * cs.length) 8) ((List.zipIdx cs).foldl (fun a c => a + c.1 % 2 ^ w * 2 ^ (w * c.2)) 0)

/-- The next buffer of a partition. -/
def State.genBase (s : State) (p : Nat) (d : List Byte) : Nat := ldAddr d (if s.flag F.UPD_FLIP_STAT_CUR p then 20 else 24)

/-- Padding of a copy of a scaled format: zero bytes after the codes, 0x7F bytes after the scales, each to a multiple of 64 (R169);
offset in the buffer and bytes. It is written with the copy's last block. -/
def genPads (f : GenFmt) (count : Nat) : List (Nat × List Byte) :=
  let codes := ceilDiv (count * f.grid.2.2.2) 8
  let off := genScaleOff f count
  let scales := ceilDiv count 32
  [(codes, List.replicate (off - codes) 0), (off + scales, List.replicate (roundUp scales 64 - scales) 0x7F)]

/-- Generator copies of elements from `e` on, of one block for a scaled format (R140–R144, R395). A poisoned element counts as a
master of 0 in its block's scale and is left out of the counts (log entry 100: DESIGN CHOICE). -/
def State.genWrite (s : State) (p due : Nat) (x : Pass) (d : List Byte) (e : Nat) (es : List BelElem) : State :=
  match genFmtOf (ldGenFmt d) with
  | none => s
  | some f =>
    let base := s.genBase p d
    let sr (i : Nat) : Option Nat := if ldSr d then some (philox x.seed (e + i) (ldTid d) x.step).c0 else none
    let vs := (List.zipIdx es).map fun b => (f32 (b.1.master.getD 0), sr b.2)
    let (sc, cs) := f.block vs
    let live := (List.zipWith (fun (b : BelElem) c => (b, c)) es cs).filter fun y => y.1 != .poisoned
    let s := s.bump F.CNV_OVF_CNT_COUNT 0 (live.countP (·.2.ovf))
    let s := s.bump F.CNV_FTZ_CNT_COUNT 0 (live.countP (·.2.ftz))
    let w := f.grid.2.2.2
    let s := (s.writeRange (.update p) p (base + w * e / 8) due ((packCodes w (cs.map (·.code))).map some)).1
    let s := if f.scaled then (s.writeRange (.update p) p (base + genScaleOff f (ldCount d) + e / 32) due ((leBytes 1 sc).map some)).1 else s
    let s := if f.scaled ∧ ldCount d ≤ e + es.length then
        (genPads f (ldCount d)).foldl (fun s y => (s.writeRange (.update p) p (base + y.1) due (y.2.map some)).1) s
      else s
    let bad := (List.zipIdx es).filterMap fun b => if b.1 = .poisoned then some ((base + w * (e + b.2) / 8) / 64) else none
    (bad.foldl nsAdd []).foldl (fun s k => s.poisonAt (.update p) p (64 * k)) s

/-- Counts, errors, Belvedere and the generator copy of a group of at most 32 elements from element `e` on. -/
def State.groupDone (s : State) (p : Nat) (x : Pass) (d : List Byte) (e : Nat) (os : List ElemOut) : State :=
  let err (s : State) (code sev i : Nat) : State := s.updErr p code sev x.layer (e + i) (ldProgram d) x.step
  let s := (List.zipIdx os).foldl (fun s o =>
    match o.1.bel with
    | .poisoned => err s 0x0307 1 o.2
    | .same _ => err ((s.bump F.UPD_NF_IN_COUNT).irq Page.UPD 1) 0x0302 0 o.2
    | .upd _ _ _ =>
      let n := [o.1.w, o.1.m1, o.1.m2].countP fun v => match v with
        | some v => !f32Finite v
        | none => false
      if n = 0 then s else err ((s.bump F.UPD_NF_OUT_COUNT 0 n).irq Page.UPD 1) 0x0304 1 o.2) s
  let s := s.event 0x0901 (some p) (os.countP fun o => o.w.isSome)
  let bs := os.map (·.bel)
  let s := if ldTlm d then s.belAdd (ldSlot d) bs else s
  s.genWrite p (s.dueOf p) x d e bs

/-- The state writes of a group. -/
def groupWrites (d : List Byte) (e : Nat) (os : List ElemOut) : List (Nat × List (Option Byte)) :=
  stateWrites (ldAddr d 0) 2 e (os.map fun o => o.w.map (· / 65536))
    ++ stateWrites (ldAddr d 4) 2 e (os.map fun o => o.w.map (· % 65536))
    ++ stateWrites (ldAddr d 8) 4 e (os.map (·.m1)) ++ stateWrites (ldAddr d 12) 4 e (os.map (·.m2))

/-! ### A row of ADAGRAD_ROW (R137) -/

/-- Sum of squares of a row: groups in order. -/
def rowSum (qs : List Nat) : Nat :=
  (chunks 32 qs).foldl (fun s c => f32Add s ((treeSum f32Add 5 (padTo 32 0 c)).headD 0)) 0

/-- The new accumulator of a row of ADAGRAD_ROW (R137). A gradient that reads as poison makes the row's sum poison, and with it every
result of the row (R394; log entry 33: DEDUCED). -/
def adagradAcc (acc : Option Nat) (xs : List ElemIn) : Option Nat :=
  if xs.any (·.g.isNone) then none
  else acc.map fun a => f32Add a (f32Div (rowSum (xs.map fun x => f32Mul (x.g.getD 0) (x.g.getD 0))) (fp32.round (.fin false xs.length 0)))

/-- One element of a row of ADAGRAD_ROW (R137). -/
def adagradElem (hp : Nat → Nat) (acc : Option Nat) (x : ElemIn) : ElemOut :=
  match acc, x.w, x.g with
  | some a, some w, some g =>
    if f32Finite g then
      let w' := f32Fnma (f32Div (hp 0) (f32Add (f32Sqrt a) (hp 5))) g w
      ⟨.upd w w' g, some w', none, none, none⟩
    else ⟨.same w, none, none, none, none⟩
  | _, _, _ => ⟨.poisoned, none, none, none, none⟩

/-! ### A step of a pass (R129) -/

/-- How one ECLK cycle of an update slot goes. -/
inductive UpdStep where
  | go
  /-- a bubble: a late page, a gathered row, a full Cold frame, a gradient not landed -/
  | bubble
  /-- a pinned buffer: the stall is counted as time passes, and not as front-starved (R148) -/
  | pin
  | idle
  deriving DecidableEq, Repr

/-- Writes made in order until one must wait (R71). -/
def State.updFlush (p due : Nat) : List (Nat × List (Option Byte)) → State → State × List (Nat × List (Option Byte))
  | [], s => (s, [])
  | y :: ys, s =>
    match s.bankTurns p 3 (s.bankRun p y.1 y.2.length true) (s.slotNow p) (s.slotNow p + 1) with
    | (s, false) => (s, y :: ys)
    | (s, true) =>
      match s.writeRange (.update p) p y.1 due y.2 with
      | (s, .wait) => (s, y :: ys)
      | (s, _) => State.updFlush p due ys s

/-- Pages of a layer, kept from eviction while it is in progress (R261). -/
def State.holdPages (s : State) (p : Nat) (rs : List (Nat × Nat)) : State × List Nat :=
  let ks := rs.flatMap fun r =>
    (List.range (if r.2 = 0 then 0 else (r.1 + r.2 - 1) / frameSize - r.1 / frameSize + 1)).map fun i => pageKey p (r.1 / frameSize + i)
  ({ s with pages := { s.pages with held := s.pages.held ++ ks } }, ks)

/-- Pages no longer held, one entry for each. -/
def State.unholdPages (s : State) (ks : List Nat) : State :=
  { s with pages := { s.pages with held := ks.foldl (fun l k => l.erase k) s.pages.held } }

/-- The pass ends: result banks, READY flags, the status bits (R129, R154, R335). -/
def State.passEnd (s : State) (p : Nat) (x : Pass) : State :=
  let s := x.slots.foldl (fun s i => s.belEnd x.step i) s
  let s := x.flags.foldl (fun s f =>
    let r := R.COL_FLAG_0 + 4 * (f / 32)
    s.wr r p (setBit (s.rd r p) (f % 32) false)) s
  let s := s.unholdPages x.pages
  let s := s.setUpdPart p { s.updPart p with pass := none, passed := true }
  (s.set0 F.UPD_FLIP_STAT_PASS_ACTIVE p).irq Page.UPD 5

/-- READY flags of a pass with that of one more layer (R335). -/
def Pass.noteFlag (x : Pass) (f : Nat) : List Nat := if f < 1024 then nsAdd x.flags f else x.flags

/-- A layer is skipped (R127); its READY flag is one of the pass all the same, unless the descriptor itself is damaged (R335). -/
def State.layerSkip (s : State) (p : Nat) (x : Pass) (d : List Byte) (r : Nat) : State :=
  let s := s.wr R.UPD_LAYER_ERR 0 (x.layer % 2 ^ 12 + p * 2 ^ 12 + r * 2 ^ 16 + 2 ^ 31)
  let s := s.logErr { block := Page.UPD, code := 0x0305, sev := 1, part := some p, detail := [x.layer, 0, ldProgram d, x.step] }
  (s.irq Page.UPD 0).setPass p (some { x with layer := x.layer + 1, flags := if crcOk d 60 then x.noteFlag (ldReady d) else x.flags })

/-- The unit reaches a layer: its descriptor is read and checked, its gradient waited for (R127, R130). -/
def State.layerBegin (s : State) (p : Nat) (x : Pass) : State × UpdStep :=
  match s.updRead p (s.fget F.UPD_LTAB_BASE_BASE p * 4096 + 64 * x.layer) 64 with
  | (s, .wait) => (s, .bubble)
  | (s, .ok bs) =>
    let d := bs.map (·.getD 0xFF)
    let r := s.ldReason p d
    if r ≠ 0 then (s.layerSkip p x d r, .go)
    else if ldReady d ≠ 0xFFFF ∧ bit (s.rd (R.COL_FLAG_0 + 4 * (ldReady d / 32)) p) (ldReady d % 32) = false then (s, .bubble)
    else
      let g := (s.ldProg d).getD .genOnly
      let (s, ks) := s.holdPages p (ldRegions d g)
      ((s.updErrClear p).setPass p
        (some { x with desc := some d, pos := 0, flags := x.noteFlag (ldReady d), pages := x.pages ++ ks }), .go)

/-- Elements a layer takes, in its order. -/
def ldTotal (d : List Byte) : Nat := if ldSparse d then ldIndexCount d * ldRow d else ldCount d

/-- The element that stands at a place of a layer's order; none where its index entry names no row, or reads as poison
(R138, R139; log entry 99: DESIGN CHOICE). -/
def State.elemAt (s : State) (p : Nat) (d : List Byte) (pos : Nat) : State × Option (Option Nat) :=
  if !ldSparse d then (s, some (some pos))
  else
    match s.updRead p (ldAddr d 48 + 4 * (pos / ldRow d)) 4 with
    | (s, .wait) => (s, none)
    | (s, .ok bs) =>
      match wordsOf 4 bs with
      | [some r] => (s, some (if r < ldCount d / ldRow d then some (r * ldRow d + pos % ldRow d) else none))
      | _ => (s, some none)

/-- A group computed: its outcome noted, its writes still to make, the place moved on. -/
def State.groupSet (s : State) (p : Nat) (x : Pass) (d : List Byte) (n : Nat)
    (todo : List (Nat × List (Option Byte))) (counted : Bool) : State :=
  s.setPass p (some { x with pos := x.pos + n, todo := todo, due := s.dueOf p,
                             slots := if ldTlm d && counted then nsAdd x.slots (ldSlot d) else x.slots })

/-- Whether the banks of a group's generator copy have cycles for the unit (R507). -/
def State.genTurn (s : State) (p : Nat) (d : List Byte) (e n : Nat) : State × Bool :=
  match genFmtOf (ldGenFmt d) with
  | none => (s, true)
  | some f =>
    let w := f.grid.2.2.2
    s.bankTurns p 3 (s.bankRun p (s.genBase p d + w * e / 8) (w * n / 8) true) (s.slotNow p) (s.slotNow p + 1)

/-- A row of ADAGRAD_ROW has been read: its sum is known, and its groups are to be written. -/
def State.rowSummed (s : State) (p : Nat) (x : Pass) (d : List Byte) (e : Nat) (acc : Option Nat) (xs : List ElemIn) : State :=
  let acc := adagradAcc acc xs
  let bad := acc.any fun a => !f32Finite a
  let s := if bad then (((s.bump F.UPD_NF_OUT_COUNT).irq Page.UPD 1).updErr p 0x0304 1 x.layer e (ldProgram d) x.step) else s
  s.setPass p (some { x with pos := x.pos + 32, ins := [],
                             late := x.late ++ (List.zipIdx (chunks 32 xs)).map fun c => ⟨e + 32 * c.2, acc, c.1⟩ })

/-- The next group of 32 elements; a row of ADAGRAD_ROW is read so, and its groups are then written one a cycle (R129, R137). -/
def State.groupStep (s : State) (p : Nat) (x : Pass) (d : List Byte) (g : Prog) : State × UpdStep :=
  match s.elemAt p d x.pos with
  | (s, none) => (s, .bubble)
  | (s, some none) =>
    let s := s.bump F.UPD_IDX_BAD_COUNT
    let s := s.logErr { block := Page.UPD, code := 0x0303, sev := 0, part := some p,
                        detail := [x.layer, x.pos % 2 ^ 32, ldProgram d, x.step] }
    (s.setPass p (some { x with pos := (x.pos / ldRow d + 1) * ldRow d }), .go)
  | (s, some (some e)) =>
    let hpAt (i : Nat) : Nat := x.hpWord (ldHpSet d) i
    match g with
    | .adagrad =>
      match s.readElems p x d g e x.pos 32 with
      | (s, none) => (s, .bubble)
      | (s, some xs) =>
        if x.ins.length + xs.length < ldRow d then
          (s.setPass p (some { x with pos := x.pos + 32, ins := x.ins ++ xs }), .go)
        else
          match s.updRead p (ldAddr d 8 + 4 * (e / ldRow d)) 4 with
          | (s, .wait) => (s, .bubble)
          | (s, .ok ab) => (s.rowSummed p x d (e + 32 - ldRow d) ((wordsOf 4 ab).headD none) (x.ins ++ xs), .go)
    | _ =>
      let n := min (32 - e % 32) (ldTotal d - x.pos)
      match s.readElems p x d g e x.pos n with
      | (s, none) => (s, .bubble)
      | (s, some xs) =>
      match s.genTurn p d e n with
      | (s, false) => (s, .bubble)
      | (s, true) =>
        let (s, os) : State × List ElemOut := match g with
          | .words ws =>
            let (s, fs) := State.frees (if g.strays then 64 else 0) s
            (s, (List.zipIdx xs).map fun y =>
              wordsElem ws ((List.range 12).map hpAt) (fs.getD (2 * y.2) 0) (fs.getD (2 * y.2 + 1) 0) y.1)
          | _ => (s, xs.map genOnlyElem)
        let s := match (os.filterMap (·.file)).getLast? with
          | some f => { s with upd := { s.upd with file := f } }
          | none => s
        let s := s.groupDone p x d e os
        (s.groupSet p x d n (groupWrites d e os) true, .go)

/-- The oldest group of a row whose sum is known is computed, its writes to be made in this cycle; the accumulator goes with the
row's first group. None while its generator copy waits for its banks. -/
def State.rowGroup (s : State) (p : Nat) (x : Pass) : State × Option Pass :=
  match x.desc, x.late with
  | some d, r :: rest =>
    if ldGenFmt d ≠ 0 ∧ s.nextPins p ≠ 0 then (s, some x)
    else match s.genTurn p d r.elem r.ins.length with
    | (s, false) => (s, none)
    | (s, true) =>
      let os := r.ins.map (adagradElem (fun i => x.hpWord (ldHpSet d) i) r.acc)
      (s.groupDone p x d r.elem os,
        some { x with late := rest, due := s.dueOf p, slots := if ldTlm d then nsAdd x.slots (ldSlot d) else x.slots,
                      todo := groupWrites d r.elem os
                        ++ (if r.elem % ldRow d = 0 then stateWrites (ldAddr d 8) 4 (r.elem / ldRow d) [r.acc] else []) })
  | _, _ => (s, some x)

/-- The writes of the group last computed, and those of the next group of a row, are made; none while one of them has to wait. -/
def State.updWrites (s : State) (p : Nat) (x : Pass) : State × Option Pass :=
  match State.updFlush p x.due x.todo s with
  | (s, y :: ys) => (s.setPass p (some { x with todo := y :: ys }), none)
  | (s, []) =>
    match s.rowGroup p { x with todo := [] } with
    | (s, none) => (s.setPass p (some { x with todo := [] }), none)
    | (s, some x) =>
      match State.updFlush p x.due x.todo s with
      | (s, y :: ys) => (s.setPass p (some { x with todo := y :: ys }), none)
      | (s, []) => (s, some { x with todo := [] })

/-- One ECLK cycle of a partition's update slots (R129, R130, R148, R261). -/
def State.updStep (s : State) (p : Nat) : State × UpdStep :=
  match (s.updPart p).pass with
  | none => (s, .idle)
  | some x =>
    match s.updWrites p x with
    | (s, none) => (s, .bubble)
    | (s, some x) =>
      let x := { x with pinned := false }
      let s := s.setPass p (some x)
      match x.desc with
      | none => if s.fget F.UPD_LTAB_COUNT_COUNT p ≤ x.layer then (s.passEnd p x, .go) else s.layerBegin p x
      | some d =>
        if ldTotal d ≤ x.pos ∧ x.late = [] then
          (s.setPass p (some { x with layer := x.layer + 1, desc := none, pos := 0 }), .go)
        else if ldGenFmt d ≠ 0 ∧ s.nextPins p ≠ 0 then (s.setPass p (some { x with pinned := true }), .pin)
        else if ldTotal d ≤ x.pos then (s, .go)
        else s.groupStep p x d ((s.ldProg d).getD .genOnly)

/-- The writes of the group last computed are tried again; those that still have to wait stay (R71, R83). -/
def State.passFlush (s : State) (p : Nat) : State :=
  match (s.updPart p).pass with
  | none => s
  | some x => match State.updFlush p x.due x.todo s with
    | (s, todo) => s.setPass p (some { x with todo := todo })

/-- Of every partition. -/
def State.passesFlush (s : State) : State := (List.range 8).foldl (fun s p => s.passFlush p) s

/-- `n` ECLK cycles of update slots: nothing a bubble waits for comes within them, so what is left of them passes as bubbles. The
unit has no row, so each such cycle counts one front-starved (R130; log entry 87: a DESIGN CHOICE). -/
def State.updRun (p : Nat) : Nat → State → State
  | 0, s => s
  | n + 1, s =>
    match s.updStep p with
    | (s, .go) => State.updRun p n s
    | (s, .idle) => s
    | (s, .bubble) => s.topDown p 2 (n + 1)
    | (s, .pin) => s

/-! ### Starting a pass, the flip (R128, R145, R146) -/

/-- Whether a partition's layers are being written by a weight broadcast, which counts as an update pass (R339): a collective
with WEIGHTS set whose ROOT is another rank. -/
def State.weightsIn (s : State) (p : Nat) : Bool :=
  s.col.jobs.any fun x => x.part == p && fieldLE x.desc 0 1 == 0x33 && bit (fieldLE x.desc 34 1) 0 && x.rank != fieldLE x.desc 30 2 && x.ended.isNone

/-- Whether a pass of a partition begins at the boundary just taken (R128); none begins at a boundary that a forward step of the
hall time skips (R27), though one that follows may (log entry 63: a DESIGN CHOICE). -/
def State.passDue (s : State) (p : Nat) : Bool :=
  let u := s.updPart p
  match u.go, s.tick.lastBoundary with
  | some g, some b =>
    b == s.tick.hall && s.slotAfter g b && u.flip.isNone && u.flipped != some b && u.pass.isNone && !s.weightsIn p && !bit (s.rd R.UPD_LOAD_EN) p
  | _, _ => false

/-- The hyperparameter words in force that are not 0. -/
def State.hpWords (s : State) : List (Nat × Nat) :=
  s.regs.filterMap fun e =>
    let off := e.1 / 65536
    if R.UPD_HP_0 ≤ off ∧ off < R.UPD_HP_0 + 48 then some (12 * (e.1 % 65536) + (off - R.UPD_HP_0) / 4, e.2.toNat) else none

/-- What a pass reads and writes, as its layer table stands when it begins: the table, and the regions of its layers (R261). -/
def State.passRuns (s : State) (p : Nat) : List (Nat × Nat) :=
  let n := s.fget F.UPD_LTAB_COUNT_COUNT p
  (s.fget F.UPD_LTAB_BASE_BASE p * 4096, 64 * n) :: (List.range n).flatMap fun i =>
    let d := s.layerDesc p i
    if s.ldReason p d = 0 then ldRegions d ((s.ldProg d).getD .genOnly) else []

/-- A pass begins: what it uses is latched, pending Belvedere modes take effect (R128, R151), its pages are kept (R261). -/
def State.passBegin (s : State) (p : Nat) : State :=
  if !s.passDue p then s
  else
    let x : Pass := ⟨s.rd R.UPD_CLIP_SCALE p, s.rd R.UPD_STEP p, s.rd R.CNV_SEED_LO p + s.rd R.CNV_SEED_HI p * 2 ^ 32,
      s.hpWords, 0, none, 0, [], 0, [], [], [], false, [], []⟩
    let (s, ks) := s.belModes.holdPages p (s.passRuns p)
    let x := { x with pages := ks }
    let s := s.setUpdPart p { s.updPart p with go := none, pass := some x }
    (s.set0 F.UPD_FLIP_STAT_PASS_PENDING p).set1 F.UPD_FLIP_STAT_PASS_ACTIVE p

/-- An armed flip takes effect at the boundary just taken (R146). -/
def State.flipAt (s : State) (p : Nat) : State :=
  let u := s.updPart p
  match u.flip with
  | none => s
  | some (v, t) =>
    if s.slotAfter t s.tick.hall && u.pass.isNone && !s.weightsIn p then
      let s := s.setUpdPart p { u with flip := none, flipped := some s.tick.hall, passed := false }
      let s := s.fset F.UPD_FLIP_STAT_CUR p (1 - s.fget F.UPD_FLIP_STAT_CUR p)
      ((s.wr R.UPD_VER p v).set0 F.UPD_FLIP_STAT_ARMED p).irq Page.UPD 4
    else s

end Sys2Proof.Machine
end

