-- ==== Sys2Proof/Machine/Rows.lean ====
section
/-! DEFINITION. Lane rows: masks, widths, owners, changes held for a boundary, idle cycles, row cycles (R160, R182–R191). -/

namespace Sys2Proof.Machine

open Sys2Proof

/-! ### Plan state shown (R36) -/

def PlanState.idle : PlanState := ⟨0, none, none, none, none, none, [], 0, [], false, [], []⟩

/-- The plan state of a partition. -/
def State.planState (s : State) (p : Nat) : PlanState := (s.plans[p]?).getD PlanState.idle

/-- `TCK_PLAN_STAT` and `TCK_PLAN_RUN_ID` of a partition brought up to date. -/
def State.showPlan (s : State) (p : Nat) : State :=
  let x := s.planState p
  let s := (s.fset F.TCK_PLAN_STAT_CHECKING p x.check.isSome.toNat).fset F.TCK_PLAN_STAT_ACCEPTED p x.accepted.isSome.toNat
  (s.fset F.TCK_PLAN_STAT_RUNNING p x.inForce.isSome.toNat).wr R.TCK_PLAN_RUN_ID p ((x.inForce.map (·.id)).getD 0)

/-- The plan state of a partition set and shown. -/
def State.setPlan (s : State) (p : Nat) (x : PlanState) : State := ({ s with plans := s.plans.set p x }).showPlan p

/-! ### Widths (R51, R185, R186) -/

/-- The masks in effect on a row: lanes, columns. -/
def State.rowMasks (s : State) (r : Nat) : Nat × Nat :=
  let m := (alGet s.lane.masks r).getD 0
  (m / 2 ^ 32, m % 2 ^ 32)

/-- Healthy columns of a row. -/
def State.rowCols (s : State) (r : Nat) : Nat := 32 - popCount 32 (s.rowMasks r).2

/-- The batch width of a row: its healthy lanes. -/
def State.rowBatch (s : State) (r : Nat) : Nat := 32 - popCount 32 (s.rowMasks r).1

/-- The K-width of a row under a pin. -/
def rowWidthOf (pin cols : Nat) : Nat := if pin = 0 then cols else pin

/-- The K-width of a row. -/
def State.rowWidth (s : State) (r : Nat) : Nat := rowWidthOf s.lane.pin (s.rowCols r)

/-- Whether a row's columns leave it without work under a pin. -/
def colsShort (pin cols : Nat) : Bool := cols == 0 || decide (cols < pin)

/-- Whether a row takes no work (R186). -/
def State.rowNoWork (s : State) (r : Nat) : Bool := s.rowBatch r == 0 || colsShort s.lane.pin (s.rowCols r)

/-- Whether a trio is one of a partition's seat. -/
def State.partTrio (s : State) (p t : Nat) : Bool := bit (s.rd (R.PTC_SEAT_TRIO_0 + 4 * (t / 32)) (s.seatOf p)) (t % 32)

/-- The partition that owns a row: the RESIDENT one of its seat (R363, R364). -/
def State.rowOwner (s : State) (r : Nat) : Option Nat :=
  (List.range 8).find? fun p => s.fget F.PTC_STAT_STATE p == 2 && s.partTrio p (r / 3)

/-- Rows of a partition, rising. -/
def State.partRows (s : State) (p : Nat) : List Nat :=
  (List.range 256).flatMap fun t => if s.partTrio p t then [3 * t, 3 * t + 1, 3 * t + 2] else []

/-! ### Changes held for a boundary (R186, R187) -/

/-- The masks as written. -/
def State.rowWritten (s : State) (r : Nat) : Nat × Nat := (s.rd R.LNF_ROW_LANE_BYP r, s.rd R.LNF_ROW_COL_BYP r)

/-- The pin as written; values above 32 count as 32. -/
def State.pinWritten (s : State) : Nat := min 32 (s.fget F.LNF_KWIDTH_PIN_WIDTH)

/-- Whether a pin changes the K-width of a row of so many healthy columns, or whether it has work. -/
def pinMoves (old new cols : Nat) : Bool := rowWidthOf new cols != rowWidthOf old cols || colsShort new cols != colsShort old cols

/-- Whether the pin as written changes the K-width of a row with its columns in effect. -/
def State.pinChanges (s : State) (r : Nat) : Bool := pinMoves s.lane.pin s.pinWritten (s.rowCols r)

/-- The same of a row with its columns in effect or as written. -/
def State.pinTouches (s : State) (r : Nat) : Bool :=
  s.pinChanges r || pinMoves s.lane.pin s.pinWritten (32 - popCount 32 (s.rowWritten r).2)

/-- Whether a row has a change pending. -/
def State.changePending (s : State) (r : Nat) : Bool :=
  s.rowWritten r != s.rowMasks r || (s.pinWritten != s.lane.pin && s.pinChanges r)

/-- Whether a descriptor taken and not ended, or a generator pass in progress, stands on a row (R186, R189). -/
def State.rowBusy (s : State) (r : Nat) : Bool :=
  s.lane.jobs.any (fun j => j.out.isNone && j.rows.contains r)
    || (s.lane.chains ++ s.lane.oldChains).any fun c => c.2.pass && !c.2.ended && c.2.rows.contains r

/-- Rows whose masks stand written otherwise than in effect. -/
def State.maskRows (s : State) : List Nat :=
  let ks := s.regs.filterMap fun e =>
    if e.1 / 65536 = R.LNF_ROW_LANE_BYP ∨ e.1 / 65536 = R.LNF_ROW_COL_BYP then some (e.1 % 65536) else none
  ((ks ++ s.lane.masks.map (·.1)).foldl nsAdd []).filter fun r => s.rowWritten r != s.rowMasks r

/-- The pending bits of the page brought up to date. -/
def State.showPending (s : State) : State :=
  let pin := s.pinWritten != s.lane.pin && (List.range 768).any fun r => s.pinChanges r
  (s.fset F.LNF_KWIDTH_PIN_PENDING 0 pin.toNat).fset F.LNF_STAT_CHANGE_PENDING 0 (pin || !s.maskRows.isEmpty).toNat

/-- The masks as written come into effect on a row. -/
def State.applyMasks (s : State) (r : Nat) : State :=
  let w := s.rowWritten r
  { s with lane := { s.lane with masks := spSet (fun _ => 0) s.lane.masks r (w.1 * 2 ^ 32 + w.2) } }

/-- Rows a plan uses: those of its feeds and of its consume points. -/
def Plan.uses (x : Plan) (r : Nat) : Bool :=
  x.entries.any fun e => match e.op with
    | .feed t _ rows => t == r / 3 && bit rows (r % 3)
    | .lane _ _ _ a b => decide (a ≤ r / 3) && decide (r / 3 ≤ b)
    | _ => false

/-- Whether a row still fits a plan's K-width class (R188). -/
def State.rowFits (s : State) (x : Plan) (r : Nat) : Bool := !colsShort s.lane.pin (s.rowCols r) && s.rowWidth r == x.kwidth

/-- Whether a partition's running plan may put work on a row: not barred after a change of class, of its class (R187, R188),
with work and no change pending that the row would have to wait for (R186). -/
def State.rowTakes (s : State) (p r : Nat) : Bool :=
  !s.changePending r && !s.rowNoWork r && !((s.plans[p]?).any fun x => x.barred) && match (s.plans[p]?).bind fun x => x.running with
    | some i => s.rowFits i.plan r
    | none => true

/-- Rows whose K-width changed: a partition whose running or accepted plan uses one and no longer fits it loses both, and its rows
take no lane work until a plan is accepted; an instance that runs goes on without (R187). -/
def State.classChanged (s : State) (rows : List Nat) : State :=
  let bad (x : Plan) : Bool := rows.any fun r => x.uses r && !s.rowFits x r
  (List.range 8).foldl (fun s p =>
    match s.plans[p]? with
    | none => s
    | some ps =>
      let taken : Bool := match ps.accepted with
        | some x => bad x.1
        | none => false
      if !(ps.inForce.any bad || (ps.running.map (·.plan)).any bad || taken) then s
      else
        let ps : PlanState := { ps with inForce := none, accepted := none, acceptedEpoch := none, barred := true }
        let s := s.setPlan p ps
        let e : ErrIn := { block := Page.LNF, code := 0x0204, sev := 0, part := some p, detail := [rows.headD 0, 0, 0, 0] }
        ((s.set1 F.LNF_STAT_CLASS_CHANGED).logErr e).irq Page.LNF 1) s

/-- Changes held for this boundary are applied: masks row by row where no step is in progress, the pin on all rows it
changes at once; a row whose masks and pin both change takes them together (R186). -/
def State.bypassApply (s : State) : State :=
  let old := s
  let moves := s.pinWritten != s.lane.pin
  let pinRows := if moves then (List.range 768).filter fun r => s.pinTouches r else []
  let go := pinRows.all fun r => !s.rowBusy r
  let rows := s.maskRows.filter fun r => !s.rowBusy r && (go || !pinRows.contains r)
  let s := rows.foldl (fun s r => s.applyMasks r) s
  let s := if moves && go then { s with lane := { s.lane with pin := s.pinWritten } } else s
  let changed := ((rows ++ pinRows).foldl nsAdd []).filter fun r =>
    old.rowWidth r != s.rowWidth r || colsShort old.lane.pin (old.rowCols r) != colsShort s.lane.pin (s.rowCols r)
  let s := if changed.isEmpty then s else s.classChanged changed
  if rows.isEmpty && !moves then s else s.showPending

/-! ### Row cycles (R182) -/

/-- Row cycles of a partition counted in a class. -/
def State.rowCycles (s : State) (p cls n : Nat) : State := if n = 0 then s else s.topDown p cls n

/-- The kind of activity of a lane job's retired cycles: its operation and the format of its operand (R427). -/
def LaneJob.activityKind (j : LaneJob) : Nat :=
  let d := j.desc.getD []
  8 + 16 * j.kind + (if j.kind = 1 then fieldLE d 9 1 else if j.kind = 2 then fieldLE d 18 1 else fieldLE d 10 1) % 16

/-- LCLK cycles of the current tick whose row cycles have been classed, for a partition. -/
def State.spend (s : State) (p n : Nat) : State :=
  { s with plans := modifyAt (fun x => { x with spent := x.spent + n }) p s.plans }

/-- Idle cycles per window that the thermal throttle asks for (R190, R247). -/
def State.thermalDemand (s : State) : Nat := if s.tower.throttle then 64 - s.fget F.TTH_THROTTLE_FRAC_FRAC else 0

/-- A window of idle cycles begins: the applied value, its idle cycles counted and wasted on every owned row (R190, R191).
`len` is the window's length, 64 but for the last one of a tick. -/
def State.idleWindow (s : State) (len : Nat) : State :=
  let s := s.fset F.LNF_IDLE_THERMAL 0 s.thermalDemand
  let a := min 63 (max (s.fget F.LNF_IDLE_THERMAL) (max (s.fget F.LNF_IDLE_POWER) (s.fget F.LNF_IDLE_MIN)))
  let s := s.fset F.LNF_IDLE_APPLIED 0 a
  let n := min len 64 * a / 64
  if n = 0 then s
  else
    let s := (s.bump F.LNF_IDLE_CNT_CYCLES 0 n).event 0x0701 none n
    (List.range 8).foldl (fun s p =>
      if s.fget F.PTC_STAT_STATE p = 2 then (s.rowCycles p 1 (n * (s.partRows p).length)).spend p n else s) s

end Sys2Proof.Machine
end

