-- ==== Sys2Proof/Machine/Lane.lean ====
section
/-! DEFINITION. Lane programs: consume points, chains, STREAM-MM, GATHER-POOL, late operands, completion (R160–R219). -/

namespace Sys2Proof.Machine

open Sys2Proof

/-! ### Elements and sums (R162–R180) -/

/-- The value of an element code of a format, BF16 subnormals flushed (R164–R167). -/
def laneElem (f : GenFmt) (c : Nat) : Num :=
  if f = .bf16 ∧ bits c 7 8 = 0 then .fin (bit c 15) 0 0 else f.value c

/-- Element codes of `w` bits in bytes (R169). -/
def codesOf (w : Nat) (bs : List Nat) : List Nat :=
  if w = 16 then (chunks 2 bs).map fun c => c.headD 0 + 256 * (c.getD 1 0)
  else bs.flatMap fun b => (List.range (8 / w)).map fun i => bits b (w * i) w

/-- A block scale's value (R164). -/
def scaleNum (c : Nat) : Num := if c = 0xFF then .nan else Num.pow2 ((c : Int) - 127)

/-- Streamed elements from their codes and block scales. -/
def streamElems (f : GenFmt) (codes scales : List Nat) : List Num :=
  (List.zipIdx codes).map fun c =>
    if f.scaled then (laneElem f c.1).mul (scaleNum (scales.getD (c.2 / 32) 0x7F)) else laneElem f c.1

/-- The product of a stationary element and a streamed one (R174). -/
def laneProduct (a v : Num) : Nat := fp32.round (a.mul v)

/-- The tree sum of a K step of width `w` (R174, R175): positions beyond the operand's end give +0.0. -/
def stepSum (af : GenFmt) (w : Nat) (set : List Nat) (vs : List Num) : Nat :=
  let ps := List.zipWith (fun a v => laneProduct (laneElem af a) v) set vs
  (treeSum f32Add 6 (padTo w 0 ps)).headD 0

/-- The split combiner (R178); a poisoned partial poisons the result. -/
def combine : Nat → List (Option Nat) → Option Nat
  | 0, _ => none
  | _, [] => some 0
  | _, [x] => x
  | n + 1, l =>
    let h := (l.length + 1) / 2
    match combine n (l.take h), combine n (l.drop h) with
    | some a, some b => some (f32Add a b)
    | _, _ => none

/-- A result in its output format (R180): bytes, and whether it was saturated. -/
def laneOut (fmt v : Nat) : List Byte × Bool :=
  match genFmtOf fmt with
  | some f =>
    let e := f.elem 0 none (f32 v)
    (leBytes (f.grid.2.2.2 / 8) e.code, e.ovf && !(f32 v).isNan)
  | none => (leBytes 4 v, false)

/-- Bytes of a result. -/
def outSize (fmt : Nat) : Nat := match genFmtOf fmt with
  | some f => f.grid.2.2.2 / 8
  | none => 4

/-! ### Jobs -/

def State.laneJob (s : State) (id : Nat) : Option LaneJob := s.lane.jobs.find? fun j => j.id == id

def State.setLaneJob (s : State) (j : LaneJob) : State :=
  { s with lane := { s.lane with jobs := s.lane.jobs.map fun x => if x.id == j.id then j else x } }

def State.chain? (s : State) (q : Nat) : Option Chain := alGet s.lane.chains q

/-- Field of the pin count of a buffer (R147). -/
def pinField (buf : Nat) : Fld := if buf = 0 then F.UPD_FLIP_STAT_PIN_A else F.UPD_FLIP_STAT_PIN_B

/-- A chain opens on the partition's current buffer and pins it, whether or not it proves to be a generator pass (R204; log entry 86:
DESIGN CHOICE); `id` is the job that opens it. -/
def State.openChain (s : State) (q p id : Nat) : State :=
  let b := s.fget F.UPD_FLIP_STAT_CUR p
  let s := s.bump (pinField b) p
  let s := (s.set1 F.LNP_Q_STAT_CHAIN_OPEN q).fset F.LNP_Q_STAT_CHAIN_BUF q b
  { s with lane := { s.lane with chains := alPut s.lane.chains q ⟨p, b, 0, [], false, id, none, false⟩ } }

/-- The pin of a chain is released. -/
def State.unpinBuf (s : State) (c : Chain) : State := s.fset (pinField c.buf) c.part (s.fget (pinField c.buf) c.part - 1)

/-- A chain closes: its pin is released (R204, R205). -/
def State.closeChain (s : State) (q : Nat) : State :=
  match s.chain? q with
  | none => s
  | some c =>
    let s := (s.unpinBuf c).set0 F.LNP_Q_STAT_CHAIN_OPEN q
    { s with lane := { s.lane with chains := alDel s.lane.chains q } }

/-- Chains the queues have gone on from close: those that `f` selects. -/
def State.closeOld (s : State) (f : Nat × Chain → Bool) : State :=
  let cs := s.lane.oldChains.filter f
  let s := { s with lane := { s.lane with oldChains := s.lane.oldChains.filter fun c => !f c } }
  cs.foldl (fun s c => s.unpinBuf c.2) s

/-- A queue goes on from its chain, whose last descriptor has been taken (R204): the chain closes when that one has ended, at
once where it already has. -/
def State.leaveChain (s : State) (q : Nat) : State :=
  match s.chain? q with
  | none => s
  | some c =>
    if c.ended then s.closeChain q
    else if c.last.isNone then s
    else
      let s := s.set0 F.LNP_Q_STAT_CHAIN_OPEN q
      { s with lane := { s.lane with chains := alDel s.lane.chains q, oldChains := s.lane.oldChains ++ [(q, c)] } }

/-- Chains that `f` selects changed. -/
def State.onChains (s : State) (f : Chain → Bool) (g : Chain → Chain) : State :=
  let h (c : Nat × Chain) : Nat × Chain := if f c.2 then (c.1, g c.2) else c
  { s with lane := { s.lane with chains := s.lane.chains.map h, oldChains := s.lane.oldChains.map h } }

/-- Records of a queue's ended jobs, in the order they were taken, while its completion ring has room (R219). -/
def State.laneFlush (q : Nat) : Nat → State → State
  | 0, s => s
  | n + 1, s =>
    match s.lane.jobs.find? fun x => x.queue == q with
    | none => s
    | some x =>
      match x.out with
      | none => s
      | some (units, reason) =>
        if s.qFull .lane q then s
        else
          let s := { s with lane := { s.lane with jobs := s.lane.jobs.filter fun y => y.id != x.id } }
          let d := x.desc.getD []
          let s := if reason = 0 then s.qComplete .lane q x.index d units x.fails false (some x.due)
            else s.qRefuse .lane q x.index d reason (some x.due)
          State.laneFlush q n s

/-- A descriptor has ended: a chain it is the last of has ended, and closes where its queue has gone on (R204). -/
def State.markChain (s : State) (id : Nat) : State :=
  (s.onChains (·.last == some id) fun c => { c with ended := true }).closeOld (·.2.ended)

/-- A KV ring counts a completed descriptor of its lane queue (R340). -/
def State.countRing (s : State) (q : Nat) : State :=
  let f (x : ColJob) : ColJob :=
    if fieldLE x.desc 0 1 == 0x36 && fieldLE x.desc 35 1 == q then { x with laneDone := x.laneDone + 1 } else x
  { s with col := { s.col with jobs := s.col.jobs.map f } }

/-- A descriptor pins a page that a SEQ-mode beat or a GATHER-POOL fetch of its own translates, once, until the data have come (R212,
R276). -/
def State.jobPin (s : State) (id p pg : Nat) : State :=
  if s.lane.pins.contains (id, pageKey p pg) then s
  else { s.pin p pg with lane := { (s.pin p pg).lane with pins := s.lane.pins ++ [(id, pageKey p pg)] } }

/-- The first page of a byte range at which a descriptor stalls: its pins are all taken, and none is its own (R276). -/
def State.jobStalls (s : State) (id p a n : Nat) : Bool :=
  (List.range (if n = 0 then 0 else (a + n - 1) / frameSize - a / frameSize + 1)).any fun i =>
    let pg := a / frameSize + i
    s.pinsFull p pg && !s.lane.pins.contains (id, pageKey p pg)

/-- A descriptor's pins end: what it fetched has come, or it has ended. -/
def State.jobUnpin (s : State) (id : Nat) : State :=
  let mine := s.lane.pins.filter (·.1 == id)
  let s := { s with lane := { s.lane with pins := s.lane.pins.filter (·.1 != id) } }
  mine.foldl (fun s e => s.unpin (e.2 / 2 ^ 24) (e.2 % 2 ^ 24)) s

/-- Sets are held for a descriptor's length: when it ends, none waits to be swapped in on its rows, and nothing stands in their drain
FIFOs (R179, R207). -/
def State.clearSets (s : State) (j : LaneJob) : State :=
  if !j.begun then s
  else
    let rows := s.lane.rows.map fun e => if j.rows.contains e.1 then (e.1, { e.2 with loaded := false, fifo := [] }) else e
    { s with lane := { s.lane with rows := rows.filter fun e => e.2 != ⟨[], [], false, [], [], false⟩ } }

/-- A job ends: its pages are let go, its chain is marked when it was the last of it, its record follows in its turn; a KV
ring of its queue counts it (R204, R218, R340). -/
def State.laneEnd (s : State) (j : LaneJob) (units reason : Nat) : State :=
  let s := (s.unholdPages j.held).jobUnpin j.id
  let s := (s.clearSets j).setLaneJob { j with held := [], out := some (units, reason) }
  let s := (s.markChain j.id).countRing j.queue
  State.laneFlush j.queue s.lane.jobs.length s

/-- LCLK cycles of a descriptor's span left to its work: what it stood waiting in the span is lost (R198). -/
def LaneJob.room (j : LaneJob) : Nat := 256 * j.span - j.starved

/-- Cycles of a job whose rows work for `tots` cycles each (no entry for a row that does nothing), of which `retired`, `back` and `front`
are classed so: the rest of a row's time in the span is wasted, and what a row does not work of the cycles needed beyond the span, for
which the plan holds, is front-starved (R182, R198). -/
def State.laneTime (s : State) (j : LaneJob) (tots : List Nat) (retired back front : Nat) : State :=
  let n := j.rows.length
  let tots := tots ++ List.replicate (n - tots.length) 0
  let owed := tots.foldl max 0 - j.room
  let s := (s.rowCycles j.part 0 retired).active j.activityKind retired
  let s := s.rowCycles j.part 3 back
  let s := s.rowCycles j.part 2 (front + (tots.map fun t => owed - (t - j.room)).sum)
  let s := s.rowCycles j.part 1 (tots.sum - retired - back - front + (tots.map fun t => j.room - t).sum)
  if owed = 0 then s
  else { s with plans := modifyAt (fun x => { x with hold := x.hold ++ [(j.stop, owed, n)] }) j.part s.plans }

/-- A descriptor ends with no work done: what is left of its span is wasted (R182, R198). -/
def State.laneWaste (s : State) (j : LaneJob) : State := s.laneTime j [] 0 0 0

/-! ### The check (R200) -/

/-- Whether a run of the queue's partition is in its pages, and not on master pages when it is a destination. -/
def State.runOk (s : State) (p a n : Nat) (dst : Bool) : Bool := s.runInMap p a n && !(dst && s.runMaster p a n)

/-- A destination's address within its space, and its bytes fit: `mode` 0 lane drain share, 1 partition page. -/
def drainOk (share : Nat × Nat) (off n : Nat) : Bool := decide (off + n ≤ share.2)

/-- Fields of STREAM-MM (R202). -/
abbrev smMode (d : List Byte) : Nat := fieldLE d 8 1
abbrev smFmt (d : List Byte) : Nat := fieldLE d 9 1
abbrev smK (d : List Byte) : Nat := fieldLE d 24 4
abbrev smFirst (d : List Byte) : Nat := fieldLE d 28 4
abbrev smCount (d : List Byte) : Nat := fieldLE d 32 4
abbrev smStatFmt (d : List Byte) : Nat := fieldLE d 44 1
abbrev smBatch (d : List Byte) : Nat := fieldLE d 45 1
abbrev smSets (d : List Byte) : Nat := fieldLE d 46 1
abbrev smSplit (d : List Byte) : Nat := fieldLE d 47 1
abbrev smDstMode (d : List Byte) : Nat := fieldLE d 52 1
abbrev smOut (d : List Byte) : Nat := fieldLE d 53 1

/-- Bytes of a stationary element. -/
def statSize (f : Nat) : Nat := if f = 5 then 2 else 1

/-- The layer a LAYER-mode descriptor reads. -/
def State.smLayer (s : State) (p : Nat) (d : List Byte) : List Byte := s.layerDesc p (fieldLE d 10 2)

/-- Address of the operand and of its scale area: partition address, or sequence address in SEQ mode (R203). -/
def State.smBase (s : State) (p buf : Nat) (d : List Byte) : Nat × Nat :=
  match genFmtOf (smFmt d) with
  | none => (0, 0)
  | some f =>
    if smMode d = 0 then
      let l := s.smLayer p d
      let b := ldAddr l (if buf = 0 then 20 else 24)
      (b, b + genScaleOff f (ldCount l))
    else if smMode d = 1 then (ldAddr d 12, ldAddr d 12 + genScaleOff f (fieldLE d 20 4))
    else (ldAddr d 12, 0)

/-- Runs of the partition's pages a LAYER or PAGE operand lies in. -/
def State.smRuns (s : State) (p buf : Nat) (d : List Byte) : List (Nat × Nat) :=
  match genFmtOf (smFmt d) with
  | none => []
  | some f =>
    if smMode d = 2 then []
    else
      let (b, sc) := s.smBase p buf d
      let w := f.grid.2.2.2
      [(b + w * (smFirst d * smK d) / 8, w * (smCount d * smK d) / 8)]
        ++ (if f.scaled then [(sc + smFirst d * smK d / 32, smCount d * smK d / 32)] else [])

/-- Pages of a sequence that a SEQ operand lies in, as the KV table names them, and the entries of the table that name them. -/
def State.seqRuns (s : State) (p : Nat) (d : List Byte) : List (Nat × Nat) :=
  match genFmtOf (smFmt d) with
  | none => []
  | some f =>
    let w := f.grid.2.2.2
    let a := ldAddr d 12 + w * (smFirst d * smK d) / 8
    let n := w * (smCount d * smK d) / 8
    (List.range (if n = 0 then 0 else (a + n - 1) / frameSize - a / frameSize + 1)).flatMap fun i =>
      let k := s.kvEntryAddr p (fieldLE d 16 4) (a / frameSize + i)
      let e := ofLE (s.peek p k 4)
      (k, 4) :: if bit e 31 then [(e % 2 ^ 24 * frameSize, frameSize)] else []

/-- Bytes from one sample's results to the next (R209): in the lane drain region a sample begins at a multiple of 64, as a stationary
block does (log entry 66: DEDUCED). -/
def smStride (d : List Byte) : Nat :=
  let n := smCount d * outSize (smOut d)
  if smDstMode d = 0 then roundUp n 64 else n

/-- Bytes of the block of results. -/
def smBytes (d : List Byte) : Nat := (smBatch d - 1) * smStride d + smCount d * outSize (smOut d)

/-- K-width of a consume point's rows. -/
def State.jobWidth (s : State) (rows : List Nat) : Nat := s.rowWidth (rows.headD 0)

/-- First reason for which a STREAM-MM is refused past the common head, 0 when it is not. -/
def State.smReason (s : State) (j : LaneJob) (buf : Nat) (d : List Byte) : Nat :=
  let p := j.part
  let w := max 1 (s.jobWidth j.rows)
  let t := ceilDiv (smK d) w
  let n := smBytes d
  let share := s.drainShare (s.seatOf p)
  let layerOk := fieldLE d 10 2 < s.fget F.UPD_LTAB_COUNT_COUNT p ∧ crcOk (s.smLayer p d) 60 = true ∧
    (smFirst d + smCount d) * smK d ≤ ldCount (s.smLayer p d)
  let scaled := smFmt d = 1 ∨ smFmt d = 2
  if 2 ^ 28 ≤ fieldLE d 12 4 ∨ 2 ^ 22 ≤ fieldLE d 36 4 ∨ (smDstMode d = 0 ∧ 2 ^ 22 ≤ fieldLE d 48 4) ∨
      (smDstMode d = 1 ∧ 2 ^ 28 ≤ fieldLE d 48 4) ∨ descZero d 54 6 = false then 1
  else if ((smMode d = 1 ∨ (smMode d = 0 ∧ layerOk)) ∧ (s.smRuns p buf d).any (fun r => !s.runOk p r.1 r.2 false) = true) ∨
      (smDstMode d = 1 ∧ s.runOk p (ldAddr d 48) n true = false) then 3
  else if 2 < smMode d ∨ smFmt d = 0 ∨ 5 < smFmt d ∨ smK d = 0 ∨ 2 ^ 24 < smK d ∨ smCount d = 0 ∨ 2 ^ 24 < smCount d ∨
      (scaled ∧ (smK d % 32 ≠ 0 ∨ smMode d = 2)) ∨ smStatFmt d < 3 ∨ 5 < smStatFmt d ∨ smBatch d = 0 ∨ 32 < smBatch d ∨
      smSets d = 0 ∨ 2 < smSets d ∨ smSplit d = 0 ∨ 64 < smSplit d ∨ smSplit d ≠ j.split ∨ 1 < smDstMode d ∨
      (smOut d ≠ 0 ∧ smOut d ≠ 3 ∧ smOut d ≠ 5) ∨ fieldLE d 36 4 % 64 ≠ 0 ∨ fieldLE d 40 4 % 64 ≠ 0 ∨
      smSets d < ceilDiv t (smSplit d) ∨ j.rows.length < smSplit d ∨ j.rows.any (fun r => decide (s.rowBatch r < smBatch d)) = true ∨
      (smMode d = 0 ∧ ¬ layerOk) ∨ (smMode d = 1 ∧ scaled ∧ fieldLE d 20 4 < (smFirst d + smCount d) * smK d) then 4
  else if smMode d = 0 ∧ (ldGenFmt (s.smLayer p d) = 0 ∨ ldGenFmt (s.smLayer p d) ≠ smFmt d) then 5
  else if drainOk share (fieldLE d 36 4) ((smBatch d - 1) * fieldLE d 40 4 + smK d * statSize (smStatFmt d)) = false ∨
      (smDstMode d = 0 ∧ drainOk share (fieldLE d 48 4) n = false) then 6
  else 0

/-- Fields of GATHER-POOL (R210). -/
abbrev gpRows (d : List Byte) : Nat := fieldLE d 12 4
abbrev gpDim (d : List Byte) : Nat := fieldLE d 16 2
abbrev gpFmt (d : List Byte) : Nat := fieldLE d 18 1
abbrev gpPool (d : List Byte) : Nat := fieldLE d 19 1
abbrev gpStride (d : List Byte) : Nat := fieldLE d 20 4
abbrev gpIndexCount (d : List Byte) : Nat := fieldLE d 28 4
abbrev gpBags (d : List Byte) : Nat := fieldLE d 36 4
abbrev gpDstMode (d : List Byte) : Nat := fieldLE d 48 1
abbrev gpOut (d : List Byte) : Nat := fieldLE d 49 1

/-- Whether a GATHER-POOL's results fit the lane drain region, when they go there (reason 0x6 of R200). -/
def State.gpFits (s : State) (j : LaneJob) (d : List Byte) : Bool :=
  gpDstMode d != 0 || drainOk (s.drainShare (s.seatOf j.part)) (fieldLE d 44 4) (gpBags d * gpDim d * outSize (gpOut d))

/-- First reason for which a GATHER-POOL is refused past the common head, but for its offsets and what stands after them. -/
def State.gpReason (s : State) (j : LaneJob) (d : List Byte) : Nat :=
  let p := j.part
  let n := gpBags d * gpDim d * outSize (gpOut d)
  let size := outSize (gpFmt d)
  if [8, 24, 32, 40].any (fun o => decide (2 ^ 28 ≤ fieldLE d o 4)) = true ∨ (gpDstMode d = 0 ∧ 2 ^ 22 ≤ fieldLE d 44 4) ∨
      (gpDstMode d = 1 ∧ 2 ^ 28 ≤ fieldLE d 44 4) ∨ descZero d 50 10 = false then 1
  else if s.runOk p (ldAddr d 8) (gpRows d * gpStride d) false = false ∨
      s.runOk p (ldAddr d 24) (4 * gpIndexCount d) false = false ∨ s.runOk p (ldAddr d 32) (4 * (gpBags d + 1)) false = false ∨
      (fieldLE d 40 4 ≠ 0 ∧ s.runOk p (ldAddr d 40) (4 * gpIndexCount d) false = false) ∨
      (gpDstMode d = 1 ∧ s.runOk p (ldAddr d 44) n true = false) then 3
  else if gpDim d = 0 ∨ 1024 < gpDim d ∨ (gpFmt d ≠ 0 ∧ (gpFmt d < 3 ∨ 5 < gpFmt d)) ∨ 2 < gpPool d ∨ gpStride d % 64 ≠ 0 ∨
      gpStride d < gpDim d * size ∨ gpBags d = 0 ∨ 2 ^ 24 < gpBags d ∨ (fieldLE d 40 4 ≠ 0 ∧ gpPool d = 2) ∨ 1 < gpDstMode d ∨
      (gpOut d ≠ 0 ∧ gpOut d ≠ 3 ∧ gpOut d ≠ 5) ∨ j.rows.length < ceilDiv (gpDim d) 32 then 4
  else 0

/-- Fields of REDUCE-ADD (R213). -/
abbrev raFrag (d : List Byte) : Nat := fieldLE d 8 2
abbrev raFmt (d : List Byte) : Nat := fieldLE d 10 1
abbrev raMode (d : List Byte) : Nat := fieldLE d 11 1
abbrev raCount (d : List Byte) : Nat := fieldLE d 16 4
abbrev raFlag (d : List Byte) : Nat := fieldLE d 20 2
abbrev raSize (d : List Byte) : Nat := if raFmt d = 0 then 4 else 2

/-- First reason for which a REDUCE-ADD is refused past the common head. -/
def State.raReason (s : State) (j : LaneJob) (d : List Byte) : Nat :=
  let p := j.part
  let n := raCount d * raSize d
  if (raMode d = 0 ∧ 2 ^ 23 ≤ fieldLE d 12 4) ∨ (raMode d = 1 ∧ 2 ^ 28 ≤ fieldLE d 12 4) ∨ descZero d 22 38 = false then 1
  else if raMode d = 1 ∧ s.runOk p (ldAddr d 12) n true = false then 3
  else if 4095 < raFrag d ∨ (raFmt d ≠ 0 ∧ raFmt d ≠ 5) ∨ 1 < raMode d ∨ raCount d = 0 ∨ 2 ^ 26 < raCount d ∨
      (1023 < raFlag d ∧ raFlag d ≠ 0xFFFF) then 4
  else if raMode d = 0 ∧ drainOk (s.stageShare (s.seatOf p)) (fieldLE d 12 4) n = false then 6
  else 0

/-- The check of a lane descriptor (R200). -/
def State.laneReason (s : State) (j : LaneJob) (buf : Nat) (d : List Byte) : Nat :=
  if !descHeadOk d true then 1
  else if fieldLE d 0 1 ≠ j.kind then 2
  else match j.kind with
    | 1 => s.smReason j buf d
    | 2 => s.gpReason j d
    | _ => s.raReason j d

/-- What a STREAM-MM, a GATHER-POOL reads and writes on its partition's pages, and a REDUCE-ADD but for its fragment (R261). -/
def State.smUses (s : State) (j : LaneJob) (d : List Byte) : List (Nat × Nat) :=
  s.smRuns j.part j.buf d ++ (if smMode d = 2 then s.seqRuns j.part d else [])
    ++ (if smDstMode d = 1 then [(ldAddr d 48, smBytes d)] else [])
def gpUses (d : List Byte) : List (Nat × Nat) :=
  [(ldAddr d 8, gpRows d * gpStride d), (ldAddr d 24, 4 * gpIndexCount d), (ldAddr d 32, 4 * (gpBags d + 1))]
    ++ (if fieldLE d 40 4 ≠ 0 then [(ldAddr d 40, 4 * gpIndexCount d)] else [])
    ++ (if gpDstMode d = 1 then [(ldAddr d 44, gpBags d * gpDim d * outSize (gpOut d))] else [])
def raUses (d : List Byte) : List (Nat × Nat) := if raMode d = 1 then [(ldAddr d 12, raCount d * raSize d)] else []

/-- The pages of a descriptor just taken. -/
def State.laneUses (s : State) (j : LaneJob) (d : List Byte) : List (Nat × Nat) := match j.kind with
  | 1 => s.smUses j d
  | 2 => gpUses d
  | _ => raUses d

/-! ### Consume points (R194, R195) -/

/-- The tail as it stood one slot ago. -/
def State.seenTail (s : State) (q : Nat) : Nat :=
  ((((alGet s.lane.tails q).getD []).find? fun x => s.slotAfter x.1 s.tick.hall).map (·.2)).getD 0

/-- A tail value written: what is older than the newest visible one is dropped. -/
def State.noteTail (s : State) (q v : Nat) : State :=
  let l := (alGet s.lane.tails q).getD []
  let young := l.takeWhile fun x => !s.slotAfter x.1 s.tick.hall
  let l := (s.tick.hall, v) :: young ++ (l.drop young.length).take 1
  { s with lane := { s.lane with tails := alPut s.lane.tails q l } }

/-- A class-0 read for a lane descriptor, in cycles that its span reserves for a user (R507). -/
def State.laneRead (s : State) (j : LaneJob) (user p a n : Nat) : State × UpdRead := s.slotRead user (j.stop - j.span) j.stop p a n

/-- The descriptor of a job read and checked; nothing while its page is on its way (R194, R200, R261). -/
def State.laneFetch (s : State) (j : LaneJob) : State :=
  match s.laneRead j 4 j.part (s.fget (QKind.base .lane) j.queue * 4096 + 64 * j.index) 64 with
  | (s, .wait) => s.setLaneJob { j with wait := true }
  | (s, .ok bs) =>
    let d := bs.map (·.getD 0xFF)
    let s := s.leaveChain j.queue
    let open_ := s.chain? j.queue
    let buf := match open_ with
      | some c => c.buf
      | none => s.fget F.UPD_FLIP_STAT_CUR j.part
    let r := s.laneReason j buf d
    let next := bit (fieldLE d 2 1) 0
    let pass := fieldLE d 0 1 == 1 && smMode d == 0
    let opens : Bool := open_.isNone && ((r = 0 ∧ (next || pass) = true) ∨ (r ≠ 0 ∧ r ≠ 1 ∧ next = true))
    let s := if opens then s.openChain j.queue j.part j.id else s
    let j := { j with desc := some d, buf := buf, chain := (s.chain? j.queue).map (·.id) }
    let s := s.setLaneJob j
    let s := if next then s else s.onChains (fun c => j.chain == some c.id) fun c => { c with last := some j.id }
    let s := if r = 0 ∧ pass = true then s.onChains (fun c => j.chain == some c.id) fun c => { c with pass := true } else s
    if r = 0 then
      let (s, ks) := s.holdPages j.part (s.laneUses j d)
      s.setLaneJob { j with held := ks }
    else (s.laneWaste j).laneEnd j 0 r

/-- A descriptor just taken at a consume point, still to be read. -/
def LaneJob.taken (id q p index kind split : Nat) (rows : List Nat) (span stop due plan : Nat) : LaneJob :=
  { id := id, queue := q, part := p, index := index, kind := kind, split := split, rows := rows, span := span, stop := stop, due := due,
    plan := plan, desc := none, begun := false, buf := 0, late := false, pos := 0, drained := 0, badLanes := [], todo := [], poison := [], fails := [],
    held := [], out := none, wait := false, starved := 0, cyc := [], direct := 0, chain := none }

/-- Rows of trios `first` to `last`. -/
def pointRows (first last : Nat) : List Nat :=
  (List.range (last + 1 - first)).flatMap fun i => [3 * (first + i), 3 * (first + i) + 1, 3 * (first + i) + 2]

/-- Whether rows start nothing new for a queue (R186, R187): none does while the partition waits for a plan of the new class, nor on a
row with no work or a change pending, but for a generator pass of the queue, which runs on with the lanes it had on its own rows
(R189). -/
def State.laneHeld (s : State) (p q : Nat) (rows : List Nat) : Bool :=
  let runsOn (r : Nat) : Bool := match s.chain? q with
    | some c => c.pass && c.last.isNone && c.rows.contains r
    | none => false
  ((s.plans[p]?).any fun x => x.barred) || rows.any fun r => s.rowNoWork r || !(runsOn r || s.rowTakes p r)

/-- A consume point (R194, R195): `stop` is the plan slot after its span. Rows that wait for a change take nothing, but for a
pass that runs on with the lanes it had (R186); only a RESIDENT partition takes descriptors (R371, R375). -/
def State.consume (s : State) (p q kind split first last span stop : Nat) : State :=
  let rows := pointRows first last
  let wasted (s : State) : State := s.rowCycles p 1 (256 * span * rows.length)
  let head := s.fget (QKind.head .lane) q
  if s.fget F.PTC_STAT_STATE p ≠ 2 ∨ s.qPart .lane q ≠ p ∨ s.laneHeld p q rows = true then wasted s
  else if s.flag (QKind.enable .lane) q = false ∨ head = s.fget (QKind.tail .lane) q ∨ head = s.seenTail q then
    wasted ((s.bump F.LNP_EMPTY_CNT_COUNT).set1 F.LNP_Q_STAT_EMPTY_SEEN q)
  else if s.qFull .lane q then wasted (s.bump F.LNP_CFULL_CNT_COUNT)
  else
    let j := LaneJob.taken s.lane.nextJob q p head kind split rows span stop (s.dueOf p) (s.planId p)
    let s := s.qTake .lane q
    let s := { s with lane := { s.lane with jobs := s.lane.jobs ++ [j], nextJob := s.lane.nextJob + 1 } }
    s.laneFetch j

/-! ### Late operands (R216, R217) -/

/-- What a beat's read gives. -/
structure Beat where
  bytes : List (Option Byte)
  late : Bool
  /-- whether a page of it was not resident, whatever the policy (R216) -/
  met : Bool
  /-- status of a page that lies nowhere, 0 when there is none -/
  st : Nat
  /-- bytes of it read on the external tier port (R217) -/
  direct : Nat
  deriving DecidableEq, Repr

/-- Nothing read yet. -/
def Beat.none : Beat := ⟨[], false, false, 0, 0⟩

/-- A piece of a beat that gives bytes; that must wait; that is refused with a status, a page that lies nowhere being late (R216). -/
def Beat.data (b : Beat) (bs : List (Option Byte)) (direct : Nat) : Beat :=
  { b with bytes := b.bytes ++ bs, met := b.met || direct != 0, direct := b.direct + direct }
def Beat.wait (b : Beat) (n : Nat) (met : Bool) : Beat :=
  { b with bytes := b.bytes ++ List.replicate n Option.none, late := true, met := b.met || met }
def Beat.fail (b : Beat) (n st : Nat) : Beat :=
  { b with bytes := b.bytes ++ List.replicate n Option.none, met := b.met || st == 9, st := if b.st = 0 then st else b.st }

/-- Two runs of a beat joined. -/
def Beat.join (b c : Beat) : Beat :=
  ⟨b.bytes ++ c.bytes, b.late || c.late, b.met || c.met, if b.st = 0 then c.st else b.st, b.direct + c.direct⟩

/-- Bytes fetched on the external tier port, counted in KiB (R217). -/
def State.countDirect (s : State) (n : Nat) : State :=
  let t := s.lane.directRem + n
  let s := { s with lane := { s.lane with directRem := t % 1024 } }
  if t / 1024 = 0 then s else s.bump F.LNP_DIRECT_KB_KIB 0 (t / 1024)

/-- Whether a run of a partition's bytes lies in a landing buffer of a KV ring whose block, the next one its readers work on, has
not landed or is still being written (R341). -/
def State.kvLate (s : State) (p a n : Nat) : Bool :=
  s.col.jobs.any fun x =>
    let d := x.desc
    let e := fieldLE d 12 4
    let t := x.laneDone / max 1 (fieldLE d 38 2) + 1
    let in_ (b k : Nat) : Bool := decide (a < b + k) && decide (b < a + n)
    fieldLE d 0 1 == 0x36 && x.part == p && x.ended.isNone && ([t, t + 1].any fun k =>
      decide (k < x.n) && decide (x.rcv ≤ k) && in_ (ldAddr d 24 + k % 2 * roundUp e 65536) e) ||
    (fieldLE d 0 1 == 0x36 && x.part == p && x.todo.any fun w => in_ w.addr w.bytes.length)

/-- A STREAM-MM read by partition address, in cycles that its span reserves for the lane feed (R216, R260, R507). -/
def State.beatRead (s : State) (j : LaneJob) (a n : Nat) : State × Beat :=
  let p := j.part
  let direct := s.flag F.LNF_LATE_POLICY_POLICY p
  (granules a n).foldl (fun acc g =>
    let (s, b) := acc
    match s.bankTurns p 1 (s.bankRun p g.1 g.2 false) (j.stop - j.span) j.stop with
    | (s, false) => (s, b.wait g.2 false)
    | (s, true) =>
    match s.pageRead 0 p g.1 g.2 with
    | (s, .data bs) => (s, b.data bs 0)
    | (s, .refused st) => (s, b.fail g.2 st)
    | (s, .late) =>
      let pg := g.1 / frameSize
      let d := s.pme p pg
      if direct ∧ s.effState p pg d = PgT2 then
        let (s, r) := s.readTier .t2 (d.frame * frameSize + g.1 % frameSize) g.2
        (s, b.data r.bytes g.2)
      else (s.lateMove p pg, b.wait g.2 true)
    | (s, _) => (s, b.wait g.2 false)) (s, Beat.none)

/-- A STREAM-MM read by sequence address: each page translated and pinned, stalled while its pins are all taken (R203, R276). -/
def State.seqRead (s : State) (j : LaneJob) (q a n : Nat) : State × Beat :=
  let id := j.id
  let p := j.part
  let pieces := (List.range (if n = 0 then 0 else (a + n - 1) / frameSize - a / frameSize + 1)).map fun i =>
    let lo := if i = 0 then a else (a / frameSize + i) * frameSize
    (lo, min (a + n) ((a / frameSize + i + 1) * frameSize) - lo)
  pieces.foldl (fun acc g =>
    let (s, b) := acc
    match s.seqLookup p q (g.1 / frameSize) with
    | (s, .page pg) =>
      if s.jobStalls id p (pg * frameSize) 1 then (s.pinStall (.lane id), b.wait g.2 false)
      else if s.kvLate p (pg * frameSize + g.1 % frameSize) g.2 then (s, b.wait g.2 true)
      else
        let (s, c) := ((s.pinGo (.lane id)).jobPin id p pg).beatRead j (pg * frameSize + g.1 % frameSize) g.2
        (s, b.join c)
    | (s, .invalid) => (s.bump F.XLT_GONE_CNT_COUNT, b.fail g.2 9)
    | (s, .wait) => (s, b.wait g.2 false)) (s, Beat.none)

/-- A read of STREAM-MM's operand in its mode. -/
def State.smRead (s : State) (j : LaneJob) (d : List Byte) (a n : Nat) : State × Beat :=
  if smMode d = 2 then s.seqRead j (fieldLE d 16 4) a n
  else if s.kvLate j.part a n then (s, Beat.none.wait n true)
  else s.beatRead j a n

/-! ### Results -/

/-- Units a write of a job holds: one, but for REDUCE-ADD's runs of elements. -/
def LaneJob.unitsOf (j : LaneJob) (y : Nat × List (Option Byte) × Nat) : List Nat :=
  if j.kind = 3 then (List.range (y.2.1.length / raSize (j.desc.getD []))).map (· + y.2.2) else [y.2.2]

/-- Units failed with a status, those that have already failed aside. -/
def failAll (fails : List (Nat × Nat)) (us : List Nat) (st : Nat) : List (Nat × Nat) :=
  us.foldl (fun l u => if (alGet l u).isSome then l else alPut l u st) fails

/-- Writes of results made in order until one must wait; refused ones fail their units (R218, R260). -/
def State.laneWrites (s : State) (j : LaneJob) : List (Nat × List (Option Byte) × Nat) → List (Nat × Nat) → State × LaneJob
  | [], fails => (s, { j with todo := [], fails := fails })
  | y :: ys, fails =>
    match s.bankTurns j.part 2 (s.bankRun j.part y.1 y.2.1.length true) (j.stop - j.span) j.stop with
    | (s, false) => (s, { j with todo := y :: ys, fails := fails })
    | (s, true) =>
      match s.writeRange (.lane j.id) j.part y.1 j.due y.2.1 with
      | (s, .wait) => (s, { j with todo := y :: ys, fails := fails })
      | (s, .refused st) => State.laneWrites s j ys (failAll fails (j.unitsOf y) st)
      | (s, _) => State.laneWrites s j ys fails

/-- What stands to be written is written; poison follows the writes of its sectors. -/
def State.laneSettle (s : State) (j : LaneJob) : State × LaneJob :=
  match s.laneWrites j j.todo j.fails with
  | (s, j) =>
    if j.todo.isEmpty then (j.poison.foldl (fun s k => s.poisonAt (.lane j.id) j.part (64 * k)) s, { j with poison := [] })
    else (s, j)

/-- A result value, none where poisoned, put at a byte offset of its destination; its unit fails with a status. -/
def State.putResult (s : State) (j : LaneJob) (mode base off fmt : Nat) (v : Option Nat) (unit st : Nat) : State × LaneJob :=
  let size := outSize fmt
  let (bs, sat) := match v with
    | some v => let r := laneOut fmt v; (r.1.map some, r.2)
    | none => (List.replicate size none, false)
  let s := if sat then s.bump F.LNF_SAT_CNT_COUNT else s
  let j := if v.isNone ∧ (alGet j.fails unit).isNone then { j with fails := alPut j.fails unit st } else j
  if mode = 0 then (s.t0Write (base + off) bs, j)
  else if v.isSome then (s, { j with todo := j.todo ++ [(base + off, bs, unit)] })
  else (s, { j with poison := nsAdd (nsAdd j.poison ((base + off) / 64)) ((base + off + size - 1) / 64) })

/-- Address of a destination: T0 byte, or partition address. -/
def State.dstBase (s : State) (p mode : Nat) (d : List Byte) (off : Nat) : Nat :=
  if mode = 0 then (s.drainShare (s.seatOf p)).1 + fieldLE d off 4 else ldAddr d off

/-! ### STREAM-MM (R202–R209) -/

/-- K steps of the r-th row of a split (R177). -/
def rowSteps (t split r : Nat) : List Nat := (List.range ((r + 1) * t / split - r * t / split)).map (· + r * t / split)

/-- An idle row. -/
def LaneRow.idle : LaneRow := ⟨[], [], false, [], [], false⟩

def State.row (s : State) (r : Nat) : LaneRow := (alGet s.lane.rows r).getD LaneRow.idle

def State.setRow (s : State) (r : Nat) (x : LaneRow) : State :=
  { s with lane := { s.lane with rows := spSet (fun _ => LaneRow.idle) s.lane.rows r x } }

/-- The active and the shadow set. -/
def LaneRow.active (x : LaneRow) : List (List Nat) := if x.bActive then x.setB else x.setA
def LaneRow.shadow (x : LaneRow) : List (List Nat) := if x.bActive then x.setA else x.setB

/-- A set load writes the shadow set, which then waits to be swapped in (R171, R173). -/
def LaneRow.load (x : LaneRow) (set : List (List Nat)) : LaneRow :=
  if x.bActive then { x with setA := set, loaded := true } else { x with setB := set, loaded := true }

/-- A swap (R172). -/
def LaneRow.swap (x : LaneRow) : LaneRow := { x with bActive := !x.bActive, loaded := false }

/-- A row loads the sets of its steps, at most two: the first becomes active (R207). -/
def LaneRow.loadSteps (x : LaneRow) : List (List (List Nat)) → LaneRow
  | [] => x
  | [a] => (x.load a).swap
  | a :: b :: _ => ((x.load a).swap).load b

/-- A row's steps of one output: accumulators of the lanes in use, then its drain entry, poisoned lanes none (R174–R176, R179,
R207). -/
def LaneRow.output (x : LaneRow) (af : GenFmt) (w b : Nat) (vs : List (List Num)) (bad : List Nat) : LaneRow :=
  let lane (set : List (List Nat)) (v : List Num) (l : Nat) : Nat := stepSum af w (set.getD l []) v
  let acc := (List.range 32).map fun l =>
    if l < b then
      match vs with
      | [] => 0
      | [v] => lane x.active v l
      | v :: u :: _ => f32Add (lane x.active v l) (lane x.shadow u l)
    else 0
  let x := if vs.length = 2 then x.swap.swap else x
  { x with acc := acc, fifo := x.fifo ++ [(List.zipIdx acc).map fun v => if bad.contains v.2 then none else some v.1] }

/-- Whether a row's FIFO is full, so that the row holds (R179). -/
def LaneRow.full (x : LaneRow) : Bool := decide (4 ≤ x.fifo.length)

/-- The drain port of a trio moves one entry, taking the rows in turn (R179): the row it came from, and the entry. -/
def State.drainPort (s : State) (t : Nat) : State × Option (Nat × List (Option Nat)) :=
  let first := (alGet s.lane.turns t).getD 0
  let rows := (List.range 3).map fun i => 3 * t + (first + i) % 3
  match rows.find? fun r => !(s.row r).fifo.isEmpty with
  | none => (s, none)
  | some r =>
    let x := s.row r
    let s := s.setRow r { x with fifo := x.fifo.drop 1 }
    ({ s with lane := { s.lane with turns := spSet (fun _ => 0) s.lane.turns t ((r + 1) % 3) } }, some (r, x.fifo.headD []))

/-- A trio's FIFOs drained: what came of each row, in order. -/
def State.drainTrio (t : Nat) : Nat → State → State × List (Nat × List (Option Nat))
  | 0, s => (s, [])
  | n + 1, s =>
    match s.drainPort t with
    | (s, none) => (s, [])
    | (s, some e) => let r := State.drainTrio t n s; (r.1, e :: r.2)

/-- The stationary block of a STREAM-MM read from the lane drain share: codes by sample, and samples met with poison. -/
def State.smStat (s : State) (p : Nat) (d : List Byte) : List (List Nat) × List Nat :=
  let size := statSize (smStatFmt d)
  let base := (s.drainShare (s.seatOf p)).1 + fieldLE d 36 4
  let rows := (List.range (smBatch d)).map fun l => s.t0Read (base + l * fieldLE d 40 4) (smK d * size)
  (rows.map fun r => codesOf (8 * size) (r.map fun b => (b.getD 0).toNat),
   (List.zipIdx rows).filterMap fun r => if r.1.any (·.isNone) then some r.2 else none)

/-- Rows of a STREAM-MM that work: whole split groups (R206). -/
def LaneJob.used (j : LaneJob) (d : List Byte) : List Nat := j.rows.take (j.rows.length / smSplit d * smSplit d)

/-- Whether a row's sets must not be loaded yet: another descriptor works with them, or a loaded set has not been swapped in
(R173, R207). -/
def State.setHeld (s : State) (j : LaneJob) (r : Nat) : Bool :=
  (s.row r).loaded || s.lane.jobs.any fun x => x.id != j.id && x.kind == 1 && x.begun && x.out.isNone && x.rows.contains r

/-- A STREAM-MM begins: every working row loads its sets (R171, R206, R207). -/
def State.smBegin (s : State) (j : LaneJob) (d : List Byte) : State × LaneJob :=
  let w := max 1 (s.jobWidth j.rows)
  let t := ceilDiv (smK d) w
  let (stat, bad) := s.smStat j.part d
  let used := j.used d
  let s := (List.zipIdx used).foldl (fun s r =>
    let sets := (rowSteps t (smSplit d) (r.2 % smSplit d)).map fun k => stat.map fun e => padTo w 0 ((e.drop (k * w)).take w)
    s.setRow r.1 ((s.row r.1).loadSteps sets)) s
  (s, { j with begun := true, badLanes := bad })

/-- A reserved T2 code met by a row (R165). -/
def State.fmtFault (s : State) (j : LaneJob) (r n : Nat) : State :=
  if n = 0 then s
  else
    let s := (s.bump F.LNF_FMT_FAULT_CNT_COUNT 0 n).irq Page.LNF 3
    if s.lane.fmtRows.contains r then s
    else
      let s := { s with lane := { s.lane with fmtRows := nsAdd s.lane.fmtRows r } }
      s.logErr { block := Page.LNF, code := 0x0203, sev := 0, part := some j.part, detail := [r, 0, j.queue * 65536 + j.index, j.plan] }

/-- The faults of a command that strike a row and output (R183): what they count, and the lanes they poison. -/
def State.laneFaults (s : State) (j : LaneJob) (r o : Nat) (fs : List LaneFault) : State × List Nat :=
  fs.foldl (fun acc f =>
    let (s, bad) := acc
    let hit (cnt : Fld) (code lanes : Nat) (own : Bool) : State :=
      let s := (s.bump cnt).irq Page.LNF 0
      let s := if own then s.set1 F.LNF_ROW_STAT_FAULT r else s
      s.logErr { block := Page.LNF, code := code, sev := 1, part := some j.part,
                 detail := [r, lanes, j.queue * 65536 + j.index, j.plan] }
    match f with
    | .arith r' l o' => if r' = r ∧ o' = o then (hit F.LNF_RESIDUE_CNT_COUNT 0x0201 (2 ^ (l % 32)) true, nsAdd bad l) else (s, bad)
    | .stationary r' l o' => if r' = r ∧ o' = o then (hit F.LNF_STAT_PAR_CNT_COUNT 0x0206 (2 ^ (l % 32)) true, nsAdd bad l) else (s, bad)
    | .bandstand r' o' => if r' = r ∧ o' = o then (hit F.LNF_BS_PAR_CNT_COUNT 0x0202 0xFFFFFFFF false, List.range 32) else (s, bad)) (s, [])

/-- A row's part of an output, which leaves its entry in the row's FIFO; `bad` are lanes poisoned by what was read. -/
def State.rowOutput (s : State) (j : LaneJob) (d : List Byte) (f : GenFmt) (w r o : Nat) (codes : List (List Nat))
    (vs : List (List Num)) (bad : List Nat) (fs : List LaneFault) : State :=
  let s := if f = .t2 then s.fmtFault j r (codes.foldl (fun a c => a + c.count 2) 0) else s
  let af := (genFmtOf (smStatFmt d)).getD .bf16
  let (s, hit) := s.laneFaults j r o fs
  s.setRow r ((s.row r).output af w (smBatch d) vs (bad ++ hit))

/-- Whether the plan feeds a row in the current slot (R163). -/
def State.rowFed (s : State) (r : Nat) : Bool := bit ((alGet s.lane.feeds (r / 3)).getD 0) (r % 3)

/-- A late beat counts once for its consume point (R216). -/
def State.countLate (s : State) (j : LaneJob) (met : Bool) : State × LaneJob :=
  if met && !j.late then (s.bump F.LNP_LATE_CNT_COUNT, { j with late := true }) else (s, j)

/-- Rows of the split group that takes an output. -/
def LaneJob.group (j : LaneJob) (d : List Byte) (o : Nat) : List Nat :=
  (j.rows.drop (o % (j.rows.length / smSplit d) * smSplit d)).take (smSplit d)

/-- What has stood in the drain FIFOs of a STREAM-MM's rows goes to the split combiner and from it to the destination (R178, R179): the
k-th entry of a row is its part of the k-th output of its group still to be drained. -/
def State.smDrain (s : State) (j : LaneJob) (d : List Byte) : State × LaneJob :=
  let g := max 1 (j.rows.length / smSplit d)
  let r := (((j.used d).map (· / 3)).foldl nsAdd []).foldl (fun acc t =>
    let r := State.drainTrio t 12 acc.1
    (r.1, acc.2 ++ r.2)) (s, ([] : List (Nat × List (Option Nat))))
  let base := r.1.dstBase j.part (smDstMode d) d 48
  let x := (List.range (j.pos - j.drained)).foldl (fun acc i =>
    let o := j.drained + i
    let parts := (j.group d o).map fun row => ((r.2.filter (·.1 == row)).map (·.2)).getD (i / g) []
    (List.range (smBatch d)).foldl (fun acc l =>
      let v := combine 7 (parts.map fun e => (e[l]?).join)
      acc.1.putResult acc.2 (smDstMode d) base (l * smStride d + o * outSize (smOut d)) (smOut d) v o 4) acc) (r.1, j)
  (x.1, { x.2 with drained := j.pos })

/-- One output of a STREAM-MM; `none` when it must wait: a row is not fed (R163), a beat is late. What it streams of poison, and a
sample with poison among its stationary elements, sets the lanes' poison bits in the drain entries (R179, R184). -/
def State.smOutput (s : State) (j : LaneJob) (d : List Byte) (fs : List LaneFault) : State × Option LaneJob :=
  match genFmtOf (smFmt d) with
  | none => (s, none)
  | some f =>
    let o := smFirst d + j.pos
    let k := smK d
    let bw := f.grid.2.2.2
    let group := j.group d j.pos
    if group.any fun r => !s.rowFed r then (s.setLaneJob { j with wait := true }, none)
    else
      let (base, sc) := s.smBase j.part j.buf d
      let (s, b) := s.smRead j d (base + bw * (o * k) / 8) (bw * k / 8)
      let (s, c) := if f.scaled then s.smRead j d (sc + o * k / 32) (k / 32) else (s, Beat.none)
      let (s, j) := s.countLate j (b.met || c.met)
      if b.late || c.late then (s.setLaneJob { j with wait := true }, none)
      else
        let s := (s.jobUnpin j.id).countDirect (b.direct + c.direct)
        let j := { j with direct := j.direct + b.direct + c.direct }
        let w := max 1 (s.jobWidth j.rows)
        let t := ceilDiv k w
        let lost := b.bytes.any (·.isNone) || c.bytes.any (·.isNone)
        let codes := codesOf bw (b.bytes.map fun x => (x.getD 0).toNat)
        let vals := streamElems f codes (c.bytes.map fun x => (x.getD 0).toNat)
        let bad := if lost then List.range 32 else j.badLanes
        let s := (List.zipIdx group).foldl (fun s r =>
          let steps := rowSteps t (smSplit d) r.2
          s.rowOutput j d f w r.1 o (steps.map fun q => (codes.drop (q * w)).take w) (steps.map fun q => (vals.drop (q * w)).take w) bad fs) s
        let st := if b.st ≠ 0 then b.st else if c.st ≠ 0 then c.st else 4
        let j := if lost ∧ (alGet j.fails j.pos).isNone then { j with fails := alPut j.fails j.pos st } else j
        (s, some { j with pos := j.pos + 1 })

/-- Elements per LCLK cycle of a streamed format (R170). -/
def elemsPerCycle (fmt : Nat) : Nat := match fmt with
  | 1 => 32
  | 2 => 16
  | 5 => 4
  | _ => 8

/-- What one working row of a STREAM-MM spends (R162, R170, R206–R208). -/
structure RowTime where
  row : Nat
  /-- its outputs, the K steps it takes of each -/
  outs : Nat
  steps : Nat
  deriving DecidableEq, Repr

/-- The working rows of a STREAM-MM, with the outputs taken so far. -/
def smRowTimes (j : LaneJob) (d : List Byte) (t : Nat) : List RowTime :=
  let sp := smSplit d
  let g := j.rows.length / sp
  (List.zipIdx (j.used d)).map fun r =>
    ⟨r.1, (j.pos + g - 1 - r.2 / sp) / g, (rowSteps t sp (r.2 % sp)).length⟩

/-- The working rows of a STREAM-MM that lie in a trio. -/
def trioTimes (rs : List RowTime) (t : Nat) : List RowTime := rs.filter fun x => x.row / 3 == t

/-- Cycles of a row's outputs: an output that `q` rows of its trio work on takes max(c × n, 17q/3) of them, rounded up (R208). The rows of
a trio take their outputs side by side, and one with more outputs than the others goes on alone; `others` are the outputs of the others. -/
def outCycles (cn outs : Nat) (others : List Nat) : Nat :=
  let per (q : Nat) : Nat := max cn (ceilDiv (17 * q) 3)
  let m2 := min outs (others.foldl max 0)
  let m3 := match others with
    | [a, b] => min outs (min a b)
    | _ => 0
  per 3 * m3 + per 2 * (m2 - m3) + per 1 * (outs - m2)

/-- Cycles of a STREAM-MM's outputs so far on its rows (R162, R170, R206–R208); what it read directly takes at least the external tier
port's time at 614.4 GB/s (R217; log entry 82: DEDUCED). -/
def State.smTime (s : State) (j : LaneJob) (d : List Byte) : State :=
  let w := max 1 (s.jobWidth j.rows)
  let c := ceilDiv w (elemsPerCycle (smFmt d))
  let t := ceilDiv (smK d) w
  let n := ceilDiv t (smSplit d)
  let rs := smRowTimes j d t
  let load (r : RowTime) : Nat :=
    let bytes := ((trioTimes rs (r.row / 3)).map fun x => x.steps * smBatch d * w * statSize (smStatFmt d)).sum
    ceilDiv (ceilDiv bytes 16 * s.lclk) (max 1 s.eclk)
  let out (r : RowTime) : Nat := outCycles (c * n) r.outs (((trioTimes rs (r.row / 3)).filter fun x => x.row != r.row).map (·.outs))
  let tots := rs.map fun r => load r + out r
  let late := ceilDiv (j.direct * s.lclk) 614400 - tots.foldl max 0
  s.laneTime j (tots.map (· + late)) ((rs.map fun r => r.outs * c * r.steps).sum) ((rs.map fun r => out r - r.outs * (c * n)).sum)
    ((rs.map fun r => load r + late).sum)

/-- Whether a row of the group that takes the next output holds, its drain FIFO being full (R179), or none is left to take: a FIFO drains no
sooner (log entry 106: DESIGN CHOICE). -/
def State.mustDrain (s : State) (j : LaneJob) (d : List Byte) : Bool :=
  decide (j.drained < j.pos) && (decide (smCount d ≤ j.pos) || (j.group d j.pos).any fun r => (s.row r).full)

/-- Outputs of a STREAM-MM, at most `fuel` steps of them, up to a late beat or a write that must wait. -/
def State.smRun (d : List Byte) (fs : List LaneFault) : Nat → LaneJob → State → State
  | 0, j, s => s.setLaneJob j
  | fuel + 1, j, s =>
    match s.laneSettle j with
    | (s, j) =>
      if !j.todo.isEmpty then s.setLaneJob { j with wait := true }
      else if s.mustDrain j d then
        match s.smDrain j d with
        | (s, j) => State.smRun d fs fuel j s
      else if smCount d ≤ j.pos then (s.smTime j d).laneEnd j (smCount d) 0
      else
        match s.smOutput j d fs with
        | (s, none) => s
        | (s, some j) => State.smRun d fs fuel j s

/-- Steps that a STREAM-MM may take: an output, and a drain, each. -/
def smFuel (d : List Byte) : Nat := 2 * smCount d + 2

/-! ### GATHER-POOL (R210–R212) -/

/-- An element of a table row widened to FP32 (R211). -/
def widenElem (fmt c : Nat) : Nat := match genFmtOf fmt with
  | some f => fp32.round (laneElem f c)
  | none => c

/-- The larger of two words for MAX pooling: a NaN gives the canonical one, +0.0 is kept over −0.0. -/
def poolMax (a b : Nat) : Nat :=
  if (f32 a).isNan || (f32 b).isNan then fp32.nanCode
  else if (f32 a).isZero && (f32 b).isZero then (if a = 0 ∨ b = 0 then 0 else a)
  else if (f32 a).lt (f32 b) then b else a

/-- Pooling of a list of terms (R211). -/
def poolTerms (pool : Nat) (ts : List Nat) : Nat :=
  match ts with
  | [] => 0
  | t :: ts =>
    if pool = 2 then ts.foldl poolMax (poolMax t t)
    else
      let sum := ts.foldl f32Add t
      if pool = 1 then f32Div sum (fp32.round (.fin false (ts.length + 1) 0)) else sum

/-- A class-2 read of a list or a row, its pages pinned until the data have come (R212, R276): bytes, failing status, whether it must
wait. -/
def State.gpRead (s : State) (id p a n : Nat) : State × List (Option Byte) × Nat × Bool :=
  if s.jobStalls id p a n then (s.pinStall (.lane id), [], 0, true)
  else
  let pages := (List.range (if n = 0 then 0 else (a + n - 1) / frameSize - a / frameSize + 1)).map (· + a / frameSize)
  match (pages.foldl (fun s pg => s.jobPin id p pg) (s.pinGo (.lane id))).readSpan 2 p a n with
  | (s, bs, .ok) => (s.jobUnpin id, bs, if bs.any (·.isNone) then 4 else 0, false)
  | (s, bs, .refused st) => (s.jobUnpin id, bs, st, false)
  | (s, bs, _) => (s, bs, 0, true)

/-- Words of a list; an index that reads as poison names no row. -/
def listWords (bs : List (Option Byte)) : List Nat := (wordsOf 4 bs).map (·.getD 0xFFFFFFFF)

/-- Terms of a bag as they are fetched: rows of terms, failing status, entries out of range. -/
structure BagIn where
  rows : List (List Nat)
  st : Nat
  bad : Nat
  wait : Bool
  deriving DecidableEq, Repr

/-- Entries of a bag fetched in index-list order (R211, R212). -/
def State.gpEntries (s : State) (id p : Nat) (d : List Byte) (idx : List (Nat × Option Nat)) : State × BagIn :=
  let size := outSize (gpFmt d)
  idx.foldl (fun acc e =>
    let (s, b) := acc
    if b.wait then acc
    else if gpRows d ≤ e.1 then (s, { b with bad := b.bad + 1 })
    else
      match s.gpRead id p (ldAddr d 8 + e.1 * gpStride d) (gpDim d * size) with
      | (s, _, _, true) => (s, { b with wait := true })
      | (s, bs, st, _) =>
        let term (c : Nat) : Nat := match e.2 with
          | some w => f32Mul w (widenElem (gpFmt d) c)
          | none => widenElem (gpFmt d) c
        (s, { b with rows := b.rows ++ [(wordsOf size bs).map fun c => term (c.getD 0)],
                     st := if b.st = 0 then st else b.st })) (s, ⟨[], 0, 0, false⟩)

/-- A bag's place in the index list and its length from its two offsets; nothing where one reads as poison. -/
def bagSpan (bs : List (Option Byte)) : Nat × Nat := match wordsOf 4 bs with
  | [some lo, some hi] => (lo, hi - lo)
  | _ => (0, 0)

/-- Groups of rows that take the bags in turn (R211). -/
def LaneJob.gpGroups (j : LaneJob) (d : List Byte) : Nat := max 1 (j.rows.length / max 1 (ceilDiv (gpDim d) 32))

/-- Cycles of a bag's group: one for each entry and one to drain (R211). -/
def LaneJob.bagCycles (j : LaneJob) (d : List Byte) (entries : Nat) : LaneJob :=
  let g := j.gpGroups d
  { j with cyc := modifyAt (fun c => c + entries + 1) (j.pos % g) (padTo g 0 j.cyc) }

/-- The elements of a bag pass through the drain FIFOs of its group's rows, 32 to a row (R179, R211): what the drain ports give. -/
def State.gpDrain (s : State) (j : LaneJob) (d : List Byte) (vals : List (Option Nat)) : State × List (Option Nat) :=
  let u := ceilDiv (gpDim d) 32
  let rows := (j.rows.drop (j.pos % j.gpGroups d * u)).take u
  let s := (List.zipIdx rows).foldl (fun s r =>
    let e := padTo 32 (some 0) ((vals.drop (32 * r.2)).take 32)
    s.setRow r.1 { s.row r.1 with acc := e.map (·.getD 0), fifo := (s.row r.1).fifo ++ [e] }) s
  let r := ((rows.map (· / 3)).foldl nsAdd []).foldl (fun acc t =>
    let r := State.drainTrio t 12 acc.1
    (r.1, acc.2 ++ r.2)) (s, ([] : List (Nat × List (Option Nat))))
  (r.1, rows.flatMap fun x => ((r.2.find? (·.1 == x)).map (·.2)).getD [])

/-- The results of a bag whose entries have been pooled, under the status it has: bad entries counted, its values through the drain
FIFOs to the destination (R179, R212). -/
def State.gpBagDone (s : State) (j : LaneJob) (d : List Byte) (b : BagIn) (st : Nat) : State × LaneJob :=
  let s := if b.bad = 0 then s else s.bump F.LNP_IDX_BAD_COUNT 0 b.bad
  let j := if b.bad ≠ 0 then { j with fails := alPut j.fails j.pos (if st = 0 then 3 else st) } else j
  let base := s.dstBase j.part (gpDstMode d) d 44
  let (s, vs) := s.gpDrain j d ((List.range (gpDim d)).map fun e =>
    if st = 0 then some (poolTerms (gpPool d) (b.rows.map fun r => r.getD e 0)) else none)
  (List.range (gpDim d)).foldl (fun acc e =>
    acc.1.putResult acc.2 (gpDstMode d) base ((j.pos * gpDim d + e) * outSize (gpOut d)) (gpOut d) (vs[e]?).join j.pos st) (s, j)

/-- One bag of a GATHER-POOL; `none` when a fetch must wait. A bag whose offsets read as poison is poisoned (R212). -/
def State.gpBag (s : State) (j : LaneJob) (d : List Byte) : State × Option LaneJob :=
  let p := j.part
  match s.gpRead j.id p (ldAddr d 32 + 4 * j.pos) 8 with
  | (s, _, _, true) => (s, none)
  | (s, ob, so, _) =>
    let (lo, n) := bagSpan ob
    match s.gpRead j.id p (ldAddr d 24 + 4 * lo) (4 * n) with
    | (s, _, _, true) => (s, none)
    | (s, ib, si, _) =>
      let weights := if fieldLE d 40 4 = 0 then (s, List.replicate (4 * n) (some 0), 0, false) else s.gpRead j.id p (ldAddr d 40 + 4 * lo) (4 * n)
      match weights with
      | (s, _, _, true) => (s, none)
      | (s, wb, sw, _) =>
        let ws : List (Option Nat) := if fieldLE d 40 4 = 0 then List.replicate n none else (listWords wb).map some
        match s.gpEntries j.id p d (List.zip (if si = 0 then listWords ib else []) ws) with
        | (s, b) =>
          if b.wait then (s, none)
          else
            match s.gpBagDone j d b (if so ≠ 0 then so else if si ≠ 0 then si else if sw ≠ 0 then sw else b.st) with
            | (s, j) => (s, some { j.bagCycles d n with pos := j.pos + 1 })

/-- Whether known offsets begin at 0, end at the index count and fall nowhere; one that reads as poison is not compared. -/
def bagsOk (count : Nat) (os : List (Option Nat)) : Bool :=
  let known := os.filterMap id
  (os.headD none).all (· == 0) && (os.getLastD none).all (· == count) && known.all (fun x => decide (x ≤ count))
    && (List.zip known (known.drop 1)).all fun x => decide (x.1 ≤ x.2)

/-- Whether the offsets are those of BAG_COUNT bags over the index list (R210); none while they must be waited for. -/
def State.gpOffsets (s : State) (id p : Nat) (d : List Byte) : State × Option Bool :=
  match s.gpRead id p (ldAddr d 32) (4 * (gpBags d + 1)) with
  | (s, _, _, true) => (s, none)
  | (s, bs, _, _) => (s, some (bagsOk (gpIndexCount d) (wordsOf 4 bs)))

/-- Cycles of a GATHER-POOL's bags so far (R182, R211): the rows of a group retire one for each entry; the one to drain is wasted. -/
def State.gpTime (s : State) (j : LaneJob) (d : List Byte) : State :=
  let u := ceilDiv (gpDim d) 32
  s.laneTime j (j.cyc.flatMap fun c => List.replicate u c) (u * (j.cyc.sum - j.pos)) 0 0

/-- Cycles of a REDUCE-ADD's elements so far: each row adds 32 elements a cycle, the groups going to the rows in turn (R214). -/
def State.raTime (s : State) (j : LaneJob) (d : List Byte) : State :=
  let n := ceilDiv (min j.pos (raCount d)) 32
  let m := max 1 j.rows.length
  s.laneTime j ((List.range m).map fun i => (n + m - 1 - i) / m) n 0 0

/-- Bags of a GATHER-POOL, at most `fuel` of them. -/
def State.gpRun (d : List Byte) : Nat → LaneJob → State → State
  | 0, j, s => s.setLaneJob j
  | fuel + 1, j, s =>
    match s.laneSettle j with
    | (s, j) =>
      if !j.todo.isEmpty then s.setLaneJob { j with wait := true }
      else if gpBags d ≤ j.pos then
        (s.gpTime j d).laneEnd j (gpBags d) 0
      else
        match s.gpBag j d with
        | (s, none) => s.setLaneJob { j with wait := true }
        | (s, some j) => State.gpRun d fuel j s

/-! ### Running a queue's descriptor -/

/-- The oldest descriptor of a queue that has not ended. -/
def State.laneFront (s : State) (q : Nat) : Option LaneJob := s.lane.jobs.find? fun j => j.queue == q && j.out.isNone

/-- The rows of a descriptor that begins belong to its chain. -/
def State.chainRows (s : State) (j : LaneJob) : State :=
  s.onChains (fun c => j.chain == some c.id) fun c => { c with rows := j.rows.foldl nsAdd c.rows }

/-- A STREAM-MM goes on as far as it can. -/
def State.smGo (s : State) (j : LaneJob) (d : List Byte) (fs : List LaneFault) : State :=
  if j.begun then State.smRun d fs (smFuel d) j s
  else if (j.used d).any (fun r => s.setHeld j r) then s.setLaneJob { j with wait := true }
  else
    match s.smBegin j d with
    | (s, j) => State.smRun d fs (smFuel d) j ((s.setLaneJob j).chainRows j)

/-- A GATHER-POOL goes on as far as it can; its offsets and its destination's room are checked first (R200, R506). -/
def State.gpGo (s : State) (j : LaneJob) (d : List Byte) : State :=
  if j.begun then State.gpRun d (gpBags d + 1) j s
  else
    match s.gpOffsets j.id j.part d with
    | (s, none) => s.setLaneJob { j with wait := true }
    | (s, some false) => (s.laneWaste j).laneEnd j 0 4
    | (s, some true) =>
      if !s.gpFits j d then (s.laneWaste j).laneEnd j 0 6
      else
      let j := { j with begun := true }
      State.gpRun d (gpBags d + 1) j ((s.setLaneJob j).chainRows j)

/-- A job whose descriptor is still to be read tries again. -/
def State.laneRefetch (s : State) (q : Nat) : State :=
  match s.laneFront q with
  | some j => if j.desc.isNone then s.laneFetch j else s
  | none => s

end Sys2Proof.Machine
end

