-- ==== Sys2Proof/Machine/Coll.lean ====
section
/-! DEFINITION. The collectives engine: groups, algorithms step by step, segments, fragments, failures (R326–R342). -/

namespace Sys2Proof.Machine

open Sys2Proof

/-! ### Groups (R326, R327) -/

/-- Dimension and coordinate of a partition's axis. -/
def State.axis (s : State) (p a : Nat) : Nat × Nat :=
  (bits (s.rd (R.COL_GRID_DIM_01 + 4 * (a / 2)) p) (16 * (a % 2)) 16, bits (s.rd (R.COL_GRID_CRD_01 + 4 * (a / 2)) p) (16 * (a % 2)) 16)

/-- Axes a group entry lists. -/
def State.grpAxes (s : State) (g : Nat) : List Nat :=
  (List.range (s.fget F.COL_GRP_CFG_NAXES g)).map fun i => bits (s.fget F.COL_GRP_AXES_AXES g) (3 * i) 3

/-- Member count and this engine's rank of a list of axes: the first varies fastest. -/
def State.grpShape (s : State) (p : Nat) (axes : List Nat) : Nat × Nat :=
  axes.foldl (fun a x => (a.1 * (s.axis p x).1, a.2 + (s.axis p x).2 * a.1)) (1, 0)

/-- Entries of a group's member table from `rank` on, read as class 2 (R327, R328); none while the read must wait. -/
def State.colMembers (s : State) (g rank n : Nat) : State × Option (List (Option Nat)) :=
  match s.readRange 2 (s.fget F.COL_GRP_CFG_PART g) (s.fget F.COL_GRP_MEMB_PAGE g * 4096 + 4 * rank) (4 * n) with
  | (s, _, .wait) => (s, none)
  | (s, bs, _) => (s, some (wordsOf 4 bs))

/-- Whether a list names something twice. -/
def hasTwice : List Nat → Bool
  | [] => false
  | a :: l => l.contains a || hasTwice l

/-- The result of INSTALL (R327); `own` is this engine's entry of the member table as it was read. -/
def State.colInstallReason (s : State) (g : Nat) (own : Option Nat) : Nat :=
  let p := s.fget F.COL_GRP_CFG_PART g
  let axes := s.grpAxes g
  let n := (s.grpShape p axes).1
  if axes.isEmpty || decide (6 < axes.length) || axes.any (5 < ·) || hasTwice axes then 1
  else if n < 2 ∨ 4096 < n then 2
  else if (List.range 6).any fun a => decide ((s.axis p a).1 ≤ (s.axis p a).2) then 3
  else if s.runInMap p (s.fget F.COL_GRP_MEMB_PAGE g * 4096) (4 * n) = false ∨ own ≠ some (s.fget F.FBP_NODE_NODE) then 4
  else if (List.range 64).any fun h => h != g && s.flag F.COL_GRP_CFG_VALID h && s.fget F.COL_GRP_CFG_TAG h == s.fget F.COL_GRP_CFG_TAG g then 5
  else if s.flag F.COL_GRP_CFG_VALID g then 6
  else 0

/-- INSTALL of a group entry with what was read of its own entry of the member table, `none` while the read waits: then so does the
result, where it rests on that entry (R327). -/
def State.colInstallOn (s : State) (g : Nat) (own : Option (List (Option Nat))) : State :=
  let drop (s : State) : State := { s with col := { s.col with installs := s.col.installs.erase g } }
  match own with
  | none =>
    let r := s.colInstallReason g (some (s.fget F.FBP_NODE_NODE))
    if 1 ≤ r ∧ r ≤ 4 then (drop s).fset F.COL_GRP_STAT_REASON g r
    else { s with col := { s.col with installs := nsAdd s.col.installs g } }
  | some own =>
    let r := s.colInstallReason g own.head?.join
    let s := (drop s).fset F.COL_GRP_STAT_REASON g r
    if r ≠ 0 then s
    else
      let sh := s.grpShape (s.fget F.COL_GRP_CFG_PART g) (s.grpAxes g)
      let s := ((s.set1 F.COL_GRP_CFG_VALID g).fset F.COL_GRP_STAT_MEMBERS g sh.1).fset F.COL_GRP_STAT_RANK g sh.2
      let c := s.col
      { s with col := { c with seqs := alDel c.seqs g, ready := c.ready.filter (·.group != g), arrived := c.arrived.filter (·.group != g),
                               weights := c.weights.filter (·.1 != g) } }

/-- INSTALL of a group entry (R327). -/
def State.colInstall (s : State) (g : Nat) : State :=
  match s.colMembers g (s.grpShape (s.fget F.COL_GRP_CFG_PART g) (s.grpAxes g)).2 1 with
  | (s, own) => s.colInstallOn g own

/-- The VALID entry of a tag. -/
def State.grpOfTag (s : State) (tag : Nat) : Option Nat :=
  (List.range 64).find? fun g => s.flag F.COL_GRP_CFG_VALID g && s.fget F.COL_GRP_CFG_TAG g == tag

/-! ### Descriptors (R328, R329) -/

abbrev cdOp (d : List Byte) : Nat := fieldLE d 0 1
abbrev cdGroup (d : List Byte) : Nat := fieldLE d 8 1
abbrev cdDtype (d : List Byte) : Nat := fieldLE d 9 1
abbrev cdRedop (d : List Byte) : Nat := fieldLE d 10 1
abbrev cdAlg (d : List Byte) : Nat := fieldLE d 11 1
abbrev cdCount (d : List Byte) : Nat := fieldLE d 12 4
abbrev cdFrag (d : List Byte) : Nat := fieldLE d 28 2
abbrev cdRoot (d : List Byte) : Nat := fieldLE d 30 2
abbrev cdFlag (d : List Byte) : Nat := fieldLE d 32 2
/-- WEIGHTS, a bit of BROADCAST (R339). -/
abbrev cdWeights (d : List Byte) : Bool := cdOp d == 0x33 && bit (fieldLE d 34 1) 0
abbrev cdQueue (d : List Byte) : Nat := fieldLE d 35 1
abbrev cdPerStep (d : List Byte) : Nat := fieldLE d 38 2

/-- Whether an opcode reduces. -/
def cdReduces (d : List Byte) : Bool := cdOp d == 0x30 || cdOp d == 0x31

/-- Bytes of an element. -/
def cdSize (d : List Byte) : Nat := match cdDtype d with
  | 1 => 2
  | 3 => 8
  | 4 => 1
  | _ => 4

/-- Whether sums are left to REDUCE-ADD programs (R331). -/
def cdLanes (d : List Byte) : Bool := cdReduces d && cdDtype d ≤ 1 && cdRedop d == 0

/-- ⌈log₂ n⌉. -/
def ceilLog2 (n : Nat) : Nat := if n ≤ 1 then 0 else Nat.log2 (n - 1) + 1

/-- The size C of R330. -/
def cdSizeC (d : List Byte) (n : Nat) : Nat :=
  let s := cdCount d * cdSize d
  if cdReduces d then s / max 1 n else s

/-- Whether the bandwidth algorithm is taken (R330). -/
def State.cdWide (s : State) (d : List Byte) (n : Nat) : Bool :=
  match cdAlg d with
  | 1 => false
  | 2 => true
  | _ => decide (1024 * s.fget F.COL_THRESHOLD_KIB ≤ cdSizeC d n)

/-- First element of chunk c. -/
def chunkLo (e n c : Nat) : Nat := c * e / max 1 n

/-- Reducing steps of a member (R330, R336, R337). -/
def reducingSteps (wide : Bool) (n r : Nat) : Nat :=
  let d := Nat.log2 n
  let p := 2 ^ d
  if wide then n - 1 else if p ≤ r then 0 else d + (if r + p < n then 1 else 0)

/-- Bytes of the largest fragment, rounded up to 64 KiB (R333); the block of a KV ring likewise. -/
def landSlot (d : List Byte) (wide : Bool) (n : Nat) : Nat :=
  if cdOp d = 0x36 then roundUp (cdCount d) 65536
  else roundUp ((if wide then ceilDiv (cdCount d) n else cdCount d) * cdSize d) 65536

/-- Elements in SRC, in DST, in elements of the descriptor's type. -/
def cdElems (d : List Byte) (n : Nat) : Nat × Nat :=
  let e := cdCount d
  match cdOp d with
  | 0x32 => (e, n * e)
  | 0x34 => (n * e, n * e)
  | 0x35 => (0, 0)
  | 0x36 => (e, 0)
  | _ => (e, e)

/-- First cause for which a collective is refused (R329); `l` is the layer's descriptor with WEIGHTS set. -/
def State.colReason (s : State) (p : Nat) (d l : List Byte) : Nat :=
  let op := cdOp d
  let g := cdGroup d
  let n := s.fget F.COL_GRP_STAT_MEMBERS g
  let r := s.fget F.COL_GRP_STAT_RANK g
  let wide := s.cdWide d n
  let (se, de) := cdElems d n
  let size := if op = 0x36 then 1 else cdSize d
  let land := cdLanes d || op == 0x36
  let bad (a k : Nat) : Bool := k != 0 && (!s.runInMap p a k || s.runMaster p a k)
  if [16, 20, 24].any (fun o => decide (2 ^ 28 ≤ fieldLE d o 4)) = true ∨ 2 ≤ fieldLE d 34 1 ∨ descZero d 44 16 = false then 1
  else if 63 < g ∨ s.flag F.COL_GRP_CFG_VALID g = false ∨ s.fget F.COL_GRP_CFG_PART g ≠ p ∨
      (cdWeights d = false ∧ (bad (ldAddr d 16) (se * size) || bad (ldAddr d 20) (de * size)) = true) ∨
      (land = true ∧ (bad (ldAddr d 24) 1 || s.runMaster p (ldAddr d 24) (2 * landSlot d wide n)) = true) then 3
  else if 4 < cdDtype d ∨ 2 < cdRedop d ∨ 2 < cdAlg d ∨ (cdReduces d = true ∧ cdDtype d = 4) ∨
      (op ≠ 0x35 ∧ (cdCount d = 0 ∨ 2 ^ 26 < cdCount d)) ∨ (op = 0x33 ∧ n ≤ cdRoot d) ∨
      (cdLanes d = true ∧ 4096 < cdFrag d + reducingSteps wide n r) ∨
      (land = true ∧ bad (ldAddr d 24) (2 * landSlot d wide n) = true) ∨
      (op = 0x36 ∧ (15 < cdQueue d ∨ cdPerStep d = 0 ∨ 4096 < cdPerStep d)) ∨ (1023 < cdFlag d ∧ cdFlag d ≠ 0xFFFF) ∨
      (cdWeights d = true ∧ (s.fget F.UPD_LTAB_COUNT_COUNT p ≤ fieldLE d 36 2 ∨ crcOk l 60 = false)) then 4
  else if cdWeights d = true ∧ ldGenFmt l = 0 then 5
  else 0

/-! ### Steps (R330, R336, R337, R340) -/

/-- What happens to a step's data where it is received. -/
inductive LandMode where
  | store
  /-- a fragment for a REDUCE-ADD -/
  | lanes
  /-- combined by the engine into DST -/
  | engine
  deriving DecidableEq, Repr

/-- One step on one member: who gets its data and from where, who sends to it and where that goes. -/
structure ColStep where
  peer : Option Nat
  src : List (Nat × Nat)
  from_ : Option Nat
  dst : List (Nat × Nat)
  mode : LandMode
  deriving DecidableEq, Repr

/-- Nothing to do. -/
def ColStep.idle : ColStep := ⟨none, [], none, [], .store⟩

/-- Bytes of a step's received data. -/
def ColStep.len (t : ColStep) : Nat := t.dst.foldl (fun a r => a + r.2) 0

/-- How reduced data is combined. -/
def ColJob.mode (x : ColJob) : LandMode := if cdLanes x.desc then .lanes else .engine

/-- Steps a collective takes. -/
def ColJob.total (x : ColJob) : Nat :=
  let n := x.n
  let d := Nat.log2 n
  let dbl := if n = 2 ^ d then d else d + 2
  match cdOp x.desc with
  | 0x30 => if x.wide then 2 * (n - 1) else dbl
  | 0x31 => if x.wide then n - 1 else dbl
  | 0x32 => if x.wide then n - 1 else ceilLog2 n
  | 0x33 => if x.wide then 1 else ceilLog2 n
  | 0x35 => ceilLog2 n
  | _ => n - 1

/-- Step `k`, from 1, of recursive doubling (R336). -/
def doubleStep (x : ColJob) (full : Nat × Nat) (k : Nat) : ColStep :=
  let n := x.n
  let r := x.rank
  let d := Nat.log2 n
  let p := 2 ^ d
  let off := if n = p then 0 else 1
  if off = 1 ∧ k = 1 then
    if p ≤ r then ⟨some (r - p), [full], none, [], .store⟩
    else if r + p < n then ⟨none, [], some (r + p), [full], x.mode⟩
    else .idle
  else if k ≤ off + d then
    if r < p then let q := r ^^^ 2 ^ (k - off - 1); ⟨some q, [full], some q, [full], x.mode⟩ else .idle
  else if p ≤ r then ⟨none, [], some (r - p), [full], .store⟩
  else if r + p < n then ⟨some (r + p), [full], none, [], .store⟩
  else .idle

/-- Step `k`, from 1, of a collective on this member. -/
def ColJob.step (x : ColJob) (k : Nat) : ColStep :=
  let d := x.desc
  let n := x.n
  let r := x.rank
  let size := cdSize d
  let e := cdCount d
  let dst := x.dst
  let md (i : Int) : Nat := (i % (n : Int)).toNat
  let chunk (c : Nat) : Nat × Nat := (dst + size * chunkLo e n c, size * (chunkLo e n (c + 1) - chunkLo e n c))
  let block (base c : Nat) : Nat × Nat := (base + size * e * c, size * e)
  let nxt := (r + 1) % n
  let prv := md (r - 1)
  let full : Nat × Nat := (dst, size * e)
  match cdOp d with
  | 0x30 =>
    if !x.wide then doubleStep x full k
    else if k ≤ n - 1 then ⟨some nxt, [chunk (md (r - k))], some prv, [chunk (md (r - k - 1))], x.mode⟩
    else
      let i : Int := k - n
      ⟨some nxt, [chunk (md (r - i))], some prv, [chunk (md (r - i - 1))], .store⟩
  | 0x31 =>
    if !x.wide then doubleStep x full k
    else ⟨some nxt, [chunk (md (r - k))], some prv, [chunk (md (r - k - 1))], x.mode⟩
  | 0x32 =>
    if x.wide then ⟨some nxt, [block dst (md (r - k + 1))], some prv, [block dst (md (r - k))], .store⟩
    else
      let h := 2 ^ (k - 1)
      let c := min h (n - h)
      ⟨some ((r + h) % n), (List.range c).map fun (j : Nat) => block dst (md ((r : Int) - j)),
       some (md ((r : Int) - h)), (List.range c).map fun (j : Nat) => block dst (md ((r : Int) - h - j)), .store⟩
  | 0x33 =>
    let v := md ((r : Int) - cdRoot d)
    let rank (w : Nat) : Nat := (w + cdRoot d) % n
    if x.wide then
      ⟨if v + 1 < n then some (rank (v + 1)) else none, [full], if v = 0 then none else some (rank (v - 1)), [full], .store⟩
    else
      let h := 2 ^ (k - 1)
      if v < h then (if v + h < n then ⟨some (rank (v + h)), [full], none, [], .store⟩ else .idle)
      else if v < 2 * h then ⟨none, [], some (rank (v - h)), [full], .store⟩
      else .idle
  | 0x34 =>
    ⟨some ((r + k) % n), [block (ldAddr d 16) ((r + k) % n)], some (md ((r : Int) - k)), [block dst (md ((r : Int) - k))], .store⟩
  | 0x35 => ⟨some ((r + 2 ^ (k - 1)) % n), [], some (md ((r : Int) - 2 ^ (k - 1))), [], .store⟩
  | _ =>
    let slot := landSlot d x.wide n
    let buf (i : Nat) : Nat × Nat := (ldAddr d 24 + i % 2 * slot, e)
    ⟨some nxt, [if k = 1 then (ldAddr d 16, e) else buf (k - 1)], some prv, [buf k], .store⟩

/-- Reducing steps of this member before step `k`: the index j of R333. -/
def ColJob.reduceIndex (x : ColJob) (k : Nat) : Nat :=
  ((List.range (k - 1)).filter fun i => let t := x.step (i + 1); t.from_.isSome && t.mode == .lanes).length

/-! ### Handles -/

def State.fragState (s : State) (h : Nat) : Nat := s.fget F.COL_FRAG_STAT_STATE h

def State.setFrag (s : State) (h st : Nat) (f : Option Frag) : State :=
  { s.fset F.COL_FRAG_STAT_STATE h st with col := { s.col with frags := alUpd s.col.frags h f } }

def State.colJob (s : State) (p : Nat) : Option ColJob := s.col.jobs.find? fun x => x.part == p

/-- Steps that a collective has completed since its state was last kept are counted (R400 event 0x1501): a step is complete once its
data has been received and sent. -/
def State.colSteps (s : State) (x : ColJob) : State :=
  match s.colJob x.part with
  | none => s
  | some y => if min y.rcv y.snd < min x.rcv x.snd then s.event 0x1501 (some x.part) (min x.rcv x.snd - min y.rcv y.snd) else s

/-- Handles a collective uses. -/
def ColJob.handles (x : ColJob) : List Nat :=
  if cdLanes x.desc then (List.range (reducingSteps x.wide x.n x.rank)).map (· + cdFrag x.desc) else []

/-! ### Jobs -/

def State.setColJob (s : State) (x : ColJob) : State :=
  let s := s.colSteps x
  { s with col := { s.col with jobs := s.col.jobs.map fun y => if y.part == x.part then x else y } }

/-- Units of a collective (R328). -/
def ColJob.units (x : ColJob) : Nat :=
  let e := cdCount x.desc
  match cdOp x.desc with
  | 0x31 => chunkLo e x.n (x.rank + 1) - chunkLo e x.n x.rank
  | 0x32 => x.n * e
  | 0x34 => x.n * e
  | 0x35 => 1
  | 0x36 => x.n - 1
  | _ => e

/-- Bytes from the start of a step's data on that have arrived without a gap. -/
def ColJob.arrived (x : ColJob) : Nat :=
  x.segs.foldl (fun a _ => match x.segs.find? fun g => g.1 == a && g.2 != 0 with
    | some g => a + g.2
    | none => a) 0

/-- Units that do not hold their final value when every step received is written and added, as ranges (R342). -/
def ColJob.unreceived (x : ColJob) : List (Nat × Nat) :=
  let n := x.n
  let r := x.rank
  let e := cdCount x.desc
  let rest (have_ : List Nat) (f : Nat → Nat × Nat) : List (Nat × Nat) := ((List.range n).filter fun c => !have_.contains c).map f
  let md (i : Int) : Nat := (i % (n : Int)).toNat
  if x.total < x.rcv then []
  else
    match cdOp x.desc with
    | 0x30 =>
      if x.wide ∧ n ≤ x.rcv then
        rest (r :: (List.range (x.rcv - n)).map fun (i : Nat) => md ((r : Int) - i - 1)) fun c => (chunkLo e n c, chunkLo e n (c + 1))
      else [(0, e)]
    | 0x32 =>
      let have_ := if x.wide then x.rcv else min n (2 ^ (x.rcv - 1))
      rest ((List.range have_).map fun (i : Nat) => md ((r : Int) - i)) fun c => (c * e, (c + 1) * e)
    | 0x33 => if r = cdRoot x.desc then [] else [(if x.wide then x.arrived / cdSize x.desc else 0, e)]
    | 0x34 => rest ((List.range x.rcv).map fun (i : Nat) => md ((r : Int) - i)) fun c => (c * e, (c + 1) * e)
    | 0x36 => [(x.rcv - 1, n - 1)]
    | _ => [(0, x.units)]

/-- Failed units of ranges: the first of each range and of each part that starts in it, enough for every part (R218). -/
def failUnits (u : Nat) (rs : List (Nat × Nat × Nat)) : List (Nat × Nat) :=
  rs.foldl (fun l r =>
    let starts := ((List.range (min 16 u)).map fun i => partStart u (min 16 u) i).filter fun a => decide (r.1 < a) && decide (a < r.2.1)
    if r.2.1 ≤ r.1 then l
    else (r.1 :: starts).foldl (fun l a => if (alGet l a).isSome then l else alPut l a r.2.2) l) []

/-- First unit's place in DST, in elements (R328). -/
def ColJob.firstUnit (x : ColJob) : Nat := if cdOp x.desc = 0x31 then chunkLo (cdCount x.desc) x.n x.rank else 0

/-- Units of the result that a run of DST's bytes holds. -/
def ColJob.unitsAt (x : ColJob) (a n : Nat) : Nat × Nat :=
  let size := cdSize x.desc
  let lo := (a - x.dst) / size - x.firstUnit
  (lo, min x.units (ceilDiv (a + n - x.dst) size - x.firstUnit))

/-- Units that do not hold their final value, as ranges: not received, not yet written, or landed and not yet added (R333, R342). -/
def State.colMissing (s : State) (x : ColJob) : List (Nat × Nat) :=
  let added (k : Nat) : Bool := s.fragState (cdFrag x.desc + x.reduceIndex k) == 0
  x.unreceived ++ x.todo.map (fun w => (w.lo, w.hi)) ++ ((List.range (x.rcv - 1)).flatMap fun i =>
    let t := x.step (i + 1)
    if t.from_.isSome && t.mode == .lanes && !added (i + 1) then t.dst.map fun r => x.unitsAt r.1 r.2 else [])

/-- The record of an ended collective, once its completion ring has room; its flag when every part was written, poison or not
(R335, R342). -/
def State.colRecord (s : State) (x : ColJob) (st : Nat) : State :=
  let u := x.units
  let rs := x.bad ++ (if st = 0 then [] else (s.colMissing x).map fun r => (r.1, r.2, st))
  let fails := failUnits u rs
  let s := { s with col := { s.col with jobs := s.col.jobs.filter fun y => y.part != x.part } }
  let s :=
    if st = 5 then
      let (p, map, _, ff) := partsOf u fails
      s.qRecord .collective x.part none (complRecord 5 (cdOp x.desc) map (fieldLE x.desc 4 4) p 4 x.part 0 x.index u ff s.tick.now)
    else s.qComplete .collective x.part x.index x.desc u fails
  if st = 0 ∧ cdFlag x.desc ≠ 0xFFFF ∧ x.bad.all (fun b => b.2.2 == 4) = true then
    let r := R.COL_FLAG_0 + 4 * (cdFlag x.desc / 32)
    s.wr r x.part (setBit (s.rd r x.part) (cdFlag x.desc % 32) true)
  else s

/-- Units of the result that read as poison (R342); none while the read must wait. -/
def State.colPoison (s : State) (x : ColJob) : State × Option (List (Nat × Nat × Nat)) :=
  let d := x.desc
  let size := cdSize d
  if cdOp d = 0x35 ∨ cdOp d = 0x36 ∨ (cdWeights d = true ∧ x.rank = cdRoot d) then (s, some [])
  else
    match s.readRange 2 x.part (x.dst + size * x.firstUnit) (size * x.units) with
    | (s, _, .wait) => (s, none)
    | (s, bs, _) =>
      (s, some ((List.zipIdx (chunks size bs)).filterMap fun c => if c.1.any (·.isNone) then some (c.2, c.2 + 1, 4) else none))

/-- The record of a collective that has ended: one cut short has its result looked over for poison first (R342). -/
def State.colClose (s : State) (x : ColJob) (st : Nat) : State :=
  match (if x.scan then s.colPoison x else (s, some [])) with
  | (s, none) => s
  | (s, some bad) =>
    let x := { x with scan := false, bad := x.bad ++ bad }
    let s := s.setColJob x
    if s.qFull .collective x.part then s else s.colRecord x st

/-- A collective ends with a status: 0 when every step is done. -/
def State.colEnd (s : State) (x : ColJob) (st : Nat) : State :=
  let x := { x with ended := some st, scan := st != 0 }
  let s := s.setColJob x
  let s := x.handles.foldl (fun s h => if s.fragState h = 3 then s.setFrag h 3 none else s) s
  let s := if cdWeights x.desc && x.rank != cdRoot x.desc then s.setUpdPart x.part { s.updPart x.part with passed := true } else s
  s.colClose x st

/-! ### Moving data -/

/-- Pieces of a step's data that lie at an offset of it: address and place in the data. -/
def spread : List (Nat × Nat) → Nat → List (Option Byte) → List (Nat × List (Option Byte))
  | [], _, _ => []
  | r :: rs, off, bs =>
    if r.2 ≤ off then spread rs (off - r.2) bs
    else
      let n := min bs.length (r.2 - off)
      if n = 0 then [] else (r.1 + off, bs.take n) :: spread rs 0 (bs.drop n)

/-- MAX and MIN of R132 in any order of their operands (R331, R338): of two zeros MAX gives +0.0 where one is, MIN −0.0 (log entry 68:
DEDUCED). -/
def f32Best (larger : Bool) (a b : Nat) : Nat :=
  if (f32 a).isZero && (f32 b).isZero then (if larger then min a b else max a b) else f32Pick larger a b

/-- Two elements combined by the engine (R331). -/
def combineElem (dtype redop a b : Nat) : Nat :=
  match dtype with
  | 0 => f32Best (redop == 1) a b
  | 1 =>
    let w (c : Nat) : Nat := fp32.round (laneElem .bf16 c)
    bf16.round (f32 (f32Best (redop == 1) (w a) (w b)))
  | _ =>
    let n := if dtype = 2 then 32 else 64
    if redop = 0 then (a + b) % 2 ^ n
    else if redop = 1 then (if signed n a < signed n b then b else a)
    else if signed n b < signed n a then b else a

/-- What a write of a collective stores: received elements combined with those that stand there, a poisoned one giving poison
(R331). None while the read must wait. -/
def State.colBytes (s : State) (x : ColJob) (w : ColWrite) : State × Option (List (Option Byte)) :=
  if !w.comb then (s, some w.bytes)
  else
    let size := cdSize x.desc
    match s.readRange 2 x.part w.addr w.bytes.length with
    | (s, _, .wait) => (s, none)
    | (s, old, _) =>
      (s, some (List.zipWith (fun (o n : Option Nat) => match o, n with
        | some o, some n => (leBytes size (combineElem (cdDtype x.desc) (cdRedop x.desc) o n)).map some
        | _, _ => List.replicate size none) (wordsOf size old) (wordsOf size w.bytes)).flatten)

/-- A write made: poison after it where a byte is none; a refused one fails its units. None while it must wait. -/
def State.colWrite (s : State) (x : ColJob) (w : ColWrite) : State × Option ColJob :=
  match s.colBytes x w with
  | (s, none) => (s, none)
  | (s, some bs) =>
    match s.writeRange (.coll x.part) x.part w.addr s.tick.now bs with
    | (s, .wait) => (s, none)
    | (s, r) =>
      let secs := (List.zipIdx bs).filterMap fun b => if b.1.isNone then some ((w.addr + b.2) / 64) else none
      let s := (secs.foldl nsAdd []).foldl (fun s k => s.poisonAt (.coll x.part) x.part (64 * k)) s
      match r with
      | .refused st => (s, some (if w.lo < w.hi then { x with bad := x.bad ++ [(w.lo, w.hi, st)] } else x))
      | _ => (s, some x)

/-- What stands to be written, written in order until one must wait; a fragment all written has LANDED (R333). -/
def State.colFlush (x : ColJob) : List ColWrite → State → State × ColJob
  | [], s =>
    (match x.landing with
      | some h => if s.fragState h = 1 then s.fset F.COL_FRAG_STAT_STATE h 2 else s
      | none => s, { x with todo := [], landing := none })
  | w :: ws, s =>
    match s.colWrite x w with
    | (s, none) => (s, { x with todo := w :: ws })
    | (s, some y) => State.colFlush y ws s

/-- Bytes to be stored at a partition address, after those that wait. -/
def State.colPut (s : State) (x : ColJob) (w : ColWrite) : State × ColJob :=
  let ws := x.todo ++ [w]
  if x.todo.isEmpty then State.colFlush x ws s else (s, { x with todo := ws })

/-! ### Messages (R332) -/

/-- A collective message's header and data. -/
def colMsg (typ tag seq step rank off : Nat) (data : List Byte) (flags : Nat) : List Byte :=
  withCrc (leBytes 1 typ ++ leBytes 1 1 ++ leBytes 2 tag ++ leBytes 4 seq ++ leBytes 2 step ++ leBytes 2 rank ++ leBytes 4 off
    ++ leBytes 4 data.length ++ leBytes 1 flags ++ leBytes 3 0 ++ leBytes 4 (crc32c data)) ++ data

/-- Channel of a collective. -/
def ColJob.vc (x : ColJob) : Nat := if cdWeights x.desc then 5 else 4

def State.colSend (s : State) (x : ColJob) (rank typ step off : Nat) (data : List Byte) (flags : Nat) : State :=
  match (x.nodes[rank]?).join with
  | some n => if nodeMax < n % 2 ^ 20 then s else s.sendMsg x.vc (n % 2 ^ 20) (colMsg typ (s.fget F.COL_GRP_CFG_TAG x.group) x.seq step x.rank off data flags) (some x.part)
  | none => s

/-- Segments of a step's data from an offset on: pieces of 64 KiB (R332). -/
def State.colSegments (s : State) (x : ColJob) (rank step off total : Nat) (data : List (Option Byte)) : State :=
  let cs := if data.isEmpty then [[]] else chunks 65536 data
  (List.zipIdx cs).foldl (fun s c =>
    let o := off + 65536 * c.2
    let last := o + c.1.length == total
    s.colSend x rank 0x20 step o (c.1.map (·.getD 0xFF)) (last.toNat + 2 * (c.1.any (·.isNone)).toNat)) s

/-! ### Progress -/

/-- Whether this member's own data of step `k` no longer depends on what DST holds. -/
def ColJob.own (x : ColJob) (t : ColStep) (k : Nat) : Bool := t.peer.isNone || decide (k < x.snd) || (x.snd == k && x.data.isSome)

/-- Whether this member may ask for step `k`'s data (R333, R339, R340): a landing slot and handle are free; what is added to the data
it sends itself waits until that has been read. -/
def State.colMayAsk (s : State) (x : ColJob) (t : ColStep) (k : Nat) : Bool :=
  match t.mode with
  | .lanes =>
    let j := x.reduceIndex k
    let free (h : Nat) : Bool := s.fragState h == 0
    free (cdFrag x.desc + j) && (decide (j < 2) || free (cdFrag x.desc + j - 2)) && (x.wide || x.own t k)
  | .engine => x.own t k
  | .store =>
    if cdOp x.desc = 0x36 then decide (k < 3) || (decide ((k - 2) * cdPerStep x.desc ≤ x.laneDone) && decide (k ≤ x.snd)) else true

/-- The pin that stalls a weight broadcast's writes (R148, R339). -/
def State.colPinned (s : State) (x : ColJob) : Bool :=
  cdWeights x.desc && x.rank != cdRoot x.desc && s.fget (pinField (1 - s.fget F.UPD_FLIP_STAT_CUR x.part)) x.part != 0

/-- The receiving side moved on by one, if it can. -/
def State.colRecv (s : State) (x : ColJob) : Option (State × ColJob) :=
  let k := x.rcv
  if x.total < k then none
  else
    let t := x.step k
    match t.from_ with
    | none => some (s, { x with rcv := k + 1, asked := false, got := 0, segs := [] })
    | some q =>
      if cdOp x.desc = 0x35 then
        let h : ColHeld := ⟨x.group, q, x.seq, k⟩
        if s.col.arrived.contains h then
          some ({ s with col := { s.col with arrived := s.col.arrived.erase h } }, { x with rcv := k + 1, since := s.tick.hall })
        else none
      else if x.asked then none
      else if s.colPinned x then (if x.pinned.isSome then none else some (s, { x with pinned := some s.tick.hall }))
      else if s.colMayAsk x t k then
        let s := match x.pinned with
          | some t0 => s.bump F.UPD_PIN_STALL_CYCLES 0 ((s.tick.hall - t0) * s.eclk / 1000)
          | none => s
        let s := if t.mode = .lanes then
            let j := x.reduceIndex k
            s.setFrag (cdFrag x.desc + j) 1 (some ⟨x.part, ldAddr x.desc 24 + j % 2 * landSlot x.desc x.wide x.n, t.len, cdDtype x.desc⟩)
          else s
        some (s.colSend x q 0x21 k 0 [] 0, { x with asked := true, got := 0, segs := [], since := s.tick.hall, pinned := none })
      else none

/-- Whether what a step sends is final on this member: earlier steps received, their fragments added. -/
def State.colSendable (s : State) (x : ColJob) (k : Nat) : Bool :=
  decide (k ≤ x.rcv) && ((List.range (x.reduceIndex k)).all fun j => s.fragState (cdFrag x.desc + j) == 0)

/-- The READY for a step's data, if it is held. -/
def State.colReady (s : State) (x : ColJob) (q k : Nat) : Bool := s.col.ready.contains ⟨x.group, q, x.seq, k⟩

/-- The sending side moved on by one, if it can; a read that must wait leaves what it asked for. -/
def State.colSendStep (s : State) (x : ColJob) : State × Option ColJob :=
  let k := x.snd
  if x.total < k then (s, none)
  else
    let t := x.step k
    let next (x : ColJob) : ColJob := { x with snd := k + 1, data := none, sent := 0, sinceSnd := s.tick.hall }
    match t.peer with
    | none => (s, some (next x))
    | some q =>
      let taken (s : State) : State := { s with col := { s.col with ready := s.col.ready.erase ⟨x.group, q, x.seq, k⟩ } }
      if cdOp x.desc = 0x35 then
        if k ≤ x.rcv then (s.colSend x q 0x22 k 0 [] 0, some (next x)) else (s, none)
      else if cdOp x.desc = 0x33 ∧ x.wide = true then
        let all := cdCount x.desc * cdSize x.desc
        let here := if t.from_.isNone ∨ 1 < x.rcv then all else x.arrived
        if s.colReady x q k = false ∨ here ≤ x.sent then (s, none)
        else
          match s.readRange 2 x.part (x.dst + x.sent) (here - x.sent) with
          | (s, _, .wait) => (s, none)
          | (s, bs, _) =>
            let s := s.colSegments x q k x.sent all bs
            if here = all then (taken s, some (next x)) else (s, some { x with sent := here, sinceSnd := s.tick.hall })
      else
        match x.data with
        | none =>
          if s.colSendable x k then
            let (s, bs, wait) := t.src.foldl (fun (acc : State × List (Option Byte) × Bool) r =>
              match acc.1.readRange 2 x.part r.1 r.2 with
              | (s, b, .wait) => (s, acc.2.1 ++ b, true)
              | (s, b, _) => (s, acc.2.1 ++ b, acc.2.2)) (s, [], false)
            if wait then (s, none) else (s, some { x with data := some bs, sinceSnd := s.tick.hall })
          else (s, none)
        | some bs => if s.colReady x q k then (taken (s.colSegments x q k 0 bs.length bs), some (next x)) else (s, none)

/-- A collective goes on as far as it can; `fuel` bounds the moves of one call. -/
def State.colGo : Nat → ColJob → State → State
  | 0, x, s => s.setColJob x
  | fuel + 1, x, s =>
    match State.colFlush x x.todo s with
    | (s, x) =>
      if !x.todo.isEmpty then s.setColJob x
      else if x.failed then s.colEnd x 5
      else
        match s.colSendStep x with
        | (s, some x) => State.colGo fuel x s
        | (s, none) =>
          match s.colRecv x with
          | some (s, x) => State.colGo fuel x s
          | none =>
            if x.total < x.rcv ∧ x.total < x.snd ∧ x.handles.all (fun h => s.fragState h != 1 && s.fragState h != 2) = true then
              match s.colPoison x with
              | (s, none) => s.setColJob x
              | (s, some bad) => (s.colSteps x).colEnd { x with bad := x.bad ++ bad } 0
            else s.setColJob x

/-- Every INSTALL that waits is tried again; every collective goes on; ended ones whose record waits are recorded. -/
def State.colAdvance (s : State) : State :=
  let s := s.col.installs.foldl (fun s g => s.colInstall g) s
  (List.range 8).foldl (fun s p =>
    match s.colJob p with
    | none => s
    | some x =>
      match x.ended with
      | some st => s.colClose x st
      | none => State.colGo (4 * x.total + 8) x s) s

/-! ### Starting -/

/-- The member's own data put into DST before the first step: source, destination and bytes. -/
def ColJob.local_ (x : ColJob) : Option (Nat × Nat × Nat) :=
  let d := x.desc
  let b := cdCount d * cdSize d
  let src := ldAddr d 16
  let dst := x.dst
  match cdOp d with
  | 0x30 => some (src, dst, b)
  | 0x31 => some (src, dst, b)
  | 0x32 => some (src, dst + x.rank * b, b)
  | 0x33 => if cdWeights d = false ∧ x.rank = cdRoot d then some (src, dst, b) else none
  | 0x34 => some (src + x.rank * b, dst + x.rank * b, b)
  | _ => none

/-- The job of a collective as it starts. -/
def State.colFresh (s : State) (p i : Nat) (d l : List Byte) (nodes : List (Option Nat)) : ColJob :=
  let g := cdGroup d
  let n := s.fget F.COL_GRP_STAT_MEMBERS g
  { part := p, index := i, desc := d, group := g, seq := (alGet s.col.seqs g).getD 0 + 1, n := n, rank := s.fget F.COL_GRP_STAT_RANK g,
    wide := s.cdWide d n, rcv := 1, asked := false, got := 0, segs := [], snd := 1, data := none, sent := 0, laneDone := 0, since := s.tick.hall,
    sinceSnd := s.tick.hall, pinned := none, todo := [], bad := [], ended := none, scan := false, nodes := nodes,
    dst := if cdWeights d then s.genBase p l else ldAddr d 20, landing := none, failed := false }

/-- A collective starts, once its member table and its own data have been read; a stale broadcast of weights ends at once (R328, R332,
R339). The table is read when it starts (log entry 70: a DESIGN CHOICE). -/
def State.colStart (s : State) (p i : Nat) (d l : List Byte) : State :=
  let g := cdGroup d
  match s.colMembers g 0 (s.fget F.COL_GRP_STAT_MEMBERS g) with
  | (s, none) => s
  | (s, some nodes) =>
    let x := s.colFresh p i d l nodes
    let start (s : State) : State :=
      let s := s.qTake .collective p
      { s with col := { s.col with
        seqs := alPut s.col.seqs g x.seq, jobs := s.col.jobs ++ [x],
        weights := if cdWeights d then s.col.weights ++ [(g, x.seq)] else s.col.weights } }
    if cdWeights d = true ∧ x.rank ≠ cdRoot d ∧ (s.rd R.UPD_VER p + 1) % 2 ^ 32 ≠ fieldLE d 40 4 then
      let s := (start s).logErr { block := Page.COL, code := 0x0703, sev := 0, part := some p }
      s.colRecord { x with bad := [(0, x.units, 7)] } 7
    else
      match x.local_ with
      | none => (start s).colAdvance
      | some (a, b, k) =>
        match s.readRange 2 p a k with
        | (s, _, .wait) => s
        | (s, bs, _) =>
          match (start s).colPut x ⟨b, bs, false, (x.unitsAt b k).1, (x.unitsAt b k).2⟩ with
          | (s, x) => (s.setColJob x).colAdvance

/-- A collective taken from its queue: refused, or started (R328, R329). The layer of a broadcast of weights is read first. -/
def State.colTake (s : State) (p i : Nat) (d : List Byte) : State :=
  let l := if cdWeights d then s.readRange 2 p (s.fget F.UPD_LTAB_BASE_BASE p * 4096 + 64 * fieldLE d 36 2) 64 else (s, [], Span.ok)
  match l with
  | (s, _, .wait) => s
  | (s, bs, _) =>
    let l := bs.map (·.getD 0xFF)
    let r := s.colReason p d l
    if r ≠ 0 then (s.qTake .collective p).qRefuse .collective p i d r else s.colStart p i d l

/-- The command of one collective operation (R328): while the partition's queue has one in execution, that one goes on. -/
def State.colOp (s : State) (p opcode : Nat) : State :=
  if (s.colJob p).isSome then s.colAdvance
  else if s.fget F.PTC_STAT_STATE p = 0 ∨ s.fget F.PTC_STAT_STATE p = 4 then s
  else s.qRun .collective p opcode (fun o => decide (0x30 ≤ o) && decide (o ≤ 0x36)) fun s i d => s.colTake p i d

/-! ### Arrivals -/

/-- A message's group, when its form is right; a CRC failure is logged (R332). -/
def State.colHead (s : State) (msg : List Byte) (typ : Nat) : State × Option Nat :=
  let n := fieldLE msg 16 4
  if !crcOk msg 28 || fieldLE msg 24 4 != crc32c ((msg.drop 32).take n) then
    (s.logErr { block := Page.COL, code := 0x0702, sev := 0 }, none)
  else if fieldLE msg 0 1 ≠ typ ∨ fieldLE msg 1 1 ≠ 1 then (s, none)
  else (s, s.grpOfTag (fieldLE msg 2 2))

/-- A READY or a barrier ARRIVAL held: the last one of a rank and group, in their own lists (R332). -/
def holdIn (l : List ColHeld) (h : ColHeld) : List ColHeld := l.filter (fun y => !(y.group == h.group && y.rank == h.rank)) ++ [h]

/-- The collective in execution of a group. -/
def State.groupJob (s : State) (g : Nat) : Option ColJob := s.col.jobs.find? fun x => x.group == g && x.ended.isNone

/-- A segment dropped as not current. -/
def State.colStale (s : State) : State := s.bump F.COL_STALE_CNT_COUNT

/-- A segment of the receiver's current step lands (R332, R333). -/
def State.colLand (s : State) (x : ColJob) (t : ColStep) (msg : List Byte) : State :=
  let n := fieldLE msg 16 4
  let off := fieldLE msg 12 4
  let fl := fieldLE msg 20 1
  let bs := ((msg.drop 32).take n).map fun b => if bit fl 1 then (none : Option Byte) else some b
  let j := x.reduceIndex x.rcv
  let where_ := if t.mode = .lanes then [(ldAddr x.desc 24 + j % 2 * landSlot x.desc x.wide x.n, t.len)] else t.dst
  let units (place : Nat × Nat) : Nat × Nat := if cdOp x.desc = 0x36 then (x.rcv - 1, x.rcv) else x.unitsAt place.1 place.2
  let places := (spread t.dst off bs).map fun y => units (y.1, y.2.length)
  let (s, x) := (List.zip (spread where_ off bs) places).foldl (fun acc r =>
    acc.1.colPut acc.2 ⟨r.1.1, r.1.2, t.mode == .engine, r.2.1, r.2.2⟩) (s, x)
  let x := if cdOp x.desc = 0x36 ∧ bit fl 1 = true then { x with bad := x.bad ++ [(x.rcv - 1, x.rcv, 4)] } else x
  let x := { x with got := x.got + n, segs := x.segs ++ [(off, n)], since := s.tick.hall }
  if t.len ≤ x.got then
    let x := if t.mode = .lanes then { x with landing := some (cdFrag x.desc + j) } else x
    let (s, x) := if x.todo.isEmpty then State.colFlush x [] s else (s, x)
    (s.setColJob { x with rcv := x.rcv + 1, asked := false, got := if cdOp x.desc = 0x33 then x.got else 0,
                           segs := if cdOp x.desc = 0x33 then x.segs else [] }).colAdvance
  else (s.setColJob x).colAdvance

/-- A SEGMENT received. -/
def State.colSegment (s : State) (msg : List Byte) : State :=
  match s.colHead msg 0x20 with
  | (s, none) => if crcOk msg 28 && fieldLE msg 24 4 == crc32c ((msg.drop 32).take (fieldLE msg 16 4)) then s.colStale else s
  | (s, some g) =>
    match s.groupJob g with
    | none => s.colStale
    | some x =>
      let t := x.step x.rcv
      if fieldLE msg 4 4 = x.seq ∧ fieldLE msg 8 2 = x.rcv ∧ x.rcv ≤ x.total ∧ x.asked = true ∧ t.from_ = some (fieldLE msg 10 2) ∧
          fieldLE msg 12 4 + fieldLE msg 16 4 ≤ t.len then s.colLand x t msg
      else s.colStale

/-- A READY received. -/
def State.colReadyIn (s : State) (msg : List Byte) : State :=
  match s.colHead msg 0x21 with
  | (s, none) => s
  | (s, some g) =>
    let h : ColHeld := ⟨g, fieldLE msg 10 2, fieldLE msg 4 4, fieldLE msg 8 2⟩
    if (alGet s.col.seqs g).getD 0 < h.seq ∨ (s.groupJob g).any (fun x => x.seq == h.seq) = true then
      ({ s with col := { s.col with ready := holdIn s.col.ready h } }).colAdvance
    else s

/-- A barrier ARRIVAL received; one for every step may be held. -/
def State.colArrivalIn (s : State) (msg : List Byte) : State :=
  match s.colHead msg 0x22 with
  | (s, none) => s
  | (s, some g) =>
    let h : ColHeld := ⟨g, fieldLE msg 10 2, fieldLE msg 4 4, fieldLE msg 8 2⟩
    if ((alGet s.col.seqs g).getD 0 < h.seq ∨ (s.groupJob g).any (fun x => x.seq == h.seq) = true) ∧ s.col.arrived.contains h = false then
      ({ s with col := { s.col with arrived := s.col.arrived ++ [h] } }).colAdvance
    else s

/-! ### Failure (R342) -/

/-- Whether a collective waits for data, or for a READY (R342). -/
def ColJob.waitsData (x : ColJob) : Bool :=
  decide (x.rcv ≤ x.total) && (x.step x.rcv).from_.isSome && (x.asked || cdOp x.desc == 0x35)
def State.waitsReady (s : State) (x : ColJob) : Bool :=
  decide (x.snd ≤ x.total) && (x.data.isSome || cdOp x.desc == 0x33 && x.wide) && (x.step x.snd).peer.any fun q => !s.colReady x q x.snd

/-- Whether a step has waited longer than `COL_TIMEOUT` on either side. -/
def State.colLate (s : State) (x : ColJob) : Bool :=
  let limit := 1000 * clamp 10 60000 (s.fget F.COL_TIMEOUT_US)
  (x.waitsData && decide (x.since + limit < s.tick.hall)) || (s.waitsReady x && decide (x.sinceSnd + limit < s.tick.hall))

/-- A step has waited longer than `COL_TIMEOUT`. -/
def State.colTimeout (s : State) (p : Nat) : State :=
  match s.colJob p with
  | none => s
  | some x =>
    if x.ended.isSome ∨ s.colLate x = false then s
    else
      let t := x.step x.rcv
      let s := if x.rcv ≤ x.total ∧ t.mode = .lanes ∧ x.asked = true then
          let h := cdFrag x.desc + x.reduceIndex x.rcv
          s.setFrag h 3 none
        else s
      let s := (s.bump F.COL_TIMEOUT_CNT_COUNT).logErr { block := Page.COL, code := 0x0701, sev := 1, part := some p }
      (s.irq Page.COL 0).colEnd x 2

end Sys2Proof.Machine
end

