-- ==== Sys2Proof/Machine/FabIn.lean ====
section
/-! DEFINITION. Inbound fabric requests: the checks of R303, regions and KX windows (R304–R306), the block list (R321),
combined requests (R299), borrowed frames (R283). -/

namespace Sys2Proof.Machine

open Sys2Proof

/-- An inbound transaction with its header: credits (R453), its flits (R310), the header's own check (R303 step 1). -/
def onTxn (hdr payload : List Byte) (s : State) (f : State → Txn → State) : Host.Outcome State Fault Refusal :=
  onPage s Page.FBP fun s =>
    let t := Txn.ofHeader hdr payload
    if s.rxCredits t.vc t.resp = 0 then s.noCredit (t.src % 2 ^ 20) t.vc
    else
      let s := s.received t.vc t.resp (hdr ++ payload)
      if hdr.length ≠ 32 ∨ crcOk hdr 28 = false ∨ t.typ < 1 ∨ 6 < t.typ ∨ t.dst ≠ s.fget F.FBP_NODE_NODE ∨ nodeMax < t.dst ∨
          nodeMax < t.src then s.bump F.FBP_RX_BAD_COUNT
      else f s t

/-- Whether a request is in order in itself (R295, R296, R299; R303 step 5). -/
def Txn.wellFormed (t : Txn) : Bool :=
  let combined : Bool := decide (2 ≤ t.count)
  match t.typ with
  | 1 => decide (1 ≤ t.len) && decide (t.offset % 256 + t.len ≤ 256) && t.payload.isEmpty && (!combined || t.combinable)
  | 2 => decide (1 ≤ t.len) && decide (t.offset % 256 + t.len ≤ 256) && t.payload.length == t.len && !combined
  | _ =>
    match atomWidth t.op with
    | none => false
    | some w => t.len == 16 && t.payload.length == 16 && t.offset % w == 0 && (!combined || (t.combinable && atomCombinable t.op))

/-- Bytes of the region a request touches. -/
def Txn.span (t : Txn) : Nat := if t.typ = 3 then (atomWidth t.op).getD 4 else t.len

/-- Where a request that passes step 6 goes. -/
inductive ReqTarget where
  /-- a partition address, or an address in a sequence -/
  | addr (part : Nat) (seq : Option Nat) (a : Nat)
  /-- a frame lent to the source -/
  | lent (frame off : Nat)
  deriving DecidableEq, Repr

/-- Whether a word's permission bits READ, WRITE, ATOMIC (from bit `lo`) allow a request (R304). -/
def allows (w lo typ : Nat) : Bool :=
  match typ with
  | 1 => bit w lo
  | 2 => bit w (lo + 1)
  | _ => bit w (lo + 1) && bit w (lo + 2)

/-- The region entry a key names. -/
def State.regionOf (s : State) (key : Nat) : Option Nat :=
  if key = 0 then none
  else (List.range 256).find? fun e => s.flag F.FBK_REG_CFG_VALID e && s.rd R.FBK_REG_KEY e == key

/-- Step 6 of R303: region key, range and permission; KX window and job; lent frame. -/
def State.reqTarget (s : State) (t : Txn) : Option ReqTarget :=
  if t.kx then
    let job := t.key % 2 ^ 16
    let partner := (List.range 4096).any fun e => s.flag F.FBP_PTN_NODE_VALID e && s.fget F.FBP_PTN_NODE_NODE e == t.src
      && s.flag F.FBP_PTN_NODE_KX_OK e && s.fget F.FBP_PTN_JOB_JOB e == job
    let window := (List.range 64).find? fun w => s.flag F.FBK_KX_CFG_VALID w && s.fget F.FBK_KX_CFG_JOB w == job
      && decide (s.fget F.FBK_KX_VA_VA w * frameSize ≤ t.offset)
      && decide (t.offset + t.len ≤ (s.fget F.FBK_KX_VA_VA w + s.fget F.FBK_KX_PAGES_PAGES w) * frameSize)
      && allows (s.rd R.FBK_KX_CFG w) 19 t.typ
    if s.flag F.FBK_CTRL_KX_EN && partner then
      window.map fun w => .addr (s.fget F.FBK_KX_CFG_PART w) none
        (s.fget F.FBK_KX_BASE_PAGE w * frameSize + (t.offset - s.fget F.FBK_KX_VA_VA w * frameSize))
    else none
  else if t.vc = 7 ∧ t.key = 0 then
    if t.typ = 3 ∨ !s.isBorrower t.src then none
    else (s.pages.loans.find? fun l => l.node == t.src && l.index == t.offset / frameSize).map fun l =>
      .lent l.frame (t.offset % frameSize)
  else
    match s.regionOf t.key with
    | none => none
    | some e =>
      let len := s.rd R.FBK_REG_LEN_LO e + s.fget F.FBK_REG_LEN_HI_LEN e * 2 ^ 32
      let p := s.fget F.FBK_REG_CFG_PART e
      let base := s.fget F.FBK_REG_BASE_BASE e
      if !allows (s.rd R.FBK_REG_CFG e) 4 t.typ || decide (len < t.offset + t.span) then none
      else if s.flag F.FBK_REG_CFG_KIND e then some (.addr p (some (base % 2 ^ 17)) t.offset)
      else some (.addr p none (base * 4096 + t.offset))

/-- A source added to the block list once it has caused the limit of key failures in a millisecond (R321). -/
def State.blockNode (s : State) (src n : Nat) : State :=
  let lim := s.fget F.FBK_CTRL_FAIL_LIMIT
  let listed := (List.range 16).any fun b => s.flag F.FBK_BLK_NODE_VALID b && s.fget F.FBK_BLK_NODE_NODE b == src
  if lim = 0 ∨ n < lim ∨ listed = true then s
  else
    match (List.range 16).find? fun b => !s.flag F.FBK_BLK_NODE_VALID b with
    | none => s.set1 F.FBK_STAT_BLOCK_FULL
    | some b =>
      ((s.wr R.FBK_BLK_NODE b (src + 2 ^ 31)).irq Page.FBK 0).logErr
        { block := Page.FBK, code := 0x0604, sev := 0, kind := 5, addr := src, detail := [src, 0, 0, 0] }

/-- A key failure counted for its source (R321). -/
def State.keyFail (s : State) (hdr : List Byte) : State :=
  let src := fieldLE hdr 8 4
  let s := (s.bump F.FBK_KEY_FAIL_CNT_COUNT).refuseReq hdr 6 3
  let recent : List (Nat × Nat) := (src, s.tick.hall) :: s.fab.fails.filter fun x => !s.msSince x.2
  ({ s with fab := { s.fab with fails := recent } }).blockNode src (recent.countP fun (x : Nat × Nat) => x.1 == src)

/-- A LOAD or STORE of a lent frame (R283). -/
def State.lentAccess (s : State) (hdr : List Byte) (t : Txn) (f off : Nat) : State :=
  if t.typ = 1 then
    let (s, r) := s.readTier .t1 (f * frameSize + off) t.len
    s.respondData hdr r.bytes
  else (s.writeTier .t1 (f * frameSize + off) (t.payload.map some)).respond hdr 0 [] false

/-- An inbound LOAD, STORE or ATOMIC: steps 2 to 8 of R303. -/
def State.fabRequest (s : State) (hdr : List Byte) (t : Txn) : State :=
  let own := s.fget F.FBP_NODE_NODE
  if t.gate && t.vc != 0 then (s.gateDrop t.src t.vc t.tag 3).refuseReq hdr 2 3
  else if (List.range 16).any (fun b => s.flag F.FBK_BLK_NODE_VALID b && s.fget F.FBK_BLK_NODE_NODE b == t.src) then
    s.bump F.FBK_BLOCKED_CNT_COUNT
  else if !sameStage t.src own then (s.bump F.FBP_RX_HOSTILE_COUNT).refuseReq hdr 4 3
  else if !t.wellFormed then (s.bump F.FBP_RX_BAD_COUNT).refuseReq hdr 5 5
  else
    match s.reqTarget t with
    | none => s.keyFail hdr
    | some (.lent f off) =>
      let s := if 2 ≤ t.count then s.bump F.FBP_COMBINED_CNT_COUNT else s
      s.lentAccess hdr t f off
    | some (.addr p q a) =>
      if s.fget F.PTC_STAT_STATE p = 4 then s.refuseReq hdr 7 5
      else
        let s := if 2 ≤ t.count then s.bump F.FBP_COMBINED_CNT_COUNT else s
        s.access (match t.typ with
          | 1 => ⟨2, .fabLoad hdr, p, q, a, t.len, [], 0⟩
          | 2 => ⟨2, .fabStore hdr, p, q, a, 0, t.payload.map some, 0⟩
          | _ => ⟨2, .fabAtomic hdr t.payload, p, q, a, t.span, [], 0⟩)

/-- An inbound request of one TYPE; an atomic of one OP when it is given. -/
def inbound (typ : Nat) (op : Option Nat) (hdr payload : List Byte) (s : State) : Host.Outcome State Fault Refusal :=
  onTxn hdr payload s fun s t => if t.typ = typ ∧ (op = none ∨ op = some t.op) then s.fabRequest hdr t else s

/-- `LOAD` (R295). -/
def execFabLoad (hdr payload : List Byte) (s : State) : Host.Outcome State Fault Refusal := inbound 1 none hdr payload s

/-- `STORE` (R295). -/
def execFabStore (hdr payload : List Byte) (s : State) : Host.Outcome State Fault Refusal := inbound 2 none hdr payload s

/-- `ATOMIC` (R297). -/
def execAtomic (hdr payload : List Byte) (s : State) : Host.Outcome State Fault Refusal := inbound 3 none hdr payload s

/-- `ADD_I32` (R296). -/
def execAddI32 (hdr payload : List Byte) (s : State) : Host.Outcome State Fault Refusal := inbound 3 (some 1) hdr payload s

/-- `ADD_I64` (R296). -/
def execAddI64 (hdr payload : List Byte) (s : State) : Host.Outcome State Fault Refusal := inbound 3 (some 2) hdr payload s

/-- `ADD_F32` (R296). -/
def execAddF32 (hdr payload : List Byte) (s : State) : Host.Outcome State Fault Refusal := inbound 3 (some 3) hdr payload s

/-- `MIN_S32` (R296). -/
def execMinS32 (hdr payload : List Byte) (s : State) : Host.Outcome State Fault Refusal := inbound 3 (some 4) hdr payload s

/-- `MIN_S64` (R296). -/
def execMinS64 (hdr payload : List Byte) (s : State) : Host.Outcome State Fault Refusal := inbound 3 (some 5) hdr payload s

/-- `MIN_U32` (R296). -/
def execMinU32 (hdr payload : List Byte) (s : State) : Host.Outcome State Fault Refusal := inbound 3 (some 6) hdr payload s

/-- `MIN_U64` (R296). -/
def execMinU64 (hdr payload : List Byte) (s : State) : Host.Outcome State Fault Refusal := inbound 3 (some 7) hdr payload s

/-- `MIN_F32` (R296). -/
def execMinF32 (hdr payload : List Byte) (s : State) : Host.Outcome State Fault Refusal := inbound 3 (some 8) hdr payload s

/-- `MAX_S32` (R296). -/
def execMaxS32 (hdr payload : List Byte) (s : State) : Host.Outcome State Fault Refusal := inbound 3 (some 9) hdr payload s

/-- `MAX_S64` (R296). -/
def execMaxS64 (hdr payload : List Byte) (s : State) : Host.Outcome State Fault Refusal := inbound 3 (some 10) hdr payload s

/-- `MAX_U32` (R296). -/
def execMaxU32 (hdr payload : List Byte) (s : State) : Host.Outcome State Fault Refusal := inbound 3 (some 11) hdr payload s

/-- `MAX_U64` (R296). -/
def execMaxU64 (hdr payload : List Byte) (s : State) : Host.Outcome State Fault Refusal := inbound 3 (some 12) hdr payload s

/-- `MAX_F32` (R296). -/
def execMaxF32 (hdr payload : List Byte) (s : State) : Host.Outcome State Fault Refusal := inbound 3 (some 13) hdr payload s

/-- `CAS_32` (R296). -/
def execCas32 (hdr payload : List Byte) (s : State) : Host.Outcome State Fault Refusal := inbound 3 (some 14) hdr payload s

/-- `CAS_64` (R296). -/
def execCas64 (hdr payload : List Byte) (s : State) : Host.Outcome State Fault Refusal := inbound 3 (some 15) hdr payload s

end Sys2Proof.Machine
end

