-- ==== Sys2Proof/Machine/PageQueue.lean ====
section
/-! DEFINITION. The page queue's operations (R263–R269, R273–R281), one function per kind of unit, and the running of a
descriptor's units in ascending order. -/

namespace Sys2Proof.Machine

open Sys2Proof

/-! ### Frames a unit may name -/

/-- Whether a frame holds part of an installed coded region or its tag area (R58, R91). -/
def State.inCoded (s : State) (t : Tier) (f : Nat) : Bool :=
  (List.range 16).any fun g =>
    Grp.state s g != 0 && Grp.tier s g == t &&
    (overlaps (16 * f) 16 (s.fget F.CDE_GRP_BASE_BASE g) (Grp.rows s g)
      || overlaps (16 * f) 16 (s.fget F.CDE_GRP_TAG_TAG_BASE g) (Grp.tagSlots s g))

/-- Whether a frame of a tier may not be reserved, given back or mapped by a partition at all (R259, R266, R368). -/
def State.frameBarred (s : State) (t : Tier) (f : Nat) : Bool :=
  decide (tierFrames t ≤ f) || s.inCoded t f || (t == .t1 && (s.isSummerhouse f || s.isMapFrame f))

/-! ### Units -/

/-- How a unit of a page queue descriptor stands. -/
inductive UnitOut where
  /-- ended, with its status -/
  | ended (st : Nat)
  /-- it waits: for its move, for a row, for a pin -/
  | blocked
  deriving DecidableEq, Repr

abbrev dFirst (d : List Byte) : Nat := fieldLE d 8 4
abbrev dCount (d : List Byte) : Nat := fieldLE d 12 4
abbrev dSeq (d : List Byte) : Nat := fieldLE d 16 4
abbrev dTarget (d : List Byte) : Nat := fieldLE d 20 4
abbrev dKind (d : List Byte) : Nat := fieldLE d 24 1
abbrev dFlags (d : List Byte) : Nat := fieldLE d 25 1
abbrev dSlot (d : List Byte) : Nat := fieldLE d 26 1
abbrev dIndex (d : List Byte) : Nat := fieldLE d 36 4

/-- The tier a KIND of FIXED, MOVE or RESERVE names: 2 is T2, else T1. -/
def tierOfKind (k : Nat) : Tier := if k = 2 then .t2 else .t1

/-- MAP of one page (R264, R266); a LOCK page is never put in T2 (R254). -/
def State.mapUnit (s : State) (p : Nat) (d : List Byte) (i : Nat) : State × UnitOut :=
  let pg := dFirst d % 2 ^ 24 + i
  match s.pmeRead p pg with
  | (s, .beyond) => (s, .ended 3)
  | (s, .poison) => (s, .ended 4)
  | (s, .pme e) =>
    let fl := dFlags d
    let new : Pme := { state := PgZero, master := bit fl 0, dropOk := bit fl 1, lock := bit fl 2, home := noHome,
                       anchor := true, gen := e.gen, refs := 1 }
    if e.state ≠ PgUnmapped ∧ e.state ≠ PgDropped then (s, .ended 7)
    else
      match dKind d with
      | 0 => (s.setPme p pg new, .ended 0)
      | 3 => (s.setPme p pg { new with state := PgCoded, frame := dSlot d, home := dIndex d + i }, .ended 0)
      | k =>
        let t := tierOfKind k
        let f := dTarget d + i
        if s.frameBarred t f || (t == .t2 && bit fl 2) then (s, .ended 3)
        else
          match s.frame t f with
          | .reserved q clean =>
            if q != p then (s, .ended 3)
            else
              let s := if clean then s else s.fillFrame t f
              ((s.setFrame t f (.fixed p pg)).setPme p pg
                { new with state := (match t with | .t1 => PgT1 | .t2 => PgT2), fixed := true, frame := f }, .ended 0)
          | _ => (s, .ended 3)

/-- The frames a poisoned entry named stay out of the pool (R258). -/
def State.losePageFrames (s : State) (p pg : Nat) : State :=
  let lose (f : Frames) : Frames := ⟨f.dflt, f.tab.map fun e => (e.1, e.2.lose p pg)⟩
  { s with pages := { s.pages with t1 := lose s.pages.t1, t2 := lose s.pages.t2 } }

/-- UNMAP of one page (R258, R264). -/
def State.unmapUnit (s : State) (p : Nat) (d : List Byte) (i : Nat) : State × UnitOut :=
  let pg := dFirst d % 2 ^ 24 + i
  match s.pmeRead p pg with
  | (s, .beyond) => (s, .ended 3)
  | (s, .poison) => ((s.losePageFrames p pg).putPme p pg {}, .ended 0)
  | (s, .pme e) =>
    if !e.anchor then (s, .ended 9)
    else ((s.setPme p pg { e with anchor := false }).dropRef p pg, .ended 0)

/-- MOVE of one page (R266–R269); it begins when no eviction stands before it (R267). -/
def State.moveUnit (s : State) (p : Nat) (d : List Byte) (i : Nat) : State × UnitOut :=
  let pg := dFirst d % 2 ^ 24 + i
  let k := dKind d
  match s.pmeRead p pg with
  | (s, .beyond) => (s, .ended 3)
  | (s, .poison) => (s, .ended 4)
  | (s, .pme e) =>
    if e.state = PgUnmapped ∨ e.state = PgDropped then (s, .ended 9)
    else if e.state = PgMoving then (s, .blocked)
    else if e.fixed || e.state == PgCoded then (s, .ended 3)
    else if k ≠ 1 ∧ e.lock = true then (s, .ended 3)
    else if e.state = k + 1 ∨ e.state = PgZero then (s, .ended 0)
    else if k = 3 ∧ (e.master = true ∨ e.dirty = true ∨ (e.hasHome = false ∧ e.dropOk = false)) then (s, .ended 3)
    else if 255 ≤ e.pins then (s.pinStall (.page p i), .blocked)
    else if s.evictWaits then (s.pinGo (.page p i), .blocked)
    else
      match (s.pinGo (.page p i)).startMove p pg k (bit (dFlags d) 4) 3 with
      | (s, .failed st) => (if k = 3 then s.noSpace p pg true else s, .ended st)
      | (s, _) => (s, .blocked)

/-- RESERVE of one frame, or its return (R264, R266, R271, R286). -/
def State.reserveUnit (s : State) (p : Nat) (d : List Byte) (i : Nat) : State × UnitOut :=
  let t := tierOfKind (dKind d)
  let f := dFirst d + i
  if s.frameBarred t f then (s, .ended 3)
  else if bit (dFlags d) 3 then
    match s.frame t f with
    | .reserved q _ => if q = p then (s.releaseFrame t f, .ended 0) else (s, .ended 3)
    | _ => (s, .ended 3)
  else
    match s.frame t f with
    | .free => (s.setFrame t f (.reserved p true), .ended 0)
    | .kept => (s.setFrame t f (.reserved p true), .ended 0)
    | .dirty => ((s.fillFrame t f).setFrame t f (.reserved p true), .ended 0)
    | _ => (s, .ended 3)

/-- SEQ_ADD of one virtual page (R273). -/
def State.seqAddUnit (s : State) (p : Nat) (d : List Byte) (i : Nat) : State × UnitOut :=
  let v := dFirst d + i
  match s.seqLookup p (dSeq d) v with
  | (s, .wait) => (s, .blocked)
  | (s, .page _) => (s, .ended 7)
  | (s, .invalid) =>
    match s.kvTake p with
    | (s, none) => (s, .ended 6)
    | (s, some pg) =>
      match s.pmeRead p pg with
      | (s, .beyond) => (s.kvReturn p pg, .ended 3)
      | (s, .poison) => (s.kvReturn p pg, .ended 4)
      | (s, .pme e) =>
        let fl := dFlags d
        match s.seqSet (.page p i) p (dSeq d) v (some pg) with
        | (s, .ok) =>
          (s.setPme p pg { state := PgZero, master := bit fl 0, dropOk := bit fl 1, lock := bit fl 2, home := noHome,
                           gen := e.gen, refs := 1 }, .ended 0)
        | (s, .refused st) => (s.kvReturn p pg, .ended st)
        | (s, _) => (s.kvReturn p pg, .blocked)

/-- SEQ_SHARE of one virtual page (R273). A page the entry named before loses its reference (R258). -/
def State.seqShareUnit (s : State) (p : Nat) (d : List Byte) (i : Nat) : State × UnitOut :=
  let v := dFirst d + i
  let pg := dTarget d % 2 ^ 24
  match s.pmeRead p pg with
  | (s, .beyond) => (s, .ended 3)
  | (s, .poison) => (s, .ended 4)
  | (s, .pme e) =>
    if e.gen ≠ dTarget d / 2 ^ 24 ∨ e.state = PgUnmapped then (s, .ended 7)
    else if 65535 ≤ e.refs then (s, .ended 6)
    else
      match s.seqLookup p (dSeq d) v with
      | (s, .wait) => (s, .blocked)
      | (s, old) =>
        match s.seqSet (.page p i) p (dSeq d) v (some pg) with
        | (s, .ok) =>
          let s := s.setPme p pg { s.pme p pg with refs := e.refs + 1 }
          (match old with
           | .page x => s.dropRef p x
           | _ => s, .ended 0)
        | (s, .refused st) => (s, .ended st)
        | (s, _) => (s, .blocked)

/-- SEQ_FREE of one virtual page (R275); COUNT 0 covers the whole sequence. -/
def State.seqFreeUnit (s : State) (p : Nat) (d : List Byte) (i : Nat) : State × UnitOut :=
  let v := if dCount d = 0 then i else dFirst d + i
  match s.seqLookup p (dSeq d) v with
  | (s, .wait) => (s, .blocked)
  | (s, .invalid) => (s, .ended 0)
  | (s, .page pg) =>
    match s.pmeRead p pg with
    | (s, .beyond) => (s, .ended 3)
    | (s, .poison) => (s, .ended 4)
    | (s, .pme _) =>
      match s.seqSet (.page p i) p (dSeq d) v none with
      | (s, .ok) => (s.dropRef p pg, .ended 0)
      | (s, .refused st) => (s, .ended st)
      | (s, _) => (s, .blocked)

/-- COW of one virtual page (R274). -/
def State.cowUnit (s : State) (p : Nat) (d : List Byte) (i : Nat) : State × UnitOut :=
  let v := dFirst d + i
  match s.seqLookup p (dSeq d) v with
  | (s, .wait) => (s, .blocked)
  | (s, .invalid) => (s, .ended 9)
  | (s, .page pg) =>
    match s.cowPage (.page p i) p (dSeq d) v pg with
    | (s, some (.inl _)) => (s, .ended 0)
    | (s, some (.inr st)) => (s, .ended st)
    | (s, none) => (s, .blocked)

/-! ### The prefix table (R277–R280) -/

/-- Buckets of the table (R289). -/
def State.pftBuckets (s : State) : Nat := 2 ^ clamp 4 17 (s.fget F.PFT_CFG_LOG2)

/-- Tower address of an entry. -/
def State.pftAddr (s : State) (i : Nat) : Nat := s.fget F.PFT_BASE_FRAME * frameSize + 16 * i

/-- The bytes of an entry that was read; poison reads as an entry that is not VALID. -/
def pftBytes (r : Read) : List Byte := if r.poisoned then List.replicate 16 0 else r.raw

/-- An entry read. -/
def State.pftGet (s : State) (i : Nat) : State × Read := s.readTier .t1 (s.pftAddr i) 16

abbrev pftValid (e : List Byte) : Bool := bit (fieldLE e 14 1) 7
abbrev pftPart (e : List Byte) : Nat := bits (fieldLE e 14 1) 4 3

/-- An entry's VALID cleared. -/
def State.pftClear (s : State) (i : Nat) (e : List Byte) : State :=
  if pftValid e then
    let s := s.towerPut (s.pftAddr i + 14) [some (BitVec.ofNat 8 (setBit (fieldLE e 14 1) 7 false))]
    s.fset F.PFT_USED_ENTRIES 0 (s.fget F.PFT_USED_ENTRIES - 1)
  else s

/-- The first free entry of bucket b, in entry order (R278). -/
def State.pftSlot (s : State) (b : Nat) : State × Option Nat :=
  (List.range 8).foldl (fun (acc : State × Option Nat) e =>
    match acc.2 with
    | some _ => acc
    | none =>
      let p := acc.1.pftGet (8 * b + e)
      (p.1, if pftValid (pftBytes p.2) then none else some (8 * b + e))) (s, none)

/-- PFT_INSERT into the entry found, or into a full bucket (R278). -/
def State.pftPlace (s : State) (p : Nat) (d : List Byte) (slot : Option Nat) : State × UnitOut :=
  match slot with
  | none => (s.bump F.PFT_FULL_CNT_COUNT, .ended 6)
  | some i =>
    let t := dTarget d
    let bs := leBytes 8 (fieldLE d 28 8) ++ leBytes 3 (t % 2 ^ 24) ++ leBytes 1 (t / 2 ^ 24) ++ leBytes 2 (dIndex d)
      ++ leBytes 1 (dSlot d % 16 + p % 8 * 16 + 128) ++ leBytes 1 0
    ((s.towerPut (s.pftAddr i) (bs.map some)).bump F.PFT_USED_ENTRIES, .ended 0)

/-- PFT_INSERT (R278); with the table disabled there is no entry to take (log entry 25). -/
def State.pftInsertUnit (s : State) (p : Nat) (d : List Byte) : State × UnitOut :=
  if !s.flag F.PFT_CFG_ENABLE then (s, .ended 6)
  else
    let f := s.pftSlot (fieldLE d 28 8 % s.pftBuckets)
    f.1.pftPlace p d f.2

/-- The entry d names taken out, unless it is another partition's. -/
def State.pftDrop (s : State) (p : Nat) (d e : List Byte) : State × UnitOut :=
  if pftValid e && pftPart e != p then (s, .ended 3) else (s.pftClear (dFirst d) e, .ended 0)

/-- PFT_REMOVE (R278). -/
def State.pftRemoveUnit (s : State) (p : Nat) (d : List Byte) : State × UnitOut :=
  if !s.flag F.PFT_CFG_ENABLE then (s, .ended 9)
  else
    let f := s.pftGet (dFirst d)
    f.1.pftDrop p d (pftBytes f.2)

/-- Entry i compared with a key, and kept as a match while its page's generation is the entry's; a stale one is cleared and
counted (R279). -/
def State.pftCheck (s : State) (p key i : Nat) (x : List Byte) (out : List (Nat × List Byte)) :
    State × List (Nat × List Byte) :=
  if pftValid x && pftPart x == p && fieldLE x 0 8 == key then
    match s.pmeRead p (fieldLE x 8 3) with
    | (s, .pme d) =>
      if d.gen = fieldLE x 11 1 then (s, out ++ [(i, x)])
      else ((s.pftClear i x).bump F.PFT_STALE_CNT_COUNT, out)
    | (s, _) => ((s.pftClear i x).bump F.PFT_STALE_CNT_COUNT, out)
  else (s, out)

/-- The entries of a bucket a key may match, stale ones cleared and counted (R279): index and entry. -/
def State.pftMatches (s : State) (p key : Nat) : State × List (Nat × List Byte) :=
  (List.range 8).foldl (fun (acc : State × List (Nat × List Byte)) e =>
    let i := 8 * (key % s.pftBuckets) + e
    let f := acc.1.pftGet i
    f.1.pftCheck p key i (pftBytes f.2) acc.2) (s, [])

/-- The result of a lookup that found nothing. -/
def pftNone : List Byte := leBytes 6 0 ++ leBytes 1 9 ++ leBytes 9 0

/-- The matches of the highest priority, in index order (R279). -/
def pftWinners (ms : List (Nat × List Byte)) : List (Nat × List Byte) :=
  let prio (x : List Byte) : Nat := fieldLE x 14 1 % 16
  let top := ms.foldl (fun a m => max a (prio m.2)) 0
  ms.filter fun m => prio m.2 == top

/-- The 16-byte result of a lookup whose winners are given, and whether equal winners met (R279, R280). -/
def State.pftPick (s : State) (p : Nat) (ms : List (Nat × List Byte)) : State × List Byte × Bool :=
  match ms with
  | [] => (s, pftNone, false)
  | (i, x) :: more =>
    let multi := !more.isEmpty
    let res := leBytes 3 (fieldLE x 8 3) ++ leBytes 1 (fieldLE x 11 1) ++ leBytes 2 (fieldLE x 12 2)
      ++ leBytes 1 (if multi then 8 else 0) ++ leBytes 1 0 ++ leBytes 4 (i % 2 ^ 20) ++ leBytes 4 0
    if multi then
      let s := (s.bump F.PFT_MULTI_CNT_COUNT).wr R.PFT_LAST_MULTI 0 (i % 2 ^ 20 + p % 8 * 2 ^ 20 + 2 ^ 31)
      let s := s.logErr { block := Page.PFT, code := 0x0510, sev := 0, part := some p,
                          detail := [fieldLE x 8 3, (s.pme p (fieldLE x 8 3)).state, s.pageJobWord p, fieldLE x 11 1] }
      (s.irq Page.PFT 0, res, true)
    else (s, res, false)

/-- One key looked up (R279, R280). -/
def State.pftFind (s : State) (p key : Nat) : State × List Byte × Bool :=
  if !s.flag F.PFT_CFG_ENABLE then (s, pftNone, false)
  else
    let f := s.pftMatches p key
    f.1.pftPick p (pftWinners f.2)

/-- The result of a partition's lookup kept with its job while it waits to be written. -/
def State.keepFound (s : State) (p : Nat) (r : Option (List Byte × Bool)) : State :=
  { s with pages := { s.pages with jobs := s.pages.jobs.map fun j => if j.part == p then { j with found := r } else j } }

/-- The result of a lookup written at its place in TARGET; while it must wait it is kept, so that one lookup is made and counted
once (R279, R280). -/
def State.pftResult (s : State) (p : Nat) (d : List Byte) (i : Nat) (res : List Byte) (multi : Bool) : State × UnitOut × Bool :=
  match s.writeRange (.page p i) p (dTarget d * 4096 + 16 * i) s.tick.now (res.map some) with
  | (s, .ok) => (s, .ended 0, multi)
  | (s, .refused st) => (s, .ended st, multi)
  | (s, _) => (s.keepFound p (some (res, multi)), .blocked, multi)

/-- PFT_LOOKUP of one key (R280). -/
def State.pftLookupUnit (s : State) (p : Nat) (d : List Byte) (i : Nat) : State × UnitOut × Bool :=
  match (s.pages.jobs.find? fun j => j.part == p).bind (·.found) with
  | some (res, multi) => s.pftResult p d i res multi
  | none =>
    match s.readRange 2 p (dFirst d * 4096 + 8 * i) 8 with
    | (s, _, .refused st) => (s, .ended st, false)
    | (s, bs, .ok) =>
      if bs.any (·.isNone) then (s, .ended 4, false)
      else
        let (s, res, multi) := s.pftFind p (ofLE (bs.map (·.getD 0)))
        s.pftResult p d i res multi
    | (s, _, _) => (s, .blocked, false)

/-! ### Descriptors -/

/-- Whether the page queue knows an opcode (R264). -/
def pageOpKnown (op : Nat) : Bool := decide (0x10 ≤ op) && decide (op ≤ 0x1A)

/-- The units of a page queue descriptor (R264, R265). -/
def State.pageUnits (s : State) (p : Nat) (d : List Byte) : Nat :=
  match fieldLE d 0 1 with
  | 0x16 => if dCount d = 0 then s.seqPages p else dCount d
  | 0x19 => 1
  | 0x1A => 1
  | _ => dCount d

/-- First reason to refuse a descriptor whose head is in order, 0 when there is none (R200, R264–R266; log entry 26). -/
def State.pageReason (s : State) (p : Nat) (d : List Byte) : Nat :=
  let op := fieldLE d 0 1
  let n := dCount d
  let single := op == 0x19 || op == 0x1A
  let coded := op == 0x10 && dKind d == 3
  let g := dSlot d
  let seq := op == 0x14 || op == 0x15 || op == 0x16 || op == 0x17
  if !descZero d 27 1 || !descZero d 40 20 then 1
  else if coded && decide (g < 16) && Grp.state s g != 0 && Grp.part s g != p then 3
  else if op == 0x18 && (!s.runInMap p (dFirst d * 4096) (8 * n) || !s.runInMap p (dTarget d * 4096) (16 * n)
      || s.runMaster p (dTarget d * 4096) (16 * n)) then 3
  else if !single && (decide (4096 < n) || (n == 0 && op != 0x16)) then 4
  else if op == 0x10 && decide (3 < dKind d) then 4
  else if op == 0x12 && (dKind d == 0 || decide (3 < dKind d)) then 4
  else if op == 0x13 && (dKind d == 0 || decide (2 < dKind d)) then 4
  else if coded && (decide (16 ≤ g) || decide (ceilDiv (s.codedBlocks g) 16 < dIndex d + n)) then 4
  else if seq && (decide (s.fget F.XLT_SEQ_COUNT_COUNT p ≤ dSeq d) || (n != 0 && decide (s.seqPages p < dFirst d + n))) then 4
  else if op == 0x1A && decide (8 * s.pftBuckets ≤ dFirst d) then 4
  else 0

/-- One unit of a descriptor: the state, how the unit stands, whether it met a multi-match. -/
def State.pageUnit (s : State) (p : Nat) (d : List Byte) (i : Nat) : State × UnitOut × Bool :=
  let plain (x : State × UnitOut) : State × UnitOut × Bool := (x.1, x.2, false)
  match fieldLE d 0 1 with
  | 0x10 => plain (s.mapUnit p d i)
  | 0x11 => plain (s.unmapUnit p d i)
  | 0x12 => plain (s.moveUnit p d i)
  | 0x13 => plain (s.reserveUnit p d i)
  | 0x14 => plain (s.seqAddUnit p d i)
  | 0x15 => plain (s.seqShareUnit p d i)
  | 0x16 => plain (s.seqFreeUnit p d i)
  | 0x17 => plain (s.cowUnit p d i)
  | 0x18 => s.pftLookupUnit p d i
  | 0x19 => plain (s.pftInsertUnit p d)
  | _ => plain (s.pftRemoveUnit p d)

/-- The job of a partition's page queue, if a descriptor is in execution. -/
def State.jobOf (s : State) (p : Nat) : Option PageJob := s.pages.jobs.find? fun j => j.part == p

/-- A partition's job replaced, or removed. -/
def State.setJob (s : State) (p : Nat) (j : Option PageJob) : State :=
  { s with pages := { s.pages with jobs := s.pages.jobs.filter (fun x => x.part != p) ++ j.toList } }

/-- A job whose units have all ended completes (R218). -/
def State.endJob (s : State) (j : PageJob) (units : Nat) : State :=
  let fails := (List.zipIdx j.ended).filterMap fun e => if e.1 = 0 then none else some (e.2, e.1)
  (s.setJob j.part none).qComplete .page j.part j.index j.desc units fails j.multi

/-- A partition's job carried on, unit by unit, until a unit waits or the last has ended. -/
def State.runJob : Nat → State → Nat → State
  | 0, s, p =>
    match s.jobOf p with
    | some j => if s.pageUnits p j.desc ≤ j.ended.length then s.endJob j (s.pageUnits p j.desc) else s
    | none => s
  | n + 1, s, p =>
    match s.jobOf p with
    | none => s
    | some j =>
      if s.pageUnits p j.desc ≤ j.ended.length then s.endJob j (s.pageUnits p j.desc)
      else
        match s.pageUnit p j.desc j.ended.length with
        | (s, .blocked, _) => s
        | (s, .ended st, multi) =>
          match s.jobOf p with
          | some j => State.runJob n (s.setJob p (some { j with ended := j.ended ++ [st], multi := j.multi || multi, found := none })) p
          | none => s

/-- Every partition's job carried on as far as it goes. -/
def State.runJobs (s : State) : State :=
  s.pages.jobs.foldl (fun s j => s.runJob (s.pageUnits j.part j.desc) j.part) s

/-- A page queue command: the descriptor at the head of a partition's queue, when it is of that opcode and none is in execution, the
queues being served one descriptor at a time (R264). -/
def State.pageOp (s : State) (p opcode : Nat) : State :=
  if !s.pages.jobs.isEmpty then s.runJobs
  else
    s.qRun .page p opcode pageOpKnown fun s i d =>
      let s := s.qTake .page p
      match s.pageReason p d with
      | 0 => (s.setJob p (some ⟨p, i, d, [], false, none⟩)).runJob (s.pageUnits p d) p
      | r => s.qRefuse .page p i d r

end Sys2Proof.Machine
end

