-- ==== Sys2Proof/Machine/Regs.lean ====
section
/-! DEFINITION. A register write under the access codes (R500–R502): the plain effect, without the behaviour that a
register's own rule adds. -/

namespace Sys2Proof.Machine

open Sys2Proof

/-- One field's new word under its access code (R500). -/
def FldDef.write (f : FldDef) (old v : Nat) : Nat :=
  match f.acc with
  | .rw => setBits old f.lo f.width (bits v f.lo f.width)
  | .rwl => setBits old f.lo f.width (bits v f.lo f.width)
  | .w1c => setBits old f.lo f.width (bits old f.lo f.width &&& (2 ^ f.width - 1 - bits v f.lo f.width))
  | .w1s => setBits old f.lo f.width (bits old f.lo f.width ||| bits v f.lo f.width)
  | .ro => old
  | .wo => old

/-- Whether a register's word holds an RWL field (R501). -/
def RegDef.lockable (d : RegDef) : Bool := d.flds.any fun f => f.acc == .rwl

/-- Whether a page is locked (R501). -/
def State.locked (s : State) (p : Nat) : Bool := bit (s.rd (lockOff p)) 0

/-- A word written under its access codes; a locked word is left whole and `STAT.LOCK_DROP` set (R500, R501). -/
def State.accWrite (s : State) (off item v : Nat) : State :=
  match regDefAt off with
  | none => s
  | some d =>
    let p := off / 0x1000
    if d.lockable && s.locked p then s.wr (p * 0x1000 + 0x00C) 0 (setBit (s.rd (p * 0x1000 + 0x00C)) 3 true)
    else s.wr off item (d.flds.foldl (fun w f => f.write w v) (s.rd off item))

/-- The item a register acts on for a path (R503). -/
def State.regItem (s : State) (p : Path) (off : Nat) : Nat :=
  match regDefAt off with
  | none => 0
  | some d => s.itemOf p d.sel

/-- A word written through a path, under its access codes (R500, R503). -/
def State.pathWrite (s : State) (p : Path) (off v : Nat) : State := s.accWrite off (s.regItem p off) v

end Sys2Proof.Machine
end

