-- ==== Sys2Proof/Machine/PageCmds.lean ====
section
/-! DEFINITION. Commands of the page manager: page queue operations, moves, the ager, eviction, zero fills, map frames, the
prefix table, lending (R254–R289). -/

namespace Sys2Proof.Machine

open Sys2Proof

/-! ### The page queue -/

/-- A page queue operation of a partition that is not being reset (R264, R368, R375). -/
def pageQueueOp (p : Fin 8) (opcode : Nat) (s : State) : Host.Outcome State Fault Refusal :=
  onMover s fun s => if s.fget F.PTC_STAT_STATE p.val = 4 then s else s.pageOp p.val opcode

/-- `MAP`. -/
def execMapPages (p : Fin 8) (s : State) : Host.Outcome State Fault Refusal := pageQueueOp p 0x10 s
/-- `UNMAP`. -/
def execUnmap (p : Fin 8) (s : State) : Host.Outcome State Fault Refusal := pageQueueOp p 0x11 s
/-- `MOVE`. -/
def execMovePages (p : Fin 8) (s : State) : Host.Outcome State Fault Refusal := pageQueueOp p 0x12 s
/-- `RESERVE`. -/
def execReserveFrames (p : Fin 8) (s : State) : Host.Outcome State Fault Refusal := pageQueueOp p 0x13 s
/-- `SEQ_ADD`. -/
def execSeqAdd (p : Fin 8) (s : State) : Host.Outcome State Fault Refusal := pageQueueOp p 0x14 s
/-- `SEQ_SHARE`. -/
def execSeqShare (p : Fin 8) (s : State) : Host.Outcome State Fault Refusal := pageQueueOp p 0x15 s
/-- `SEQ_FREE`. -/
def execSeqFree (p : Fin 8) (s : State) : Host.Outcome State Fault Refusal := pageQueueOp p 0x16 s
/-- `COW`. -/
def execCow (p : Fin 8) (s : State) : Host.Outcome State Fault Refusal := pageQueueOp p 0x17 s
/-- `PFT_LOOKUP`. -/
def execPftLookup (p : Fin 8) (s : State) : Host.Outcome State Fault Refusal := pageQueueOp p 0x18 s
/-- `PFT_INSERT`. -/
def execPftInsert (p : Fin 8) (s : State) : Host.Outcome State Fault Refusal := pageQueueOp p 0x19 s
/-- `PFT_REMOVE`. -/
def execPftRemove (p : Fin 8) (s : State) : Host.Outcome State Fault Refusal := pageQueueOp p 0x1A s

/-! ### Moves, pins, ageing, eviction, fills -/

/-- The copy of a page ends, in its turn in the mover's order (R267–R269). -/
def State.pageMoveDone (s : State) (p pg : Nat) : State :=
  match s.moveOf p pg with
  | none => s
  | some m =>
    if s.moveBehind m then s
    else match m.tier, m.dst, m.left, m.marks with
    | 3, some x, 0, _ :: _ => s.sendMarks m x
    | _, _, _, _ => (s.finishMove m).1

/-- `PAGE_MOVE_DONE`. -/
def execPageMoveDone (p : Fin 8) (page : BitVec 24) (s : State) : Host.Outcome State Fault Refusal :=
  onMover s fun s => (s.pageMoveDone p.val page.toNat).runJobs

/-- `PIN_RELEASE`. -/
def execPinRelease (p : Fin 8) (page : BitVec 24) (s : State) : Host.Outcome State Fault Refusal :=
  onPage s Page.XLT fun s => if s.tower.selfRefresh then s else (s.unpin p.val page.toNat).runJobs

/-- The pages in T1 and T2: partition and page. -/
def State.tierPages (s : State) : List (Nat × Nat) :=
  (s.pages.t1.tab ++ s.pages.t2.tab).filterMap fun e => match e.2 with
    | .page p pg => some (p, pg)
    | .fixed p pg => some (p, pg)
    | _ => none

/-- One pass of the ager (R270). -/
def State.agerPass (s : State) : State :=
  let s' := s.tierPages.foldl (fun (s : State) x =>
    if nsMem s.pages.touched (pageKey x.1 x.2) then s
    else
      let d := s.pme x.1 x.2
      if d.age = 255 then s else s.setPme x.1 x.2 { d with age := d.age + 1 }) s
  { s' with pages := { s'.pages with touched := [], ageTicks := 0 } }

/-- `EVICT`: one page, while eviction is in progress and no late operand's copy stands before it (R267, R272). -/
def execEvict (s : State) : Host.Outcome State Fault Refusal :=
  onMover s fun s =>
    let s := s.updEvicting
    if s.moverBusy 2 then s
    else match s.evictNext with
      | none => s
      | some (p, pg) =>
        match s.evictPage p pg false with
        | (s, .none) => s.noSpace p pg false
        | (s, _) => s.runJobs

/-- Whether copies, evictions or page queue work stand before a zero fill (R267). -/
def State.fillBehind (s : State) : Bool := s.moverBusy 4 || s.evictWaits || (s.qNext .page).isSome

/-- Whether a frame of the list waits for its zero fill now; the frames of a Summerhouse are reached by no fill (R368). -/
def State.fillable (s : State) (k : Nat) : Bool :=
  if k < 2 ^ 20 then !s.isSummerhouse k && (match s.frame .t1 k with | .dirty => true | .reserved _ c => !c | _ => false)
  else match s.frame .t2 (k - 2 ^ 20) with
    | .dirty => true
    | .reserved _ c => !c
    | _ => false

/-- The frame that is filled next: the first to have come (R267). -/
def State.fillNext (s : State) : Option Nat := s.pages.dirtied.find? s.fillable

/-- `ZERO_FILL`: a dirty frame is filled, in its turn in the mover's order (R267); one that stays reserved to a partition too (R271,
R275). -/
def execZeroFill (t2 : Bool) (frame : Nat) (s : State) : Host.Outcome State Fault Refusal :=
  onMover s fun s =>
    let t : Tier := if t2 then .t2 else .t1
    if s.fillBehind || s.fillNext != some (frameKey t frame) then s
    else match s.frame t frame with
    | .dirty => ((s.fillFrame t frame).setFrame t frame .free).updEvicting
    | .reserved p false => (s.fillFrame t frame).setFrame t frame (.reserved p true)
    | _ => s

/-- `AGER_PASS`: once `PGM_AGE_TICKS` ticks have passed since the last, after all other work of the mover (R267, R270). -/
def execAgerPass (s : State) : Host.Outcome State Fault Refusal :=
  onMover s fun s =>
    if s.fillBehind || s.fillNext.isSome then s
    else if max 1 (s.fget F.PGM_AGE_TICKS_TICKS) ≤ s.pages.ageTicks then s.agerPass else s

/-! ### Maps and tables -/

/-- A write of `PGM_MAP_PAGES` for a partition (R259). -/
def State.mapPagesWrite (s : State) (p v : Nat) : State :=
  let old := s.fget F.PGM_MAP_PAGES_PAGES p
  let base := s.fget F.PGM_MAP_BASE_FRAME p
  let v := min (v % 2 ^ 25) (2 ^ 24) / 256 * 256
  let frames (n : Nat) : List Nat := (List.range (mapFrames n)).map (· + base)
  if old ≠ 0 then
    if v = 0 ∧ s.fget F.PTC_STAT_STATE p = 0 then
      let s := (frames old).foldl (fun s f => s.releaseFrame .t1 f) (s.wordsOut p)
      let keep := s.pages.cache.filter fun k => k / 2 ^ 24 != p
      ({ s with pages := { s.pages with cache := keep, badPme := s.pages.badPme.filter fun k => k / 2 ^ 24 != p } }).fset
        F.PGM_MAP_PAGES_PAGES p 0
    else s.set1 F.PGM_STAT_MAP_REFUSED
  else if v = 0 then s
  else
    let bad := (frames v).any fun f =>
      decide (tierFrames .t1 ≤ f) || s.isSummerhouse f || s.inCoded .t1 f ||
        !(s.frame .t1 f == .free || s.frame .t1 f == .dirty || s.frame .t1 f == .kept)
    if bad then s.set1 F.PGM_STAT_MAP_REFUSED
    else
      let s := (frames v).foldl (fun s f =>
        let s := if (s.frame .t1 f).toFill then s.fillFrame .t1 f else s
        s.setFrame .t1 f (.map p)) s
      s.fset F.PGM_MAP_PAGES_PAGES p v

/-- `MAP_PAGES_WRITE`. -/
def execMapPagesWrite (path : Path) (v : Word) (s : State) : Host.Outcome State Fault Refusal :=
  fromPath path R.PGM_MAP_PAGES s fun s => onPage s Page.PGM fun s => s.mapPagesWrite (s.sel path F.PGM_PART_SEL_PART) v.toNat

/-- A write of `PFT_CFG` (R289): LOG2 is dropped while ENABLE is 1; a rise of ENABLE clears VALID in every entry. -/
def State.pftCfgWrite (s : State) (v : Nat) : State :=
  let on := s.flag F.PFT_CFG_ENABLE
  let s := if on then s else s.fset F.PFT_CFG_LOG2 0 (clamp 4 17 (bits v 0 5))
  let s := s.fset F.PFT_CFG_ENABLE 0 (bits v 8 1)
  if !on && bit v 8 then
    let lo := s.pftAddr 0
    let n := 128 * s.pftBuckets
    let clr (c : Host.Cell) : Host.Cell :=
      if decide (lo ≤ c.1) && decide (c.1 < lo + n) && c.1 % 16 == 14 then (c.1, c.2 &&& 0x7F) else c
    let cells := (s.tower.mem.cells.map clr).filter fun c => c.2 != 0
    (({ s with tower := { s.tower with mem := { s.tower.mem with cells := cells } } }).mirrorFill lo n |>.secsWritten lo n).fset F.PFT_USED_ENTRIES 0 0
  else s

/-- `PFT_ENABLE`: a write of `PFT_CFG`. -/
def execPftEnable (path : Path) (v : Word) (s : State) : Host.Outcome State Fault Refusal :=
  fromPath path R.PFT_CFG s fun s => onPage s Page.PFT fun s => s.pftCfgWrite v.toNat

/-! ### Lending (R282–R286) -/

/-- Frames lent now. -/
def State.showLent (s : State) : State := s.fset F.PGM_LENT_PAGES 0 s.pages.loans.length

/-- Whether a lending message is in order (R283). -/
def lendOk (m : List Byte) (typ : Nat) : Bool :=
  m.length == 32 && crcOk m 28 && fieldLE m 0 1 == typ && fieldLE m 1 1 == 1

/-- The lowest index no loan uses. -/
def freeIndex (used : List Nat) : Nat := ((List.range (used.length + 1)).find? fun i => !used.contains i).getD 0

/-- A LOAN received by a lender (R283). -/
def State.loanIn (s : State) (src : Nat) (m : List Byte) : State :=
  let req := fieldLE m 12 4
  let answer (s : State) (index st : Nat) : State := s.sendMsg 7 src (lendMsg 0x41 index st req)
  if !s.isBorrower src then answer s 0 3
  else
    match s.pages.loans.find? fun l => l.node == src && l.req == req with
    | some l => answer s l.index 0
    | none =>
      if s.fget F.PGM_LEND_PAGES_PAGES ≤ s.pages.loans.length then answer s 0 6
      else
        match s.findFrame .t1 Frame.isFree with
        | none => answer s 0 6
        | some f =>
          let i := freeIndex (s.pages.loans.map (·.index))
          let s := (s.setFrame .t1 f (.lent src))
          let l : Loan := ⟨i, f, src, req⟩
          let s := { s with pages := { s.pages with loans := s.pages.loans ++ [l] } }
          answer s.showLent i 0

/-- `LOAN`. -/
def execLoan (gate : Bool) (src : BitVec 20) (msg : List Byte) (s : State) : Host.Outcome State Fault Refusal :=
  onMsg s 7 false gate src msg fun s => if lendOk msg 0x40 then s.loanIn src.toNat msg else s

/-- A GRANT received by a borrower (R283): the copy to the lent frame begins, or the move fails. -/
def State.grantIn (s : State) (src : Nat) (m : List Byte) : State :=
  match s.lenderOf src with
  | none => s
  | some l =>
    let index := fieldLE m 4 4
    let st := fieldLE m 8 1
    match s.pages.moves.find? fun v => v.tier == 3 && v.lender == l && v.dst.isNone && v.req == fieldLE m 12 4 with
    | none =>
      -- a grant of a loan no longer wanted is given back
      let known := s.pages.moves.any (fun v => v.tier == 3 && v.lender == l && v.req == fieldLE m 12 4 && v.dst == some index)
        || s.pages.borrowed.any fun e => e.2 == l * 65536 + index
      if st = 0 && !known then s.sendMsg 7 src (lendMsg 0x42 index 0 0) else s
    | some v =>
      if st = 0 ∧ index < 65536 then
        let s := s.fset F.PGM_BORROWED_PAGES l (s.fget F.PGM_BORROWED_PAGES l + 1)
        let v' := { v with dst := some index, left := 256 }
        (s.setMove v v').sendPieces v' index (List.range 256)
      else
        let s := s.cancelMove v (if st = 3 then 3 else 6)
        if v.drop then s.dropPage v.part v.page
        else if st = 3 then s else s.noSpace v.part v.page v.unit

/-- `GRANT`. -/
def execGrant (gate : Bool) (src : BitVec 20) (msg : List Byte) (s : State) : Host.Outcome State Fault Refusal :=
  onMsg s 7 false gate src msg fun s => if lendOk msg 0x41 then (s.grantIn src.toNat msg).runJobs else s

/-- `LOAN_TIMEOUT`: the LOAN of a page's move is repeated with its request number (R283). -/
def execLoanTimeout (p : Fin 8) (page : BitVec 24) (s : State) : Host.Outcome State Fault Refusal :=
  onPage s Page.PGM fun s =>
    match s.moveOf p.val page.toNat with
    | some m =>
      if m.tier = 3 ∧ m.dst = none then
        s.sendMsg 7 (s.fget F.PGM_LENDER_NODE_NODE m.lender) (lendMsg 0x40 0 0 m.req) (some p.val)
      else s
    | none => s

/-- A loan ends on the lender's side: its frame is zeroed under R271. -/
def State.endLoan (s : State) (l : Loan) : State :=
  (({ s with pages := { s.pages with loans := s.pages.loans.filter (· != l) } }).releaseFrame .t1 l.frame).showLent

/-- `RETURN`. -/
def execReturnFrame (gate : Bool) (src : BitVec 20) (msg : List Byte) (s : State) : Host.Outcome State Fault Refusal :=
  onMsg s 7 false gate src msg fun s =>
    if lendOk msg 0x42 then
      match s.pages.loans.find? fun l => l.node == src.toNat && l.index == fieldLE msg 4 4 with
      | some l => s.endLoan l
      | none => s
    else s

/-- A loan revoked by the lender, with its notice (R285). -/
def State.revoke (s : State) (l : Loan) : State := (s.endLoan l).sendMsg 7 l.node (lendMsg 0x43 l.index 0 0)

/-- A revoke notice received by a borrower (R285). -/
def State.revokeIn (s : State) (src : Nat) (m : List Byte) : State :=
  match s.lenderOf src with
  | none => s
  | some l =>
    let index := fieldLE m 4 4
    match s.pages.borrowed.find? fun e => e.2 == l * 65536 + index with
    | some e => (s.loseLoan (e.1 / 2 ^ 24) (e.1 % 2 ^ 24) 7).irq Page.PGM 3
    | none =>
      match s.pages.moves.find? fun v => v.tier == 3 && v.lender == l && v.dst == some index with
      | some v =>
        let s := s.fset F.PGM_BORROWED_PAGES l (s.fget F.PGM_BORROWED_PAGES l - 1)
        let v' := { v with dst := none }
        let s := ((s.setMove v v').cancelMove v' 7).irq Page.PGM 3
        if v.drop then s.dropPage v.part v.page else s
      | none =>
        match s.pages.linger.find? fun x => x.tier == 3 && x.frame == l * 65536 + index with
        | some x =>
          let s := { s with pages := { s.pages with linger := s.pages.linger.erase x } }
          (s.fset F.PGM_BORROWED_PAGES l (s.fget F.PGM_BORROWED_PAGES l - 1)).irq Page.PGM 3
        | none => s

/-- `REVOKE`. -/
def execRevoke (gate : Bool) (src : BitVec 20) (msg : List Byte) (s : State) : Host.Outcome State Fault Refusal :=
  onMsg s 7 false gate src msg fun s => if lendOk msg 0x43 then (s.revokeIn src.toNat msg).runJobs else s

/-- The loan of the highest lent frame. -/
def State.topLoan (s : State) : Option Loan :=
  s.pages.loans.foldl (fun a l => match a with
    | some b => if b.frame < l.frame then some l else a
    | none => some l) none

/-- Loans revoked, highest frame first, until no more than `n` are left (R285). -/
def State.revokeTo (n : Nat) : Nat → State → State
  | 0, s => s
  | fuel + 1, s =>
    if s.pages.loans.length ≤ n then s
    else match s.topLoan with
      | some l => State.revokeTo n fuel (s.revoke l)
      | none => s

/-- A write of `PGM_LEND_PAGES` (R282, R285). -/
def State.lendPagesWrite (s : State) (v : Nat) : State :=
  let n := min (v % 2 ^ 17) 65536
  let s := s.fset F.PGM_LEND_PAGES_PAGES 0 n
  s.revokeTo n s.pages.loans.length

/-- `LEND_PAGES_WRITE`. -/
def execLendPagesWrite (path : Path) (v : Word) (s : State) : Host.Outcome State Fault Refusal :=
  fromPath path R.PGM_LEND_PAGES s fun s => onPage s Page.PGM fun s => s.lendPagesWrite v.toNat

/-- Every page borrowed from a lender, and every move to it, handled as revoked (R285), copies ending with a status: TIMEOUT where the
lender does not answer, STALE where it is given up (R269). -/
def State.loseLender (s : State) (l st : Nat) : State :=
  let s := (s.pagesAt l).foldl (fun s e => s.loseLoan (e.1 / 2 ^ 24) (e.1 % 2 ^ 24) st) s
  s.pages.moves.foldl (fun s m =>
    if m.tier = 3 ∧ m.lender = l then
      let s := s.cancelMove m st
      if m.drop then s.dropPage m.part m.page else s
    else s) s

/-- A write of a borrower entry (R283, R290). -/
def State.borrowerWrite (s : State) (b v : Nat) : State :=
  if nodeMax < bits v 0 20 then s
  else
  let was := s.flag F.PGM_BORROWER_NODE_VALID b
  let node := s.fget F.PGM_BORROWER_NODE_NODE b
  let s := s.accWrite R.PGM_BORROWER_NODE b v
  if was && !bit v 31 then
    (s.pages.loans.filter fun l => l.node == node).foldl (fun s l => s.revoke l) s
  else s

/-- `BORROWER_NODE_WRITE`. -/
def execBorrowerNodeWrite (path : Path) (v : Word) (s : State) : Host.Outcome State Fault Refusal :=
  fromPath path R.PGM_BORROWER_NODE s fun s => onPage s Page.PGM fun s => s.borrowerWrite (s.sel path F.PGM_BORROWER_SEL_BORROWER) v.toNat

end Sys2Proof.Machine
end

