-- ==== Sys2Proof/Machine/FabOut.lean ====
section
/-! DEFINITION. Outbound fabric: choice and sending of transactions (R309–R311, R453), responses and what they complete
(R314), timeouts, generations (R315–R318), credits and the link (R322, R453, R454). -/

namespace Sys2Proof.Machine

open Sys2Proof

/-! ### What a request's answer completes -/

/-- A piece of a page copied over the fabric ends; pieces written meanwhile are copied again (R268, R283). -/
def State.pieceDone (s : State) (p pg : Nat) : State :=
  match s.moveOf p pg with
  | none => s
  | some m =>
    if m.left = 1 ∧ m.marks ≠ [] then s.sendMarks m (m.dst.getD 0) else s.setMove m { m with left := m.left - 1 }

/-- The poison marks that the engine's records hold of a page in T3, laid over bytes read from its lender (R269). -/
def State.farMask (s : State) (p pg off : Nat) (bs : List (Option Byte)) : List (Option Byte) :=
  if s.pages.farBad.isEmpty then bs
  else (List.zipIdx bs).map fun x => if nsMem s.pages.farBad (pageKey p pg * 1024 + (off + x.2) / 64) then none else x.1

/-- A piece of a page arrives from its lender: into the frame the page moves to. -/
def State.pieceIn (s : State) (p pg i : Nat) (bytes : List Byte) (poison : Bool) : State :=
  match s.moveOf p pg with
  | none => s
  | some m =>
    match m.dst with
    | none => s
    | some f =>
      let t : Tier := if m.tier = 1 then .t1 else .t2
      let a := f * frameSize + 256 * i
      let s := s.writeTier t a (bytes.map some)
      let bad (k : Nat) : Bool := (poison && ((bytes.drop (64 * k)).take 64).all (· == 0xFF))
        || nsMem s.pages.farBad (pageKey p pg * 1024 + 4 * i + k)
      let s := ((List.range 4).filter bad).foldl (fun s k => s.putPoison t (a / 64 + k)) s
      s.pieceDone p pg

/-- The pin of the engine's own reads of a page in T3 ends with the last piece asked for (R276). -/
def State.farUnpin (s : State) (p pg : Nat) : State :=
  let k := pageKey p pg
  if nsMem s.pages.farPins k && !((List.range 256).any fun i => s.pieceAsked p (pg * 256 + i)) then
    ({ s with pages := { s.pages with farPins := nsDel s.pages.farPins k } } : State).unpin p pg
  else s

/-- A piece of a page in T3 that a read of the engine's own waits for, empty where the lender did not give it. -/
def State.farPiece (s : State) (p k : Nat) (bs : List (Option Byte)) : State :=
  let pg := k / 256
  let s := if s.inMap p pg && (s.effState p pg (s.pme p pg) == PgT3) then
    ({ s with pages := { s.pages with far := alPut s.pages.far (p * 2 ^ 32 + k) (s.farMask p pg (k % 256 * 256) bs) } } : State).retryStalled
  else s
  s.farUnpin p pg

/-- A READ or LOAD of a page at a lender answered from HOME, or GONE (R260, R285); its pin ends (R276). -/
def State.farFail (s : State) (use : ReqUse) : State :=
  match use with
  | .hostRead ch h p pg =>
    let (s, st, bs) := s.homeRead p pg (hdAddr h % frameSize) (hdLen h)
    (s.hostReadDone ch h st bs).unpin p pg
  | .loadOn hdr p pg =>
    let t := Txn.ofHeader hdr []
    let (s, st, bs) := s.homeRead p pg (t.offset % frameSize) t.len
    (if st = 0 then s.respondData hdr bs else s.refuseReq hdr 8 st).unpin p pg
  | .pieceRead p k => s.farPiece p k []
  | _ => s

/-- Bytes of an answer, none in the 64-byte sectors that are all 0xFF when it carries poison: sectors of the block that
`off` lies in (R295). -/
def poisonMask (off : Nat) (poison : Bool) (bs : List Byte) : List (Option Byte) :=
  if !poison then bs.map some
  else
    let z := List.zipIdx bs
    z.map fun x =>
      let k := (off + x.2) / 64
      if z.all fun y => !((off + y.2) / 64 == k) || y.1 == 0xFF then none else some x.1

/-- A request's use ends with a status, a refused access to a lent frame as that of a frame revoked (R269, R285); a LOAD without an answer has poison for its bytes (R315, R318). -/
def State.useFail (s : State) (use : ReqUse) (st : Nat) : State :=
  match use with
  | .message => s
  | .unit j u =>
    match s.fabJob j with
    | none => s
    | some x =>
      let s := if fieldLE x.desc 0 1 = 0x20 ∧ st ≠ 5 then s.poisonLocal x.part (unitLocal x.desc u) (unitSpan x.desc u).2 else s
      s.unitDone j u st
  | .pageIn p pg _ => if (alGet s.pages.borrowed (pageKey p pg)).isSome then s.loseLoan p pg (if st = 3 then 7 else st) else s
  | .pageOut p pg _ =>
    match s.moveOf p pg with
    | some m =>
      let s := s.cancelMove m (if st = 3 then 7 else st)
      if m.drop then s.dropPage p pg else s
    | none => s
  | u => s.farFail u

/-- An answer completes its request's use (R260, R268, R301). -/
def State.useDone (s : State) (q : Txn) (r : Txn) : State :=
  match q.use with
  | .message => s
  | .unit j u =>
    match s.fabJob j with
    | none => s
    | some x =>
      let op := fieldLE x.desc 0 1
      if op = 0x21 then s.unitDone j u r.status
      else if op = 0x20 then
        if r.status = 0 ∨ r.status = 4 then
          s.access ⟨2, .landing j u r.status, x.part, none, unitLocal x.desc u, 0,
            poisonMask (unitSpan x.desc u).1 r.poison (r.payload.take (unitSpan x.desc u).2), 0⟩
        else s.unitDone j u r.status
      else
        let w := fieldLE x.desc 32 4
        if r.status = 0 then s.access ⟨2, .landing j u 0, x.part, none, dLocal x.desc, 0, (r.payload.take w).map some, 0⟩
        else if r.status = 4 then (s.poisonLocal x.part (dLocal x.desc) w).unitDone j u 4
        else s.unitDone j u r.status
  | .pageIn p pg i =>
    if r.status = 0 ∨ r.status = 4 then s.pieceIn p pg i r.payload r.poison else s.useFail q.use r.status
  | .pageOut p pg _ => if r.status = 0 then s.pieceDone p pg else s.useFail q.use r.status
  | .hostRead ch h p pg =>
    if r.status = 0 ∨ r.status = 4 then
      (s.hostReadDone ch h 0 (s.farMask p pg (q.offset % frameSize) (poisonMask q.offset r.poison r.payload))).unpin p pg
    else s.farFail q.use
  | .loadOn hdr p pg =>
    if r.status = 0 ∨ r.status = 4 then
      (s.respondData hdr (s.farMask p pg (q.offset % frameSize) (poisonMask q.offset r.poison r.payload))).unpin p pg
    else s.farFail q.use
  | .pieceRead p k =>
    if r.status = 0 ∨ r.status = 4 then s.farPiece p k (poisonMask q.offset r.poison (padTo 256 0xFF (r.payload.take 256)))
    else s.farFail q.use

/-! ### Responses in (R314) -/

/-- Partner entries that have been given a node. -/
def State.entriesOf (s : State) (node : Nat) : List Nat :=
  (List.range 4096).filter fun e => s.rd R.FBP_PTN_NODE e != 0 && s.fget F.FBP_PTN_NODE_NODE e == node

/-- A RESPONSE matched to its request by partner, tag and generation, or dropped (R314). -/
def State.responseIn (s : State) (t : Txn) : State :=
  let tag := t.tag % 4096
  let gen := t.tag / 4096
  match s.fab.flight.find? fun f => f.tag == tag && f.gen == gen && s.fget F.FBP_PTN_NODE_NODE f.entry == t.src with
  | some f =>
    let s := { s with fab := { s.fab with flight := s.fab.flight.filter (· != f) } }
    ((s.useDone f.txn t).runJobs).flushAll.colAdvance
  | none =>
    let stale := (s.entriesOf t.src).any fun e => nsMem s.fab.quar (e * 4096 + tag) || s.fget F.FBP_PTN_NODE_GEN e != gen
      || s.fab.flight.any fun f => f.entry == e && f.tag == tag
    if stale then s.bump F.FBP_STALE_CNT_COUNT else s.bump F.FBP_RX_UNEXP_COUNT

/-- `RESPONSE`. -/
def execResponse (hdr payload : List Byte) (s : State) : Host.Outcome State Fault Refusal :=
  onTxn hdr payload s fun s t =>
    if t.typ ≠ 4 then s
    else if t.gate && t.vc != 0 then s.gateDrop t.src t.vc t.tag t.status
    else s.responseIn t

/-! ### Sending (R309, R311, R453) -/

/-- Transactions held for response room are counted once each (R311, R365). -/
def State.countHeld (s : State) : State :=
  let held (t : Txn) : Bool := !t.held && !s.hasRoom t
  let s1 := (s.fab.txq.filter held).foldl (fun s t => s.bump F.FVC_RESV_STALL_COUNT t.vc) s
  { s1 with fab := { s1.fab with txq := s1.fab.txq.map fun t => if held t then { t with held := true } else t } }

/-- The flits of a channel and class that a lane carries now: the lane with fewer part-sent transactions takes the next one (log entry
91: DESIGN CHOICE). -/
def State.nextLane (s : State) : Nat :=
  let n (l : Nat) : Nat := (s.fab.going.filter fun g => g.lane == l).length
  if n 1 < n 0 then 1 else 0

/-- The next flit of a transaction leaves on its lane, for one credit of its channel and class (R309, R452, R453). -/
def State.sendFlit (s : State) (g : Going) (sot : Bool) : State :=
  let t := g.txn
  let k := 2 * t.vc + t.resp.toNat
  let rest := g.rest.drop 128
  let others := s.fab.going.filter fun x => x.txn.vc != t.vc
  let flit : FbFlit := ⟨g.lane, t.vc, t.resp, sot, rest.isEmpty, g.rest.take 128⟩
  let s := { s with fab := { s.fab with
    going := if rest.isEmpty then others else others ++ [{ g with rest := rest }],
    sent := if rest.isEmpty then s.fab.sent ++ [t] else s.fab.sent,
    out := s.fab.out ++ [flit], credits := spSet (fun _ => 0) s.fab.credits k (s.txCredits t.vc t.resp - 1),
    history := (t.vc :: s.fab.history).take 64 } }
  s.countFlits t.vc 0 1

/-- The transaction at a place of the queue begins, under the engine's own ID and gate bit as they are now, a request under its tag and
generation; its first flit goes (R292, R293, R294, R313). -/
def State.sendTxn (s : State) (i want : Nat) : State :=
  match s.fab.txq[i]? with
  | none => s
  | some t =>
    let s := { s with fab := { s.fab with txq := s.fab.txq.eraseIdx i } }
    let t := { t with gate := s.flag F.FBP_STAT_GATE_OPENED, src := s.fget F.FBP_NODE_NODE }
    let (t, s) := match t.entry with
      | none => (t, s)
      | some e =>
        let tag := (s.pickTag e want).getD 0
        let gen := s.fget F.FBP_PTN_NODE_GEN e
        let t := { t with tag := tag + 4096 * gen }
        let fl : Flight := ⟨e, tag, gen, t⟩
        (t, { s with fab := { s.fab with flight := s.fab.flight ++ [fl] } })
    s.sendFlit ⟨s.nextLane, t.header ++ t.payload, t⟩ true

/-- The next flit of a channel: of the transaction it is sending, or the first of its next one. -/
def State.sendOn (s : State) (c want : Nat) : State :=
  match s.goingOn c with
  | some g => s.sendFlit g false
  | none =>
    match s.nextOn c with
    | some i => s.sendTxn i want
    | none => s

/-- Requests offered that are to a node outside the engine's stage: they are not issued, and end GONE (R291, log entry 92: DESIGN
CHOICE). -/
def State.dropOutOfStage (s : State) : State :=
  let out (t : Txn) : Bool := decide (1 ≤ t.typ) && decide (t.typ ≤ 3) && (match t.entry with
    | some e => !sameStage (s.fget F.FBP_PTN_NODE_NODE e) (s.fget F.FBP_NODE_NODE)
    | none => false)
  match s.fab.txq.filter out with
  | [] => s
  | gone =>
    let s := { s with fab := { s.fab with txq := s.fab.txq.filter fun t => !out t } }
    ((gone.foldl (fun s t => s.useFail t.use 9) s).runJobs).flushAll.colAdvance

/-- `TRANSACTION_SEND`: a flit time of the port: it sends the flit that R309 chooses, when there is one (R290, R309, R311, R453);
`vc` is where the round robin stands, `tag` the tag a request takes when it is free. -/
def execTransactionSend (vc : Fin 8) (tag : Fin 4096) (s : State) : Host.Outcome State Fault Refusal :=
  onPage s Page.FBP fun s =>
    if s.flag F.FBP_CTRL_EN && s.flag F.FBP_STAT_LINK_UP then
      let s := s.dropOutOfStage.countHeld
      match s.pickChannel vc with
      | none => { s with fab := { s.fab with history := (8 :: s.fab.history).take 64 } }
      | some (c, drr) => (if drr then s.drrCharge c else s).sendOn c tag
    else s

/-! ### Timeouts and generations (R315–R318) -/

/-- The generation of a partner entry steps, freeing the tags quarantined before it (R316). -/
def State.stepGen (s : State) (e : Nat) : State :=
  let s := s.fset F.FBP_PTN_NODE_GEN e ((s.fget F.FBP_PTN_NODE_GEN e + 1) % 16)
  { s with fab := { s.fab with quar := s.fab.quar.filter fun k => k / 4096 != e } }

/-- Every request of an entry, sent or not, completes with a status and its tag is freed; so does a PUT's unit whose data is still to be
read (R318). -/
def State.endEntry (s : State) (e st : Nat) : State :=
  let gone := (s.fab.flight.filter (·.entry == e)).map (·.txn) ++ s.fab.txq.filter fun t => t.entry == some e
  let unit (a : Access) : Option (Nat × Nat) :=
    match a.use with
    | .putRead j u => if (s.fabJob j).any fun x => fieldLE x.desc 8 2 == e then some (j, u) else none
    | _ => none
  let units := s.coding.stalled.filterMap unit
  let s := { s with fab := { s.fab with
    flight := s.fab.flight.filter (·.entry != e), txq := s.fab.txq.filter fun t => t.entry != some e },
                    coding := { s.coding with stalled := s.coding.stalled.filter fun a => (unit a).isNone } }
  let s := units.foldl (fun s x => s.unitDone x.1 x.2 st) s
  ((gone.foldl (fun s t => s.useFail t.use st) s).runJobs).flushAll.colAdvance

/-- A lender that does not answer is lost (R285). -/
def State.lenderLost (s : State) (l : Nat) : State :=
  let s := ((s.set1 F.PGM_STAT_LENDER_LOST).logErr
    { block := Page.PGM, code := 0x0502, sev := 0, kind := 5, addr := s.fget F.PGM_LENDER_NODE_NODE l,
      detail := [0, 0, 0, 0] }).irq Page.PGM 1
  s.loseLender l 2

/-- A request without an answer (R315). -/
def State.msTimeout (s : State) (e tag : Nat) : State :=
  match s.fab.flight.find? fun f => f.entry == e && f.tag == tag with
  | none => s
  | some f =>
    let s := { s with fab := { s.fab with flight := s.fab.flight.filter (· != f), quar := nsAdd s.fab.quar (e * 4096 + tag) } }
    let s := ((s.bump F.FBP_TIMEOUT_CNT_COUNT).event 0x1203 f.txn.part).logErr
      { block := Page.FBP, code := 0x0601, sev := 1, part := f.txn.part, kind := 5, addr := f.txn.dst,
        detail := [f.txn.dst, f.txn.tag, f.txn.vc, 2] }
    let s := s.irq Page.FBP 0
    let s := if 4080 ≤ e then s.lenderLost (e - 4080) else s
    ((s.useFail f.txn.use 2).runJobs).flushAll.colAdvance

/-- `MS_TIMEOUT`. -/
def execMsTimeout (entry tag : Fin 4096) (s : State) : Host.Outcome State Fault Refusal :=
  onPage s Page.FBP fun s => s.msTimeout entry tag

/-- `GENERATION_STEP` (R316). -/
def execGenerationStep (entry : Fin 4096) (s : State) : Host.Outcome State Fault Refusal :=
  onPage s Page.FBP fun s => if s.fab.quar.any fun k => k / 4096 == entry.val then s.stepGen entry else s

/-- A new node in a partner entry, or VALID cleared: the generation steps, its requests are GONE (R318). -/
def State.partnerChanged (s : State) (e node : Nat) (was : Bool) : State :=
  if s.fget F.FBP_PTN_NODE_NODE e ≠ node ∨ (was = true ∧ s.flag F.FBP_PTN_NODE_VALID e = false) then (s.stepGen e).endEntry e 9
  else s

/-- A write of `FBP_PTN_NODE` (R290, R313, R318). -/
def State.partnerWrite (s : State) (e v : Nat) : State :=
  if 4080 ≤ e ∨ nodeMax < bits v 0 20 then s
  else
    (s.accWrite R.FBP_PTN_NODE e v).partnerChanged e (s.fget F.FBP_PTN_NODE_NODE e) (s.flag F.FBP_PTN_NODE_VALID e)

/-- `PARTNER_WRITE`. -/
def execPartnerWrite (path : Path) (v : Word) (s : State) : Host.Outcome State Fault Refusal :=
  fromPath path R.FBP_PTN_NODE s fun s => onPage s Page.FBP fun s => s.partnerWrite (s.sel path F.FBP_PTN_SEL_ENTRY) v.toNat

/-- A write of `PGM_LENDER_NODE`: the bound partner entry follows (R313); clearing VALID, or a node in another stage, which takes no
request (R291), loses the lender's pages (R285). -/
def State.lenderWrite (s : State) (l v : Nat) : State :=
  if nodeMax < bits v 0 20 then s
  else
  let was := s.flag F.PGM_LENDER_NODE_VALID l
  let node := s.fget F.FBP_PTN_NODE_NODE (lenderEntry l)
  let s := s.accWrite R.PGM_LENDER_NODE l v
  let s := (s.fset F.FBP_PTN_NODE_NODE (lenderEntry l) (s.fget F.PGM_LENDER_NODE_NODE l)).fset F.FBP_PTN_NODE_VALID (lenderEntry l)
    (s.fget F.PGM_LENDER_NODE_VALID l)
  let s := if was && !s.lenderInStage l then s.loseLender l 7 else s
  s.partnerChanged (lenderEntry l) node was

/-- `LENDER_NODE_WRITE`. -/
def execLenderNodeWrite (path : Path) (v : Word) (s : State) : Host.Outcome State Fault Refusal :=
  fromPath path R.PGM_LENDER_NODE s fun s => onPage s Page.PGM fun s => (s.lenderWrite (s.sel path F.PGM_LENDER_SEL_LENDER) v.toNat).runJobs

/-! ### Tables (R307, R324, R325) -/

/-- A write of a word of a region entry or KX window: dropped when two VALID region entries would share a key (R307). -/
def State.regionWrite (s : State) (path : Path) (off v : Nat) : State :=
  let s' := s.pathWrite path off v
  let e := s.sel path F.FBK_REG_SEL_ENTRY
  let key := s'.rd R.FBK_REG_KEY e
  if s'.flag F.FBK_REG_CFG_VALID e && (List.range 256).any fun x => x != e && s'.flag F.FBK_REG_CFG_VALID x && s'.rd R.FBK_REG_KEY x == key
  then s.set1 F.FBK_STAT_DUP_KEY else s'

/-- `REGION_ENTRY_WRITE`: `off` is the offset of the register within the page. -/
def execRegionEntryWrite (path : Path) (off : BitVec 12) (v : Word) (s : State) : Host.Outcome State Fault Refusal :=
  fromPath path (Page.FBK * 0x1000 + off.toNat) s fun s => onPage s Page.FBK fun s =>
    let a := Page.FBK * 0x1000 + off.toNat
    if [R.FBK_REG_KEY, R.FBK_REG_BASE, R.FBK_REG_LEN_LO, R.FBK_REG_LEN_HI, R.FBK_REG_CFG, R.FBK_KX_CFG, R.FBK_KX_VA,
        R.FBK_KX_PAGES, R.FBK_KX_BASE].contains a then s.regionWrite path a v.toNat else s

/-- `BLOCK_REMOVE` (R324). -/
def execBlockRemove (path : Path) (v : Word) (s : State) : Host.Outcome State Fault Refusal :=
  fromPath path R.FBK_BLK_NODE s fun s => onPage s Page.FBK fun s => s.pathWrite path R.FBK_BLK_NODE v.toNat

/-- A write of `FVC_BUF` (R325). -/
def State.fvcBufWrite (s : State) (c v : Nat) : State :=
  let size := bits v 0 13
  let sum := (List.range 8).foldl (fun a x => a + if x = c then size else s.fget F.FVC_BUF_SIZE x) 0
  if s.flag F.FBP_CTRL_EN ∨ 4096 < sum ∨ size < bits v 16 13 then s.set1 F.FVC_STAT_BUF_REFUSED
  else s.accWrite R.FVC_BUF c v

/-- `FVC_BUF_WRITE`. -/
def execFvcBufWrite (path : Path) (v : Word) (s : State) : Host.Outcome State Fault Refusal :=
  fromPath path R.FVC_BUF s fun s => onPage s Page.FVC fun s => s.fvcBufWrite (s.sel path F.FVC_BUF_SEL_VC) v.toNat

/-- `FABRIC_ENABLE`: a write of `FBP_CTRL` (R290); with EN set anew, every credit of the receive pools is returned (R453). -/
def execFabricEnable (path : Path) (v : Word) (s : State) : Host.Outcome State Fault Refusal :=
  fromPath path R.FBP_CTRL s fun s => onPage s Page.FBP fun s =>
    let t := s.pathWrite path R.FBP_CTRL v.toNat
    if t.flag F.FBP_CTRL_EN && !s.flag F.FBP_CTRL_EN then { t with fab := { t.fab with rxGot := [] } } else t

/-! ### The link (R322, R453, R454) -/

/-- `LINK_UP`: the initial credits by channel and class, key 2 × channel + class. -/
def execLinkUp (initial : List Nat) (s : State) : Host.Outcome State Fault Refusal :=
  onUp s fun s =>
    if s.flag F.FBP_STAT_LINK_UP then s
    else
      let cs := (List.zipIdx (initial.take 16)).foldl (fun m x => spSet (fun _ => 0) m x.2 x.1) []
      ({ s with fab := { s.fab with credits := cs } }).set1 F.FBP_STAT_LINK_UP

/-- `LINK_DOWN`. -/
def execLinkDown (s : State) : Host.Outcome State Fault Refusal :=
  onUp s fun s =>
    if s.flag F.FBP_STAT_LINK_UP then
      let s := ({ s with fab := { s.fab with credits := [] } }).set0 F.FBP_STAT_LINK_UP
      (s.logErr { block := Page.FBP, code := 0x0620, sev := 1 }).irq Page.FBP 1
    else s

/-- `LINK_RETRY`. -/
def execLinkRetry (s : State) : Host.Outcome State Fault Refusal :=
  onUp s fun s => s.bump F.FBP_RETRY_CNT_COUNT

/-- `CREDIT_RETURN`. -/
def execCreditReturn (vc : Fin 8) (resp : Bool) (s : State) : Host.Outcome State Fault Refusal :=
  onUp s fun s =>
    if s.flag F.FBP_STAT_LINK_UP then
      { s with fab := { s.fab with credits := spSet (fun _ => 0) s.fab.credits (2 * vc + resp.toNat) (s.txCredits vc resp + 1) } }
    else s

end Sys2Proof.Machine
end

