-- ==== Sys2Proof/Machine/FabQueue.lean ====
section
/-! DEFINITION. The fabric queues: GET, PUT, ATOMIC descriptors (R300–R302). -/

namespace Sys2Proof.Machine

open Sys2Proof

/-- Opcodes of the fabric queue. -/
def fabOpKnown (op : Nat) : Bool := op == 0x20 || op == 0x21 || op == 0x22

/-- Units of a descriptor (R301). -/
def fabUnits (d : List Byte) : Nat :=
  if fieldLE d 0 1 = 0x22 then 1
  else
    let r := fieldLE d 16 6
    let n := fieldLE d 32 4
    if n = 0 then 0 else (r + n - 1) / 256 - r / 256 + 1

/-- First cause for which a fabric descriptor is refused, 0 when it is not (R302). -/
def State.fabReason (s : State) (p : Nat) (d : List Byte) : Nat :=
  let op := fieldLE d 0 1
  let e := fieldLE d 8 2
  let aop := fieldLE d 10 1
  let x := fieldLE d 11 1
  let n := fieldLE d 32 4
  let comb := bit x 0
  if 4 ≤ x ∨ fieldLE d 22 2 ≠ 0 ∨ 2 ^ 28 ≤ fieldLE d 24 4 ∨ 4096 ≤ fieldLE d 28 2 ∨ !descZero d 30 2 ∨ !descZero d 36 4 ∨
      !descZero d 56 4 then 1
  else if 4080 ≤ e ∨ s.flag F.FBP_PTN_NODE_VALID e = false ∨ s.fget F.FBP_PTN_NODE_PART e ≠ p ∨
      sameStage (s.fget F.FBP_PTN_NODE_NODE e) (s.fget F.FBP_NODE_NODE) = false ∨
      s.runInMap p (dLocal d) n = false ∨ s.runMaster p (dLocal d) n = true then 3
  else if (if op = 0x22 then atomWidth aop != some n || fieldLE d 16 6 % (max 1 n) != 0 || (comb && !atomCombinable aop)
      else decide (n = 0) || decide (2 ^ 24 < n) || (comb && op == 0x21))
      || (bit x 1 && !s.flag F.FBP_PTN_NODE_KX_OK e) then 4
  else 0

/-- The units of a descriptor issued in ascending order (R301). -/
def State.fabIssue (s : State) (x : FabJob) : State :=
  let d := x.desc
  let fl := fieldLE d 11 1
  match fieldLE d 0 1 with
  | 0x20 =>
    (List.range x.units).foldl (fun s u =>
      s.offerReq (.unit x.id u) 1 2 (fieldLE d 8 2) 0 (fieldLE d 12 4) ((unitSpan d u).1 % 2 ^ 48) (unitSpan d u).2 [] (some x.part)
        (bit fl 0) (bit fl 1)) s
  | 0x21 =>
    (List.range x.units).foldl (fun s u => s.access ⟨2, .putRead x.id u, x.part, none, unitLocal d u, (unitSpan d u).2, [], 0⟩) s
  | _ =>
    s.offerReq (.unit x.id 0) 3 2 (fieldLE d 8 2) (fieldLE d 10 1) (fieldLE d 12 4) (fieldLE d 16 6) 16 ((d.drop 40).take 16)
      (some x.part) (bit fl 0) (bit fl 1)

/-- A fabric descriptor taken: issued, or refused, its record in its turn (R219, R300, R302). -/
def State.fabTake (s : State) (p i : Nat) (d : List Byte) : State :=
  let s := s.qTake .fabric p
  let r := s.fabReason p d
  let n := if r = 0 then fabUnits d else 0
  let x : FabJob := ⟨s.fab.nextJob, p, i, d, n, n, [], r⟩
  let s := { s with fab := { s.fab with jobs := s.fab.jobs ++ [x], nextJob := s.fab.nextJob + 1 } }
  let s := if r = 0 then s.fabIssue x else s
  s.flushAll

/-- A fabric queue command: the head of a partition's queue, when it is of that opcode; FENCE holds it until every earlier
descriptor has completed (R300). No descriptor is taken while the partition is EMPTY or RESETTING (R368, R375). -/
def fabQueueOp (p : Fin 8) (opcode : Nat) (s : State) : Host.Outcome State Fault Refusal :=
  onPage s Page.FBP fun s =>
    let st := s.fget F.PTC_STAT_STATE p
    if st = 0 ∨ st = 4 ∨ !s.qReady .fabric p then s
    else
      match s.qHead .fabric p 2 with
      | (s, none) => s
      | (s, some d) =>
        let i := s.fget QKind.fabric.head p
        if bit (fieldLE d 2 1) 1 && s.fabUnwritten p then s
        else if !descHeadOk d false || !fabOpKnown (fieldLE d 0 1) then
          let s := s.qTake .fabric p
          let x : FabJob := ⟨s.fab.nextJob, p, i, d, 0, 0, [], 1⟩
          { s with fab := { s.fab with jobs := s.fab.jobs ++ [x], nextJob := s.fab.nextJob + 1 } }.flushAll
        else if fieldLE d 0 1 = opcode then s.fabTake p i d
        else s

/-- `GET`. -/
def execFabGet (p : Fin 8) (s : State) : Host.Outcome State Fault Refusal := fabQueueOp p 0x20 s

/-- `PUT`. -/
def execFabPut (p : Fin 8) (s : State) : Host.Outcome State Fault Refusal := fabQueueOp p 0x21 s

/-- `ATOMIC_DESCRIPTOR`. -/
def execAtomicDescriptor (p : Fin 8) (s : State) : Host.Outcome State Fault Refusal := fabQueueOp p 0x22 s

end Sys2Proof.Machine
end

