-- ==== Sys2Proof/Machine/Lz4.lean ====
section
/-! DEFINITION. LZ4 blocks (R354): the decoder of the published block format, and the block a record stores. -/

namespace Sys2Proof.Machine

open Sys2Proof

/-- A length extended by bytes of 255: the length and the bytes after it. -/
def lz4Len (n : Nat) : List Byte → Option (Nat × List Byte)
  | [] => none
  | b :: bs => if b = 255 then lz4Len (n + 255) bs else some (n + b.toNat, bs)

/-- A length field of a token: 15 is extended. -/
def lz4Field (n : Nat) (bs : List Byte) : Option (Nat × List Byte) := if n = 15 then lz4Len 15 bs else some (n, bs)

/-- `n` bytes of a match at a distance, the copy reading what it writes; the output is kept newest first. -/
def lz4Match (dist : Nat) : Nat → List Byte → Option (List Byte)
  | 0, out => some out
  | n + 1, out =>
    match out[dist - 1]? with
    | some b => lz4Match dist n (b :: out)
    | none => none

/-- Sequences of a block, at most `fuel`; the block ends after literals. -/
def lz4Seqs : Nat → List Byte → List Byte → Option (List Byte)
  | 0, _, _ => none
  | _ + 1, [], _ => none
  | fuel + 1, t :: bs, out =>
    match lz4Field (t.toNat / 16) bs with
    | none => none
    | some (n, bs) =>
      if bs.length < n then none
      else
        let out := (bs.take n).reverse ++ out
        match bs.drop n with
        | [] => some out
        | [_] => none
        | a :: b :: rest =>
          let dist := a.toNat + 256 * b.toNat
          match lz4Field (t.toNat % 16) rest with
          | none => none
          | some (m, rest) =>
            if dist = 0 then none
            else
              match lz4Match dist (m + 4) out with
              | none => none
              | some out => lz4Seqs fuel rest out

/-- A block decoded, none when it is malformed. -/
def lz4Decode (bs : List Byte) : Option (List Byte) := (lz4Seqs (bs.length + 1) bs []).map List.reverse

/-- The compressed form of a payload where it is stored: at most ⌊7L/8⌋ bytes long. Which block the engine's encoder forms is
a free value; it decodes to the payload. -/
def lz4Stored (raw : List Byte) : Option (List Byte) :=
  let c := Config.lz4Form raw
  if lz4Decode c = some raw ∧ c.length ≤ 7 * raw.length / 8 then some c else none

end Sys2Proof.Machine
end

