-- ==== Sys2Proof/Machine/Time.lean ====
section
/-! DEFINITION. Hall time, tick boundaries, the instance ring (R25–R33, R39–R41, R457–R460). -/

namespace Sys2Proof.Machine

open Sys2Proof

/-! ### Hall time (R26) -/

/-- Nanoseconds of a period in effect. -/
def State.periodNs (s : State) : Nat := 1000 * s.fget F.TCK_PERIOD_US

/-- Whole slots of a tick (R33). -/
def slotsPer (us lclk : Nat) : Nat := us * lclk / 256

/-- Condition events of R400 that hold at the moment, counted for `n` ECLK cycles. -/
def State.condEvents (s : State) (n : Nat) : State :=
  let s := if s.tower.throttle then s.event 0x0601 none n else s
  let s := if s.flag F.ARB_STAT_MASKED then s.event 0x0303 none n else s
  if s.coldFull 1 then s.event 0x0D02 none n else s

/-- Whether LCLK runs, so that the local hall time advances and boundaries pass: not in DEEP-SLEEP, but while RUN is to begin at
the next boundary (R483, R484). -/
def State.ticking (s : State) : Bool := s.fget F.CRG_STAT_MODE != 2 || s.pwr.mode == some 0

/-- ECLK cycles in which passes stand stalled on a pinned buffer (R148, R400). -/
def State.pinCycles (s : State) (n : Nat) : State :=
  (List.zipIdx s.upd.parts).foldl (fun s u =>
    if (u.1.pass.any fun x => x.pinned) && s.nextPins u.2 != 0 then
      (s.bump F.UPD_PIN_STALL_CYCLES 0 n).event 0x0902 (some u.2) n
    else s) s

/-- The image of a switch written at 64 GB/s, the highest rate of R370, by `n` bytes, but for a critical halt; when the outgoing one is
in the Summerhouse, the incoming partition is SWITCHING (R369, step 3; log entry 89: a DESIGN CHOICE). -/
def State.switchPass (s : State) (n : Nat) : State :=
  if s.tower.critical then s
  else
    let ends := s.ptc.switches.filter fun x => x.moving && decide (0 < x.left) && decide (x.left ≤ n)
    let s := { s with ptc := { s.ptc with switches := s.ptc.switches.map fun x => { x with left := x.left - n } } }
    ends.foldl (fun s x => s.fset F.PTC_STAT_STATE x.inP 3) s

/-- A span of hall time counted in cycles: the cycle counter, the pin stalls, the credit stalls and the condition events (R148, R325,
R399, R400). -/
def State.passCycles (s : State) (from_ t : Nat) : State :=
  let n := t * s.eclk / 1000 - from_ * s.eclk / 1000
  let s := s.switchPass (64 * (t - from_))
  (({ s with ctr := { s.ctr with cycle := (s.ctr.cycle + n) % 2 ^ 64 } }.condEvents n).pinCycles n).creditCycles
    (t * s.fclk / 1000 - from_ * s.fclk / 1000) n

/-- The local hall time advanced to `t`, never back, and not in DEEP-SLEEP; what counts cycles goes with it (R26, R483). -/
def State.passTo (s : State) (t : Nat) : State :=
  if t ≤ s.tick.hall ∨ s.ticking = false then s
  else ({ s with tick := { s.tick with hall := t } }).passCycles s.tick.hall t

/-- LCLK cycles of a span of hall time. -/
def State.lclkOf (s : State) (ns : Nat) : Nat := ns * s.lclk / 1000

/-! ### Boundaries (R29, R30) -/

/-- The first boundary at or after `h` under an epoch and a period in ns. -/
def gridFrom (epoch period h : Nat) : Nat := epoch + ceilDiv (h - epoch) (max 1 period) * period

/-- The first tick boundary at or after hall time `h`: under the values in effect up to the epoch of a pending commit, and
under the new ones from it on. -/
def State.boundaryFrom (s : State) (h : Nat) : Nat :=
  let b := gridFrom s.tick.epoch s.periodNs h
  match s.tick.commit with
  | none => b
  | some (us, e, _) => if h ≤ e then min b e else gridFrom e (1000 * us) h

/-- Whether a hall time is a tick boundary. -/
def State.isBoundary (s : State) (h : Nat) : Bool := s.boundaryFrom h == h

/-- The next boundary to be taken: the first after the last one taken (R27). -/
def State.nextBoundary (s : State) : Nat :=
  match s.tick.lastBoundary with
  | none => s.boundaryFrom s.tick.hall
  | some b => s.boundaryFrom (b + 1)

/-- The tick number of the boundary at `h` under the values in effect (R29). -/
def State.tickAt (s : State) (h : Nat) : Nat := s.tick.base + (h - s.tick.epoch) / max 1 s.periodNs

/-! ### The instance ring (R458, R459) -/

/-- This engine's instance and whether it is the manager, as strapped. -/
def State.ownInst (s : State) : Nat := s.fget F.IDN_STRAP_INST
def State.isMgr (s : State) : Bool := s.flag F.IDN_STRAP_MGR

/-- A header word (R459): a message for one instance, or for all. -/
def ringHdr (typ src : Nat) (dst : Option Nat) (words fld : Nat) : Nat :=
  typ * 2 ^ 60 + src * 2 ^ 56 + (dst.getD 0) * 2 ^ 52 + words * 2 ^ 50 + (if dst.isNone then 2 ^ 49 else 0) + fld

/-- A message put on the ring. -/
def State.ringSend (s : State) (typ : Nat) (dst : Option Nat) (fld : Nat) (payload : List Nat) : State :=
  { s with ring := s.ring ++ [⟨ringHdr typ s.ownInst dst payload.length fld, payload⟩] }

/-- The manager's instance, as its CHECK told. -/
def State.mgrInst (s : State) : Option Nat := (s.tick.checks.find? (·.2)).map (·.1)

/-- A message of a type arrives from the ring: held in reset the engine repeats it; its own message is taken off; every other
is passed on, and acted on when it is for this engine or for all (R458, R459). -/
def onRing (s : State) (typ : Nat) (hdr : BitVec 64) (payload : List (BitVec 64)) (f : State → State) : Host.Outcome State Fault Refusal :=
  let h := hdr.toNat
  let pass (s : State) : State := { s with ring := s.ring ++ [⟨h, payload.map (·.toNat)⟩] }
  .next (
    if bits h 60 4 ≠ typ ∨ bits h 50 2 ≠ payload.length then s
    else match s.run with
      | .heldCold => pass s
      | .heldWarm => pass s
      | .running =>
        if bits h 56 4 = s.ownInst then s
        else
          let mine : Bool := bit h 49 || bits h 52 4 == s.ownInst
          if mine then f (pass s) else pass s
      | _ => s)

/-- The first payload word. -/
def word0 (payload : List (BitVec 64)) : Nat := (payload.headD 0).toNat

/-! ### Ring checks (R460) -/

/-- A ring check fails: fatal, and this engine's duties on the ring do not start. -/
def State.ringFail (s : State) : State :=
  if s.eru.checkFailed then s
  else ({ s with eru := { s.eru with checkFailed := true } }).logErr { block := Page.TCK, code := 0x0A50, sev := 2 }

/-- This engine's CHECK is sent, after a cold start. -/
def State.sendCheck (s : State) : State := s.ringSend 6 none ((if s.isMgr then 1 else 0) + 2 * s.ownInst) []

/-- A CHECK seen: from this engine itself once, or from another (R460). One that is in every field of R459 like this engine's own is
its own (log entry 84: DEDUCED). -/
def State.checkIn (s : State) (src fld : Nat) : State :=
  let mgr := bit fld 0
  let own : Bool := src == s.ownInst
  let known := s.tick.checks.any fun c => c.1 == src
  let s :=
    if own && (known || mgr != s.isMgr) then s.ringFail
    else if !own && bits fld 1 4 == s.ownInst then s.ringFail
    else s
  let s := if known then s else { s with tick := { s.tick with checks := s.tick.checks ++ [(src, mgr)] } }
  if 1 < s.tick.checks.countP (·.2) then s.ringFail else s

/-- `CHECK`: passed on unless it is this engine's own. -/
def execRingCheck (hdr : BitVec 64) (payload : List (BitVec 64)) (s : State) : Host.Outcome State Fault Refusal :=
  let h := hdr.toNat
  if s.run = .running ∧ bits h 60 4 = 6 ∧ bits h 50 2 = payload.length ∧ bits h 56 4 = s.ownInst then
    .next (s.checkIn s.ownInst (bits h 0 49))
  else onRing s 6 hdr payload fun s => s.checkIn (bits h 56 4) (bits h 0 49)

/-- `CHECK_TIMEOUT`: 10 µs after a cold start this engine's own CHECK has not come back, or no manager has been seen. -/
def execCheckTimeout (s : State) : Host.Outcome State Fault Refusal :=
  onUp s fun s =>
    if (s.tick.checks.any fun c => c.1 == s.ownInst) && s.mgrInst.isSome then s else s.ringFail

/-! ### Arrivals and seals at the manager (R18, R41) -/

/-- The arrival order shown: position i in bits [4i + 3:4i] of the pair. -/
def State.showArrivals (s : State) : State :=
  let w := (List.zipIdx (s.tick.arrivals.take 16)).foldl (fun a x => a + x.1 * 2 ^ (4 * x.2)) 0
  (s.wr64 R.TCK_ARRIVAL_LO 0 w).fset F.TCK_STAT_ARRIVED 0 s.tick.arrivals.length

/-- An engine has arrived at the barrier of a tick: the manager records its place. An arrival at the barrier of a tick older than the
latest one with an arrival is not recorded, since `TCK_ARRIVAL` shows one tick (log entry 83: a DESIGN CHOICE). -/
def State.ringArrive (s : State) (inst t : Nat) : State :=
  let k := s.tick
  if t < k.arrTick then s
  else if t = k.arrTick ∧ k.arrivals.contains inst = true then s
  else
    let l := if t = k.arrTick then k.arrivals ++ [inst] else [inst]
    ({ s with tick := { k with arrTick := t, arrivals := l } }).showArrivals

/-- `ARRIVAL` on the ring. -/
def execRingArrival (hdr : BitVec 64) (payload : List (BitVec 64)) (s : State) : Host.Outcome State Fault Refusal :=
  onRing s 2 hdr payload fun s =>
    if s.isMgr && !s.eru.checkFailed && payload.length == 1 then s.ringArrive (bits hdr.toNat 56 4) (word0 payload) else s

/-- A tick seal known to the manager: the chip seal is the lowest once every engine of the host has told its own. -/
def State.sealIn (s : State) (inst t : Nat) : State :=
  let s := { s with tick := { s.tick with seals := alPut s.tick.seals inst t } }
  let all := (inst :: s.ownInst :: s.tick.checks.map (·.1)).map fun i => alGet s.tick.seals i
  if all.all (·.isSome) then s.wr64 R.TCK_CHIP_SEAL_LO 0 (all.foldl (fun a x => min a (x.getD a)) t) else s

/-- `SEAL` on the ring. -/
def execRingSeal (hdr : BitVec 64) (payload : List (BitVec 64)) (s : State) : Host.Outcome State Fault Refusal :=
  onRing s 1 hdr payload fun s =>
    if s.isMgr && !s.eru.checkFailed && payload.length == 1 then s.sealIn (bits hdr.toNat 56 4) (word0 payload) else s

/-- This engine's tick seal told at a boundary. -/
def State.tellTickSeal (s : State) : State :=
  if s.eru.checkFailed then s
  else if s.isMgr then s.sealIn s.ownInst s.engineSeal
  else match s.mgrInst with
    | some m => s.ringSend 1 (some m) 0 [s.engineSeal]
    | none => s

/-! ### Time commits (R30, R39) -/

/-- An armed first release is cancelled: its release is withdrawn on the ring. -/
def State.cancelArm (s : State) (h : Nat) : State :=
  let s := { s with tick := { s.tick with armed := s.tick.armed.filter (· != h), releases := s.tick.releases.filter (· != h) } }
  ((s.fset F.TCK_STAT_ARMED 0 (!s.tick.armed.isEmpty).toNat).set1 F.TCK_STAT_ARM_REFUSED).ringSend 3 none 1 [h]

/-- Every armed first release at or after the epoch `e` of a commit is cancelled (R39). -/
def State.cancelArms (s : State) (e : Nat) : State :=
  (s.tick.armed.filter fun h => decide (e ≤ h)).foldl (fun s h => s.cancelArm h) s

/-- The staged values are accepted or refused (R30, R492). -/
def State.timeCommit (s : State) : State :=
  let k := s.tick
  let last := k.base + (k.stEpoch - k.epoch) / max 1 s.periodNs - 1
  let soon := decide (k.hall + 2000 ≤ k.stEpoch)
  let onGrid := k.epoch ≤ k.stEpoch && (k.stEpoch - k.epoch) % max 1 s.periodNs == 0
  let ok := soon && k.commit.isNone && (!k.committed || (onGrid && decide (last < k.stBase)))
  if !ok then (s.set1 F.TCK_STAT_TIME_REFUSED).irq Page.TCK 2
  else
    let s := { s with tick := { k with commit := some (k.stPeriod, k.stEpoch, k.stBase), committed := true } }
    s.cancelArms k.stEpoch

/-- `TIME_COMMIT`. -/
def execTimeCommit (path : Path) (s : State) : Host.Outcome State Fault Refusal :=
  fromPath path R.TCK_CTRL s fun s => onPage s Page.TCK State.timeCommit

/-! ### The barrier (R39, R41) -/

/-- The manager sends a release to every engine of the host and holds it. -/
def State.sendRelease (s : State) (h : Nat) : State :=
  ({ s with tick := { s.tick with releases := nsAdd s.tick.releases h } }).ringSend 3 none 0 [h]

/-- `TCK_BARRIER_HI` written on the manager (R39, R28, R460, R483). -/
def State.barrierArm (s : State) (hi : Nat) : State :=
  let s := s.wr R.TCK_BARRIER_HI 0 hi
  let h := s.rd64 R.TCK_BARRIER_LO
  let bad := s.flag F.TCK_STAT_HOLDOVER || s.tick.released || s.eru.checkFailed || s.fget F.CRG_STAT_MODE == 2
    || !s.isBoundary h || decide (h < s.tick.hall + 2000)
  if bad then s.set1 F.TCK_STAT_ARM_REFUSED
  else (({ s with tick := { s.tick with armed := nsAdd s.tick.armed h } }).set1 F.TCK_STAT_ARMED).sendRelease h

/-- `BARRIER_ARM`: on a worker the register is read-only. -/
def execBarrierArm (path : Path) (hi : Word) (s : State) : Host.Outcome State Fault Refusal :=
  fromPath path R.TCK_BARRIER_HI s fun s => onPage s Page.TCK fun s => if s.isMgr then s.barrierArm hi.toNat else s

/-! ### Holdover (R28) -/

/-- `HOLDOVER`. -/
def execHoldover (s : State) : Host.Outcome State Fault Refusal :=
  onUp s fun s => { s with tick := { s.tick with holdover := true, goodStrobes := 0 } }

/-- `HOLDOVER_TIMEOUT`. -/
def execHoldoverTimeout (s : State) : Host.Outcome State Fault Refusal :=
  onUp s fun s =>
    if s.tick.holdover && !s.flag F.TCK_STAT_HOLDOVER then
      ((s.set1 F.TCK_STAT_HOLDOVER).irq Page.TCK 3).logErr { block := Page.TCK, code := 0x0A20, sev := 1 }
    else s

/-- `HOLDOVER_END`. -/
def execHoldoverEnd (s : State) : Host.Outcome State Fault Refusal :=
  onUp s fun s =>
    if !s.tick.holdover && decide (16 ≤ s.tick.goodStrobes) then s.set0 F.TCK_STAT_HOLDOVER else s

end Sys2Proof.Machine
end

