-- ==== Sys2Proof/Machine/PlanCheck.lean ====
section
/-! DEFINITION. Plan images and the plan checker (R37, R188, R225, R234, R507). -/

namespace Sys2Proof.Machine

open Sys2Proof

/-! ### The image (R507) -/

/-- T0 offset of a block of a partition's plan area (R509). -/
def planBlock (p blk : Nat) : Nat := t0PlanArea + 0x20000 * p + 0x10000 * blk

/-- An entry from its 16 bytes, none when it is malformed. -/
def planEntry (e : List Byte) : Option PlanEntry :=
  let slot := fieldLE e 2 2
  let first := fieldLE e 4 2
  let len := fieldLE e 6 2
  let zero (o n : Nat) : Bool := fieldLE e o n == 0
  let op : Option PlanOp :=
    match fieldLE e 0 1 with
    | 1 =>
      let rows := fieldLE e 12 1
      if fieldLE e 8 2 < 256 ∧ fieldLE e 10 2 < 256 ∧ 0 < rows ∧ rows < 8 ∧ zero 13 3 = true ∧ first + len ≤ 256 then
        some (.feed (fieldLE e 8 2) (fieldLE e 10 2) rows)
      else none
    | 2 =>
      let kind := fieldLE e 9 1
      let split := fieldLE e 10 1
      let a := fieldLE e 12 2
      let b := fieldLE e 14 2
      let splitOk : Bool := if kind = 1 then decide (1 ≤ split) && decide (split ≤ 64) else split == 0
      if first = 0 ∧ fieldLE e 8 1 < 16 ∧ 1 ≤ kind ∧ kind ≤ 3 ∧ splitOk = true ∧ zero 11 1 = true ∧ a ≤ b ∧ b < 256 then
        some (.lane (fieldLE e 8 1) kind split a b)
      else none
    | 3 => if zero 8 8 = true ∧ first + len ≤ 256 then some .update else none
    | 4 =>
      if fieldLE e 8 2 < 512 ∧ 1 ≤ fieldLE e 10 1 ∧ fieldLE e 10 1 ≤ 4 ∧ zero 11 5 = true ∧ first + len ≤ 240 then
        some (.bank (fieldLE e 8 2) (fieldLE e 10 1))
      else none
    | 5 => if fieldLE e 8 2 < 512 ∧ zero 10 6 = true ∧ len = 96 ∧ first + len ≤ 240 then some (.refresh (fieldLE e 8 2)) else none
    | _ => none
  if zero 1 1 && decide (1 ≤ len) then op.map fun o => ⟨slot, first, len, o⟩ else none

/-- Slots in ascending order. -/
def slotsRise : List PlanEntry → Bool
  | [] => true
  | [_] => true
  | a :: b :: l => decide (a.slot ≤ b.slot) && slotsRise (b :: l)

/-- A plan from the bytes of a buffer; none for reason 0x1 (R37, R507). -/
def planOf (img : List Byte) : Option Plan :=
  let n := fieldLE img 14 2
  let whole := img.take (64 + 16 * n)
  let entries := (chunks 16 (whole.drop 64)).filterMap planEntry
  let sum := crc32c (whole.take 60 ++ leBytes 4 0 ++ whole.drop 64)
  let ok := fieldLE img 0 1 == 1 && decide (n ≤ 4092) && whole.length == 64 + 16 * n && decide (fieldLE img 1 1 < 8)
    && decide (1 ≤ fieldLE img 6 2) && decide (1 ≤ fieldLE img 12 1) && decide (fieldLE img 12 1 ≤ 32)
    && decide (1 ≤ fieldLE img 13 1) && decide (fieldLE img 13 1 ≤ 64)
    && (img.drop 16).take 44 == List.replicate 44 0 && fieldLE img 60 4 == sum && entries.length == n && slotsRise entries
  if ok then
    some ⟨fieldLE img 8 4, fieldLE img 1 1, fieldLE img 2 2, fieldLE img 4 2, fieldLE img 6 2, fieldLE img 12 1, fieldLE img 13 1, entries⟩
  else none

/-- The bytes of a partition's plan block. -/
def State.planImage (s : State) (p blk : Nat) : List Byte :=
  let a := planBlock p blk
  let n := fieldLE ((s.t0Read (a + 14) 2).map (·.getD 0xFF)) 0 2
  (s.t0Read a (64 + 16 * min n 4092)).map (·.getD 0xFF)

/-! ### Intervals -/

/-- Whether two half-open intervals meet. -/
def meets (a b : Nat × Nat) : Bool := decide (a.1 < b.2) && decide (b.1 < a.2)

/-- Whether some two elements of a list, in list order, stand in a relation. -/
def anyPair {α : Type} (f : α → α → Bool) : List α → Bool
  | [] => false
  | a :: l => l.any (f a) || anyPair f l

/-- A feed as trio, pair and its LCLK cycles from the plan's start. -/
def Plan.feeds (x : Plan) : List (Nat × Nat × (Nat × Nat)) :=
  x.entries.filterMap fun e => match e.op with
    | .feed t f _ => some (t, f, (256 * e.slot + e.first, 256 * e.slot + e.first + e.len))
    | _ => none

/-- Reason 0x3 (R13): a pair serves two trios, or a trio draws from two pairs, in one cycle. -/
def Plan.feedClash (x : Plan) : Bool :=
  anyPair (fun a b => meets a.2.2 b.2.2 && ((a.2.1 == b.2.1 && a.1 != b.1) || (a.1 == b.1 && a.2.1 != b.2.1))) x.feeds

/-- The first TCLK edge at or after the start of a tick slot. -/
def slotTclk (lclk tclk slot : Nat) : Nat := ceilDiv (256 * slot * tclk) (max 1 lclk)

/-- Class-0 occupancy of a bank: TCLK cycles from the tick's start, and the user (5 a refresh). -/
def Plan.occupancy (x : Plan) (lclk tclk first bank : Nat) : List ((Nat × Nat) × Nat) :=
  x.entries.filterMap fun e =>
    let a := slotTclk lclk tclk (first + e.slot) + e.first
    match e.op with
    | .bank b u => if b = bank then some ((a, a + e.len), u) else none
    | .refresh b => if b = bank then some ((a, a + e.len), 5) else none
    | _ => none

/-- The banks a plan names in its BANK and REFRESH entries. -/
def Plan.busyBanks (x : Plan) : List Nat :=
  (x.entries.filterMap fun e => match e.op with
    | .bank b _ => some b
    | .refresh b => some b
    | _ => none).foldl nsAdd []

/-- The banks a plan uses (R507). -/
def Plan.banks (x : Plan) : List Nat := x.feeds.foldl (fun l f => nsAdd (nsAdd l (2 * f.2.1)) (2 * f.2.1 + 1)) x.busyBanks

/-- TCLK cycles after which a plan's slots begin again, its last slot joined to its first (R507). -/
def Plan.tclkLen (x : Plan) (lclk tclk first : Nat) : Nat := slotTclk lclk tclk (first + x.slots) - slotTclk lclk tclk first

/-- Reason 0x4: a cycle of a bank given to two users, counting the plan's next repetition (R507). -/
def Plan.bankClash (x : Plan) (lclk tclk first : Nat) : Bool :=
  let n := x.tclkLen lclk tclk first
  x.busyBanks.any fun b =>
    let l := x.occupancy lclk tclk first b
    anyPair (fun a c => a.2 != c.2 && meets a.1 c.1) (l ++ l.map fun a => ((a.1.1 + n, a.1.2 + n), a.2))

/-- REF entries of a bank. -/
def Plan.refs (x : Plan) (bank : Nat) : Nat := x.entries.countP fun e => match e.op with
  | .refresh b => b == bank
  | _ => false

/-- REF commands a bank needs per tick (R234). -/
def refsNeeded (us : Nat) : Nat := if us < 16000 then ceilDiv (770 * us) (16000 - us) else 0

/-- An interval put in its place by start. -/
def putIv (a : Nat × Nat) : List (Nat × Nat) → List (Nat × Nat)
  | [] => [a]
  | b :: l => if a.1 ≤ b.1 then a :: b :: l else b :: putIv a l

/-- Sorted intervals joined where no cycle lies between them. -/
def joinIvs : List (Nat × Nat) → List (Nat × Nat) → List (Nat × Nat)
  | acc, [] => acc.reverse
  | [], a :: l => joinIvs [a] l
  | c :: acc, a :: l => if a.1 ≤ c.2 then joinIvs ((c.1, max c.2 a.2) :: acc) l else joinIvs (a :: c :: acc) l

/-- The longest run from a list that begins after an opportunity: runs end where a gap of 74 cycles follows (R225). -/
def longestRun : Nat → Option (Nat × Nat) → List (Nat × Nat) → Nat
  | best, none, [] => best
  | best, some r, [] => max best (r.2 - r.1)
  | best, none, a :: l => longestRun best (some a) l
  | best, some r, a :: l =>
    if r.2 + 74 ≤ a.1 then longestRun (max best (r.2 - r.1)) (some a) l else longestRun best (some (r.1, a.2)) l

/-- Reason 0x6 for one bank's occupancy, repeated after `len` cycles: no opportunity at all, or a run of more than 128. -/
def runTooLong (len : Nat) (ivs : List (Nat × Nat)) : Bool :=
  let l := joinIvs [] (ivs.foldl (fun a x => putIv x a) [])
  let n := l.length
  match (List.range n).find? fun i =>
      let e := ((l[i]?).getD (0, 0)).2
      let next := if i + 1 < n then ((l[i + 1]?).getD (0, 0)).1 else ((l[0]?).getD (0, 0)).1 + len
      decide (e + 74 ≤ next) with
  | none => n != 0
  | some i =>
    let round := l.drop (i + 1) ++ (l.take (i + 1)).map fun x => (x.1 + len, x.2 + len)
    decide (128 < longestRun 0 none round)

/-- Reason 0x6: every bank's occupancy. -/
def Plan.runClash (x : Plan) (lclk tclk first : Nat) : Bool :=
  x.busyBanks.any fun b => runTooLong (x.tclkLen lclk tclk first) ((x.occupancy lclk tclk first b).map (·.1))

/-- The trios a plan names. -/
def Plan.trios (x : Plan) : List Nat :=
  x.entries.flatMap fun e => match e.op with
    | .feed t _ _ => [t]
    | .lane _ _ _ a b => (List.range (b + 1 - a)).map (· + a)
    | _ => []

/-! ### The check (R37) -/

/-- Reason 0x7: the K-width class against the rows as they stand, the split counts. -/
def State.classClash (s : State) (x : Plan) : Bool :=
  ((List.range 768).any fun r => x.uses r && (!s.rowFits x r || s.rowNoWork r))
    || x.entries.any fun e => match e.op with
        | .lane _ 1 split a b => split != x.split || decide (3 * (b + 1 - a) < x.split)
        | _ => false

/-- Whether a plan is checked against the staged values: its period is the pending one (R32). -/
def State.stagedFor (s : State) (x : Plan) : Bool := s.tick.commit.any fun c => c.1 == x.period

/-- The reason of a check, the lowest that holds (R37, R506). -/
def State.planReason (s : State) (p : Nat) : Option Plan → Nat
  | none => 1
  | some x =>
    let us := if s.stagedFor x then x.period else s.fget F.TCK_PERIOD_US
    let seat := s.seatOf p
    let first := s.fget F.PTC_SEAT_SLOTS_FIRST seat
    let lclk := s.lclk
    let tclk := s.fget F.IDN_FREQ1_TCLK
    let inSeat (t : Nat) : Bool := bit (s.rd (R.PTC_SEAT_TRIO_0 + 4 * (t / 32)) seat) (t % 32)
    let queueOk (e : PlanEntry) : Bool := match e.op with
      | .lane q _ _ _ _ => s.qPart .lane q == p
      | _ => true
    let past (e : PlanEntry) : Bool := match e.op with
      | .lane _ _ _ _ _ => decide (x.slots < e.slot + e.len)
      | _ => decide (x.slots ≤ e.slot)
    if x.period ≠ us ∨ x.lclk ≠ lclk ∨ slotsPer us lclk < x.slots + 1 then 2
    else if x.feedClash then 3
    else if x.bankClash lclk tclk first then 4
    else if x.banks.any (fun b => decide (x.refs b < refsNeeded us)) then 5
    else if x.runClash lclk tclk first then 6
    else if s.classClash x then 7
    else if x.part ≠ p ∨ x.trios.all inSeat = false ∨ x.entries.all queueOk = false then 8
    else if x.entries.any past ∨ s.fget F.PTC_SEAT_SLOTS_COUNT seat < x.slots then 9
    else 0

end Sys2Proof.Machine
end

