-- ==== Sys2Proof/Machine/Archive.lean ====
section
/-! DEFINITION. The archive stream and restore (R344–R361). -/

namespace Sys2Proof.Machine

open Sys2Proof

/-! ### The archive table (R344, R345) -/

/-- Fields of an entry, or of a record's header, which lays the same ones out from its own offset. -/
abbrev aeFirst (e : List Byte) : Nat := fieldLE e 0 4
abbrev aeElems (e : List Byte) : Nat := fieldLE e 8 8
abbrev aeTensor (e : List Byte) : Nat := fieldLE e 16 4
abbrev aeFmt (e : List Byte) : Nat := fieldLE e 20 1
abbrev aeDim (e : List Byte) : Nat := fieldLE e 21 1
abbrev aeFlags (e : List Byte) : Nat := fieldLE e 22 1

/-- Six 4-byte words from an offset. -/
def words6 (e : List Byte) (off : Nat) : List Nat := (List.range 6).map fun i => fieldLE e (off + 4 * i) 4

/-- Bytes of an element of a format. -/
def aeSize (fmt : Nat) : Nat := if fmt = 0 ∨ fmt = 4 then 4 else if fmt = 1 ∨ fmt = 6 ∨ fmt = 7 then 2 else 1

/-- Bytes of an entry's shard. -/
def aeBytes (e : List Byte) : Nat := aeElems e * aeSize (aeFmt e)

/-- Partition address of an entry's first byte. -/
def aeAddr (e : List Byte) : Nat := aeFirst e % 2 ^ 28 * 4096

/-- An entry of a partition's table, as read; none while the read waits. -/
def State.arcEntry (s : State) (p i : Nat) : State × Option (List Byte) :=
  match s.readRange 3 p (s.fget F.ARC_TAB_BASE_PAGE p * 4096 + 128 * i) 128 with
  | (s, _, .wait) => (s, none)
  | (s, bs, _) => (s, some (bs.map (·.getD 0xFF)))

/-- Whether an entry is valid (R345). -/
def State.arcValid (s : State) (p : Nat) (e : List Byte) : Bool :=
  let dims := words6 e 24
  let offs := words6 e 48
  let exts := words6 e 72
  let last := (aeAddr e + aeBytes e - 1) / frameSize
  crcOk e 124 && decide (aeFirst e < 2 ^ 28) && fieldLE e 4 4 == 0 && decide (aeFmt e < 8) && decide (1 ≤ aeDim e) && decide (aeDim e ≤ 6)
    && decide (aeFlags e < 4) && fieldLE e 23 1 == 0 && fieldLE e 96 28 == 0
    && (dims.drop (aeDim e)).all (· == 1) && (exts.drop (aeDim e)).all (· == 1)
    && exts.foldl (· * ·) 1 == aeElems e
    && (List.zip dims (List.zip offs exts)).all (fun x => decide (x.2.1 + x.2.2 ≤ x.1))
    && (aeElems e == 0 || (s.inMap p last && decide (last < s.fget F.ARC_MAP_PAGES_PAGES p)))

/-! ### The change map (R346) -/

/-- Whether a granule's bit of a map is set; a word that cannot be read counts as all ones (R229, R231). -/
def State.mapBit (s : State) (p a m : Nat) : State × Bool :=
  match s.mapWord p (a / frameSize) with
  | (s, w) => (s, bit w (a % frameSize / 4096 + 16 * m))

/-- A granule's bit of a map cleared, in the word that the translation cache keeps where it keeps one (R347). -/
def State.mapClear (s : State) (p a m : Nat) : State :=
  let pg := a / frameSize
  let b := a % frameSize / 4096 + 16 * m
  match s.mapWord p pg with
  | (s, old) =>
    if !bit old b then s
    else if (alGet s.arc.words (pageKey p pg)).isSome then
      { s with arc := { s.arc with words := alPut s.arc.words (pageKey p pg) (s.mapWordAt p pg, setBit old b false) } }
    else s.towerPut (s.mapWordAt p pg) ((leBytes 4 (setBit old b false)).map some)

/-- The live and the capture map. -/
def State.liveMap (s : State) (p : Nat) : Nat := s.fget F.ARC_STAT_LIVE p
def State.capMap (s : State) (p : Nat) : Nat := 1 - s.liveMap p

/-- The remaining capture bits join the live map (R356). -/
def State.mapJoin (s : State) (p : Nat) : State :=
  let s := s.wordsOut p
  let lo := s.mapWordAt p 0
  let n := 4 * s.fget F.ARC_MAP_PAGES_PAGES p
  let words := (s.tower.mem.cells.filterMap fun c => if lo ≤ c.1 ∧ c.1 < lo + n then some ((c.1 - lo) / 4) else none).foldl nsAdd []
  words.foldl (fun s pg =>
    match s.mapWord p pg with
    | (s, old) =>
      let both := bits old 0 16 ||| bits old 16 16
      let new := if s.liveMap p = 0 then both else both * 2 ^ 16
      if new = old then s else s.towerPut (s.mapWordAt p pg) ((leBytes 4 new).map some)) s

/-! ### Points (R348, R349, R356) -/

/-- A partition's point. -/
def State.arcPoint (s : State) (p : Nat) : Option ArcPoint := alGet s.arc.points p

def State.setArcPoint (s : State) (p : Nat) (x : Option ArcPoint) : State :=
  { s with arc := { s.arc with points := alUpd s.arc.points p x } }

/-- Hall time of the boundary of a tick number that is still to come: under the values in effect, or under a pending commit's. -/
def State.tickTime (s : State) (t : Nat) : Option Nat :=
  let old := s.tick.epoch + (t - s.tick.base) * s.periodNs
  let inOld (h : Nat) : Option Nat := if s.tick.base ≤ t ∧ h = old then some h else none
  match s.tick.commit with
  | none => inOld old
  | some (us, e, b) =>
    if b ≤ t then some (e + (t - b) * 1000 * us) else if old < e then inOld old else none

/-- Whether the tower frames of a partition's map are reserved to it. -/
def State.mapInside (s : State) (p : Nat) : Bool :=
  let n := ceilDiv (4 * s.fget F.ARC_MAP_PAGES_PAGES p) frameSize
  let base := s.fget F.ARC_MAP_BASE_FRAME p
  (List.range n).all fun i => match s.pages.t1.get (base + i) with
    | .reserved q _ => q == p
    | .fixed q _ => q == p
    | _ => false

/-- First cause for which an ARM is refused, 0 when it is not (R348). -/
def State.arcReason (s : State) (p : Nat) : Nat :=
  let soon : Bool := match s.tickTime (s.rd64 R.ARC_POINT_LO p) with
    | some h => decide (s.tick.hall + 2000 ≤ h)
    | none => false
  let inside := s.runInMap p (s.fget F.ARC_TAB_BASE_PAGE p * 4096) (128 * s.fget F.ARC_TAB_COUNT_COUNT p) && s.mapInside p
    && s.runInMap p (s.fget F.ARC_STAGE_BASE_PAGE p * 4096) 0x80000
  if s.fget F.ARC_STAT_STATE p ≠ 0 then 1
  else if !soon then 2
  else if !s.flag F.ARC_TARGET_VALID p then 3
  else if s.fget F.ARC_MAP_PAGES_PAGES p = 0 ∨ inside = false then 4
  else 0

/-- `ARCHIVE_ARM`. -/
def execArchiveArm (path : Path) (full : Bool) (s : State) : Host.Outcome State Fault Refusal :=
  fromPath path R.ARC_CMD s fun s => onPage s Page.ARC fun s =>
    let p := s.sel path F.ARC_PART_SEL_PART
    let r := s.arcReason p
    let s := s.fset F.ARC_STAT_REASON p r
    if r ≠ 0 then s.irq Page.ARC 2
    else (s.fset F.ARC_STAT_STATE p 1).setArcPoint p (some ⟨full, s.rd64 R.ARC_POINT_LO p, 0, 0, 0, false, [], false⟩)

/-- A point ends without an end record: 2 FAILED, 3 ABORTED (R356). -/
def State.arcFail (s : State) (p result : Nat) : State :=
  let st := s.fget F.ARC_STAT_STATE p
  if st = 0 then s
  else
    let s := s.mapJoin p
    let s := ((s.setArcPoint p none).fset F.ARC_STAT_STATE p 0).fset F.ARC_STAT_RESULT p result
    let s := s.irq Page.ARC 0
    if result = 2 then s.logErr { block := Page.ARC, code := 0x0711, sev := 1, part := some p } else s

/-- `ARCHIVE_ABORT`. -/
def execArchiveAbort (path : Path) (s : State) : Host.Outcome State Fault Refusal :=
  fromPath path R.ARC_CMD s fun s => onPage s Page.ARC fun s => s.arcFail (s.sel path F.ARC_PART_SEL_PART) 3

/-- Whether an armed point takes effect: its tick has come, and every earlier plan of the partition has retired. -/
def State.arcDue (s : State) (p : Nat) : Bool :=
  let t := ((s.arcPoint p).map (·.tick)).getD 0
  let dues : List Nat := match s.plans[p]? with
    | some x => (x.running.toList ++ x.waiting).map fun (i : Inst) => i.due
    | none => []
  s.fget F.ARC_STAT_STATE p == 1 && s.tick.lastBoundary.isSome && decide (t ≤ s.tick.now) && dues.all fun d => decide (t ≤ d)

/-- `ARCHIVE_POINT` (R349). -/
def execArchivePoint (part : Fin 8) (s : State) : Host.Outcome State Fault Refusal :=
  onPage s Page.ARC fun s =>
    let p := part.val
    if s.arcDue p then ((s.fset F.ARC_STAT_LIVE p (s.capMap p)).bump F.ARC_SEQ_SEQ p).fset F.ARC_STAT_STATE p 2 else s

/-! ### Records (R353–R355) -/

/-- A record: header and payload, padded. -/
def arcRecord (typ flags p tick seq rec_ stamp mask raw start : Nat) (e payload : List Byte) : List Byte :=
  let h := withCrc (leBytes 1 typ ++ leBytes 1 1 ++ leBytes 1 flags ++ leBytes 1 (aeFmt e) ++ leBytes 4 (aeTensor e) ++ leBytes 8 tick
    ++ leBytes 4 seq ++ leBytes 4 rec_ ++ leBytes 1 (aeDim e) ++ leBytes 1 p ++ leBytes 2 stamp ++ leBytes 8 mask
    ++ leBytes 2 payload.length ++ leBytes 2 raw ++ leBytes 8 start ++ (e.drop 24).take 72 ++ leBytes 4 (crc32c payload))
  h ++ padTo (roundUp payload.length 4) 0 payload

/-- Partition address of a stage slot. -/
def State.stageAt (s : State) (p slot : Nat) : Nat := s.fget F.ARC_STAGE_BASE_PAGE p * 4096 + 8192 * slot

/-- A record goes to the target from its slot; while its slot cannot be read nothing is sent. -/
def State.arcTransmit (s : State) (p : Nat) (x : ArcRec) : State :=
  match s.readRange 3 p (s.stageAt p x.slot) x.len with
  | (s, _, .wait) => s
  | (s, bs, _) => s.sendMsg 6 (s.fget F.ARC_TARGET_NODE p) (bs.map (·.getD 0xFF)) (some p)

/-- A record staged in a free slot and sent; the state alone when its slot cannot be written now. -/
def State.arcStage (s : State) (p seq : Nat) (pt : ArcPoint) (bytes : List Byte) : State × Option ArcPoint :=
  match (List.range 64).find? fun i => pt.recs.all fun r => r.slot != i with
  | none => (s, none)
  | some i =>
    match s.writeRange (.stage p) p (s.stageAt p i) s.tick.now (bytes.map some) with
    | (s, .ok) =>
      let r : ArcRec := ⟨i, seq, bytes.length, 0⟩
      ((s.arcTransmit p r).event 0x1601 (some p), some { pt with recs := pt.recs ++ [r] })
    | (s, _) => (s, none)

/-- KiB counted from bytes, with the rest kept. -/
def State.arcCount (s : State) (raw stored : Nat) : State :=
  let a := s.arc.rawRem + raw
  let b := s.arc.sentRem + stored
  (({ s with arc := { s.arc with rawRem := a % 1024, sentRem := b % 1024 } }).bump F.ARC_RAW_KB_KIB 0 (a / 1024)).bump F.ARC_SENT_KB_KIB 0 (b / 1024)

/-- The stamp a coded block's record carries, 0 otherwise. -/
def State.arcStamp (s : State) (p a : Nat) : State × Nat :=
  let d := s.pme p (a / frameSize)
  if s.effState p (a / frameSize) d = PgCoded then
    let g := d.frame % 16
    let L := 16 * d.home + a % frameSize / 4096
    if L < s.codedBlocks g then
      let (s, t) := s.tagRead g (rowOfBlock (Grp.n s g) (Grp.k s g) (Grp.own s g) L)
      (s, tagStamp t 0)
    else (s, 0)
  else (s, 0)

/-- A granule read for its record: bytes, none where poison; `.inr true` when it must wait, `.inr false` when its page is gone. -/
def State.arcRead (s : State) (p a n : Nat) : State × (List (Option Byte) ⊕ Bool) :=
  match s.readRange 3 p a n with
  | (s, _, .wait) => (s, .inr true)
  | (s, _, .late) => (s, .inr true)
  | (s, _, .refused 9) => (s, .inr false)
  | (s, bs, _) => (s, .inl bs)

/-- Sectors that read as poison, as a mask. -/
def sectorPoison (bs : List (Option Byte)) : Nat :=
  (List.range 64).foldl (fun m i => if ((bs.drop (64 * i)).take 64).any (·.isNone) then m + 2 ^ i else m) 0

/-- Bytes as a record carries them: a poisoned sector is 0xFF throughout. -/
def poisonBytes (bs : List (Option Byte)) : List Byte :=
  let m := sectorPoison bs
  (List.zipIdx bs).map fun x => if bit m (x.2 / 64) then 0xFF else x.1.getD 0xFF

/-- A granule whose page is gone: no record (R350). -/
def State.arcGone (s : State) (p a : Nat) : State :=
  (s.bump F.ARC_GONE_CNT_COUNT).logErr
    { block := Page.ARC, code := 0x0714, sev := 1, part := some p, kind := 2, addr := a }

/-- A changed granule's record staged and sent; the point's cursor stands after it. The state alone when it must wait. -/
def State.arcGranule (s : State) (p : Nat) (pt : ArcPoint) (e : List Byte) : State × Option ArcPoint :=
  let size := aeSize (aeFmt e)
  let a := aeAddr e + 4096 * pt.gran
  let n := min 4096 (aeBytes e - 4096 * pt.gran)
  let (s, newer) := s.mapBit p a (s.liveMap p)
  let next := { pt with gran := pt.gran + 1 }
  match s.arcRead p a n with
  | (s, .inr true) => (s, none)
  | (s, .inr false) => (s.arcGone p a, some next)
  | (s, .inl bs) =>
    let (s, stamp) := s.arcStamp p a
    let mask := sectorPoison bs
    let raw := poisonBytes bs
    let comp := lz4Stored raw
    let payload := comp.getD raw
    let flags := pt.full.toNat + 2 * comp.isSome.toNat + 4 * newer.toNat + 8 * (mask != 0).toNat + 16 * (bit (aeFlags e) 0).toNat
    let bytes := arcRecord 0x30 flags p pt.tick (s.rd R.ARC_SEQ p) (pt.count + 1) stamp mask n (4096 * pt.gran / size) e payload
    match s.arcStage p (pt.count + 1) next bytes with
    | (s, none) => (s, none)
    | (s, some pt) =>
      let s := ((s.mapClear p a (s.capMap p)).bump F.ARC_REC_CNT_COUNT).arcCount n payload.length
      let s := if comp.isSome then s.bump F.ARC_LZ4_CNT_COUNT else s
      if newer then
        let s := ((s.bump F.ARC_NEWER_CNT_COUNT).set1 F.ARC_STAT_INCONSISTENT p).irq Page.ARC 1
        let s := if pt.warned then s
          else s.logErr { block := Page.ARC, code := 0x0712, sev := 0, part := some p, kind := 2, addr := a }
        (s, some { pt with count := pt.count + 1, warned := true })
      else (s, some { pt with count := pt.count + 1 })

/-- The end record (R356), once every data record is acknowledged. -/
def State.arcEnd (s : State) (p : Nat) : State :=
  match s.arcPoint p with
  | none => s
  | some pt =>
    if s.fget F.ARC_STAT_STATE p ≠ 3 ∨ pt.ended ∨ pt.recs ≠ [] then s
    else
      let bytes := arcRecord 0x32 pt.full.toNat p pt.tick (s.rd R.ARC_SEQ p) (pt.count + 1) 0 0 0 pt.count (List.replicate 128 0) []
      match s.arcStage p (pt.count + 1) pt bytes with
      | (s, some pt) => s.setArcPoint p (some { pt with ended := true })
      | (s, none) => s

/-- An entry that the capture passes over: its next granule stands at the next entry. -/
def ArcPoint.nextEntry (x : ArcPoint) : ArcPoint := { x with entry := x.entry + 1, gran := 0 }

/-- The capture bits of a replica that is not the leader are cleared (R350). -/
def State.arcDrop (s : State) (p : Nat) (e : List Byte) : State :=
  (List.range (ceilDiv (aeBytes e) 4096)).foldl (fun s i => s.mapClear p (aeAddr e + 4096 * i) (s.capMap p)) s

/-- The walk of the table, at most `fuel` places, up to one record or a granule that waits (R350). -/
def State.arcWalk (p : Nat) : Nat → ArcPoint → State → State
  | 0, pt, s => s.setArcPoint p (some pt)
  | fuel + 1, pt, s =>
    if s.fget F.ARC_TAB_COUNT_COUNT p ≤ pt.entry then ((s.setArcPoint p (some pt)).fset F.ARC_STAT_STATE p 3).arcEnd p
    else
      match s.arcEntry p pt.entry with
      | (s, none) => s.setArcPoint p (some pt)
      | (s, some e) =>
        if !s.arcValid p e then
          let s := (s.bump F.ARC_SKIP_CNT_COUNT).logErr { block := Page.ARC, code := 0x0710, sev := 0, part := some p, detail := [pt.entry] }
          State.arcWalk p fuel pt.nextEntry s
        else if bits (aeFlags e) 0 2 = 1 then State.arcWalk p fuel pt.nextEntry (s.arcDrop p e)
        else if ceilDiv (aeBytes e) 4096 ≤ pt.gran then State.arcWalk p fuel pt.nextEntry s
        else
          match s.mapBit p (aeAddr e + 4096 * pt.gran) (s.capMap p) with
          | (s, marked) =>
            if pt.full || marked then
              match s.arcGranule p pt e with
              | (s, none) => s.setArcPoint p (some pt)
              | (s, some pt') => if pt'.count = pt.count then State.arcWalk p fuel pt' s else s.setArcPoint p (some pt')
            else State.arcWalk p fuel { pt with gran := pt.gran + 1 } s

/-- Places of a partition's table: its entries and their granules, as far as its pages reach. -/
def State.arcPlaces (s : State) (p : Nat) : Nat :=
  s.fget F.ARC_TAB_COUNT_COUNT p * (16 * s.fget F.ARC_MAP_PAGES_PAGES p + 2) + 1

/-- `CAPTURE_RECORD`: the next record, when the window has room, the kept change-map words being written back first (R347, R350,
R355); once the table has been walked, the end record, where it could not be staged before (R356). -/
def execCaptureRecord (part : Fin 8) (s : State) : Host.Outcome State Fault Refusal :=
  onPage s Page.ARC fun s =>
    let p := part.val
    match s.arcPoint p with
    | some pt =>
      if s.fget F.ARC_STAT_STATE p = 2 ∧ pt.recs.length < clamp 1 64 (s.fget F.ARC_WINDOW_RECORDS) then
        State.arcWalk p (s.arcPlaces p) pt (s.wordsOut p)
      else s.arcEnd p
    | none => s

/-- A point completes (R356). -/
def State.arcDone (s : State) (p : Nat) : State :=
  ((((s.setArcPoint p none).fset F.ARC_STAT_STATE p 0).fset F.ARC_STAT_RESULT p 1).set1 F.ARC_STAT_DONE p).irq Page.ARC 3

/-- An acknowledgement for a partition's point frees its slots. -/
def State.arcAck (s : State) (p seq : Nat) : State :=
  match s.arcPoint p with
  | none => s
  | some pt =>
    let pt' := { pt with recs := pt.recs.filter fun r => decide (seq < r.seq) }
    if pt.ended ∧ pt'.recs = [] then s.arcDone p
    else (s.setArcPoint p (some pt')).arcEnd p

/-- `ARCHIVE_ACK` (R355): on the response class of VC6, from a target. -/
def execArchiveAck (gate : Bool) (src : BitVec 20) (msg : List Byte) (s : State) : Host.Outcome State Fault Refusal :=
  onMsg s 6 true gate src msg fun s =>
    let zero := fieldLE msg 2 2 == 0 && fieldLE msg 12 16 == 0
    if msg.length ≠ 32 ∨ fieldLE msg 0 1 ≠ 0x31 ∨ fieldLE msg 1 1 ≠ 1 ∨ crcOk msg 28 = false ∨ zero = false then s
    else
      let mine (s : State) (p : Nat) : Bool := s.flag F.ARC_TARGET_VALID p && s.fget F.ARC_TARGET_NODE p == src.toNat
        && s.rd R.ARC_SEQ p == fieldLE msg 4 4 && decide (2 ≤ s.fget F.ARC_STAT_STATE p)
      (List.range 8).foldl (fun s p => if mine s p then s.arcAck p (fieldLE msg 8 4) else s) s

/-- A record's acknowledgement timeout (R355, R356). -/
def State.arcResend (s : State) (p seq : Nat) : State :=
  match s.arcPoint p with
  | none => s
  | some pt =>
    match pt.recs.find? fun r => r.seq == seq with
    | none => s
    | some r =>
      if 8 ≤ r.resent then s.arcFail p 2
      else
        let pt' := { pt with recs := pt.recs.map fun x => if x.seq == seq then { x with resent := x.resent + 1 } else x }
        ((s.setArcPoint p (some pt')).bump F.ARC_RESEND_CNT_COUNT).arcTransmit p r

/-- `ARCHIVE_RESEND`. -/
def execArchiveResend (part : Fin 8) (seq : Nat) (s : State) : Host.Outcome State Fault Refusal :=
  onPage s Page.ARC fun s => s.arcResend part.val seq

/-! ### Restore (R357–R360) -/

/-- Coordinates of an index in a row-major shape. -/
def unravel (exts : List Nat) (i : Nat) : List Nat :=
  (exts.foldr (fun x acc => (acc.1 / max 1 x, acc.1 % max 1 x :: acc.2)) (i, ([] : List Nat))).2

/-- The index of coordinates in a row-major shape. -/
def ravel (exts cs : List Nat) : Nat := (List.zip exts cs).foldl (fun a x => a * x.1 + x.2) 0

/-- Where element `i` of a shard lands in another shard of the tensor, if it does (R358). -/
def landAt (offs exts toOffs toExts : List Nat) (i : Nat) : Option Nat :=
  let g := List.zipWith (· + ·) offs (unravel exts i)
  let inside := (List.zip g (List.zip toOffs toExts)).all fun x => decide (x.2.1 ≤ x.1) && decide (x.1 < x.2.1 + x.2.2)
  if inside then some (ravel toExts (List.zipWith (· - ·) g toOffs)) else none

/-- Bytes at addresses, joined into runs of rising addresses. -/
def runsOf : List (Nat × List (Option Byte)) → List (Nat × List (Option Byte)) → List (Nat × List (Option Byte))
  | acc, [] => acc.reverse
  | [], x :: l => runsOf [x] l
  | (a, bs) :: acc, x :: l => if a + bs.length = x.1 then runsOf ((a, bs ++ x.2) :: acc) l else runsOf (x :: (a, bs) :: acc) l

/-- Whether an entry takes a record's elements (R345, R358). -/
def aeTakes (e h : List Byte) : Bool :=
  aeTensor e == fieldLE h 4 4 && aeFmt e == fieldLE h 3 1 && aeDim e == fieldLE h 24 1 && words6 e 24 == words6 h 48
    && (aeFmt e != 5 || (words6 e 48 == words6 h 72 && words6 e 72 == words6 h 96))

/-- Where element `j` of a record lands in an entry's shard, if it does (R358). -/
def aeLand (e h : List Byte) (j : Nat) : Option Nat :=
  landAt (words6 h 72) (words6 h 96) (words6 e 48) (words6 e 72) (fieldLE h 40 8 + j)

/-- The outcome of writing a record's elements to one entry: how the writes ended. -/
def State.arcPut (s : State) (p : Nat) (e h : List Byte) (els : List (Option (List Byte))) : State × Span :=
  let size := aeSize (aeFmt e)
  let lands := (List.zipIdx els).filterMap fun x => (aeLand e h x.2).map fun t => (aeAddr e + size * t, x.1)
  let runs := runsOf [] (lands.filterMap fun x => x.2.map fun b => (x.1, b.map some))
  let (s, sp) := runs.foldl (fun (acc : State × Span) r =>
    let (s, sp) := acc
    match s.writeRange (.restore p) p r.1 s.tick.now r.2 with
    | (s, x) => (s, sp.join x)) (s, Span.ok)
  let bad := (lands.filterMap fun x => if x.2.isNone then some (x.1 / 64) else none).foldl nsAdd []
  let (s, sp) := bad.foldl (fun (acc : State × Span) k =>
    let (s, sp) := acc
    match s.pageWrite (.restore p) p (64 * k) s.tick.now (List.replicate 64 none) with
    | (s, .wait) => (s, sp.join .wait)
    | (s, .refused 4) => (s.poisonAt (.restore p) p (64 * k), sp)
    | (s, .refused st) => (s, sp.join (.refused st))
    | (s, .done) => (s.poisonAt (.restore p) p (64 * k), sp)) (s, sp)
  (s, sp)

/-- The raw payload of a data record, none when a CRC or the block fails. -/
def arcPayload (h stored : List Byte) : Option (List Byte) :=
  let raw := fieldLE h 38 2
  if crc32c stored ≠ fieldLE h 120 4 ∨ 4096 < raw ∨ raw % aeSize (fieldLE h 3 1) ≠ 0 then none
  else
    let d := if bit (fieldLE h 2 1) 1 then lz4Decode stored else some stored
    d.bind fun r => if r.length = raw then some r else none

/-- One data record written to every entry it matches: the status of its unit, none while a write waits. Where some of its elements
land and others do not, its part is cleared and the status is GONE (R360; log entry 73: a DESIGN CHOICE). -/
def State.arcApply (s : State) (p : Nat) (h raw : List Byte) : State × Option Nat :=
  let size := aeSize (fieldLE h 3 1)
  let mask := fieldLE h 28 8
  let els := (List.zipIdx (chunks size raw)).map fun x =>
    if bit mask (size * x.2 / 64) then none else some x.1
  let (s, ents, sp) := (List.range (s.fget F.ARC_TAB_COUNT_COUNT p)).foldl (fun (acc : State × List (List Byte) × Span) i =>
    let (s, ents, sp) := acc
    match s.arcEntry p i with
    | (s, none) => (s, ents, .wait)
    | (s, some e) =>
      if s.arcValid p e && aeTakes e h then
        let (s, x) := s.arcPut p e h els
        (s, e :: ents, sp.join x)
      else (s, ents, sp)) (s, [], Span.ok)
  let lands (j : Nat) : Bool := ents.any fun e => (aeLand e h j).isSome
  match sp with
  | .wait => (s, none)
  | .refused 4 => (s, some 4)
  | .refused _ => (s, some 3)
  | _ => (s, some (if (List.range els.length).all (fun j => !lands j) then 9 else if els.any (·.isNone) then 4
      else if (List.range els.length).all lands then 0 else 9))

/-- The status of bytes of a record that could not be read: that of the refusal, or POISON. -/
def Span.unread (sp : Span) (bs : List (Option Byte)) : Option Nat :=
  match sp with
  | .refused st => some st
  | _ => if bs.any (·.isNone) then some 4 else none

/-- One record of a run: the address after it and its status, none while it must wait. -/
def State.arcOne (s : State) (p a : Nat) : State × Option (Nat × Nat) :=
  match s.readRange 3 p a 128 with
  | (s, _, .wait) => (s, none)
  | (s, hb, sp) =>
    let h := hb.map (·.getD 0xFF)
    let n := fieldLE h 36 2
    let next := roundUp (a + 128 + roundUp n 4) 64
    let head := crcOk h 124 && fieldLE h 1 1 == 1
    let met : Option Nat := sp.unread hb
    if met.isSome then (s, some (next, met.getD 0))
    else if !head then (s, some (next, 5))
    else if fieldLE h 0 1 = 0x32 then (s, some (next, if n = 0 ∧ fieldLE h 120 4 = crc32c [] then 0 else 5))
    else if fieldLE h 0 1 ≠ 0x30 ∨ 4096 < n then (s, some (next, 5))
    else
      match s.readRange 3 p (a + 128) n with
      | (s, _, .wait) => (s, none)
      | (s, pb, sp) =>
        let met : Option Nat := sp.unread pb
        if met.isSome then (s, some (next, met.getD 0))
        else match arcPayload h (pb.map (·.getD 0xFF)) with
        | none => (s, some (next, 5))
        | some raw =>
          match s.arcApply p h raw with
          | (s, none) => (s, none)
          | (s, some st) => (if st = 0 then s.bump F.ARC_RESTORE_CNT_COUNT else s, some (next, st))

def State.setRestore (s : State) (p : Nat) (x : Option ArcRestore) : State :=
  { s with arc := { s.arc with restores := (s.arc.restores.filter fun y => y.part != p) ++ x.toList } }

/-- COUNT of a restore descriptor. -/
abbrev rsCount (d : List Byte) : Nat := fieldLE d 12 4

/-- Records of a descriptor in order, at most `fuel`, up to one that must wait. -/
def State.arcRun : Nat → ArcRestore → State → State
  | 0, x, s => s.setRestore x.part (some x)
  | fuel + 1, x, s =>
    if rsCount x.desc ≤ x.next then
      (s.setRestore x.part none).qComplete .restore x.part x.index x.desc (rsCount x.desc) x.fails
    else
      match s.arcOne x.part x.addr with
      | (s, none) => s.setRestore x.part (some x)
      | (s, some (a, st)) =>
        let s := if st = 0 ∨ x.logged = true then s
          else s.logErr { block := Page.ARC, code := 0x0713, sev := 0, part := some x.part, kind := 2, addr := x.addr, detail := [x.next, st] }
        let fails := if st = 0 then x.fails else alPut x.fails x.next st
        State.arcRun fuel { x with next := x.next + 1, addr := a, fails := fails, logged := x.logged || st != 0 } s

/-- First cause for which a restore descriptor is refused, 0 when it is not (R264, R357). -/
def State.arcDescReason (s : State) (p : Nat) (d : List Byte) : Nat :=
  if 2 ^ 28 ≤ fieldLE d 8 4 ∨ !descZero d 16 44 then 1
  else if !s.inMap p (fieldLE d 8 4 / 16) then 3
  else if rsCount d = 0 ∨ 65535 < rsCount d then 4
  else 0

/-- A restore descriptor taken. -/
def State.arcTake (s : State) (p i : Nat) (d : List Byte) : State :=
  let s := s.qTake .restore p
  let r := s.arcDescReason p d
  if r ≠ 0 then s.qRefuse .restore p i d r
  else State.arcRun (rsCount d + 1) ⟨p, i, d, 0, fieldLE d 8 4 * 4096, [], false⟩ s

/-- `RESTORE`: the descriptor in progress goes on, or the head of the partition's restore queue is taken. -/
def execRestore (part : Fin 8) (s : State) : Host.Outcome State Fault Refusal :=
  onPage s Page.ARC fun s =>
    let p := part.val
    let st := s.fget F.PTC_STAT_STATE p
    match s.arc.restores.find? fun x => x.part == p with
    | some x => State.arcRun (rsCount x.desc + 1) x s
    | none =>
      if st = 0 ∨ st = 4 then s
      else s.qRun .restore p 0x40 (· == 0x40) fun s i d => s.arcTake p i d

end Sys2Proof.Machine
end

