-- ==== Sys2Proof/Machine/Counters.lean ====
section
/-! DEFINITION. The error unit's and the counters' commands (R385–R410). -/

namespace Sys2Proof.Machine

open Sys2Proof

/-! ### Error unit -/

/-- `ERU_INJECT` (R393): severity 3 is ignored. -/
def execEruInject (path : Path) (value : Word) (s : State) : Host.Outcome State Fault Refusal :=
  fromPath path R.ERU_INJECT s fun s => onReg s Page.ERU fun s =>
    let sev := bits value.toNat 16 2
    if sev = 3 then s else s.logErr { block := Page.ERU, code := bits value.toNat 0 16, sev := sev, injected := true }

/-- Whether a fatal condition is in force (R390). -/
def State.fatalNow (s : State) : Bool :=
  s.tower.critical || s.eru.checkFailed || (match s.run with
    | .fallback => true
    | .stopped _ _ => true
    | _ => false)

/-- `FATAL_CLEAR` (R390). -/
def execFatalClear (path : Path) (s : State) : Host.Outcome State Fault Refusal :=
  fromPath path R.ERU_STAT s fun s => onReg s Page.ERU fun s => if s.fatalNow then s else s.set0 F.ERU_STAT_FATAL

/-! ### Staged counter settings (R401) -/

/-- `CTR_CFG_WRITE`. -/
def execCtrCfgWrite (path : Path) (value : Word) (s : State) : Host.Outcome State Fault Refusal :=
  fromPath path R.CTR_CFG s fun s => onReg s Page.CTR fun s =>
    let c := s.sel path F.CTR_SEL_COUNTER
    { s with ctr := { s.ctr with stagedCfg := alPut s.ctr.stagedCfg c (value.toNat % 2 ^ 22) } }

/-- `PRELOAD`: a write of `CTR_PRELOAD_HI`; LOAD stages the value. -/
def execPreload (path : Path) (value : Word) (s : State) : Host.Outcome State Fault Refusal :=
  fromPath path R.CTR_PRELOAD_HI s fun s => onReg s Page.CTR fun s =>
    let c := s.sel path F.CTR_SEL_COUNTER
    let s := s.fset F.CTR_PRELOAD_HI_VALUE c value.toNat
    if bit value.toNat 31 then
      let v := s.rd R.CTR_PRELOAD_LO c + s.fget F.CTR_PRELOAD_HI_VALUE c * 2 ^ 32
      { s with ctr := { s.ctr with stagedLoad := alPut s.ctr.stagedLoad c v } }
    else s

/-- Staged settings take effect at a boundary. -/
def State.applyCtr (s : State) : State :=
  let c := s.ctr
  let s := c.stagedCfg.foldl (fun s e => s.wr R.CTR_CFG e.1 e.2) s
  let prog := c.stagedLoad.foldl (fun m e => spSet (fun _ => 0) m e.1 e.2) c.prog
  { s with ctr := { s.ctr with prog := prog, stagedCfg := [], stagedLoad := [] } }

/-! ### Freeze and snapshot (R404–R407) -/

/-- A programmable counter's value. -/
def State.ctrVal (s : State) (c : Nat) : Nat := (alGet s.ctr.prog c).getD 0

/-- A counter's overflow bit. -/
def State.ctrOvf (s : State) (c : Nat) : Bool := bit (s.rd (if c < 32 then R.CTR_OVF_LO else R.CTR_OVF_HI)) (c % 32)

/-- A top-down counter's value. -/
def State.ctrTop (s : State) (p cls : Nat) : Nat := (alGet s.ctr.topDown (4 * p + cls)).getD 0

/-- What the shadow bank takes: bit 63 of a programmable counter's item is its overflow bit. -/
def State.shadowItem (s : State) (i : Nat) : Nat :=
  if i < 64 then s.ctrVal i + (if s.ctrOvf i then 2 ^ 63 else 0)
  else if i = 64 then s.ctr.cycle
  else s.ctrTop ((i - 65) / 4) ((i - 65) % 4)

/-- A shadow item. -/
def State.shadow (s : State) (i : Nat) : Nat := (alGet s.ctr.shadow i).getD 0

/-- The user block of a partition as its snapshot gives it (R407). -/
def State.userBlock (s : State) (p : Nat) : List Byte :=
  let seq := leBytes 8 (s.rd R.CTR_SNAP_SEQ)
  let prog (c : Nat) : Nat := if s.flag F.CTR_CFG_PART_EN c && s.fget F.CTR_CFG_PART c == p then s.shadow c else 0
  seq ++ leBytes 8 s.tick.hall ++ ((List.range 4).flatMap fun i => leBytes 8 (s.shadow (65 + 4 * p + i)))
    ++ leBytes 8 (s.shadow 64) ++ ((List.range 64).flatMap fun c => leBytes 8 (prog c)) ++ List.replicate 448 0 ++ seq

/-- User blocks are written, as class-3 writes. -/
def State.userBlocks (s : State) : State :=
  (List.range 8).foldl (fun s p =>
    if bit (s.rd R.CTR_USER_EN) p then
      s.access ⟨3, .ctrBlock, p, none, s.fget F.CTR_USER_PAGE_PAGE p * 4096, 1024, (s.userBlock p).map some, 0⟩
    else s) s

/-- The copy into the shadow bank. -/
def State.snapNow (s : State) : State :=
  let items := (List.range 97).foldl (fun m i => spSet (fun _ => 0) m i (s.shadowItem i)) []
  let s := { s with ctr := { s.ctr with shadow := items } }
  (((s.bump F.CTR_SNAP_SEQ_SEQ).set1 F.CTR_SNAP_STAT_DONE).irq Page.CTR 1).userBlocks

/-- The armed command is carried out (R405). -/
def State.snapAct (s : State) : State :=
  match s.ctr.armed with
  | none => s
  | some (op, _) =>
    let s := ({ s with ctr := { s.ctr with armed := none } }).set0 F.CTR_SNAP_STAT_ARMED
    let freeze (s : State) (b : Bool) : State := ({ s with ctr := { s.ctr with frozen := b } }).fset F.CTR_SNAP_STAT_FROZEN 0 b.toNat
    match op with
    | 1 => s.snapNow
    | 2 => freeze s.snapNow true
    | _ => freeze s false

/-- The armed command carried out at its time, when that is `t` or earlier. -/
def State.snapDue (s : State) (t : Nat) : State :=
  match s.ctr.armed with
  | some (_, a) => if a ≤ t then (s.passTo a).snapAct else s
  | none => s

/-- `SNAP_TIME`: the armed hall time arrives. -/
def execSnapTime (s : State) : Host.Outcome State Fault Refusal :=
  onUp s fun s => match s.ctr.armed with
    | some (_, a) => (s.passTo a).snapAct
    | none => s

/-- A command is armed. -/
def State.snapArm (s : State) (op t : Nat) : State :=
  ({ s with ctr := { s.ctr with armed := some (op, t) } }).set1 F.CTR_SNAP_STAT_ARMED

/-- `CTR_SNAP_CMD` written (R404); for the whole host it is the manager's. -/
def State.snapCmd (s : State) (op : Nat) (host : Bool) : State :=
  let t := s.rd64 R.CTR_SNAP_LO
  if t < s.tick.hall + 2000 ∨ (host && (!s.isMgr || s.eru.checkFailed)) = true then s.set1 F.CTR_SNAP_STAT_REFUSED
  else
    let s := s.snapArm op t
    if host then s.ringSend 4 none op [t] else s

/-- `SNAPSHOT`. -/
def execSnapshot (path : Path) (host : Bool) (s : State) : Host.Outcome State Fault Refusal :=
  fromPath path R.CTR_SNAP_CMD s fun s => onUp s fun s => s.snapCmd 1 host

/-- `FREEZE`. -/
def execFreeze (path : Path) (host : Bool) (s : State) : Host.Outcome State Fault Refusal :=
  fromPath path R.CTR_SNAP_CMD s fun s => onUp s fun s => s.snapCmd 2 host

/-- `UNFREEZE`. -/
def execUnfreeze (path : Path) (host : Bool) (s : State) : Host.Outcome State Fault Refusal :=
  fromPath path R.CTR_SNAP_CMD s fun s => onUp s fun s => s.snapCmd 3 host

/-- `COUNTER` on the ring. -/
def execRingCounter (hdr : BitVec 64) (payload : List (BitVec 64)) (s : State) : Host.Outcome State Fault Refusal :=
  onRing s 4 hdr payload fun s =>
    let op := bits hdr.toNat 0 2
    if op = 0 ∨ payload.length ≠ 1 then s else s.snapArm op (word0 payload)

end Sys2Proof.Machine
end

