-- ==== Sys2Proof/Machine/Kiosk.lean ====
section
/-! DEFINITION. The Kiosk (R414–R420, R425, R430, R431): messages, mailboxes, where replies and notifications go. -/

namespace Sys2Proof.Machine

open Sys2Proof

/-! ### Cores and the Kiosk's state (R411, R414) -/

/-- State of a core: 0 HALTED, 1 RUNNING. -/
def State.coreState (s : State) (c : Nat) : Nat := s.fget F.MGC_CORE_STAT_STATE c

/-- Whether Barrath runs on core 0. -/
def State.fwRuns (s : State) : Bool := s.coreState 0 == 1

/-- 0 DOWN, 1 BOOT_WAIT, 2 READY. -/
def State.kskState (s : State) : Nat := s.fget F.MGC_STAT_KIOSK_STATE

/-- Whether core 0's boot agent serves mailbox 0. -/
def State.agentRuns (s : State) : Bool := s.kskState == 1 && !s.fwRuns

/-- SRAM address of a core's region, of staging and of the handoff area. -/
def segBase (c : Nat) : Nat := 0x10000 * c
def stagingArea : Nat := 0x40000
def handoffArea : Nat := 0x50000

/-- Oldest and newest Kiosk major accepted: the boot agent's, or those of core 0's segment (R414, R418). -/
def State.majors (s : State) : Nat × Nat :=
  if s.fwRuns then
    let h := s.mgmt.sram.bytes (segBase 0) 64
    (fieldLE h 8 1, fieldLE h 9 1)
  else (2, 2)

/-! ### Messages (R416) -/

abbrev kskMajor (m : List Byte) : Nat := fieldLE m 0 1
abbrev kskOp (m : List Byte) : Nat := fieldLE m 2 2
abbrev kskSeq (m : List Byte) : Nat := fieldLE m 4 4
abbrev kskFlags (m : List Byte) : Nat := fieldLE m 10 2
abbrev kskBodyOf (m : List Byte) : List Byte := m.drop 16

/-- A message from its fields. -/
def kskMsg (major op seq flags : Nat) (body : List Byte) : List Byte :=
  let h := leBytes 1 major ++ leBytes 1 0 ++ leBytes 2 op ++ leBytes 4 seq ++ leBytes 2 body.length ++ leBytes 2 flags
  h ++ leBytes 4 (crc32c (h ++ body)) ++ body

/-- Whether a message is in order: CRC, LENGTH, reserved flags (R417). -/
def kskOk (m : List Byte) : Bool :=
  let n := fieldLE m 8 2
  decide (n ≤ 2032) && m.length == 16 + n && decide (kskFlags m < 16) && fieldLE m 12 4 == crc32c (m.take 12 ++ m.drop 16)

/-- A body whose layout the spec does not give, no longer than fits beside a status word (log entry 41). -/
def openBody (op : Nat) (vals : List Nat) : List Byte := (Config.kioskBody op vals).take 2024

/-! ### Mailboxes -/

/-- Bytes of a ring. -/
def ringBytes (l : List (List Byte)) : Nat := l.foldl (fun a m => a + m.length) 0

/-- Capacity of a ring in bytes (R415), and of the shared area for what waits of a mailbox (log entry 42). -/
def kskRing : Nat := 8192

def State.box (s : State) (b : Nat) : Mbox := (s.mgmt.boxes[b]?).getD ⟨[], [], [], []⟩

def State.setBox (s : State) (b : Nat) (x : Mbox) : State := { s with mgmt := { s.mgmt with boxes := s.mgmt.boxes.set b x } }

/-- A message that is not in order is dropped unanswered, counted and logged (R417). -/
def State.kskBad (s : State) : State := (s.bump F.MGC_KSK_BAD_COUNT).logMs { block := Page.MGC, code := 0x0920, sev := 0 }

/-- A request arrives for a mailbox: refused when its ring is full, dropped when it is not in order (R417, R420). -/
def State.kskIn (s : State) (b : Nat) (src : KskSrc) (m : List Byte) : State :=
  let x := s.box b
  if kskRing < ringBytes (x.req.map (·.msg)) + m.length then
    if src = .window then s.set1 F.MGC_KSK_STAT_REQ_FULL b else s
  else if !kskOk m then s.kskBad
  else s.setBox b { x with req := x.req ++ [⟨src, m⟩] }

/-! ### The sideband and the ring (R430, R431, R456, R459) -/

/-- An MCTP message cut into packets of at most 64 bytes of body (R430, log entry 43). -/
def mctpPackets (dst src tag : Nat) (owner : Bool) (body : List Byte) : List (List Byte) :=
  let cs := chunks 64 body
  (List.zipIdx cs).map fun c =>
    let fl := (if c.2 = 0 then 128 else 0) + (if c.2 + 1 = cs.length then 64 else 0) + c.2 % 4 * 16 + (if owner then 8 else 0) + tag % 8
    leBytes 1 1 ++ leBytes 1 dst ++ leBytes 1 src ++ leBytes 1 fl ++ c.1

/-- A message sent on the sideband: packets, on the manager only. -/
def State.sbSend (s : State) (dst tag : Nat) (owner : Bool) (body : List Byte) : State :=
  if s.isMgr then
    { s with mgmt := { s.mgmt with sb := s.mgmt.sb ++ mctpPackets dst (s.fget F.MGC_MCTP_EID_EID) tag owner body } }
  else s

/-- Four bytes with the most significant first. -/
def beBytes4 (n : Nat) : List Byte := (leBytes 4 n).reverse

/-- A Kiosk message on the sideband, from the engine `inst` (R431). -/
def State.sbKiosk (s : State) (dst tag : Nat) (owner : Bool) (inst : Nat) (m : List Byte) : State :=
  if s.fget F.MGC_MCTP_EID_EID = 0 then s
  else s.sbSend dst tag owner (leBytes 1 0x7F ++ beBytes4 (s.rd R.MGC_MCTP_IANA) ++ leBytes 1 inst ++ m)

/-- A Kiosk message sent to another engine of the host in RELAY pieces (R459). -/
def State.relaySend (s : State) (inst b : Nat) (m : List Byte) : State :=
  let cs := chunks 16 m
  (List.zipIdx cs).foldl (fun s c =>
    let fld := c.1.length + (if c.2 = 0 then 32 else 0) + (if c.2 + 1 = cs.length then 64 else 0) + b * 128
    s.ringSend 5 (some inst) fld ((chunks 8 c.1).map ofLE)) s

/-- A reply or notification for the register port waits in its ring, or in shared SRAM (R420). -/
def State.kskWait (s : State) (b : Nat) (note : Bool) (m : List Byte) : State :=
  let x := s.box b
  if x.spill.isEmpty && decide (ringBytes x.rep + m.length ≤ kskRing) then
    (s.setBox b { x with rep := x.rep ++ [m] }).irq Page.MGC (if note then 1 else 0)
  else if note && decide (kskRing < ringBytes x.spill + m.length) then s.bumpSat F.MGC_KSK_STAT_NOTE_LOST b
  else s.setBox b { x with spill := x.spill ++ [m] }

/-- A reply goes to whoever sent the request. -/
def State.kskOut (s : State) (b : Nat) (src : KskSrc) (m : List Byte) : State :=
  match src with
  | .window => s.kskWait b false m
  | .sideband e t => s.sbKiosk e t false s.ownInst m
  | .ring i => s.relaySend i b m
  | .fabric n => s.sendMsg 0 n m none true

/-- A message to the operator: on the sideband, or through the manager. -/
def State.toOperator (s : State) (m : List Byte) : State :=
  if s.isMgr then s.sbKiosk s.mgmt.tray 0 true s.ownInst m
  else match s.mgrInst with
    | some i => s.relaySend i 1 m
    | none => s

/-- A notification of firmware: to mailbox 0, and to mailbox 1 when `NOTE_SB` is set or the rule sends it there (R420). -/
def State.notify (s : State) (op : Nat) (vals : List Nat) (sb : Bool := false) : State :=
  if !s.fwRuns then s
  else
    let m := kskMsg s.majors.2 op (s.mgmt.noteSeq % 2 ^ 32) 2 (openBody op vals)
    let s := { s with mgmt := { s.mgmt with noteSeq := s.mgmt.noteSeq + 1 } }
    let s := s.kskWait 0 true m
    if sb || s.flag F.MGC_CTRL_NOTE_SB then s.toOperator m else s

/-! ### Serving a request (R414, R417–R419) -/

/-- Opcodes of major 2. -/
def kskCodes : List Nat := [0x01, 0x02, 0x10, 0x20, 0x21, 0x30, 0x31, 0x40, 0x41, 0x42]

/-- Opcodes accepted in BOOT_WAIT. -/
def bootCodes : List Nat := [0x01, 0x02, 0x20, 0x40]

/-- Whether requests of a mailbox are being served. -/
def State.kskServed (s : State) (b : Nat) : Bool := s.kskState != 0 && (s.fwRuns || (s.agentRuns && b == 0))

/-- A reply sent and kept among the last 16 (R419). -/
def State.kskReply (s : State) (b : Nat) (r : KskReq) (major : Nat) (body : List Byte) : State :=
  let m := kskMsg major (kskOp r.msg) (kskSeq r.msg) 1 body
  let x := s.box b
  (s.setBox b { x with kept := ((kskSeq r.msg, m) :: x.kept).take 16 }).kskOut b r.src m

/-- What must be said of a request before its opcode is looked at: a status with the reply's major and what follows the status
word, none when the request is executed. -/
def State.kskTurned (s : State) (b : Nat) (m : List Byte) : Option (Nat × Nat × List Byte) :=
  let (old, new) := s.majors
  let major := kskMajor m
  if b = 3 ∧ s.isMgr = false then some (2, major, [])
  else if major < old ∨ new < major then some (1, new, leBytes 1 old ++ leBytes 1 new)
  else if !kskCodes.contains (kskOp m) then some (2, major, [])
  else if s.kskState = 1 ∧ (bootCodes.contains (kskOp m) = false ∨ (kskOp m = 0x20 ∧ s.agentRuns = true)) then some (6, major, [])
  else none

/-- Fragments of a request gathered so far, and the state without them. -/
def State.takeFrag (s : State) (b seq : Nat) : State × List Byte :=
  match s.mgmt.frag with
  | some (b', q, bs) => if b' = b ∧ q = seq then ({ s with mgmt := { s.mgmt with frag := none } }, bs) else (s, [])
  | none => (s, [])

/-- Key of the mailboxes' turns in `State.turns`. -/
def kskTurn : Nat := 0x80

/-- The mailbox whose request is served next: from the one after the last served on, the first with a request that is being served
(R420). -/
def State.kskNext (s : State) : Option Nat :=
  let first := (alGet s.turns kskTurn).getD 0
  ((List.range 4).map fun i => (first + i) % 4).find? fun b => !(s.box b).req.isEmpty && s.kskServed b

/-- The turn passes to the mailbox after `b`. -/
def State.kskPass (s : State) (b : Nat) : State := { s with turns := spSet (fun _ => 0) s.turns kskTurn ((b + 1) % 4) }

/-- The request at the head of the mailbox whose turn it is (R420) is served, when it has opcode `op`: `f` answers with the state after it, the status
and the body from the payload and the request's major. A request turned away is answered whatever its opcode. -/
def State.kskServe (s : State) (b op : Nat) (f : State → List Byte → Nat → State × Nat × List Byte) : State :=
  let x := s.box b
  match x.req with
  | [] => s
  | r :: rest =>
    if s.kskNext ≠ some b then s
    else
      let m := r.msg
      let pop (s : State) : State := (s.setBox b { s.box b with req := rest }).kskPass b
      match alGet x.kept (kskSeq m), s.kskTurned b m with
      | some k, _ => (pop s).kskOut b r.src k
      | none, some (st, major, more) => (pop s).kskReply b r major (leBytes 4 st ++ more)
      | none, none =>
        if kskOp m ≠ op then s
        else
          let (s, before) := (pop s).takeFrag b (kskSeq m)
          let body := before ++ kskBodyOf m
          if bit (kskFlags m) 2 then { s with mgmt := { s.mgmt with frag := some (b, kskSeq m, body) } }
          else
            let (s, st, out) := f s body (kskMajor m)
            s.kskReply b r (kskMajor m) (leBytes 4 st ++ out)

/-! ### The register port's side (R415, R420, R434) -/

/-- The message written in the window: its words are the same on every path (R503). -/
def State.kskWindow (s : State) : List Byte :=
  let word (i : Nat) : List Byte := leBytes 4 (s.rd (R.MGC_KSK_WIN_0 + 4 * i))
  let n := min 2032 (bits (s.rd (R.MGC_KSK_WIN_0 + 8)) 0 16)
  (((List.range (ceilDiv (16 + n) 4)).flatMap word)).take (16 + n)

/-- `KIOSK_DOORBELL`. -/
def execKioskDoorbell (path : Path) (s : State) : Host.Outcome State Fault Refusal :=
  fromPath path R.MGC_KSK_DOORBELL s fun s => onReg s Page.MGC fun s =>
    s.kskIn (s.sel path F.MGC_KSK_SEL_MBOX) .window s.kskWindow

/-- What waits in shared SRAM moves into the reply ring as far as it fits. -/
def Mbox.refill (x : Mbox) : Nat → Mbox
  | 0 => x
  | n + 1 => match x.spill with
    | [] => x
    | m :: l => if ringBytes x.rep + m.length ≤ kskRing then Mbox.refill { x with rep := x.rep ++ [m], spill := l } n else x

/-- `KIOSK_TAKE`. -/
def execKioskTake (path : Path) (s : State) : Host.Outcome State Fault Refusal :=
  fromPath path R.MGC_KSK_TAKE s fun s => onReg s Page.MGC fun s =>
    let b := s.sel path F.MGC_KSK_SEL_MBOX
    let x := s.box b
    let y := Mbox.refill { x with rep := x.rep.drop 1 } x.spill.length
    let s := s.setBox b y
    let moved := x.spill.take (x.spill.length - y.spill.length)
    moved.foldl (fun s m => s.irq Page.MGC (if bit (kskFlags m) 1 then 1 else 0)) s

end Sys2Proof.Machine
end

