-- ==== Sys2Proof/Machine/Firmware.lean ====
section
/-! DEFINITION. The management cores and Barrath (R411–R414, R421–R424, R428, R429): segments, watchdogs, the exchange of
segments, repair entries, ageing re-plans. -/

namespace Sys2Proof.Machine

open Sys2Proof

/-! ### Segments (R412 table, R414) -/

/-- The 64 bytes of a segment's header at an SRAM address. -/
def State.segHead (s : State) (a : Nat) : List Byte := s.mgmt.sram.bytes a 64

/-- Whether a segment at an address is whole: its length and its CRC-32C. -/
def State.segWhole (s : State) (a : Nat) : Bool :=
  let kb := fieldLE (s.segHead a) 2 2
  let bs := s.mgmt.sram.bytes a (1024 * min kb 64)
  decide (1 ≤ kb) && decide (kb ≤ 64) && fieldLE bs 60 4 == crc32c (bs.take 60 ++ leBytes 4 0 ++ bs.drop 64)

/-- Inter-core interface range of the segment at an address. -/
def State.segIfc (s : State) (a : Nat) : Nat × Nat := (fieldLE (s.segHead a) 10 1, fieldLE (s.segHead a) 11 1)

/-- Whether a core's segment may start: whole, of this core, its interface range overlapping those of the other three (R414). -/
def State.segMayStart (s : State) (c : Nat) : Bool :=
  let me := s.segIfc (segBase c)
  s.segWhole (segBase c) && fieldLE (s.segHead (segBase c)) 0 1 == c
    && (List.range 4).all fun d => d == c ||
        (let o := s.segIfc (segBase d); decide (me.1 ≤ o.2) && decide (o.1 ≤ me.2))

/-- A core runs from its segment's ENTRY. -/
def State.runCore (s : State) (c : Nat) : State :=
  let h := s.segHead (segBase c)
  let s := (s.fset F.MGC_CORE_STAT_STATE c 1).set0 F.MGC_CORE_STAT_ALIVE c
  ((s.wr R.MGC_CORE_VER c (fieldLE h 4 4)).fset F.MGC_CORE_IFC_IFC_MIN c (fieldLE h 10 1)).fset F.MGC_CORE_IFC_IFC_MAX c (fieldLE h 11 1)

/-- A core starts when its segment passes the check; otherwise it stays HALTED (R414). -/
def State.startCore (s : State) (c : Nat) : State :=
  if s.segMayStart c then s.runCore c
  else (s.fset F.MGC_CORE_STAT_STATE c 0).logErr { block := Page.MGC, code := 0x0903, sev := 1 }

/-! ### The Kiosk's state follows core 0 (R414) -/

/-- The Kiosk becomes READY: the start is complete (R414, R486, R493). -/
def State.kskReady (s : State) : State :=
  ((s.fset F.MGC_STAT_KIOSK_STATE 0 2).fset F.CRG_STAT_PHASE 0 15).fset F.CRG_WARM_FAIL_COUNT 0 0

/-- Core 0 stops: requests wait. -/
def State.kskDown (s : State) : State := s.fset F.MGC_STAT_KIOSK_STATE 0 0

/-- Core 0 runs again. -/
def State.kskUp (s : State) : State :=
  if s.fwRuns then s.fset F.MGC_STAT_KIOSK_STATE 0 (if s.fget F.CRG_STAT_PHASE = 15 then 2 else 1) else s

/-- CORE_EVENT: the interrupt bit, and the notification when core 0 runs (R420, R434). What: 0 restarted, 1 halted, 2 activated,
3 reverted. -/
def State.coreEvent (s : State) (c what : Nat) : State := (s.irq Page.MGC 2).notify 0x8005 [c, what]

/-! ### Orangery entries of firmware (R240, R243, R428) -/

/-- A word with its parity bit set right (R238). -/
def evenWord (w : Nat) : Nat := let b := w % 2 ^ 31; b + popCount 31 b % 2 * 2 ^ 31

/-- What became of an entry that core 1 wrote: applied as an Orangery entry, refused for good, or to be tried again. -/
inductive Applied where
  | applied (e : Nat)
  | refused
  | later
  deriving DecidableEq, Repr

/-- Core 1 writes an entry and applies it (R240); no entry free, or reason 0x5, and it tries again later. -/
def State.fwApply (s : State) (w : Nat) : State × Applied :=
  match (List.range 256).find? fun e => (s.org e).isNone with
  | none => (s, .later)
  | some e =>
    let s := ((s.fset F.TWR_ORG_SEL_ENTRY 1 e).wr R.TWR_ORG_ENTRY e w).applyOrg e
    (s, match s.fget F.TWR_ORG_STAT_REASON with
      | 0 => .applied e
      | 5 => .later
      | _ => .refused)

/-- Entries of REPAIR_PUT applied as far as they can be: one whose bank is busy copying, or for which no entry is free, waits (R240
reason 0x5); a row or column entry refused for another reason is never applied, and READY does not follow (R414, log entry 104:
DEDUCED). -/
def State.putApply (s : State) : State :=
  s.mgmt.putLeft.foldl (fun s w =>
    let later (s : State) : State := { s with mgmt := { s.mgmt with putLeft := s.mgmt.putLeft ++ [w] } }
    if w % 2 ^ 31 = 0 then s
    else
      match s.fwApply (evenWord (setBit w 2 (bits w 29 2 != 3))) with
      | (s, .applied e) => { s with mgmt := { s.mgmt with putWait := nsAdd s.mgmt.putWait e } }
      | (s, .later) => later s
      | (s, .refused) => if bits w 29 2 = 3 then s else { s with mgmt := { s.mgmt with putBad := s.mgmt.putBad ++ [w] } })
    { s with mgmt := { s.mgmt with putLeft := [] } }

/-- Whether an Orangery entry is still on its way. -/
def State.orgCopying (s : State) (e : Nat) : Bool := (s.org e).any fun o => o.state == .copying

/-- Firmware goes on with the repair list; once every row and column entry is in force the Kiosk becomes READY (R414). -/
def State.putGo (s : State) : State :=
  if !s.mgmt.putSeen then s
  else
    let s := s.putApply
    let s := { s with mgmt := { s.mgmt with putWait := s.mgmt.putWait.filter s.orgCopying } }
    if s.mgmt.putLeft.isEmpty && s.mgmt.putWait.isEmpty && s.mgmt.putBad.isEmpty && s.kskState == 1 && s.fwRuns then s.kskReady else s

/-- The word of a repair (R238). -/
def Repair.word (r : Repair) (fill : Bool) : Nat :=
  evenWord (r.kind * 2 ^ 29 + r.bank * 2 ^ 20 + r.target * 2 ^ 7 + r.spare * 8 + (if fill then 4 else 0))

/-- REPAIRED (R420). -/
def State.repaired (s : State) (w : Nat) : State := if s.coreState 1 = 1 then s.notify 0x8001 [w] else s

/-- Core 1 applies an Orangery lane entry for a weak lane that it took from the inter-core queue (R428 step 5); a lane without a
spare has none. -/
def State.laneRepair (s : State) (item : Nat) : State :=
  let bank := item / 128
  let lane := item % 128
  match (List.range 2).find? fun x => !nsMem s.tower.spares (Repair.spareKey ⟨3, bank, lane, x⟩) with
  | none => s
  | some x =>
    if 72 ≤ lane then s
    else
      let w := Repair.word ⟨3, bank, lane, x⟩ false
      match s.fwApply w with
      | (s, .applied _) => s.repaired w
      | (s, .later) => { s with mgmt := { s.mgmt with queue := s.mgmt.queue ++ [item] } }
      | (s, .refused) => s

/-- Core 1 takes what the inter-core queue holds. -/
def State.lanesGo (s : State) : State :=
  s.mgmt.queue.foldl State.laneRepair { s with mgmt := { s.mgmt with queue := [] } }

/-- What core 1 does for repair while it runs: the inter-core queue, then the repair list. -/
def State.repairGo (s : State) : State := if s.coreState 1 ≠ 1 then s else s.lanesGo.putGo

/-- `ORANGERY_COPY_DONE`: the spare takes over at the next boundary (R241); firmware tells of it (R420). -/
def execOrangeryCopyDone (entry : Fin 256) (s : State) : Host.Outcome State Fault Refusal :=
  onPage s Page.TWR fun s => match s.org entry with
    | some o =>
      if o.state = .copying then
        let tower := { s.tower with orangery := alPut s.tower.orangery entry { o with copied := true } }
        ({ s with tower := tower }).repaired (o.repair.word o.fill)
      else s
    | none => s

/-! ### Ageing re-plans (R428, R429) -/

/-- The worst slowdown of the monitors, in steps of 0.1 %, and the guard in mV it asks for; nothing where a base is 0 (R428,
R463). -/
def State.slowest (s : State) : Nat × Nat :=
  (List.range 32).foldl (fun a m =>
    let base := s.fget F.PWA_RO_BASE_COUNT m
    let n := s.fget F.PWA_RO_CNT_COUNT m
    if base = 0 ∨ base ≤ n then a
    else
      let d := 1000 * (base - n)
      (max a.1 (d / base), max a.2 (min 60 (5 * ((d - 10 * base) / (5 * base)))))) (0, 0)

/-- Whether the worst slowdown exceeds 6 % (R429). -/
def State.slowOver (s : State) : Bool :=
  (List.range 32).any fun m =>
    let base := s.fget F.PWA_RO_BASE_COUNT m
    base != 0 && decide (60 * base < 1000 * (base - s.fget F.PWA_RO_CNT_COUNT m))

/-- Lanes whose eye is below 20/64 UI: banks and lanes that have been measured, those of width 0 among them (R250, R428). -/
def State.weakLanes (s : State) : List Nat :=
  s.tower.noEye.foldl nsAdd
    (s.regs.filterMap fun e => if e.1 / 65536 = R.TWR_EYE ∧ bits e.2.toNat 0 7 < 20 then some (e.1 % 65536) else none)

/-- Core 2 calibrates the estimator's coefficients against the power that the tray management controller reports: the report comes
over the sideband in a form the spec does not give, so the values are free (R427). -/
def State.calibrate (s : State) : State :=
  (List.range 16).foldl (fun s i => match s.free with
    | (v, s) => s.wr R.PWA_COEF i v) s

/-- Steps 3 to 6 of a re-plan: what its results set and whom they are told. -/
def State.replanEnd (s : State) (r : Replan) : State :=
  let s := { s with mgmt := { s.mgmt with replan := none, age := ⟨r.guard, r.slow, r.fail64, r.fail32⟩ } }
  let s := (s.fset F.TWC_REF_CTRL_FULL 0 (!r.fail64.isEmpty).toNat).updHalf
  let s := r.fail32.foldl (fun s g => s.notify 0x8002 [g]) s
  let s := ({ s with mgmt := { s.mgmt with queue := s.weakLanes.foldl nsAdd s.mgmt.queue } }).repairGo
  let s := (s.fset F.PWA_VREQ_GUARD_MV 0 r.guard).fset F.PWA_VREQ_SLOW_PCT 0 (min 255 r.slow)
  let s := (if s.slowOver then s.logErr { block := Page.PWA, code := 0x0A40, sev := 0 } else s).calibrate
  let s := ((s.set0 F.PWA_REPLAN_STAT_BUSY).set1 F.PWA_REPLAN_STAT_DONE).bumpSat F.PWA_REPLAN_STAT_PASSES
  (s.irq Page.PWA 1).notify 0x8003 ([r.guard, r.slow] ++ r.fail64 ++ r.fail32) true

/-- The next probe of a re-plan, or its end (R428 step 2). -/
def State.replanNext (s : State) (r : Replan) : State :=
  let ask (g ms : Nat) (r : Replan) : State :=
    let s := (s.fset F.TWR_PROBE_SEL_GROUP 1 g).fset F.TWR_PROBE_CFG_INTERVAL 0 ms
    let s := s.probeGo g
    { s with mgmt := { s.mgmt with replan := some { r with asked := some (g, ms) } } }
  match r.left64, r.left32 with
  | g :: l, _ => ask g 64 { r with left64 := l }
  | [], g :: l => ask g 32 { r with left32 := l }
  | [], [] => s.replanEnd r

/-- A re-plan goes on when core 2 runs and no probe is busy: it takes the result it waited for. -/
def State.replanGo (s : State) : State :=
  match s.mgmt.replan with
  | none => s
  | some r =>
    if s.coreState 2 ≠ 1 ∨ s.tower.probe.isSome = true then s
    else
      let bad := s.fget F.TWR_PROBE_RES_FAIL_BITS != 0
      let r := match r.asked with
        | none => r
        | some (g, ms) =>
          let r := { r with asked := none }
          if !bad then r
          else if ms = 64 then { r with fail64 := r.fail64 ++ [g], left32 := r.left32 ++ [g] }
          else { r with fail32 := r.fail32 ++ [g] }
      s.replanNext r

/-- A re-plan starts, with the monitors' counts over 10 µs, unless core 2 is down or one is in progress (R428); core 2 has the
monitor base measured afresh (R478). -/
def State.replanStart (s : State) (ro : List Nat) : State :=
  if s.coreState 2 ≠ 1 ∨ s.mgmt.replan.isSome = true then s
  else
    let s := (List.zipIdx (ro.take 32)).foldl (fun s x => s.fset F.PWA_RO_CNT_COUNT x.2 x.1) s
    let s := { s with pwr := { s.pwr with recal := true } }
    let (slow, guard) := s.slowest
    let r : Replan := ⟨slow, guard, List.range 64, [], [], [], none⟩
    (({ s with mgmt := { s.mgmt with replan := some r } }).set1 F.PWA_REPLAN_STAT_BUSY).replanGo

/-- `REPLAN_TIMER`: `PWA_REPLAN.HOURS` hours have passed; `ro` are the monitors' counts. -/
def execReplanTimer (ro : List (BitVec 24)) (s : State) : Host.Outcome State Fault Refusal :=
  onReg s Page.PWA fun s => s.replanStart (ro.map (·.toNat))

/-- `REPLAN_NOW`: a write of `PWA_REPLAN` with NOW set. -/
def execReplanNow (path : Path) (value : Word) (ro : List (BitVec 24)) (s : State) : Host.Outcome State Fault Refusal :=
  fromPath path R.PWA_REPLAN s fun s => onReg s Page.PWA fun s =>
    let s := s.fset F.PWA_REPLAN_HOURS 0 (clamp 1 8760 (bits value.toNat 0 14))
    if bit value.toNat 16 then s.replanStart (ro.map (·.toNat)) else s

/-- `PROBE_DONE` (R249): a re-plan goes on with what it read. -/
def execProbeDone (fails : Nat) (s : State) : Host.Outcome State Fault Refusal :=
  onPage s Page.TWR fun s => (s.probeDone fails).replanGo

/-! ### Watchdogs and restarts (R421, R422) -/

/-- A core runs again from its segment, and goes on from what its regions hold; a core 0 that fails its check leaves the Kiosk DOWN,
but for a boot agent, which keeps serving (R414). -/
def State.restartCore (s : State) (c : Nat) : State :=
  let boot := s.agentRuns
  let s := s.startCore c
  let s := if c = 0 ∧ s.fwRuns = false ∧ boot = false then s.kskDown else s.kskUp
  if c = 2 then s.replanGo else if c = 1 then s.repairGo else s

/-- `RESTART` (R422): a HALTED core runs again only by the register port; while the gate has erased the SRAM, by none (R433). -/
def execRestart (path : Path) (s : State) : Host.Outcome State Fault Refusal :=
  fromPath path R.MGC_CORE_CTRL s fun s => onReg s Page.MGC fun s =>
    let c := s.sel path F.MGC_CORE_SEL_CORE
    let halted := s.coreState c == 0
    if s.fget F.TSG_STAT_STATE ≠ 0 ∨ (halted = true ∧ path ≠ .port) then s
    else
      let s := { s with mgmt := { s.mgmt with restarts := s.mgmt.restarts.set c [] } }
      (s.restartCore c).coreEvent c 0

/-- A core halts. -/
def State.haltCore (s : State) (c : Nat) : State :=
  let s := (s.fset F.MGC_CORE_STAT_STATE c 0).set0 F.MGC_CORE_STAT_ALIVE c
  if c = 0 then s.kskDown else s

/-- `HALT`. -/
def execHaltCore (path : Path) (s : State) : Host.Outcome State Fault Refusal :=
  fromPath path R.MGC_CORE_CTRL s fun s => onReg s Page.MGC fun s =>
    let c := s.sel path F.MGC_CORE_SEL_CORE
    if s.coreState c = 0 then s else (s.haltCore c).coreEvent c 1

/-- Staging and a core's region exchanged, 64 KiB each way (R423). -/
def State.exchange (s : State) (c : Nat) : State :=
  let m := s.mgmt.sram
  let a := segBase c
  { s with mgmt := { s.mgmt with sram := (m.copyRaw m stagingArea a 0x10000).copyRaw m a stagingArea 0x10000 } }

/-- The regions exchanged back and the old segment started (R424). -/
def State.revertCore (s : State) (c : Nat) : State :=
  let s := { s.exchange c with mgmt := { (s.exchange c).mgmt with swap := none } }
  let s := ((s.runCore c).kskUp).set0 F.MGC_STAT_ACTIVATING
  (s.logErr { block := Page.MGC, code := 0x0905, sev := 1 }).coreEvent c 3

/-- A core's watchdog expires (R421, R422, R424). -/
def State.watchdog (s : State) (c : Nat) : State :=
  let now := s.tick.hall
  let back := match s.mgmt.swap with
    | some x => x.core == c && (decide (now ≤ x.since + 1000000000) || !x.alive)
    | none => false
  if back then s.revertCore c
  else
    let past := ((s.mgmt.restarts[c]?).getD []).filter fun t => decide (now ≤ t + 60000000000)
    if 2 ≤ past.length then
      let s := { s with mgmt := { s.mgmt with restarts := s.mgmt.restarts.set c [] } }
      ((s.haltCore c).logErr { block := Page.MGC, code := 0x0902, sev := 1 }).coreEvent c 1
    else
      let s := { s with mgmt := { s.mgmt with restarts := s.mgmt.restarts.set c (now :: past) } }
      let s := (s.bumpSat F.MGC_CORE_STAT_RESTARTS c).logErr { block := Page.MGC, code := 0x0901, sev := 0 }
      (s.restartCore c).coreEvent c 0

/-- `WATCHDOG_EXPIRY`. -/
def execWatchdogExpiry (core : Fin 4) (s : State) : Host.Outcome State Fault Refusal :=
  onReg s Page.MGC fun s => if s.coreState core = 1 ∧ s.flag F.MGC_WDT_CFG_EN core = true then s.watchdog core else s

/-- `MANAGEMENT_SRAM_PARITY_ERROR` (R411): a core reads a byte that fails parity; it halts and restarts as by its watchdog. -/
def execManagementSramParityError (core : Fin 4) (addr : BitVec 19) (s : State) : Host.Outcome State Fault Refusal :=
  onReg s Page.MGC fun s =>
    if s.coreState core ≠ 1 then s
    else ({ s with mgmt := { s.mgmt with sram := s.mgmt.sram.putBad addr.toNat (s.mgmt.sram.byte addr.toNat) } }).watchdog core

/-- The first kick of a core after its start sets ALIVE, which ends an activation (R421, R423). -/
def State.kick (s : State) (c : Nat) : State :=
  if s.flag F.MGC_CORE_STAT_ALIVE c then s
  else
    let s := s.set1 F.MGC_CORE_STAT_ALIVE c
    match s.mgmt.swap with
    | some x =>
      if x.core = c ∧ x.alive = false then
        (({ s with mgmt := { s.mgmt with swap := some { x with alive := true } } }).set0 F.MGC_STAT_ACTIVATING).coreEvent c 2
      else s
    | none => s

/-- `WDT_KICK`: taken only from the core it names. -/
def execWdtKick (path : Path) (value : BitVec 2) (s : State) : Host.Outcome State Fault Refusal :=
  fromPath path R.MGC_WDT_KICK s fun s => onReg s Page.MGC fun s =>
    match path with
    | .port => s
    | .core c => if value.toNat = c.val then s.kick c else s

/-! ### Updating firmware (R423, R424) -/

/-- A segment written into staging and checked: the status of the answer. -/
def State.stage (s : State) (bs : List Byte) : State × Nat :=
  if s.mgmt.act.isSome ∨ s.flag F.MGC_STAT_ACTIVATING = true then (s, 4)
  else if bs.length < 64 ∨ 65536 < bs.length then (s, 3)
  else
    let m := (s.mgmt.sram.zero stagingArea 0x10000).puts stagingArea bs
    let s := ({ s with mgmt := { s.mgmt with sram := m, swap := none } }).set0 F.MGC_STAT_STAGED
    let c := fieldLE bs 0 1
    if 4 ≤ c ∨ bs.length ≠ 1024 * fieldLE bs 2 2 ∨ s.segWhole stagingArea = false then (s, 5)
    else ((s.set1 F.MGC_STAT_STAGED).fset F.MGC_STAT_STAGED_CORE 0 c, 0)

/-- The boot agent copies a segment into place; once all four are there the cores start, which ends
step 8 of the start when core 0 is one of them (R414, R486). -/
def State.agentStage (s : State) (bs : List Byte) : State × Nat :=
  let c := fieldLE bs 0 1
  if bs.length < 64 ∨ 65536 < bs.length then (s, 3)
  else if 4 ≤ c ∨ bs.length ≠ 1024 * fieldLE bs 2 2 then (s, 5)
  else
    let m := (s.mgmt.sram.zero (segBase c) 0x10000).puts (segBase c) bs
    let s := { s with mgmt := { s.mgmt with sram := m, placed := nsAdd s.mgmt.placed c } }
    if s.mgmt.placed.length < 4 then (s, 0)
    else
      let s := (List.range 4).foldl (fun s c => if s.coreState c = 0 then s.startCore c else s) s
      (if s.fwRuns then s.fset F.CRG_STAT_PHASE 0 9 else s, 0)

/-- Whether FW_ACTIVATE for a core is refused (R423). -/
def State.activateRefused (s : State) (c major : Nat) : Bool :=
  let i := s.segIfc stagingArea
  s.flag F.MGC_STAT_STAGED == false || s.fget F.MGC_STAT_STAGED_CORE != c
    || (List.range 4).any (fun d => d != c && s.coreState d == 1 &&
        (let x := s.fget F.MGC_CORE_IFC_IFC_MAX d; decide (x < i.1) || decide (i.2 < x)))
    || (c == 0 && decide (major < fieldLE (s.segHead stagingArea) 8 1))
    || s.mgmt.act.isSome || s.flag F.MGC_STAT_ACTIVATING || s.fget F.TSG_STAT_STATE != 0

/-- FW_ACTIVATE. -/
def State.activate (s : State) (c major : Nat) : State × Nat :=
  if s.activateRefused c major then (s, 5)
  else (({ s with mgmt := { s.mgmt with act := some c } }).set1 F.MGC_STAT_ACTIVATING, 7)

/-- Bytes of the handoff area's head, which the old core writes before its state: core, state version, length, CRC-32C of the state,
in four bytes each, the other 16 bytes 0 (R423 step 3, log entry 96: DESIGN CHOICE). -/
def handoff (c ver : Nat) (st : List Byte) : List Byte :=
  leBytes 4 c ++ leBytes 4 ver ++ leBytes 4 st.length ++ leBytes 4 (crc32c st) ++ List.replicate 16 0 ++ st

/-- Whether a core takes what it reads in the handoff area: a head of its own, the CRC of the state after it, a version from HOFF_MIN
to HOFF_MAX of its segment (R423 step 5). -/
def State.handoffOk (s : State) (c : Nat) : Bool :=
  let h := s.mgmt.sram.bytes handoffArea 32
  let seg := s.segHead (segBase c)
  let n := fieldLE h 8 4
  fieldLE h 0 4 == c && decide (n ≤ 0x10000 - 32) && fieldLE h 12 4 == crc32c (s.mgmt.sram.bytes (handoffArea + 32) n)
    && decide (fieldLE seg 12 2 ≤ fieldLE h 4 4) && decide (fieldLE h 4 4 ≤ fieldLE seg 14 2)

/-- The hardware's exchange and the start of the new segment, after the old core wrote state `area` of version `ver` into the
handoff area, unless it was HALTED; the new core reads the area and starts from defaults where it cannot take it (R423 steps 3 to
5). -/
def State.activated (s : State) (c ver : Nat) (area : List Byte) : State :=
  let s := if s.coreState c == 1 then
      let mg := { s.mgmt with sram := (s.mgmt.sram.zero handoffArea 0x10000).puts handoffArea (handoff c ver (area.take (0x10000 - 32))) }
      (({ s with mgmt := mg }).fset F.MGC_HOFF_STAT_VERSION 0 ver).fset F.MGC_HOFF_STAT_CORE 0 c
    else s
  let s := (s.exchange c).set0 F.MGC_STAT_STAGED
  let s := { s with mgmt := { s.mgmt with act := none, swap := some ⟨c, s.tick.hall, false⟩ } }
  let s := (s.runCore c).kskUp
  if s.handoffOk c then s else s.logErr { block := Page.MGC, code := 0x0906, sev := 0 }

/-- `CORE_EXCHANGE`. -/
def execCoreExchange (ver : BitVec 16) (area : List Byte) (s : State) : Host.Outcome State Fault Refusal :=
  onReg s Page.MGC fun s => match s.mgmt.act with
    | some c => s.activated c ver.toNat area
    | none => s

/-- FW_REVERT on request: as long as staging still holds the previous segment. -/
def State.fwRevert (s : State) (c : Nat) : State × Nat :=
  if s.mgmt.act.isSome then (s, 4)
  else match s.mgmt.swap with
    | some x => if x.core = c then (s.revertCore c, 0) else (s, 5)
    | none => (s, 5)

/-! ### The log (R388, R411) -/

/-- `ERU_POP` (R387): core 1 keeps what it drains, and tells of suspect and straggler roles (R420). -/
def execEruPop (path : Path) (s : State) : Host.Outcome State Fault Refusal :=
  fromPath path R.ERU_POP s fun s => onReg s Page.ERU fun s =>
    let t := { s with eru := { s.eru with queue := s.eru.queue.drop 1 } }
    match path, s.eru.queue with
    | .core _, r :: _ =>
      let t := { t with mgmt := { t.mgmt with log := t.mgmt.log ++ [r.bytes] } }
      if r.code = 0x0402 ∨ r.code = 0x0409 ∨ r.code = 0x040A then t.notify 0x8004 ([r.code] ++ r.detail) else t
    | _, _ => t

end Sys2Proof.Machine
end

