-- ==== Sys2Proof/Machine/LaneCmds.lean ====
section
/-! DEFINITION. Commands of the lane field, the lane programs and the queues (R160–R220), with REDUCE-ADD (R213–R215). -/

namespace Sys2Proof.Machine

open Sys2Proof

/-! ### REDUCE-ADD -/

/-- A sum of two elements: bytes, and whether it was saturated (R214). -/
def reduceElem (fmt a b : Nat) : List Byte × Bool :=
  if fmt = 0 then (leBytes 4 (f32Add a b), false)
  else
    let v := (laneElem .bf16 a).add (laneElem .bf16 b)
    let e := GenFmt.bf16.elem 0 none v
    (leBytes 2 e.code, e.ovf && !v.isNan)

/-- Up to 32 elements added; `none` while a page is on its way. -/
def State.raGroup (s : State) (j : LaneJob) (d : List Byte) (f : Frag) : State × Option LaneJob :=
  let size := raSize d
  let n := min 32 (raCount d - j.pos)
  let off := size * j.pos
  match s.laneRead j 1 f.part (f.addr + off) (size * n) with
  | (s, .wait) => (s, none)
  | (s, .ok fb) =>
    let t0 := (s.stageShare (s.seatOf j.part)).1 + fieldLE d 12 4 + off
    let (s, old) := if raMode d = 0 then (s, UpdRead.ok (s.t0Read t0 (size * n))) else s.laneRead j 1 j.part (ldAddr d 12 + off) (size * n)
    match old with
    | .wait => (s, none)
    | .ok db =>
      let sums : List (Option (List Byte × Bool)) := List.zipWith (fun (a b : Option Nat) => match a, b with
          | some a, some b => some (reduceElem (raFmt d) a b)
          | _, _ => none) (wordsOf size db) (wordsOf size fb)
      let s := s.bump F.LNF_SAT_CNT_COUNT 0 (sums.countP fun x => x.any (·.2))
      let bs := sums.flatMap fun x => match x with
        | some r => r.1.map some
        | none => List.replicate size none
      let bad := (List.zipIdx sums).filterMap fun x => if x.1.isNone then some x.2 else none
      let j := { j with fails := failAll j.fails (bad.map (· + j.pos)) 4, pos := j.pos + n }
      if raMode d = 0 then (s.t0Write t0 bs, some j)
      else
        let a := ldAddr d 12 + off
        (s, some { j with todo := j.todo ++ [(a, bs, j.pos - n)], poison := bad.foldl (fun l i => nsAdd l ((a + size * i) / 64)) j.poison })

/-- A completion flag set (R215, R335). -/
def State.setColFlag (s : State) (p f : Nat) : State :=
  if f = 0xFFFF then s
  else
    let r := R.COL_FLAG_0 + 4 * (f / 32)
    s.wr r p (setBit (s.rd r p) (f % 32) true)

/-- The collective of a handle that a REDUCE-ADD of another COUNT marked FAILED ends ABORTED (R334). -/
def State.failHandle (s : State) (h : Nat) : State :=
  let f (x : ColJob) : ColJob := if x.ended.isNone && x.handles.contains h then { x with failed := true } else x
  { s with col := { s.col with jobs := s.col.jobs.map f } }

/-- A REDUCE-ADD whose handle failed, or whose count is not its fragment's: it writes nothing and completes with TIMEOUT (R215,
R334). -/
def State.raFail (s : State) (j : LaneJob) (d : List Byte) : State :=
  let s := (s.colAdvance).setFrag (raFrag d) 0 none
  (s.laneWaste j).laneEnd { j with fails := failUnits (raCount d) [(0, raCount d, 2)] } (raCount d) 0

/-- Elements of a REDUCE-ADD, at most `fuel` groups of 32. -/
def State.raRun (d : List Byte) (f : Frag) : Nat → LaneJob → State → State
  | 0, j, s => s.setLaneJob j
  | fuel + 1, j, s =>
    match s.laneSettle j with
    | (s, j) =>
      if !j.todo.isEmpty then s.setLaneJob { j with wait := true }
      else if raCount d ≤ j.pos then
        let s := s.raTime j d
        let s := (s.setFrag (raFrag d) 0 none).setColFlag j.part (raFlag d)
        (s.laneEnd j (raCount d) 0).colAdvance
      else
        match s.raGroup j d f with
        | (s, none) => s.setLaneJob { j with wait := true }
        | (s, some j) => State.raRun d f fuel j s

/-- A REDUCE-ADD goes on: it waits for its fragment (R215). -/
def State.raGo (s : State) (j : LaneJob) (d : List Byte) : State :=
  let h := raFrag d
  match s.fragState h, alGet s.col.frags h with
  | 3, _ => s.raFail j d
  | 2, some f =>
    if j.begun then State.raRun d f (raCount d + 1) j s
    else if raCount d * (match f.dtype with
        | 1 => 2
        | _ => 4) ≠ f.len then ((s.fset F.COL_FRAG_STAT_STATE h 3).failHandle h).raFail j d
    else
      let (s, ks) := s.holdPages f.part [(f.addr, f.len)]
      let j := { j with begun := true, held := j.held ++ ks }
      State.raRun d f (raCount d + 1) j ((s.setLaneJob j).chainRows j)
  | _, _ => s.setLaneJob { j with wait := true }

/-! ### Running -/

/-- The oldest descriptor of a queue goes on, when it is of a kind. -/
def State.laneRun (s : State) (q : Nat) (kind : Nat → Bool) (fs : List LaneFault) : State :=
  let s := s.laneRefetch q
  match s.laneFront q with
  | none => s
  | some j =>
    match j.desc with
    | none => s
    | some d =>
      let j := { j with wait := false }
      if !kind j.kind then s
      else match j.kind with
        | 1 => (s.smGo j d fs).colAdvance
        | 2 => (s.gpGo j d).colAdvance
        | _ => s.raGo j d

/-- `LANE`: a consume point of the partition's plan (R194, R195, R507); nothing while the scheduled plane is halted (R248). -/
def execLaneEntry (part : Fin 8) (queue : Fin 16) (kind : Fin 4) (split : Nat) (first last : Fin 256) (slots : Nat) (s : State) :
    Host.Outcome State Fault Refusal :=
  onPage s Page.LNP fun s =>
    let now := (((s.plans[part.val]?).bind fun x => x.running.map (·.slot)).getD 0)
    if s.fget F.PTC_STAT_STATE part.val ≠ 2 ∨ s.planeHalted = true then s
    else s.consume part.val queue.val kind.val split first.val last.val slots (now + slots)

/-- `STREAM_MM` (R202–R209): the front descriptor of a queue; `faults` are the lane checks that fail meanwhile (R183). -/
def execStreamMm (queue : Fin 16) (faults : List LaneFault) (s : State) : Host.Outcome State Fault Refusal :=
  onPage s Page.LNF fun s => s.laneRun queue.val (· == 1) faults

/-- `GATHER_POOL` (R210–R212). -/
def execGatherPool (queue : Fin 16) (s : State) : Host.Outcome State Fault Refusal :=
  onPage s Page.LNF fun s => s.laneRun queue.val (· == 2) []

/-- `REDUCE_ADD` (R213–R215). -/
def execReduceAdd (queue : Fin 16) (s : State) : Host.Outcome State Fault Refusal :=
  onPage s Page.LNF fun s => s.laneRun queue.val (· == 3) []

/-- `OPERAND_LAND`: what the front descriptor of a queue waited for has arrived (R44, R216). -/
def execOperandLand (queue : Fin 16) (s : State) : Host.Outcome State Fault Refusal :=
  onPage s Page.LNF fun s => s.laneRun queue.val (fun _ => true) []

/-- `CHAIN_END` (R204). -/
def execChainEnd (queue : Fin 16) (s : State) : Host.Outcome State Fault Refusal :=
  onPage s Page.LNP fun s =>
    match s.chain? queue.val with
    | some c => if c.ended then (s.closeChain queue.val).colAdvance else s
    | none => s

/-- A chain closed at its limit is reported (R205). -/
def State.chainReport (s : State) (q p : Nat) : State :=
  (s.logErr { block := Page.LNP, code := 0x0208, sev := 0, part := some p, detail := [0, 0, q * 65536, s.planId p] }).irq Page.LNP 1

/-- A queue's chains that have stayed open to the limit are closed (R205). -/
def State.chainLimit (s : State) (q : Nat) : State :=
  let stood (c : Chain) : Bool := decide (max 1 (s.fget F.LNP_CHAIN_LIMIT_TICKS) ≤ c.bounds)
  let old := s.lane.oldChains.filter fun c => c.1 == q && stood c.2
  let s := old.foldl (fun s c => s.chainReport q c.2.part) (s.closeOld fun c => old.contains c)
  let s := match s.chain? q with
    | some c => if stood c then (s.closeChain q).chainReport q c.part else s
    | none => s
  s.colAdvance

/-- `CHAIN_LIMIT` (R205). -/
def execChainLimit (queue : Fin 16) (s : State) : Host.Outcome State Fault Refusal :=
  onPage s Page.LNP fun s => s.chainLimit queue.val

/-! ### Rows -/

/-- `BYPASS_WRITE` (R185, R186): the lane mask of the selected row, or its column mask. -/
def execBypassWrite (path : Path) (cols : Bool) (value : Word) (s : State) : Host.Outcome State Fault Refusal :=
  fromPath path (if cols then R.LNF_ROW_COL_BYP else R.LNF_ROW_LANE_BYP) s fun s => onPage s Page.LNF fun s => (s.pathWrite path (if cols then R.LNF_ROW_COL_BYP else R.LNF_ROW_LANE_BYP) value.toNat).showPending

/-- A pin written: it takes effect at once where it changes no row's K-width (R186). -/
def State.pinWrite (s : State) (v : Nat) : State :=
  let s := s.fset F.LNF_KWIDTH_PIN_WIDTH 0 (min 32 (bits v 0 6))
  let s := if (List.range 768).any fun r => s.pinChanges r then s else { s with lane := { s.lane with pin := s.pinWritten } }
  s.showPending

/-- `KWIDTH_PIN_WRITE` (R51, R186). -/
def execKwidthPinWrite (path : Path) (value : Word) (s : State) : Host.Outcome State Fault Refusal :=
  fromPath path R.LNF_KWIDTH_PIN s fun s => onPage s Page.LNF fun s => s.pinWrite value.toNat

/-- A self-test asked for (R189). -/
def State.rowTest (s : State) (r : Nat) : State :=
  if s.flag F.LNF_TEST_STAT_BUSY then s
  else
    let planned := (s.rowOwner r).any fun p => match s.plans[p]? with
      | some ps => ps.inForce.isSome || ps.running.isSome || ps.accepted.isSome
      | none => false
    if planned then s.set1 F.LNF_TEST_STAT_REFUSED
    else
      let s := ((s.set1 F.LNF_TEST_STAT_BUSY).set0 F.LNF_TEST_STAT_REFUSED).fset F.LNF_TEST_STAT_ROW 0 r
      { s with lane := { s.lane with test := some r } }

/-- `ROW_TEST` (R189). -/
def execRowTest (path : Path) (s : State) : Host.Outcome State Fault Refusal :=
  fromPath path R.LNF_ROW_TEST s fun s => onPage s Page.LNF fun s => s.rowTest (s.sel path F.LNF_ROW_SEL_ROW)

/-- `ROW_TEST_DONE` (R189): the lanes and columns that failed. -/
def execRowTestDone (lanes cols : Word) (s : State) : Host.Outcome State Fault Refusal :=
  onPage s Page.LNF fun s =>
    if s.lane.test.isNone then s
    else
      let s := { s with lane := { s.lane with test := none } }
      let s := ((s.set0 F.LNF_TEST_STAT_BUSY).set1 F.LNF_TEST_STAT_DONE).fset F.LNF_TEST_STAT_PASS 0 (lanes == 0 && cols == 0).toNat
      ((s.wr R.LNF_TEST_LANES 0 lanes.toNat).wr R.LNF_TEST_COLS 0 cols.toNat).irq Page.LNF 2

/-- `IDLE_WINDOW` (R190, R191): a window of `len` cycles, 64 but for the last of a tick. -/
def execIdleWindow (len : Nat) (s : State) : Host.Outcome State Fault Refusal := onPage s Page.LNF fun s => s.idleWindow len

/-! ### Queues -/

/-- A tail written on a path (R194, R197). -/
def State.tailWrite (s : State) (path : Path) (k : QKind) (v : Nat) : State :=
  let q := s.regItem path (k.cfg + 0xC)
  let t := s.fget k.tail q
  let s := s.qTailWrite k q (bits v 0 12)
  if k = .lane ∧ s.fget k.tail q ≠ t then s.noteTail q (s.fget k.tail q) else s

/-- `Q_TAIL_WRITE` (R197). -/
def execQTailWrite (path : Path) (kind : QKind) (value : Word) (s : State) : Host.Outcome State Fault Refusal :=
  fromPath path (kind.cfg + 0xC) s fun s => onPage s kind.regPage fun s => s.tailWrite path kind value.toNat

/-- A queue's `_Q_CFG` written (R220, R263): while it is enabled only ENABLE (and the sticky bit's clear) is taken; a change
from 0 to 1 zeroes the ring indices. -/
def State.qCfgWrite (s : State) (path : Path) (k : QKind) (v : Nat) : State :=
  let q := s.regItem path k.cfg
  let on := bit v 8
  let old := s.rd k.cfg q
  let was := s.flag k.enable q
  let v' := if was then setBits (setBits v k.sizeLog.lo 4 (bits old k.sizeLog.lo 4)) 0 3 (bits old 0 3) else v
  let s := s.accWrite k.cfg q (setBit v' 8 was)
  let s := s.fset k.sizeLog q (clamp 6 12 (s.fget k.sizeLog q))
  let s := s.qEnable k q on
  if k = .lane ∧ on = true ∧ was = false then { s with lane := { s.lane with tails := alDel s.lane.tails q } } else s

/-- `Q_ENABLE` (R220, R263). -/
def execQEnable (path : Path) (kind : QKind) (value : Word) (s : State) : Host.Outcome State Fault Refusal :=
  fromPath path kind.cfg s fun s => onPage s kind.regPage fun s => s.qCfgWrite path kind value.toNat

end Sys2Proof.Machine
end

