-- ==== Sys2Proof/Machine/Modes.lean ====
section
/-! DEFINITION. Changes of the power budget and of the gating mode that take effect at a tick boundary (R426, R427, R482–R484). -/

namespace Sys2Proof.Machine

open Sys2Proof

/-- The budget in effect against the floor (R427): below it the demand goes to 63; the record and the interrupt mark the fall. -/
def State.floorCheck (s : State) : State :=
  if s.fget F.PWA_BUDGET_EFF_BUDGET < s.fget F.PWA_FLOOR_FLOOR then
    let s := if s.fget F.PWA_CTRL_GOV_EN = 1 then (s.fset F.LNF_IDLE_POWER 0 63).set1 F.PWA_STAT_GOVERNING else s
    if s.pwr.below then s
    else
      let s := { s with pwr := { s.pwr with below := true } }
      ((s.set1 F.PWA_STAT_BELOW_FLOOR).logErr { block := Page.PWA, code := 0x0A30, sev := 0 }).irq Page.PWA 0
  else { s with pwr := { s.pwr with below := false } }

/-- The last grant takes effect (R426). -/
def State.budgetApply (s : State) : State :=
  match s.pwr.grant with
  | none => s
  | some g => (({ s with pwr := { s.pwr with grant := none } }).fset F.PWA_BUDGET_EFF_BUDGET 0 g).floorCheck

/-- A mode asked for begins; in SLEEP all banks pass to autonomous refresh (R482, R484). -/
def State.modeApply (s : State) : State :=
  match s.pwr.mode with
  | none => s
  | some m =>
    let s := if m = 1 then s.setPlanRef [] else s
    (({ s with pwr := { s.pwr with mode := none } }).fset F.CRG_STAT_MODE 0 m).irq Page.CRG 2

end Sys2Proof.Machine
end

