-- ==== Sys2Proof/Machine/CollCmds.lean ====
section
/-! DEFINITION. Commands of the collectives engine (R326–R342). -/

namespace Sys2Proof.Machine

open Sys2Proof

/-- `COL_INSTALL` (R327). -/
def execColInstall (path : Path) (s : State) : Host.Outcome State Fault Refusal :=
  fromPath path R.COL_GRP_CMD s fun s => onPage s Page.COL fun s => s.colInstall (s.sel path F.COL_GRP_SEL_ENTRY)

/-- REMOVE of a group entry (R327); an INSTALL of it that still waits for its read is gone with it. -/
def State.colRemove (s : State) (g : Nat) : State :=
  if s.col.jobs.any fun x => x.group == g && x.ended.isNone then s.fset F.COL_GRP_STAT_REASON g 6
  else
    let s := { s with col := { s.col with installs := s.col.installs.erase g } }
    (s.fset F.COL_GRP_STAT_REASON g 0).set0 F.COL_GRP_CFG_VALID g

/-- `COL_REMOVE` (R327). -/
def execColRemove (path : Path) (s : State) : Host.Outcome State Fault Refusal :=
  fromPath path R.COL_GRP_CMD s fun s => onPage s Page.COL fun s => s.colRemove (s.sel path F.COL_GRP_SEL_ENTRY)

/-- `ALL_REDUCE` (R330). -/
def execAllReduce (part : Fin 8) (s : State) : Host.Outcome State Fault Refusal := onPage s Page.COL fun s => s.colOp part.val 0x30

/-- `REDUCE_SCATTER` (R330). -/
def execReduceScatter (part : Fin 8) (s : State) : Host.Outcome State Fault Refusal := onPage s Page.COL fun s => s.colOp part.val 0x31

/-- `ALL_GATHER` (R330). -/
def execAllGather (part : Fin 8) (s : State) : Host.Outcome State Fault Refusal := onPage s Page.COL fun s => s.colOp part.val 0x32

/-- `BROADCAST` (R330, R339). -/
def execBroadcast (part : Fin 8) (s : State) : Host.Outcome State Fault Refusal := onPage s Page.COL fun s => s.colOp part.val 0x33

/-- `ALL_TO_ALL` (R330). -/
def execAllToAll (part : Fin 8) (s : State) : Host.Outcome State Fault Refusal := onPage s Page.COL fun s => s.colOp part.val 0x34

/-- `BARRIER` (R330). -/
def execColBarrier (part : Fin 8) (s : State) : Host.Outcome State Fault Refusal := onPage s Page.COL fun s => s.colOp part.val 0x35

/-- `KV_RING` (R340). -/
def execKvRing (part : Fin 8) (s : State) : Host.Outcome State Fault Refusal := onPage s Page.COL fun s => s.colOp part.val 0x36

/-- Descriptors of a group that stand in its partition's queue, oldest first, as they lie. -/
def State.colQueued (s : State) (g : Nat) : List (List Byte) :=
  let p := s.fget F.COL_GRP_CFG_PART g
  let k := QKind.collective
  let n := s.qSize k p
  ((List.range ((s.fget k.tail p + n - s.fget k.head p) % n)).map fun i =>
    s.peek p (s.fget k.base p * 4096 + 64 * ((s.fget k.head p + i) % n)) 64).filter fun d => cdGroup d == g

/-- Channel a message of a group travels on: VC5 for weights, known from its collective while that stands in the queue or has started,
and free before (R332, R339). -/
def State.colVc (s : State) (msg : List Byte) : Nat :=
  let unknown : Nat := if Config.weightsChannel msg then 5 else 4
  match s.grpOfTag (fieldLE msg 2 2) with
  | none => unknown
  | some g =>
    let seq := fieldLE msg 4 4
    let last := (alGet s.col.seqs g).getD 0
    if seq ≤ last then (if s.col.weights.contains (g, seq) then 5 else 4)
    else match (s.colQueued g)[seq - last - 1]? with
      | some d => if cdWeights d then 5 else 4
      | none => unknown

/-- `SEGMENT` (R332). -/
def execColSegment (gate : Bool) (src : BitVec 20) (msg : List Byte) (s : State) : Host.Outcome State Fault Refusal :=
  onMsg s (s.colVc msg) false gate src msg fun s => s.colSegment msg

/-- `READY` (R332). -/
def execColReady (gate : Bool) (src : BitVec 20) (msg : List Byte) (s : State) : Host.Outcome State Fault Refusal :=
  onMsg s (s.colVc msg) false gate src msg fun s => s.colReadyIn msg

/-- `BARRIER_ARRIVAL` (R330, R332). -/
def execBarrierArrival (gate : Bool) (src : BitVec 20) (msg : List Byte) (s : State) : Host.Outcome State Fault Refusal :=
  onMsg s 4 false gate src msg fun s => s.colArrivalIn msg

/-- `COL_TIMEOUT` (R342). -/
def execColTimeout (part : Fin 8) (s : State) : Host.Outcome State Fault Refusal := onPage s Page.COL fun s => s.colTimeout part.val

end Sys2Proof.Machine
end

