-- ==== Sys2Proof/Machine/UpdCmds.lean ====
section
/-! DEFINITION. Commands of the update unit, Belvedere and the noise generator (R128–R159). -/

namespace Sys2Proof.Machine

open Sys2Proof

/-! ### Passes -/

/-- `UPD_PASS_GO` (R128). -/
def execUpdPassGo (path : Path) (s : State) : Host.Outcome State Fault Refusal :=
  fromPath path R.UPD_PASS s fun s => onPage s Page.UPD fun s =>
    let p := s.sel path F.UPD_PART_SEL_PART
    let u := s.updPart p
    (s.setUpdPart p { u with go := some (u.go.getD s.tick.hall) }).set1 F.UPD_FLIP_STAT_PASS_PENDING p

/-- `PASS_BEGIN` (R128): the boundary just taken starts a pass that is due. -/
def execPassBegin (part : Fin 8) (s : State) : Host.Outcome State Fault Refusal :=
  onPage s Page.UPD fun s => s.passBegin part.val

/-- The pass of a partition, while it may go on: a partition that is not RESIDENT has it suspended (R371, R375). -/
def State.passOn (s : State) (p : Nat) : Option Pass := if s.fget F.PTC_STAT_STATE p = 2 then (s.updPart p).pass else none

/-- A step of a partition's pass when it stands before a layer. -/
def State.layerCmd (s : State) (p : Nat) : State :=
  match s.passOn p with
  | some x => if x.desc.isNone ∧ x.layer < s.fget F.UPD_LTAB_COUNT_COUNT p then State.updRun p 1 s else s
  | none => s

/-- `LAYER_BEGIN` (R126, R127, R130). -/
def execLayerBegin (part : Fin 8) (s : State) : Host.Outcome State Fault Refusal :=
  onPage s Page.UPD fun s => s.layerCmd part.val

/-- Update slots of a partition: `cycles` LCLK cycles. -/
def State.updSlots (s : State) (p cycles : Nat) : State :=
  match s.passOn p with
  | some _ => State.updRun p (cycles * s.eclk / max 1 s.lclk) s
  | none => s

/-- `UPDATE` (R129, R507); nothing while the scheduled plane is halted (R248). -/
def execUpdateSlot (part : Fin 8) (cycles : Nat) (s : State) : Host.Outcome State Fault Refusal :=
  onPage s Page.UPD fun s => if s.planeHalted then s else s.updSlots part.val cycles

/-- The step that ends a partition's pass: the last element of the last layer has been written (R129). -/
def State.passEndCmd (s : State) (p : Nat) : State :=
  match s.passOn p with
  | some x => if x.desc.isNone ∧ s.fget F.UPD_LTAB_COUNT_COUNT p ≤ x.layer then State.updRun p 1 s else s
  | none => s

/-- `PASS_END` (R129, R154, R335). -/
def execPassEnd (part : Fin 8) (s : State) : Host.Outcome State Fault Refusal :=
  onPage s Page.UPD fun s => s.passEndCmd part.val

/-- The next elements of a layer whose program is `n` (R136, R137). -/
def State.progCmd (s : State) (p n : Nat) : State :=
  match s.passOn p with
  | some x =>
    match x.desc with
    | some d => if ldProgram d = n then State.updRun p 1 s else s
    | none => s
  | none => s

/-- `SGD_MOM` (R136). -/
def execSgdMom (part : Fin 8) (s : State) : Host.Outcome State Fault Refusal := onPage s Page.UPD fun s => s.progCmd part.val 1

/-- `SGD_NESTEROV` (R136). -/
def execSgdNesterov (part : Fin 8) (s : State) : Host.Outcome State Fault Refusal := onPage s Page.UPD fun s => s.progCmd part.val 2

/-- `ADAMW` (R136). -/
def execAdamw (part : Fin 8) (s : State) : Host.Outcome State Fault Refusal := onPage s Page.UPD fun s => s.progCmd part.val 3

/-- `LION` (R136). -/
def execLion (part : Fin 8) (s : State) : Host.Outcome State Fault Refusal := onPage s Page.UPD fun s => s.progCmd part.val 4

/-- `ADAGRAD_ROW` (R137). -/
def execAdagradRow (part : Fin 8) (s : State) : Host.Outcome State Fault Refusal := onPage s Page.UPD fun s => s.progCmd part.val 5

/-- `GEN_ONLY` (R137). -/
def execGenOnly (part : Fin 8) (s : State) : Host.Outcome State Fault Refusal := onPage s Page.UPD fun s => s.progCmd part.val 6

/-! ### The fixed operation set (R131, R132) -/

/-- One operation word on the register file; a word that R133 refuses for its destination or an operand does nothing. -/
def State.opStep (s : State) (op : Nat) (d a b c : Fin 32) : State :=
  let used := ([a.val, b.val, c.val]).take (opArity op)
  if d.val < 18 ∨ d.val = 31 ∨ used.any (28 ≤ ·) = true then s
  else { s with upd := { s.upd with file := runOp s.upd.file (opWord op d.val a.val b.val c.val) } }

/-- `NOP` (R132). -/
def execNopOp (_d _a _b _c : Fin 32) (s : State) : Host.Outcome State Fault Refusal := onPage s Page.UPD fun s => s

/-- `MOV` (R132). -/
def execMovOp (d a b c : Fin 32) (s : State) : Host.Outcome State Fault Refusal := onPage s Page.UPD fun s => s.opStep 0x01 d a b c

/-- `ADD` (R131, R132). -/
def execAddOp (d a b c : Fin 32) (s : State) : Host.Outcome State Fault Refusal := onPage s Page.UPD fun s => s.opStep 0x02 d a b c

/-- `SUB` (R131, R132). -/
def execSubOp (d a b c : Fin 32) (s : State) : Host.Outcome State Fault Refusal := onPage s Page.UPD fun s => s.opStep 0x03 d a b c

/-- `MUL` (R131, R132). -/
def execMulOp (d a b c : Fin 32) (s : State) : Host.Outcome State Fault Refusal := onPage s Page.UPD fun s => s.opStep 0x04 d a b c

/-- `FMA` (R131, R132). -/
def execFmaOp (d a b c : Fin 32) (s : State) : Host.Outcome State Fault Refusal := onPage s Page.UPD fun s => s.opStep 0x05 d a b c

/-- `FNMA` (R131, R132). -/
def execFnmaOp (d a b c : Fin 32) (s : State) : Host.Outcome State Fault Refusal := onPage s Page.UPD fun s => s.opStep 0x06 d a b c

/-- `DIV` (R131, R132). -/
def execDivOp (d a b c : Fin 32) (s : State) : Host.Outcome State Fault Refusal := onPage s Page.UPD fun s => s.opStep 0x07 d a b c

/-- `SQRT` (R131, R132). -/
def execSqrtOp (d a b c : Fin 32) (s : State) : Host.Outcome State Fault Refusal := onPage s Page.UPD fun s => s.opStep 0x08 d a b c

/-- `MAX` (R131, R132). -/
def execMaxOp (d a b c : Fin 32) (s : State) : Host.Outcome State Fault Refusal := onPage s Page.UPD fun s => s.opStep 0x09 d a b c

/-- `MIN` (R131, R132). -/
def execMinOp (d a b c : Fin 32) (s : State) : Host.Outcome State Fault Refusal := onPage s Page.UPD fun s => s.opStep 0x0A d a b c

/-- `ABS` (R131, R132). -/
def execAbsOp (d a b c : Fin 32) (s : State) : Host.Outcome State Fault Refusal := onPage s Page.UPD fun s => s.opStep 0x0B d a b c

/-- `NEG` (R131, R132). -/
def execNegOp (d a b c : Fin 32) (s : State) : Host.Outcome State Fault Refusal := onPage s Page.UPD fun s => s.opStep 0x0C d a b c

/-- `SIGN` (R131, R132). -/
def execSignOp (d a b c : Fin 32) (s : State) : Host.Outcome State Fault Refusal := onPage s Page.UPD fun s => s.opStep 0x0D d a b c

/-- `SEL` (R131, R132). -/
def execSelOp (d a b c : Fin 32) (s : State) : Host.Outcome State Fault Refusal := onPage s Page.UPD fun s => s.opStep 0x0E d a b c

/-- `SQR` (R131, R132). -/
def execSqrOp (d a b c : Fin 32) (s : State) : Host.Outcome State Fault Refusal := onPage s Page.UPD fun s => s.opStep 0x0F d a b c

/-! ### Programs (R133) -/

/-- Whether a pass of some partition works on a layer that uses a user slot; a pass that waits for READY before a layer is not yet over that
layer (log entry 98: DESIGN CHOICE). -/
def State.slotInUse (s : State) (slot : Nat) : Bool :=
  s.upd.parts.any fun u => match u.pass.bind (·.desc) with
    | some d => ldProgram d == 0x0100 + slot
    | none => false

/-- A write of `UPD_PROG_CMD` with LOAD set. -/
def State.progLoad (s : State) (v : Nat) : State :=
  let len := bits v 0 5
  let slot := bits v 8 3
  let ws := (List.range len).map fun i => s.rd R.UPD_PROG_DATA (i + 32 * slot)
  let (r, bad) := progReason len ws (s.slotInUse slot)
  let s := (s.fset F.UPD_PROG_STAT_REASON 0 r).fset F.UPD_PROG_STAT_FIRST_BAD 0 bad
  if r ≠ 0 then s
  else
    let s := { s with upd := { s.upd with progs := alPut s.upd.progs slot ws } }
    s.fset F.UPD_PROG_STAT_VALID 0 (setBit (s.fget F.UPD_PROG_STAT_VALID) slot true)

/-- `PROG_LOAD` (R133). -/
def execProgLoad (path : Path) (value : Word) (s : State) : Host.Outcome State Fault Refusal :=
  fromPath path R.UPD_PROG_CMD s fun s => onPage s Page.UPD fun s => if bit value.toNat 16 then s.progLoad value.toNat else s

/-! ### The flip (R145) -/

/-- Reason for which a flip to version `v` is refused, 0 when it is armed. -/
def State.flipReason (s : State) (p v : Nat) : Nat :=
  let u := s.updPart p
  if v ≠ (s.rd R.UPD_VER p + 1) % 2 ^ 32 then 1
  else if !u.passed then 2
  else if u.flip.isSome then 3
  else 0

/-- A write of `UPD_FLIP`. -/
def State.flipWrite (s : State) (p v : Nat) : State :=
  let r := s.flipReason p v
  let s := s.fset F.UPD_FLIP_STAT_REASON p r
  if r ≠ 0 then s.irq Page.UPD 3
  else (s.setUpdPart p { s.updPart p with flip := some (v, s.tick.hall) }).set1 F.UPD_FLIP_STAT_ARMED p

/-- `UPD_FLIP` (R145). -/
def execUpdFlip (path : Path) (value : Word) (s : State) : Host.Outcome State Fault Refusal :=
  fromPath path R.UPD_FLIP s fun s => onPage s Page.UPD fun s => s.flipWrite (s.sel path F.UPD_PART_SEL_PART) value.toNat

/-! ### Belvedere's registers (R154, R158) -/

/-- A slot's live and result banks zeroed. -/
def State.tlmZero (s : State) (i : Nat) : State := s.setTlm i (TlmSlot.empty (s.tlmSlot i).mode)

/-- A write of `TLM_CLEAR` (R158). -/
def State.tlmClear (s : State) (v : Nat) : State :=
  if bit v 12 then (s.upd.tlm.map (·.1)).foldl (fun s i => s.tlmZero i) s else s.tlmZero (bits v 0 12)

/-- `TLM_CLEAR` (R158). -/
def execTlmClear (path : Path) (value : Word) (s : State) : Host.Outcome State Fault Refusal :=
  fromPath path R.TLM_CLEAR s fun s => onPage s Page.TLM fun s => s.tlmClear value.toNat

/-- `TLM_CLEAR_ALL` (R158): the write with ALL set. -/
def execTlmClearAll (path : Path) (value : Word) (s : State) : Host.Outcome State Fault Refusal :=
  fromPath path R.TLM_CLEAR s fun s => onPage s Page.TLM fun s => if bit value.toNat 12 then s.tlmClear value.toNat else s

/-- A write of `TLM_RD_SEL`: the slot's result bank into the window of the path (R154, R503). -/
def State.tlmReadSel (s : State) (path : Path) (v : Nat) : State :=
  let slot := bits v 0 12
  let s := s.wr R.TLM_RD_SEL (pathCopy path) slot
  let bs := padTo 128 0 (s.tlmSlot slot).result
  (List.range 32).foldl (fun s i => s.wr (R.TLM_RD_0 + 4 * i) (pathCopy path) (fieldLE bs (4 * i) 4)) s

/-- `TLM_RD_SEL_WRITE` (R154). -/
def execTlmRdSelWrite (path : Path) (value : Word) (s : State) : Host.Outcome State Fault Refusal :=
  fromPath path R.TLM_RD_SEL s fun s => onPage s Page.TLM fun s => s.tlmReadSel path value.toNat

/-! ### Noise (R155, R156) -/

/-- The fill ends with a result. -/
def State.noiseEnd (s : State) (r : Nat) : State :=
  let s := { s with upd := { s.upd with noise := none } }
  (((s.set0 F.CNV_NOISE_STAT_BUSY).set1 F.CNV_NOISE_STAT_DONE).fset F.CNV_NOISE_STAT_RESULT 0 r).irq Page.CNV 2

/-- A write of GO; a request refused sets DONE too (R159; log entry 103: DESIGN CHOICE). -/
def State.noiseGo (s : State) : State :=
  if s.flag F.CNV_NOISE_STAT_BUSY then s
  else
    let p := s.fget F.CNV_NOISE_DST_PART
    let n : Noise := ⟨p, s.fget F.CNV_NOISE_DST_PAGE * 4096, s.rd R.CNV_NOISE_COUNT, s.rd R.CNV_NOISE_TID, s.rd R.CNV_NOISE_STEP,
      s.rd R.CNV_SEED_LO p + s.rd R.CNV_SEED_HI p * 2 ^ 32, s.fget F.CNV_NOISE_CFG_DIST, s.flag F.CNV_NOISE_CFG_FMT, 0⟩
    if n.dist = 3 ∨ s.flag F.CNV_STAT_KAT_FAIL = true ∨ s.runInMap p n.addr (n.size * n.count) = false then
      ((s.set1 F.CNV_NOISE_STAT_DONE).fset F.CNV_NOISE_STAT_RESULT 0 1).irq Page.CNV 0
    else { s.set1 F.CNV_NOISE_STAT_BUSY with upd := { s.upd with noise := some n } }

/-- Elements up to `stop` written, at most `fuel` granules of 4 KiB of them, up to a write that must wait. -/
def State.noiseFill (stop : Nat) : Nat → Noise → State → State × Noise
  | 0, n, s => (s, n)
  | fuel + 1, n, s =>
    if min stop n.count ≤ n.pos then (s, n)
    else
      let per := 4096 / n.size
      let k := min (min stop n.count - n.pos) (per - n.pos % per)
      let bs := (List.range k).flatMap fun i => noiseElem n.dist n.half (philox n.seed (n.pos + i) n.tid n.step)
      match s.writeRange .noise n.part (n.addr + n.size * n.pos) s.tick.now (bs.map some) with
      | (s, .wait) => (s, n)
      | (s, _) => State.noiseFill stop fuel { n with pos := n.pos + k } s

/-- The fill goes on to element `stop`, and ends with a result there. -/
def State.noiseTo (s : State) (n : Noise) (stop r : Nat) : State :=
  match State.noiseFill stop (n.count + 1) n s with
  | (s, n) =>
    if n.pos = n.count ∨ r = 2 then s.noiseEnd (if n.pos = n.count then 0 else r)
    else { s with upd := { s.upd with noise := some n } }

/-- `NOISE_GO` (R155, R156). -/
def execNoiseGo (path : Path) (s : State) : Host.Outcome State Fault Refusal :=
  fromPath path R.CNV_NOISE_CMD s fun s => onPage s Page.CNV fun s => s.noiseGo

/-- `NOISE_ABORT` (R159): `written` elements were written when it took effect. -/
def execNoiseAbort (path : Path) (written : Nat) (s : State) : Host.Outcome State Fault Refusal :=
  fromPath path R.CNV_NOISE_CMD s fun s => onPage s Page.CNV fun s => match s.upd.noise with
    | some n => s.noiseTo n written 2
    | none => s

/-- `NOISE_DONE` (R155, R159): the fill ends. -/
def execNoiseDone (s : State) : Host.Outcome State Fault Refusal :=
  onPage s Page.CNV fun s => match s.upd.noise with
    | some n => s.noiseTo n n.count 0
    | none => s

end Sys2Proof.Machine
end

