-- ==== Sys2Proof/Machine/Parts.lean ====
section
/-! DEFINITION. Partitions (R362–R377): creation, switching, slowdown, reset; TEARDOWN (R319). -/

namespace Sys2Proof.Machine

open Sys2Proof

/-! ### Seats (R362, R363, R366) -/

abbrev Part.state (s : State) (p : Nat) : Nat := s.fget F.PTC_STAT_STATE p

/-- Trios of a seat as a number of 256 bits. -/
def State.seatTrios (s : State) (seat : Nat) : Nat :=
  (List.range 8).foldl (fun a i => a + s.rd (R.PTC_SEAT_TRIO_0 + 4 * i) seat * 2 ^ (32 * i)) 0

/-- Rows of a seat. -/
def State.seatRows (s : State) (seat : Nat) : Nat := 3 * popCount 256 (s.seatTrios seat)

/-- Bytes of a save image on a seat (R366). -/
def State.imageBytes (s : State) (seat : Nat) : Nat :=
  4096 * s.seatRows seat + (s.drainShare seat).2 + (s.stageShare seat).2 + 4096

/-- Frames a save image needs: `PTC_SH_FRAMES.NEED`. -/
def State.shNeed (s : State) (seat : Nat) : Nat := ceilDiv (s.imageBytes seat) 65536

/-- The partition that occupies a seat: RESIDENT, SWITCHING in or out, or being reset with the seat still held. -/
def State.seatHolder (s : State) (seat : Nat) : Option Nat :=
  (List.range 8).find? fun p => s.seatOf p == seat &&
    (Part.state s p == 2 || Part.state s p == 3 || (Part.state s p == 4 && s.ptc.resets.any fun r => r.part == p && r.seated))

/-- Whether a seat's share runs past its area (R363). -/
def State.sharesPast (s : State) (seat : Nat) : Bool :=
  let sum (f : Fld) := (List.range (seat + 1)).foldl (fun a i => a + s.fget f i) 0
  decide (48 < sum F.PTC_SEAT_SRAM_DRAIN) || decide (96 < sum F.PTC_SEAT_SRAM_STAGE)

/-- Whether a seat meets another seat that is bound to a partition in use: trios or slot windows overlap (R363). -/
def State.seatClash (s : State) (seat : Nat) : Bool :=
  (List.range 8).any fun p =>
    let o := s.seatOf p
    Part.state s p != 0 && o != seat &&
      (s.seatTrios o &&& s.seatTrios seat != 0
        || overlaps (s.fget F.PTC_SEAT_SLOTS_FIRST o) (s.fget F.PTC_SEAT_SLOTS_COUNT o)
            (s.fget F.PTC_SEAT_SLOTS_FIRST seat) (s.fget F.PTC_SEAT_SLOTS_COUNT seat))

/-! ### CREATE (R367) -/

/-- First cause for which CREATE of a partition is refused, 0 when it is accepted. -/
def State.createReason (s : State) (p : Nat) : Nat :=
  let seat := s.seatOf p
  let first := s.fget F.PTC_SEAT_SLOTS_FIRST seat
  let count := s.fget F.PTC_SEAT_SLOTS_COUNT seat
  let n := s.fget F.PTC_SH_FRAMES_FRAMES p
  let frames := (List.range n).map (· + s.fget F.PTC_SH_BASE_FRAME p)
  if Part.state s p ≠ 0 then 1
  else if s.seatTrios seat = 0 ∨ count = 0 ∨ slotsPer (s.fget F.TCK_PERIOD_US) s.lclk < first + count + 1 ∨ s.seatClash seat = true ∨
      s.sharesPast seat = true then 2
  else if n < s.shNeed seat ∨ frames.any (fun f =>
      decide (tierFrames .t1 ≤ f) || !Frame.reservedTo p (s.frame .t1 f) || s.isSummerhouse f) = true then 3
  else 0

/-- The stationary sets of a seat's rows and its shares zeroed. -/
def State.clearSeat (s : State) (p : Nat) : State :=
  let seat := s.seatOf p
  let s := (s.partRows p).foldl (fun s r => s.setRow r LaneRow.idle) s
  let (da, dn) := s.drainShare seat
  let (sa, sn) := s.stageShare seat
  { s with t0 := (s.t0.zero da dn).zero sa sn }

/-- A partition's state set. -/
def State.setPart (s : State) (p v : Nat) : State := s.fset F.PTC_STAT_STATE p v

/-- The result of a command of `PTC_CMD` (R367). -/
def State.ptcResult (s : State) (p reason : Nat) : State :=
  let s := s.fset F.PTC_STAT_REASON p reason
  if reason = 0 then s else s.irq Page.PTC 2

/-- The top-down counters of a partition zeroed (R399). -/
def State.topDownZero (s : State) (p : Nat) : State :=
  { s with ctr := { s.ctr with topDown := s.ctr.topDown.filter fun e => e.1 / 4 != p } }

def State.createPart (s : State) (p : Nat) : State :=
  let r := s.createReason p
  let s := s.ptcResult p r
  if r ≠ 0 then s
  else
    let s := (s.bump F.PTC_JOB_CNT_COUNT (s.fget F.PTC_CFG_CLIENT p)).topDownZero p
    match s.seatHolder (s.seatOf p) with
    | some _ => s.setPart p 1
    | none => (s.clearSeat p).setPart p 2

/-- `CREATE`. -/
def execCreatePart (path : Path) (s : State) : Host.Outcome State Fault Refusal :=
  fromPath path R.PTC_CMD s fun s => onPage s Page.PTC fun s => s.createPart (s.sel path F.PTC_PART_SEL_PART)

/-! ### Images (R366, R369, R372) -/

/-- A stationary set as 2048 bytes: 32 lanes of 32 positions, two bytes each (log entry 40). A code of 2^16 stands for an
element whose byte parity is bad. -/
def setBytes (set : List (List Nat)) : List (Option Byte) :=
  (padTo 32 [] set).flatMap fun l => (padTo 32 0 l).flatMap fun c =>
    if c < 65536 then (leBytes 2 c).map some else [none, none]

/-- A stationary set read back. -/
def setOf (bs : List (Option Byte)) : List (List Nat) :=
  let code (x : List (Option Byte)) : Nat := if x.any (·.isNone) then 65536 else ofLE (x.map (·.getD 0))
  let set := chunks 32 ((chunks 2 bs).map code)
  if set.all fun l => l.all (· == 0) then [] else set

/-- Bytes stored in the tower; a sector with a byte that is none becomes poison. -/
def State.putImage (s : State) (a : Nat) (bs : List (Option Byte)) : State :=
  (List.zipIdx (chunks 64 bs)).foldl (fun s x =>
    if x.1.any (·.isNone) then s.putPoison .t1 (a / 64 + x.2) else s.writeTier .t1 (a + 64 * x.2) x.1) s

def State.shAddr (s : State) (p : Nat) : Nat := s.fget F.PTC_SH_BASE_FRAME p * frameSize

/-- A partition's image written to its Summerhouse. The 4 KiB of partition state have no layout in the spec: they are free bytes, and
queue positions, pass position and flip state stay in their own fields meanwhile (log entry 67: a DESIGN CHOICE). -/
def State.saveImage (s : State) (p : Nat) : State :=
  let seat := s.seatOf p
  let rows := s.partRows p
  let a := s.shAddr p
  let (da, dn) := s.drainShare seat
  let (sa, sn) := s.stageShare seat
  let s := s.putImage a (rows.flatMap fun r => setBytes (s.row r).active ++ setBytes (s.row r).shadow)
  let s := s.putImage (a + 4096 * rows.length) (s.t0Read da dn)
  let s := s.putImage (a + 4096 * rows.length + dn) (s.t0Read sa sn)
  let (bs, s) := State.freeBytes 512 s
  s.putImage (a + 4096 * rows.length + dn + sn) (bs.map some)

/-- A partition's image read into its seat; poison is kept and reported (R372). -/
def State.loadImage (s : State) (p : Nat) : State :=
  let seat := s.seatOf p
  let rows := s.partRows p
  let a := s.shAddr p
  let n := 4096 * rows.length
  let (da, dn) := s.drainShare seat
  let (sa, sn) := s.stageShare seat
  match s.readTier .t1 a (n + dn + sn + 4096) with
  | (s, r) =>
    let s := (List.zipIdx rows).foldl (fun s x =>
      let b := r.bytes.drop (4096 * x.2)
      s.setRow x.1 ⟨setOf (b.take 2048), setOf ((b.drop 2048).take 2048), false, [], [], false⟩) s
    let s := (s.t0Write da ((r.bytes.drop n).take dn)).t0Write sa ((r.bytes.drop (n + dn)).take sn)
    if r.poisoned then
      (s.set1 F.PTC_STAT_POISON p).logErr { block := Page.PTC, code := 0x0803, sev := 1, part := some p }
    else s

/-! ### SWITCH (R369–R372) -/

/-- Whether a partition's plan work has ended: no instance, no lane descriptor in progress, its drain FIFOs empty, its class-0
writes made (R369). -/
def State.partQuiet (s : State) (p : Nat) : Bool :=
  let x := s.planState p
  x.running.isNone && x.waiting.isEmpty && !(s.lane.jobs.any fun j => j.part == p && j.out.isNone)
    && (s.partRows p).all (fun r => (s.row r).fifo.isEmpty) && ((s.updPart p).pass.all fun x => x.todo.isEmpty)
    && !(s.coding.stalled.any fun a => a.part == p && a.cls == 0)

def State.setSwitch (s : State) (x : Switch) : State :=
  { s with ptc := { s.ptc with switches := s.ptc.switches.map fun y => if y.seat == x.seat then x else y } }

/-- The transfers of a seat's switch begin when its outgoing partition has drained, or the seat is free: the outgoing image is
written; the incoming partition is SWITCHING once it has been, when its own image is read (R369). -/
def State.switchBegin (s : State) (seat : Nat) : State :=
  match s.ptc.switches.find? fun x => x.seat == seat with
  | none => s
  | some x =>
    if x.moving then s
    else match s.seatHolder seat with
      | none => (s.setPart x.inP 3).setSwitch { x with outP := none, moving := true, began := s.tick.hall }
      | some r =>
        if x.bound && Part.state s r == 2 && s.partQuiet r then
          ((s.setPart r 3).saveImage r).setSwitch
            { x with outP := some r, moving := true, began := s.tick.hall, left := s.imageBytes seat }
        else s

/-- Every seat's switch begins that can. -/
def State.switchesBegin (s : State) : State := s.ptc.switches.foldl (fun s x => s.switchBegin x.seat) s

/-- First cause for which SWITCH is refused (R367); a switch already asked for on the seat counts as its partition SWITCHING. -/
def State.switchReason (s : State) (q : Nat) : Nat :=
  if Part.state s q ≠ 1 then 1
  else
    let seat := s.seatOf q
    if s.ptc.switches.any fun x => x.seat == seat then 4
    else match s.seatHolder seat with
      | some r => if Part.state s r = 2 then 0 else 4
      | none => 0

def State.switchPart (s : State) (q : Nat) : State :=
  let r := s.switchReason q
  let s := s.ptcResult q r
  if r ≠ 0 then s
  else
    let seat := s.seatOf q
    let x : Switch := ⟨seat, q, s.seatHolder seat, s.tick.hall, false, false, 0, 0⟩
    ({ s with ptc := { s.ptc with switches := s.ptc.switches ++ [x] } }).switchBegin seat

/-- `SWITCH`. -/
def execSwitchPart (path : Path) (s : State) : Host.Outcome State Fault Refusal :=
  fromPath path R.PTC_CMD s fun s => onPage s Page.PTC fun s => s.switchPart (s.sel path F.PTC_PART_SEL_PART)

/-! ### Dissolution (R91) -/

/-- Every write that waits is tried once, class by class (R72). -/
def State.flushWrites (s : State) (g : Nat) : State :=
  let s := s.passesFlush
  let s := (s.lane.jobs.filter fun j => !j.todo.isEmpty).foldl (fun (s : State) j => let r := s.laneSettle j; r.1.setLaneJob r.2) s
  let s := s.retryThose (·.use.writes)
  let s := (s.col.jobs.filter fun x => !x.todo.isEmpty).foldl (fun (s : State) x => let r := State.colFlush x x.todo s; r.1.setColJob r.2) s
  let s := s.runJobs
  let s := s.arc.restores.foldl (fun s x => State.arcRun 1 x s) s
  match s.upd.noise with
  | some n =>
    if (s.blocksAt n.part (n.addr + n.size * n.pos) n.size).any fun b => b / 2 ^ 23 == g then
      let r := State.noiseFill (n.pos + 1) 1 n s
      { r.1 with upd := { r.1.upd with noise := some r.2 } }
    else s
  | none => s

/-- A slot dissolved: its stalled writes complete as plain writes with no delta. -/
def State.dissolveSlot (s : State) (g : Nat) : State :=
  if !s.slotTaken g then s
  else
    let s := ({ s with coding := { s.coding with plain := some g } }).flushWrites g
    ({ s with coding := { s.coding with plain := none } }).dissolve g

/-- `DISSOLVE` (R91). -/
def execDissolve (path : Path) (s : State) : Host.Outcome State Fault Refusal :=
  fromPath path R.CDE_GRP_CMD s fun s => onPage s Page.CDE fun s => s.dissolveSlot (s.sel path F.CDE_GRP_SEL_SLOT)

/-! ### Reset (R375, R376) -/

/-- A stopped pass leaves the writes of its last group to be made: those that must wait go on as accesses of class 0 (R71). -/
def State.updLeave (s : State) (p : Nat) (x : Pass) : State :=
  match State.updFlush p x.due x.todo s with
  | (s, todo) =>
    todo.foldl (fun s w => s.park ⟨0, .record x.due, p, none, w.1, 0, w.2, 0⟩) s

/-- Lane descriptors of a partition still queued: each will have a completion record ABORTED with no part set. -/
def State.abortQueued (q : Nat) : Nat → State → State
  | 0, s => s
  | n + 1, s =>
    let h := s.fget (QKind.head .lane) q
    if s.flag (QKind.enable .lane) q = false ∨ h = s.fget (QKind.tail .lane) q then s
    else
      let p := s.qPart .lane q
      match s.updRead p (s.fget (QKind.base .lane) q * 4096 + 64 * h) 64 with
      | (s, r) =>
        let d : List Byte := match r with
          | .ok bs => bs.map (·.getD 0xFF)
          | .wait => []
        let j := { LaneJob.taken s.lane.nextJob q p h (fieldLE d 0 1) 0 [] 0 0 (s.dueOf p) 0 with
          desc := some d, fails := [(0, 5)], out := some (1, 0) }
        let s := s.qTake .lane q
        State.abortQueued q n { s with lane := { s.lane with jobs := s.lane.jobs ++ [j], nextJob := s.lane.nextJob + 1 } }

/-- Units of a lane descriptor. -/
def LaneJob.total (j : LaneJob) : Nat :=
  let d := j.desc.getD []
  max 1 (match j.desc, j.kind with
    | none, _ => 1
    | _, 1 => smCount d
    | _, 2 => gpBags d
    | _, _ => raCount d)

/-- A lane descriptor of a partition being reset ends with its span: units not done are ABORTED (R375), and what it did is classed
(R182). -/
def State.laneAbandon (s : State) (j : LaneJob) : State :=
  let done := if j.todo.isEmpty then (if j.kind = 1 then j.drained else j.pos) else 0
  let left := (List.range (j.total - done)).map (· + done)
  let d := j.desc.getD []
  let s := if !j.begun then s.laneWaste j
    else match j.kind with
      | 1 => s.smTime j d
      | 2 => s.gpTime j d
      | _ => s.raTime j d
  s.laneEnd { j with fails := failAll j.fails left 5, desc := some d } j.total 0

/-- Every lane descriptor in progress of a partition whose span has ended by a plan slot ends (R375). -/
def State.laneAbandonAll (s : State) (p stop : Nat) : State :=
  s.lane.jobs.foldl (fun s j => if j.part = p ∧ j.out = none ∧ j.stop ≤ stop then s.laneAbandon j else s) s

/-- Lane queues of a partition: what is queued is aborted, open chains lose their pins. -/
def State.resetLane (s : State) (p : Nat) : State :=
  (List.range 16).foldl (fun s q =>
    let s := if s.qPart .lane q = p then
        let s := State.abortQueued q (s.qSize .lane q) s
        State.laneFlush q s.lane.jobs.length s
      else s
    match s.chain? q with
    | some c => if c.part = p then s.closeChain q else s
    | none => s) (s.closeOld fun c => c.2.part == p)

/-- The update unit's work of a partition: it stops after the current 32-element group, whose writes are still made; those that
wait for a coded row are made when they can be (R375). -/
def State.resetUpd (s : State) (p : Nat) : State :=
  let s := match (s.updPart p).pass with
    | some x => (s.unholdPages x.pages).updLeave p x
    | none => s
  let s := s.setUpdPart p { s.updPart p with go := none, flip := none, pass := none }
  let s := ((s.set0 F.UPD_FLIP_STAT_ARMED p).set0 F.UPD_FLIP_STAT_PASS_ACTIVE p).set0 F.UPD_FLIP_STAT_PASS_PENDING p
  s.wr R.UPD_LOAD_EN 0 (setBit (s.rd R.UPD_LOAD_EN) p false)

/-- The page queue's and the mover's work of a partition. -/
def State.resetPages (s : State) (p : Nat) : State :=
  let s := s.pages.moves.foldl (fun s m => if m.part = p then s.cancelMove m 5 else s) s
  match s.jobOf p with
  | none => s
  | some j =>
    let n := s.pageUnits p j.desc
    s.endJob { j with ended := padTo n 5 j.ended } n

/-- The descriptors in a partition's fabric ring are cancelled: each ends ABORTED with no part set, in its turn (R219, R322). -/
def State.abortFabric (p : Nat) : Nat → State → State
  | 0, s => s
  | n + 1, s =>
    let h := s.fget (QKind.head .fabric) p
    if s.flag (QKind.enable .fabric) p = false ∨ h = s.fget (QKind.tail .fabric) p then s
    else
      let d := s.peek p (s.fget (QKind.base .fabric) p * 4096 + 64 * h) 64
      let u := max 1 (fabUnits d)
      let x : FabJob := ⟨s.fab.nextJob, p, h, d, u, 0, (List.range (min 16 u)).map fun i => (partStart u (min 16 u) i, 5), 0⟩
      let s := s.qTake .fabric p
      State.abortFabric p n { s with fab := { s.fab with jobs := s.fab.jobs ++ [x], nextJob := s.fab.nextJob + 1 } }

/-- Partner entries of a partition (R364). -/
def State.partEntries (s : State) (p : Nat) : List Nat :=
  (s.regs.filterMap fun e => if e.1 / 65536 = R.FBP_PTN_NODE then some (e.1 % 65536) else none).filter fun e =>
    decide (e < 4080) && s.flag F.FBP_PTN_NODE_VALID e && s.fget F.FBP_PTN_NODE_PART e == p

/-- The collectives engine's work of a partition. -/
def State.resetCol (s : State) (p : Nat) : State :=
  match s.colJob p with
  | none => s
  | some x =>
    let s := if x.ended.isNone then s.colEnd x 5 else s
    x.handles.foldl (fun s h => s.setFrag h 0 none) s

/-- The archive's work of a partition. -/
def State.resetArc (s : State) (p : Nat) : State :=
  let s := s.arcFail p 3
  match s.arc.restores.find? fun x => x.part == p with
  | none => s
  | some x =>
    let left := (List.range (rsCount x.desc - x.next)).map (· + x.next)
    (s.setRestore p none).qComplete .restore p x.index x.desc (rsCount x.desc) (failAll x.fails left 5)

/-- Group slots of a partition: drained, or dissolved at once (R376). -/
def State.resetGroups (s : State) (p : Nat) : State :=
  let s := (List.range 16).foldl (fun s g =>
    if Grp.part s g ≠ p then s
    else if s.flag F.PTC_DRAIN_LIMIT_DISSOLVE = true then s.dissolveSlot g
    else if Grp.state s g = 1 ∨ (Grp.state s g = 0 ∧ s.slotTaken g = true) then (s.setSlotState g 2).drainedCheck g
    else s) s
  s.emptyDrained

/-- Items of a register that are written otherwise than at reset. -/
def State.itemsOf (s : State) (off : Nat) : List Nat :=
  s.regs.filterMap fun e => if e.1 / 65536 = off then some (e.1 % 65536) else none

/-- Prefix table entries whose bytes are not all zero. -/
def State.pftListed (s : State) : List Nat :=
  let a := s.fget F.PFT_BASE_FRAME * frameSize
  (s.tower.mem.cells.filterMap fun c =>
    if a ≤ c.1 ∧ c.1 < a + 128 * s.pftBuckets then some ((c.1 - a) / 16) else none).foldl nsAdd []

/-- Region entries, KX windows, collective groups and prefix entries of a partition cleared. -/
def State.resetEntries (s : State) (p : Nat) : State :=
  let s := (s.itemsOf R.FBK_REG_CFG).foldl (fun s i => if s.fget F.FBK_REG_CFG_PART i = p then s.set0 F.FBK_REG_CFG_VALID i else s) s
  let s := (s.itemsOf R.FBK_KX_CFG).foldl (fun s i => if s.fget F.FBK_KX_CFG_PART i = p then s.set0 F.FBK_KX_CFG_VALID i else s) s
  let s := (s.itemsOf R.COL_GRP_CFG).foldl (fun s i => if s.fget F.COL_GRP_CFG_PART i = p then s.set0 F.COL_GRP_CFG_VALID i else s) s
  if s.flag F.PFT_CFG_ENABLE = false then s
  else s.pftListed.foldl (fun s i =>
    let f := s.pftGet i
    if pftPart (pftBytes f.2) = p then f.1.pftClear i (pftBytes f.2) else f.1) s

/-- The work of R375 ends, engine by engine. -/
def State.resetWork (s : State) (p : Nat) : State :=
  let s := s.setPlan p { s.planState p with accepted := none, acceptedEpoch := none, inForce := none, waiting := [],
                                            check := (s.planState p).check.map fun c => { c with cancelled := true } }
  let s := ((s.resetLane p).resetUpd p).resetPages p
  let s := (State.abortFabric p (s.qSize .fabric p) ((s.partEntries p).foldl (fun s e => (s.stepGen e).endEntry e 5) s)).flushAll
  let s := (s.resetCol p).resetArc p
  let s := match s.upd.noise with
    | some n => if n.part = p then s.noiseEnd 2 else s
    | none => s
  let s := ((s.resetGroups p).resetEntries p).wr R.CTR_USER_EN 0 (setBit (s.rd R.CTR_USER_EN) p false)
  s.retryStalled.colAdvance

/-- A partition becomes RESETTING and its work ends (R375). -/
def State.resetBegin (s : State) (p : Nat) : State :=
  let seated := Part.state s p == 2
  let r : PartReset := ⟨p, s.tick.hall, seated, false⟩
  let ptc := { s.ptc with
    resets := (s.ptc.resets.filter fun x => x.part != p) ++ [r], switches := s.ptc.switches.filter fun x => x.inP != p }
  (({ s with ptc := ptc }).setPart p 4).resetWork p

/-- RESET of a partition that is not EMPTY: at once, or when its switch has ended (R375, R377). -/
def State.resetPart (s : State) (p : Nat) : State :=
  if Part.state s p = 3 ∨ (s.ptc.switches.any fun x => x.moving && x.inP == p) = true then
    { s with ptc := { s.ptc with resets := (s.ptc.resets.filter fun x => x.part != p) ++ [⟨p, s.tick.hall, false, true⟩] } }
  else if Part.state s p = 4 then s
  else s.resetBegin p

/-- `RESET` (R375). -/
def execResetPart (path : Path) (s : State) : Host.Outcome State Fault Refusal :=
  fromPath path R.PTC_CMD s fun s => onPage s Page.PTC fun s =>
    let p := s.sel path F.PTC_PART_SEL_PART
    if Part.state s p = 0 then s.ptcResult p 1 else (s.ptcResult p 0).resetPart p

/-- The error of a TEARDOWN. -/
def tearErr (t : Txn) (code sev : Nat) (p : Option Nat) : ErrIn :=
  { block := Page.FBP, code := code, sev := sev, part := p, kind := 5, addr := t.src, detail := [t.src, t.tag, t.vc, t.status] }

/-- `TEARDOWN` (R319). -/
def execTeardown (hdr payload : List Byte) (s : State) : Host.Outcome State Fault Refusal :=
  onTxn hdr payload s fun s t =>
    if t.typ ≠ 6 then s
    else if t.gate && t.vc != 0 then s.gateDrop t.src t.vc t.tag t.status
    else if s.flag F.FBP_FM_NODE_VALID = true ∧ t.src = s.fget F.FBP_FM_NODE_NODE then
      if t.vc ≠ 0 then s
      else match (List.range 8).find? fun p => s.flag F.FBP_PART_JOB_VALID p && s.fget F.FBP_PART_JOB_JOB p == t.key % 65536 with
      | none => s
      | some p =>
        if Part.state s p = 0 ∨ Part.state s p = 4 then s
        else ((s.logErr (tearErr t 0x0610 1 (some p))).irq Page.FBP 3).resetPart p
    else (s.bump F.FBP_RX_HOSTILE_COUNT).logErr (tearErr t 0x0611 0 none)

/-! ### The switch ends (R369–R372) -/

def State.switchEnd (s : State) (x : Switch) : State :=
  let q := x.inP
  let s := match x.outP with
    | some r => s.setPart r 1
    | none => s
  let s := (s.loadImage q).setPart q 2
  let s := { s with ptc := { s.ptc with switches := s.ptc.switches.filter fun y => y.seat != x.seat } }
  let s := (s.fset F.PTC_SWITCH_US_US q (min 65535 ((s.tick.hall - x.began) / 1000))).set1 F.PTC_STAT_DONE q
  let s := (s.bump F.PTC_SWITCH_CNT_COUNT).irq Page.PTC 0
  (s.ptc.resets.filter (·.waits)).foldl (fun s r => if r.part = q ∨ some r.part = x.outP then s.resetBegin r.part else s) s

/-- `SWITCH_DONE`: the transfers of a seat's switch end at hall time `time` (R370); none end in a critical halt. -/
def execSwitchDone (seat : Fin 8) (time : BitVec 64) (s : State) : Host.Outcome State Fault Refusal :=
  onPage s Page.PTC fun s =>
    let s := s.passTo time.toNat
    match s.ptc.switches.find? fun x => x.seat == seat.val with
    | some x => if x.moving && !s.tower.critical then s.switchEnd x else s
    | none => s

/-! ### The reset ends (R376, R377) -/

/-- `DRAIN_LIMIT` (R376): slots of a partition being reset that have not drained are dissolved. -/
def execDrainLimit (part : Fin 8) (s : State) : Host.Outcome State Fault Refusal :=
  onPage s Page.PTC fun s =>
    let s := s.emptyDrained
    if Part.state s part ≠ 4 then s
    else (List.range 16).foldl (fun s g =>
      if Grp.part s g = part.val ∧ s.slotTaken g = true then
        ((s.dissolveSlot g).logErr { block := Page.PTC, code := 0x0802, sev := 1, part := some part.val }).irq Page.PTC 3
      else s) s

/-- The partition a request in flight acts for. -/
def ReqUse.part : ReqUse → Option Nat
  | .hostRead _ _ p _ => some p
  | .loadOn _ p _ => some p
  | .pageIn p _ _ => some p
  | .pageOut p _ _ => some p
  | .pieceRead p _ => some p
  | _ => none

/-- Pages of a partition whose entries are not all zero. -/
def State.listedPages (s : State) (p : Nat) : List Nat :=
  let a := s.pmeAddr p 0
  ((s.tower.mem.cells.filterMap fun c => if a ≤ c.1 then some ((c.1 - a) / 16) else none).foldl nsAdd []).filter fun pg => s.inMap p pg

/-- Whether the work of R375 and R376 has ended for a partition, and no access of it is in flight. -/
def State.resetQuiet (s : State) (p : Nat) : Bool :=
  s.partQuiet p && !((List.range 16).any fun g => Grp.part s g == p && s.slotTaken g)
    && !(s.fab.flight.any fun f => f.txn.part == some p || f.txn.use.part == some p)
    && !(s.coding.stalled.any fun a => a.part == p) && !(s.pages.linger.any fun l => l.part == p)
    && !(s.fab.jobs.any fun j => j.part == p && j.left != 0)
    && !(s.col.jobs.any fun x => x.part == p && x.scan)
    && !((s.listedPages p).any fun pg => (s.pme p pg).pins != 0 && !nsMem s.pages.badPme (pageKey p pg))

/-- Every page of a partition released, its frames freed (R275, R271, R377); one whose entry reads as poison becomes UNMAPPED
and its frames stay out of the pool (R258). -/
def State.releaseAllPages (s : State) (p : Nat) : State :=
  let s := (s.listedPages p).foldl (fun s pg =>
    match s.pmeRead p pg with
    | (s, .beyond) => s
    | (s, .poison) => (s.losePageFrames p pg).setPme p pg {}
    | (s, .pme d) => if d.state = PgUnmapped then s else (s.setPme p pg { d with refs := 0, pins := 0 }).releasePage p pg) (s.wordsOut p)
  let free (f : Frames) : Frames := f.tab.foldl (fun f e => if e.2.reservedTo p then f.set e.1 .dirty else f) f
  { s with pages := { s.pages with
      t1 := free s.pages.t1, t2 := free s.pages.t2, kvFree := alDel s.pages.kvFree p, kvUsed := alDel s.pages.kvUsed p,
      touched := s.pages.touched.filter fun k => k / 2 ^ 24 != p, cache := s.pages.cache.filter fun k => k / 2 ^ 24 != p } }

/-- What is left of a partition's queued work once it is EMPTY. -/
def State.dropJobs (s : State) (p : Nat) : State :=
  { s with lane := { s.lane with jobs := s.lane.jobs.filter fun j => j.part != p },
           fab := { s.fab with jobs := s.fab.jobs.filter fun j => j.part != p, txq := s.fab.txq.filter fun t => t.part != some p },
           col := { s.col with jobs := s.col.jobs.filter fun j => j.part != p } }

def State.resetEnd (s : State) (p : Nat) : State :=
  let seat := s.seatOf p
  let s := ((s.releaseAllPages p).dropJobs p).setPlan p { PlanState.idle with nextBlk := (s.planState p).nextBlk }
  let s := { s with ptc := { s.ptc with
    resets := s.ptc.resets.filter fun r => r.part != p, slow := alDel s.ptc.slow p, idle := nsDel s.ptc.idle p } }
  let s := ((s.setPart p 0).set1 F.PTC_STAT_DONE p).bump F.PTC_RESET_CNT_COUNT
  let s := (s.logErr { block := Page.PTC, code := 0x0801, sev := 0, part := some p }).irq Page.PTC 1
  s.switchBegin seat

/-- `RESET_DONE` (R377). -/
def execResetDone (part : Fin 8) (s : State) : Host.Outcome State Fault Refusal :=
  onPage s Page.PTC fun s =>
    let s := s.emptyDrained
    if Part.state s part = 4 ∧ s.resetQuiet part = true then s.resetEnd part else s

/-! ### Slowdown (R373) -/

/-- Cycles added to the sums of a partition's window. -/
def State.slowAdd (s : State) (p a b : Nat) : State :=
  let v := (alGet s.ptc.slow p).getD (0, 0)
  { s with ptc := { s.ptc with slow := alPut s.ptc.slow p (v.1 + a, v.2 + b) } }

/-- The figure of one partition at the end of a window. -/
def State.slowdown (s : State) (p : Nat) : State :=
  let (a, b) := (alGet s.ptc.slow p).getD (0, 0)
  if a = 0 ∧ b = 0 then s
  else
    let v := if b = 0 then 0xFFFF else min 0xFFFF (256 * a / b)
    let s := s.fset F.PTC_SLOWDOWN_Q88 p v
    let al := s.fget F.PTC_SLOW_ALERT_Q88 p
    if al ≠ 0 ∧ al < v then s.irq Page.PTC 4 else s

/-- `SLOWDOWN_WINDOW`: a window of `PTC_SLOW_WIN` ticks ends. -/
def execSlowdownWindow (s : State) : Host.Outcome State Fault Refusal :=
  onPage s Page.PTC fun s =>
    let s := (List.range 8).foldl (fun s p => s.slowdown p) s
    { s with ptc := { s.ptc with slow := [] } }

end Sys2Proof.Machine
end

