-- ==== Sys2Proof/Machine/Plans.lean ====
section
/-! DEFINITION. Plan buffers, commits and withdrawals (R34–R37). -/

namespace Sys2Proof.Machine

open Sys2Proof

/-- Whether a partition's next buffer is locked: being checked, holding an accepted plan, or holding a plan with instances that
have not retired (R36). -/
def PlanState.locked (x : PlanState) : Bool :=
  x.check.isSome || x.accepted.isSome || (x.running.toList ++ x.waiting).any fun i => i.blk == x.nextBlk

/-- `PLAN_COMMIT` (R34, R36). -/
def execPlanCommit (path : Path) (part : Fin 8) (s : State) : Host.Outcome State Fault Refusal :=
  fromPath path R.TCK_PLAN_COMMIT s fun s => onPage s Page.TCK fun s =>
    let x := s.planState part
    if x.locked then s.set1 F.TCK_STAT_PLAN_LOCKED_WR else s.setPlan part { x with check := some ⟨s.tick.hall, false⟩ }

/-- The check of a partition's next buffer ends (R36, R37). -/
def State.planChecked (s : State) (p : Nat) : State :=
  let x := s.planState p
  match x.check with
  | none => s
  | some c =>
    let img := s.planImage p x.nextBlk
    let plan := planOf img
    let r := s.planReason p plan
    let s := (s.fset F.TCK_PLAN_STAT_REASON p r).wr R.TCK_PLAN_ID p (fieldLE img 8 4)
    let x := { x with check := none }
    match r, plan with
    | 0, some y =>
      if c.cancelled then s.setPlan p x
      else
        let e := if s.stagedFor y then s.tick.commit.map (·.2.1) else none
        s.setPlan p { x with accepted := some (y, s.tick.hall), acceptedEpoch := e, barred := false }
    | _, _ => (s.setPlan p x).irq Page.TCK 1

/-- `PLAN_CHECK_DONE`. -/
def execPlanCheckDone (part : Fin 8) (s : State) : Host.Outcome State Fault Refusal :=
  onUp s fun s => s.planChecked part

/-- Whether an accepted plan swaps at boundary `b` (R32, R35). -/
def State.swapsAt (s : State) (x : PlanState) (b : Nat) : Bool :=
  match x.accepted with
  | none => false
  | some (_, t) => s.slotAfter t b && x.acceptedEpoch.all fun e => decide (e ≤ b)

/-- A withdrawal (R36): of a check in progress, or of an accepted plan at least one slot before the boundary it swaps at. -/
def State.planCancel (s : State) (p : Nat) : State :=
  let x := s.planState p
  match x.check with
  | some c => s.setPlan p { x with check := some { c with cancelled := true } }
  | none =>
    let b := s.nextBoundary
    if s.swapsAt x b && !s.slotAfter s.tick.hall b then s
    else s.setPlan p { x with accepted := none, acceptedEpoch := none }

/-- `PLAN_CANCEL`. -/
def execPlanCancel (path : Path) (part : Fin 8) (s : State) : Host.Outcome State Fault Refusal :=
  fromPath path R.TCK_PLAN_CANCEL s fun s => onPage s Page.TCK fun s => s.planCancel part

/-- `TCK_PLAN_ADDR` on a path: the item, and the T0 offset of the word it names in the next buffer. -/
def State.planWord (s : State) (path : Path) : Nat × Nat × Nat :=
  let p := s.sel path F.TCK_PLAN_SEL_PART
  let item := s.regItem path R.TCK_PLAN_ADDR
  (p, item, planBlock p (s.planState p).nextBlk + 4 * s.fget F.TCK_PLAN_ADDR_WORD item)

/-- `PLAN_DATA_ACCESS`: a word of the next buffer read (`none`) or written; the address advances (R36, R496). -/
def execPlanDataAccess (path : Path) (wr : Option Word) (s : State) : Host.Outcome State Fault Refusal :=
  let go (s : State) : Host.Outcome State Fault Refusal := onPage s Page.TCK fun s =>
    let (p, item, a) := s.planWord path
    let s := match wr with
      | none => { s with rdata := BitVec.ofNat 32 (ofLE (s.t0.bytes a 4)) }
      | some w =>
        if (s.planState p).locked then s.set1 F.TCK_STAT_PLAN_LOCKED_WR
        else { s with t0 := s.t0.puts a (leBytes 4 w.toNat) }
    s.bump F.TCK_PLAN_ADDR_WORD item
  match wr with
  | none => go s
  | some _ => fromPath path R.TCK_PLAN_DATA s go

end Sys2Proof.Machine
end

