-- ==== Sys2Proof/Machine/Boundary.lean ====
section
/-! DEFINITION. Tick boundaries, hall-time strobes, plan slots, retirement, releases (R17, R25–R43, R48, R49, R507). -/

namespace Sys2Proof.Machine

open Sys2Proof

/-! ### The epoch (R30, R32, R39) -/

/-- Plans of a partition at an epoch that brings the period `us`: an accepted plan of another period is withdrawn with reason
0x2, a plan in force of another period starts no further instance (R32). -/
def State.epochPlan (s : State) (us p : Nat) : State :=
  let x := s.planState p
  let drop : Bool := x.accepted.any fun a => a.1.period != us
  let x := { x with inForce := x.inForce.filter fun y => y.period == us }
  if drop then
    (s.fset F.TCK_PLAN_STAT_REASON p 2).setPlan p { x with accepted := none, acceptedEpoch := none }
  else s.setPlan p x

/-- The committed values take effect at their epoch (R30). -/
def State.timeEpoch (s : State) : State :=
  match s.tick.commit with
  | none => s
  | some (us, e, base) =>
    let s := s.passTo e
    let s := { s with tick := { s.tick with commit := none, epoch := e, base := base } }
    let s := ((s.fset F.TCK_PERIOD_US 0 us).wr64 R.TCK_EPOCH_LO 0 e).wr64 R.TCK_TICK_BASE_LO 0 base
    let s := s.fset F.TCK_SLOTS_S 0 (slotsPer us s.lclk)
    let s := (List.range 8).foldl (fun s p => s.epochPlan us p) s
    s.cancelArms e

/-- `TIME_EPOCH`: every boundary before the epoch has been taken. -/
def execTimeEpoch (s : State) : Host.Outcome State Fault Refusal :=
  onUp s fun s => match s.tick.commit with
    | some (_, e, _) => if e ≤ s.nextBoundary then s.timeEpoch else s
    | none => s

/-! ### Arrivals (R41) -/

/-- Every tick whose plan work has ended in all partitions is told to the acting managers of its groups (R121) and to the barrier: at
the manager, or over the ring. An engine that
has no plan due in a tick arrives at its boundary itself (log entry 51: a DESIGN CHOICE). -/
def State.arrive (s : State) : State :=
  let dues := s.plans.flatMap fun x => (x.running.toList ++ x.waiting).map (·.due)
  let ready := s.tick.barrier.filter fun b => dues.all fun d => decide (b.1 < d)
  let rest := s.tick.barrier.filter fun b => dues.any fun d => decide (d ≤ b.1)
  let s := { s with tick := { s.tick with barrier := rest } }
  ready.foldl (fun s b =>
    let s := s.tellArrival b.1 (s.tick.hall - b.2)
    if s.eru.checkFailed then s
    else if s.isMgr then s.ringArrive s.ownInst b.1
    else match s.mgrInst with
      | some m => s.ringSend 2 (some m) 0 [b.1]
      | none => s) s

/-! ### Boundaries (R35, R39–R43) -/

/-- LCLK cycles of the tick that ends at `b`. -/
def State.tickCycles (s : State) (b : Nat) : Nat := match s.tick.lastBoundary with
  | some a => s.lclkOf (b - a)
  | none => 0

/-- The cycles of an ended tick that no slot has classed are wasted on a RESIDENT partition's rows (R182). -/
def State.wasteTick (s : State) (n p : Nat) : State :=
  let x := s.planState p
  let s := if s.fget F.PTC_STAT_STATE p = 2 then s.rowCycles p 1 ((n - x.spent) * (s.partRows p).length) else s
  { s with plans := modifyAt (fun x => { x with spent := 0 }) p s.plans }

/-- The sums of R373 for a partition that ran nothing in an ended tick because it was PARKED or SWITCHING. -/
def State.idleTick (s : State) (n p : Nat) : State :=
  if Part.state s p = 0 then s
  else s.slowAdd p n (match (s.planState p).inForce with
    | some y => 256 * y.slots
    | none => 0)

/-- What an ended tick leaves in the counters. -/
def State.tickEnd (s : State) (b : Nat) : State :=
  let n := s.tickCycles b
  let s := (List.range 8).foldl (fun s p => s.wasteTick n p) s
  s.ptc.idle.foldl (fun s p => s.idleTick n p) s

/-- An accepted plan becomes the plan in force (R35); that of a PARKED partition, or of one that comes in, only at its resumption
(R371). -/
def State.planSwap (s : State) (b p : Nat) : State :=
  let x := s.planState p
  match s.swapsAt x b && Part.state s p != 1 && Part.state s p != 3, x.accepted with
  | true, some (y, _) =>
    (s.setPlan p { x with inForce := some y, accepted := none, acceptedEpoch := none, nextBlk := 1 - x.nextBlk }).irq Page.TCK 4
  | _, _ => s

/-- The releases at a boundary: the first one engages the barrier; a later boundary with none is noted (R39, R41). The second
component says whether plans start. -/
def State.gate (s : State) (t b : Nat) : State × Bool :=
  let k := s.tick
  let have_ := k.releases.contains b
  let first := !k.released && have_
  let s := if first then
      ({ s with tick := { k with released := true, armed := [] } }).set0 F.TCK_STAT_ARMED
    else s
  let late := if s.tick.released && !have_ then s.tick.unreleased ++ [(t, b)] else s.tick.unreleased
  let s := { s with tick := { s.tick with unreleased := late, releases := s.tick.releases.filter fun h => decide (b < h) } }
  (s, s.tick.released && have_)

/-- A tick overrun (R42). -/
def State.overrun (s : State) (part : Option Nat) : State :=
  (((s.bump F.TCK_OVERRUN_CNT_COUNT).irq Page.TCK 0)).event 0x0201 part

/-- The first waiting instance of a partition starts. -/
def State.startWaiting (s : State) (p : Nat) : State :=
  let x := s.planState p
  match x.waiting with
  | [] => s
  | i :: rest => s.setPlan p { x with running := some i, waiting := rest }

/-- Whether a switch keeps a partition's plan from starting (R369). -/
def State.switchHolds (s : State) (p : Nat) : Bool := s.ptc.switches.any fun x => x.bound && x.outP == some p

/-- Whether a partition's plans may start at boundaries (R17, R39, R364); in SLEEP and DEEP-SLEEP none does (R482). -/
def State.mayStart (s : State) (p : Nat) : Bool :=
  Part.state s p == 2 && !s.tick.managerLost && s.tick.released && s.fget F.CRG_STAT_MODE == 0

/-- A partition at a boundary: an overrun of an instance that has not retired, whatever keeps others from starting; else, where
plans may start, a plan that starts or a plan that waits, with an overrun for each boundary at which one waits already (R35, R41, R42);
in the critical halt none starts, and the boundary counts as an overrun (R248). -/
def State.partBoundary (s : State) (t b : Nat) (go : Bool) (p : Nat) : State :=
    let x := s.planState p
    let new : List Inst :=
      if s.mayStart p = false ∨ s.switchHolds p = true then [] else (x.inForce.map fun y => (⟨y, t, b, 1 - x.nextBlk, 0⟩ : Inst)).toList
    if x.running.isSome then (s.setPlan p { x with waiting := x.waiting ++ new }).overrun (some p)
    else if s.mayStart p = false then s
    else
      let s1 := s.setPlan p { x with waiting := x.waiting ++ new }
      let held := s.tick.unreleased.map (·.1)
      match x.waiting with
      | [] =>
        if s.tower.critical then (if new.isEmpty then s1 else s1.overrun (some p))
        else if go then s1.startWaiting p else s1
      | i :: _ =>
        let s1 := s1.overrun (some p)
        if held.contains i.due || s.tower.critical then s1 else s1.startWaiting p

/-- The banks that running plans refresh (R233): the plans in force of RESIDENT partitions, once released; none in the critical halt
(R248) or out of RUN (R482), and after the manager is lost (R17) only a plan that has an instance still running. -/
def State.planBanks (s : State) : List Nat :=
  if !s.tick.released || s.tower.critical || s.fget F.CRG_STAT_MODE != 0 then []
  else (List.range 8).flatMap fun p =>
    if Part.state s p = 2 ∧ (s.tick.managerLost = false ∨ (s.planState p).running.isSome = true) then match (s.planState p).inForce with
      | some y => y.entries.filterMap fun e => match e.op with
          | .refresh k => some k
          | _ => none
      | none => []
    else []

/-- What only counts boundaries: chains, reserved-code reports, the ager's ticks. -/
def State.countBoundary (s : State) : State :=
  let s := s.onChains (fun _ => true) fun c => { c with bounds := c.bounds + 1 }
  { s with lane := { s.lane with fmtRows := [] }, pages := { s.pages with ageTicks := s.pages.ageTicks + 1 } }

/-- Switches whose first boundary this is (R369). -/
def State.bindSwitches (s : State) (b : Nat) : State :=
  { s with ptc := { s.ptc with switches := s.ptc.switches.map fun x => if s.slotAfter x.since b then { x with bound := true } else x } }

/-- Changes held for a boundary take effect (R35, R146, R186, R241, R401, R482), in the order of their blocks, in which their records
enter the queue (R387). -/
def State.applyHeld (s : State) (b : Nat) : State :=
  let s := (List.range 8).foldl (fun s p => s.planSwap b p) s.applyCtr
  let s := s.orgBoundary.bypassApply
  let s := (List.range 8).foldl (fun s p => s.flipAt p) s
  (s.bindSwitches b).modeApply

/-- The boundary's turn in time: its tick number becomes the current one. -/
def State.enterTick (s : State) (b : Nat) : State :=
  let t := s.tickAt b
  { s with tick := { s.tick with now := t, lastBoundary := some b, hall := max s.tick.hall b },
           tower := { s.tower with resume := false } }

/-- The end of a boundary: arrivals, seals, the switches and what the pages show. -/
def State.leaveBoundary (s : State) (t b : Nat) : State :=
  let s := s.passesFlush.updSeals.tellTickSeal
  let s := if s.tick.released then { s with tick := { s.tick with barrier := s.tick.barrier ++ [(t, b)] } } else s
  let s := (s.arrive).switchesBegin
  let idle := (List.range 8).filter fun p => Part.state s p == 1 || Part.state s p == 3 || s.switchHolds p
  ({ s with ptc := { s.ptc with idle := idle } }).repairGo

/-- One tick boundary at hall time `b` (R35, R42). -/
def State.takeBoundary (s : State) (b : Nat) : State :=
  let s := (s.snapDue b).passTo b
  let s := match s.tick.commit with
    | some (_, e, _) => if e ≤ b then s.timeEpoch else s
    | none => s
  let s := (s.tickEnd b).enterTick b
  let t := s.tick.now
  let s := s.applyHeld b
  match s.gate t b with
  | (s, go) =>
    let s := (List.range 8).foldl (fun s p => s.partBoundary t b go p) s
    let s := if s.isMgr && s.tick.released && !s.eru.checkFailed then s.sendRelease s.nextBoundary else s
    let s := ((s.setPlanRef s.planBanks).countBoundary).arbWindow
    (s.leaveBoundary t b).budgetApply

/-- `TICK_BOUNDARY`. -/
def execTickBoundary (s : State) : Host.Outcome State Fault Refusal :=
  onUp s fun s => if s.ticking then s.takeBoundary s.nextBoundary else s

/-! ### Strobes (R25–R27) -/

/-- Boundaries before hall time `t` that a forward step skips, each taken once. -/
def State.skipTo (t : Nat) : Nat → State → State
  | 0, s => s
  | n + 1, s =>
    let b := s.nextBoundary
    if b < t ∧ s.ticking = true then State.skipTo t n (s.takeBoundary b) else s

/-- The stamps of tails kept for the consume points follow the local time when it is set (R26, R194). -/
def State.tailsMove (s : State) (l t : Nat) : State :=
  { s with lane := { s.lane with tails := s.lane.tails.map fun e => (e.1, e.2.map fun x => (x.1 + t - l, x.2)) } }

/-- A strobe with the port value `t`, the local time standing at `here`. The first strobe since a start adopts the port value with
no 0x0A21 record and takes none of the boundaries between (log entry 50: a DESIGN CHOICE). A step of the time passes no cycles (R27,
R399). -/
def State.strobe (s : State) (t here : Nat) : State :=
  let k := s.tick
  let good := if s.flag F.TCK_STAT_HOLDOVER then k.goodStrobes + 1 else 0
  let s := { s with tick := { k with holdover := false, goodStrobes := good } }
  let s := s.passTo here
  if !k.synced then { s with tick := { s.tick with synced := true, hall := t, lastBoundary := none } }
  else
    let l := s.tick.hall
    let s := if 1000 < max l t - min l t then s.logErr { block := Page.TCK, code := 0x0A21, sev := 0 } else s
    let s : State := { s with tick := { s.tick with hall := t } }
    (if l < t ∧ s.ticking = true then State.skipTo t ((t - l) / 10000 + 2) s else s).tailsMove l t

/-- `HALL_STROBE`: a strobe while `pse_hall_valid` is high; `here` is the local hall time at its edge (log entry 2). -/
def execHallStrobe (time here : BitVec 64) (s : State) : Host.Outcome State Fault Refusal :=
  onUp s fun s => s.strobe time.toNat here.toNat

/-! ### Plan slots (R44, R49, R507) -/

/-- Conditions of R48 that fail for a partition: throttle, switch, clock. -/
def State.lapses (s : State) (p : Nat) : Nat :=
  let sw : Bool := s.ptc.switches.any fun x => x.bound && (x.inP == p || x.outP == some p)
  s.tower.throttle.toNat + 2 * sw.toNat + 4 * (s.fget F.CRG_STAT_MON_OUT)

/-- A slot issued while a condition of R48 fails (R49). -/
def State.countLapse (s : State) (p : Nat) : State :=
  let l := s.lapses p
  if l = 0 then s else (s.bump F.TCK_LAPSE_CNT_COUNT).fset F.TCK_STAT_LAPSE 0 (s.fget F.TCK_STAT_LAPSE ||| l)

/-- A beat delivered to rows of a trio in the current slot, from a feeder pair (R13, R163): rows that other cycles of the slot feed stay
fed. -/
def State.feed (s : State) (trio pair rows : Nat) : State :=
  { s with lane := { s.lane with feeds := alPut s.lane.feeds trio (8 * pair + ((alGet s.lane.feeds trio).getD 0 % 8 ||| rows)) } }

/-- `FEED`: an entry of a running plan. -/
def execFeedEntry (part : Fin 8) (trio pair : Fin 256) (rows : BitVec 3) (s : State) : Host.Outcome State Fault Refusal :=
  onPage s Page.LNF fun s =>
    if (s.planState part).running.isSome && !s.planeHalted then s.feed trio.val pair.val rows.toNat else s

/-- An entry of a plan slot. -/
def State.planOp (s : State) (p : Nat) (eyes : List (Nat × List Nat)) (e : PlanEntry) : State :=
  match e.op with
  | .feed t f rows => s.feed t f rows
  | .lane q k sp a b => s.consume p q k sp a b e.len (e.slot + e.len)
  | .update => s.updSlots p e.len
  | .bank b u => s.bankGives p u b
  | .refresh b => s.planRefresh b ((alGet eyes b).getD [])

/-- Entries of a slot in order of their first cycle. -/
def putEntry (e : PlanEntry) : List PlanEntry → List PlanEntry
  | [] => [e]
  | x :: l => if e.first < x.first then e :: x :: l else x :: putEntry e l

/-- Rows of a partition that no consume point covers in a plan slot (R182). -/
def State.bareRows (s : State) (p : Nat) (y : Plan) (slot : Nat) : Nat :=
  ((s.partRows p).filter fun r => !y.entries.any fun e => match e.op with
    | .lane _ _ _ a b => decide (e.slot ≤ slot) && decide (slot < e.slot + e.len) && decide (a ≤ r / 3) && decide (r / 3 ≤ b)
    | _ => false).length

/-- Whether a lane descriptor stands waiting: its last try met something, or it is fenced behind an earlier one (R182, R201). -/
def State.laneWaits (s : State) (j : LaneJob) : Bool :=
  j.wait || (bit (fieldLE (j.desc.getD []) 2 1) 1 && (s.laneFront j.queue).any fun x => x.id != j.id)

/-- The rows of a partition's descriptors that stand waiting in a slot of their spans are front-starved (R182). -/
def State.starveJobs (s : State) (p slot : Nat) : State :=
  (s.lane.jobs.filter fun j => j.part == p && j.out.isNone && decide (slot < j.stop) && s.laneWaits j).foldl (fun s j =>
    (s.rowCycles p 2 (256 * j.rows.length)).setLaneJob { j with starved := j.starved + 256 }) s

/-- A plan slot carried out. -/
def State.doSlot (s : State) (p : Nat) (i : Inst) (eyes : List (Nat × List Nat)) : State :=
  let s := s.countLapse p
  let s := { s with lane := { s.lane with feeds := s.lane.feeds.filter fun f => !s.partTrio p f.1 } }
  let s := s.starveJobs p i.slot
  let es := (i.plan.entries.filter fun e => e.slot == i.slot).foldl (fun l e => putEntry e l) []
  let s := (es.foldl (fun s e => s.planOp p eyes e) s).passFlush p
  let s := s.rowCycles p 1 (256 * s.bareRows p i.plan i.slot)
  let x := s.planState p
  s.setPlan p { x with running := x.running.map fun i => { i with slot := i.slot + 1 }, spent := x.spent + 256 }

/-- Cycles in which the plan is held at the end of a span, `worked` of its rows' cycles being classed already: the others are
front-starved (R198). -/
def State.holdFor (s : State) (p n worked : Nat) : State :=
  let s := s.bump F.LNP_SLIP_CNT_CYCLES 0 n
  (s.rowCycles p 2 (n * (s.partRows p).length - worked)).spend p n

/-- What the lane descriptors that have ended still owe at a plan slot. -/
def PlanState.holds (x : PlanState) (slot : Nat) : List (Nat × Nat × Nat) := x.hold.filter fun h => decide (h.1 ≤ slot)

/-- Cycles of holds pass. -/
def PlanState.held (x : PlanState) (slot n : Nat) : PlanState :=
  { x with hold := (x.hold.map fun h => if h.1 ≤ slot then (h.1, h.2.1 - n, h.2.2) else h).filter fun h => h.2.1 != 0 }

/-- Whether a lane descriptor of a partition has not ended by the end of its span. -/
def State.laneOver (s : State) (p slot : Nat) : Bool :=
  s.lane.jobs.any fun j => j.part == p && j.out.isNone && decide (j.stop ≤ slot)

/-- Whether the plan is held at a plan slot: by a lane descriptor that has not ended, or by what one needed beyond its span (R198). -/
def State.spanOpen (s : State) (p slot : Nat) : Bool := s.laneOver p slot || !((s.planState p).holds slot).isEmpty

/-- At most 256 cycles of a hold pass, in which every descriptor's own hold runs down; a descriptor that has not ended holds the plan for
all of them. -/
def State.holdSlot (s : State) (p slot : Nat) : State :=
  let x := s.planState p
  let hs := x.holds slot
  let n := if s.laneOver p slot then 256 else min 256 ((hs.map (·.2.1)).foldl max 0)
  (s.setPlan p (x.held slot n)).holdFor p n ((hs.map fun h => min h.2.1 n * h.2.2).sum)

/-- The next plan slot of a partition's running instance. -/
def State.planSlot (s : State) (p : Nat) (eyes : List (Nat × List Nat)) : State :=
  match (s.planState p).running with
  | none => s
  | some i =>
    if s.planeHalted then s
    else
      let s := if Part.state s p = 4 then s.laneAbandonAll p i.slot else s
      if s.spanOpen p i.slot then s.holdSlot p i.slot else if i.plan.slots ≤ i.slot then s else s.doSlot p i eyes

/-- `PLAN_SLOT`: `eyes` are the readings taken by the refreshes of the slot, by bank (R250). -/
def execPlanSlot (part : Fin 8) (eyes : List (Nat × List Nat)) (s : State) : Host.Outcome State Fault Refusal :=
  onPage s Page.TCK fun s => s.planSlot part.val eyes

/-! ### Retirement (R41, R42) -/

/-- The last slot of an instance retires; the next pending one starts when its boundary has been released (R41, R42). -/
def State.retire (s : State) (p : Nat) (i : Inst) : State :=
  let s := s.slowAdd p (s.lclkOf (s.tick.hall - i.start)) (256 * i.plan.slots)
  let s := s.setPlan p { s.planState p with running := none }
  let wait : Bool := match (s.planState p).waiting with
    | [] => true
    | n :: _ => (s.tick.unreleased.map (·.1)).contains n.due
  let s := if wait || s.tick.managerLost || Part.state s p != 2 then s else s.startWaiting p
  (s.passFlush p).arrive.updSeals.switchesBegin

/-- `PLAN_RETIRE`: at hall time `time`. -/
def execPlanRetire (part : Fin 8) (time : BitVec 64) (s : State) : Host.Outcome State Fault Refusal :=
  onPage s Page.TCK fun s =>
    let s := s.passTo time.toNat
    let p := part.val
    match (s.planState p).running with
    | none => s
    | some i =>
      if s.planeHalted ∨ i.slot < i.plan.slots then s
      else
        let s := if Part.state s p = 4 then s.laneAbandonAll p i.plan.slots else s
        if s.spanOpen p i.plan.slots then s else s.retire p i

/-! ### Releases at a worker (R17, R39, R41) -/

/-- The boundaries from `h` to the last one taken. -/
def State.passedFrom (s : State) (h : Nat) : List (Nat × Nat) :=
  match s.tick.lastBoundary with
  | none => []
  | some l =>
    let p := max 1 s.periodNs
    (List.range ((l - h) / p + 1)).filterMap fun i => let b := h + i * p; if b ≤ l then some (s.tickAt b, b) else none

/-- A partition's plan in force waits for the boundaries that passed since a first release came late (R41). -/
def State.waitFor (s : State) (bs : List (Nat × Nat)) (p : Nat) : State :=
  let x := s.planState p
  match x.inForce with
  | none => s
  | some y =>
    if Part.state s p ≠ 2 then s
    else
      let l := bs.map fun b => (⟨y, b.1, b.2, 1 - x.nextBlk, 0⟩ : Inst)
      s.setPlan p { x with waiting := x.waiting ++ l }

/-- A release received after its boundary (R41): after a first one, the passed boundaries' instances wait, and the barrier of each of
their ticks is still to be arrived at. -/
def State.lateRelease (s : State) (h : Nat) : State :=
  if s.tick.released then
    { s with tick := { s.tick with unreleased := s.tick.unreleased.filter fun b => b.2 != h } }
  else
    let bs := s.passedFrom h
    let s := { s with tick := { s.tick with
      released := true, unreleased := bs.filter fun b => b.2 != h, barrier := s.tick.barrier ++ bs } }
    ((List.range 8).foldl (fun s p => s.waitFor bs p) s).arrive

/-- A RELEASE taken by a worker. -/
def State.releaseIn (s : State) (h : Nat) : State :=
  let s := s.wr64 R.TCK_BARRIER_LO 0 h
  if s.tick.lastBoundary.any fun l => decide (h ≤ l) then s.lateRelease h
  else { s with tick := { s.tick with releases := nsAdd s.tick.releases h } }

/-- `RELEASE` on the ring: bit 0 of the type's field is CANCEL. -/
def execRingRelease (hdr : BitVec 64) (payload : List (BitVec 64)) (s : State) : Host.Outcome State Fault Refusal :=
  onRing s 3 hdr payload fun s =>
    if s.isMgr || payload.length != 1 then s
    else if bit hdr.toNat 0 then { s with tick := { s.tick with releases := s.tick.releases.filter (· != word0 payload) } }
    else s.releaseIn (word0 payload)

/-- `RELEASE_TIMEOUT` (R17). -/
def execReleaseTimeout (s : State) : Host.Outcome State Fault Refusal :=
  onUp s fun s =>
    let old := s.tick.unreleased.any fun b => decide (b.2 + 4 * s.periodNs ≤ s.tick.hall)
    if s.isMgr || !s.tick.released || s.tick.managerLost || !old then s
    else ({ s with tick := { s.tick with managerLost := true } }).overrun none

end Sys2Proof.Machine
end

