-- ==== Sys2Proof/Machine/Gate.lean ====
section
/-! DEFINITION. The Lych gate and the test wrapper (R244, R432, R433, R464). -/

namespace Sys2Proof.Machine

open Sys2Proof

/-! ### Opening and erasing -/

/-- An activation in progress is abandoned, one exchanged and not yet alive is reverted. -/
def State.gateRevert (s : State) : State :=
  let s := { s with mgmt := { s.mgmt with act := none } }
  if s.flag F.MGC_STAT_ACTIVATING then
    match s.mgmt.swap with
    | some x => s.revertCore x.core
    | none => s.set0 F.MGC_STAT_ACTIVATING
  else s

/-- Every partition reset with DISSOLVE (R375, R376). -/
def State.resetAll (s : State) : State :=
  let s := (List.range 16).foldl (fun (s : State) g => s.dissolveSlot g) s
  (List.range 8).foldl (fun (s : State) p => if Part.state s p = 0 then s else s.resetPart p) s

/-- Registers of step 2: region entries, KX windows, partner entries, the block list, the jobs of the partitions, the Philox
seeds. -/
def keyReg (off : Nat) : Bool :=
  [R.FBK_REG_KEY, R.FBK_REG_BASE, R.FBK_REG_LEN_LO, R.FBK_REG_LEN_HI, R.FBK_REG_CFG, R.FBK_KX_CFG, R.FBK_KX_VA, R.FBK_KX_PAGES,
   R.FBK_KX_BASE, R.FBP_PTN_NODE, R.FBP_PTN_JOB, R.FBK_BLK_NODE, R.FBP_PART_JOB, R.CNV_SEED_LO, R.CNV_SEED_HI].contains off

/-- Step 2: the region keys erased. -/
def State.eraseKeys (s : State) : State :=
  { s with regs := s.regs.filter fun e => !keyReg (e.1 / 65536), fab := { s.fab with fails := [] } }

/-- Step 3: T0 with the Cold frame, and the management SRAM, erased; the cores held. -/
def State.eraseSram (s : State) : State :=
  let s := { s with t0 := ⟨[], []⟩, coding := { s.coding with open_ := [] }, mgmt := { State.reset.mgmt with sb := s.mgmt.sb } }
  let s := (List.range 4).foldl (fun (s : State) c => s.haltCore c) s
  (s.set0 F.MGC_STAT_STAGED).set0 F.PWA_REPLAN_STAT_BUSY

/-- Steps 1 to 3 of an accepted request (R432); the tower erase begins. -/
def State.gateBegin (s : State) : State :=
  let s := s.gateRevert
  let s := ((s.set1 F.FBP_STAT_GATE_OPENED).set1 F.TSG_STAT_OPENED).irq Page.TSG 1
  let s := (s.resetAll).logErr { block := Page.TSG, code := 0x0911, sev := 1 }
  (({ s with pwr := { s.pwr with fell := false } }).eraseKeys.eraseSram).fset F.TSG_STAT_STATE 0 3

/-- A request to open the gate: refused without authorisation; a gate open or being erased stays so. -/
def State.gateOpen (s : State) : State :=
  if s.pwr.authorised then
    if s.fget F.TSG_STAT_STATE = 0 ∨ s.fget F.TSG_STAT_STATE = 5 then s.gateBegin else s
  else
    (((s.bump F.TSG_REFUSED_CNT_COUNT).set1 F.TSG_STAT_REFUSED).irq Page.TSG 0).logErr { block := Page.TSG, code := 0x0910, sev := 0 }

/-- The level of `pse_tsg_authorised`; its fall during the erase keeps the gate closed (R433). -/
def State.authorise (s : State) (level : Bool) : State :=
  { s with pwr := { s.pwr with authorised := level, fell := s.pwr.fell || (s.fget F.TSG_STAT_STATE == 3 && !level) } }

/-- `OPEN`, by a write of `TSG_CMD` or by the wrapper's instruction 0x02, with `pse_tsg_authorised` at a level. -/
def execOpenGate (via : Option Path) (authorised : Bool) (s : State) : Host.Outcome State Fault Refusal :=
  let s := s.authorise authorised
  match via with
  | some path => fromPath path R.TSG_CMD s fun s => onReg s Page.TSG State.gateOpen
  | none => onReg ({ s with pwr := { s.pwr with wso := [], wdr := [] } }.fset F.TSG_WIR_INSTR 0 2) Page.TSG State.gateOpen

/-- The tower filled with zeros: rows, spares, probe rows (R236). -/
def State.eraseTower (s : State) : State :=
  let blank (o : Org) : Org := { o with img := ⟨[], []⟩ }
  let t := s.tower
  { s with tower := { t with mem := ⟨[], []⟩, test := ⟨[], []⟩, probeRows := [], banks := t.banks.map fun b => (b.1, { b.2 with openRow := none }),
                              orangery := t.orangery.map fun o => (o.1, blank o.2) } }

/-- `GATE_ERASE_DONE`: the gate opens when it has been authorised throughout the erase (R432 step 5, R433). -/
def execGateEraseDone (authorised : Bool) (us : BitVec 16) (s : State) : Host.Outcome State Fault Refusal :=
  onUp s fun s =>
    let s := s.authorise authorised
    if s.fget F.TSG_STAT_STATE = 3 then
      ((s.eraseTower).fset F.TSG_ERASE_US_US 0 us.toNat).fset F.TSG_STAT_STATE 0 (if s.pwr.fell then 5 else 4)
    else s

/-! ### The wrapper's instructions (R464) -/

/-- The data register that a loaded instruction selects: the bypass bit, which holds 0 (log entry 97: PRESUMED, IEEE 1500), the 32 bits of
IDCODE; the others are the pins', the scan chains' and the bank's own, or none. -/
def State.wdrOf (s : State) (i : Nat) : List Bool :=
  if i = 0 then [false]
  else if i = 1 then (List.range 32).map fun k => bit (s.rd R.IDN_IPVER) k
  else []

/-- An instruction loaded into the wrapper, and what its data register gives: while the gate is not OPEN, every instruction other
than 0x00 to 0x02 loads as 0x00. -/
def State.wir (s : State) (i : Nat) (out : List Byte) : State :=
  let ok := decide (i ≤ 2) || s.fget F.TSG_STAT_STATE == 4
  let s := s.fset F.TSG_WIR_INSTR 0 (if ok then i else 0)
  { s with pwr := { s.pwr with wso := if ok then out else [], wdr := s.wdrOf (if ok then i else 0) } }

/-- `WS_BYPASS`. -/
def execWsBypass (s : State) : Host.Outcome State Fault Refusal := .next (s.wir 0x00 [])

/-- `WS_IDCODE`: the data register is the value of `IDN_IPVER`. -/
def execWsIdcode (s : State) : Host.Outcome State Fault Refusal := .next (s.wir 0x01 (leBytes 4 (s.rd R.IDN_IPVER)))

/-- `WS_EXTEST` selects the boundary register, whose cells are the pins themselves. -/
def execWsExtest (s : State) : Host.Outcome State Fault Refusal := .next (s.wir 0x10 [])

/-- `WS_INTEST_SCAN` selects the internal scan chains. -/
def execWsIntestScan (s : State) : Host.Outcome State Fault Refusal := .next (s.wir 0x11 [])

/-- The tower address that a raw row and column of a bank hold, none when no address leads there: rows from 6144 are the spare
rows, columns from 2048 the four spare column groups (R238, R244, R467). -/
def State.rawAddr (s : State) (b row col : Nat) : Option Nat :=
  let used (kind : Nat) (f : Repair → Bool) : Option Nat :=
    (s.tower.repairs.find? fun r => r.kind == kind && r.bank == b && f r).map (·.target)
  let row' := if row < 6144 then (if (used 1 fun r => r.target == row).isSome then none else some row)
    else used 1 fun r => r.spare == row - 6144
  let col' := if col < 2048 then (if (used 2 fun r => r.target == col / 8).isSome then none else some col)
    else (used 2 fun r => r.spare == (col - 2048) / 8).map fun g => 8 * g + col % 8
  match row', col' with
  | some r, some c => some (tAddr b r c)
  | _, _ => none

/-- Number of a cell outside the addressed ones. -/
def rawKey (b row col : Nat) : Nat := (b * 2 ^ 13 + row) * 2 ^ 12 + col

/-- A raw write of a cell. -/
def State.rawPut (s : State) (b row col : Nat) (d : Byte) (bad : Bool) : State :=
  match s.rawAddr b row col with
  | some a => ({ s with tower := { s.tower with mem := s.tower.mem.putRaw a d bad } }).mirrorFill a 1
  | none => { s with tower := { s.tower with test := s.tower.test.putRaw (rawKey b row col) d bad } }

/-- A raw read of a cell. -/
def State.rawGet (s : State) (b row col : Nat) : Byte :=
  match s.rawAddr b row col with
  | some a => s.tower.mem.byte a
  | none => s.tower.test.byte (rawKey b row col)

/-- One command of the wrapper on a bank, which reaches the rows and columns as they lie: spare rows and the probe row open too, a read
gives the bytes stored and no parity check (R244, R467). -/
def State.rawCmd (s : State) (b : Nat) (c : TowerCmd) : State :=
  match c, (s.bank b).openRow with
  | .act r, none => if 6144 ≤ r ∧ r ≤ 6160 then s.setBank b { s.bank b with openRow := some r } else s.bankCmd b 1 c
  | .rd x, some r => if x < 32 then { s with pwr := { s.pwr with wso := s.pwr.wso ++ (List.range 64).map fun i => s.rawGet b r (64 * x + i) } } else s
  | .wr x be data, some r =>
    if x < 32 then
      (List.zipIdx (enabled be data)).foldl (fun s e => match e.1 with
        | some d => s.rawPut b r (64 * x + e.2) d false
        | none => s) s
    else s
  | .raw r k d p, _ => if r ≤ 6160 ∧ k < 2080 then s.rawPut b r k d p else s
  | .peek r k, _ => if r ≤ 6160 ∧ k < 2080 then { s with pwr := { s.pwr with wso := s.pwr.wso ++ [s.rawGet b r k] } } else s
  | c, _ => s.bankCmd b 1 c

/-- `TOWER_ACCESS`: raw access to a bank, only while the gate is open (R244). -/
def execTowerAccess (bank : Fin 512) (cmds : List TowerCmd) (s : State) : Host.Outcome State Fault Refusal :=
  let s := s.wir 0x12 []
  if s.fget F.TSG_STAT_STATE = 4 then onUp s fun s => if s.tower.selfRefresh then s else cmds.foldl (fun s c => s.rawCmd bank c) s
  else .next s

end Sys2Proof.Machine
end

