-- ==== Sys2Proof/Machine/HostData.lean ====
section
/-! DEFINITION. The host data port (R441–R447), the external tier port's answers (R448–R451), stalled accesses and gathers that
release them (R72, R80, R105, R111–R114). -/

namespace Sys2Proof.Machine

open Sys2Proof

/-! ### Requests (R442–R446) -/

/-- Requests outstanding on a channel. -/
def State.hostOutstanding (s : State) (ch : Nat) : Nat := (s.host.busy.filter fun k => k / 4096 == ch).length

/-- A request accepted by a channel: not while 512 are outstanding; a tag in use is answered ABORTED, a READ by the
beats of the halves it covers, one that is malformed by one beat (R444, R446). -/
def State.hostReq (s : State) (ch : Nat) (h : BitVec 128) (ok : Bool) (a : Access) : State :=
  if 512 ≤ s.hostOutstanding ch then s
  else
    let k := ch * 4096 + hdTag h
    let reuse := s.host.busy.contains k
    let s := ({ s with host := { s.host with busy := s.host.busy ++ [k] } }).active 2 (if hdOp h = 2 then (hostHalves h).length else 0)
    if !ok then s.hostAnswer ch h 5 [emptyBeat]
    else if reuse then s.hostAnswer ch h 5 (if hdOp h = 1 then (hostHalves h).map fun _ => emptyBeat else [emptyBeat])
    else s.access a

/-- `WRITE`. -/
def execHostWrite (ch : Fin 4) (hdr : BitVec 128) (beats : List (List Byte × List Bool)) (s : State) : Host.Outcome State Fault Refusal :=
  onPage s Page.XLT fun s =>
    s.hostReq ch hdr (hdrOk hdr 2 && beatsOk hdr beats)
      ⟨1, .hostWrite ch hdr, hdPart hdr, if hdForm hdr = 1 then some (hdSeq hdr) else none, hdAddr hdr, 0,
        (writeBytes hdr beats).map some, 0⟩

/-- `READ`. -/
def execHostRead (ch : Fin 4) (hdr : BitVec 128) (s : State) : Host.Outcome State Fault Refusal :=
  onPage s Page.XLT fun s =>
    s.hostReq ch hdr (hdrOk hdr 1)
      ⟨1, .hostRead ch hdr, hdPart hdr, if hdForm hdr = 1 then some (hdSeq hdr) else none, hdAddr hdr, hdLen hdr, [], 0⟩

/-- A channel's oldest response gives its next beat; with the last one the tag is free (R446). -/
def State.takeBeat (s : State) (ch : Nat) : State :=
  match s.host.rsp.findIdx? fun r => r.ch == ch with
  | none => s
  | some i =>
    match s.host.rsp[i]? with
    | none => s
    | some r =>
      let s := s.active 2 1
      match r.beats with
      | _ :: b :: bs =>
        let r' := { r with beats := b :: bs }
        { s with host := { s.host with rsp := modifyAt (fun _ => r') i s.host.rsp } }
      | _ => { s with host := ⟨s.host.rsp.eraseIdx i, s.host.busy.erase (ch * 4096 + r.tag)⟩ }

/-- `RSP_READY`: the host takes the next beat of a channel's oldest response (R446). `lat` is the time in ns that a class-1
tower read took to this beat, its first (R381). -/
def execRspReady (ch : Fin 4) (lat : Option Nat) (s : State) : Host.Outcome State Fault Refusal :=
  onUp s fun s =>
    if s.host.rsp.any fun r => r.ch == ch.val then
      match lat with
      | some ns => (s.c1Latency ns).takeBeat ch.val
      | none => s.takeBeat ch.val
    else s

/-- `WRITE_ADMIT` (R72, R80). -/
def execWriteAdmit (s : State) : Host.Outcome State Fault Refusal := onPage s Page.XLT fun s => s.passesFlush.retryStalled.colAdvance.updSeals.switchesBegin

/-! ### Gathers (R105, R114) -/

/-- `GATHER_RESPONSE`. -/
def execGatherResponse (gate : Bool) (src : BitVec 20) (msg : List Byte) (damaged : Bool) (s : State) : Host.Outcome State Fault Refusal :=
  onMsg s 1 true gate src msg fun s => (s.gatherIn src.toNat msg damaged).heldRepairs.retryStalled.colAdvance

/-- `GATHER_TIMEOUT`. -/
def execGatherTimeout (slot : Fin 16) (row : Nat) (role : Fin 32) (s : State) : Host.Outcome State Fault Refusal :=
  onUp s fun s => (s.gatherTimeout slot row role).heldRepairs.retryStalled.colAdvance

/-! ### The external tier port (R450) -/

/-- A tag area granule of the external region: the group slot and row whose tag line copy lies in it. -/
def State.tagAt (s : State) (gran : Nat) : Option (Nat × Nat) :=
  (List.range 16).findSome? fun g =>
    if Grp.state s g = 0 ∨ Grp.tier s g = .t1 then none
    else
      let lo := s.fget F.CDE_GRP_TAG_TAG_BASE g * 64
      if lo ≤ gran ∧ gran < lo + 64 * Grp.tagSlots s g then
        (List.range (Grp.rows s g)).findSome? fun r =>
          if (Grp.tagAddrs s g r).any (fun a => a / 64 == gran) then some (g, r) else none
      else none

/-- The external tier port's record of an uncorrectable error. -/
def State.logXt (s : State) (gran : Nat) : State :=
  s.logErr { block := Page.TWC, code := 0x0102, sev := 1, kind := 3, addr := 64 * gran }

/-- `XT_RESPONSE`: an answer of the external tier port, which gives the request's tag back (R451). An uncorrectable error is handled
by what the granule holds (R450). -/
def execXtResponse (granule : BitVec 29) (wr err : Bool) (s : State) : Host.Outcome State Fault Refusal :=
  onUp s fun s =>
    let g := granule.toNat
    let s := s.xtAnswer wr g
    if !err || decide (extSize ≤ 64 * g) then s
    else if wr then (s.logXt g).extPoison g
    else
      match s.tagAt g with
      | some (slot, r) =>
        (({ s with pages := { s.pages with poison := nsAdd s.pages.poison g } }).tagRead slot r).1
      | none =>
        match s.codedAt .t2 (64 * g) with
        | some slot => s.gatherStart slot (g / 64 - s.fget F.CDE_GRP_BASE_BASE slot) .erasure [g % 64]
        | none => (s.logXt g).extPoison g

end Sys2Proof.Machine
end

