-- ==== Sys2Proof/Machine/KioskCmds.lean ====
section
/-! DEFINITION. The Kiosk's requests (R414, R420, R423, R424, R428). Each command serves the request at the head of a mailbox. -/

namespace Sys2Proof.Machine

open Sys2Proof

/-- A request served from a mailbox. -/
def onKiosk (s : State) (mbox : Fin 4) (op : Nat) (f : State → List Byte → Nat → State × Nat × List Byte) :
    Host.Outcome State Fault Refusal :=
  onReg s Page.MGC fun s => s.kskServe mbox.val op f

/-- FW_VER of a core's segment: 0 for one not yet staged (R414). -/
def State.fwVer (s : State) (c : Nat) : Nat :=
  if s.coreState c = 1 ∨ s.mgmt.placed.contains c = true then fieldLE (s.segHead (segBase c)) 4 4 else 0

/-- `HELLO`: the accepted majors lead, as in an answer VERSION; the rest follows (log entry 41). -/
def execKioskHello (mbox : Fin 4) (s : State) : Host.Outcome State Fault Refusal :=
  onKiosk s mbox 0x01 fun s _ _ =>
    let (old, new) := s.majors
    (s, 0, leBytes 1 old ++ leBytes 1 new ++ openBody 0x01 ((List.range 4).map s.fwVer ++ [s.rd R.IDN_IPVER]))

/-- `STATUS`. -/
def execKioskStatus (mbox : Fin 4) (s : State) : Host.Outcome State Fault Refusal :=
  onKiosk s mbox 0x02 fun s _ _ =>
    let cores := (List.range 4).flatMap fun c => [s.coreState c, s.fget F.MGC_CORE_STAT_RESTARTS c]
    (s, 0, openBody 0x02 (cores ++ [s.kskState, s.fget F.TSG_STAT_STATE]))

/-- Sequence of a drained record. -/
def recSeq (r : List Byte) : Nat := fieldLE r 56 4

/-- `LOG_READ`: records from a given sequence, in the payload's first four bytes (log entry 41). -/
def execLogRead (mbox : Fin 4) (s : State) : Host.Outcome State Fault Refusal :=
  onKiosk s mbox 0x10 fun s body _ =>
    if body.length < 4 then (s, 3, [])
    else
      let rs := s.mgmt.log.filter fun r => decide (fieldLE body 0 4 ≤ recSeq r)
      (s, 0, openBody 0x10 (rs.flatMap fun r => r.map (·.toNat)))

/-- Words of a payload. -/
def wordsIn (body : List Byte) : List Nat := (chunks 4 body).map ofLE

/-- `REPAIR_PUT`: repair words to apply with FILL set; READY follows when they are in force (R243, R414). -/
def execRepairPut (mbox : Fin 4) (s : State) : Host.Outcome State Fault Refusal :=
  onKiosk s mbox 0x20 fun s body _ =>
    if body.length % 4 ≠ 0 then (s, 3, [])
    else
      let ws := wordsIn body
      let mg := { s.mgmt with repairs := s.mgmt.repairs ++ ws, putLeft := s.mgmt.putLeft ++ ws, putSeen := true }
      let s := { s with mgmt := mg }
      (if ws.isEmpty && s.kskState == 1 then s.kskReady else s.repairGo, 0, [])

/-- `REPAIR_GET`. -/
def execRepairGet (mbox : Fin 4) (s : State) : Host.Outcome State Fault Refusal :=
  onKiosk s mbox 0x21 fun s _ _ => (s, 0, openBody 0x21 s.mgmt.repairs)

/-- `AGEING_GET`. -/
def execAgeingGet (mbox : Fin 4) (s : State) : Host.Outcome State Fault Refusal :=
  onKiosk s mbox 0x30 fun s _ _ =>
    (s, 0, openBody 0x30 ([s.mgmt.age.guard, s.mgmt.age.slow] ++ s.mgmt.age.fail64 ++ s.mgmt.age.fail32))

/-- `REPLAN`: ACCEPTED; `ro` are the monitors' counts. -/
def execReplan (mbox : Fin 4) (ro : List (BitVec 24)) (s : State) : Host.Outcome State Fault Refusal :=
  onKiosk s mbox 0x31 fun s _ _ =>
    if s.mgmt.replan.isSome ∨ s.coreState 2 ≠ 1 then (s, 4, []) else (s.replanStart (ro.map (·.toNat)), 7, [])

/-- `FW_STAGE`: by Barrath into staging, by the boot agent into place. -/
def execFwStage (mbox : Fin 4) (s : State) : Host.Outcome State Fault Refusal :=
  onKiosk s mbox 0x40 fun s body _ =>
    let (s, st) := if s.fwRuns then s.stage body else s.agentStage body
    (s, st, [])

/-- `FW_ACTIVATE`: of the core that the first payload byte names (log entry 41). -/
def execFwActivate (mbox : Fin 4) (s : State) : Host.Outcome State Fault Refusal :=
  onKiosk s mbox 0x41 fun s body major =>
    if body.isEmpty then (s, 3, [])
    else
      let (s, st) := s.activate (fieldLE body 0 1) major
      (s, st, [])

/-- `FW_REVERT`. -/
def execFwRevert (mbox : Fin 4) (s : State) : Host.Outcome State Fault Refusal :=
  onKiosk s mbox 0x42 fun s body _ =>
    if body.isEmpty then (s, 3, [])
    else
      let (s, st) := s.fwRevert (fieldLE body 0 1)
      (s, st, [])

end Sys2Proof.Machine
end

