-- ==== Sys2Proof/Machine/Starts.lean ====
section
/-! DEFINITION. Resets, starts, the clock monitor and the fallback (R437–R440, R472–R480, R485–R493). -/

namespace Sys2Proof.Machine

open Sys2Proof

/-! ### What a reset keeps -/

/-- A register table cut down to the bits that a mask keeps, by aperture offset; the other bits take their reset values. -/
def keepRegs (mask : Nat → Nat) (regs : List (Nat × BitVec 32)) : List (Nat × BitVec 32) :=
  regs.filterMap fun e =>
    let m := BitVec.ofNat 32 (mask (e.1 / 65536))
    let r := resetAt e.1
    let v := (e.2 &&& m) ||| (r &&& ~~~m)
    if v = r then none else some (e.1, v)

/-- All bits of a word. -/
def allBits : Nat := 0xFFFFFFFF

/-- What a cold reset keeps: the straps as last sampled (R440), the always-on failure count and UNDRAINED (R491, R493). -/
def coldMask (off : Nat) : Nat :=
  if off = R.IDN_STRAP ∨ off = R.CRG_WARM_FAIL then allBits
  else if off = R.CRG_START_STAT then 0x100
  else 0

/-- What a forced cold start keeps besides: `LOCK`, and the fabric identity it locks (R501). -/
def forcedMask (fbpLocked : Bool) (off : Nat) : Nat :=
  if off % 0x1000 = 0x030 ∨ (off = R.FBP_NODE ∧ fbpLocked = true) then allBits else coldMask off

/-- What a warm reset keeps (R489), and the fields whose own meaning spans a warm start (log entry 45). -/
def warmMask (fbpLocked : Bool) (off : Nat) : Nat :=
  if [R.IDN_STRAP, R.IDN_FREQ0, R.IDN_FREQ1, R.IDN_FREQ2, R.CRG_WARM_FAIL, R.CRG_PLLA, R.CRG_PLLB, R.CRG_PLLC, R.CRG_MON_BASE,
      R.ERU_SEQ_NEXT, R.TWR_ORG_ENTRY, R.PWA_RO_BASE, R.CTR_SNAP_SEQ].contains off then allBits
  else if off % 0x1000 = 0x030 ∨ (off = R.FBP_NODE ∧ fbpLocked = true) then allBits
  else if off = R.CRG_START_STAT then 0x100
  else if off = R.TWR_FUSE_STAT then 2 ^ F.TWR_FUSE_STAT_LOADED.lo
  else if off = R.ERU_STAT then 2 ^ F.ERU_STAT_FATAL.lo
  else if off = R.MGC_CORE_STAT then 0xFF00
  else if off = R.PWA_REPLAN_STAT then 0xFFFF0000
  else if off = R.TSG_STAT then 0x207
  else if off = R.FBP_STAT then 2 ^ F.FBP_STAT_GATE_OPENED.lo
  else if off = R.TWC_FILL_STAT then 1
  else if off = R.CNV_STAT then 3
  else 0

/-- The engine held in a cold reset: what has been sent stays sent. -/
def State.toCold (s : State) (mask : Nat → Nat) : State :=
  { State.reset with
    regs := keepRegs mask s.regs, ring := s.ring, fab := { State.reset.fab with sent := s.fab.sent, out := s.fab.out },
    tower := { State.reset.tower with issued := s.tower.issued }, mgmt := { State.reset.mgmt with sb := s.mgmt.sb }, pwr := { State.reset.pwr with authorised := s.pwr.authorised },
    freeCtr := s.freeCtr, pending := s.pending }

/-- The tower as a warm start keeps it, in self-refresh; a copy of the Orangery starts over (R242, R489). -/
def Tower.toWarm (t : Tower) : Tower :=
  let again (o : Org) : Org := if o.state = .copying then { o with copied := false, img := ⟨[], []⟩ } else o
  { State.reset.tower with
    mem := t.mem, banks := t.banks.map fun b => (b.1, { b.2 with openRow := none }), spares := t.spares, repairs := t.repairs,
    orangery := t.orangery.map fun o => (o.1, again o.2), probeRows := t.probeRows, test := t.test, issued := t.issued,
    selfRefresh := true }

/-- The frames of a tier after a warm reset: no partition has any, what a poisoned PME named stays out (R258, R271). -/
def State.framesToWarm (s : State) (f : Frames) : Frames :=
  let out (x : Frame) : Bool := x == .lost || x.pageOf.any fun k => s.pmeBad k.1 k.2
  ⟨.kept, (f.tab.filter fun e => out e.2).map fun e => (e.1, .lost)⟩

/-- The engine held in a warm reset (R488, R489). -/
def State.toWarm (s : State) : State :=
  let fresh := State.reset
  let m := { s.mgmt with
    restarts := List.replicate 4 [], frag := none, act := none, replan := none, relay := [], fwd := [] }
  let pages := { fresh.pages with t1 := s.framesToWarm s.pages.t1, t2 := s.framesToWarm s.pages.t2, poison := s.pages.poison }
  let s' := { fresh with
    regs := keepRegs (warmMask (s.locked Page.FBP)) s.regs, run := .heldWarm,
    eru := { fresh.eru with latch := s.eru.latch, checkFailed := s.eru.checkFailed },
    ctr := { fresh.ctr with cycle := s.ctr.cycle }, tick := { fresh.tick with checks := s.tick.checks },
    tower := s.tower.toWarm, ext := s.ext, pages := pages, freeCtr := s.freeCtr, fab := { fresh.fab with sent := s.fab.sent, out := s.fab.out },
    ring := s.ring, mgmt := m, pending := s.pending }
  { s' with pwr := { fresh.pwr with authorised := s.pwr.authorised, failed := s.pwr.failed, coefs := s.pwr.coefs } }

/-! ### Failed starts (R487, R493) -/

/-- A warm start has failed: counted once (R493). -/
def State.warmFailed (s : State) : State :=
  if s.fget F.CRG_START_STAT_KIND = 1 ∧ s.pwr.failed = false then
    ({ s with pwr := { s.pwr with failed := true } }).bumpSat F.CRG_WARM_FAIL_COUNT
  else s

/-- A start stops at a step. -/
def State.startFail (s : State) (warm : Bool) (step : Nat) : State :=
  let s := { s with run := .stopped warm step }
  let s := (s.fset F.CRG_STAT_PHASE 0 step).fset F.CRG_START_STAT_FAILED_STEP 0 step
  (s.logErr { block := Page.CRG, code := 0x0A12, sev := 2 }).warmFailed

/-- Whether a start's input makes a step fail. -/
def startFails (i : StartIn) (step : Nat) : Bool := i.fail.any fun f => f.val == step

/-! ### Steps of a start (R485, R488) -/

/-- Words of the fuse stream: entries in word 0. -/
abbrev fuseCount (f : List Word) : Nat := bits (f.headD 0).toNat 0 16

/-- Whether the stream's format and CRC match (R462, R463). -/
def fuseOk (f : List Word) : Bool :=
  let w0 := (f.headD 0).toNat
  let n := fuseCount f
  let body := f.take (49 + n)
  decide (n ≤ 2048) && bits w0 16 8 == 1 && bits w0 24 8 == 0 && body.length == 49 + n
    && ((f[49 + n]?).map (·.toNat)) == some (crc32c (body.flatMap fun w => leBytes 4 w.toNat))

/-- The fuse map read (R462, R463). -/
def State.readFuse (s : State) (f : List Word) : State :=
  if fuseOk f then
    let ws := f.map (·.toNat)
    let coefs := (ws.drop 33).take 16
    let s := s.set1 F.TWR_FUSE_STAT_LOADED
    let s := (List.zipIdx ((ws.drop 1).take 32)).foldl (fun s x => s.fset F.PWA_RO_BASE_COUNT x.2 x.1) s
    let s := (List.zipIdx coefs).foldl (fun s x => s.wr R.PWA_COEF x.2 x.1) s
    { s with pwr := { s.pwr with coefs := coefs } }
  else s.logErr { block := Page.TWR, code := 0x0122, sev := 1 }

/-- The fuse map's repair entries applied in order (R239). -/
def State.applyFuses (s : State) (f : List Word) : State :=
  if fuseOk f then (((f.drop 49).take (fuseCount f)).map (·.toNat)).foldl (fun s w => s.applyFuse w) s else s

/-- The lane self-test's results set both masks of every row that failed (R189). -/
def State.rowTests (s : State) (ts : List (Fin 768 × Word × Word)) : State :=
  ts.foldl (fun s t =>
    ((s.wr R.LNF_ROW_LANE_BYP t.1 t.2.1.toNat).wr R.LNF_ROW_COL_BYP t.1 t.2.2.toNat).applyMasks t.1) s

/-- Whether some row has no healthy lane (R487). -/
def deadRow (ts : List (Fin 768 × Word × Word)) : Bool := ts.any fun t => t.2.1.toNat == 0xFFFFFFFF

/-- The Philox check (R156): a failure stands until the next cold start. -/
def State.philoxCheck (s : State) (ok : Bool) : State :=
  if s.flag F.CNV_STAT_KAT_FAIL then s
  else if ok then s.set1 F.CNV_STAT_KAT_OK
  else (((s.set0 F.CNV_STAT_KAT_OK).set1 F.CNV_STAT_KAT_FAIL).logErr { block := Page.CNV, code := 0x0306, sev := 1 }).irq Page.CNV 1

/-- Frequencies in MHz from the PLL fields (R474). -/
def State.freqs (s : State) : State :=
  let b := 100 * clamp 28 48 (s.fget F.CRG_PLLB_N)
  let d (f : Fld) : Nat := b / max 1 (s.fget f)
  let s := (s.fset F.IDN_FREQ0_LCLK 0 (50 * clamp 20 34 (s.fget F.CRG_PLLA_N))).fset F.IDN_FREQ0_ECLK 0 (d F.CRG_PLLB_ECLK_DIV)
  let s := (s.fset F.IDN_FREQ1_TCLK 0 (50 * clamp 20 32 (s.fget F.CRG_PLLC_N))).fset F.IDN_FREQ1_FCLK 0 (d F.CRG_PLLB_FCLK_DIV)
  let s := (s.fset F.IDN_FREQ2_MCLK 0 (d F.CRG_PLLB_MCLK_DIV)).fset F.IDN_FREQ2_PCLK 0 (d F.CRG_PLLB_PCLK_DIV)
  s.fset F.TCK_SLOTS_S 0 (slotsPer (s.fget F.TCK_PERIOD_US) s.lclk)

/-- The count of the last window of a list shown. -/
def State.showWindows (s : State) (ws : List (BitVec 12)) : State :=
  match ws.getLast? with
  | some w => s.fset F.CRG_MON_CNT_COUNT 0 w.toNat
  | none => s

/-- The first count that serves as a monitor base (R478). -/
def baseOf (ws : List (BitVec 12)) : Option Nat := (ws.map (·.toNat)).find? fun n => decide (1680 ≤ n) && decide (n ≤ 2600)

/-- Steps 3 to 7 of a cold start (R485): fuse map, training, repair, fills and tests, release of the cores into their boot
ROMs, where the boot agent serves mailbox 0 (R414). -/
def State.coldRest (s : State) (i : StartIn) : State :=
  if startFails i 3 then s.startFail false 3
  else
    let s := s.readFuse i.fuse
    if startFails i 4 then s.startFail false 4
    else if startFails i 5 then s.startFail false 5
    else
      let s := s.applyFuses i.fuse
      if startFails i 6 || !i.extOk then s.startFail false 6
      else
        let s := ((s.set1 F.TWC_FILL_STAT_DONE).rowTests i.tests).philoxCheck i.philoxOk
        if deadRow i.tests then s.startFail false 6
        else if startFails i 7 then s.startFail false 7
        else
          let s := (s.fset F.CRG_STAT_PHASE 0 8).fset F.CRG_START_US_US 0 i.us.toNat
          (({ s with run := .running }).fset F.MGC_STAT_KIOSK_STATE 0 1).sendCheck

/-- ECLK cycles of a span in which no hall time runs: a reset, a fallback, a start. The cycle counter counts them (R399), and how many
they are is free (log entry 85). -/
def State.openCycles (s : State) : State :=
  match s.free with
  | (n, s) => { s with ctr := { s.ctr with cycle := (s.ctr.cycle + n) % 2 ^ 64 } }

/-- The hardware steps of a cold start, forced or not (R485). -/
def State.coldSteps (s : State) (i : StartIn) (forced : Bool) : State :=
  let s := (s.openCycles.fset F.CRG_START_STAT_KIND 0 (if forced then 2 else 0)).showWindows i.windows
  match baseOf i.windows with
  | none => s.startFail false 1
  | some b =>
    if startFails i 1 then s.startFail false 1
    else
      let s := s.fset F.CRG_MON_BASE_COUNT 0 b
      if startFails i 2 then s.startFail false 2
      else
        let s := s.fset F.CRG_STAT_LOCKED 0 7
        let s := if forced then s.logErr { block := Page.CRG, code := 0x0A13, sev := 1 } else s
        s.coldRest i

/-- Whether 16 consecutive windows lie in range of a base (R488 step 1). -/
def sixteenIn (tol base : Nat) (n : Nat) : List (BitVec 12) → Bool
  | [] => decide (16 ≤ n)
  | w :: l =>
    let d := max base w.toNat - min base w.toNat
    decide (16 ≤ n) || sixteenIn tol base (if 256 * d ≤ base * tol then n + 1 else 0) l

/-- PENDING_WARM lane entries are switched in (R242). -/
def State.lanesApply (s : State) : State :=
  s.tower.orangery.foldl (fun s e =>
    if e.2.state = .pendingWarm then
      { s with tower := { s.tower.addRepair e.2.repair with orangery := alPut s.tower.orangery e.1 { e.2 with state := .active } } }
    else s) s

/-- The cores run on from their kept regions, unless the gate holds them; with core 0 the Kiosk is READY (R414, R433, R488). -/
def State.warmCores (s : State) : State :=
  if s.fget F.TSG_STAT_STATE ≠ 0 then s
  else
    let s := (List.range 4).foldl (fun s c => s.startCore c) s
    if s.fwRuns then s.kskReady else s

/-- The hardware steps of a warm start (R488). -/
def State.warmSteps (s : State) (i : StartIn) : State :=
  let s := { s with pwr := { s.pwr with failed := false } }
  let s := (s.openCycles.fset F.CRG_START_STAT_KIND 0 1).showWindows i.windows
  if startFails i 1 || !sixteenIn (s.fget F.CRG_MON_CFG_TOL) (s.fget F.CRG_MON_BASE_COUNT) 0 i.windows then s.startFail true 1
  else if startFails i 2 then s.startFail true 2
  else
    let s := (s.freqs).fset F.CRG_STAT_LOCKED 0 7
    if startFails i 3 then s.startFail true 3
    else
      let s := s.lanesApply
      if startFails i 4 then s.startFail true 4
      else
        let s := (s.leaveSelfRef).set1 F.TWC_FILL_STAT_WARM
        let s := (s.rowTests i.tests).philoxCheck i.philoxOk
        if startFails i 5 || deadRow i.tests then s.startFail true 5
        else if startFails i 6 then s.startFail true 6
        else
          let s := (List.zipIdx s.pwr.coefs).foldl (fun (s : State) x => s.wr R.PWA_COEF x.2 x.1) s
          let s := (s.fset F.CRG_STAT_PHASE 0 7).fset F.CRG_START_US_US 0 i.us.toNat
          ({ s with run := .running }).warmCores

/-! ### The commands -/

/-- `POWER_ON`: memories hold nothing, the failure count is 0; the engine is held until `pse_rst_cold_n` is released. -/
def execPowerOn (s : State) : Host.Outcome State Fault Refusal :=
  .next { State.reset with freeCtr := s.freeCtr, pending := s.pending }

/-- `COLD_RESET` (R439). -/
def execColdReset (s : State) : Host.Outcome State Fault Refusal := .next (s.toCold coldMask)

/-- `COLD_START`: the straps are sampled at the release (R440). -/
def execColdStart (mgr : Bool) (inst : BitVec 4) (refdly : BitVec 8) (inp : StartIn) (s : State) : Host.Outcome State Fault Refusal :=
  .next (
    if s.run = .heldCold then
      (s.wr R.IDN_STRAP 0 (mgr.toNat + 16 * inst.toNat + 256 * refdly.toNat)).coldSteps inp false
    else s)

/-- Whether some group slot is neither EMPTY nor DRAINED (R491). -/
def State.undrained (s : State) : Bool := (List.range 16).any fun g => Grp.state s g != 0 && Grp.state s g != 3

/-- UNDRAINED as an event of R491 leaves it: assigned by a run that had become READY, otherwise only set. -/
def State.noteUndrained (s : State) : State :=
  if s.undrained then s.set1 F.CRG_START_STAT_UNDRAINED
  else if s.run = .running ∧ s.fget F.CRG_STAT_PHASE = 15 then s.set0 F.CRG_START_STAT_UNDRAINED
  else s

/-- Whether a warm reset is absorbed into a cold start that is not READY (R439); a fallback it ends (R480). -/
def State.coldPending (s : State) : Bool :=
  s.fget F.CRG_START_STAT_KIND != 1 && s.fget F.CRG_STAT_PHASE != 15 && s.run != .fallback

/-- `WARM_RESET` (R488, R491, R493). -/
def execWarmReset (s : State) : Host.Outcome State Fault Refusal :=
  .next (
    if s.run = .heldCold ∨ s.run = .heldWarm ∨ s.coldPending = true then s
    else
      let fell := s.run == .fallback
      let s := if s.fget F.CRG_STAT_PHASE = 15 then s else s.warmFailed
      let s := s.noteUndrained.toWarm
      (s.set1 F.TWC_FILL_STAT_SELFREF).fset F.CRG_START_STAT_FALLBACK_PRIOR 0 fell.toNat)

/-- `WARM_START`: after three failures a forced cold start (R493). -/
def execWarmStart (inp : StartIn) (s : State) : Host.Outcome State Fault Refusal :=
  .next (
    if s.run ≠ .heldWarm then s
    else if s.fget F.CRG_WARM_FAIL_COUNT = 3 then (s.toCold (forcedMask (s.locked Page.FBP))).coldSteps inp true
    else s.warmSteps inp)

/-- `START_LIMIT`: READY has not been reached in time, be it that the engine has fallen back meanwhile (R493). -/
def execStartLimit (s : State) : Host.Outcome State Fault Refusal :=
  .next (if (s.run = .running ∨ s.run = .fallback) ∧ s.fget F.CRG_STAT_PHASE ≠ 15 then s.warmFailed else s)

/-! ### The monitor and the fallback (R478–R480) -/

/-- The engine falls back (R479, R480, R491). -/
def State.fallBack (s : State) (code : Nat) : State :=
  let s := (s.noteUndrained).enterSelfRef
  let s := { s with run := .fallback, coding := { s.coding with stalled := [], fullWait := [] }, host := ⟨[], []⟩ }
  ((s.set1 F.CRG_STAT_FALLBACK).logErr { block := Page.CRG, code := code, sev := 2 }).irq Page.CRG 0

/-- A window of the monitor ends. -/
def State.window (s : State) (n : Nat) : State :=
  let s := s.fset F.CRG_MON_CNT_COUNT 0 n
  if s.pwr.recal then
    if 1680 ≤ n ∧ n ≤ 2600 then
      let s := { s with pwr := { s.pwr with recal := false, outs := 0 } }
      (s.fset F.CRG_MON_BASE_COUNT 0 n).set0 F.CRG_STAT_MON_OUT
    else s
  else
    let b := s.fget F.CRG_MON_BASE_COUNT
    let out := decide (b * s.fget F.CRG_MON_CFG_TOL < 256 * (max b n - min b n))
    let k := if out then s.pwr.outs + 1 else 0
    let s := ({ s with pwr := { s.pwr with outs := min k 2 } }).fset F.CRG_STAT_MON_OUT 0 out.toNat
    if 2 ≤ k ∧ s.run = .running then s.fallBack 0x0A10 else s

/-- `MONITOR_WINDOW`: the monitor runs on in a fallback; a start stopped at step 1 keeps measuring (R487). -/
def execMonitorWindow (count : BitVec 12) (s : State) : Host.Outcome State Fault Refusal :=
  .next (match s.run with
    | .running => s.window count.toNat
    | .fallback => s.window count.toNat
    | .stopped _ 1 => s.fset F.CRG_MON_CNT_COUNT 0 count.toNat
    | _ => s)

/-- `PLL_LOCK_LOSS`: of a PLL that a start has locked and no mode has stopped. -/
def execPllLockLoss (pll : Fin 3) (s : State) : Host.Outcome State Fault Refusal :=
  onUp s fun s =>
    let l := s.fget F.CRG_STAT_LOCKED
    if bit l pll.val then (s.fset F.CRG_STAT_LOCKED 0 (setBit l pll.val false)).fallBack 0x0A11 else s

/-- `RECAL`: a write of `CRG_MON_CFG` with RECAL set. -/
def execRecal (path : Path) (value : Word) (s : State) : Host.Outcome State Fault Refusal :=
  fromPath path R.CRG_MON_CFG s fun s => onReg s Page.CRG fun s =>
    let s := s.fset F.CRG_MON_CFG_TOL 0 (clamp 4 64 (bits value.toNat 0 8))
    if bit value.toNat 8 then { s with pwr := { s.pwr with recal := true } } else s

end Sys2Proof.Machine
end

