-- ==== Sys2Proof/Machine/Power.lean ====
section
/-! DEFINITION. Power: the modes (R481–R484), the budget and the governor (R426, R427, R461). -/

namespace Sys2Proof.Machine

open Sys2Proof

/-! ### Modes -/

/-- Reasons 0x1 and 0x2 of R484: what SLEEP needs (R482). -/
def State.sleepReason (s : State) : Nat :=
  let busy (p : Nat) : Bool := !(s.fget F.PTC_STAT_STATE p == 0 || s.fget F.PTC_STAT_STATE p == 1)
  if (List.range 8).any busy || !s.ptc.switches.isEmpty then 1
  else if (s.upd.parts.any fun u => u.pass.isSome) || s.upd.noise.isSome then 2
  else 0

/-- Whether a queue, enabled or not, holds a descriptor (R197, R483). -/
def State.queueBusy (s : State) : Bool :=
  [QKind.page, QKind.fabric, QKind.collective, QKind.restore].any fun k =>
    (List.range 8).any fun q => s.fget k.head q != s.fget k.tail q

/-- Whether the work of a taken descriptor, an Orangery copy or a probe goes on (R483). -/
def State.unitBusy (s : State) : Bool :=
  !s.pages.jobs.isEmpty || !s.fab.jobs.isEmpty || !s.col.jobs.isEmpty || !s.arc.restores.isEmpty
    || (s.tower.orangery.any fun e => e.2.state == .copying) || s.tower.probe.isSome

/-- Reasons 0x1 to 0x4 of R484: what DEEP-SLEEP needs (R482, R483). -/
def State.deepReason (s : State) : Nat :=
  if s.sleepReason ≠ 0 then s.sleepReason
  else if (List.range 16).any (fun g => s.fget F.CDE_GRP_STAT_STATE g != 0) then 3
  else if s.flag F.FBP_CTRL_EN || s.queueBusy || s.unitBusy then 4
  else 0

/-- Whether a start is not complete, or the engine has fallen back: reason 0x5 of R484. -/
def State.notReady (s : State) : Bool := s.run != .running || s.fget F.CRG_STAT_PHASE != 15

/-- A write of `CRG_PWR_MODE`: the field takes the value; a refused request only leaves its reason (R484). Of several reasons
that hold the lowest is given (log entry 46). -/
def State.modeWrite (s : State) (req reason : Nat) (f : State → State) : State :=
  let s := s.fset F.CRG_PWR_MODE_REQ 0 req
  let r := if reason ≠ 0 then reason else if s.notReady then 5 else 0
  if r = 0 then f s else (s.fset F.CRG_PWR_MODE_REASON 0 r).irq Page.CRG 1

/-- Boundaries that would have fallen while the hall time stood are not taken later (R483, R484). -/
def State.skipAsleep (s : State) : State :=
  match s.tick.lastBoundary with
  | some b => if s.boundaryFrom (b + 1) < s.tick.hall then { s with tick := { s.tick with lastBoundary := none } } else s
  | none => s

/-- RUN asked for (R484): from SLEEP at the next boundary; from DEEP-SLEEP after the PLLs have locked, the vertical interface is
trained and the tower has left self-refresh. -/
def State.wake (s : State) : State :=
  match s.fget F.CRG_STAT_MODE with
  | 0 => { s with pwr := { s.pwr with mode := none } }
  | 1 => { s with pwr := { s.pwr with mode := some 0 } }
  | _ =>
    let s := (((s.fset F.CRG_STAT_LOCKED 0 7).lanesApply).leaveSelfRef).skipAsleep
    { s with pwr := { s.pwr with mode := some 0 } }

/-- `RUN`. -/
def execRunMode (path : Path) (s : State) : Host.Outcome State Fault Refusal :=
  fromPath path R.CRG_PWR_MODE s fun s => onReg s Page.CRG fun s => s.modeWrite 0 0 State.wake

/-- SLEEP accepted: it begins at the next boundary; out of DEEP-SLEEP only RUN leads (log entry 47). -/
def State.goSleep (s : State) : State :=
  if s.fget F.CRG_STAT_MODE = 2 then s else { s with pwr := { s.pwr with mode := some 1 } }

/-- `SLEEP`. -/
def execSleepMode (path : Path) (s : State) : Host.Outcome State Fault Refusal :=
  fromPath path R.CRG_PWR_MODE s fun s => onReg s Page.CRG fun s => s.modeWrite 1 s.sleepReason State.goSleep

/-- DEEP-SLEEP accepted (R483): the tower in self-refresh, PLLs A and C stopped. -/
def State.goDeep (s : State) : State :=
  let s := (s.enterSelfRef).setPlanRef []
  let s := { s with pwr := { s.pwr with mode := none } }
  ((s.fset F.CRG_STAT_LOCKED 0 (s.fget F.CRG_STAT_LOCKED &&& 2)).fset F.CRG_STAT_MODE 0 2).irq Page.CRG 2

/-- `DEEP_SLEEP`. -/
def execDeepSleep (path : Path) (s : State) : Host.Outcome State Fault Refusal :=
  fromPath path R.CRG_PWR_MODE s fun s => onReg s Page.CRG fun s => s.modeWrite 2 s.deepReason State.goDeep

/-! ### Budget and governor -/

/-- `BUDGET_REQUEST`: a write of `PWA_BUDGET_REQ` toggles `pse_pwr_req_tgl` (R461). -/
def execBudgetRequest (path : Path) (value : Word) (s : State) : Host.Outcome State Fault Refusal :=
  fromPath path R.PWA_BUDGET_REQ s fun s => onReg s Page.PWA fun s =>
    let s := s.fset F.PWA_BUDGET_REQ_REQ 0 (bits value.toNat 0 10)
    { s with pwr := { s.pwr with reqTgl := !s.pwr.reqTgl } }

/-- `BUDGET_GRANT`: the last grant before a boundary takes effect there (R426, R461). -/
def execBudgetGrant (grant : BitVec 10) (s : State) : Host.Outcome State Fault Refusal :=
  onReg s Page.PWA fun s =>
    let s := (s.fset F.PWA_BUDGET_GRANT_GRANT 0 grant.toNat).set1 F.PWA_BUDGET_GRANT_VALID
    { s with pwr := { s.pwr with grant := some grant.toNat } }

/-- The demand after an estimate E under budget B (R427). -/
def governed (gov : Bool) (b floor hyst e d : Nat) : Nat :=
  if !gov then 0
  else if b < floor then 63
  else if b < e then min 63 (d + 1)
  else if e + hyst < b then d - 1
  else d

/-- Whole W of a weighted sum of counts over some µs: none for one that is no number at or above 0. -/
def wattsOf (us : Nat) : Num → Option Nat
  | .fin false m e => some (if 0 ≤ e then m * 2 ^ e.toNat / us else m / (2 ^ (-e).toNat * us))
  | .fin true m _ => if m = 0 then some 0 else none
  | _ => none

/-- The estimate E from the activity counted since the last one, weighted by `PWA_COEF` and averaged over the time since then, with what
`more` adds for the activity that no command counts; 0 with every coefficient 0. Which coefficient weights which count, and the rounding,
are log entry 94 (DESIGN CHOICE); weights that give no estimate give a free value (R427, R463). -/
def State.estimate (s : State) (more : Nat) : Nat × State :=
  let us := max 1 ((s.tick.hall - s.pwr.since) / 1000)
  let weigh (a : Num) (c : Nat × Nat) : Num := a.add ((f32 (s.rd R.PWA_COEF (Config.activityCoef c.1 % 16))).mul (.fin false c.2 0))
  let t := { s with pwr := { s.pwr with activity := [], since := s.tick.hall } }
  if (List.range 16).all (fun i => s.rd R.PWA_COEF i == 0) then (0, t)
  else match wattsOf us (s.pwr.activity.foldl weigh (.fin false 0 0)) with
    | some w => (min 1023 (w + more), t)
    | none => (t.free.1 % 1024, t.free.2)

/-- An estimate shown, and the POWER demand it sets (R427). -/
def State.governorStep (s : State) (more : Nat) : State :=
  match s.estimate more with
  | (e, s) =>
    let d := governed (s.flag F.PWA_CTRL_GOV_EN) (s.fget F.PWA_BUDGET_EFF_BUDGET) (s.fget F.PWA_FLOOR_FLOOR)
      (s.fget F.PWA_CTRL_HYST) e (s.fget F.LNF_IDLE_POWER)
    ((s.fset F.PWA_EST_POWER 0 e).fset F.LNF_IDLE_POWER 0 d).fset F.PWA_STAT_GOVERNING 0 (if d = 0 then 0 else 1)

/-- `GOVERNOR_STEP`. -/
def execGovernorStep (est : BitVec 10) (s : State) : Host.Outcome State Fault Refusal :=
  onPage s Page.PWA fun s => s.governorStep est.toNat

end Sys2Proof.Machine
end

