-- ==== Sys2Proof/Machine/View.lean ====
section
/-! DEFINITION. What a read of a register gives (R481, R486, R498–R503): the word held, and the values that follow the engine's
state. -/

namespace Sys2Proof.Machine

open Sys2Proof

/-! ### Clock enables (R481) -/

/-- Blocks of the scheduled plane, which need all their clocks in RUN. -/
def schedPages : List Nat :=
  [Page.TCK, Page.ARB, Page.TWC, Page.LNF, Page.LNP, Page.UPD, Page.CDE, Page.CDJ, Page.CDR]

/-- Pages that need their clocks in every mode. -/
def alwaysPages : List Nat := [Page.IDN, Page.CRG, Page.TTH, Page.ERU, Page.CTR]

/-- Clock enables a page needs, by the offset of the enable register: they read 1 whatever is written. -/
def clkNeeded (p o : Nat) : Nat :=
  if alwaysPages.contains p then clocksUsed p
  else if o = 0x020 then (if schedPages.contains p then clocksUsed p else 0)
  else if o = 0x024 then (if p = Page.TCK then clocksUsed p else 0)
  else 0

/-! ### Values that follow the state -/

/-- The word of bytes 4n to 4n + 3. -/
def wordAt (bs : List Byte) (n : Nat) : Nat := ofLE ((bs.drop (4 * n)).take 4)

/-- `LNF_ROW_STAT` of a row (R192). -/
def State.rowStat (s : State) (r : Nat) : Nat :=
  let owner := s.rowOwner r
  s.rowWidth r + s.rowBatch r * 2 ^ 8 + (s.changePending r).toNat * 2 ^ 16 + (s.fget F.LNF_ROW_STAT_FAULT r) * 2 ^ 17
    + (s.rowNoWork r).toNat * 2 ^ 18 + (owner.getD 0) * 2 ^ 20 + owner.isSome.toNat * 2 ^ 23

/-- `TWR_SPARE_STAT` of a bank (R252). -/
def State.spareStat (s : State) (b : Nat) : Nat :=
  let part (kind n at_ : Nat) : Nat :=
    (List.range n).foldl (fun a i => if nsMem s.tower.spares (b * 64 + kind * 16 + i) then a + 2 ^ (at_ + i) else a) 0
  part 1 16 0 + part 2 4 16 + part 3 2 20

/-- STATE of an Orangery entry (R252). -/
def State.orgState (s : State) (e : Nat) : Nat :=
  match s.org e with
  | none => 0
  | some o => match o.state with
    | .copying => 1
    | .active => 2
    | .pendingWarm => 3

/-- `PTC_SEAT_STAT` of a seat (R383). -/
def State.seatStat (s : State) (seat : Nat) : Nat :=
  (match s.seatHolder seat with
   | some p => p + 8
   | none => 0) + s.seatRows seat * 16

/-- `MGC_KSK_STAT` of a mailbox (R434). -/
def State.kskStat (s : State) (b : Nat) : Nat :=
  let w := s.rd R.MGC_KSK_STAT b
  setBits (setBits w 1 1 (!(s.box b).rep.isEmpty).toNat) 8 8 (min 255 (s.box b).req.length)

/-- `STAT` of a page (R498). -/
def State.headStat (s : State) (p : Nat) : Nat :=
  (s.clkOk p).toNat + (s.locked p).toNat * 2 + (s.rd (irqStatOff p) &&& s.rd (irqEnOff p) != 0).toNat * 4
    + (bit (s.rd (p * 0x1000 + 0x00C)) 3).toNat * 8

/-- Tags of a partner entry in flight (R323). -/
def State.tagsOut (s : State) (e : Nat) : Nat := (s.fab.flight.filter fun f => f.entry == e).length

/-- The 64-bit value behind the LO register of a latched pair, for a path (R503); none for other registers. -/
def State.pairValue (s : State) (p : Path) (off : Nat) : Option Nat :=
  if off = R.TCK_NOW_LO then some s.tick.now
  else if off = R.TCK_HALL_LO then some s.tick.hall
  else if off = R.TCK_CHIP_SEAL_LO then some (s.rd64 R.TCK_CHIP_SEAL_LO)
  else if off = R.CTR_LIVE_LO then some (s.ctrVal (s.sel p F.CTR_SEL_COUNTER))
  else if off = R.CTR_CYCLE_LO then some s.ctr.cycle
  else if off = R.CTR_TD_LO then some (s.ctrTop (s.sel p F.CTR_TD_SEL_PART) (s.sel p F.CTR_TD_SEL_CLASS))
  else if off = R.CDE_GRP_SEAL_LO then some (s.rd64 R.CDE_GRP_SEAL_LO (s.regItem p R.CDE_GRP_SEAL_LO))
  else if off = R.CDE_MBR_SEAL_LO then some (s.rd64 R.CDE_MBR_SEAL_LO (s.regItem p R.CDE_MBR_SEAL_LO))
  else if off = R.CDJ_OLDEST_LO then some (s.rd64 R.CDJ_OLDEST_LO)
  else none

/-- The HI registers of the latched pairs. -/
def latchedHis : List Nat :=
  [R.TCK_NOW_HI, R.TCK_HALL_HI, R.TCK_CHIP_SEAL_HI, R.CTR_LIVE_HI, R.CTR_CYCLE_HI, R.CTR_TD_HI, R.CDE_GRP_SEAL_HI, R.CDE_MBR_SEAL_HI,
   R.CDJ_OLDEST_HI]

/-- A register's word as it stands for item `i` and a path, whatever its page's clocks. -/
def State.shown (s : State) (p : Path) (off i : Nat) : Nat :=
  let shadow := s.shadow (s.sel p F.CTR_SHADOW_SEL_ITEM)
  let w := s.rd off i
  if off = R.LNF_ROW_STAT then s.rowStat i
  else if off = R.LNF_IDLE then setBits w 0 6 s.thermalDemand
  else if off = R.LNF_ROWS_USABLE then ((List.range 768).filter fun r => !s.rowNoWork r).length
  else if off = R.TWR_SPARE_STAT then s.spareStat i
  else if off = R.TWR_ORG_STAT then setBits (setBits w 0 2 (s.orgState (s.sel p F.TWR_ORG_SEL_ENTRY))) 8 9 s.tower.orangery.length
  else if off = R.PGM_FREE_T1 then s.countFrames .t1 Frame.isFree
  else if off = R.PGM_FREE_T2 then s.countFrames .t2 Frame.isFree
  else if off = R.PGM_DIRTY_FREE then s.countFrames .t1 Frame.toFill + s.countFrames .t2 Frame.toFill
  else if off = R.XLT_KV_FREE then s.kvFreeCount i
  else if off = R.FBP_PTN_JOB then setBits w 16 13 (s.tagsOut i)
  else if off = R.PTC_SH_FRAMES then setBits w 16 8 (s.shNeed (s.seatOf i))
  else if off = R.PTC_SEAT_STAT then s.seatStat i
  else if off = R.ERU_STAT then setBits w 0 6 s.eru.queue.length
  else if R.ERU_REC_0 ≤ off ∧ off < R.ERU_REC_0 + 64 then
    wordAt ((s.eru.queue.head?.map (·.bytes)).getD []) ((off - R.ERU_REC_0) / 4)
  else if R.ERU_FATAL_0 ≤ off ∧ off < R.ERU_FATAL_0 + 64 then
    wordAt ((s.eru.latch.map (·.bytes)).getD []) ((off - R.ERU_FATAL_0) / 4)
  else if off = R.CTR_SHADOW_LO then shadow % 2 ^ 32
  else if off = R.CTR_SHADOW_HI then
    (if s.sel p F.CTR_SHADOW_SEL_ITEM < 64 then shadow / 2 ^ 32 % 2 ^ 16 + (bit shadow 63).toNat * 2 ^ 31 else shadow / 2 ^ 32)
  else if off = R.MGC_STAT then
    setBits (if s.sel p F.MGC_KSK_SEL_MBOX = 3 ∧ s.isMgr = false then setBits w 0 2 0 else w) 2 1 (s.fget F.IDN_STRAP_MGR)
  else if off = R.MGC_KSK_STAT then s.kskStat i
  else if R.MGC_KSK_WIN_0 ≤ off ∧ off < R.MGC_KSK_WIN_0 + 2048 then
    wordAt ((s.box (s.sel p F.MGC_KSK_SEL_MBOX)).rep.head?.getD []) ((off - R.MGC_KSK_WIN_0) / 4)
  else if off = R.TSG_STAT then setBits w 8 1 s.pwr.authorised.toNat
  else if latchedHis.contains off then ((alGet s.latched (regKey off (pathCopy p))).getD (resetAt (regKey off 0))).toNat
  else match s.pairValue p off with
    | some v => v % 2 ^ 32
    | none => w

/-- What a read on a path gives (R486, R502, R503): registers of a page without its clocks read 0, but for the common head; until
step 6 of a start pages other than IDN, CRG and ERU read as at reset. -/
def State.readReg (s : State) (p : Path) (off : Nat) : Nat :=
  let page := off / 0x1000
  let o := off % 0x1000
  if 0x1D ≤ page then 0
  else if s.pageUp page = false then resetWord off 0
  else if o = 0x00C then s.headStat page
  else if o < 0x100 then s.rd off
  else if s.clkOk page = false then 0
  else s.shown p off (s.regItem p off)

end Sys2Proof.Machine
end

