-- ==== Sys2Proof/Machine/RegCmds.lean ====
section
/-! DEFINITION. The register commands (R498–R503, R505): plain writes with their clamps and drops, the common head, latched
reads. Registers whose write is a row of its own are written by that row's command alone (log entry 48). -/

namespace Sys2Proof.Machine

open Sys2Proof

/-! ### Clamps -/

/-- Fields held within a range (the register tables). -/
def fieldClamps : List (Fld × Nat × Nat) := [
  (F.CDJ_ACK_TIMEOUT_TIMEOUT, 100, 100000), (F.CDJ_RESEND_INTERVAL, 10, 10000), (F.CDR_REBUILD_SHARE_SHARE, 1, 100),
  (F.CDR_GATHER_TIMEOUT_TIMEOUT, 10, 10000), (F.CDR_STRAG_WIN_TICKS, 16, 65535), (F.UPD_LTAB_COUNT_COUNT, 0, 4096),
  (F.LNP_CHAIN_LIMIT_TICKS, 1, 65535), (F.TWR_PROBE_CFG_INTERVAL, 1, 1024), (F.TTH_THROTTLE_FRAC_FRAC, 32, 63),
  (F.PGM_AGE_TICKS_TICKS, 1, 65535), (F.XLT_SEQ_PAGES_LOG2, 0, 16), (F.FBP_MS_TIMEOUT_US, 1, 16000),
  (F.COL_TIMEOUT_US, 10, 60000), (F.ARC_TAB_COUNT_COUNT, 0, 1024), (F.ARC_ACK_TIMEOUT_US, 10, 60000),
  (F.ARC_WINDOW_RECORDS, 1, 64), (F.PTC_SLOW_WIN_TICKS, 16, 65535), (F.PTC_DRAIN_LIMIT_US, 100, 60000),
  (F.MGC_WDT_CFG_MS, 1, 4000), (F.PWA_REPLAN_HOURS, 1, 8760), (F.CRG_MON_CFG_TOL, 4, 64), (F.CRG_START_LIMIT_MS, 100, 4000)]

/-- The fields of a register brought into their ranges. -/
def State.clampFields (s : State) (off item : Nat) : State :=
  fieldClamps.foldl (fun s c => if c.1.reg = off then s.fset c.1 item (clamp c.2.1 c.2.2 (s.fget c.1 item)) else s) s

/-! ### Drops -/

/-- Configuration of a group slot, written only while the slot is EMPTY (R93). -/
def slotConfig : List Nat :=
  [R.CDE_GRP_CFG, R.CDE_GRP_ID, R.CDE_GRP_BASE, R.CDE_GRP_ROWS, R.CDE_GRP_TAG, R.CDE_MEMB_NODE, R.CDE_MEMB_DOM_A, R.CDE_MEMB_DOM_B]

/-- Whether a partition bound to a seat, or to a higher one when `up` is set, is not EMPTY (R363, R383). -/
def State.seatBound (s : State) (seat : Nat) (up : Bool) : Bool :=
  (List.range 8).any fun p => s.fget F.PTC_STAT_STATE p != 0 && (s.seatOf p == seat || (up && decide (seat < s.seatOf p)))

/-- The kinds of queue. -/
def queueKinds : List QKind := [.lane, .page, .fabric, .collective, .restore]

/-- Whether a write is dropped without a mark of its own. -/
def State.dropsWrite (s : State) (path : Path) (off item v : Nat) : Bool :=
  if off = R.LNF_ROW_SEL then decide (767 < bits v 0 10)
  else if off = R.TWR_ORG_ENTRY then (s.org item).isSome
  else if off = R.PFT_BASE then s.flag F.PFT_CFG_ENABLE
  else if off = R.FBP_NODE then decide (nodeMax < bits v 0 20) || s.flag F.FBP_CTRL_EN
  else if off = R.FBP_FM_NODE ∨ off = R.ARC_TARGET then decide (nodeMax < bits v 0 20)
  else if off = R.FBP_PTN_JOB then decide (4080 ≤ item)
  else if off = R.PTC_CFG ∨ off = R.PTC_SH_BASE ∨ off = R.PTC_SH_FRAMES then s.fget F.PTC_STAT_STATE item != 0
  else if off = R.PTC_SEAT_SLOTS ∨ (R.PTC_SEAT_TRIO_0 ≤ off ∧ off < R.PTC_SEAT_TRIO_0 + 32) then
    s.seatBound (s.sel path F.PTC_SEAT_SEL_SEAT) false
  else if off = R.PTC_SEAT_SRAM then s.seatBound (s.sel path F.PTC_SEAT_SEL_SEAT) true
  else if off = R.TCK_BARRIER_LO then !s.flag F.IDN_STRAP_MGR
  else queueKinds.any fun k => (off == k.cfg + 4 || off == k.cfg + 8) && s.flag k.enable item

/-- Registers written by a command of their own. -/
def ownRegs : List Nat :=
  [R.CDJ_HWM, R.TLM_RD_SEL, R.LNF_KWIDTH_PIN, R.LNF_ROW_LANE_BYP, R.LNF_ROW_COL_BYP, R.TTH_PEAK, R.PGM_MAP_PAGES, R.PFT_CFG,
   R.PGM_LEND_PAGES, R.PGM_LENDER_NODE, R.PGM_BORROWER_NODE, R.FBP_CTRL, R.FBP_PTN_NODE, R.FBK_REG_KEY, R.FBK_REG_BASE,
   R.FBK_REG_LEN_LO, R.FBK_REG_LEN_HI, R.FBK_REG_CFG, R.FBK_KX_CFG, R.FBK_KX_VA, R.FBK_KX_PAGES, R.FBK_KX_BASE, R.FBK_BLK_NODE,
   R.FVC_BUF, R.CTR_CFG, R.ARB_C1_MAX, R.PWA_BUDGET_REQ, R.CRG_PWR_MODE, R.TCK_BARRIER_HI, R.TCK_PLAN_DATA]
  ++ queueKinds.flatMap fun k => [k.cfg, k.cfg + 0xC]

/-! ### What follows a write -/

/-- Work that a register's new value releases or settles. -/
def State.afterWrite (s : State) (off item : Nat) : State :=
  if off = QKind.lane.cfg + 0x18 then (State.laneFlush item s.lane.jobs.length (s.qShowFull .lane item)).updSeals
  else if off = QKind.fabric.cfg + 0x18 then s.flushAll
  else if off = QKind.collective.cfg + 0x18 then s.colAdvance
  else if off = R.PWA_CTRL then
    (if s.flag F.PWA_CTRL_GOV_EN then s else (s.fset F.LNF_IDLE_POWER 0 0).set0 F.PWA_STAT_GOVERNING)
  else if off = R.PWA_FLOOR then s.floorCheck
  else if off = R.TWC_REF_CTRL then s.updHalf
  else if off = R.TLM_SLOT_MODE then
    s.fset F.TLM_SLOT_MODE_CHANGE_PENDING item (s.fget F.TLM_SLOT_MODE_MODE item != ((alGet s.upd.tlm item).map (·.mode)).getD 0).toNat
  else s

/-- The staged time values (R29, R30). -/
def State.stageTime (s : State) (off v : Nat) : Option State :=
  let lo (x : Nat) : Nat := x / 2 ^ 32 * 2 ^ 32 + v
  let hi (x : Nat) : Nat := x % 2 ^ 32 + v * 2 ^ 32
  let t := s.tick
  if off = R.TCK_PERIOD then some { s with tick := { t with stPeriod := clamp 10 1000 (bits v 0 10) } }
  else if off = R.TCK_EPOCH_LO then some { s with tick := { t with stEpoch := lo t.stEpoch } }
  else if off = R.TCK_EPOCH_HI then some { s with tick := { t with stEpoch := hi t.stEpoch } }
  else if off = R.TCK_TICK_BASE_LO then some { s with tick := { t with stBase := lo t.stBase } }
  else if off = R.TCK_TICK_BASE_HI then some { s with tick := { t with stBase := hi t.stBase } }
  else none

/-! ### The common head (R481, R498, R499) -/

/-- A write of a register of the common head; CTRL, IRQ_SET and LOCK have commands of their own. -/
def State.headWrite (s : State) (page o v : Nat) : State :=
  let off := page * 0x1000 + o
  if o = 0x00C then (if bit v 3 then s.wr off 0 (setBit (s.rd off) 3 false) else s)
  else if o = 0x010 then s.wr off 0 (s.rd off &&& (2 ^ 32 - 1 - v))
  else if o = 0x014 then s.wr off 0 (v &&& irqMask page)
  else if o = 0x01C then s.wr off 0 0
  else if o = 0x020 ∨ o = 0x024 ∨ o = 0x028 then s.wr off 0 ((v &&& clocksUsed page) ||| clkNeeded page o)
  else s

/-! ### The commands -/

/-- A plain write of a register outside the common head (R500–R502). -/
def State.plainWrite (s : State) (path : Path) (off v : Nat) : State :=
  let item := s.regItem path off
  let lock := s.locked (off / 0x1000) && (regDefAt off).any RegDef.lockable
  if ownRegs.contains off then s
  else match s.stageTime off v with
    | some s => s
    | none =>
      if lock then s.accWrite off item v
      else if s.dropsWrite path off item v then s
      else if slotConfig.contains off ∧ s.fget F.CDE_GRP_STAT_STATE (s.sel path F.CDE_GRP_SEL_SLOT) ≠ 0 then
        s.set1 F.CDE_GRP_STAT_CFG_DROPPED (s.sel path F.CDE_GRP_SEL_SLOT)
      else if off = R.CDE_MEMB_NODE ∧ nodeMax < bits v 0 20 then s
      else if off = R.PGM_MAP_BASE ∧ s.fget F.PGM_MAP_PAGES_PAGES item ≠ 0 then s.set1 F.PGM_STAT_MAP_REFUSED
      else
        let v := if off = R.ERU_STAT then setBit v 9 false else v
        ((s.accWrite off item v).clampFields off item).afterWrite off item

/-- Whether a page takes a write at an offset: without its clocks only to the common head (R481). -/
def State.takesWrite (s : State) (page o : Nat) : Bool := decide (page < 0x1D) && s.pageUp page && (decide (o < 0x100) || s.clkOk page)

/-- The register port ends an access: `pse_reg_err` tells a reserved page (R455, R502). -/
def State.portEnds (s : State) (path : Path) (page : Nat) : State := match path with
  | .port => { s with regErr := decide (0x1D ≤ page) }
  | .core _ => s

/-- A write at an offset of a page: what it does where the page takes it, and the end of the access at the register port. -/
def State.writeAt (s : State) (path : Path) (page o : Nat) (f : State → State) : State :=
  if s.portUp then (if s.takesWrite page o then f s else s).portEnds path page else s

/-- `REGISTER_WRITE`: a word at an aperture offset (R500). -/
def execRegisterWrite (path : Path) (off : BitVec 17) (value : Word) (s : State) : Host.Outcome State Fault Refusal :=
  let a := off.toNat / 4 * 4
  fromPath path a s fun s => .next (s.writeAt path (a / 0x1000) (a % 0x1000) fun s =>
    if a % 0x1000 < 0x100 then s.headWrite (a / 0x1000) (a % 0x1000) value.toNat else s.plainWrite path a value.toNat)

/-- `LOCK` (R501). -/
def execLockPage (path : Path) (page : BitVec 5) (s : State) : Host.Outcome State Fault Refusal :=
  let a := lockOff page.toNat
  fromPath path a s fun s => .next (s.writeAt path page.toNat 0x030 fun s => s.wr a 0 1)

/-- `IRQ_SET` (R499): the bits that the page's chapter defines. -/
def execIrqSet (path : Path) (page : BitVec 5) (value : Word) (s : State) : Host.Outcome State Fault Refusal :=
  let a := irqStatOff page.toNat
  fromPath path (a + 8) s fun s => .next (
    s.writeAt path page.toNat 0x018 fun s => s.wr a 0 (s.rd a ||| (value.toNat &&& irqMask page.toNat)))

/-- The counters of a page (R505). -/
def pageCounters (p : Nat) : List Nat :=
  match p with
  | 0x02 => [R.TCK_OVERRUN_CNT, R.TCK_LAPSE_CNT]
  | 0x03 => [R.ARB_C1_GRANTS, R.ARB_C2_GRANTS, R.ARB_C3_GRANTS, R.ARB_PREEMPT_CNT, R.ARB_MASK_CNT, R.ARB_C1_OVER_CNT]
  | 0x04 => [R.TWC_PAR_CNT, R.TWC_POISON_CNT, R.TWC_RMW_CNT]
  | 0x06 => [R.TTH_THROTTLE_US, R.TTH_WARN_CNT]
  | 0x07 => [R.LNF_FMT_FAULT_CNT, R.LNF_SAT_CNT, R.LNF_RESIDUE_CNT, R.LNF_BS_PAR_CNT, R.LNF_IDLE_CNT, R.LNF_STAT_PAR_CNT]
  | 0x08 => [R.LNP_EMPTY_CNT, R.LNP_CFULL_CNT, R.LNP_LATE_CNT, R.LNP_DIRECT_KB, R.LNP_SLIP_CNT, R.LNP_REFUSED_CNT, R.LNP_IDX_BAD]
  | 0x09 => [R.UPD_NF_IN, R.UPD_NF_OUT, R.UPD_IDX_BAD, R.UPD_WR_REFUSED, R.UPD_PIN_STALL]
  | 0x0B => [R.CNV_OVF_CNT, R.CNV_FTZ_CNT]
  | 0x0D => [R.CDJ_STALL_CNT, R.CDJ_RESEND_CNT, R.CDJ_RX_DUP, R.CDJ_RX_STALE, R.CDJ_RX_BAD]
  | 0x0E => [R.CDR_ESC_CNT, R.CDR_DEGRADED_CNT, R.CDR_REPAIR_CNT]
  | 0x0F => [R.PGM_EVICT_CNT, R.PGM_DROP_CNT, R.PGM_ZERO_CNT, R.PGM_NOSPACE_CNT, R.PGM_C0_DISCARD_CNT]
  | 0x10 => [R.XLT_COW_CNT, R.XLT_GONE_CNT, R.XLT_PIN_STALL_CNT, R.XLT_MISS_CNT]
  | 0x11 => [R.PFT_MULTI_CNT, R.PFT_STALE_CNT, R.PFT_FULL_CNT]
  | 0x12 => [R.FBP_RETRY_CNT, R.FBP_TIMEOUT_CNT, R.FBP_STALE_CNT, R.FBP_RX_UNEXP, R.FBP_RX_BAD, R.FBP_GATE_REFUSED,
             R.FBP_COMBINED_CNT, R.FBP_RX_HOSTILE]
  | 0x13 => [R.FBK_KEY_FAIL_CNT, R.FBK_BLOCKED_CNT]
  | 0x14 => [R.FVC_TX_KB, R.FVC_RX_KB, R.FVC_CREDIT_STALL, R.FVC_RESV_STALL]
  | 0x15 => [R.COL_TIMEOUT_CNT, R.COL_REFUSED_CNT, R.COL_STALE_CNT]
  | 0x16 => [R.ARC_REC_CNT, R.ARC_RAW_KB, R.ARC_SENT_KB, R.ARC_LZ4_CNT, R.ARC_NEWER_CNT, R.ARC_RESEND_CNT, R.ARC_SKIP_CNT,
             R.ARC_GONE_CNT, R.ARC_RESTORE_CNT]
  | 0x17 => [R.PTC_JOB_CNT, R.PTC_SWITCH_CNT, R.PTC_RESET_CNT]
  | 0x19 => [R.ERU_LOST]
  | 0x1A => [R.MGC_KSK_BAD]
  | 0x1C => [R.TSG_REFUSED_CNT]
  | _ => []

/-- The counters of a page and its `ERR_CNT` set to 0, for every item. -/
def State.clearCounters (s : State) (p : Nat) : State :=
  { s with regs := s.regs.filter fun e => !((errCntOff p :: pageCounters p).contains (e.1 / 65536)) }

/-- `CLR_CNT` (R498, R505). -/
def execClrCnt (path : Path) (page : BitVec 5) (s : State) : Host.Outcome State Fault Refusal :=
  fromPath path (page.toNat * 0x1000 + 0x008) s fun s => .next (
    s.writeAt path page.toNat 0x008 fun s => s.clearCounters page.toNat)

/-- A read of the LO register of a latched pair latches that path's HI value (R403, R503). -/
def State.latchRead (s : State) (path : Path) (off : Nat) : State :=
  match s.pairValue path off with
  | none => s
  | some v =>
    { s with latched := alPut s.latched (regKey (off + 4) (pathCopy path)) (BitVec.ofNat 32 (v / 2 ^ 32)), rdata := BitVec.ofNat 32 v }

/-- Whether a path reads: a core that does not run reads nothing. -/
def State.pathReads (s : State) (path : Path) : Bool :=
  match path with
  | .port => true
  | .core c => s.pageUp Page.MGC && s.fget F.MGC_CORE_STAT_STATE c == 1

/-- `LATCHED_READ`: a page without its clocks reads 0 (R481), a reserved page 0 with `err` (R455); until step 6 of a start pages other
than IDN, CRG and ERU read as at reset (R486). -/
def execLatchedRead (path : Path) (off : BitVec 17) (s : State) : Host.Outcome State Fault Refusal :=
  let a := off.toNat
  let page := a / 0x1000
  .next (
    if s.pathReads path && s.portUp && (decide (0x1D ≤ page) || (s.pairValue path a).isSome) then
      (if s.pageUp page && s.clkOk page && decide (page < 0x1D) then s.latchRead path a
      else if s.pageUp page then { s with rdata := 0 }
      else { s with rdata := BitVec.ofNat 32 (resetWord a 0) }).portEnds path page
    else s)

end Sys2Proof.Machine
end

