-- ==== Sys2Proof/Machine/Sideband.lean ====
section
/-! DEFINITION. The sideband endpoint (R430, R431, R456), Kiosk messages over the ring (R415, R459) and over the fabric (R425). The
bodies of MCTP control messages are those of the standard that R430 names (log entry 43). -/

namespace Sys2Proof.Machine

open Sys2Proof

/-! ### Packets (R430, R456) -/

/-- A message put together from its packets. -/
structure MctpMsg where
  src : Nat
  tag : Nat
  body : List Byte
  deriving DecidableEq, Repr

/-- Byte `i` of a packet. -/
abbrev pktByte (p : List Byte) (i : Nat) : Nat := fieldLE p i 1

/-- Whether the packets after the first follow on it: sequence, source, tag; SOM nowhere, EOM on the last alone. -/
def pktsFollow (src fl : Nat) : Nat → List (List Byte) → Bool
  | _, [] => true
  | n, p :: l =>
    let f := pktByte p 3
    pktByte p 2 == src && f % 16 == fl % 16 && bits f 4 2 == n % 4 && !bit f 7 && (bit f 6 == l.isEmpty)
      && (l.isEmpty || p.length == 68) && pktsFollow src fl (n + 1) l

/-- A message for endpoint `eid` from packets of at most 68 bytes; none when a packet is dropped (R456). -/
def mctpJoin (eid : Nat) (pkts : List (List Byte)) : Option MctpMsg :=
  match pkts with
  | [] => none
  | p :: l =>
    let f := pktByte p 3
    let sizes := pkts.all fun q => decide (5 ≤ q.length) && decide (q.length ≤ 68) && pktByte q 0 % 16 == 1
      && (pktByte q 1 == eid || pktByte q 1 == 0)
    let ok := sizes && bit f 7 && (bit f 6 == l.isEmpty) && (l.isEmpty || p.length == 68)
      && pktsFollow (pktByte p 2) f (bits f 4 2 + 1) l
    if ok then some ⟨pktByte p 2, f % 8, pkts.flatMap fun q => q.drop 4⟩ else none

/-- A message on the sideband of the manager, whose core 0 is the endpoint; its type is `typ` with the check bit at 0. -/
def onSideband (s : State) (pkts : List (List Byte)) (typ : Nat) (f : State → MctpMsg → State) : Host.Outcome State Fault Refusal :=
  onReg s Page.MGC fun s =>
    if s.isMgr && s.fwRuns && s.kskState != 0 then
      match mctpJoin (s.fget F.MGC_MCTP_EID_EID) pkts with
      | some m => if fieldLE m.body 0 1 = typ then f s m else s
      | none => s
    else s

/-- A control request of a command code: `f` gives the state after it, the completion code and what follows it. -/
def onControl (s : State) (pkts : List (List Byte)) (cmd : Nat) (f : State → MctpMsg → List Byte → State × List Byte) :
    Host.Outcome State Fault Refusal :=
  onSideband s pkts 0 fun s m =>
    let h := fieldLE m.body 1 1
    if fieldLE m.body 2 1 ≠ cmd ∨ m.body.length < 3 ∨ bit h 7 = false then s
    else
      let (s, out) := f s m (m.body.drop 3)
      s.sbSend m.src m.tag false (leBytes 1 0 ++ leBytes 1 (h % 32) ++ leBytes 1 cmd ++ out)

/-- `SET_ENDPOINT_ID`. -/
def execSetEndpointId (pkts : List (List (BitVec 8))) (s : State) : Host.Outcome State Fault Refusal :=
  onControl s pkts 1 fun s m d =>
    let e := fieldLE d 1 1
    if d.length ≠ 2 then (s, leBytes 1 3)
    else if 2 ≤ fieldLE d 0 1 % 4 ∨ e = 0 ∨ e = 0xFF then (s, leBytes 1 2)
    else (({ s with mgmt := { s.mgmt with tray := m.src } }).fset F.MGC_MCTP_EID_EID 0 e, leBytes 2 0 ++ leBytes 1 e ++ leBytes 1 0)

/-- `GET_ENDPOINT_ID`. -/
def execGetEndpointId (pkts : List (List (BitVec 8))) (s : State) : Host.Outcome State Fault Refusal :=
  onControl s pkts 2 fun s _ _ => (s, leBytes 1 0 ++ leBytes 1 (s.fget F.MGC_MCTP_EID_EID) ++ leBytes 2 0)

/-- `GET_ENDPOINT_UUID`. -/
def execGetEndpointUuid (pkts : List (List (BitVec 8))) (s : State) : Host.Outcome State Fault Refusal :=
  onControl s pkts 3 fun s _ _ => (s, leBytes 1 0 ++ (List.range 16).map Config.endpointUuid)

/-- `GET_MCTP_VERSION_SUPPORT`: version 1.3. -/
def execGetMctpVersionSupport (pkts : List (List (BitVec 8))) (s : State) : Host.Outcome State Fault Refusal :=
  onControl s pkts 4 fun s _ d =>
    if d.length ≠ 1 then (s, leBytes 1 3)
    else if [0xFF, 0x00, 0x7F].contains (fieldLE d 0 1) then (s, leBytes 1 0 ++ leBytes 1 1 ++ beBytes4 0xF1F3FF00)
    else (s, leBytes 1 0x80)

/-- `GET_MESSAGE_TYPE_SUPPORT`: beside control, type 0x7F. -/
def execGetMessageTypeSupport (pkts : List (List (BitVec 8))) (s : State) : Host.Outcome State Fault Refusal :=
  onControl s pkts 5 fun s _ _ => (s, leBytes 1 0 ++ leBytes 1 1 ++ leBytes 1 0x7F)

/-- `GET_VENDOR_DEFINED_MSG_SUPPORT`: one vendor, by enterprise number. -/
def execGetVendorDefinedMsgSupport (pkts : List (List (BitVec 8))) (s : State) : Host.Outcome State Fault Refusal :=
  onControl s pkts 6 fun s _ d =>
    if d.length ≠ 1 then (s, leBytes 1 3)
    else if fieldLE d 0 1 ≠ 0 then (s, leBytes 1 2)
    else (s, leBytes 1 0 ++ leBytes 1 0xFF ++ leBytes 1 1 ++ beBytes4 (s.rd R.MGC_MCTP_IANA) ++ leBytes 2 0)

/-- A request that a worker answers with one reply: not itself a reply or notification, and its last fragment (R416, R419). -/
def kskAnswered (k : List Byte) : Bool := kskOk k && kskFlags k % 8 == 0

/-- A request forwarded to a worker, its requester kept for the reply; a repeat of the same endpoint takes the place of the one before. -/
def State.forward (s : State) (src tag inst : Nat) (k : List Byte) : State :=
  if kskAnswered k then
    let old := s.mgmt.fwd.filter fun f => !(f.inst == inst && f.seq == kskSeq k && f.eid == src)
    { s with mgmt := { s.mgmt with fwd := old ++ [⟨inst, kskSeq k, src, tag⟩] } }
  else s

/-- A Kiosk message for the engine `inst` of the host: mailbox 1 here, or forwarded to a worker; NOT_READY from one that is not
present (R431). -/
def State.vendorIn (s : State) (src tag inst : Nat) (k : List Byte) : State :=
  if inst = s.ownInst then s.kskIn 1 (.sideband src tag) k
  else if s.tick.checks.any fun c => c.1 == inst then (s.forward src tag inst k).relaySend inst 1 k
  else if !kskOk k then s.kskBad
  else s.sbKiosk src tag false inst (kskMsg (kskMajor k) (kskOp k) (kskSeq k) 1 (leBytes 4 6))

/-- `VENDOR_DEFINED_MESSAGE`: once an endpoint ID is set. -/
def execVendorDefinedMessage (pkts : List (List (BitVec 8))) (s : State) : Host.Outcome State Fault Refusal :=
  onSideband s pkts 0x7F fun s m =>
    let iana := fieldLE ((m.body.drop 1).take 4).reverse 0 4
    if s.fget F.MGC_MCTP_EID_EID = 0 ∨ iana ≠ s.rd R.MGC_MCTP_IANA ∨ m.body.length < 6 then s
    else s.vendorIn m.src m.tag (fieldLE m.body 5 1) (m.body.drop 6)

/-! ### RELAY (R415, R431, R459) -/

/-- A worker's reply or notification goes on to the sideband: a reply to the requester whose SEQUENCE it carries. -/
def State.relayOut (s : State) (inst : Nat) (m : List Byte) : State :=
  if bit (kskFlags m) 1 then s.sbKiosk s.mgmt.tray 0 true inst m
  else match s.mgmt.fwd.find? fun f => f.inst == inst && f.seq == kskSeq m with
    | some f => ({ s with mgmt := { s.mgmt with fwd := s.mgmt.fwd.erase f } }).sbKiosk f.eid f.tag false inst m
    | none => s

/-- A whole Kiosk message arrived over the ring: a request for a mailbox, or a worker's reply or notification for the sideband. -/
def State.relayWhole (s : State) (inst b : Nat) (m : List Byte) : State :=
  if kskFlags m % 4 = 0 then s.kskIn b (.ring inst) m
  else if !kskOk m then s.kskBad
  else if s.isMgr ∧ s.fwRuns = true then s.relayOut inst m
  else s

/-- A piece of up to 16 bytes. -/
def State.relayPiece (s : State) (h : Nat) (payload : List Nat) : State :=
  let inst := bits h 56 4
  let b := bits h 7 2
  let n := bits h 0 5
  let bs := (payload.flatMap (leBytes 8)).take n
  let key := 4 * inst + b
  let sofar := if bit h 5 then [] else (alGet s.mgmt.relay key).getD []
  let all := sofar ++ bs
  if bit h 6 then ({ s with mgmt := { s.mgmt with relay := alDel s.mgmt.relay key } }).relayWhole inst b all
  else { s with mgmt := { s.mgmt with relay := alPut s.mgmt.relay key all } }

/-- `RELAY` on the ring: bytes 1 to 16 in [4:0], first in [5], last in [6], mailbox in [8:7]. -/
def execRingRelay (hdr : BitVec 64) (payload : List (BitVec 64)) (s : State) : Host.Outcome State Fault Refusal :=
  onRing s 5 hdr payload fun s =>
    let n := bits hdr.toNat 0 5
    if n = 0 ∨ 16 < n ∨ ceilDiv n 8 ≠ payload.length then s else s.relayPiece hdr.toNat (payload.map (·.toNat))

/-! ### Kiosk messages over the fabric (R415, R425) -/

/-- `KIOSK_REPLY`: a MESSAGE on VC0. On the response class it is a reply, and one to HELLO tells the peer's majors; on the
request class it is a request for mailbox 2. -/
def execKioskReply (hdr payload : List Byte) (s : State) : Host.Outcome State Fault Refusal :=
  onTxn hdr payload s fun s t =>
    if t.typ ≠ 5 ∨ t.vc ≠ 0 then s
    else
      let m := t.payload.take (16 + fieldLE t.payload 8 2)
      if !t.resp then s.kskIn 2 (.fabric t.src) m
      else if !kskOk m then s.kskBad
      else if kskOp m == 1 && fieldLE m 16 4 == 0 && s.fwRuns then
        { s with mgmt := { s.mgmt with peers := alPut s.mgmt.peers t.src (fieldLE m 20 1, fieldLE m 21 1) } }
      else s

end Sys2Proof.Machine
end

