-- ==== Sys2Proof/Machine/Dispatch.lean ====
section
/-! DEFINITION. The dispatch: one arm per command, each one direct call of its meaning. -/

namespace Sys2Proof.Machine

open Sys2Proof

/-- The effect of a command on everything but the queue. -/
def exec (i : Instr) (s : State) : Host.Outcome State Fault Refusal :=
  match i with
  | .hallStrobe time here => Sys2Proof.Machine.execHallStrobe time here s
  | .holdover => Sys2Proof.Machine.execHoldover s
  | .holdoverTimeout => Sys2Proof.Machine.execHoldoverTimeout s
  | .holdoverEnd => Sys2Proof.Machine.execHoldoverEnd s
  | .tickBoundary => Sys2Proof.Machine.execTickBoundary s
  | .planSlot part eyes => Sys2Proof.Machine.execPlanSlot part eyes s
  | .feedEntry part trio pair rows => Sys2Proof.Machine.execFeedEntry part trio pair rows s
  | .laneEntry part queue kind split first last slots => Sys2Proof.Machine.execLaneEntry part queue kind split first last slots s
  | .updateSlot part cycles => Sys2Proof.Machine.execUpdateSlot part cycles s
  | .bankEntry bank user cmds => Sys2Proof.Machine.execBankEntry bank user cmds s
  | .refreshEntry bank eyes => Sys2Proof.Machine.execRefreshEntry bank eyes s
  | .planRetire part time => Sys2Proof.Machine.execPlanRetire part time s
  | .timeCommit path => Sys2Proof.Machine.execTimeCommit path s
  | .timeEpoch => Sys2Proof.Machine.execTimeEpoch s
  | .planCommit path part => Sys2Proof.Machine.execPlanCommit path part s
  | .planCheckDone part => Sys2Proof.Machine.execPlanCheckDone part s
  | .planCancel path part => Sys2Proof.Machine.execPlanCancel path part s
  | .planDataAccess path wr => Sys2Proof.Machine.execPlanDataAccess path wr s
  | .barrierArm path hi => Sys2Proof.Machine.execBarrierArm path hi s
  | .ringRelease hdr payload => Sys2Proof.Machine.execRingRelease hdr payload s
  | .releaseTimeout => Sys2Proof.Machine.execReleaseTimeout s
  | .ringSeal hdr payload => Sys2Proof.Machine.execRingSeal hdr payload s
  | .ringArrival hdr payload => Sys2Proof.Machine.execRingArrival hdr payload s
  | .ringCounter hdr payload => Sys2Proof.Machine.execRingCounter hdr payload s
  | .ringRelay hdr payload => Sys2Proof.Machine.execRingRelay hdr payload s
  | .ringCheck hdr payload => Sys2Proof.Machine.execRingCheck hdr payload s
  | .checkTimeout => Sys2Proof.Machine.execCheckTimeout s
  | .hostWrite ch hdr beats => Sys2Proof.Machine.execHostWrite ch hdr beats s
  | .hostRead ch hdr => Sys2Proof.Machine.execHostRead ch hdr s
  | .writeAdmit => Sys2Proof.Machine.execWriteAdmit s
  | .deltaSend entry damaged => Sys2Proof.Machine.execDeltaSend entry damaged s
  | .deltaRecord gate src msg => Sys2Proof.Machine.execDeltaRecord gate src msg s
  | .ackSend slot member => Sys2Proof.Machine.execAckSend slot member s
  | .ack gate src msg => Sys2Proof.Machine.execAck gate src msg s
  | .nak gate src msg => Sys2Proof.Machine.execNak gate src msg s
  | .resend entry holder => Sys2Proof.Machine.execResend entry holder s
  | .ackTimeout entry holder => Sys2Proof.Machine.execAckTimeout entry holder s
  | .memberSeal gate src msg => Sys2Proof.Machine.execMemberSeal gate src msg s
  | .groupSeal gate src msg => Sys2Proof.Machine.execGroupSeal gate src msg s
  | .installGroup path => Sys2Proof.Machine.execInstallGroup path s
  | .zeroFillDone slot => Sys2Proof.Machine.execZeroFillDone slot s
  | .tagCheckDone slot => Sys2Proof.Machine.execTagCheckDone slot s
  | .drainSlot path => Sys2Proof.Machine.execDrainSlot path s
  | .resume path => Sys2Proof.Machine.execResume path s
  | .dissolve path => Sys2Proof.Machine.execDissolve path s
  | .declareLost path role => Sys2Proof.Machine.execDeclareLost path role s
  | .rebuildInstallDone slot => Sys2Proof.Machine.execRebuildInstallDone slot s
  | .replace path role node => Sys2Proof.Machine.execReplace path role node s
  | .startRebuild path role => Sys2Proof.Machine.execStartRebuild path role s
  | .rebuildRow slot => Sys2Proof.Machine.execRebuildRow slot s
  | .gatherRequest gate src msg => Sys2Proof.Machine.execGatherRequest gate src msg s
  | .gatherResponse gate src msg damaged => Sys2Proof.Machine.execGatherResponse gate src msg damaged s
  | .gatherTimeout slot row role => Sys2Proof.Machine.execGatherTimeout slot row role s
  | .repairRecord gate src msg => Sys2Proof.Machine.execRepairRecord gate src msg s
  | .reseed gate src msg => Sys2Proof.Machine.execReseed gate src msg s
  | .arrival gate src msg => Sys2Proof.Machine.execArrival gate src msg s
  | .arrivalMissing slot role tick => Sys2Proof.Machine.execArrivalMissing slot role tick s
  | .stragWindowEnd slot => Sys2Proof.Machine.execStragWindowEnd slot s
  | .updPassGo path => Sys2Proof.Machine.execUpdPassGo path s
  | .passBegin part => Sys2Proof.Machine.execPassBegin part s
  | .layerBegin part => Sys2Proof.Machine.execLayerBegin part s
  | .passEnd part => Sys2Proof.Machine.execPassEnd part s
  | .sgdMom part => Sys2Proof.Machine.execSgdMom part s
  | .sgdNesterov part => Sys2Proof.Machine.execSgdNesterov part s
  | .adamw part => Sys2Proof.Machine.execAdamw part s
  | .lion part => Sys2Proof.Machine.execLion part s
  | .adagradRow part => Sys2Proof.Machine.execAdagradRow part s
  | .genOnly part => Sys2Proof.Machine.execGenOnly part s
  | .nopOp d a b c => Sys2Proof.Machine.execNopOp d a b c s
  | .movOp d a b c => Sys2Proof.Machine.execMovOp d a b c s
  | .addOp d a b c => Sys2Proof.Machine.execAddOp d a b c s
  | .subOp d a b c => Sys2Proof.Machine.execSubOp d a b c s
  | .mulOp d a b c => Sys2Proof.Machine.execMulOp d a b c s
  | .fmaOp d a b c => Sys2Proof.Machine.execFmaOp d a b c s
  | .fnmaOp d a b c => Sys2Proof.Machine.execFnmaOp d a b c s
  | .divOp d a b c => Sys2Proof.Machine.execDivOp d a b c s
  | .sqrtOp d a b c => Sys2Proof.Machine.execSqrtOp d a b c s
  | .maxOp d a b c => Sys2Proof.Machine.execMaxOp d a b c s
  | .minOp d a b c => Sys2Proof.Machine.execMinOp d a b c s
  | .absOp d a b c => Sys2Proof.Machine.execAbsOp d a b c s
  | .negOp d a b c => Sys2Proof.Machine.execNegOp d a b c s
  | .signOp d a b c => Sys2Proof.Machine.execSignOp d a b c s
  | .selOp d a b c => Sys2Proof.Machine.execSelOp d a b c s
  | .sqrOp d a b c => Sys2Proof.Machine.execSqrOp d a b c s
  | .progLoad path value => Sys2Proof.Machine.execProgLoad path value s
  | .updFlip path value => Sys2Proof.Machine.execUpdFlip path value s
  | .tlmRdSelWrite path value => Sys2Proof.Machine.execTlmRdSelWrite path value s
  | .tlmClear path value => Sys2Proof.Machine.execTlmClear path value s
  | .tlmClearAll path value => Sys2Proof.Machine.execTlmClearAll path value s
  | .noiseGo path => Sys2Proof.Machine.execNoiseGo path s
  | .noiseAbort path written => Sys2Proof.Machine.execNoiseAbort path written s
  | .noiseDone => Sys2Proof.Machine.execNoiseDone s
  | .bypassWrite path cols value => Sys2Proof.Machine.execBypassWrite path cols value s
  | .kwidthPinWrite path value => Sys2Proof.Machine.execKwidthPinWrite path value s
  | .rowTest path => Sys2Proof.Machine.execRowTest path s
  | .rowTestDone lanes cols => Sys2Proof.Machine.execRowTestDone lanes cols s
  | .idleWindow len => Sys2Proof.Machine.execIdleWindow len s
  | .streamMm queue faults => Sys2Proof.Machine.execStreamMm queue faults s
  | .gatherPool queue => Sys2Proof.Machine.execGatherPool queue s
  | .reduceAdd queue => Sys2Proof.Machine.execReduceAdd queue s
  | .chainEnd queue => Sys2Proof.Machine.execChainEnd queue s
  | .chainLimit queue => Sys2Proof.Machine.execChainLimit queue s
  | .operandLand queue => Sys2Proof.Machine.execOperandLand queue s
  | .qTailWrite path kind value => Sys2Proof.Machine.execQTailWrite path kind value s
  | .qEnable path kind value => Sys2Proof.Machine.execQEnable path kind value s
  | .arbGrant res reqs holder cmds damage => Sys2Proof.Machine.execArbGrant res reqs holder cmds damage s
  | .quotaWindow => Sys2Proof.Machine.execQuotaWindow s
  | .autonomousRefresh bank eyes => Sys2Proof.Machine.execAutonomousRefresh bank eyes s
  | .apply path => Sys2Proof.Machine.execApply path s
  | .orangeryCopyDone entry => Sys2Proof.Machine.execOrangeryCopyDone entry s
  | .tempSample readings => Sys2Proof.Machine.execTempSample readings s
  | .critClear path => Sys2Proof.Machine.execCritClear path s
  | .probeGo path => Sys2Proof.Machine.execProbeGo path s
  | .probeDone fails => Sys2Proof.Machine.execProbeDone fails s
  | .tthPeakWrite path => Sys2Proof.Machine.execTthPeakWrite path s
  | .mapPages part => Sys2Proof.Machine.execMapPages part s
  | .unmap part => Sys2Proof.Machine.execUnmap part s
  | .movePages part => Sys2Proof.Machine.execMovePages part s
  | .pageMoveDone part page => Sys2Proof.Machine.execPageMoveDone part page s
  | .reserveFrames part => Sys2Proof.Machine.execReserveFrames part s
  | .seqAdd part => Sys2Proof.Machine.execSeqAdd part s
  | .seqShare part => Sys2Proof.Machine.execSeqShare part s
  | .seqFree part => Sys2Proof.Machine.execSeqFree part s
  | .cow part => Sys2Proof.Machine.execCow part s
  | .pftLookup part => Sys2Proof.Machine.execPftLookup part s
  | .pftInsert part => Sys2Proof.Machine.execPftInsert part s
  | .pftRemove part => Sys2Proof.Machine.execPftRemove part s
  | .pinRelease part page => Sys2Proof.Machine.execPinRelease part page s
  | .agerPass => Sys2Proof.Machine.execAgerPass s
  | .evict => Sys2Proof.Machine.execEvict s
  | .zeroFill t2 frame => Sys2Proof.Machine.execZeroFill t2 frame s
  | .mapPagesWrite path value => Sys2Proof.Machine.execMapPagesWrite path value s
  | .pftEnable path value => Sys2Proof.Machine.execPftEnable path value s
  | .loan gate src msg => Sys2Proof.Machine.execLoan gate src msg s
  | .grant gate src msg => Sys2Proof.Machine.execGrant gate src msg s
  | .loanTimeout part page => Sys2Proof.Machine.execLoanTimeout part page s
  | .returnFrame gate src msg => Sys2Proof.Machine.execReturnFrame gate src msg s
  | .revoke gate src msg => Sys2Proof.Machine.execRevoke gate src msg s
  | .lendPagesWrite path value => Sys2Proof.Machine.execLendPagesWrite path value s
  | .lenderNodeWrite path value => Sys2Proof.Machine.execLenderNodeWrite path value s
  | .borrowerNodeWrite path value => Sys2Proof.Machine.execBorrowerNodeWrite path value s
  | .fabricEnable path value => Sys2Proof.Machine.execFabricEnable path value s
  | .fabLoad hdr payload => Sys2Proof.Machine.execFabLoad hdr payload s
  | .fabStore hdr payload => Sys2Proof.Machine.execFabStore hdr payload s
  | .atomic hdr payload => Sys2Proof.Machine.execAtomic hdr payload s
  | .addI32 hdr payload => Sys2Proof.Machine.execAddI32 hdr payload s
  | .addI64 hdr payload => Sys2Proof.Machine.execAddI64 hdr payload s
  | .addF32 hdr payload => Sys2Proof.Machine.execAddF32 hdr payload s
  | .minS32 hdr payload => Sys2Proof.Machine.execMinS32 hdr payload s
  | .minS64 hdr payload => Sys2Proof.Machine.execMinS64 hdr payload s
  | .minU32 hdr payload => Sys2Proof.Machine.execMinU32 hdr payload s
  | .minU64 hdr payload => Sys2Proof.Machine.execMinU64 hdr payload s
  | .minF32 hdr payload => Sys2Proof.Machine.execMinF32 hdr payload s
  | .maxS32 hdr payload => Sys2Proof.Machine.execMaxS32 hdr payload s
  | .maxS64 hdr payload => Sys2Proof.Machine.execMaxS64 hdr payload s
  | .maxU32 hdr payload => Sys2Proof.Machine.execMaxU32 hdr payload s
  | .maxU64 hdr payload => Sys2Proof.Machine.execMaxU64 hdr payload s
  | .maxF32 hdr payload => Sys2Proof.Machine.execMaxF32 hdr payload s
  | .cas32 hdr payload => Sys2Proof.Machine.execCas32 hdr payload s
  | .cas64 hdr payload => Sys2Proof.Machine.execCas64 hdr payload s
  | .response hdr payload => Sys2Proof.Machine.execResponse hdr payload s
  | .teardown hdr payload => Sys2Proof.Machine.execTeardown hdr payload s
  | .fabGet part => Sys2Proof.Machine.execFabGet part s
  | .fabPut part => Sys2Proof.Machine.execFabPut part s
  | .atomicDescriptor part => Sys2Proof.Machine.execAtomicDescriptor part s
  | .transactionSend vc tag => Sys2Proof.Machine.execTransactionSend vc tag s
  | .msTimeout entry tag => Sys2Proof.Machine.execMsTimeout entry tag s
  | .generationStep entry => Sys2Proof.Machine.execGenerationStep entry s
  | .partnerWrite path value => Sys2Proof.Machine.execPartnerWrite path value s
  | .regionEntryWrite path off value => Sys2Proof.Machine.execRegionEntryWrite path off value s
  | .blockRemove path value => Sys2Proof.Machine.execBlockRemove path value s
  | .fvcBufWrite path value => Sys2Proof.Machine.execFvcBufWrite path value s
  | .linkUp initial => Sys2Proof.Machine.execLinkUp initial s
  | .linkDown => Sys2Proof.Machine.execLinkDown s
  | .linkRetry => Sys2Proof.Machine.execLinkRetry s
  | .creditReturn vc resp => Sys2Proof.Machine.execCreditReturn vc resp s
  | .colInstall path => Sys2Proof.Machine.execColInstall path s
  | .colRemove path => Sys2Proof.Machine.execColRemove path s
  | .allReduce part => Sys2Proof.Machine.execAllReduce part s
  | .reduceScatter part => Sys2Proof.Machine.execReduceScatter part s
  | .allGather part => Sys2Proof.Machine.execAllGather part s
  | .broadcast part => Sys2Proof.Machine.execBroadcast part s
  | .allToAll part => Sys2Proof.Machine.execAllToAll part s
  | .colBarrier part => Sys2Proof.Machine.execColBarrier part s
  | .kvRing part => Sys2Proof.Machine.execKvRing part s
  | .colSegment gate src msg => Sys2Proof.Machine.execColSegment gate src msg s
  | .colReady gate src msg => Sys2Proof.Machine.execColReady gate src msg s
  | .barrierArrival gate src msg => Sys2Proof.Machine.execBarrierArrival gate src msg s
  | .colTimeout part => Sys2Proof.Machine.execColTimeout part s
  | .archiveArm path full => Sys2Proof.Machine.execArchiveArm path full s
  | .archiveAbort path => Sys2Proof.Machine.execArchiveAbort path s
  | .archivePoint part => Sys2Proof.Machine.execArchivePoint part s
  | .captureRecord part => Sys2Proof.Machine.execCaptureRecord part s
  | .archiveAck gate src msg => Sys2Proof.Machine.execArchiveAck gate src msg s
  | .archiveResend part seq => Sys2Proof.Machine.execArchiveResend part seq s
  | .restore part => Sys2Proof.Machine.execRestore part s
  | .createPart path => Sys2Proof.Machine.execCreatePart path s
  | .switchPart path => Sys2Proof.Machine.execSwitchPart path s
  | .switchDone seat time => Sys2Proof.Machine.execSwitchDone seat time s
  | .resetPart path => Sys2Proof.Machine.execResetPart path s
  | .drainLimit part => Sys2Proof.Machine.execDrainLimit part s
  | .resetDone part => Sys2Proof.Machine.execResetDone part s
  | .slowdownWindow => Sys2Proof.Machine.execSlowdownWindow s
  | .xtResponse granule wr err => Sys2Proof.Machine.execXtResponse granule wr err s
  | .eruPop path => Sys2Proof.Machine.execEruPop path s
  | .eruInject path value => Sys2Proof.Machine.execEruInject path value s
  | .fatalClear path => Sys2Proof.Machine.execFatalClear path s
  | .ctrCfgWrite path value => Sys2Proof.Machine.execCtrCfgWrite path value s
  | .preload path value => Sys2Proof.Machine.execPreload path value s
  | .snapshot path host => Sys2Proof.Machine.execSnapshot path host s
  | .freeze path host => Sys2Proof.Machine.execFreeze path host s
  | .unfreeze path host => Sys2Proof.Machine.execUnfreeze path host s
  | .snapTime => Sys2Proof.Machine.execSnapTime s
  | .latchedRead path off => Sys2Proof.Machine.execLatchedRead path off s
  | .restart path => Sys2Proof.Machine.execRestart path s
  | .haltCore path => Sys2Proof.Machine.execHaltCore path s
  | .wdtKick path value => Sys2Proof.Machine.execWdtKick path value s
  | .watchdogExpiry core => Sys2Proof.Machine.execWatchdogExpiry core s
  | .kioskDoorbell path => Sys2Proof.Machine.execKioskDoorbell path s
  | .kioskTake path => Sys2Proof.Machine.execKioskTake path s
  | .kioskHello mbox => Sys2Proof.Machine.execKioskHello mbox s
  | .kioskStatus mbox => Sys2Proof.Machine.execKioskStatus mbox s
  | .logRead mbox => Sys2Proof.Machine.execLogRead mbox s
  | .repairPut mbox => Sys2Proof.Machine.execRepairPut mbox s
  | .repairGet mbox => Sys2Proof.Machine.execRepairGet mbox s
  | .ageingGet mbox => Sys2Proof.Machine.execAgeingGet mbox s
  | .replan mbox ro => Sys2Proof.Machine.execReplan mbox ro s
  | .fwStage mbox => Sys2Proof.Machine.execFwStage mbox s
  | .fwActivate mbox => Sys2Proof.Machine.execFwActivate mbox s
  | .coreExchange ver area => Sys2Proof.Machine.execCoreExchange ver area s
  | .fwRevert mbox => Sys2Proof.Machine.execFwRevert mbox s
  | .replanTimer ro => Sys2Proof.Machine.execReplanTimer ro s
  | .replanNow path value ro => Sys2Proof.Machine.execReplanNow path value ro s
  | .budgetRequest path value => Sys2Proof.Machine.execBudgetRequest path value s
  | .budgetGrant grant => Sys2Proof.Machine.execBudgetGrant grant s
  | .governorStep est => Sys2Proof.Machine.execGovernorStep est s
  | .setEndpointId pkts => Sys2Proof.Machine.execSetEndpointId pkts s
  | .getEndpointId pkts => Sys2Proof.Machine.execGetEndpointId pkts s
  | .getEndpointUuid pkts => Sys2Proof.Machine.execGetEndpointUuid pkts s
  | .getMctpVersionSupport pkts => Sys2Proof.Machine.execGetMctpVersionSupport pkts s
  | .getMessageTypeSupport pkts => Sys2Proof.Machine.execGetMessageTypeSupport pkts s
  | .getVendorDefinedMsgSupport pkts => Sys2Proof.Machine.execGetVendorDefinedMsgSupport pkts s
  | .vendorDefinedMessage pkts => Sys2Proof.Machine.execVendorDefinedMessage pkts s
  | .openGate via authorised => Sys2Proof.Machine.execOpenGate via authorised s
  | .gateEraseDone authorised us => Sys2Proof.Machine.execGateEraseDone authorised us s
  | .wsBypass => Sys2Proof.Machine.execWsBypass s
  | .wsIdcode => Sys2Proof.Machine.execWsIdcode s
  | .wsExtest => Sys2Proof.Machine.execWsExtest s
  | .wsIntestScan => Sys2Proof.Machine.execWsIntestScan s
  | .towerAccess bank cmds => Sys2Proof.Machine.execTowerAccess bank cmds s
  | .coldReset => Sys2Proof.Machine.execColdReset s
  | .coldStart mgr inst refdly inp => Sys2Proof.Machine.execColdStart mgr inst refdly inp s
  | .warmReset => Sys2Proof.Machine.execWarmReset s
  | .warmStart inp => Sys2Proof.Machine.execWarmStart inp s
  | .startLimit => Sys2Proof.Machine.execStartLimit s
  | .monitorWindow count => Sys2Proof.Machine.execMonitorWindow count s
  | .pllLockLoss pll => Sys2Proof.Machine.execPllLockLoss pll s
  | .recal path value => Sys2Proof.Machine.execRecal path value s
  | .runMode path => Sys2Proof.Machine.execRunMode path s
  | .sleepMode path => Sys2Proof.Machine.execSleepMode path s
  | .deepSleep path => Sys2Proof.Machine.execDeepSleep path s
  | .lockPage path page => Sys2Proof.Machine.execLockPage path page s
  | .irqSet path page value => Sys2Proof.Machine.execIrqSet path page value s
  | .clrCnt path page => Sys2Proof.Machine.execClrCnt path page s
  | .cdjHwmWrite path => Sys2Proof.Machine.execCdjHwmWrite path s
  | .arbC1MaxWrite path => Sys2Proof.Machine.execArbC1MaxWrite path s
  | .registerWrite path off value => Sys2Proof.Machine.execRegisterWrite path off value s
  | .powerOn => Sys2Proof.Machine.execPowerOn s
  | .managementSramParityError core addr => Sys2Proof.Machine.execManagementSramParityError core addr s
  | .rspReady ch lat => Sys2Proof.Machine.execRspReady ch lat s
  | .kioskReply hdr payload => Sys2Proof.Machine.execKioskReply hdr payload s

end Sys2Proof.Machine
end

