-- ==== Sys2Proof/Machine/Flags.lean ====
section
/-! DEFINITION. The interrupt lines and `pse_nmi` as the flags of the pages set them (R390, R465, R499). -/

namespace Sys2Proof.Machine

open Sys2Proof

/-- Whether interrupt line `l` is high (R465). -/
def State.irqLine (s : State) (l : Nat) : Bool :=
  (List.range 0x1D).any fun p => (List.range 32).any fun b =>
    (irqRoute p b == some (some l)) && bit (s.rd (irqStatOff p)) b && bit (s.rd (irqEnOff p)) b

/-- Whether `pse_nmi` is high (R390, R465). -/
def State.nmi (s : State) : Bool := s.flag F.ERU_STAT_FATAL || s.run == .fallback

end Sys2Proof.Machine
end

