-- ==== Sys2Proof/WellFormed.lean ====
section
/-! DEFINITION. Well-formed commands: operands within the ranges and shapes the spec's rules give them. A meaning is total and
takes an ill-formed command too; what the checks say is what a sender that follows the spec gives. -/

namespace Sys2Proof

/-- A ring message: at most two payload words, as its header counts them (R459). -/
def ringOk (typ : Nat) (hdr : BitVec 64) (payload : List (BitVec 64)) : Bool :=
  decide (payload.length ≤ 2) && hdr.toNat / 2 ^ 50 % 4 == payload.length && hdr.toNat / 2 ^ 60 == typ

/-- A transaction: a header of 32 bytes and a payload of at most 65535 (R293). -/
def txnOk (hdr payload : List Byte) : Bool := hdr.length == 32 && decide (payload.length ≤ 65535)

/-- A message of at least 32 bytes with its CRC (R74, R294). -/
def msgOk (msg : List Byte) : Bool := decide (28 ≤ msg.length) && decide (msg.length ≤ 131072)

/-- Beats of a WRITE: one or two, each of 128 bytes and 128 byte enables (R441). -/
def beatsShape (beats : List (List Byte × List Bool)) : Bool :=
  decide (1 ≤ beats.length) && decide (beats.length ≤ 2) && beats.all fun b => b.1.length == 128 && b.2.length == 128

/-- A command word's fields: a row below 6161, a sector below 32, a column of a row of 2048 bytes (R222, R467). -/
def TowerCmd.ok : TowerCmd → Bool
  | .act r => decide (r < 6161)
  | .rd x => decide (x < 32)
  | .wr x _ data => decide (x < 32) && data.length == 64
  | .merge x mask data => decide (x < 32) && mask.length == 64 && data.length == 64
  | .ref eyes => decide (eyes.length ≤ 74)
  | .pre => true
  | .raw r c _ _ => decide (r < 6161) && decide (c < 2080)
  | .peek r c => decide (r < 6161) && decide (c < 2080)

/-- Packets of the sideband: at most 68 bytes each (R456). -/
def pktsOk (pkts : List (List Byte)) : Bool := !pkts.isEmpty && pkts.all fun p => decide (p.length ≤ 68)

/-- Readings by bank: banks of the tower, each once (R250). -/
def eyesOk (eyes : List (Nat × List Nat)) : Bool :=
  (eyes.all fun e => decide (e.1 < 512)) && (eyes.map (·.1)).Nodup

/-- A fault of a lane check: a row, a lane and an output of the field (R183). -/
def LaneFault.ok : LaneFault → Bool
  | .arith r l o => decide (r < 768) && decide (l < 32) && decide (o < 2 ^ 24)
  | .stationary r l o => decide (r < 768) && decide (l < 32) && decide (o < 2 ^ 24)
  | .bandstand r o => decide (r < 768) && decide (o < 2 ^ 24)

/-- A start's input: every row tested once, a fuse stream of at most 2098 words (R462, R485). -/
def StartIn.ok (i : StartIn) : Bool := decide (i.fuse.length ≤ 2098) && (i.tests.map (·.1)).Nodup

/-- The register aperture: word addresses (R455, R497). -/
def wordAddr (off : BitVec 17) : Bool := off.toNat % 4 == 0

/-- Whether a command is well formed. -/
def Instr.wellFormed : Instr → Bool
  | .planSlot _ eyes => eyesOk eyes
  | .laneEntry _ _ kind split first last slots =>
    kind != 0 && decide (first ≤ last) && decide (1 ≤ slots) && (if kind = 1 then decide (1 ≤ split) && decide (split ≤ 64) else split == 0)
  | .updateSlot _ cycles => decide (1 ≤ cycles) && decide (cycles ≤ 256)
  | .bankEntry _ user cmds => user != 0 && cmds.all TowerCmd.ok
  | .ringRelease h p => ringOk 3 h p
  | .ringSeal h p => ringOk 1 h p
  | .ringArrival h p => ringOk 2 h p
  | .ringCounter h p => ringOk 4 h p
  | .ringRelay h p => ringOk 5 h p
  | .ringCheck h p => ringOk 6 h p
  | .hostWrite _ _ beats => beatsShape beats
  | .deltaRecord _ _ m => msgOk m
  | .ack _ _ m => msgOk m
  | .nak _ _ m => msgOk m
  | .memberSeal _ _ m => msgOk m
  | .groupSeal _ _ m => msgOk m
  | .gatherRequest _ _ m => msgOk m
  | .gatherResponse _ _ m _ => msgOk m
  | .repairRecord _ _ m => msgOk m
  | .reseed _ _ m => msgOk m
  | .arrival _ _ m => msgOk m
  | .loan _ _ m => msgOk m
  | .grant _ _ m => msgOk m
  | .returnFrame _ _ m => msgOk m
  | .revoke _ _ m => msgOk m
  | .colSegment _ _ m => msgOk m
  | .colReady _ _ m => msgOk m
  | .barrierArrival _ _ m => msgOk m
  | .archiveAck _ _ m => msgOk m
  | .streamMm _ faults => faults.all LaneFault.ok
  | .tempSample readings => readings.length == 32
  | .fabLoad h p => txnOk h p
  | .fabStore h p => txnOk h p
  | .atomic h p => txnOk h p
  | .addI32 h p => txnOk h p
  | .addI64 h p => txnOk h p
  | .addF32 h p => txnOk h p
  | .minS32 h p => txnOk h p
  | .minS64 h p => txnOk h p
  | .minU32 h p => txnOk h p
  | .minU64 h p => txnOk h p
  | .minF32 h p => txnOk h p
  | .maxS32 h p => txnOk h p
  | .maxS64 h p => txnOk h p
  | .maxU32 h p => txnOk h p
  | .maxU64 h p => txnOk h p
  | .maxF32 h p => txnOk h p
  | .cas32 h p => txnOk h p
  | .cas64 h p => txnOk h p
  | .response h p => txnOk h p
  | .teardown h p => txnOk h p
  | .kioskReply h p => txnOk h p
  | .linkUp initial => initial.length == 16
  | .replan _ ro => ro.length == 32
  | .replanTimer ro => ro.length == 32
  | .replanNow _ _ ro => ro.length == 32
  | .coreExchange _ area => decide (area.length ≤ 0x10000)
  | .setEndpointId p => pktsOk p
  | .getEndpointId p => pktsOk p
  | .getEndpointUuid p => pktsOk p
  | .getMctpVersionSupport p => pktsOk p
  | .getMessageTypeSupport p => pktsOk p
  | .getVendorDefinedMsgSupport p => pktsOk p
  | .vendorDefinedMessage p => pktsOk p
  | .towerAccess _ cmds => cmds.all TowerCmd.ok
  | .coldStart _ _ _ i => i.ok
  | .warmStart i => i.ok
  | .lockPage _ page => decide (page.toNat < 0x1D)
  | .irqSet _ page _ => decide (page.toNat < 0x1D)
  | .clrCnt _ page => decide (page.toNat < 0x1D)
  | .regionEntryWrite _ off _ => off.toNat % 4 == 0
  | .latchedRead _ off => wordAddr off
  | .registerWrite _ off _ => wordAddr off
  | _ => true

end Sys2Proof
end

