-- ==== Sys2Proof/Safety.lean ====
section
/-! DEFINITION. What a safe state of the engine is, in the terms the statements use: memories and registers in their one canonical
form, the record queue within its size, the conditions under which a command given through a page has its effect. -/

namespace Sys2Proof.Machine

open Sys2Proof

/-- The canonical form of a state: the register words, the tower, T0, the external region and management SRAM each in the one
form that stands for their contents, and at most 32 error records queued (R387). -/
def State.Canon (s : State) : Prop :=
  spWf resetAt s.regs = true ∧ s.tower.mem.wf = true ∧ s.t0.wf = true ∧ s.ext.wf = true ∧ s.mgmt.sram.wf = true
    ∧ s.eru.queue.length ≤ 32

/-- The engine runs and a page's block has every clock it uses (R481). -/
abbrev State.Up (s : State) (page : Nat) : Prop := s.run = .running ∧ s.clkOk page = true

/-- Whether a path may write the register at an aperture offset: the port always; a management core while it runs, and only what
R412 gives it. -/
def State.pathMay (s : State) (path : Path) (off : Nat) : Bool :=
  match path with
  | .port => true
  | .core c => s.pageUp Page.MGC && s.fget F.MGC_CORE_STAT_STATE c == 1 && coreMay c off

/-- What every step leaves behind when it answers a next state from a canonical one. -/
def State.SafeStep (s : State) : Prop := ∀ t, step s = .next t → t.Canon

end Sys2Proof.Machine
end

