-- ==== Sys2Proof/Certificates/Slice0/Obligations.lean ====
section
/-! DEFINITION. The statements for the provers. -/

open Sys2Proof Sys2Proof.Machine

/-- Strobes set hall time, and holdover enters and leaves by the rules; that the first strobe since a start takes the port time
without a record and without the boundaries between is the model’s choice, log entry 50. (R25, R26, R27, R28) -/
def Obligations.StrobesSetHallTime : Prop :=
  (∀ (time here : BitVec 64) (s : State), s.run = .running → ∃ t, exec (.hallStrobe time here) s = .next t ∧ t.tick.hall =
      time.toNat) ∧
  (∀ (time here : BitVec 64) (s : State), s.run = .running → s.tick.synced = false → exec (.hallStrobe time here) s = .next
      (let s1 := ({ s with tick := { s.tick with holdover := false, goodStrobes := if s.flag F.TCK_STAT_HOLDOVER then s.tick.goodStrobes + 1 else 0 } }
           : State).passTo here.toNat
       { s1 with tick := { s1.tick with synced := true, hall := time.toNat, lastBoundary := none } })) ∧
  (∀ (time here : BitVec 64) (s s1 : State) (l : Nat), s.run = .running → s.tick.synced = true → s1 =
      ({ s with tick := { s.tick with holdover := false, goodStrobes := if s.flag F.TCK_STAT_HOLDOVER then s.tick.goodStrobes + 1 else 0 } }
      : State).passTo here.toNat → l = s1.tick.hall → time.toNat ≤ l + 1000 → l ≤ time.toNat + 1000 → exec (.hallStrobe time here) s =
      .next
      (let s2 : State := { s1 with tick := { s1.tick with hall := time.toNat } }
       (if l < time.toNat ∧ s2.ticking = true then State.skipTo time.toNat ((time.toNat - l) / 10000 + 2) s2 else s2).tailsMove l
           time.toNat)) ∧
  (∀ (time here : BitVec 64) (s s1 : State) (l : Nat), s.run = .running → s.tick.synced = true → s1 =
      ({ s with tick := { s.tick with holdover := false, goodStrobes := if s.flag F.TCK_STAT_HOLDOVER then s.tick.goodStrobes + 1 else 0 } }
      : State).passTo here.toNat → l = s1.tick.hall → l + 1000 < time.toNat → exec (.hallStrobe time here) s = .next
      (let s2 := s1.logErr { block := Page.TCK, code := 0x0A21, sev := 0 }
       let s3 : State := { s2 with tick := { s2.tick with hall := time.toNat } }
       (if s3.ticking = true then State.skipTo time.toNat ((time.toNat - l) / 10000 + 2) s3 else s3).tailsMove l time.toNat)) ∧
  (∀ (time here : BitVec 64) (s s1 : State) (l : Nat), s.run = .running → s.tick.synced = true → s1 =
      ({ s with tick := { s.tick with holdover := false, goodStrobes := if s.flag F.TCK_STAT_HOLDOVER then s.tick.goodStrobes + 1 else 0 } }
      : State).passTo here.toNat → l = s1.tick.hall → time.toNat + 1000 < l → exec (.hallStrobe time here) s = .next
      (let s2 := s1.logErr { block := Page.TCK, code := 0x0A21, sev := 0 }
       ({ s2 with tick := { s2.tick with hall := time.toNat } } : State).tailsMove l time.toNat)) ∧
  (∀ (s : State) (t n : Nat), s.nextBoundary < t → s.ticking = true → State.skipTo t (n + 1) s = State.skipTo t n (s.takeBoundary
      s.nextBoundary)) ∧
  (∀ (s : State) (t n : Nat), t ≤ s.nextBoundary → State.skipTo t n s = s) ∧
  (∀ (s : State) (b l t : Nat) (e : ErrIn), s.tick.lastBoundary = some b → s.nextBoundary = s.boundaryFrom (b + 1) ∧ ((s.logErr
      e).tailsMove l t).tick.lastBoundary = some b) ∧
  (∀ (s : State), s.run = .running → exec .holdover s = .next
      { s with tick := { s.tick with holdover := true, goodStrobes := 0 } }) ∧
  (∀ (s : State), s.run = .running → s.tick.holdover = true → s.flag F.TCK_STAT_HOLDOVER = false → exec .holdoverTimeout s = .next
      (((s.set1 F.TCK_STAT_HOLDOVER).irq Page.TCK 3).logErr { block := Page.TCK, code := 0x0A20, sev := 1 })) ∧
  (∀ (s : State), s.run = .running → s.tick.holdover = false → 16 ≤ s.tick.goodStrobes → exec .holdoverEnd s = .next (s.set0
      F.TCK_STAT_HOLDOVER))

/-- A tick boundary is taken at its own hall time, and a running plan passes slot by slot to its end. (R29, R35, R39, R41, R198,
R507) -/
def Obligations.BoundariesStartPlans : Prop :=
  (∀ (s : State), s.run = .running → s.ticking = true → exec .tickBoundary s = .next (s.takeBoundary s.nextBoundary)) ∧
  (∀ (s : State) (b : Nat), (s.enterTick b).tick.now = s.tick.base + (b - s.tick.epoch) / max 1 (1000 * s.fget F.TCK_PERIOD_US) ∧
      (s.enterTick b).tick.lastBoundary = some b ∧ (s.enterTick b).tick.hall = max s.tick.hall b) ∧
  (∀ (s : State) (n b : Nat), s.tick.released = false → b ∈ s.tick.releases → (s.gate n b).1.tick.released = true ∧ (s.gate n
      b).1.tick.armed = [] ∧ (s.gate n b).2 = true) ∧
  (∀ (s : State) (p n b : Nat) (y : Plan), p < s.plans.length → Part.state s p = 2 → s.tick.managerLost = false → s.tick.released
      = true → s.fget F.CRG_STAT_MODE = 0 → s.tower.critical = false → s.switchHolds p = false → (s.planState p).running = none → (s.planState p).waiting = [] → (s.planState p).inForce
      = some y → ((s.partBoundary n b true p).planState p).running = some ⟨y, n, b, 1 - (s.planState p).nextBlk, 0⟩) ∧
  (∀ (part : Fin 8) (eyes : List (Nat × List Nat)) (s : State) (i : Inst), s.Up Page.TCK → (s.planState part.val).running = some i
      → s.planeHalted = false → Part.state s part.val ≠ 4 → i.slot < i.plan.slots → s.spanOpen part.val i.slot = false → exec
      (.planSlot part eyes) s = .next (s.doSlot part.val i eyes)) ∧
  (∀ (part : Fin 8) (eyes : List (Nat × List Nat)) (s : State) (i : Inst) (hs : List (Nat × Nat × Nat)) (n : Nat), s.Up Page.TCK →
      (s.planState part.val).running = some i → s.planeHalted = false → Part.state s part.val ≠ 4 → hs = (s.planState
      part.val).holds i.slot → (s.laneOver part.val i.slot = true ∨ hs ≠ []) → n = (if s.laneOver part.val i.slot = true then 256 else
      min 256 ((hs.map (·.2.1)).foldl max 0)) → exec (.planSlot part eyes) s = .next
      (let s1 := (s.setPlan part.val ((s.planState part.val).held i.slot n)).bump F.LNP_SLIP_CNT_CYCLES 0 n
       (s1.rowCycles part.val 2 (n * (s1.partRows part.val).length - (hs.map fun h => min h.2.1 n * h.2.2).sum)).spend part.val n)) ∧
  (∀ (part : Fin 8) (time : BitVec 64) (s : State) (i : Inst), s.Up Page.TCK → time.toNat ≤ s.tick.hall → (s.planState
      part.val).running = some i → s.planeHalted = false → Part.state s part.val ≠ 4 → i.plan.slots ≤ i.slot → s.spanOpen
      part.val i.plan.slots = false → exec (.planRetire part time) s = .next (s.retire part.val i))

/-- Feed, lane, update, bank and refresh entries of a plan act on their own units; which command words an access sends is the
model’s choice, log entry 95. (R38, R129, R194, R467, R507) -/
def Obligations.SlotEntriesActOnTheirUnits : Prop :=
  (∀ (part : Fin 8) (trio pair : Fin 256) (rows : BitVec 3) (s : State) (i : Inst), s.Up Page.LNF → (s.planState part.val).running
      = some i → s.planeHalted = false → exec (.feedEntry part trio pair rows) s = .next
      { s with lane := { s.lane with feeds := alPut s.lane.feeds trio.val (8 * pair.val + ((alGet s.lane.feeds trio.val).getD 0 % 8 ||| rows.toNat)) } }) ∧
  (∀ (part : Fin 8) (trio pair : Fin 256) (rows : BitVec 3) (s : State), s.Up Page.LNF → ((s.planState part.val).running = none ∨
      s.planeHalted = true) → exec (.feedEntry part trio pair rows) s = .next s) ∧
  (∀ (part : Fin 8) (queue : Fin 16) (kind : Fin 4) (split : Nat) (first last : Fin 256) (slots : Nat) (s : State) (rows : List
      Nat), s.Up Page.LNP → Part.state s part.val = 2 → s.planeHalted = false → s.fget (QKind.head .lane) queue.val ≠ s.fget (QKind.tail .lane) queue.val →
      rows = (List.range (last.val + 1 - first.val)).flatMap (fun i => [3 * (first.val + i), 3 * (first.val
      + i) + 1, 3 * (first.val + i) + 2]) → s.laneHeld part.val queue.val rows = false → s.qPart .lane queue.val = part.val → s.flag (QKind.enable .lane) queue.val = true → s.fget (QKind.head .lane) queue.val
      ≠ s.seenTail queue.val → s.qFull .lane queue.val = false → exec (.laneEntry part queue kind split first last slots) s =
      .next
      (let now := ((s.plans[part.val]?).bind (fun x => x.running.map (·.slot))).getD 0
       let j := LaneJob.taken s.lane.nextJob queue.val part.val (s.fget (QKind.head .lane) queue.val) kind.val split rows slots (now +
           slots) (s.dueOf part.val) (s.planId part.val)
       State.laneFetch
           { s.qTake .lane queue.val with lane := { (s.qTake .lane queue.val).lane with jobs := (s.qTake .lane queue.val).lane.jobs ++ [j], nextJob := (s.qTake .lane queue.val).lane.nextJob + 1 } }
           j)) ∧
  (∀ (part : Fin 8) (cycles : Nat) (s : State) (x : Pass), s.Up Page.UPD → s.planeHalted = false → s.passOn part.val = some x → exec (.updateSlot part
      cycles) s = .next (State.updRun part.val (cycles * s.eclk / max 1 s.lclk) s)) ∧
  (∀ (part : Fin 8) (cycles : Nat) (s : State), s.Up Page.UPD → Part.state s part.val ≠ 2 → exec (.updateSlot part cycles) s =
      .next s) ∧
  (∀ (s : State) (bank : Fin 512) (user : Fin 5) (r : Nat), s.run = .running → user ≠ 0 → s.tower.selfRefresh = false → (s.bank bank.val).openRow = none → r < 6144 → exec (.bankEntry bank user [.act r]) s = .next ((s.issue bank.val [cmdWord 1 bank.val 0,
      s.issuedRow bank.val r]).setBank bank.val { s.bank bank.val with openRow := some r })) ∧
  (∀ (s : State) (bank : Fin 512) (user : Fin 5) (r x : Nat), s.run = .running → user ≠ 0 → s.tower.selfRefresh = false → (s.bank bank.val).openRow = some r → x < 32 → r < 6144 → exec (.bankEntry bank user [.rd x]) s = .next ((s.issueRd bank.val
      x).bankRead (tAddr bank.val r (64 * x) / 64))) ∧
  (∀ (s : State) (bank : Fin 512) (user : Fin 5) (r : Nat), s.run = .running → user ≠ 0 → s.tower.selfRefresh = false → (s.bank bank.val).openRow = some r → exec (.bankEntry bank user [.pre]) s = .next ((s.issue bank.val [cmdWord 5 bank.val
      0]).setBank bank.val { s.bank bank.val with openRow := none })) ∧
  (∀ (s : State) (bank : Fin 512) (user : Fin 5) (r x : Nat) (be : BitVec 64) (data : List Byte), s.run = .running → user ≠ 0 →
      s.tower.selfRefresh = false → (s.bank bank.val).openRow = some r → x < 32 → r < 6144 → exec (.bankEntry bank user [.wr x be data]) s =
      .next ((s.issueWr bank.val x be.getLsbD).towerPut (tAddr bank.val r (64 * x)) ((List.range 64).map fun i => if be.getLsbD i then data[i]? else none))) ∧
  (∀ (s : State) (bank : Fin 512) (user : Fin 5) (eyes : List Nat), s.run = .running → user ≠ 0 → s.tower.selfRefresh = false →
      exec (.bankEntry bank user [.ref eyes]) s = .next (s.refBank bank.val eyes)) ∧
  (∀ (s : State) (bank : Fin 512) (user : Fin 5) (x : Nat) (mask data : List Byte), s.run = .running → exec (.bankEntry bank user
      [.merge x mask data]) s = .next s) ∧
  (∀ (bank : Fin 512) (eyes : List Nat) (s : State), s.run = .running → s.planeHalted = false → s.flag F.TWC_REF_CTRL_HALF = false →
      exec (.refreshEntry bank eyes) s = .next (s.refBank bank.val eyes)) ∧
  (∀ (b : Nat) (eyes : List Nat) (s : State), s.tower.selfRefresh = false → s.refBank b eyes = ((s.issue b [cmdWord 6 b (if eyes.isEmpty
      then 0 else 2), (s.bank b).refPos]).setBank b { s.bank b with openRow := none, refPos := ((s.bank b).refPos + 1) % 770 }).recordEyes b
      eyes) ∧
  (∀ (bank : Fin 512) (eyes : List Nat) (s : State), s.run = .running → s.planeHalted = false → s.flag F.TWC_REF_CTRL_HALF = true → (s.bank
      bank.val).skipNext = true → exec (.refreshEntry bank eyes) s = .next (s.setBank bank.val
      { s.bank bank.val with skipNext := false }))

/-- A time commit is taken or refused by its rule, and its values come into force at the epoch; the first one after a start is
bound by the 2 µs condition alone. (R30, R32, R39, R492) -/
def Obligations.TimeCommitsAndEpochs : Prop :=
  (∀ (path : Path) (s : State), s.pathMay path R.TCK_CTRL = true → s.Up Page.TCK → s.tick.hall + 2000 ≤ s.tick.stEpoch →
      s.tick.commit = none → (s.tick.committed = false ∨ s.tick.epoch ≤ s.tick.stEpoch ∧ (s.tick.stEpoch -
      s.tick.epoch) % max 1 s.periodNs = 0 ∧ s.tick.base + (s.tick.stEpoch - s.tick.epoch) / max 1 s.periodNs - 1 <
      s.tick.stBase) → exec (.timeCommit path) s = .next
      (({ s with tick := { s.tick with commit := some (s.tick.stPeriod, s.tick.stEpoch, s.tick.stBase), committed := true } } :
      State).cancelArms s.tick.stEpoch)) ∧
  (∀ (s : State) (e : Nat), (∀ h ∈ s.tick.armed, h < e) → s.cancelArms e = s) ∧
  (∀ (s : State) (e h : Nat), s.tick.armed = [h] → e ≤ h → s.cancelArms e =
      (let s1 : State := { s with tick := { s.tick with armed := [], releases := s.tick.releases.filter (· != h) } }
       ((s1.fset F.TCK_STAT_ARMED 0 0).set1 F.TCK_STAT_ARM_REFUSED).ringSend 3 none 1 [h])) ∧
  (∀ (path : Path) (s : State), s.pathMay path R.TCK_CTRL = true → s.Up Page.TCK → (s.tick.commit.isSome = true ∨ s.tick.stEpoch <
      s.tick.hall + 2000 ∨ (s.tick.committed = true ∧ (s.tick.stEpoch < s.tick.epoch ∨ (s.tick.stEpoch - s.tick.epoch) % max 1
      s.periodNs ≠ 0 ∨ s.tick.stBase ≤ s.tick.base + (s.tick.stEpoch - s.tick.epoch) / max 1 s.periodNs - 1))) → exec (.timeCommit
      path) s = .next ((s.set1 F.TCK_STAT_TIME_REFUSED).irq Page.TCK 2)) ∧
  (∀ (s : State) (us e base : Nat), s.run = .running → s.tick.commit = some (us, e, base) → e ≤ s.nextBoundary → e ≤ s.tick.hall →
      exec .timeEpoch s = .next
      (let s1 : State := { s with tick := { s.tick with commit := none, epoch := e, base := base } }
       let s2 := ((s1.fset F.TCK_PERIOD_US 0 us).wr64 R.TCK_EPOCH_LO 0 e).wr64 R.TCK_TICK_BASE_LO 0 base
       let s3 := (List.range 8).foldl (fun x p => x.epochPlan us p) (s2.fset F.TCK_SLOTS_S 0 (slotsPer us s2.lclk))
       s3.cancelArms e)) ∧
  (∀ (s : State) (us p : Nat) (y : Plan) (h : Nat), p < s.plans.length → (s.planState p).accepted = some (y, h) → y.period ≠ us →
      ((s.epochPlan us p).planState p).accepted = none ∧ s.epochPlan us p = (s.fset F.TCK_PLAN_STAT_REASON p 2).setPlan p
      { s.planState p with accepted := none, acceptedEpoch := none, inForce := (s.planState p).inForce.filter fun z => z.period == us })

/-- Committing, checking and cancelling a plan, and the plan data port. (R34, R36, R37) -/
def Obligations.PlanCommitCheckCancel : Prop :=
  (∀ (path : Path) (part : Fin 8) (s : State), s.pathMay path R.TCK_PLAN_COMMIT = true → s.Up Page.TCK → (s.planState
      part.val).locked = false → exec (.planCommit path part) s = .next (s.setPlan part.val
      { s.planState part.val with check := some ⟨s.tick.hall, false⟩ })) ∧
  (∀ (path : Path) (part : Fin 8) (s : State), s.pathMay path R.TCK_PLAN_COMMIT = true → s.Up Page.TCK → (s.planState
      part.val).locked = true → exec (.planCommit path part) s = .next (s.set1 F.TCK_STAT_PLAN_LOCKED_WR)) ∧
  (∀ (part : Fin 8) (s : State) (c : PlanCheck) (y : Plan), s.run = .running → (s.planState part.val).check = some c → c.cancelled
      = false → planOf (s.planImage part.val (s.planState part.val).nextBlk) = some y → s.planReason part.val (some y) = 0 →
      exec (.planCheckDone part) s = .next
      (let x := s.planState part.val
       let s1 := (s.fset F.TCK_PLAN_STAT_REASON part.val 0).wr R.TCK_PLAN_ID part.val (fieldLE (s.planImage part.val x.nextBlk) 8 4)
       s1.setPlan part.val
           { x with check := none, accepted := some (y, s.tick.hall), acceptedEpoch := if s1.stagedFor y then s.tick.commit.map (·.2.1) else none, barred := false })) ∧
  (∀ (part : Fin 8) (s : State) (c : PlanCheck), s.run = .running → (s.planState part.val).check = some c → s.planReason part.val
      (planOf (s.planImage part.val (s.planState part.val).nextBlk)) ≠ 0 → exec (.planCheckDone part) s = .next
      (let x := s.planState part.val
       let img := s.planImage part.val x.nextBlk
       let s1 := (s.fset F.TCK_PLAN_STAT_REASON part.val (s.planReason part.val (planOf img))).wr R.TCK_PLAN_ID part.val (fieldLE img 8
           4)
       (s1.setPlan part.val { x with check := none }).irq Page.TCK 1)) ∧
  (∀ (path : Path) (part : Fin 8) (s : State), s.pathMay path R.TCK_PLAN_CANCEL = true → s.Up Page.TCK → (s.planState
      part.val).check = none → (s.swapsAt (s.planState part.val) s.nextBoundary = false ∨ s.slotAfter s.tick.hall s.nextBoundary
      = true) → exec (.planCancel path part) s = .next (s.setPlan part.val
      { s.planState part.val with accepted := none, acceptedEpoch := none })) ∧
  (∀ (path : Path) (part : Fin 8) (s : State) (c : PlanCheck), s.pathMay path R.TCK_PLAN_CANCEL = true → s.Up Page.TCK →
      (s.planState part.val).check = some c → exec (.planCancel path part) s = .next (s.setPlan part.val
      { s.planState part.val with check := some { c with cancelled := true } })) ∧
  (∀ (path : Path) (s : State), s.Up Page.TCK → exec (.planDataAccess path none) s = .next
      (let a := s.planWord path
       ({ s with rdata := BitVec.ofNat 32 (ofLE (s.t0.bytes a.2.2 4)) } : State).bump F.TCK_PLAN_ADDR_WORD a.2.1)) ∧
  (∀ (path : Path) (w : Word) (s : State), s.pathMay path R.TCK_PLAN_DATA = true → s.Up Page.TCK → (s.planState (s.planWord
      path).1).locked = false → exec (.planDataAccess path (some w)) s = .next
      (let a := s.planWord path
       ({ s with t0 := s.t0.puts a.2.2 (leBytes 4 w.toNat) } : State).bump F.TCK_PLAN_ADDR_WORD a.2.1)) ∧
  (∀ (path : Path) (w : Word) (s : State), s.pathMay path R.TCK_PLAN_DATA = true → s.Up Page.TCK → (s.planState (s.planWord
      path).1).locked = true → exec (.planDataAccess path (some w)) s = .next
      (let a := s.planWord path
       (s.set1 F.TCK_STAT_PLAN_LOCKED_WR).bump F.TCK_PLAN_ADDR_WORD a.2.1))

/-- Arming the barrier, releases on the ring, and a manager that no longer releases; that a second arm before the first release is
accepted beside the first is the model’s reading, log entry 19. (R17, R39) -/
def Obligations.BarrierAndRelease : Prop :=
  (∀ (path : Path) (hi : Word) (s : State) (b : Nat), s.pathMay path R.TCK_BARRIER_HI = true → s.Up Page.TCK → s.isMgr = true →
      s.tick.released = false → s.eru.checkFailed = false → (s.wr R.TCK_BARRIER_HI 0 hi.toNat).flag F.TCK_STAT_HOLDOVER = false
      → (s.wr R.TCK_BARRIER_HI 0 hi.toNat).fget F.CRG_STAT_MODE ≠ 2 → b = (s.wr R.TCK_BARRIER_HI 0 hi.toNat).rd64
      R.TCK_BARRIER_LO → (s.wr R.TCK_BARRIER_HI 0 hi.toNat).isBoundary b = true → s.tick.hall + 2000 ≤ b → exec (.barrierArm
      path hi) s = .next
      (let s1 := s.wr R.TCK_BARRIER_HI 0 hi.toNat
       let s2 : State := { s1 with tick := { s1.tick with armed := nsAdd s1.tick.armed b } }
       let s3 := s2.set1 F.TCK_STAT_ARMED
       ({ s3 with tick := { s3.tick with releases := nsAdd s3.tick.releases b } } : State).ringSend 3 none 0 [b])) ∧
  (∀ (hdr : BitVec 64) (payload : List (BitVec 64)) (s : State), s.run = .running → bits hdr.toNat 60 4 = 3 → bits hdr.toNat 50 2
      = payload.length → bits hdr.toNat 56 4 ≠ s.ownInst → (bit hdr.toNat 49 = true ∨ bits hdr.toNat 52 4 = s.ownInst) → s.isMgr
      = false → payload.length = 1 → bit hdr.toNat 0 = false → (∀ l, s.tick.lastBoundary = some l → l < word0 payload) → exec
      (.ringRelease hdr payload) s = .next
      (let s1 := ({ s with ring := s.ring ++ [⟨hdr.toNat, payload.map (·.toNat)⟩] } : State).wr64 R.TCK_BARRIER_LO 0 (word0 payload)
       { s1 with tick := { s1.tick with releases := nsAdd s1.tick.releases (word0 payload) } })) ∧
  (∀ (hdr : BitVec 64) (payload : List (BitVec 64)) (s : State), s.run = .running → bits hdr.toNat 60 4 = 3 → bits hdr.toNat 50 2
      = payload.length → bits hdr.toNat 56 4 ≠ s.ownInst → (bit hdr.toNat 49 = true ∨ bits hdr.toNat 52 4 = s.ownInst) → s.isMgr
      = false → payload.length = 1 → bit hdr.toNat 0 = true → exec (.ringRelease hdr payload) s = .next
      (let s1 : State := { s with ring := s.ring ++ [⟨hdr.toNat, payload.map (·.toNat)⟩] }
       { s1 with tick := { s1.tick with releases := s1.tick.releases.filter (· != word0 payload) } })) ∧
  (∀ (s : State) (b : Nat × Nat), s.run = .running → s.isMgr = false → s.tick.released = true → s.tick.managerLost = false → b ∈
      s.tick.unreleased → b.2 + 4 * s.periodNs ≤ s.tick.hall → exec .releaseTimeout s = .next
      ((({ s with tick := { s.tick with managerLost := true } } : State).bump F.TCK_OVERRUN_CNT_COUNT).irq Page.TCK 0 |>.event
      0x0201 none)) ∧
  (∀ (s : State) (e : Nat), (s.cancelArms e).tick.armed = s.tick.armed.filter fun h => decide (h < e))

/-- Seals, arrivals, counter and relay messages and checks on the instance ring. (R18, R41, R404, R431, R460) -/
def Obligations.RingMessagesOfTheHall : Prop :=
  (∀ (hdr : BitVec 64) (payload : List (BitVec 64)) (s : State), s.run = .running → bits hdr.toNat 60 4 = 1 → bits hdr.toNat 50 2
      = payload.length → bits hdr.toNat 56 4 ≠ s.ownInst → (bit hdr.toNat 49 = true ∨ bits hdr.toNat 52 4 = s.ownInst) → s.isMgr
      = true → s.eru.checkFailed = false → payload.length = 1 → exec (.ringSeal hdr payload) s = .next
      (({ s with ring := s.ring ++ [⟨hdr.toNat, payload.map (·.toNat)⟩] } : State).sealIn (bits hdr.toNat 56 4) (word0
      payload))) ∧
  (∀ (s : State) (i n : Nat), (s.sealIn i n).tick = { s.tick with seals := alPut s.tick.seals i n }) ∧
  (∀ (hdr : BitVec 64) (payload : List (BitVec 64)) (s : State), s.run = .running → bits hdr.toNat 60 4 = 2 → bits hdr.toNat 50 2
      = payload.length → bits hdr.toNat 56 4 ≠ s.ownInst → (bit hdr.toNat 49 = true ∨ bits hdr.toNat 52 4 = s.ownInst) → s.isMgr
      = true → s.eru.checkFailed = false → payload.length = 1 → s.tick.arrTick < word0 payload → exec (.ringArrival hdr payload)
      s = .next
      (({ s with ring := s.ring ++ [⟨hdr.toNat, payload.map (·.toNat)⟩], tick := { s.tick with arrTick := word0 payload, arrivals := [bits hdr.toNat 56 4] } }
      : State).showArrivals)) ∧
  (∀ (hdr : BitVec 64) (payload : List (BitVec 64)) (s : State), s.run = .running → bits hdr.toNat 60 4 = 4 → bits hdr.toNat 50 2
      = payload.length → bits hdr.toNat 56 4 ≠ s.ownInst → (bit hdr.toNat 49 = true ∨ bits hdr.toNat 52 4 = s.ownInst) → bits
      hdr.toNat 0 2 ≠ 0 → payload.length = 1 → exec (.ringCounter hdr payload) s = .next
      (({ s with ring := s.ring ++ [⟨hdr.toNat, payload.map (·.toNat)⟩], ctr := { s.ctr with armed := some (bits hdr.toNat 0 2, word0 payload) } }
      : State).set1 F.CTR_SNAP_STAT_ARMED)) ∧
  (∀ (hdr : BitVec 64) (payload : List (BitVec 64)) (s : State) (key : Nat), s.run = .running → bits hdr.toNat 60 4 = 5 → bits
      hdr.toNat 50 2 = payload.length → bits hdr.toNat 56 4 ≠ s.ownInst → (bit hdr.toNat 49 = true ∨ bits hdr.toNat 52 4 =
      s.ownInst) → 1 ≤ bits hdr.toNat 0 5 → bits hdr.toNat 0 5 ≤ 16 → ceilDiv (bits hdr.toNat 0 5) 8 = payload.length → bit
      hdr.toNat 6 = false → key = 4 * bits hdr.toNat 56 4 + bits hdr.toNat 7 2 → exec (.ringRelay hdr payload) s = .next
      { s with ring := s.ring ++ [⟨hdr.toNat, payload.map (·.toNat)⟩], mgmt := { s.mgmt with relay := alPut s.mgmt.relay key ((if bit hdr.toNat 5 then [] else (alGet s.mgmt.relay key).getD []) ++ ((payload.map (·.toNat)).flatMap (leBytes 8)).take (bits hdr.toNat 0 5)) } }) ∧
  (∀ (hdr : BitVec 64) (payload : List (BitVec 64)) (s : State), s.run = .running → bits hdr.toNat 60 4 = 6 → bits hdr.toNat 50 2
      = payload.length → bits hdr.toNat 56 4 ≠ s.ownInst → (bit hdr.toNat 49 = true ∨ bits hdr.toNat 52 4 = s.ownInst) →
      (s.tick.checks.any fun c => c.1 == bits hdr.toNat 56 4) = false → bits (bits hdr.toNat 0 49) 1 4 ≠ s.ownInst → bit (bits
      hdr.toNat 0 49) 0 = false → s.tick.checks.countP (·.2) ≤ 1 → exec (.ringCheck hdr payload) s = .next
      { s with ring := s.ring ++ [⟨hdr.toNat, payload.map (·.toNat)⟩], tick := { s.tick with checks := s.tick.checks ++ [(bits hdr.toNat 56 4, false)] } }) ∧
  (∀ (s : State), s.run = .running → ((s.tick.checks.any fun c => c.1 == s.ownInst) = false ∨ s.mgrInst = none) →
      s.eru.checkFailed = false → exec .checkTimeout s = .next (({ s with eru := { s.eru with checkFailed := true } } :
      State).logErr { block := Page.TCK, code := 0x0A50, sev := 2 }))

/-- Host reads and writes are answered, a malformed one with MALFORMED. (R72, R80, R444) -/
def Obligations.HostRequestsAnswered : Prop :=
  (∀ (ch : Fin 4) (hdr : BitVec 128) (beats : List (List Byte × List Bool)) (s s1 : State) (a : Access), s.Up Page.XLT →
      s.hostOutstanding ch.val < 512 → s.host.busy.contains (ch.val * 4096 + hdTag hdr) = false → (hdrOk hdr 2 && beatsOk hdr
      beats) = true → a = ⟨1, .hostWrite ch.val hdr, hdPart hdr, if hdForm hdr = 1 then some (hdSeq hdr) else none, hdAddr hdr, 0,
      (writeBytes hdr beats).map some, s.coding.nextAcc⟩ → (s.coding.stalled.any (·.blocks a)) = false → s1 =
      ({ s with host := { s.host with busy := s.host.busy ++ [ch.val * 4096 + hdTag hdr] } } : State).active 2 (hostHalves hdr).length →
      (s1.tryAccess a).2 = .status 0 → exec (.hostWrite ch hdr beats) s = .next ((s1.tryAccess a).1.hostAnswer ch.val hdr 0
      [emptyBeat])) ∧
  (∀ (ch : Fin 4) (hdr : BitVec 128) (s s1 : State) (a : Access) (bs : List (Option Byte)), s.Up Page.XLT → s.hostOutstanding
      ch.val < 512 → s.host.busy.contains (ch.val * 4096 + hdTag hdr) = false → hdrOk hdr 1 = true → a = ⟨1, .hostRead ch.val hdr,
      hdPart hdr, if hdForm hdr = 1 then some (hdSeq hdr) else none, hdAddr hdr, hdLen hdr, [], s.coding.nextAcc⟩ →
      (s.coding.stalled.any (·.blocks a)) = false → s1 = { s with host := { s.host with busy := s.host.busy ++ [ch.val * 4096 + hdTag hdr] } } →
      (s1.tryAccess a).2 = .data bs → exec (.hostRead ch hdr) s = .next ((s1.tryAccess a).1.hostAnswer ch.val hdr (if bs.any
      (·.isNone) then 4 else 0) (readBeats hdr bs))) ∧
  (∀ (ch : Fin 4) (hdr : BitVec 128) (s : State), s.Up Page.XLT → s.hostOutstanding ch.val < 512 → hdrOk hdr 1 = false → exec
      (.hostRead ch hdr) s = .next
      ((({ s with host := { s.host with busy := s.host.busy ++ [ch.val * 4096 + hdTag hdr] } } : State).active 2 (if hdOp hdr = 2 then (hostHalves hdr).length else 0)).hostAnswer ch.val hdr 5
      [emptyBeat])) ∧
  (∀ (ch : Fin 4) (hdr : BitVec 128) (s : State), s.Up Page.XLT → s.hostOutstanding ch.val < 512 → s.host.busy.contains (ch.val *
      4096 + hdTag hdr) = true → hdrOk hdr 1 = true → exec (.hostRead ch hdr) s = .next
      (({ s with host := { s.host with busy := s.host.busy ++ [ch.val * 4096 + hdTag hdr] } } : State).hostAnswer ch.val hdr 5
      ((hostHalves hdr).map fun _ => emptyBeat))) ∧
  (∀ (ch : Fin 4) (hdr : BitVec 128) (beats : List (List Byte × List Bool)) (s : State), s.Up Page.XLT → s.hostOutstanding
      ch.val < 512 → ((hdrOk hdr 2 && beatsOk hdr beats) = false ∨ s.host.busy.contains (ch.val * 4096 + hdTag hdr) =
      true) → exec (.hostWrite ch hdr beats) s = .next
      ((({ s with host := { s.host with busy := s.host.busy ++ [ch.val * 4096 + hdTag hdr] } } : State).active 2 (if hdOp hdr = 2 then (hostHalves
      hdr).length else 0)).hostAnswer ch.val hdr 5 [emptyBeat])) ∧
  (∀ (s : State), s.Up Page.XLT → exec .writeAdmit s = .next s.passesFlush.retryStalled.colAdvance.updSeals.switchesBegin) ∧
  (∀ (s : State), s.retryStalled = (((List.range 4).flatMap fun c => s.coding.stalled.filter (·.cls == c)).foldl (fun x a =>
      x.retryOne a) s).flushAll) ∧
  (∀ (s : State) (a : Access), (s.coding.stalled.takeWhile (· != a)).any (·.blocks a) = true → s.retryOne a = s) ∧
  (∀ (s : State) (a : Access), (s.coding.stalled.takeWhile (· != a)).any (·.blocks a) = false → (s.tryAccess a).2 = .wait →
      s.retryOne a = (s.tryAccess a).1) ∧
  (∀ (s s1 : State) (a : Access), (s.coding.stalled.takeWhile (· != a)).any (·.blocks a) = false → s1 = (s.tryAccess a).1 →
      (s.tryAccess a).2 ≠ .wait → s.retryOne a =
      (({ s1 with coding := { s1.coding with stalled := s1.coding.stalled.erase a } } : State).pinGo a.who).accDone a (s.tryAccess
      a).2) ∧
  (∀ (s : State) (a : Access) (ch : Nat) (hdr : BitVec 128) (st : Nat), a.use = .hostWrite ch hdr → s.accDone a (.status st) =
      s.hostAnswer ch hdr st [emptyBeat])

/-- Deltas, acknowledgements and seals between the members of a coded group; that the timeout of a role already suspect logs again
is the model’s reading, log entry 36, and the numbers by which RESEND names entries and repair records are the model’s choice, log
entry 65. (R73, R77, R79, R81, R82, R84) -/
def Obligations.CodingStreamMessages : Prop :=
  (∀ (entry : Nat) (s : State) (d : Delta), s.run = .running → s.coding.open_[entry]? = some d → s.flag F.CDR_CMD_STAT_AWAIT_START
      d.slot = false → exec (.deltaSend entry false) s = .next
      (let r := d.acks.foldl (fun (acc : State × List Ack) a => if a.seq.isSome || a.acked || a.reseed || Grp.lost acc.1 d.slot a.role
           then (acc.1, acc.2 ++ [a]) else ((acc.1.nextSeq d.slot a.role).2.sendDelta d a (acc.1.nextSeq d.slot a.role).1 false,
           acc.2 ++ [{ a with seq := some (acc.1.nextSeq d.slot a.role).1 }])) (s, [])
       r.1.setDelta entry { d with acks := r.2 })) ∧
  (∀ (slot : Fin 16) (member : Fin 32) (s : State), s.run = .running → Grp.state s slot.val ≠ 0 → 0 < (s.rxGet slot.val
      member.val).since → exec (.ackSend slot member) s = .next
      (let x := s.rxGet slot.val member.val
       let s1 := s.rxSet { x with since := 0 }
       s1.sendRole slot.val member.val (msg32 2 (Grp.gid s1 slot.val) member.val (Grp.own s1 slot.val) (Grp.gen s1 slot.val) 0 ((x.next
           + 2 ^ 32 - 1 - x.held.length) % 2 ^ 32) 0 0) true)) ∧
  (∀ (gate : Bool) (src : BitVec 20) (msg : List Byte) (s : State) (s1 : State) (g : Nat), s.Up Page.FBP → s.rxCredits 1 true ≠
      0 → ¬ 262143 < src.toNat → gate = false → s1 = s.msgIn 1 true gate src.toNat msg → (s1.msgSlot src.toNat
      msg 2 5).2 = some g → fieldLE msg 4 1 = Grp.own s1 g → exec (.ack gate src msg) s = .next ((s1.ackIn g (fieldLE msg 5 1)
      (fieldLE msg 8 4)).emptyDrained)) ∧
  (∀ (gate : Bool) (src : BitVec 20) (msg : List Byte) (s : State) (s1 : State) (g : Nat), s.Up Page.FBP → s.rxCredits 1 true ≠
      0 → ¬ 262143 < src.toNat → gate = false → s1 = s.msgIn 1 true gate src.toNat msg → (s1.msgSlot src.toNat
      msg 3 5).2 = some g → fieldLE msg 4 1 = Grp.own s1 g → exec (.nak gate src msg) s = .next
      (let deltas := (s1.coding.open_.filter (·.slot == g)).flatMap fun d => (d.acks.filter fun a => a.role == fieldLE msg 5 1 &&
           (a.seq.map (serialLe (fieldLE msg 8 4) ·)).getD false).map fun a => (a.seq.getD 0, (Sum.inl (d, a) : Delta × Ack ⊕ RepairRec))
       let repairs := (s1.coding.repairs.filter fun x => x.slot == g && x.role == fieldLE msg 5 1 && serialLe (fieldLE msg 8 4)
           x.seq).map fun x => (x.seq, (Sum.inr x : Delta × Ack ⊕ RepairRec))
       ((deltas ++ repairs).foldl (fun l x => putTurn (fieldLE msg 8 4) x l) []).foldl (fun y x => x.2.elim (fun e => y.resend e.1
           e.2) (fun e => y.resendRepair e)) s1)) ∧
  (∀ (entry : Nat) (holder : Fin 32) (s : State) (d : Delta), s.run = .running → s.coding.open_[entry]? = some d → exec (.resend
      entry holder) s = .next ((d.acks.filter (·.role == holder.val)).foldl (fun x a => x.resend d a) s)) ∧
  (∀ (entry : Nat) (holder : Fin 32) (s : State) (x : RepairRec), s.run = .running → s.coding.open_[entry]? = none → firstRepair ≤
      entry → s.coding.repairs[entry - firstRepair]? = some x → x.role = holder.val → exec (.resend entry holder) s = .next
      (((s.sendRole x.slot x.role (s.recordBytes 8 x.slot x.parity x.symbol x.count x.row x.stamp x.seq true x.sectors)).bump
      F.CDJ_RESEND_CNT_COUNT).event 0x0D03 (some (Grp.part s x.slot)))) ∧
  (∀ (s : State) (d : Delta) (a : Ack) (q : Nat), a.seq = some q → a.acked = false → a.reseed = false → Grp.lost s d.slot a.role =
      false → s.resend d a = ((s.sendDelta d a q true).bump F.CDJ_RESEND_CNT_COUNT).event 0x0D03 (some (Grp.part s d.slot))) ∧
  (∀ (entry : Nat) (holder : Fin 32) (s : State) (d : Delta), s.run = .running → s.coding.open_[entry]? = some d → (d.acks.any fun
      a => a.role == holder.val && a.seq.isSome && !a.acked) = true → Grp.lost s d.slot holder.val = false → exec (.ackTimeout
      entry holder) s = .next
      (let s1 := (s.fset F.CDJ_SUSPECT_ROLES d.slot (setBit (s.fget F.CDJ_SUSPECT_ROLES d.slot) holder.val true))
       (s1.irq Page.CDJ 0).logErr
           { block := Page.CDJ, code := 0x0402, sev := 0, part := some (Grp.part s1 d.slot), detail := [d.slot, holder.val, d.row, Grp.node s1 d.slot holder.val] })) ∧
  (∀ (gate : Bool) (src : BitVec 20) (msg : List Byte) (s : State) (s1 : State) (g : Nat), s.Up Page.FBP → s.rxCredits 1 false
      ≠ 0 → ¬ 262143 < src.toNat → gate = false → s1 = s.msgIn 1 false gate src.toNat msg → (s1.msgSlot src.toNat
      msg 4 4).2 = some g → Grp.acting s1 g = Grp.own s1 g → exec (.memberSeal gate src msg) s = .next (s1.takeMbrSeal g
      (fieldLE msg 4 1) (fieldLE msg 16 8))) ∧
  (∀ (gate : Bool) (src : BitVec 20) (msg : List Byte) (s : State) (s1 : State) (g : Nat), s.Up Page.FBP → s.rxCredits 1 false
      ≠ 0 → ¬ 262143 < src.toNat → gate = false → s1 = s.msgIn 1 false gate src.toNat msg → (s1.msgSlot src.toNat
      msg 5 4).2 = some g → fieldLE msg 4 1 = Grp.acting s1 g → s1.rd64 R.CDE_GRP_SEAL_LO g < fieldLE msg 16 8 → exec
      (.groupSeal gate src msg) s = .next (s1.wr64 R.CDE_GRP_SEAL_LO g (fieldLE msg 16 8)))

/-- Installing, filling, checking, draining, resuming and dissolving a group slot; what STATE shows while an install’s tag check
or fill runs is the model’s choice, log entry 52. (R88, R89, R91, R100, R490) -/
def Obligations.GroupSlotLifeCycle : Prop :=
  (∀ (path : Path) (s : State) (g : Nat), s.pathMay path R.CDE_GRP_CMD = true → s.Up Page.CDE → g = s.sel path F.CDE_GRP_SEL_SLOT
      → s.installReason g ≠ 0 → exec (.installGroup path) s = .next ((s.fset F.CDE_GRP_STAT_REASON g (s.installReason g)).irq
      Page.CDE 1)) ∧
  (∀ (path : Path) (s : State) (g : Nat) (s1 : State), s.pathMay path R.CDE_GRP_CMD = true → s.Up Page.CDE → g = s.sel path
      F.CDE_GRP_SEL_SLOT → s.installReason g = 0 → s1 = ((s.fset F.CDE_GRP_STAT_REASON g 0).slotFresh g).fset F.CDR_LOST_ROLES g
      0 → s1.flag F.CDR_CTRL_REBUILD_ON_INSTALL = false → s1.flag F.CDE_GRP_CFG_ZERO g = false → exec (.installGroup path) s =
      .next (s1.setBusy g .tagCheck)) ∧
  (∀ (path : Path) (s : State) (g : Nat) (s1 : State), s.pathMay path R.CDE_GRP_CMD = true → s.Up Page.CDE → g = s.sel path
      F.CDE_GRP_SEL_SLOT → s.installReason g = 0 → s1 = ((s.fset F.CDE_GRP_STAT_REASON g 0).slotFresh g).fset F.CDR_LOST_ROLES g
      0 → s1.flag F.CDR_CTRL_REBUILD_ON_INSTALL = false → s1.flag F.CDE_GRP_CFG_ZERO g = true → exec (.installGroup path) s = .next
      (let s2 := (s1.setSlotState g 1).setBusy g .zeroFill
       let s3 := s2.zeroSlots (Grp.tier s2 g) (s2.fget F.CDE_GRP_BASE_BASE g) (Grp.rows s2 g)
       s3.zeroSlots (Grp.tier s3 g) (s3.fget F.CDE_GRP_TAG_TAG_BASE g) (Grp.tagSlots s3 g))) ∧
  (∀ (path : Path) (s : State) (g : Nat) (s1 : State), s.pathMay path R.CDE_GRP_CMD = true → s.Up Page.CDE → g = s.sel path
      F.CDE_GRP_SEL_SLOT → s.installReason g = 0 → s1 = ((s.fset F.CDE_GRP_STAT_REASON g 0).slotFresh g).fset F.CDR_LOST_ROLES g
      0 → s1.flag F.CDR_CTRL_REBUILD_ON_INSTALL = true → exec (.installGroup path) s = .next
      (let s2 := (s1.setSlotState g 1).setBusy g .markPending
       let s3 := ((s2.fset F.CDR_CURSOR_ROW g 0).fset F.CDR_LEFT_ROWS g (Grp.rows s2 g)).wr R.CDR_REPORT_CNT g 0
       let s4 := s3.wr R.CDR_REPORT_LOST g 0
       let s5 := s4.zeroSlots (Grp.tier s4 g) (s4.fget F.CDE_GRP_TAG_TAG_BASE g) (Grp.tagSlots s4 g)
       (List.range (Grp.rows s4 g)).foldl (fun (x : State) r => x.tagPut g r (tagMake x g r [] 1)) s5)) ∧
  (∀ (slot : Fin 16) (s : State), s.run = .running → alGet s.coding.busy slot.val = some .zeroFill → exec (.zeroFillDone slot) s =
      .next
      (let s1 := (if Grp.state s slot.val = 0 then s.setSlotState slot.val 1 else s).endBusy slot.val
       let s2 := (s1.wr64 R.CDE_MBR_SEAL_LO slot.val (s1.tick.now - 1)).wr64 R.CDE_GRP_SEAL_LO slot.val 0
       ({ s2 with coding := { s2.coding with actMgr := alPut s2.coding.actMgr slot.val (Grp.acting s2 slot.val), sealTold := alPut s2.coding.sealTold slot.val (s2.tick.now - 1) } }
           : State).irq Page.CDE 0)) ∧
  (∀ (slot : Fin 16) (s : State), s.run = .running → alGet s.coding.busy slot.val = some .tagCheck → exec (.tagCheckDone slot) s =
      .next ((((List.range (Grp.rows s slot.val)).foldl (fun (x : State) r => (x.tagRead slot.val r).1) s).countPending
      slot.val).installed slot.val)) ∧
  (∀ (path : Path) (s : State) (g : Nat), s.pathMay path R.CDE_GRP_CMD = true → s.Up Page.CDE → g = s.sel path F.CDE_GRP_SEL_SLOT
      → Grp.state s g = 1 → exec (.drainSlot path) s = .next ((s.setSlotState g 2).drainedCheck g)) ∧
  (∀ (path : Path) (s : State) (g : Nat), s.pathMay path R.CDE_GRP_CMD = true → s.Up Page.CDE → g = s.sel path F.CDE_GRP_SEL_SLOT
      → Grp.state s g = 3 → exec (.resume path) s = .next (s.setSlotState g 1)) ∧
  (∀ (path : Path) (s : State) (g : Nat), s.pathMay path R.CDE_GRP_CMD = true → s.Up Page.CDE → g = s.sel path F.CDE_GRP_SEL_SLOT
      → s.coding.stalled = [] → s.coding.plain = none → (List.range 8).all (fun p => (s.updPart p).pass.isNone) = true →
      s.lane.jobs.all (fun j => j.todo.isEmpty) = true → s.col.jobs.all (fun x => x.todo.isEmpty) = true → s.pages.jobs = [] → s.arc.restores = [] → s.upd.noise = none → Grp.state s g ≠ 0 → exec (.dissolve path) s = .next ((((((s.slotFresh g).endBusy g).setSlotState g 0).set0
      F.CDR_CMD_STAT_AWAIT_START g).set0 F.CDR_CMD_STAT_REBUILDING g).updCdj.updSeals))

/-- Declaring a role lost, replacing it, and the commands that rebuild rows. (R95, R99, R100, R101, R110, R114) -/
def Obligations.LosingAndRebuildingAMember : Prop :=
  (∀ (path : Path) (role : Fin 32) (s : State) (g : Nat), s.pathMay path R.CDR_ROLE_CMD = true → s.Up Page.CDR → g = s.sel path
      F.CDR_SEL_SLOT → s.roleReason g 1 role.val 0 ≠ 0 → exec (.declareLost path role) s = .next ((s.fset F.CDR_CMD_STAT_REASON
      g (s.roleReason g 1 role.val 0)).emptyDrained)) ∧
  (∀ (path : Path) (role : Fin 32) (s : State) (g : Nat) (s1 s2 s3 s4 : State), s.pathMay path R.CDR_ROLE_CMD = true → s.Up
      Page.CDR → g = s.sel path F.CDR_SEL_SLOT → s.roleReason g 1 role.val 0 = 0 → s1 = s.fset F.CDR_CMD_STAT_REASON g 0 → s2 =
      ((s1.wr64 R.CDR_DECL_SEAL_LO g (s1.rd64 R.CDE_GRP_SEAL_LO g)).wr64 R.CDR_DECL_TICK_LO g s1.tick.now) → s3 = ((((s2.fset
      F.CDR_LOST_ROLES g (setBit (s2.fget F.CDR_LOST_ROLES g) role.val true)).wr R.CDE_MEMB_NODE (g * 32 + role.val)
      0).resetStreams g role.val).acksGiven g role.val).closeDone → s4 = s3.logErr
      { block := Page.CDR, code := 0x0408, sev := 0, part := some (Grp.part s3 g), detail := [g, role.val, 0, Grp.node s1 g role.val] }
      → exec (.declareLost path role) s = .next ((((((s4.coding.gathers.filter fun x => x.slot == g && x.asked.any fun a => a.2.1
      == role.val).foldl (fun x y => x.gatherFail y role.val false) s4).actingCheck g).formGrpSeal g).settleAll g).emptyDrained)) ∧
  (∀ (path : Path) (role : Fin 32) (node : BitVec 20) (s : State) (g : Nat) (s1 s2 s3 : State), s.pathMay path R.CDR_ROLE_CMD =
      true → s.Up Page.CDR → g = s.sel path F.CDR_SEL_SLOT → node.toNat ≤ 262143 → s.roleReason g 2 role.val node.toNat = 0 → s1 = ((s.fset
      F.CDR_CMD_STAT_REASON g 0).fset F.CDE_MEMB_NODE_NODE (g * 32 + role.val) node.toNat).set1 F.CDE_MEMB_NODE_VALID (g * 32 +
      role.val) → s2 = (s1.wr R.CDE_MEMB_DOM_A (g * 32 + role.val) (s1.rd R.CDR_ROLE_DOM_A g)) → s3 = (s2.wr R.CDE_MEMB_DOM_B (g
      * 32 + role.val) (s1.rd R.CDR_ROLE_DOM_B g)) → exec (.replace path role node) s = .next (((s3.fset F.CDR_LOST_ROLES g
      (setBit (s3.fget F.CDR_LOST_ROLES g) role.val false)).resetStreams g role.val).actingCheck g)) ∧
  (∀ (path : Path) (role : Fin 32) (s : State) (g : Nat) (s1 : State), s.pathMay path R.CDR_ROLE_CMD = true → s.Up Page.CDR → g =
      s.sel path F.CDR_SEL_SLOT → s.roleReason g 3 role.val 0 = 0 → s1 = (((s.fset F.CDR_CMD_STAT_REASON g 0).set0
      F.CDR_CMD_STAT_AWAIT_START g).set1 F.CDR_CMD_STAT_REBUILDING g).fset F.CDR_CURSOR_ROW g 0 → s1.fget F.CDR_LEFT_ROWS g ≠ 0
      → exec (.startRebuild path role) s = .next s1) ∧
  (∀ (slot : Fin 16) (s : State), s.run = .running → alGet s.coding.busy slot.val = some .markPending → exec (.rebuildInstallDone
      slot) s = .next ((s.installed slot.val).set1 F.CDR_CMD_STAT_AWAIT_START slot.val)) ∧
  (∀ (slot : Fin 16) (s : State) (r : Nat), s.run = .running → s.flag F.CDR_CMD_STAT_REBUILDING slot.val = true → s.flag
      F.CDR_CTRL_PAUSE = false → s.regionBefore slot.val = false → (List.range (Grp.rows s slot.val)).find? (fun r => decide
      (s.fget F.CDR_CURSOR_ROW slot.val ≤ r) && s.rowPending slot.val r && !s.gathering slot.val r) = some r → exec (.rebuildRow slot) s = .next ((s.fset
      F.CDR_CURSOR_ROW slot.val (r + 1)).gatherStart slot.val r .rebuild)) ∧
  (∀ (slot : Fin 16) (row : Nat) (role : Fin 32) (s : State) (x : Gather), s.run = .running → s.coding.gathers.find? (fun x =>
      x.slot == slot.val && x.row == row && x.asked.any fun a => a.2.1 == role.val) = some x → exec (.gatherTimeout slot row
      role) s = .next (((s.suspect slot.val role.val 0x0409 row).gatherFail x role.val false).heldRepairs.retryStalled.colAdvance))

/-- Records, gathers, repairs and arrivals that come from the members of a group. (R75, R104, R105, R108, R117, R121) -/
def Obligations.GatherAndRecordMessages : Prop :=
  (∀ (gate : Bool) (src : BitVec 20) (msg : List Byte) (s : State) (s1 : State) (g : Nat), s.Up Page.FBP → s.rxCredits 1 false
      ≠ 0 → ¬ 262143 < src.toNat → gate = false → s1 = s.msgIn 1 false gate src.toNat msg → s1.slotOf (fieldLE msg
      2 2) (fieldLE msg 10 1) = some g → 48 ≤ msg.length → crcOk msg 44 = true → fieldLE msg 40 4 = crc32c (msg.drop 48) →
      fieldLE msg 4 1 < Grp.n s1 g → Grp.lost s1 g (fieldLE msg 4 1) = false → Grp.node s1 g (fieldLE msg 4 1) = fieldLE msg 36
      4 → fieldLE msg 0 1 = 1 → fieldLE msg 1 1 = 1 → fieldLE msg 12 4 < Grp.rows s1 g → fieldLE msg 6 1 < Grp.k s1 g → fieldLE
      msg 6 1 = symOf (Grp.n s1 g) (fieldLE msg 4 1) (fieldLE msg 12 4) → symOf (Grp.n s1 g) (Grp.own s1 g) (fieldLE msg 12 4) =
      Grp.k s1 g + fieldLE msg 5 1 → fieldLE msg 16 8 ≠ 0 → msg.length = 48 + 64 * popCount 64 (fieldLE msg 16 8) → fieldLE msg
      24 4 = (s1.rxGet g (fieldLE msg 4 1)).next → exec (.deltaRecord gate src msg) s = .next ((State.drainAhead g (fieldLE msg
      4 1) (s1.rxGet g (fieldLE msg 4 1)).ahead.length (s1.takeRecord g (fieldLE msg 4 1) (fieldLE msg 24 4) msg)).heldRepairs)) ∧
  (∀ (gate : Bool) (src : BitVec 20) (msg : List Byte) (s : State) (s1 : State) (g : Nat), s.Up Page.FBP → s.rxCredits 1 false
      ≠ 0 → ¬ 262143 < src.toNat → gate = false → s1 = s.msgIn 1 false gate src.toNat msg → s1.slotOf (fieldLE msg
      2 2) (fieldLE msg 10 1) = some g → 48 ≤ msg.length → crcOk msg 44 = true → fieldLE msg 40 4 = crc32c (msg.drop 48) →
      fieldLE msg 4 1 < Grp.n s1 g → Grp.lost s1 g (fieldLE msg 4 1) = false → Grp.node s1 g (fieldLE msg 4 1) = fieldLE msg 36
      4 → fieldLE msg 0 1 = 8 → fieldLE msg 1 1 = 1 → fieldLE msg 12 4 < Grp.rows s1 g → fieldLE msg 6 1 < Grp.k s1 g → fieldLE
      msg 6 1 = symOf (Grp.n s1 g) (fieldLE msg 4 1) (fieldLE msg 12 4) → symOf (Grp.n s1 g) (Grp.own s1 g) (fieldLE msg 12 4) =
      Grp.k s1 g + fieldLE msg 5 1 → fieldLE msg 16 8 ≠ 0 → msg.length = 48 + 64 * popCount 64 (fieldLE msg 16 8) → fieldLE msg
      24 4 = (s1.rxGet g (fieldLE msg 4 1)).next → exec (.repairRecord gate src msg) s = .next ((State.drainAhead g (fieldLE msg
      4 1) (s1.rxGet g (fieldLE msg 4 1)).ahead.length (s1.takeRecord g (fieldLE msg 4 1) (fieldLE msg 24 4) msg)).heldRepairs)) ∧
  (∀ (gate : Bool) (src : BitVec 20) (msg : List Byte) (s : State) (s1 : State) (g : Nat), s.Up Page.FBP → s.rxCredits 1 false
      ≠ 0 → ¬ 262143 < src.toNat → gate = false → s1 = s.msgIn 1 false gate src.toNat msg → s1.slotOf (fieldLE msg
      2 2) (fieldLE msg 10 1) = some g → 48 ≤ msg.length → crcOk msg 44 = true → fieldLE msg 40 4 = crc32c (msg.drop 48) →
      fieldLE msg 4 1 < Grp.n s1 g → Grp.lost s1 g (fieldLE msg 4 1) = false → Grp.node s1 g (fieldLE msg 4 1) = fieldLE msg 36
      4 → fieldLE msg 0 1 = 1 → fieldLE msg 1 1 = 1 → fieldLE msg 12 4 < Grp.rows s1 g → fieldLE msg 6 1 < Grp.k s1 g → fieldLE
      msg 6 1 = symOf (Grp.n s1 g) (fieldLE msg 4 1) (fieldLE msg 12 4) → symOf (Grp.n s1 g) (Grp.own s1 g) (fieldLE msg 12 4) =
      Grp.k s1 g + fieldLE msg 5 1 → fieldLE msg 16 8 ≠ 0 → msg.length = 48 + 64 * popCount 64 (fieldLE msg 16 8) → fieldLE msg
      24 4 ≠ (s1.rxGet g (fieldLE msg 4 1)).next → serialLe (fieldLE msg 24 4) (s1.rxGet g (fieldLE msg 4 1)).next = true → exec
      (.deltaRecord gate src msg) s = .next (((s1.bump F.CDJ_RX_DUP_COUNT).sendAck g (fieldLE msg 4 1)).heldRepairs)) ∧
  (∀ (gate : Bool) (src : BitVec 20) (msg : List Byte) (s : State) (s1 : State) (g : Nat), s.Up Page.FBP → s.rxCredits 1 false
      ≠ 0 → ¬ 262143 < src.toNat → gate = false → s1 = s.msgIn 1 false gate src.toNat msg → msg.length = 32 →
      fieldLE msg 0 1 = 6 → fieldLE msg 1 1 = 1 → crcOk msg 28 = true → s1.slotOf (fieldLE msg 2 2) (fieldLE msg 6 1) = some g →
      (Grp.n s1 g ≤ fieldLE msg 4 1 ∨ Grp.node s1 g (fieldLE msg 4 1) ≠ src.toNat ∨ Grp.lost s1 g (fieldLE msg 4 1) = true ∨
      Grp.rows s1 g ≤ fieldLE msg 8 4 ∨ fieldLE msg 5 1 ≠ Grp.own s1 g) → exec (.gatherRequest gate src
      msg) s = .next (s1.sendMsg 1 src.toNat (resp := true) (withCrc (leBytes 1 7 ++ leBytes 1 1 ++ leBytes 2 (Grp.gid s1 g) ++
      leBytes 1 (Grp.own s1 g) ++ leBytes 1 (fieldLE msg 4 1) ++ leBytes 1 (Grp.gen s1 g) ++ leBytes 1 2 ++ leBytes 4 (fieldLE
      msg 8 4) ++ leBytes 4 (fieldLE msg 12 4) ++ leBytes 1 (symOf (Grp.n s1 g) (Grp.own s1 g) (fieldLE msg 8 4)) ++ leBytes 1 0
      ++ leBytes 2 0 ++ leBytes 1 0 ++ leBytes 3 0 ++ leBytes 4 0 ++ leBytes 12 0 ++ leBytes 4 (crc32c []))))) ∧
  (∀ (gate : Bool) (src : BitVec 20) (msg : List Byte) (s : State) (s1 : State) (g r : Nat) (tg : State × TagLine) (rd : State ×
      Read), s.Up Page.FBP → s.rxCredits 1 false ≠ 0 → ¬ 262143 < src.toNat → gate = false → s1 = s.msgIn 1 false gate src.toNat msg → msg.length = 32 → fieldLE msg 0 1 = 6 → fieldLE msg 1 1 =
      1 → crcOk msg 28 = true → s1.slotOf (fieldLE msg 2 2) (fieldLE msg 6 1) = some g → fieldLE msg 4 1 < Grp.n s1 g → Grp.node s1
      g (fieldLE msg 4 1) = src.toNat → Grp.lost s1 g (fieldLE msg 4 1) = false → fieldLE msg 8 4 < Grp.rows s1 g → fieldLE msg 5 1 =
      Grp.own s1 g → r = fieldLE msg 8 4 → tg = s1.tagRead g r → tagPending tg.2 = false → tagEscalated tg.2 = false → rd =
      tg.1.readTier (Grp.tier tg.1 g) (Grp.slotAddr tg.1 g r) 4096 → bit (fieldLE msg 7 1) 0 = false → (rd.2.erased.isEmpty &&
      !rd.2.poisoned) = true → Grp.k rd.1 g ≤ symOf (Grp.n s1 g) (Grp.own s1 g) r → exec (.gatherRequest gate src msg) s = .next
      (rd.1.sendMsg 1 src.toNat (resp := true) (withCrc (leBytes 1 7 ++ leBytes 1 1 ++ leBytes 2 (Grp.gid rd.1 g) ++ leBytes 1
      (Grp.own s1 g) ++ leBytes 1 (fieldLE msg 4 1) ++ leBytes 1 (Grp.gen rd.1 g) ++ leBytes 1 0 ++ leBytes 4 r ++ leBytes 4
      (fieldLE msg 12 4) ++ leBytes 1 (symOf (Grp.n s1 g) (Grp.own s1 g) r) ++ leBytes 1 0 ++ leBytes 2 0 ++ leBytes 1 0 ++
      leBytes 3 0 ++ leBytes 4 (tg.2 ++ rd.2.raw).length ++ leBytes 12 0 ++ leBytes 4 (crc32c (tg.2 ++ rd.2.raw))) ++ (tg.2 ++
      rd.2.raw)))) ∧
  (∀ (gate : Bool) (src : BitVec 20) (msg : List Byte) (damaged : Bool) (s : State) (s1 : State) (g : Nat) (x : Gather), s.Up Page.FBP → s.rxCredits 1 true ≠ 0 → ¬ 262143 < src.toNat → gate = false → s1 = s.msgIn 1 true gate src.toNat msg → 48 ≤ msg.length → crcOk msg 44 = true → fieldLE msg 0 1 = 7 → fieldLE msg 1 1 = 1 → fieldLE msg 40 4 = crc32c
      (msg.drop 48) → s1.slotOf (fieldLE msg 2 2) (fieldLE msg 6 1) = some g → fieldLE msg 4 1 < Grp.n s1 g → Grp.lost s1 g
      (fieldLE msg 4 1) = false → Grp.node s1 g (fieldLE msg 4 1) = src.toNat → s1.coding.gathers.find? (fun x => x.slot == g &&
      x.row == fieldLE msg 8 4 && x.asked.any fun a => a.1 == fieldLE msg 12 4 && a.2.1 == fieldLE msg 4 1) = some x → damaged =
      false → fieldLE msg 7 1 ≠ 0 → exec (.gatherResponse gate src msg damaged) s = .next ((s1.gatherFail x (fieldLE msg 4
      1) (fieldLE msg 7 1 == 1)).heldRepairs.retryStalled.colAdvance)) ∧
  (∀ (gate : Bool) (src : BitVec 20) (msg : List Byte) (s : State) (s1 : State) (g : Nat) (x : Gather), s.Up Page.FBP →
      s.rxCredits 1 true ≠ 0 → ¬ 262143 < src.toNat → gate = false → s1 = s.msgIn 1 true gate src.toNat msg → 48 ≤
      msg.length → crcOk msg 44 = true → fieldLE msg 0 1 = 7 → fieldLE msg 1 1 = 1 → fieldLE msg 40 4 = crc32c (msg.drop 48) →
      s1.slotOf (fieldLE msg 2 2) (fieldLE msg 6 1) = some g → fieldLE msg 4 1 < Grp.n s1 g → Grp.lost s1 g (fieldLE msg 4 1) =
      false → Grp.node s1 g (fieldLE msg 4 1) = src.toNat → s1.coding.gathers.find? (fun x => x.slot == g && x.row == fieldLE msg 8
      4 && x.asked.any fun a => a.1 == fieldLE msg 12 4 && a.2.1 == fieldLE msg 4 1) = some x → fieldLE msg 7 1 = 0 → exec
      (.gatherResponse gate src msg false) s = .next
      (let tagOnly := ((x.asked.find? (·.1 == fieldLE msg 12 4)).map (·.2.2)).getD false
       let v : SrcVal := ⟨fieldLE msg 4 1, (msg.drop 48).take 64, if tagOnly then none else some (((msg.drop 48).drop 64).take 4096), if
           tagOnly then [] else parseJournal (fieldLE msg 17 1) ((msg.drop 48).drop 4160)⟩
       ((s1.gatherStep { x with asked := x.asked.filter (fun a => a.1 != fieldLE msg 12 4), got := x.got.filter (fun w => w.role !=
           fieldLE msg 4 1) ++ [v] }).heldRepairs.retryStalled).colAdvance)) ∧
  (∀ (gate : Bool) (src : BitVec 20) (msg : List Byte) (s : State) (s1 : State) (g : Nat), s.Up Page.FBP → s.rxCredits 1 false
      ≠ 0 → ¬ 262143 < src.toNat → gate = false → s1 = s.msgIn 1 false gate src.toNat msg → (s1.msgSlot src.toNat
      msg 0x0A 4).2 = some g → fieldLE msg 5 1 = Grp.own s1 g → fieldLE msg 8 4 < Grp.rows s1 g → Grp.k s1 g ≤ symOf (Grp.n s1
      g) (Grp.own s1 g) (fieldLE msg 8 4) → exec (.reseed gate src msg) s = .next (s1.gatherStart g (fieldLE msg 8 4) .reseed)) ∧
  (∀ (gate : Bool) (src : BitVec 20) (msg : List Byte) (s : State) (s1 : State) (g : Nat), s.Up Page.FBP → s.rxCredits 1 false
      ≠ 0 → ¬ 262143 < src.toNat → gate = false → s1 = s.msgIn 1 false gate src.toNat msg → (s1.msgSlot src.toNat
      msg 9 4).2 = some g → Grp.acting s1 g = Grp.own s1 g → exec (.arrival gate src msg) s = .next (s1.noteArrival g (fieldLE
      msg 4 1) (fieldLE msg 16 8) (fieldLE msg 8 4))) ∧
  (∀ (slot : Fin 16) (role : Fin 32) (tick : BitVec 64) (s : State), s.run = .running → Grp.state s slot.val ≠ 0 → Grp.acting s
      slot.val = Grp.own s slot.val → (Grp.live s slot.val).contains role.val = true → alGet ((alGet s.coding.arrivals (slot.val
      * 32 + role.val)).getD []) tick.toNat = none → exec (.arrivalMissing slot role tick) s = .next ((s.countLast slot.val
      role.val).noteArrival slot.val role.val tick.toNat missingOffset)) ∧
  (∀ (slot : Fin 16) (s : State), s.run = .running → s.tick.now % max (s.fget F.CDR_STRAG_WIN_TICKS slot.val) 1 = 0 → exec
      (.stragWindowEnd slot) s = .next ((List.range 20).foldl (fun (x : State) p => ((x.fset F.CDR_STRAG_LAST_PREV (slot.val *
      32 + p) (x.fget F.CDR_STRAG_LAST_CUR (slot.val * 32 + p))).fset F.CDR_STRAG_LAST_CUR (slot.val * 32 + p) 0).wr
      R.CDR_STRAG_LATE (slot.val * 32 + p) 0) s))

/-- A pass is asked for, begins at its boundary, walks its layers and ends; that a second GO leaves the time of the first is the
model’s reading, log entry 19. (R128, R129, R130, R261) -/
def Obligations.PassesStartAndEnd : Prop :=
  (∀ (path : Path) (s : State) (p : Nat), s.pathMay path R.UPD_PASS = true → s.Up Page.UPD → p = s.sel path F.UPD_PART_SEL_PART →
      exec (.updPassGo path) s = .next ((s.setUpdPart p
      { s.updPart p with go := some ((s.updPart p).go.getD s.tick.hall) }).set1 F.UPD_FLIP_STAT_PASS_PENDING p)) ∧
  (∀ (part : Fin 8) (s : State), s.Up Page.UPD → s.passDue part.val = true → exec (.passBegin part) s = .next
      (let h := s.belModes.holdPages part.val (s.passRuns part.val)
       let s2 := h.1.setUpdPart part.val
           { h.1.updPart part.val with go := none, pass := some ⟨s.rd R.UPD_CLIP_SCALE part.val, s.rd R.UPD_STEP part.val, s.rd R.CNV_SEED_LO part.val + s.rd R.CNV_SEED_HI part.val * 2 ^ 32, s.hpWords, 0, none, 0, [], 0, [], [], h.2, false, [], []⟩ }
       (s2.set0 F.UPD_FLIP_STAT_PASS_PENDING part.val).set1 F.UPD_FLIP_STAT_PASS_ACTIVE part.val)) ∧
  (∀ (part : Fin 8) (s : State) (z x : Pass) (addr : Nat) (s1 : State) (bs : List (Option Byte)) (d : List Byte), s.Up Page.UPD →
      s.passOn part.val = some z → z.todo = [] → z.late = [] → x = { z with pinned := false } → x.desc = none → x.layer < s.fget F.UPD_LTAB_COUNT_COUNT part.val → addr
      = s.fget F.UPD_LTAB_BASE_BASE part.val * 4096 + 64 * x.layer → s1 = ((s.setPass part.val (some x)).updRead part.val addr
      64).1 → ((s.setPass part.val (some x)).updRead part.val addr 64).2 = .ok bs → d = bs.map (·.getD 0xFF) → s1.ldReason
      part.val d ≠ 0 → exec (.layerBegin part) s = .next (s1.layerSkip part.val x d (s1.ldReason part.val d))) ∧
  (∀ (part : Fin 8) (s : State) (z x : Pass) (addr : Nat) (s1 : State) (bs : List (Option Byte)) (d : List Byte), s.Up Page.UPD →
      s.passOn part.val = some z → z.todo = [] → z.late = [] → x = { z with pinned := false } → x.desc = none → x.layer < s.fget F.UPD_LTAB_COUNT_COUNT part.val → addr
      = s.fget F.UPD_LTAB_BASE_BASE part.val * 4096 + 64 * x.layer → s1 = ((s.setPass part.val (some x)).updRead part.val addr
      64).1 → ((s.setPass part.val (some x)).updRead part.val addr 64).2 = .ok bs → d = bs.map (·.getD 0xFF) → s1.ldReason
      part.val d = 0 → (ldReady d = 0xFFFF ∨ bit (s1.rd (R.COL_FLAG_0 + 4 * (ldReady d / 32)) part.val) (ldReady d % 32) = true)
      → exec (.layerBegin part) s = .next
      (let r := s1.holdPages part.val (ldRegions d ((s1.ldProg d).getD .genOnly))
       (r.1.updErrClear part.val).setPass part.val (some
           { x with desc := some d, pos := 0, flags := x.noteFlag (ldReady d), pages := x.pages ++ r.2 }))) ∧
  (∀ (part : Fin 8) (s : State) (z x : Pass), s.Up Page.UPD → s.passOn part.val = some z → z.todo = [] → z.late = [] → x = { z with pinned := false } → x.desc = none →
      s.fget F.UPD_LTAB_COUNT_COUNT part.val ≤ x.layer → exec (.passEnd part) s = .next
      (let s1 := x.slots.foldl (fun y i => y.belEnd x.step i) (s.setPass part.val (some x))
       let s2 := x.flags.foldl (fun y f => y.wr (R.COL_FLAG_0 + 4 * (f / 32)) part.val (setBit (y.rd (R.COL_FLAG_0 + 4 * (f / 32))
           part.val) (f % 32) false)) s1
       let s3 := s2.unholdPages x.pages
       let s4 := s3.setUpdPart part.val { s3.updPart part.val with pass := none, passed := true }
       (s4.set0 F.UPD_FLIP_STAT_PASS_ACTIVE part.val).irq Page.UPD 5))

/-- The built-in programs update the next group of elements of a layer, dense or sparse; a generator format only where the buffer
that is written is not pinned; what a poisoned gradient does to a row of ADAGRAD_ROW is the model’s reading, log entry 33. (R136,
R137, R148) -/
def Obligations.BuiltInProgramsUpdateElements : Prop :=
  (∀ (part : Fin 8) (s : State) (z x : Pass) (d : List Byte) (q : State × Option (Option Nat)) (e n : Nat) (r : State × Option (List ElemIn)) (v : State × Bool) (xs : List ElemIn) (os : List ElemOut), s.Up Page.UPD → s.passOn part.val = some z → z.todo = [] → z.late = [] → x = { z with pinned := false } → x.desc = some d → ldProgram d = 1 →
      x.pos < ldTotal d → (ldGenFmt d = 0 ∨ (s.setPass part.val (some x)).nextPins part.val = 0) → q = (s.setPass part.val (some
      x)).elemAt part.val d x.pos → q.2 = some (some e) → n = min (32 - e % 32) (ldTotal d - x.pos) →
      r = q.1.readElems part.val x d (.words progSgdMom) e x.pos n → r.2 = some xs → v = r.1.genTurn part.val d e n → v.2 = true → os = xs.map (wordsElem progSgdMom
      ((List.range 12).map fun i => x.hpWord (ldHpSet d) i) 0 0) → exec (.sgdMom part) s = .next
      (let file := ((os.filterMap (·.file)).getLast?).getD v.1.upd.file
       let s2 := { v.1 with upd := { v.1.upd with file := file } }
       (s2.groupDone part.val x d e os).groupSet part.val x d n (groupWrites d e os) true)) ∧
  (∀ (part : Fin 8) (s : State) (z x : Pass) (d : List Byte) (q : State × Option (Option Nat)) (e n : Nat) (r : State × Option (List ElemIn)) (v : State × Bool) (xs : List ElemIn) (os : List ElemOut), s.Up Page.UPD → s.passOn part.val = some z → z.todo = [] → z.late = [] → x = { z with pinned := false } → x.desc = some d → ldProgram d = 2 →
      x.pos < ldTotal d → (ldGenFmt d = 0 ∨ (s.setPass part.val (some x)).nextPins part.val = 0) → q = (s.setPass part.val (some
      x)).elemAt part.val d x.pos → q.2 = some (some e) → n = min (32 - e % 32) (ldTotal d - x.pos) →
      r = q.1.readElems part.val x d (.words progNesterov) e x.pos n → r.2 = some xs → v = r.1.genTurn part.val d e n → v.2 = true → os = xs.map (wordsElem progNesterov
      ((List.range 12).map fun i => x.hpWord (ldHpSet d) i) 0 0) → exec (.sgdNesterov part) s = .next
      (let file := ((os.filterMap (·.file)).getLast?).getD v.1.upd.file
       let s2 := { v.1 with upd := { v.1.upd with file := file } }
       (s2.groupDone part.val x d e os).groupSet part.val x d n (groupWrites d e os) true)) ∧
  (∀ (part : Fin 8) (s : State) (z x : Pass) (d : List Byte) (q : State × Option (Option Nat)) (e n : Nat) (r : State × Option (List ElemIn)) (v : State × Bool) (xs : List ElemIn) (os : List ElemOut), s.Up Page.UPD → s.passOn part.val = some z → z.todo = [] → z.late = [] → x = { z with pinned := false } → x.desc = some d → ldProgram d = 3 →
      x.pos < ldTotal d → (ldGenFmt d = 0 ∨ (s.setPass part.val (some x)).nextPins part.val = 0) → q = (s.setPass part.val (some
      x)).elemAt part.val d x.pos → q.2 = some (some e) → n = min (32 - e % 32) (ldTotal d - x.pos) →
      r = q.1.readElems part.val x d (.words progAdamw) e x.pos n → r.2 = some xs → v = r.1.genTurn part.val d e n → v.2 = true → os = xs.map (wordsElem progAdamw
      ((List.range 12).map fun i => x.hpWord (ldHpSet d) i) 0 0) → exec (.adamw part) s = .next
      (let file := ((os.filterMap (·.file)).getLast?).getD v.1.upd.file
       let s2 := { v.1 with upd := { v.1.upd with file := file } }
       (s2.groupDone part.val x d e os).groupSet part.val x d n (groupWrites d e os) true)) ∧
  (∀ (part : Fin 8) (s : State) (z x : Pass) (d : List Byte) (q : State × Option (Option Nat)) (e n : Nat) (r : State × Option (List ElemIn)) (v : State × Bool) (xs : List ElemIn) (os : List ElemOut), s.Up Page.UPD → s.passOn part.val = some z → z.todo = [] → z.late = [] → x = { z with pinned := false } → x.desc = some d → ldProgram d = 4 →
      x.pos < ldTotal d → (ldGenFmt d = 0 ∨ (s.setPass part.val (some x)).nextPins part.val = 0) → q = (s.setPass part.val (some
      x)).elemAt part.val d x.pos → q.2 = some (some e) → n = min (32 - e % 32) (ldTotal d - x.pos) →
      r = q.1.readElems part.val x d (.words progLion) e x.pos n → r.2 = some xs → v = r.1.genTurn part.val d e n → v.2 = true → os = xs.map (wordsElem progLion
      ((List.range 12).map fun i => x.hpWord (ldHpSet d) i) 0 0) → exec (.lion part) s = .next
      (let file := ((os.filterMap (·.file)).getLast?).getD v.1.upd.file
       let s2 := { v.1 with upd := { v.1.upd with file := file } }
       (s2.groupDone part.val x d e os).groupSet part.val x d n (groupWrites d e os) true)) ∧
  (∀ (part : Fin 8) (s : State) (z x : Pass) (d : List Byte) (q : State × Option (Option Nat)) (e n : Nat) (r : State × Option (List ElemIn)) (v : State × Bool) (xs : List ElemIn), s.Up Page.UPD → s.passOn part.val = some z → z.todo = [] → z.late = [] → x = { z with pinned := false } → x.desc = some d → ldProgram d = 6 →
      x.pos < ldTotal d → (ldGenFmt d = 0 ∨ (s.setPass part.val (some x)).nextPins part.val = 0) → q = (s.setPass part.val (some
      x)).elemAt part.val d x.pos → q.2 = some (some e) → n = min (32 - e % 32) (ldTotal d - x.pos) →
      r = q.1.readElems part.val x d .genOnly e x.pos n → r.2 = some xs → v = r.1.genTurn part.val d e n → v.2 = true → exec (.genOnly part) s = .next
      ((v.1.groupDone part.val x d e (xs.map genOnlyElem)).groupSet part.val x d n (groupWrites d e (xs.map genOnlyElem)) true)) ∧
  (∀ (part : Fin 8) (s : State) (z x : Pass) (d : List Byte) (q : State × Option (Option Nat)) (e : Nat) (r : State × Option (List
      ElemIn)) (xs : List ElemIn), s.Up Page.UPD → s.passOn part.val = some z → z.todo = [] → z.late = [] → x = { z with pinned := false }
      → x.desc = some d → ldProgram d = 5 → x.pos < ldTotal d → (ldGenFmt d = 0 ∨ (s.setPass part.val (some x)).nextPins part.val = 0)
      → q = (s.setPass part.val (some x)).elemAt part.val d x.pos → q.2 = some (some e) → r = q.1.readElems part.val x d .adagrad e
      x.pos 32 → r.2 = some xs → x.ins.length + xs.length < ldRow d → exec (.adagradRow part) s = .next (r.1.setPass part.val (some
      { x with pos := x.pos + 32, ins := x.ins ++ xs }))) ∧
  (∀ (part : Fin 8) (s : State) (z x : Pass) (d : List Byte) (q : State × Option (Option Nat)) (e : Nat) (r : State × Option (List
      ElemIn)) (xs : List ElemIn) (u : State × UpdRead) (ab : List (Option Byte)) (acc : Option Nat), s.Up Page.UPD → s.passOn part.val
      = some z → z.todo = [] → z.late = [] → x = { z with pinned := false } → x.desc = some d → ldProgram d = 5 → x.pos < ldTotal d →
      (ldGenFmt d = 0 ∨ (s.setPass part.val (some x)).nextPins part.val = 0) → q = (s.setPass part.val (some x)).elemAt part.val d x.pos
      → q.2 = some (some e) → r = q.1.readElems part.val x d .adagrad e x.pos 32 → r.2 = some xs → ldRow d ≤ x.ins.length + xs.length → u
      = r.1.updRead part.val (ldAddr d 8 + 4 * (e / ldRow d)) 4 → u.2 = .ok ab → acc = adagradAcc ((wordsOf 4 ab).headD none) (x.ins ++ xs)
      → exec (.adagradRow part) s = .next
      (let s1 := if acc.any (fun a => !f32Finite a) then ((u.1.bump F.UPD_NF_OUT_COUNT).irq Page.UPD 1).updErr part.val 0x0304 1 x.layer
           (e + 32 - ldRow d) (ldProgram d) x.step else u.1
       s1.setPass part.val (some { x with pos := x.pos + 32, ins := [], late := x.late ++ (List.zipIdx (chunks 32 (x.ins ++ xs))).map fun c => ⟨e + 32 - ldRow d + 32 * c.2, acc, c.1⟩ }))) ∧
  (∀ (s : State) (p : Nat) (x : Pass) (d : List Byte) (y : RowGroup) (ys : List RowGroup) (v : State × Bool) (os : List
      ElemOut), x.late = y :: ys → x.desc = some d → (ldGenFmt d = 0 ∨ s.nextPins p = 0) → v = s.genTurn p d y.elem y.ins.length → v.2 =
      true → os = y.ins.map (adagradElem (fun i => x.hpWord (ldHpSet d) i) y.acc) → s.rowGroup p x = (v.1.groupDone p x d y.elem os, some
      { x with late := ys, due := v.1.dueOf p, slots := if ldTlm d then nsAdd x.slots (ldSlot d) else x.slots, todo := groupWrites d y.elem os ++ (if y.elem % ldRow d = 0 then stateWrites (ldAddr d 8) 4 (y.elem / ldRow d) [y.acc] else []) }))

/-- Programs 1 to 4 are the operation sequences of the table. (R136) -/
def Obligations.BuiltInProgramSequences : Prop :=
  (∀ (hp : List Nat) (w g m1 m2 f1 f2 : Nat), f32Finite g = true → hp.length = 12 → (wordsElem progSgdMom hp f1 f2 ⟨some w, some
      g, some m1, some m2⟩).w = some (f32Fnma (hp.getD 0 0) (f32Fma (hp.getD 9 0) m1 (f32Fma (hp.getD 6 0) w g)) w) ∧ (wordsElem
      progSgdMom hp f1 f2 ⟨some w, some g, some m1, some m2⟩).m1 = some (f32Fma (hp.getD 9 0) m1 (f32Fma (hp.getD 6 0) w g)) ∧
      (wordsElem progSgdMom hp f1 f2 ⟨some w, some g, some m1, some m2⟩).m2 = none) ∧
  (∀ (hp : List Nat) (w g m1 m2 f1 f2 : Nat), f32Finite g = true → hp.length = 12 → (wordsElem progNesterov hp f1 f2 ⟨some w, some
      g, some m1, some m2⟩).w = some (f32Fnma (hp.getD 0 0) (f32Fma (hp.getD 9 0) (f32Fma (hp.getD 9 0) m1 (f32Fma (hp.getD 6 0)
      w g)) (f32Fma (hp.getD 6 0) w g)) w) ∧ (wordsElem progNesterov hp f1 f2 ⟨some w, some g, some m1, some m2⟩).m1 = some
      (f32Fma (hp.getD 9 0) m1 (f32Fma (hp.getD 6 0) w g)) ∧ (wordsElem progNesterov hp f1 f2 ⟨some w, some g, some m1, some
      m2⟩).m2 = none) ∧
  (∀ (hp : List Nat) (w g m1 m2 f1 f2 : Nat), f32Finite g = true → hp.length = 12 → (wordsElem progAdamw hp f1 f2 ⟨some w, some g,
      some m1, some m2⟩).w = some (f32Fnma (hp.getD 0 0) (f32Fma (hp.getD 6 0) w (f32Div (f32Mul (f32Fma (hp.getD 1 0) m1
      (f32Mul (hp.getD 2 0) g)) (hp.getD 7 0)) (f32Add (f32Sqrt (f32Mul (f32Fma (hp.getD 3 0) m2 (f32Mul (hp.getD 4 0) (f32Mul g
      g))) (hp.getD 8 0))) (hp.getD 5 0)))) w) ∧ (wordsElem progAdamw hp f1 f2 ⟨some w, some g, some m1, some m2⟩).m1 = some
      (f32Fma (hp.getD 1 0) m1 (f32Mul (hp.getD 2 0) g)) ∧ (wordsElem progAdamw hp f1 f2 ⟨some w, some g, some m1, some m2⟩).m2
      = some (f32Fma (hp.getD 3 0) m2 (f32Mul (hp.getD 4 0) (f32Mul g g)))) ∧
  (∀ (hp : List Nat) (w g m1 m2 f1 f2 : Nat), f32Finite g = true → hp.length = 12 → (wordsElem progLion hp f1 f2 ⟨some w, some g,
      some m1, some m2⟩).w = some (f32Fnma (hp.getD 0 0) (f32Fma (hp.getD 6 0) w (f32Sign (f32Fma (hp.getD 1 0) m1 (f32Mul
      (hp.getD 2 0) g)))) w) ∧ (wordsElem progLion hp f1 f2 ⟨some w, some g, some m1, some m2⟩).m1 = some (f32Fma (hp.getD 3 0)
      m1 (f32Mul (hp.getD 4 0) g)) ∧ (wordsElem progLion hp f1 f2 ⟨some w, some g, some m1, some m2⟩).m2 = none)

/-- Each operation of the update unit writes its result into its destination register. (R132) -/
def Obligations.UpdateOperationsWriteTheirDestination : Prop :=
  (∀ (d a b c : Fin 32) (s : State), s.Up Page.UPD → exec (.nopOp d a b c) s = .next s) ∧
  (∀ (d a b c : Fin 32) (s : State), s.Up Page.UPD → 18 ≤ d.val → d.val ≤ 30 → a.val < 28 → exec (.movOp d a b c) s = .next
      { s with upd := { s.upd with file := s.upd.file.set d.val (f32Canon (s.upd.file.getD a.val 0)) } }) ∧
  (∀ (d a b c : Fin 32) (s : State), s.Up Page.UPD → 18 ≤ d.val → d.val ≤ 30 → a.val < 28 → b.val < 28 → exec (.addOp d a b c) s =
      .next
      { s with upd := { s.upd with file := s.upd.file.set d.val (f32Add (s.upd.file.getD a.val 0) (s.upd.file.getD b.val 0)) } }) ∧
  (∀ (d a b c : Fin 32) (s : State), s.Up Page.UPD → 18 ≤ d.val → d.val ≤ 30 → a.val < 28 → b.val < 28 → exec (.subOp d a b c) s =
      .next
      { s with upd := { s.upd with file := s.upd.file.set d.val (f32op2 Sys2Proof.Machine.Num.sub (s.upd.file.getD a.val 0) (s.upd.file.getD b.val 0)) } }) ∧
  (∀ (d a b c : Fin 32) (s : State), s.Up Page.UPD → 18 ≤ d.val → d.val ≤ 30 → a.val < 28 → b.val < 28 → exec (.mulOp d a b c) s =
      .next
      { s with upd := { s.upd with file := s.upd.file.set d.val (f32Mul (s.upd.file.getD a.val 0) (s.upd.file.getD b.val 0)) } }) ∧
  (∀ (d a b c : Fin 32) (s : State), s.Up Page.UPD → 18 ≤ d.val → d.val ≤ 30 → a.val < 28 → b.val < 28 → c.val < 28 → exec (.fmaOp
      d a b c) s = .next
      { s with upd := { s.upd with file := s.upd.file.set d.val (f32Fma (s.upd.file.getD a.val 0) (s.upd.file.getD b.val 0) (s.upd.file.getD c.val 0)) } }) ∧
  (∀ (d a b c : Fin 32) (s : State), s.Up Page.UPD → 18 ≤ d.val → d.val ≤ 30 → a.val < 28 → b.val < 28 → c.val < 28 → exec
      (.fnmaOp d a b c) s = .next
      { s with upd := { s.upd with file := s.upd.file.set d.val (f32Fnma (s.upd.file.getD a.val 0) (s.upd.file.getD b.val 0) (s.upd.file.getD c.val 0)) } }) ∧
  (∀ (d a b c : Fin 32) (s : State), s.Up Page.UPD → 18 ≤ d.val → d.val ≤ 30 → a.val < 28 → b.val < 28 → exec (.divOp d a b c) s =
      .next
      { s with upd := { s.upd with file := s.upd.file.set d.val (f32Div (s.upd.file.getD a.val 0) (s.upd.file.getD b.val 0)) } }) ∧
  (∀ (d a b c : Fin 32) (s : State), s.Up Page.UPD → 18 ≤ d.val → d.val ≤ 30 → a.val < 28 → exec (.sqrtOp d a b c) s = .next
      { s with upd := { s.upd with file := s.upd.file.set d.val (f32Sqrt (s.upd.file.getD a.val 0)) } }) ∧
  (∀ (d a b c : Fin 32) (s : State), s.Up Page.UPD → 18 ≤ d.val → d.val ≤ 30 → a.val < 28 → b.val < 28 → exec (.maxOp d a b c) s =
      .next
      { s with upd := { s.upd with file := s.upd.file.set d.val (f32Pick true (s.upd.file.getD a.val 0) (s.upd.file.getD b.val 0)) } }) ∧
  (∀ (d a b c : Fin 32) (s : State), s.Up Page.UPD → 18 ≤ d.val → d.val ≤ 30 → a.val < 28 → b.val < 28 → exec (.minOp d a b c) s =
      .next
      { s with upd := { s.upd with file := s.upd.file.set d.val (f32Pick false (s.upd.file.getD a.val 0) (s.upd.file.getD b.val 0)) } }) ∧
  (∀ (d a b c : Fin 32) (s : State), s.Up Page.UPD → 18 ≤ d.val → d.val ≤ 30 → a.val < 28 → exec (.absOp d a b c) s = .next
      { s with upd := { s.upd with file := s.upd.file.set d.val (fp32.round (f32 (s.upd.file.getD a.val 0)).abs) } }) ∧
  (∀ (d a b c : Fin 32) (s : State), s.Up Page.UPD → 18 ≤ d.val → d.val ≤ 30 → a.val < 28 → exec (.negOp d a b c) s = .next
      { s with upd := { s.upd with file := s.upd.file.set d.val (fp32.round (f32 (s.upd.file.getD a.val 0)).neg) } }) ∧
  (∀ (d a b c : Fin 32) (s : State), s.Up Page.UPD → 18 ≤ d.val → d.val ≤ 30 → a.val < 28 → exec (.signOp d a b c) s = .next
      { s with upd := { s.upd with file := s.upd.file.set d.val (f32Sign (s.upd.file.getD a.val 0)) } }) ∧
  (∀ (d a b c : Fin 32) (s : State), s.Up Page.UPD → 18 ≤ d.val → d.val ≤ 30 → a.val < 28 → b.val < 28 → c.val < 28 → exec (.selOp
      d a b c) s = .next
      { s with upd := { s.upd with file := s.upd.file.set d.val (f32Sel (s.upd.file.getD a.val 0) (s.upd.file.getD b.val 0) (s.upd.file.getD c.val 0)) } }) ∧
  (∀ (d a b c : Fin 32) (s : State), s.Up Page.UPD → 18 ≤ d.val → d.val ≤ 30 → a.val < 28 → exec (.sqrOp d a b c) s = .next
      { s with upd := { s.upd with file := s.upd.file.set d.val (f32Mul (s.upd.file.getD a.val 0) (s.upd.file.getD a.val 0)) } })

/-- Programs, flips, Belvedere’s window and noise fills. (R133, R145, R154, R155, R158, R159) -/
def Obligations.ProgramsFlipsAndNoise : Prop :=
  (∀ (path : Path) (value : Word) (s : State) (slot : Nat) (ws : List Nat) (bad : Nat), s.pathMay path R.UPD_PROG_CMD = true →
      s.Up Page.UPD → bit value.toNat 16 = true → slot = bits value.toNat 8 3 → ws = (List.range (bits value.toNat 0 5)).map
      (fun i => s.rd R.UPD_PROG_DATA (i + 32 * slot)) → progReason (bits value.toNat 0 5) ws (s.slotInUse slot) = (0, bad) →
      exec (.progLoad path value) s = .next
      (let s1 := (s.fset F.UPD_PROG_STAT_REASON 0 0).fset F.UPD_PROG_STAT_FIRST_BAD 0 bad
       let s2 := { s1 with upd := { s1.upd with progs := alPut s1.upd.progs slot ws } }
       s2.fset F.UPD_PROG_STAT_VALID 0 (setBit (s2.fget F.UPD_PROG_STAT_VALID) slot true))) ∧
  (∀ (path : Path) (value : Word) (s : State) (slot : Nat) (ws : List Nat) (r bad : Nat), s.pathMay path R.UPD_PROG_CMD = true →
      s.Up Page.UPD → bit value.toNat 16 = true → slot = bits value.toNat 8 3 → ws = (List.range (bits value.toNat 0 5)).map
      (fun i => s.rd R.UPD_PROG_DATA (i + 32 * slot)) → progReason (bits value.toNat 0 5) ws (s.slotInUse slot) = (r, bad) → r ≠
      0 → exec (.progLoad path value) s = .next ((s.fset F.UPD_PROG_STAT_REASON 0 r).fset F.UPD_PROG_STAT_FIRST_BAD 0 bad)) ∧
  (∀ (path : Path) (value : Word) (s : State) (p : Nat), s.pathMay path R.UPD_FLIP = true → s.Up Page.UPD → p = s.sel path
      F.UPD_PART_SEL_PART → s.flipReason p value.toNat = 0 → exec (.updFlip path value) s = .next
      (let s1 := s.fset F.UPD_FLIP_STAT_REASON p 0
       (s1.setUpdPart p { s1.updPart p with flip := some (value.toNat, s.tick.hall) }).set1 F.UPD_FLIP_STAT_ARMED p)) ∧
  (∀ (path : Path) (value : Word) (s : State) (p : Nat), s.pathMay path R.UPD_FLIP = true → s.Up Page.UPD → p = s.sel path
      F.UPD_PART_SEL_PART → s.flipReason p value.toNat ≠ 0 → exec (.updFlip path value) s = .next ((s.fset
      F.UPD_FLIP_STAT_REASON p (s.flipReason p value.toNat)).irq Page.UPD 3)) ∧
  (∀ (path : Path) (value : Word) (s : State) (slot : Nat) (bs : List Byte), s.pathMay path R.TLM_RD_SEL = true → s.Up Page.TLM →
      slot = bits value.toNat 0 12 → bs = padTo 128 0 (s.tlmSlot slot).result → exec (.tlmRdSelWrite path value) s = .next
      ((List.range 32).foldl (fun x i => x.wr (R.TLM_RD_0 + 4 * i) (pathCopy path) (fieldLE bs (4 * i) 4)) (s.wr R.TLM_RD_SEL
      (pathCopy path) slot))) ∧
  (∀ (path : Path) (value : Word) (s : State), s.pathMay path R.TLM_CLEAR = true → s.Up Page.TLM → bit value.toNat 12 = false →
      exec (.tlmClear path value) s = .next (s.tlmZero (bits value.toNat 0 12))) ∧
  (∀ (path : Path) (value : Word) (s : State), s.pathMay path R.TLM_CLEAR = true → s.Up Page.TLM → bit value.toNat 12 = true →
      exec (.tlmClearAll path value) s = .next ((s.upd.tlm.map (·.1)).foldl (fun x i => x.tlmZero i) s)) ∧
  (∀ (path : Path) (s : State) (n : Noise), s.pathMay path R.CNV_NOISE_CMD = true → s.Up Page.CNV → s.flag F.CNV_NOISE_STAT_BUSY =
      false → n = ⟨s.fget F.CNV_NOISE_DST_PART, s.fget F.CNV_NOISE_DST_PAGE * 4096, s.rd R.CNV_NOISE_COUNT, s.rd
      R.CNV_NOISE_TID, s.rd R.CNV_NOISE_STEP, s.rd R.CNV_SEED_LO (s.fget F.CNV_NOISE_DST_PART) + s.rd R.CNV_SEED_HI (s.fget
      F.CNV_NOISE_DST_PART) * 2 ^ 32, s.fget F.CNV_NOISE_CFG_DIST, s.flag F.CNV_NOISE_CFG_FMT, 0⟩ → n.dist ≠ 3 → s.flag
      F.CNV_STAT_KAT_FAIL = false → s.runInMap n.part n.addr (n.size * n.count) = true → exec (.noiseGo path) s = .next
      { s.set1 F.CNV_NOISE_STAT_BUSY with upd := { s.upd with noise := some n } }) ∧
  (∀ (s : State), s.flag F.CNV_NOISE_STAT_BUSY = false → s.fget F.CNV_NOISE_CFG_DIST = 3 → s.noiseGo = ((s.set1
      F.CNV_NOISE_STAT_DONE).fset F.CNV_NOISE_STAT_RESULT 0 1).irq Page.CNV 0) ∧
  (∀ (path : Path) (written : Nat) (s : State) (n : Noise) (r : State × Noise), s.pathMay path R.CNV_NOISE_CMD = true → s.Up
      Page.CNV → s.upd.noise = some n → r = State.noiseFill written (n.count + 1) n s → exec (.noiseAbort path written) s =
      .next (r.1.noiseEnd (if r.2.pos = r.2.count then 0 else 2))) ∧
  (∀ (s : State) (n : Noise) (r : State × Noise), s.Up Page.CNV → s.upd.noise = some n → r = State.noiseFill n.count (n.count + 1)
      n s → r.2.pos = r.2.count → exec .noiseDone s = .next (r.1.noiseEnd 0))

/-- The front descriptor of a lane queue goes on; rows, masks, pins and idle windows. (R44, R186, R189, R190, R206, R211, R214) -/
def Obligations.LaneCommandsRunTheFrontDescriptor : Prop :=
  (∀ (queue : Fin 16) (faults : List LaneFault) (s : State) (s1 : State) (j : LaneJob) (d : List Byte), s.Up Page.LNF → s1 =
      s.laneRefetch queue.val → s1.laneFront queue.val = some j → j.desc = some d → j.kind = 1 → exec
      (.streamMm queue faults) s = .next ((s1.smGo { j with wait := false } d faults).colAdvance)) ∧
  (∀ (queue : Fin 16) (s : State) (s1 : State) (j : LaneJob) (d : List Byte), s.Up Page.LNF → s1 = s.laneRefetch queue.val →
      s1.laneFront queue.val = some j → j.desc = some d → j.kind = 2 → exec (.gatherPool queue) s = .next
      ((s1.gpGo { j with wait := false } d).colAdvance)) ∧
  (∀ (queue : Fin 16) (s : State) (s1 : State) (j : LaneJob) (d : List Byte), s.Up Page.LNF → s1 = s.laneRefetch queue.val →
      s1.laneFront queue.val = some j → j.desc = some d → j.kind = 3 → exec (.reduceAdd queue) s = .next
      (s1.raGo { j with wait := false } d)) ∧
  (∀ (queue : Fin 16) (s : State) (s1 : State) (j : LaneJob) (d : List Byte), s.Up Page.LNF → s1 = s.laneRefetch queue.val →
      s1.laneFront queue.val = some j → j.desc = some d → j.kind = 1 → exec (.operandLand queue) s =
      .next ((s1.smGo { j with wait := false } d []).colAdvance)) ∧
  (∀ (path : Path) (cols : Bool) (value : Word) (s : State) (r : Nat), r = (if cols then R.LNF_ROW_COL_BYP else
      R.LNF_ROW_LANE_BYP) → s.pathMay path r = true → s.Up Page.LNF → exec (.bypassWrite path cols value) s = .next
      ((s.pathWrite path r value.toNat).showPending)) ∧
  (∀ (path : Path) (value : Word) (s : State) (w : Nat), s.pathMay path R.LNF_KWIDTH_PIN = true → s.Up Page.LNF → w = min 32 (bits
      value.toNat 0 6) → ((List.range 768).any fun r => (s.fset F.LNF_KWIDTH_PIN_WIDTH 0 w).pinChanges r) = false → exec
      (.kwidthPinWrite path value) s = .next
      (let s1 := s.fset F.LNF_KWIDTH_PIN_WIDTH 0 w
       ({ s1 with lane := { s1.lane with pin := s1.pinWritten } } : State).showPending)) ∧
  (∀ (path : Path) (s : State) (r : Nat), s.pathMay path R.LNF_ROW_TEST = true → s.Up Page.LNF → r = s.sel path F.LNF_ROW_SEL_ROW
      → s.flag F.LNF_TEST_STAT_BUSY = false → s.rowOwner r = none → exec (.rowTest path) s = .next
      (let s1 := ((s.set1 F.LNF_TEST_STAT_BUSY).set0 F.LNF_TEST_STAT_REFUSED).fset F.LNF_TEST_STAT_ROW 0 r
       { s1 with lane := { s1.lane with test := some r } })) ∧
  (∀ (lanes cols : Word) (s : State) (r : Nat), s.Up Page.LNF → s.lane.test = some r → exec (.rowTestDone lanes cols) s = .next
      (let s1 := { s with lane := { s.lane with test := none } }
       let s2 := ((s1.set0 F.LNF_TEST_STAT_BUSY).set1 F.LNF_TEST_STAT_DONE).fset F.LNF_TEST_STAT_PASS 0 (lanes == 0 && cols == 0).toNat
       ((s2.wr R.LNF_TEST_LANES 0 lanes.toNat).wr R.LNF_TEST_COLS 0 cols.toNat).irq Page.LNF 2)) ∧
  (∀ (len : Nat) (s : State) (s1 : State) (a n : Nat), s.Up Page.LNF → s1 = s.fset F.LNF_IDLE_THERMAL 0 (if s.tower.throttle =
      true then 64 - s.fget F.TTH_THROTTLE_FRAC_FRAC else 0) → a = min 63 (max (s1.fget F.LNF_IDLE_THERMAL) (max (s1.fget
      F.LNF_IDLE_POWER) (s1.fget F.LNF_IDLE_MIN))) → n = min len 64 * a / 64 → n = 0 → exec (.idleWindow len) s = .next (s1.fset
      F.LNF_IDLE_APPLIED 0 a)) ∧
  (∀ (len : Nat) (s : State) (s1 : State) (a n : Nat), s.Up Page.LNF → s1 = s.fset F.LNF_IDLE_THERMAL 0 (if s.tower.throttle =
      true then 64 - s.fget F.TTH_THROTTLE_FRAC_FRAC else 0) → a = min 63 (max (s1.fget F.LNF_IDLE_THERMAL) (max (s1.fget
      F.LNF_IDLE_POWER) (s1.fget F.LNF_IDLE_MIN))) → n = min len 64 * a / 64 → n ≠ 0 → exec (.idleWindow len) s = .next
      ((List.range 8).foldl (fun x p => if x.fget F.PTC_STAT_STATE p = 2 then (x.rowCycles p 1 (n * (x.partRows
      p).length)).spend p n else x) (((s1.fset F.LNF_IDLE_APPLIED 0 a).bump F.LNF_IDLE_CNT_CYCLES 0 n).event 0x0701 none n)))

/-- Chains close and release their pin; queues take tails and are enabled. (R197, R204, R205, R220) -/
def Obligations.LaneChainsAndQueues : Prop :=
  (∀ (queue : Fin 16) (s : State) (c : Chain), s.Up Page.LNP → s.chain? queue.val = some c → c.ended = true → exec (.chainEnd
      queue) s = .next ((s.closeChain queue.val).colAdvance)) ∧
  (∀ (queue : Fin 16) (s : State) (c : Chain), s.Up Page.LNP → s.lane.oldChains = [] → s.chain? queue.val = some c → max 1 (s.fget
      F.LNP_CHAIN_LIMIT_TICKS) ≤ c.bounds → exec (.chainLimit queue) s = .next ((((s.closeChain queue.val).logErr
      { block := Page.LNP, code := 0x0208, sev := 0, part := some c.part, detail := [0, 0, queue.val * 65536, s.planId c.part] }).irq Page.LNP
      1).colAdvance)) ∧
  (∀ (queue : Fin 16) (s : State) (c : Chain), s.Up Page.LNP → s.lane.oldChains = [(queue.val, c)] → s.chain? queue.val = none → max 1
      (s.fget F.LNP_CHAIN_LIMIT_TICKS) ≤ c.bounds → exec (.chainLimit queue) s = .next ((((({ s with lane := { s.lane with oldChains := [] } } :
      State).fset (pinField c.buf) c.part (s.fget (pinField c.buf) c.part - 1)).logErr
      { block := Page.LNP, code := 0x0208, sev := 0, part := some c.part, detail := [0, 0, queue.val * 65536, s.planId c.part] }).irq Page.LNP
      1).colAdvance)) ∧
  (∀ (s : State) (q : Nat) (c : Chain), s.chain? q = some c → s.closeChain q =
      (let s1 := (s.fset (pinField c.buf) c.part (s.fget (pinField c.buf) c.part - 1)).set0 F.LNP_Q_STAT_CHAIN_OPEN q
       { s1 with lane := { s1.lane with chains := alDel s.lane.chains q } })) ∧
  (∀ (path : Path) (kind : QKind) (value : Word) (s : State) (q n t : Nat), s.pathMay path (kind.cfg + 0xC) = true → s.Up
      kind.regPage → kind ≠ .lane → q = s.regItem path (kind.cfg + 0xC) → n = s.qSize kind q → t = s.fget kind.tail q → bits
      value.toNat 0 12 < n → (bits value.toNat 0 12 + n - t % n) % n ≤ n - 1 - (t + n - s.fget kind.head q) % n → exec
      (.qTailWrite path kind value) s = .next (s.fset kind.tail q (bits value.toNat 0 12))) ∧
  (∀ (path : Path) (value : Word) (s : State) (q : Nat) (s1 : State), s.pathMay path R.LNP_Q_TAIL = true → s.Up Page.LNP → q =
      s.regItem path R.LNP_Q_TAIL → s1 = s.qTailWrite .lane q (bits value.toNat 0 12) → s1.fget (QKind.tail .lane) q ≠ s.fget
      (QKind.tail .lane) q → exec (.qTailWrite path .lane value) s = .next (s1.noteTail q (s1.fget (QKind.tail .lane) q))) ∧
  (∀ (s : State) (k : QKind) (q v n t o : Nat), n = s.qSize k q → t = s.fget k.tail q → o = (t + n - s.fget k.head q) % n → (n ≤ v
      ∨ n - 1 - o < (v + n - t % n) % n) → s.qTailWrite k q v = (s.set1 k.tailBad q).irq k.regPage k.irqs.2.2) ∧
  (∀ (path : Path) (kind : QKind) (value : Word) (s : State) (q : Nat) (s1 s2 : State), s.pathMay path kind.cfg = true → s.Up
      kind.regPage → kind ≠ .lane → q = s.regItem path kind.cfg → s.flag kind.enable q = false → bit value.toNat 8 = true → s1 =
      s.accWrite kind.cfg q (setBit value.toNat 8 false) → s2 = s1.fset kind.sizeLog q (clamp 6 12 (s1.fget kind.sizeLog q)) →
      exec (.qEnable path kind value) s = .next (s2.qEnable kind q true)) ∧
  (∀ (path : Path) (value : Word) (s : State) (q : Nat) (s1 s2 : State), s.pathMay path R.LNP_Q_CFG = true → s.Up Page.LNP → q =
      s.regItem path R.LNP_Q_CFG → s.flag (QKind.enable .lane) q = false → bit value.toNat 8 = true → s1 = s.accWrite
      R.LNP_Q_CFG q (setBit value.toNat 8 false) → s2 = (s1.fset (QKind.sizeLog .lane) q (clamp 6 12 (s1.fget (QKind.sizeLog
      .lane) q))).qEnable .lane q true → exec (.qEnable path .lane value) s = .next
      { s2 with lane := { s2.lane with tails := alDel s2.lane.tails q } }) ∧
  (∀ (s : State) (k : QKind) (q : Nat), s.flag k.enable q = false → s.qEnable k q true = ((((s.set1 k.enable q).fset k.tail q
      0).fset k.head q 0).fset k.ctail q 0 |>.fset k.chead q 0).qShowFull k q)

/-- Grants at a bank or channel, the quota window, and autonomous refresh. (R232, R233, R378, R379) -/
def Obligations.ArbiterAndRefresh : Prop :=
  (∀ (b : Fin 512) (reqs : List ArbReq) (cmds : List TowerCmd) (damage : List (BitVec 33 × BitVec 9)) (s : State) (s1 : State) (ok
      : Bool) (r : ArbReq), s.run = .running → s1 = ((s.flipCells damage).arbOpp (.bank b)).1 → ok = ((s.flipCells
      damage).arbOpp (.bank b)).2 → s1.arbPick (.bank b) (arbOpen ok reqs) = some r → exec (.arbGrant (.bank b) reqs none cmds
      damage) s = .next (cmds.foldl (fun x c => x.bankCmd b.val r.cls.val c) ((s1.arbTake (.bank b) r).arbOppUse (.bank b) r))) ∧
  (∀ (k : Fin 8) (reqs : List ArbReq) (cmds : List TowerCmd) (damage : List (BitVec 33 × BitVec 9)) (s : State) (s1 : State) (r :
      ArbReq), s.run = .running → s1 = s.flipCells damage → s1.arbPick (.channel k) reqs = some r → exec (.arbGrant (.channel k)
      reqs none cmds damage) s = .next ((s1.arbTake (.channel k) r).arbOppUse (.channel k) r)) ∧
  (∀ (s : State) (b : Fin 512) (reqs : List ArbReq) (r : ArbReq), s.flag F.ARB_STAT_MASKED = false → s.arbUnit (ArbRes.bank b).key
      1 reqs = some r → s.arbPick (.bank b) reqs = some r) ∧
  (∀ (s : State) (b : Fin 512) (reqs : List ArbReq) (r : ArbReq), s.flag F.ARB_STAT_MASKED = true → (reqs.find? fun r => r.cls.val
      == 4) = none → s.arbUnit (ArbRes.bank b).key 2 reqs = some r → s.arbPick (.bank b) reqs = some r) ∧
  (∀ (s : State), s.run = .running → exec .quotaWindow s = .next
      { s.set0 F.ARB_STAT_MASKED with arb := { s.arb with grants := 0 } }) ∧
  (∀ (bank : Fin 512) (eyes : List Nat) (s : State), s.run = .running → s.tower.planRef.contains bank.val = false →
      exec (.autonomousRefresh bank eyes) s = .next (s.refBank bank.val eyes)) ∧
  (∀ (bank : Fin 512) (eyes : List Nat) (s : State), s.run = .running → s.tower.planRef.contains bank.val = true → exec
      (.autonomousRefresh bank eyes) s = .next s)

/-- Orangery entries, temperature samples, the critical halt’s end and retention probes. (R240, R241, R245, R248, R249, R253) -/
def Obligations.TowerRepairTemperatureAndProbe : Prop :=
  (∀ (path : Path) (s : State) (e w : Nat), s.pathMay path R.TWR_ORG_CMD = true → s.Up Page.TWR → e = s.sel path
      F.TWR_ORG_SEL_ENTRY → s.applyReason e = 0 → w = s.rd R.TWR_ORG_ENTRY e → exec (.apply path) s = .next
      (let s1 := s.fset F.TWR_ORG_STAT_REASON 0 0
       { s1 with tower := { s1.tower with orangery := alPut s1.tower.orangery e ⟨if (repairOf (s1.rd R.TWR_ORG_ENTRY e)).kind = 3 then .pendingWarm else .copying, repairOf (s1.rd R.TWR_ORG_ENTRY e), bit (s1.rd R.TWR_ORG_ENTRY e) 2, false, ⟨[], []⟩⟩, spares := nsAdd s1.tower.spares (repairOf (s1.rd R.TWR_ORG_ENTRY e)).spareKey } })) ∧
  (∀ (path : Path) (s : State) (e : Nat), s.pathMay path R.TWR_ORG_CMD = true → s.Up Page.TWR → e = s.sel path F.TWR_ORG_SEL_ENTRY
      → s.applyReason e ≠ 0 → exec (.apply path) s = .next ((s.fset F.TWR_ORG_STAT_REASON 0 (s.applyReason e)).irq Page.TWR 1)) ∧
  (∀ (entry : Fin 256) (s : State) (o : Org), s.Up Page.TWR → s.org entry = some o → o.state = .copying → exec
      (.orangeryCopyDone entry) s = .next
      (({ s with tower := { s.tower with orangery := alPut s.tower.orangery entry { o with copied := true } } } :
      State).repaired (o.repair.word o.fill))) ∧
  (∀ (readings : List (Option Int)) (s : State) (s1 : State) (hot : Nat) (s2 s3 : State), s.run = .running → s1 = (if
      s.tower.throttle = true then s.bump F.TTH_THROTTLE_US_US 0 10 else s).sensors (padTo 32 none readings) → hot = (List.range
      8).foldl (fun b i => if s1.tempEff b < s1.tempEff i then i else b) 0 → s2 = ((s1.showTemps hot (s1.tempEff hot)).warnStep
      (s1.tempEff hot)).throttleStep (s1.tempEff hot) → s3 = (if s2.tower.critical = false ∧
      1600 ≤ s1.tempEff hot then s2.critHalt (s1.tempEff hot) else s2) → exec (.tempSample readings) s = .next
      (((s3.tower.badSensors.filter fun i => !nsMem s.tower.badSensors i).foldl (fun x i => x.sensorLog i) s3).updHalf)) ∧
  (∀ (path : Path) (s : State), s.pathMay path R.TTH_CRIT_CLEAR = true → s.Up Page.TTH → s.tower.critical = true → ((List.range
      8).all fun i => decide (s.tempEff i ≤ 1440)) = true → exec (.critClear path) s = .next
      ((({ s with tower := { s.tower with critical := false, resume := true } } : State).set0 F.TTH_STAT_HALTED).set0
      F.LNF_STAT_HALTED).updHalf) ∧
  (∀ (path : Path) (s : State) (g : Nat), s.pathMay path R.TWR_PROBE_CFG = true → s.Up Page.TWR → g = s.sel path
      F.TWR_PROBE_SEL_GROUP → s.tower.probe = none → s.tower.selfRefresh = false → exec (.probeGo path) s = .next
      (({ s with tower := { s.tower with probe := some ⟨g⟩, probeRows := nsAdd s.tower.probeRows g } } : State).set1
      F.TWR_PROBE_RES_BUSY)) ∧
  (∀ (fails : Nat) (s : State) (p : Probe) (s1 : State) (c : Nat) (s2 : State), s.Up Page.TWR → s.tower.probe = some p → s1 =
      ((({ s with tower := { s.tower with probe := none } } : State).fset F.TWR_PROBE_RES_FAIL_BITS 0 (min fails 0xFFFF)).set0
      F.TWR_PROBE_RES_BUSY).set1 F.TWR_PROBE_RES_DONE → c = s1.fget (tempField (layerOf (8 * p.group))) → s2 = (s1.fset
      F.TWR_PROBE_TEMP_TEMP 0 c).irq Page.TWR 2 → exec (.probeDone fails) s = .next ((if fails = 0 then s2 else s2.logErr
      { block := Page.TWR, code := 0x0130, sev := 0, detail := [8 * p.group, 0, s2.fget (tempField (layerOf (8 * p.group))), 0] }).replanGo)) ∧
  (∀ (path : Path) (s : State), s.pathMay path R.TTH_PEAK = true → s.Up Page.TTH → exec (.tthPeakWrite path) s = .next (s.fset
      F.TTH_PEAK_TEMP 0 (unsigned 16 (s.tempEff (s.fget F.TTH_MAX_LAYER)))))

/-- The descriptor at the head of a page queue is taken, checked, started and carried on. (R264, R268, R273, R274, R275, R278,
R280) -/
def Obligations.PageQueueDescriptorsRun : Prop :=
  (∀ (p : Fin 8) (s : State) (s1 : State) (d : List Byte), s.Up Page.PGM → s.tower.selfRefresh = false → s.fget F.PTC_STAT_STATE p.val ≠ 4 → s.pages.jobs = [] → s.qReady .page p.val = true → s1 = ((s.qHead .page p.val 2).1).qTake .page p.val → (s.qHead .page p.val 2).2 = some
      d → descHeadOk d false = true → fieldLE d 0 1 = 16 → s1.pageReason p.val d = 0 → exec (.mapPages p) s = .next ((s1.setJob
      p.val (some ⟨p.val, ((s.qHead .page p.val 2).1.fget (QKind.head .page) p.val), d, [], false, none⟩)).runJob (s1.pageUnits p.val
      d) p.val)) ∧
  (∀ (p : Fin 8) (s : State) (s1 : State) (d : List Byte), s.Up Page.PGM → s.tower.selfRefresh = false → s.fget F.PTC_STAT_STATE p.val ≠ 4 → s.pages.jobs = [] → s.qReady .page p.val = true → s1 = ((s.qHead .page p.val 2).1).qTake .page p.val → (s.qHead .page p.val 2).2 = some
      d → descHeadOk d false = true → fieldLE d 0 1 = 17 → s1.pageReason p.val d = 0 → exec (.unmap p) s = .next ((s1.setJob
      p.val (some ⟨p.val, ((s.qHead .page p.val 2).1.fget (QKind.head .page) p.val), d, [], false, none⟩)).runJob (s1.pageUnits p.val
      d) p.val)) ∧
  (∀ (p : Fin 8) (s : State) (s1 : State) (d : List Byte), s.Up Page.PGM → s.tower.selfRefresh = false → s.fget F.PTC_STAT_STATE p.val ≠ 4 → s.pages.jobs = [] → s.qReady .page p.val = true → s1 = ((s.qHead .page p.val 2).1).qTake .page p.val → (s.qHead .page p.val 2).2 = some
      d → descHeadOk d false = true → fieldLE d 0 1 = 18 → s1.pageReason p.val d = 0 → exec (.movePages p) s = .next ((s1.setJob
      p.val (some ⟨p.val, ((s.qHead .page p.val 2).1.fget (QKind.head .page) p.val), d, [], false, none⟩)).runJob (s1.pageUnits p.val
      d) p.val)) ∧
  (∀ (p : Fin 8) (s : State) (s1 : State) (d : List Byte), s.Up Page.PGM → s.tower.selfRefresh = false → s.fget F.PTC_STAT_STATE p.val ≠ 4 → s.pages.jobs = [] → s.qReady .page p.val = true → s1 = ((s.qHead .page p.val 2).1).qTake .page p.val → (s.qHead .page p.val 2).2 = some
      d → descHeadOk d false = true → fieldLE d 0 1 = 19 → s1.pageReason p.val d = 0 → exec (.reserveFrames p) s = .next
      ((s1.setJob p.val (some ⟨p.val, ((s.qHead .page p.val 2).1.fget (QKind.head .page) p.val), d, [], false, none⟩)).runJob
      (s1.pageUnits p.val d) p.val)) ∧
  (∀ (p : Fin 8) (s : State) (s1 : State) (d : List Byte), s.Up Page.PGM → s.tower.selfRefresh = false → s.fget F.PTC_STAT_STATE p.val ≠ 4 → s.pages.jobs = [] → s.qReady .page p.val = true → s1 = ((s.qHead .page p.val 2).1).qTake .page p.val → (s.qHead .page p.val 2).2 = some
      d → descHeadOk d false = true → fieldLE d 0 1 = 20 → s1.pageReason p.val d = 0 → exec (.seqAdd p) s = .next ((s1.setJob
      p.val (some ⟨p.val, ((s.qHead .page p.val 2).1.fget (QKind.head .page) p.val), d, [], false, none⟩)).runJob (s1.pageUnits p.val
      d) p.val)) ∧
  (∀ (p : Fin 8) (s : State) (s1 : State) (d : List Byte), s.Up Page.PGM → s.tower.selfRefresh = false → s.fget F.PTC_STAT_STATE p.val ≠ 4 → s.pages.jobs = [] → s.qReady .page p.val = true → s1 = ((s.qHead .page p.val 2).1).qTake .page p.val → (s.qHead .page p.val 2).2 = some
      d → descHeadOk d false = true → fieldLE d 0 1 = 21 → s1.pageReason p.val d = 0 → exec (.seqShare p) s = .next ((s1.setJob
      p.val (some ⟨p.val, ((s.qHead .page p.val 2).1.fget (QKind.head .page) p.val), d, [], false, none⟩)).runJob (s1.pageUnits p.val
      d) p.val)) ∧
  (∀ (p : Fin 8) (s : State) (s1 : State) (d : List Byte), s.Up Page.PGM → s.tower.selfRefresh = false → s.fget F.PTC_STAT_STATE p.val ≠ 4 → s.pages.jobs = [] → s.qReady .page p.val = true → s1 = ((s.qHead .page p.val 2).1).qTake .page p.val → (s.qHead .page p.val 2).2 = some
      d → descHeadOk d false = true → fieldLE d 0 1 = 22 → s1.pageReason p.val d = 0 → exec (.seqFree p) s = .next ((s1.setJob
      p.val (some ⟨p.val, ((s.qHead .page p.val 2).1.fget (QKind.head .page) p.val), d, [], false, none⟩)).runJob (s1.pageUnits p.val
      d) p.val)) ∧
  (∀ (p : Fin 8) (s : State) (s1 : State) (d : List Byte), s.Up Page.PGM → s.tower.selfRefresh = false → s.fget F.PTC_STAT_STATE p.val ≠ 4 → s.pages.jobs = [] → s.qReady .page p.val = true → s1 = ((s.qHead .page p.val 2).1).qTake .page p.val → (s.qHead .page p.val 2).2 = some
      d → descHeadOk d false = true → fieldLE d 0 1 = 23 → s1.pageReason p.val d = 0 → exec (.cow p) s = .next ((s1.setJob p.val
      (some ⟨p.val, ((s.qHead .page p.val 2).1.fget (QKind.head .page) p.val), d, [], false, none⟩)).runJob (s1.pageUnits p.val d)
      p.val)) ∧
  (∀ (p : Fin 8) (s : State) (s1 : State) (d : List Byte), s.Up Page.PGM → s.tower.selfRefresh = false → s.fget F.PTC_STAT_STATE p.val ≠ 4 → s.pages.jobs = [] → s.qReady .page p.val = true → s1 = ((s.qHead .page p.val 2).1).qTake .page p.val → (s.qHead .page p.val 2).2 = some
      d → descHeadOk d false = true → fieldLE d 0 1 = 24 → s1.pageReason p.val d = 0 → exec (.pftLookup p) s = .next ((s1.setJob
      p.val (some ⟨p.val, ((s.qHead .page p.val 2).1.fget (QKind.head .page) p.val), d, [], false, none⟩)).runJob (s1.pageUnits p.val
      d) p.val)) ∧
  (∀ (p : Fin 8) (s : State) (s1 : State) (d : List Byte), s.Up Page.PGM → s.tower.selfRefresh = false → s.fget F.PTC_STAT_STATE p.val ≠ 4 → s.pages.jobs = [] → s.qReady .page p.val = true → s1 = ((s.qHead .page p.val 2).1).qTake .page p.val → (s.qHead .page p.val 2).2 = some
      d → descHeadOk d false = true → fieldLE d 0 1 = 25 → s1.pageReason p.val d = 0 → exec (.pftInsert p) s = .next ((s1.setJob
      p.val (some ⟨p.val, ((s.qHead .page p.val 2).1.fget (QKind.head .page) p.val), d, [], false, none⟩)).runJob (s1.pageUnits p.val
      d) p.val)) ∧
  (∀ (p : Fin 8) (s : State) (s1 : State) (d : List Byte), s.Up Page.PGM → s.tower.selfRefresh = false → s.fget F.PTC_STAT_STATE p.val ≠ 4 → s.pages.jobs = [] → s.qReady .page p.val = true → s1 = ((s.qHead .page p.val 2).1).qTake .page p.val → (s.qHead .page p.val 2).2 = some
      d → descHeadOk d false = true → fieldLE d 0 1 = 26 → s1.pageReason p.val d = 0 → exec (.pftRemove p) s = .next ((s1.setJob
      p.val (some ⟨p.val, ((s.qHead .page p.val 2).1.fget (QKind.head .page) p.val), d, [], false, none⟩)).runJob (s1.pageUnits p.val
      d) p.val)) ∧
  (∀ (s : State) (p op r : Nat) (s1 : State) (d : List Byte), s.pages.jobs = [] → s.qReady .page p = true → s1 = ((s.qHead .page p
      2).1).qTake .page p → (s.qHead .page p 2).2 = some d → descHeadOk d false = true → pageOpKnown op = true → fieldLE d 0 1 =
      op → s1.pageReason p d = r → r ≠ 0 → s.pageOp p op = s1.qRefuse .page p ((s.qHead .page p 2).1.fget (QKind.head .page) p)
      d r) ∧
  (∀ (s s1 : State) (n p st : Nat) (multi : Bool) (j j1 : PageJob), s.jobOf p = some j → j.ended.length < s.pageUnits p j.desc →
      s.pageUnit p j.desc j.ended.length = (s1, .ended st, multi) → s1.jobOf p = some j1 → State.runJob (n + 1) s p =
      State.runJob n (s1.setJob p (some { j1 with ended := j1.ended ++ [st], multi := j1.multi || multi, found := none })) p)

/-- What mapping, unmapping, moving and reserving do to one page or frame. (R258, R259, R260, R265, R266, R268, R269) -/
def Obligations.PageUnitsMapAndReserve : Prop :=
  (∀ (s s1 : State) (p i : Nat) (d : List Byte) (e : Pme), s1 = (s.pmeRead p (dFirst d % 2 ^ 24 + i)).1 → (s.pmeRead p (dFirst d %
      2 ^ 24 + i)).2 = .pme e → e.state = PgUnmapped → dKind d = 0 → s.mapUnit p d i = (s1.setPme p (dFirst d % 2 ^ 24 + i)
      { state := PgZero, master := bit (dFlags d) 0, dropOk := bit (dFlags d) 1, lock := bit (dFlags d) 2, home := noHome, anchor := true, gen := e.gen, refs := 1 },
      .ended 0)) ∧
  (∀ (s s1 : State) (p i : Nat) (d : List Byte) (e : Pme), s1 = (s.pmeRead p (dFirst d % 2 ^ 24 + i)).1 → (s.pmeRead p (dFirst d %
      2 ^ 24 + i)).2 = .pme e → e.state ≠ PgUnmapped → e.state ≠ PgDropped → s.mapUnit p d i = (s1, .ended 7)) ∧
  (∀ (s s1 : State) (p i : Nat) (d : List Byte) (e : Pme), s1 = (s.pmeRead p (dFirst d % 2 ^ 24 + i)).1 → (s.pmeRead p (dFirst d %
      2 ^ 24 + i)).2 = .pme e → s.unmapUnit p d i = (if e.anchor = true then ((s1.setPme p (dFirst d % 2 ^ 24 + i)
      { e with anchor := false }).dropRef p (dFirst d % 2 ^ 24 + i), .ended 0) else (s1, .ended 9))) ∧
  (∀ (s s1 : State) (p i : Nat) (d : List Byte) (e : Pme), s1 = (s.pmeRead p (dFirst d % 2 ^ 24 + i)).1 → (s.pmeRead p (dFirst d %
      2 ^ 24 + i)).2 = .pme e → e.state = PgT1 → e.fixed = true → s.moveUnit p d i = (s1, .ended 3)) ∧
  (∀ (s s1 : State) (p i : Nat) (d : List Byte) (e : Pme), s1 = (s.pmeRead p (dFirst d % 2 ^ 24 + i)).1 → (s.pmeRead p (dFirst d %
      2 ^ 24 + i)).2 = .pme e → e.state = PgZero → e.fixed = false → dKind d = 1 → s.moveUnit p d i = (s1, .ended 0)) ∧
  (∀ (s : State) (p i : Nat) (d : List Byte), s.frameBarred (tierOfKind (dKind d)) (dFirst d + i) = false → bit (dFlags d) 3 =
      false → s.frame (tierOfKind (dKind d)) (dFirst d + i) = .free → s.reserveUnit p d i = (s.setFrame (tierOfKind (dKind d))
      (dFirst d + i) (.reserved p true), .ended 0)) ∧
  (∀ (s : State) (p i : Nat) (d : List Byte) (c : Bool), s.frameBarred (tierOfKind (dKind d)) (dFirst d + i) = false → bit (dFlags
      d) 3 = true → s.frame (tierOfKind (dKind d)) (dFirst d + i) = .reserved p c → s.reserveUnit p d i = (s.releaseFrame
      (tierOfKind (dKind d)) (dFirst d + i), .ended 0))

/-- Moves end, pins are released, ages grow, pages are evicted, frames are filled; maps and the prefix table. (R259, R267, R268,
R270, R271, R272, R276, R289) -/
def Obligations.PagesMoveAgeEvictAndFill : Prop :=
  (∀ (p : Fin 8) (page : BitVec 24) (s : State) (m : Move), s.Up Page.PGM → s.tower.selfRefresh = false → s.moveOf p.val page.toNat = some m → s.moveBehind m = false → m.tier ≠ 3 →
      exec (.pageMoveDone p page) s = .next ((s.finishMove m).1.runJobs)) ∧
  (∀ (p : Fin 8) (page : BitVec 24) (s : State) (d : Pme) (s1 : State), s.Up Page.XLT → s.tower.selfRefresh = false → s.inMap p.val page.toNat = true → d =
      s.pme p.val page.toNat → 0 < d.pins → s1 = s.setPme p.val page.toNat { d with pins := d.pins - 1 } →
      (s1.pages.linger.find? fun x => x.part == p.val && x.page == page.toNat) = none → exec (.pinRelease p page) s = .next
      ((s1.releaseCheck p.val page.toNat).runJobs)) ∧
  (∀ (s : State), s.Up Page.PGM → s.tower.selfRefresh = false → s.fillBehind = false → s.fillNext = none → max 1 (s.fget F.PGM_AGE_TICKS_TICKS) ≤ s.pages.ageTicks → exec .agerPass s = .next
      (let s1 := s.tierPages.foldl (fun (x : State) y => if nsMem x.pages.touched (pageKey y.1 y.2) then x else (if (x.pme y.1 y.2).age
           = 255 then x else x.setPme y.1 y.2 { x.pme y.1 y.2 with age := (x.pme y.1 y.2).age + 1 })) s
       { s1 with pages := { s1.pages with touched := [], ageTicks := 0 } })) ∧
  (∀ (s : State) (s1 : State) (p pg : Nat), s.Up Page.PGM → s.tower.selfRefresh = false → s1 = s.updEvicting → s1.moverBusy 2 = false → s1.flag F.PGM_STAT_EVICTING = true → s1.oldest
      ((s1.poolPages .t1).filter fun x => s1.evictable x.1 x.2) = some (p, pg) → exec .evict s = .next (if (s1.evictPage p pg false).2 =
      .none then (s1.evictPage p pg false).1.noSpace p pg false else (s1.evictPage p pg false).1.runJobs)) ∧
  (∀ (t2 : Bool) (frame : Nat) (s : State) (t : Tier), s.Up Page.PGM → s.tower.selfRefresh = false → t = (if t2 = true then Tier.t2 else Tier.t1) → s.fillBehind = false → s.fillNext = some (frameKey t frame) → s.frame t
      frame = .dirty → exec (.zeroFill t2 frame) s = .next (((s.fillFrame t frame).setFrame t frame .free).updEvicting)) ∧
  (∀ (path : Path) (v : Word) (s : State) (p n : Nat) (l : List Nat), s.pathMay path R.PGM_MAP_PAGES = true → s.Up Page.PGM → p =
      s.sel path F.PGM_PART_SEL_PART → n = min (v.toNat % 2 ^ 25) (2 ^ 24) / 256 * 256 → s.fget F.PGM_MAP_PAGES_PAGES p = 0 → n
      ≠ 0 → l = (List.range (mapFrames n)).map (· + s.fget F.PGM_MAP_BASE_FRAME p) → (∀ f, f ∈ l → f < tierFrames .t1 ∧
      s.isSummerhouse f = false ∧ s.inCoded .t1 f = false ∧ (s.frame .t1 f = .free ∨ s.frame .t1 f = .dirty ∨ s.frame .t1 f =
      .kept)) → exec (.mapPagesWrite path v) s = .next ((l.foldl (fun x f => (if (x.frame .t1 f).toFill = true then x.fillFrame
      .t1 f else x).setFrame .t1 f (.map p)) s).fset F.PGM_MAP_PAGES_PAGES p n)) ∧
  (∀ (s : State) (p v : Nat), s.fget F.PGM_MAP_PAGES_PAGES p ≠ 0 → s.fget F.PTC_STAT_STATE p ≠ 0 → s.mapPagesWrite p v = s.set1
      F.PGM_STAT_MAP_REFUSED) ∧
  (∀ (path : Path) (v : Word) (s : State), s.pathMay path R.PFT_CFG = true → s.Up Page.PFT → s.flag F.PFT_CFG_ENABLE = true → exec
      (.pftEnable path v) s = .next (s.fset F.PFT_CFG_ENABLE 0 (bits v.toNat 8 1))) ∧
  (∀ (path : Path) (v : Word) (s : State) (s1 : State) (lo n : Nat), s.pathMay path R.PFT_CFG = true → s.Up Page.PFT → s.flag
      F.PFT_CFG_ENABLE = false → bit v.toNat 8 = true → s1 = (s.fset F.PFT_CFG_LOG2 0 (clamp 4 17 (bits v.toNat 0 5))).fset
      F.PFT_CFG_ENABLE 0 (bits v.toNat 8 1) → lo = s1.pftAddr 0 → n = 128 * s1.pftBuckets → exec (.pftEnable path v) s = .next
      ((({ s1 with tower := { s1.tower with mem := { s1.tower.mem with cells := (s1.tower.mem.cells.map fun c => if (decide (lo ≤ c.1) && decide (c.1 < lo + n) && c.1 % 16 == 14) = true then (c.1, c.2 &&& 0x7F) else c).filter fun c => c.2 != 0 } } }
      : State).mirrorFill lo n |>.secsWritten lo n).fset F.PFT_USED_ENTRIES 0 0))

/-- Loans are granted, refused, returned and revoked. (R283, R285) -/
def Obligations.LendingMessages : Prop :=
  (∀ (gate : Bool) (src : BitVec 20) (msg : List Byte) (s : State) (s1 : State) (f i : Nat) (s2 : State), s.Up Page.FBP →
      s.rxCredits 7 false ≠ 0 → ¬ 262143 < src.toNat → gate = false → s1 = s.msgIn 7 false gate src.toNat msg →
      lendOk msg 0x40 = true → s1.isBorrower src.toNat = true → s1.pages.loans.find? (fun l => l.node == src.toNat && l.req ==
      fieldLE msg 12 4) = none → s1.pages.loans.length < s1.fget F.PGM_LEND_PAGES_PAGES → s1.findFrame .t1 Frame.isFree = some f
      → i = freeIndex (s1.pages.loans.map (·.index)) → s2 = s1.setFrame .t1 f (.lent src.toNat) → exec (.loan gate src msg) s =
      .next ((({ s2 with pages := { s2.pages with loans := s2.pages.loans ++ [⟨i, f, src.toNat, fieldLE msg 12 4⟩] } } :
      State).showLent).sendMsg 7 src.toNat (lendMsg 0x41 i 0 (fieldLE msg 12 4)))) ∧
  (∀ (s : State) (src : Nat) (msg : List Byte), s.isBorrower src = false → s.loanIn src msg = s.sendMsg 7 src (lendMsg 0x41 0 3
      (fieldLE msg 12 4))) ∧
  (∀ (gate : Bool) (src : BitVec 20) (msg : List Byte) (s : State) (s1 : State) (l : Nat) (v : Move) (i : Nat) (s2 : State), s.Up Page.FBP → s.rxCredits 7 false ≠ 0 → ¬ 262143 < src.toNat → gate = false → s1 = s.msgIn 7 false gate src.toNat msg → lendOk msg 0x41 = true → s1.lenderOf src.toNat = some l → s1.pages.moves.find? (fun v => v.tier == 3 &&
      v.lender == l && v.dst.isNone && v.req == fieldLE msg 12 4) = some v → fieldLE msg 8 1 = 0 → fieldLE msg 4 4 < 65536 → i =
      fieldLE msg 4 4 → s2 = s1.fset F.PGM_BORROWED_PAGES l (s1.fget F.PGM_BORROWED_PAGES l + 1) → exec (.grant gate src msg) s
      = .next (((List.range 256).foldl (fun (x : State) k => x.offerReq (.pageOut v.part v.page k) 2 7 (lenderEntry l) 0 0 (i *
      frameSize + 256 * k) 256 ((x.tierMem (if v.src = 2 then .t1 else .t2)).bytes ((s1.pme v.part v.page).frame * frameSize +
      256 * k) 256) (some v.part))
      { s2 with pages := { s2.pages with moves := s2.pages.moves.map fun y => if (y == v) = true then { v with dst := some i, left := 256 } else y } }).runJobs)) ∧
  (∀ (p : Fin 8) (page : BitVec 24) (s : State) (m : Move), s.Up Page.PGM → s.moveOf p.val page.toNat = some m → m.tier = 3 →
      m.dst = none → exec (.loanTimeout p page) s = .next (s.sendMsg 7 (s.fget F.PGM_LENDER_NODE_NODE m.lender) (lendMsg 0x40 0
      0 m.req) (some p.val))) ∧
  (∀ (gate : Bool) (src : BitVec 20) (msg : List Byte) (s : State) (s1 : State) (l : Loan), s.Up Page.FBP → s.rxCredits 7 false
      ≠ 0 → ¬ 262143 < src.toNat → gate = false → s1 = s.msgIn 7 false gate src.toNat msg → lendOk msg 0x42 = true
      → s1.pages.loans.find? (fun l => l.node == src.toNat && l.index == fieldLE msg 4 4) = some l → exec (.returnFrame gate src
      msg) s = .next ((({ s1 with pages := { s1.pages with loans := s1.pages.loans.filter (· != l) } } : State).releaseFrame .t1
      l.frame).showLent)) ∧
  (∀ (gate : Bool) (src : BitVec 20) (msg : List Byte) (s : State) (s1 : State) (l : Nat) (e : Nat × Nat), s.Up Page.FBP →
      s.rxCredits 7 false ≠ 0 → ¬ 262143 < src.toNat → gate = false → s1 = s.msgIn 7 false gate src.toNat msg →
      lendOk msg 0x43 = true → s1.lenderOf src.toNat = some l → s1.pages.borrowed.find? (fun e => e.2 == l * 65536 + fieldLE msg
      4 4) = some e → exec (.revoke gate src msg) s = .next (((s1.loseLoan (e.1 / 2 ^ 24) (e.1 % 2 ^ 24) 7).irq Page.PGM
      3).runJobs)) ∧
  (∀ (path : Path) (v : Word) (s : State) (n : Nat) (s1 : State), s.pathMay path R.PGM_LEND_PAGES = true → s.Up Page.PGM → n = min
      (v.toNat % 2 ^ 17) 65536 → s1 = s.fset F.PGM_LEND_PAGES_PAGES 0 n → exec (.lendPagesWrite path v) s = .next (s1.revokeTo n
      s1.pages.loans.length)) ∧
  (∀ (s : State) (n k : Nat) (l : Loan), n < s.pages.loans.length → s.topLoan = some l → State.revokeTo n (k + 1) s =
      State.revokeTo n k ((s.endLoan l).sendMsg 7 l.node (lendMsg 0x43 l.index 0 0))) ∧
  (∀ (path : Path) (v : Word) (s : State) (l : Nat) (s1 s2 s3 : State), s.pathMay path R.PGM_LENDER_NODE = true → s.Up Page.PGM → l =
      s.sel path F.PGM_LENDER_SEL_LENDER → bits v.toNat 0 20 ≤ 262143 → s1 = s.accWrite R.PGM_LENDER_NODE l v.toNat → s2 = (s1.fset F.FBP_PTN_NODE_NODE
      (lenderEntry l) (s1.fget F.PGM_LENDER_NODE_NODE l)).fset F.FBP_PTN_NODE_VALID (lenderEntry l) (s1.fget
      F.PGM_LENDER_NODE_VALID l) → s3 = (if s.flag F.PGM_LENDER_NODE_VALID l = true ∧ s2.lenderInStage l = false then s2.loseLender l 7
      else s2) → exec (.lenderNodeWrite path v) s = .next ((s3.partnerChanged (lenderEntry l) (s.fget F.FBP_PTN_NODE_NODE (lenderEntry
      l)) (s.flag F.PGM_LENDER_NODE_VALID l)).runJobs)) ∧
  (∀ (path : Path) (v : Word) (s : State), s.pathMay path R.PGM_LENDER_NODE = true → s.Up Page.PGM → 262143 < bits v.toNat 0 20 → exec
      (.lenderNodeWrite path v) s = .next s.runJobs) ∧
  (∀ (path : Path) (v : Word) (s : State) (b : Nat) (s1 : State), s.pathMay path R.PGM_BORROWER_NODE = true → s.Up Page.PGM → b =
      s.sel path F.PGM_BORROWER_SEL_BORROWER → s.flag F.PGM_BORROWER_NODE_VALID b = true → bit v.toNat 31 = false → bits v.toNat 0 20 ≤ 262143 → s1 =
      s.accWrite R.PGM_BORROWER_NODE b v.toNat → exec (.borrowerNodeWrite path v) s = .next ((s1.pages.loans.filter fun l =>
      l.node == s.fget F.PGM_BORROWER_NODE_NODE b).foldl (fun x l => x.revoke l) s1))

/-- Inbound LOADs, STOREs and atomics with a good header reach the checks of their request. (R295, R296, R297) -/
def Obligations.InboundRequestsReachTheChecks : Prop :=
  (∀ (hdr payload : List Byte) (s : State) (t : Txn) (s1 : State), s.Up Page.FBP → t = Txn.ofHeader hdr payload → s.rxCredits
      t.vc t.resp ≠ 0 → s1 = s.received t.vc t.resp (hdr ++ payload) → hdr.length = 32 → crcOk hdr 28 = true → t.typ = 1 → t.dst = s1.fget
      F.FBP_NODE_NODE → t.dst ≤ 262143 → t.src ≤ 262143 → exec (.fabLoad hdr payload) s = .next (s1.fabRequest hdr t)) ∧
  (∀ (hdr payload : List Byte) (s : State) (t : Txn) (s1 : State), s.Up Page.FBP → t = Txn.ofHeader hdr payload → s.rxCredits
      t.vc t.resp ≠ 0 → s1 = s.received t.vc t.resp (hdr ++ payload) → hdr.length = 32 → crcOk hdr 28 = true → t.typ = 2 → t.dst = s1.fget
      F.FBP_NODE_NODE → t.dst ≤ 262143 → t.src ≤ 262143 → exec (.fabStore hdr payload) s = .next (s1.fabRequest hdr t)) ∧
  (∀ (hdr payload : List Byte) (s : State) (t : Txn) (s1 : State), s.Up Page.FBP → t = Txn.ofHeader hdr payload → s.rxCredits
      t.vc t.resp ≠ 0 → s1 = s.received t.vc t.resp (hdr ++ payload) → hdr.length = 32 → crcOk hdr 28 = true → t.typ = 3 → t.dst = s1.fget
      F.FBP_NODE_NODE → t.dst ≤ 262143 → t.src ≤ 262143 → exec (.atomic hdr payload) s = .next (s1.fabRequest hdr t)) ∧
  (∀ (hdr payload : List Byte) (s : State) (t : Txn) (s1 : State), s.Up Page.FBP → t = Txn.ofHeader hdr payload → s.rxCredits
      t.vc t.resp ≠ 0 → s1 = s.received t.vc t.resp (hdr ++ payload) → hdr.length = 32 → crcOk hdr 28 = true → t.typ = 3 → t.op = 1 → t.dst
      = s1.fget F.FBP_NODE_NODE → t.dst ≤ 262143 → t.src ≤ 262143 → exec (.addI32 hdr payload) s = .next (s1.fabRequest hdr t)) ∧
  (∀ (hdr payload : List Byte) (s : State) (t : Txn) (s1 : State), s.Up Page.FBP → t = Txn.ofHeader hdr payload → s.rxCredits
      t.vc t.resp ≠ 0 → s1 = s.received t.vc t.resp (hdr ++ payload) → hdr.length = 32 → crcOk hdr 28 = true → t.typ = 3 → t.op = 2 → t.dst
      = s1.fget F.FBP_NODE_NODE → t.dst ≤ 262143 → t.src ≤ 262143 → exec (.addI64 hdr payload) s = .next (s1.fabRequest hdr t)) ∧
  (∀ (hdr payload : List Byte) (s : State) (t : Txn) (s1 : State), s.Up Page.FBP → t = Txn.ofHeader hdr payload → s.rxCredits
      t.vc t.resp ≠ 0 → s1 = s.received t.vc t.resp (hdr ++ payload) → hdr.length = 32 → crcOk hdr 28 = true → t.typ = 3 → t.op = 3 → t.dst
      = s1.fget F.FBP_NODE_NODE → t.dst ≤ 262143 → t.src ≤ 262143 → exec (.addF32 hdr payload) s = .next (s1.fabRequest hdr t)) ∧
  (∀ (hdr payload : List Byte) (s : State) (t : Txn) (s1 : State), s.Up Page.FBP → t = Txn.ofHeader hdr payload → s.rxCredits
      t.vc t.resp ≠ 0 → s1 = s.received t.vc t.resp (hdr ++ payload) → hdr.length = 32 → crcOk hdr 28 = true → t.typ = 3 → t.op = 4 → t.dst
      = s1.fget F.FBP_NODE_NODE → t.dst ≤ 262143 → t.src ≤ 262143 → exec (.minS32 hdr payload) s = .next (s1.fabRequest hdr t)) ∧
  (∀ (hdr payload : List Byte) (s : State) (t : Txn) (s1 : State), s.Up Page.FBP → t = Txn.ofHeader hdr payload → s.rxCredits
      t.vc t.resp ≠ 0 → s1 = s.received t.vc t.resp (hdr ++ payload) → hdr.length = 32 → crcOk hdr 28 = true → t.typ = 3 → t.op = 5 → t.dst
      = s1.fget F.FBP_NODE_NODE → t.dst ≤ 262143 → t.src ≤ 262143 → exec (.minS64 hdr payload) s = .next (s1.fabRequest hdr t)) ∧
  (∀ (hdr payload : List Byte) (s : State) (t : Txn) (s1 : State), s.Up Page.FBP → t = Txn.ofHeader hdr payload → s.rxCredits
      t.vc t.resp ≠ 0 → s1 = s.received t.vc t.resp (hdr ++ payload) → hdr.length = 32 → crcOk hdr 28 = true → t.typ = 3 → t.op = 6 → t.dst
      = s1.fget F.FBP_NODE_NODE → t.dst ≤ 262143 → t.src ≤ 262143 → exec (.minU32 hdr payload) s = .next (s1.fabRequest hdr t)) ∧
  (∀ (hdr payload : List Byte) (s : State) (t : Txn) (s1 : State), s.Up Page.FBP → t = Txn.ofHeader hdr payload → s.rxCredits
      t.vc t.resp ≠ 0 → s1 = s.received t.vc t.resp (hdr ++ payload) → hdr.length = 32 → crcOk hdr 28 = true → t.typ = 3 → t.op = 7 → t.dst
      = s1.fget F.FBP_NODE_NODE → t.dst ≤ 262143 → t.src ≤ 262143 → exec (.minU64 hdr payload) s = .next (s1.fabRequest hdr t)) ∧
  (∀ (hdr payload : List Byte) (s : State) (t : Txn) (s1 : State), s.Up Page.FBP → t = Txn.ofHeader hdr payload → s.rxCredits
      t.vc t.resp ≠ 0 → s1 = s.received t.vc t.resp (hdr ++ payload) → hdr.length = 32 → crcOk hdr 28 = true → t.typ = 3 → t.op = 8 → t.dst
      = s1.fget F.FBP_NODE_NODE → t.dst ≤ 262143 → t.src ≤ 262143 → exec (.minF32 hdr payload) s = .next (s1.fabRequest hdr t)) ∧
  (∀ (hdr payload : List Byte) (s : State) (t : Txn) (s1 : State), s.Up Page.FBP → t = Txn.ofHeader hdr payload → s.rxCredits
      t.vc t.resp ≠ 0 → s1 = s.received t.vc t.resp (hdr ++ payload) → hdr.length = 32 → crcOk hdr 28 = true → t.typ = 3 → t.op = 9 → t.dst
      = s1.fget F.FBP_NODE_NODE → t.dst ≤ 262143 → t.src ≤ 262143 → exec (.maxS32 hdr payload) s = .next (s1.fabRequest hdr t)) ∧
  (∀ (hdr payload : List Byte) (s : State) (t : Txn) (s1 : State), s.Up Page.FBP → t = Txn.ofHeader hdr payload → s.rxCredits
      t.vc t.resp ≠ 0 → s1 = s.received t.vc t.resp (hdr ++ payload) → hdr.length = 32 → crcOk hdr 28 = true → t.typ = 3 → t.op = 10 → t.dst
      = s1.fget F.FBP_NODE_NODE → t.dst ≤ 262143 → t.src ≤ 262143 → exec (.maxS64 hdr payload) s = .next (s1.fabRequest hdr t)) ∧
  (∀ (hdr payload : List Byte) (s : State) (t : Txn) (s1 : State), s.Up Page.FBP → t = Txn.ofHeader hdr payload → s.rxCredits
      t.vc t.resp ≠ 0 → s1 = s.received t.vc t.resp (hdr ++ payload) → hdr.length = 32 → crcOk hdr 28 = true → t.typ = 3 → t.op = 11 → t.dst
      = s1.fget F.FBP_NODE_NODE → t.dst ≤ 262143 → t.src ≤ 262143 → exec (.maxU32 hdr payload) s = .next (s1.fabRequest hdr t)) ∧
  (∀ (hdr payload : List Byte) (s : State) (t : Txn) (s1 : State), s.Up Page.FBP → t = Txn.ofHeader hdr payload → s.rxCredits
      t.vc t.resp ≠ 0 → s1 = s.received t.vc t.resp (hdr ++ payload) → hdr.length = 32 → crcOk hdr 28 = true → t.typ = 3 → t.op = 12 → t.dst
      = s1.fget F.FBP_NODE_NODE → t.dst ≤ 262143 → t.src ≤ 262143 → exec (.maxU64 hdr payload) s = .next (s1.fabRequest hdr t)) ∧
  (∀ (hdr payload : List Byte) (s : State) (t : Txn) (s1 : State), s.Up Page.FBP → t = Txn.ofHeader hdr payload → s.rxCredits
      t.vc t.resp ≠ 0 → s1 = s.received t.vc t.resp (hdr ++ payload) → hdr.length = 32 → crcOk hdr 28 = true → t.typ = 3 → t.op = 13 → t.dst
      = s1.fget F.FBP_NODE_NODE → t.dst ≤ 262143 → t.src ≤ 262143 → exec (.maxF32 hdr payload) s = .next (s1.fabRequest hdr t)) ∧
  (∀ (hdr payload : List Byte) (s : State) (t : Txn) (s1 : State), s.Up Page.FBP → t = Txn.ofHeader hdr payload → s.rxCredits
      t.vc t.resp ≠ 0 → s1 = s.received t.vc t.resp (hdr ++ payload) → hdr.length = 32 → crcOk hdr 28 = true → t.typ = 3 → t.op = 14 → t.dst
      = s1.fget F.FBP_NODE_NODE → t.dst ≤ 262143 → t.src ≤ 262143 → exec (.cas32 hdr payload) s = .next (s1.fabRequest hdr t)) ∧
  (∀ (hdr payload : List Byte) (s : State) (t : Txn) (s1 : State), s.Up Page.FBP → t = Txn.ofHeader hdr payload → s.rxCredits
      t.vc t.resp ≠ 0 → s1 = s.received t.vc t.resp (hdr ++ payload) → hdr.length = 32 → crcOk hdr 28 = true → t.typ = 3 → t.op = 15 → t.dst
      = s1.fget F.FBP_NODE_NODE → t.dst ≤ 262143 → t.src ≤ 262143 → exec (.cas64 hdr payload) s = .next (s1.fabRequest hdr t))

/-- What the checks of an inbound request do, in their order. (R291, R299, R303, R304, R306, R320, R321) -/
def Obligations.InboundRequestChecks : Prop :=
  (∀ (s : State) (hdr : List Byte) (t : Txn), t.gate = true → t.vc ≠ 0 → s.fabRequest hdr t = (s.gateDrop t.src t.vc t.tag
      3).refuseReq hdr 2 3) ∧
  (∀ (s : State) (hdr : List Byte) (t : Txn), t.gate = false → (List.range 16).any (fun b => s.flag F.FBK_BLK_NODE_VALID b &&
      s.fget F.FBK_BLK_NODE_NODE b == t.src) = true → s.fabRequest hdr t = s.bump F.FBK_BLOCKED_CNT_COUNT) ∧
  (∀ (s : State) (hdr : List Byte) (t : Txn), t.gate = false → (List.range 16).any (fun b => s.flag F.FBK_BLK_NODE_VALID b &&
      s.fget F.FBK_BLK_NODE_NODE b == t.src) = false → sameStage t.src (s.fget F.FBP_NODE_NODE) = false → s.fabRequest hdr t =
      (s.bump F.FBP_RX_HOSTILE_COUNT).refuseReq hdr 4 3) ∧
  (∀ (s : State) (hdr : List Byte) (t : Txn), t.gate = false → (List.range 16).any (fun b => s.flag F.FBK_BLK_NODE_VALID b &&
      s.fget F.FBK_BLK_NODE_NODE b == t.src) = false → sameStage t.src (s.fget F.FBP_NODE_NODE) = true → t.wellFormed = false →
      s.fabRequest hdr t = (s.bump F.FBP_RX_BAD_COUNT).refuseReq hdr 5 5) ∧
  (∀ (s : State) (hdr : List Byte) (t : Txn), t.gate = false → (List.range 16).any (fun b => s.flag F.FBK_BLK_NODE_VALID b &&
      s.fget F.FBK_BLK_NODE_NODE b == t.src) = false → sameStage t.src (s.fget F.FBP_NODE_NODE) = true → t.wellFormed = true →
      s.reqTarget t = none → s.fabRequest hdr t = s.keyFail hdr) ∧
  (∀ (s : State) (hdr : List Byte) (t : Txn) (p a : Nat) (q : Option Nat), t.gate = false → (List.range 16).any (fun b => s.flag
      F.FBK_BLK_NODE_VALID b && s.fget F.FBK_BLK_NODE_NODE b == t.src) = false → sameStage t.src (s.fget F.FBP_NODE_NODE) = true
      → t.wellFormed = true → s.reqTarget t = some (.addr p q a) → s.fget F.PTC_STAT_STATE p = 4 → s.fabRequest hdr t =
      s.refuseReq hdr 7 5) ∧
  (∀ (s : State) (hdr : List Byte) (t : Txn) (p a : Nat) (q : Option Nat), t.gate = false → (List.range 16).any (fun b => s.flag
      F.FBK_BLK_NODE_VALID b && s.fget F.FBK_BLK_NODE_NODE b == t.src) = false → sameStage t.src (s.fget F.FBP_NODE_NODE) = true
      → t.wellFormed = true → s.reqTarget t = some (.addr p q a) → s.fget F.PTC_STAT_STATE p ≠ 4 → s.fabRequest hdr t =
      (let s1 := if 2 ≤ t.count then s.bump F.FBP_COMBINED_CNT_COUNT else s
       s1.access (if t.typ = 1 then ⟨2, .fabLoad hdr, p, q, a, t.len, [], 0⟩ else (if t.typ = 2 then ⟨2, .fabStore hdr, p, q, a, 0,
           t.payload.map some, 0⟩ else ⟨2, .fabAtomic hdr t.payload, p, q, a, t.span, [], 0⟩)))) ∧
  (∀ (s : State) (hdr : List Byte) (t : Txn) (f off : Nat), t.gate = false → (List.range 16).any (fun b => s.flag
      F.FBK_BLK_NODE_VALID b && s.fget F.FBK_BLK_NODE_NODE b == t.src) = false → sameStage t.src (s.fget F.FBP_NODE_NODE) = true
      → t.wellFormed = true → s.reqTarget t = some (.lent f off) → t.count = 0 → s.fabRequest hdr t = s.lentAccess hdr t f off)

/-- The new value of each atomic operation, its width and whether it may be combined. (R296) -/
def Obligations.AtomicNewValues : Prop :=
  (∀ (old x c : Nat), atomNew 1 old x c = (old + x) % 2 ^ 32) ∧
  (∀ (old x c : Nat), atomNew 2 old x c = (old + x) % 2 ^ 64) ∧
  (∀ (old x c : Nat), atomNew 3 old x c = f32Add old x) ∧
  (∀ (old x c : Nat), signed 32 (atomNew 4 old x c) = min (signed 32 old) (signed 32 x)) ∧
  (∀ (old x c : Nat), signed 64 (atomNew 5 old x c) = min (signed 64 old) (signed 64 x)) ∧
  (∀ (old x c : Nat), atomNew 6 old x c = min old x) ∧
  (∀ (old x c : Nat), atomNew 7 old x c = min old x) ∧
  (∀ (old x c : Nat), atomNew 8 old x c = f32Pick false old x) ∧
  (∀ (old x c : Nat), signed 32 (atomNew 9 old x c) = max (signed 32 old) (signed 32 x)) ∧
  (∀ (old x c : Nat), signed 64 (atomNew 10 old x c) = max (signed 64 old) (signed 64 x)) ∧
  (∀ (old x c : Nat), atomNew 11 old x c = max old x) ∧
  (∀ (old x c : Nat), atomNew 12 old x c = max old x) ∧
  (∀ (old x c : Nat), atomNew 13 old x c = f32Pick true old x) ∧
  (∀ (old x c : Nat), atomNew 14 old x c = if old = c then x else old) ∧
  (∀ (old x c : Nat), atomNew 15 old x c = if old = c then x else old) ∧
  (∀ (op : Nat), 1 ≤ op → op ≤ 15 → atomWidth op = some (if op ∈ [2, 5, 7, 10, 12, 15] then 8 else 4) ∧ atomCombinable op = !([3,
      8, 13, 14, 15].contains op))

/-- Fabric descriptors are taken, and waiting transactions are sent flit by flit; the quantum of the round robin, what an idle
flit time counts for and how a request to a node outside the stage ends are the model’s choice, log entries 76, 91 and 92. (R291,
R300, R301, R309, R452, R453) -/
def Obligations.FabricQueueAndSending : Prop :=
  (∀ (p : Fin 8) (s : State) (s1 : State) (d : List Byte), s.Up Page.FBP → s.fget F.PTC_STAT_STATE p.val ≠ 0 → s.fget
      F.PTC_STAT_STATE p.val ≠ 4 → s.qReady .fabric p.val = true → s1 = (s.qHead .fabric p.val 2).1 → (s.qHead .fabric p.val
      2).2 = some d → (bit (fieldLE d 2 1) 1 = false ∨ (s1.fab.jobs.any fun x => x.part == p.val) = false) → descHeadOk d false
      = true → fieldLE d 0 1 = 32 → exec (.fabGet p) s = .next (s1.fabTake p.val (s1.fget (QKind.head .fabric) p.val) d)) ∧
  (∀ (p : Fin 8) (s : State) (s1 : State) (d : List Byte), s.Up Page.FBP → s.fget F.PTC_STAT_STATE p.val ≠ 0 → s.fget
      F.PTC_STAT_STATE p.val ≠ 4 → s.qReady .fabric p.val = true → s1 = (s.qHead .fabric p.val 2).1 → (s.qHead .fabric p.val
      2).2 = some d → (bit (fieldLE d 2 1) 1 = false ∨ (s1.fab.jobs.any fun x => x.part == p.val) = false) → descHeadOk d false
      = true → fieldLE d 0 1 = 33 → exec (.fabPut p) s = .next (s1.fabTake p.val (s1.fget (QKind.head .fabric) p.val) d)) ∧
  (∀ (p : Fin 8) (s : State) (s1 : State) (d : List Byte), s.Up Page.FBP → s.fget F.PTC_STAT_STATE p.val ≠ 0 → s.fget
      F.PTC_STAT_STATE p.val ≠ 4 → s.qReady .fabric p.val = true → s1 = (s.qHead .fabric p.val 2).1 → (s.qHead .fabric p.val
      2).2 = some d → (bit (fieldLE d 2 1) 1 = false ∨ (s1.fab.jobs.any fun x => x.part == p.val) = false) → descHeadOk d false
      = true → fieldLE d 0 1 = 34 → exec (.atomicDescriptor p) s = .next (s1.fabTake p.val (s1.fget (QKind.head .fabric) p.val)
      d)) ∧
  (∀ (s : State) (p i : Nat) (d : List Byte), (s.qTake .fabric p).fabReason p d = 0 → s.fabTake p i d =
      (let s1 := s.qTake .fabric p
       let x : FabJob := ⟨s1.fab.nextJob, p, i, d, fabUnits d, fabUnits d, [], 0⟩
       (State.fabIssue { s1 with fab := { s1.fab with jobs := s1.fab.jobs ++ [x], nextJob := s1.fab.nextJob + 1 } } x).flushAll)) ∧
  (∀ (vc : Fin 8) (tag : Fin 4096) (s : State) (s1 : State) (c : Nat) (drr : Bool), s.Up Page.FBP → s.flag F.FBP_CTRL_EN = true →
      s.flag F.FBP_STAT_LINK_UP = true → s1 = s.dropOutOfStage.countHeld → s1.pickChannel vc.val = some (c, drr) → exec
      (.transactionSend vc tag) s = .next ((if drr = true then s1.drrCharge c else s1).sendOn c tag.val)) ∧
  (∀ (vc : Fin 8) (tag : Fin 4096) (s : State) (s1 : State), s.Up Page.FBP → s.flag F.FBP_CTRL_EN = true → s.flag
      F.FBP_STAT_LINK_UP = true → s1 = s.dropOutOfStage.countHeld → s1.pickChannel vc.val = none → exec (.transactionSend vc tag) s =
      .next { s1 with fab := { s1.fab with history := (8 :: s1.fab.history).take 64 } }) ∧
  (∀ (s : State) (at_ : Nat), s.chanReady 0 = true → s.sentOf 0 16 = 0 → s.pickChannel at_ = some (0, false)) ∧
  (∀ (s : State) (at_ : Nat), s.sentOf 0 16 ≠ 0 → s.chanReady 1 = true → s.sentOf 1 64 < s.fget F.FVC_VC1_MIN_MIN →
      s.pickChannel at_ = some (1, false)) ∧
  (∀ (s : State) (c want : Nat) (g : Going), s.goingOn c = some g → s.sendOn c want = s.sendFlit g false) ∧
  (∀ (s : State) (c want i : Nat), s.goingOn c = none → s.nextOn c = some i → s.sendOn c want = s.sendTxn i want) ∧
  (∀ (s : State) (i want : Nat) (t t1 : Txn), s.fab.txq[i]? = some t → t.entry = none → t1 =
      { t with gate := s.flag F.FBP_STAT_GATE_OPENED, src := s.fget F.FBP_NODE_NODE } → s.sendTxn i want =
      ({ s with fab := { s.fab with txq := s.fab.txq.eraseIdx i } } : State).sendFlit ⟨s.nextLane, t1.header ++ t1.payload, t1⟩ true) ∧
  (∀ (s : State) (g : Going) (sot : Bool), 128 < g.rest.length → s.sendFlit g sot =
      ({ s with fab := { s.fab with going := (s.fab.going.filter fun x => x.txn.vc != g.txn.vc) ++ [{ g with rest := g.rest.drop 128 }], out := s.fab.out ++ [⟨g.lane, g.txn.vc, g.txn.resp, sot, false, g.rest.take 128⟩], credits := spSet (fun _ => 0) s.fab.credits (2 * g.txn.vc + g.txn.resp.toNat) (s.txCredits g.txn.vc g.txn.resp - 1), history := (g.txn.vc :: s.fab.history).take 64 } }
           : State).countFlits g.txn.vc 0 1) ∧
  (∀ (s : State) (g : Going) (sot : Bool), g.rest.length ≤ 128 → s.sendFlit g sot =
      ({ s with fab := { s.fab with going := s.fab.going.filter (fun x => x.txn.vc != g.txn.vc), sent := s.fab.sent ++ [g.txn], out := s.fab.out ++ [⟨g.lane, g.txn.vc, g.txn.resp, sot, true, g.rest.take 128⟩], credits := spSet (fun _ => 0) s.fab.credits (2 * g.txn.vc + g.txn.resp.toNat) (s.txCredits g.txn.vc g.txn.resp - 1), history := (g.txn.vc :: s.fab.history).take 64 } }
           : State).countFlits g.txn.vc 0 1)

/-- Responses, timeouts, generations and teardown of a job. (R314, R315, R316, R319) -/
def Obligations.ResponsesTimeoutsAndTeardown : Prop :=
  (∀ (hdr payload : List Byte) (s : State) (t : Txn) (s1 : State) (f : Flight), s.Up Page.FBP → t = Txn.ofHeader hdr payload →
      s.rxCredits t.vc t.resp ≠ 0 → s1 = s.received t.vc t.resp (hdr ++ payload) → hdr.length = 32 → crcOk hdr 28 = true → t.typ = 4 → t.dst
      = s1.fget F.FBP_NODE_NODE → t.dst ≤ 262143 → t.src ≤ 262143 → t.gate = false → (s1.fab.flight.find? fun f => f.tag ==
      t.tag % 4096 && f.gen == t.tag / 4096 && s1.fget F.FBP_PTN_NODE_NODE f.entry == t.src) = some f → exec (.response hdr
      payload) s = .next ((((({ s1 with fab := { s1.fab with flight := s1.fab.flight.filter (· != f) } } : State).useDone f.txn
      t).runJobs)).flushAll.colAdvance)) ∧
  (∀ (s : State) (t : Txn), (s.fab.flight.find? fun f => f.tag == t.tag % 4096 && f.gen == t.tag / 4096 && s.fget
      F.FBP_PTN_NODE_NODE f.entry == t.src) = none → s.responseIn t = s.bump F.FBP_STALE_CNT_COUNT ∨ s.responseIn t = s.bump
      F.FBP_RX_UNEXP_COUNT) ∧
  (∀ (entry tag : Fin 4096) (s : State) (f : Flight) (s1 : State), s.Up Page.FBP → (s.fab.flight.find? fun f => f.entry ==
      entry.val && f.tag == tag.val) = some f → entry.val < 4080 → s1 =
      { s with fab := { s.fab with flight := s.fab.flight.filter (· != f), quar := nsAdd s.fab.quar (entry.val * 4096 + tag.val) } }
      → exec (.msTimeout entry tag) s = .next ((((((s1.bump F.FBP_TIMEOUT_CNT_COUNT).event 0x1203 f.txn.part).logErr
      { block := Page.FBP, code := 0x0601, sev := 1, part := f.txn.part, kind := 5, addr := f.txn.dst, detail := [f.txn.dst, f.txn.tag, f.txn.vc, 2] }).irq
      Page.FBP 0).useFail f.txn.use 2).runJobs.flushAll.colAdvance)) ∧
  (∀ (entry : Fin 4096) (s : State), s.Up Page.FBP → (s.fab.quar.any fun k => k / 4096 == entry.val) = true → exec
      (.generationStep entry) s = .next
      (let s1 := s.fset F.FBP_PTN_NODE_GEN entry.val ((s.fget F.FBP_PTN_NODE_GEN entry.val + 1) % 16)
       { s1 with fab := { s1.fab with quar := s1.fab.quar.filter fun k => k / 4096 != entry.val } })) ∧
  (∀ (hdr payload : List Byte) (s : State) (t : Txn) (s1 : State) (p : Nat), s.Up Page.FBP → t = Txn.ofHeader hdr payload →
      s.rxCredits t.vc t.resp ≠ 0 → s1 = s.received t.vc t.resp (hdr ++ payload) → hdr.length = 32 → crcOk hdr 28 = true → t.typ = 6 → t.dst
      = s1.fget F.FBP_NODE_NODE → t.dst ≤ 262143 → t.src ≤ 262143 → t.vc = 0 → s1.flag F.FBP_FM_NODE_VALID = true → t.src =
      s1.fget F.FBP_FM_NODE_NODE → ((List.range 8).find? fun p => s1.flag F.FBP_PART_JOB_VALID p && s1.fget F.FBP_PART_JOB_JOB p
      == t.key % 65536) = some p → Part.state s1 p ≠ 0 → Part.state s1 p ≠ 4 → exec (.teardown hdr payload) s = .next
      (((s1.logErr (tearErr t 0x0610 1 (some p))).irq Page.FBP 3).resetPart p)) ∧
  (∀ (hdr payload : List Byte) (s : State) (t : Txn) (s1 : State), s.Up Page.FBP → t = Txn.ofHeader hdr payload → s.rxCredits
      t.vc t.resp ≠ 0 → s1 = s.received t.vc t.resp (hdr ++ payload) → hdr.length = 32 → crcOk hdr 28 = true → t.typ = 6 → t.dst = s1.fget
      F.FBP_NODE_NODE → t.dst ≤ 262143 → t.src ≤ 262143 → t.gate = false → s1.flag F.FBP_FM_NODE_VALID = false → exec (.teardown
      hdr payload) s = .next ((s1.bump F.FBP_RX_HOSTILE_COUNT).logErr (tearErr t 0x0611 0 none)))

/-- Partner, region, block-list and buffer writes, and the link’s state. (R290, R307, R318, R322, R324, R325, R453, R454) -/
def Obligations.FabricTablesAndLink : Prop :=
  (∀ (path : Path) (v : Word) (s : State), s.pathMay path R.FBP_CTRL = true → s.Up Page.FBP → exec (.fabricEnable path v) s =
      .next
      (let t := s.pathWrite path R.FBP_CTRL v.toNat
       if t.flag F.FBP_CTRL_EN && !s.flag F.FBP_CTRL_EN then { t with fab := { t.fab with rxGot := [] } } else t)) ∧
  (∀ (path : Path) (v : Word) (s : State) (e : Nat), s.pathMay path R.FBP_PTN_NODE = true → s.Up Page.FBP → e = s.sel path
      F.FBP_PTN_SEL_ENTRY → e < 4080 → bits v.toNat 0 20 ≤ 262143 → exec (.partnerWrite path v) s = .next ((s.accWrite R.FBP_PTN_NODE e
      v.toNat).partnerChanged e (s.fget F.FBP_PTN_NODE_NODE e) (s.flag F.FBP_PTN_NODE_VALID e))) ∧
  (∀ (path : Path) (off : BitVec 12) (v : Word) (s : State) (a : Nat) (s1 : State) (e : Nat), a = Page.FBK * 0x1000 + off.toNat →
      s.pathMay path a = true → s.Up Page.FBK → [R.FBK_REG_KEY, R.FBK_REG_BASE, R.FBK_REG_LEN_LO, R.FBK_REG_LEN_HI,
      R.FBK_REG_CFG, R.FBK_KX_CFG, R.FBK_KX_VA, R.FBK_KX_PAGES, R.FBK_KX_BASE].contains a = true → s1 = s.pathWrite path a
      v.toNat → e = s.sel path F.FBK_REG_SEL_ENTRY → exec (.regionEntryWrite path off v) s = .next (if (s1.flag
      F.FBK_REG_CFG_VALID e && (List.range 256).any fun x => x != e && s1.flag F.FBK_REG_CFG_VALID x && s1.rd R.FBK_REG_KEY x ==
      s1.rd R.FBK_REG_KEY e) = true then s.set1 F.FBK_STAT_DUP_KEY else s1)) ∧
  (∀ (path : Path) (v : Word) (s : State), s.pathMay path R.FBK_BLK_NODE = true → s.Up Page.FBK → exec (.blockRemove path v) s =
      .next (s.pathWrite path R.FBK_BLK_NODE v.toNat)) ∧
  (∀ (path : Path) (v : Word) (s : State) (c : Nat), s.pathMay path R.FVC_BUF = true → s.Up Page.FVC → c = s.sel path
      F.FVC_BUF_SEL_VC → s.flag F.FBP_CTRL_EN = false → (List.range 8).foldl (fun a x => a + if x = c then bits v.toNat 0 13
      else s.fget F.FVC_BUF_SIZE x) 0 ≤ 4096 → bits v.toNat 16 13 ≤ bits v.toNat 0 13 → exec (.fvcBufWrite path v) s = .next
      (s.accWrite R.FVC_BUF c v.toNat)) ∧
  (∀ (s : State) (c v : Nat), s.flag F.FBP_CTRL_EN = true → s.fvcBufWrite c v = s.set1 F.FVC_STAT_BUF_REFUSED) ∧
  (∀ (initial : List Nat) (s : State), s.run = .running → s.flag F.FBP_STAT_LINK_UP = false → exec (.linkUp initial) s = .next
      (({ s with fab := { s.fab with credits := (List.zipIdx (initial.take 16)).foldl (fun m x => spSet (fun _ => 0) m x.2 x.1) [] } }
      : State).set1 F.FBP_STAT_LINK_UP)) ∧
  (∀ (s : State), s.run = .running → s.flag F.FBP_STAT_LINK_UP = true → exec .linkDown s = .next
      (((({ s with fab := { s.fab with credits := [] } } : State).set0 F.FBP_STAT_LINK_UP).logErr
      { block := Page.FBP, code := 0x0620, sev := 1 }).irq Page.FBP 1)) ∧
  (∀ (s : State), s.run = .running → exec .linkRetry s = .next (s.bump F.FBP_RETRY_CNT_COUNT)) ∧
  (∀ (vc : Fin 8) (resp : Bool) (s : State), s.run = .running → s.flag F.FBP_STAT_LINK_UP = true → exec (.creditReturn vc resp) s
      = .next
      { s with fab := { s.fab with credits := spSet (fun _ => 0) s.fab.credits (2 * vc.val + resp.toNat) (s.txCredits vc.val resp + 1) } })

/-- Collective groups are installed and removed, and the head descriptor of a collective queue starts or is refused. (R327, R328,
R330, R339, R340, R343) -/
def Obligations.CollectivesStartFromTheirQueue : Prop :=
  (∀ (path : Path) (s : State) (g r : Nat) (m : State × Option (List (Option Nat))) (own : List (Option Nat)), s.pathMay path R.COL_GRP_CMD = true → s.Up
      Page.COL → g = s.sel path F.COL_GRP_SEL_ENTRY → m = s.colMembers g (s.grpShape (s.fget F.COL_GRP_CFG_PART g) (s.grpAxes g)).2 1 →
      m.2 = some own → r = m.1.colInstallReason g own.head?.join → r ≠ 0 → exec (.colInstall path) s = .next
      (({ m.1 with col := { m.1.col with installs := m.1.col.installs.erase g } } : State).fset F.COL_GRP_STAT_REASON g r)) ∧
  (∀ (path : Path) (s : State) (g : Nat) (m : State × Option (List (Option Nat))) (own : List (Option Nat)) (s1 : State) (q : Nat × Nat),
      s.pathMay path R.COL_GRP_CMD = true → s.Up
      Page.COL → g = s.sel path F.COL_GRP_SEL_ENTRY → m = s.colMembers g (s.grpShape (s.fget F.COL_GRP_CFG_PART g) (s.grpAxes g)).2 1 → m.2 = some own
      → m.1.colInstallReason g own.head?.join = 0 → s1 = ({ m.1 with col := { m.1.col with installs := m.1.col.installs.erase g } } :
      State).fset F.COL_GRP_STAT_REASON g 0 → q = s1.grpShape (s1.fget F.COL_GRP_CFG_PART g) (s1.grpAxes g) → exec (.colInstall path) s =
      .next
      (let s2 := ((s1.set1 F.COL_GRP_CFG_VALID g).fset F.COL_GRP_STAT_MEMBERS g q.1).fset F.COL_GRP_STAT_RANK g q.2
       { s2 with col := { s2.col with seqs := alDel s2.col.seqs g, ready := s2.col.ready.filter (·.group != g), arrived := s2.col.arrived.filter (·.group != g), weights := s2.col.weights.filter (·.1 != g) } })) ∧
  (∀ (path : Path) (s : State) (g r : Nat) (m : State × Option (List (Option Nat))), s.pathMay path R.COL_GRP_CMD = true → s.Up
      Page.COL → g = s.sel path F.COL_GRP_SEL_ENTRY → m = s.colMembers g (s.grpShape (s.fget F.COL_GRP_CFG_PART g) (s.grpAxes g)).2 1 →
      m.2 = none → r = m.1.colInstallReason g (some (m.1.fget F.FBP_NODE_NODE)) → ¬ (1 ≤ r ∧ r ≤ 4) → exec (.colInstall path) s = .next
      { m.1 with col := { m.1.col with installs := nsAdd m.1.col.installs g } }) ∧
  (∀ (path : Path) (s : State) (g : Nat), s.pathMay path R.COL_GRP_CMD = true → s.Up Page.COL → g = s.sel path F.COL_GRP_SEL_ENTRY
      → (s.col.jobs.any fun x => x.group == g && x.ended.isNone) = false → exec (.colRemove path) s = .next ((({ s with col := { s.col with installs := s.col.installs.erase g } } : State).fset
      F.COL_GRP_STAT_REASON g 0).set0 F.COL_GRP_CFG_VALID g)) ∧
  (∀ (part : Fin 8) (s : State) (s1 : State) (d : List Byte), s.Up Page.COL → s.colJob part.val = none → s.fget F.PTC_STAT_STATE
      part.val ≠ 0 → s.fget F.PTC_STAT_STATE part.val ≠ 4 → s.qReady .collective part.val = true → s1 = (s.qHead .collective
      part.val 2).1 → (s.qHead .collective part.val 2).2 = some d → descHeadOk d false = true → fieldLE d 0 1 = 48 → exec
      (.allReduce part) s = .next (s1.colTake part.val (s1.fget (QKind.head .collective) part.val) d)) ∧
  (∀ (part : Fin 8) (s : State) (s1 : State) (d : List Byte), s.Up Page.COL → s.colJob part.val = none → s.fget F.PTC_STAT_STATE
      part.val ≠ 0 → s.fget F.PTC_STAT_STATE part.val ≠ 4 → s.qReady .collective part.val = true → s1 = (s.qHead .collective
      part.val 2).1 → (s.qHead .collective part.val 2).2 = some d → descHeadOk d false = true → fieldLE d 0 1 = 49 → exec
      (.reduceScatter part) s = .next (s1.colTake part.val (s1.fget (QKind.head .collective) part.val) d)) ∧
  (∀ (part : Fin 8) (s : State) (s1 : State) (d : List Byte), s.Up Page.COL → s.colJob part.val = none → s.fget F.PTC_STAT_STATE
      part.val ≠ 0 → s.fget F.PTC_STAT_STATE part.val ≠ 4 → s.qReady .collective part.val = true → s1 = (s.qHead .collective
      part.val 2).1 → (s.qHead .collective part.val 2).2 = some d → descHeadOk d false = true → fieldLE d 0 1 = 50 → exec
      (.allGather part) s = .next (s1.colTake part.val (s1.fget (QKind.head .collective) part.val) d)) ∧
  (∀ (part : Fin 8) (s : State) (s1 : State) (d : List Byte), s.Up Page.COL → s.colJob part.val = none → s.fget F.PTC_STAT_STATE
      part.val ≠ 0 → s.fget F.PTC_STAT_STATE part.val ≠ 4 → s.qReady .collective part.val = true → s1 = (s.qHead .collective
      part.val 2).1 → (s.qHead .collective part.val 2).2 = some d → descHeadOk d false = true → fieldLE d 0 1 = 51 → exec
      (.broadcast part) s = .next (s1.colTake part.val (s1.fget (QKind.head .collective) part.val) d)) ∧
  (∀ (part : Fin 8) (s : State) (s1 : State) (d : List Byte), s.Up Page.COL → s.colJob part.val = none → s.fget F.PTC_STAT_STATE
      part.val ≠ 0 → s.fget F.PTC_STAT_STATE part.val ≠ 4 → s.qReady .collective part.val = true → s1 = (s.qHead .collective
      part.val 2).1 → (s.qHead .collective part.val 2).2 = some d → descHeadOk d false = true → fieldLE d 0 1 = 52 → exec
      (.allToAll part) s = .next (s1.colTake part.val (s1.fget (QKind.head .collective) part.val) d)) ∧
  (∀ (part : Fin 8) (s : State) (s1 : State) (d : List Byte), s.Up Page.COL → s.colJob part.val = none → s.fget F.PTC_STAT_STATE
      part.val ≠ 0 → s.fget F.PTC_STAT_STATE part.val ≠ 4 → s.qReady .collective part.val = true → s1 = (s.qHead .collective
      part.val 2).1 → (s.qHead .collective part.val 2).2 = some d → descHeadOk d false = true → fieldLE d 0 1 = 53 → exec
      (.colBarrier part) s = .next (s1.colTake part.val (s1.fget (QKind.head .collective) part.val) d)) ∧
  (∀ (part : Fin 8) (s : State) (s1 : State) (d : List Byte), s.Up Page.COL → s.colJob part.val = none → s.fget F.PTC_STAT_STATE
      part.val ≠ 0 → s.fget F.PTC_STAT_STATE part.val ≠ 4 → s.qReady .collective part.val = true → s1 = (s.qHead .collective
      part.val 2).1 → (s.qHead .collective part.val 2).2 = some d → descHeadOk d false = true → fieldLE d 0 1 = 54 → exec
      (.kvRing part) s = .next (s1.colTake part.val (s1.fget (QKind.head .collective) part.val) d)) ∧
  (∀ (s : State) (p i r : Nat) (d : List Byte) (q : State × List (Option Byte) × Span), q = (if cdWeights d = true then s.readRange 2
      p (s.fget F.UPD_LTAB_BASE_BASE p * 4096 + 64 * fieldLE d 36 2) 64 else (s, [], .ok)) → q.2.2 ≠ .wait → q.1.colReason p d
      (q.2.1.map (·.getD 0xFF)) = r → r ≠ 0 → s.colTake p i d = (q.1.qTake .collective p).qRefuse .collective p i d r) ∧
  (∀ (s : State) (p i r : Nat) (d : List Byte), s.qRefuse .collective p i d r =
      (let s1 := ((s.qRecord .collective p none (complRecord (refuseStatus r) (fieldLE d 0 1) 0 (fieldLE d 4 4) 0
           (QKind.source .collective) p r i 0 0xFFFFFFFF s.tick.now)).bump F.COL_REFUSED_CNT_COUNT).wr (QKind.err .collective) p (i + r * 2 ^ 12 + 2 ^ 31)
       (s1.logErr { block := Page.COL, code := QKind.refuseCode .collective, sev := 0, part := some p }).irq Page.COL (QKind.irqs .collective).1)) ∧
  (∀ (s : State) (p i g : Nat) (d : List Byte) (m : State × Option (List (Option Nat))) (nodes : List (Option Nat)) (s1 s2 : State) (x :
      ColJob), s.colReason p d [] = 0 → cdWeights d = false → g = cdGroup d → m = s.colMembers g 0 (s.fget F.COL_GRP_STAT_MEMBERS
      g) → m.2 = some nodes → s1 = m.1 → x = ⟨p, i, d, g, (alGet s1.col.seqs g).getD 0 + 1, s1.fget F.COL_GRP_STAT_MEMBERS g, s1.fget
      F.COL_GRP_STAT_RANK g, s1.cdWide d (s1.fget F.COL_GRP_STAT_MEMBERS g), 1, false, 0, [], 1, none, 0, 0, s1.tick.hall, s1.tick.hall,
      none, [], [], none, false, nodes, ldAddr d 20, none, false⟩ → x.local_ = none → s2 = s1.qTake .collective p → s.colTake p i d =
      ({ s2 with col := { s2.col with seqs := alPut s2.col.seqs g x.seq, jobs := s2.col.jobs ++ [x] } } : State).colAdvance)

/-- Segments, READYs and ARRIVALs of a collective, and its timeout; on which channel one comes for a collective not taken yet is
the model’s choice, log entry 105. (R330, R332, R339, R342) -/
def Obligations.CollectiveMessagesAndTimeout : Prop :=
  (∀ (gate : Bool) (src : BitVec 20) (msg : List Byte) (s : State) (s1 s2 : State) (g : Nat) (x : ColJob) (t : ColStep), s.Up Page.FBP → s.rxCredits (s.colVc msg) false ≠ 0 → ¬ 262143 < src.toNat → gate = false → s1 = s.msgIn (s.colVc msg) false gate src.toNat msg → s2 = (s1.colHead msg 0x20).1 → (s1.colHead msg 0x20).2 = some g → s2.groupJob g = some x
      → t = x.step x.rcv → fieldLE msg 4 4 = x.seq → fieldLE msg 8 2 = x.rcv → x.rcv ≤ x.total → x.asked = true → t.from_
      = some (fieldLE msg 10 2) → fieldLE msg 12 4 + fieldLE msg 16 4 ≤ t.len → exec (.colSegment gate src msg) s = .next
      (s2.colLand x t msg)) ∧
  (∀ (gate : Bool) (src : BitVec 20) (msg : List Byte) (s : State) (s1 s2 : State) (g : Nat), s.Up Page.FBP → s.rxCredits
      (s.colVc msg) false ≠ 0 → ¬ 262143 < src.toNat → gate = false → s1 = s.msgIn (s.colVc msg) false gate src.toNat msg → s2 = (s1.colHead msg 0x20).1 → (s1.colHead msg 0x20).2 = some g → s2.groupJob g = none → exec
      (.colSegment gate src msg) s = .next s2.colStale) ∧
  (∀ (s : State) (msg : List Byte) (typ : Nat), crcOk msg 28 = true → fieldLE msg 24 4 = crc32c ((msg.drop 32).take (fieldLE msg
      16 4)) → fieldLE msg 0 1 = typ → fieldLE msg 1 1 = 1 → s.colHead msg typ = (s, s.grpOfTag (fieldLE msg 2 2))) ∧
  (∀ (gate : Bool) (src : BitVec 20) (msg : List Byte) (s : State) (s1 s2 : State) (g : Nat), s.Up Page.FBP → s.rxCredits
      (s.colVc msg) false ≠ 0 → ¬ 262143 < src.toNat → gate = false → s1 = s.msgIn (s.colVc msg) false gate src.toNat msg → s2 = (s1.colHead msg 0x21).1 → (s1.colHead msg 0x21).2 = some g → (alGet s2.col.seqs g).getD 0 <
      fieldLE msg 4 4 → exec (.colReady gate src msg) s = .next
      (({ s2 with col := { s2.col with ready := holdIn s2.col.ready ⟨g, fieldLE msg 10 2, fieldLE msg 4 4, fieldLE msg 8 2⟩ } }
      : State).colAdvance)) ∧
  (∀ (gate : Bool) (src : BitVec 20) (msg : List Byte) (s : State) (s1 s2 : State) (g : Nat) (h : ColHeld), s.Up Page.FBP →
      s.rxCredits 4 false ≠ 0 → ¬ 262143 < src.toNat → gate = false → s1 = s.msgIn 4 false gate src.toNat msg → s2
      = (s1.colHead msg 0x22).1 → (s1.colHead msg 0x22).2 = some g → (alGet s2.col.seqs g).getD 0 < fieldLE msg 4 4 → h = ⟨g,
      fieldLE msg 10 2, fieldLE msg 4 4, fieldLE msg 8 2⟩ → s2.col.arrived.contains h = false → exec (.barrierArrival gate src
      msg) s = .next (({ s2 with col := { s2.col with arrived := s2.col.arrived ++ [h] } } : State).colAdvance)) ∧
  (∀ (part : Fin 8) (s : State) (x : ColJob) (s1 : State), s.Up Page.COL → s.colJob part.val = some x → x.ended.isSome = false →
      ((x.waitsData = true ∧ x.since + 1000 * clamp 10 60000 (s.fget F.COL_TIMEOUT_US) < s.tick.hall) ∨ (s.waitsReady x = true ∧
      x.sinceSnd + 1000 * clamp 10 60000 (s.fget F.COL_TIMEOUT_US) < s.tick.hall)) → s1 = (if x.rcv ≤ x.total ∧ (x.step x.rcv).mode =
      .lanes ∧ x.asked = true then s.setFrag (cdFrag x.desc + x.reduceIndex x.rcv) 3 none else s) →
      exec (.colTimeout part) s = .next ((((s1.bump F.COL_TIMEOUT_CNT_COUNT).logErr
      { block := Page.COL, code := 0x0701, sev := 1, part := some part.val }).irq Page.COL 0).colEnd x 2))

/-- An archive point is armed, taken, captured, acknowledged, sent again and aborted; a restore runs. (R348, R349, R350, R355,
R356, R358) -/
def Obligations.ArchivePointsAndRestore : Prop :=
  (∀ (path : Path) (full : Bool) (s : State) (p : Nat), s.pathMay path R.ARC_CMD = true → s.Up Page.ARC → p = s.sel path
      F.ARC_PART_SEL_PART → s.arcReason p = 0 → exec (.archiveArm path full) s = .next (((s.fset F.ARC_STAT_REASON p 0).fset
      F.ARC_STAT_STATE p 1).setArcPoint p (some ⟨full, (s.fset F.ARC_STAT_REASON p 0).rd64 R.ARC_POINT_LO p, 0, 0, 0, false, [],
      false⟩))) ∧
  (∀ (path : Path) (full : Bool) (s : State) (p : Nat), s.pathMay path R.ARC_CMD = true → s.Up Page.ARC → p = s.sel path
      F.ARC_PART_SEL_PART → s.arcReason p ≠ 0 → exec (.archiveArm path full) s = .next ((s.fset F.ARC_STAT_REASON p (s.arcReason
      p)).irq Page.ARC 2)) ∧
  (∀ (path : Path) (s : State) (p : Nat), s.pathMay path R.ARC_CMD = true → s.Up Page.ARC → p = s.sel path F.ARC_PART_SEL_PART →
      s.fget F.ARC_STAT_STATE p ≠ 0 → exec (.archiveAbort path) s = .next (((((s.mapJoin p).setArcPoint p none).fset
      F.ARC_STAT_STATE p 0).fset F.ARC_STAT_RESULT p 3).irq Page.ARC 0)) ∧
  (∀ (part : Fin 8) (s : State), s.Up Page.ARC → s.arcDue part.val = true → exec (.archivePoint part) s = .next (((s.fset
      F.ARC_STAT_LIVE part.val (s.capMap part.val)).bump F.ARC_SEQ_SEQ part.val).fset F.ARC_STAT_STATE part.val 2)) ∧
  (∀ (part : Fin 8) (s : State) (pt : ArcPoint), s.Up Page.ARC → s.arcPoint part.val = some pt → s.fget F.ARC_STAT_STATE part.val
      = 2 → pt.recs.length < clamp 1 64 (s.fget F.ARC_WINDOW_RECORDS) → exec (.captureRecord part) s = .next (State.arcWalk
      part.val (s.arcPlaces part.val) pt (s.wordsOut part.val))) ∧
  (∀ (part : Fin 8) (s : State) (pt : ArcPoint), s.Up Page.ARC → s.arcPoint part.val = some pt → s.fget F.ARC_STAT_STATE part.val
      = 3 → exec (.captureRecord part) s = .next (s.arcEnd part.val)) ∧
  (∀ (s : State) (p k : Nat) (pt : ArcPoint), s.fget F.ARC_TAB_COUNT_COUNT p ≤ pt.entry → State.arcWalk p (k + 1) pt s =
      ((s.setArcPoint p (some pt)).fset F.ARC_STAT_STATE p 3).arcEnd p) ∧
  (∀ (gate : Bool) (src : BitVec 20) (msg : List Byte) (s : State) (s1 : State), s.Up Page.FBP → s.rxCredits 6 true ≠ 0 → ¬
      262143 < src.toNat → gate = false → s1 = s.msgIn 6 true gate src.toNat msg → msg.length = 32 → fieldLE msg
      0 1 = 0x31 → fieldLE msg 1 1 = 1 → crcOk msg 28 = true → fieldLE msg 2 2 = 0 → fieldLE msg 12 16 = 0 → exec (.archiveAck
      gate src msg) s = .next ((List.range 8).foldl (fun (y : State) p => if (y.flag F.ARC_TARGET_VALID p && y.fget
      F.ARC_TARGET_NODE p == src.toNat && y.rd R.ARC_SEQ p == fieldLE msg 4 4 && decide (2 ≤ y.fget F.ARC_STAT_STATE p)) = true
      then y.arcAck p (fieldLE msg 8 4) else y) s1)) ∧
  (∀ (s : State) (p seq : Nat) (pt : ArcPoint), s.arcPoint p = some pt → pt.ended = true → (pt.recs.filter fun r => decide (seq <
      r.seq)) = [] → s.arcAck p seq = ((((s.setArcPoint p none).fset F.ARC_STAT_STATE p 0).fset F.ARC_STAT_RESULT p 1).set1
      F.ARC_STAT_DONE p).irq Page.ARC 3) ∧
  (∀ (part : Fin 8) (seq : Nat) (s : State) (pt : ArcPoint) (r : ArcRec), s.Up Page.ARC → s.arcPoint part.val = some pt →
      (pt.recs.find? fun r => r.seq == seq) = some r → r.resent < 8 → exec (.archiveResend part seq) s = .next (((s.setArcPoint
      part.val (some
      { pt with recs := pt.recs.map fun x => if x.seq == seq then { x with resent := x.resent + 1 } else x })).bump
      F.ARC_RESEND_CNT_COUNT).arcTransmit part.val r)) ∧
  (∀ (part : Fin 8) (seq : Nat) (s : State) (pt : ArcPoint) (r : ArcRec), s.Up Page.ARC → s.arcPoint part.val = some pt →
      (pt.recs.find? fun r => r.seq == seq) = some r → 8 ≤ r.resent → exec (.archiveResend part seq) s = .next (s.arcFail
      part.val 2)) ∧
  (∀ (part : Fin 8) (s : State) (s1 : State) (d : List Byte) (s2 : State), s.Up Page.ARC → (s.arc.restores.find? fun x => x.part
      == part.val) = none → s.fget F.PTC_STAT_STATE part.val ≠ 0 → s.fget F.PTC_STAT_STATE part.val ≠ 4 → s.qReady .restore
      part.val = true → s1 = (s.qHead .restore part.val 2).1 → (s.qHead .restore part.val 2).2 = some d → descHeadOk d false =
      true → fieldLE d 0 1 = 0x40 → s2 = s1.qTake .restore part.val → s2.arcDescReason part.val d = 0 → exec (.restore part) s =
      .next (State.arcRun (rsCount d + 1) ⟨part.val, s1.fget (QKind.head .restore) part.val, d, 0, fieldLE d 8 4 * 4096, [],
      false⟩ s2))

/-- Partitions are created, switched and reset; how fast an image moves is the model’s choice, log entry 89. (R367, R369, R373,
R375, R376, R377) -/
def Obligations.PartitionsCreatedSwitchedAndReset : Prop :=
  (∀ (path : Path) (s : State) (p : Nat), s.pathMay path R.PTC_CMD = true → s.Up Page.PTC → p = s.sel path F.PTC_PART_SEL_PART →
      s.createReason p ≠ 0 → exec (.createPart path) s = .next ((s.fset F.PTC_STAT_REASON p (s.createReason p)).irq Page.PTC 2)) ∧
  (∀ (path : Path) (s : State) (p : Nat) (s1 : State), s.pathMay path R.PTC_CMD = true → s.Up Page.PTC → p = s.sel path
      F.PTC_PART_SEL_PART → s.createReason p = 0 → s1 = ((s.fset F.PTC_STAT_REASON p 0).bump F.PTC_JOB_CNT_COUNT ((s.fset
      F.PTC_STAT_REASON p 0).fget F.PTC_CFG_CLIENT p)).topDownZero p → s1.seatHolder (s1.seatOf p) = none → exec (.createPart
      path) s = .next ((s1.clearSeat p).setPart p 2)) ∧
  (∀ (path : Path) (s : State) (p : Nat) (s1 : State) (r : Nat), s.pathMay path R.PTC_CMD = true → s.Up Page.PTC → p = s.sel path
      F.PTC_PART_SEL_PART → s.createReason p = 0 → s1 = ((s.fset F.PTC_STAT_REASON p 0).bump F.PTC_JOB_CNT_COUNT ((s.fset
      F.PTC_STAT_REASON p 0).fget F.PTC_CFG_CLIENT p)).topDownZero p → s1.seatHolder (s1.seatOf p) = some r → exec (.createPart
      path) s = .next (s1.setPart p 1)) ∧
  (∀ (path : Path) (s : State) (p : Nat), s.pathMay path R.PTC_CMD = true → s.Up Page.PTC → p = s.sel path F.PTC_PART_SEL_PART →
      s.switchReason p ≠ 0 → exec (.switchPart path) s = .next ((s.fset F.PTC_STAT_REASON p (s.switchReason p)).irq Page.PTC 2)) ∧
  (∀ (path : Path) (s : State) (p : Nat) (s1 : State), s.pathMay path R.PTC_CMD = true → s.Up Page.PTC → p = s.sel path
      F.PTC_PART_SEL_PART → s.switchReason p = 0 → s1 = s.fset F.PTC_STAT_REASON p 0 → exec (.switchPart path) s = .next
      (({ s1 with ptc := { s1.ptc with switches := s1.ptc.switches ++ [⟨s1.seatOf p, p, s1.seatHolder (s1.seatOf p), s1.tick.hall, false, false, 0, 0⟩] } }
      : State).switchBegin (s1.seatOf p))) ∧
  (∀ (seat : Fin 8) (time : BitVec 64) (s : State) (w : Switch) (s1 : State), s.Up Page.PTC → s1 = s.passTo time.toNat →
      (s1.ptc.switches.find? fun x => x.seat == seat.val) = some w → w.moving = true → s1.tower.critical = false → exec
      (.switchDone seat time) s = .next (s1.switchEnd w)) ∧
  (∀ (s : State) (seat r : Nat) (x : Switch), (s.ptc.switches.find? fun y => y.seat == seat) = some x → x.moving = false →
      s.seatHolder seat = some r → x.bound = true → Part.state s r = 2 → s.partQuiet r = true → s.switchBegin seat = ((s.setPart r 3).saveImage r).setSwitch { x with outP := some r, moving := true, began := s.tick.hall, left := s.imageBytes seat }) ∧
  (∀ (s : State) (x : Switch), s.switchEnd x =
      (let s2 := x.outP.elim s (fun r => s.setPart r 1)
       let s3 := (s2.loadImage x.inP).setPart x.inP 2
       let s4 : State := { s3 with ptc := { s3.ptc with switches := s3.ptc.switches.filter fun y => y.seat != x.seat } }
       let s5 := (((s4.fset F.PTC_SWITCH_US_US x.inP (min 65535 ((s4.tick.hall - x.began) / 1000))).set1 F.PTC_STAT_DONE x.inP).bump
           F.PTC_SWITCH_CNT_COUNT).irq Page.PTC 0
       (s5.ptc.resets.filter (·.waits)).foldl (fun (y : State) r => if r.part = x.inP ∨ some r.part = x.outP then y.resetBegin r.part
           else y) s5)) ∧
  (∀ (path : Path) (s : State) (p : Nat), s.pathMay path R.PTC_CMD = true → s.Up Page.PTC → p = s.sel path F.PTC_PART_SEL_PART →
      Part.state s p = 0 → exec (.resetPart path) s = .next ((s.fset F.PTC_STAT_REASON p 1).irq Page.PTC 2)) ∧
  (∀ (path : Path) (s : State) (p : Nat), s.pathMay path R.PTC_CMD = true → s.Up Page.PTC → p = s.sel path F.PTC_PART_SEL_PART →
      Part.state s p ≠ 0 → exec (.resetPart path) s = .next ((s.fset F.PTC_STAT_REASON p 0).resetPart p)) ∧
  (∀ (s : State) (p : Nat), Part.state s p = 3 → s.resetPart p =
      { s with ptc := { s.ptc with resets := (s.ptc.resets.filter fun x => x.part != p) ++ [⟨p, s.tick.hall, false, true⟩] } }) ∧
  (∀ (part : Fin 8) (s : State) (s1 : State), s.Up Page.PTC → s1 = s.emptyDrained → Part.state s1 part = 4 → exec (.drainLimit
      part) s = .next ((List.range 16).foldl (fun (y : State) g => if Grp.part y g = part.val ∧ y.slotTaken g = true then
      ((y.dissolveSlot g).logErr { block := Page.PTC, code := 0x0802, sev := 1, part := some part.val }).irq Page.PTC 3 else y) s1)) ∧
  (∀ (part : Fin 8) (s : State) (s1 : State), s.Up Page.PTC → s1 = s.emptyDrained → Part.state s1 part = 4 → s1.resetQuiet part
      = true → exec (.resetDone part) s = .next (s1.resetEnd part)) ∧
  (∀ (s : State), s.Up Page.PTC → exec .slowdownWindow s = .next
      (let s1 := (List.range 8).foldl (fun (y : State) p => y.slowdown p) s
       { s1 with ptc := { s1.ptc with slow := [] } }))

/-- Error records are taken and injected, the fatal bit is cleared, and a response of the external tier ends its request; that an
access’s data do not wait for the response is the model’s choice, log entry 71. (R387, R390, R393, R450, R451) -/
def Obligations.ErrorRecordsAndInjection : Prop :=
  (∀ (s : State), s.pathMay .port R.ERU_POP = true → s.pageUp Page.ERU = true → exec (.eruPop .port) s = .next
      { s with eru := { s.eru with queue := s.eru.queue.drop 1 } }) ∧
  (∀ (c : Fin 4) (s : State) (r : ErrRec) (l : List ErrRec) (s1 : State), s.pathMay (.core c) R.ERU_POP = true → s.pageUp Page.ERU
      = true → s.eru.queue = r :: l → s1 =
      (let s0 := { s with eru := { s.eru with queue := l } }
       { s0 with mgmt := { s0.mgmt with log := s0.mgmt.log ++ [r.bytes] } })→ exec (.eruPop (.core c)) s = .next (if r.code = 0x0402 ∨ r.code = 0x0409 ∨ r.code = 0x040A then s1.notify 0x8004 ([r.code] ++
      r.detail) else s1)) ∧
  (∀ (path : Path) (value : Word) (s : State), s.pathMay path R.ERU_INJECT = true → s.pageUp Page.ERU = true → exec (.eruInject
      path value) s = .next (if bits value.toNat 16 2 = 3 then s else s.logErr
      { block := Page.ERU, code := bits value.toNat 0 16, sev := bits value.toNat 16 2, injected := true })) ∧
  (∀ (path : Path) (s : State), s.pathMay path R.ERU_STAT = true → s.pageUp Page.ERU = true → exec (.fatalClear path) s = .next
      (if s.fatalNow = true then s else s.set0 F.ERU_STAT_FATAL)) ∧
  (∀ (granule : BitVec 29) (wr err : Bool) (s : State), s.run = .running → (err = false ∨ extSize ≤ 64 * granule.toNat) → exec
      (.xtResponse granule wr err) s = .next (s.xtAnswer wr granule.toNat)) ∧
  (∀ (granule : BitVec 29) (wr err : Bool) (s s1 : State), s.run = .running → err = true → s1 = s.xtAnswer wr granule.toNat → ¬ extSize ≤ 64 * granule.toNat → ((s1.tagAt
      granule.toNat = none ∧ s1.codedAt .t2 (64 * granule.toNat) = none) ∨ wr = true) → exec (.xtResponse granule wr err) s =
      .next ((s1.logErr { block := Page.TWC, code := 0x0102, sev := 1, kind := 3, addr := 64 * granule.toNat }).extPoison
      granule.toNat))

/-- Counters are configured, preloaded, snapshot, frozen and read. (R401, R403, R404, R405) -/
def Obligations.CountersAndSnapshots : Prop :=
  (∀ (path : Path) (value : Word) (s : State) (c : Nat), s.pathMay path R.CTR_CFG = true → s.pageUp Page.CTR = true → c = s.sel
      path F.CTR_SEL_COUNTER → exec (.ctrCfgWrite path value) s = .next
      { s with ctr := { s.ctr with stagedCfg := alPut s.ctr.stagedCfg c (value.toNat % 2 ^ 22) } }) ∧
  (∀ (path : Path) (value : Word) (s : State) (c : Nat) (s1 : State), s.pathMay path R.CTR_PRELOAD_HI = true → s.pageUp Page.CTR =
      true → c = s.sel path F.CTR_SEL_COUNTER → s1 = s.fset F.CTR_PRELOAD_HI_VALUE c value.toNat → exec (.preload path value) s
      = .next (if bit value.toNat 31 = true then
      { s1 with ctr := { s1.ctr with stagedLoad := alPut s1.ctr.stagedLoad c (s1.rd R.CTR_PRELOAD_LO c + s1.fget F.CTR_PRELOAD_HI_VALUE c * 2 ^ 32) } }
      else s1)) ∧
  (∀ (path : Path) (host : Bool) (s : State), s.pathMay path R.CTR_SNAP_CMD = true → s.run = .running → exec (.snapshot path host)
      s = .next (s.snapCmd 1 host)) ∧
  (∀ (path : Path) (host : Bool) (s : State), s.pathMay path R.CTR_SNAP_CMD = true → s.run = .running → exec (.freeze path host) s
      = .next (s.snapCmd 2 host)) ∧
  (∀ (path : Path) (host : Bool) (s : State), s.pathMay path R.CTR_SNAP_CMD = true → s.run = .running → exec (.unfreeze path host)
      s = .next (s.snapCmd 3 host)) ∧
  (∀ (s : State) (op : Nat) (host : Bool), (s.rd64 R.CTR_SNAP_LO < s.tick.hall + 2000 ∨ (host = true ∧ (s.isMgr = false ∨
      s.eru.checkFailed = true))) → s.snapCmd op host = s.set1 F.CTR_SNAP_STAT_REFUSED) ∧
  (∀ (s : State) (op : Nat), s.tick.hall + 2000 ≤ s.rd64 R.CTR_SNAP_LO → s.snapCmd op false =
      ({ s with ctr := { s.ctr with armed := some (op, s.rd64 R.CTR_SNAP_LO) } } : State).set1 F.CTR_SNAP_STAT_ARMED) ∧
  (∀ (s : State) (op a : Nat), s.run = .running → s.ctr.armed = some (op, a) → exec .snapTime s = .next ((s.passTo a).snapAct)) ∧
  (∀ (s : State) (a : Nat), s.ctr.armed = some (2, a) → s.snapAct =
      (let t := (({ s with ctr := { s.ctr with armed := none } } : State).set0 F.CTR_SNAP_STAT_ARMED).snapNow
       ({ t with ctr := { t.ctr with frozen := true } } : State).fset F.CTR_SNAP_STAT_FROZEN 0 1)) ∧
  (∀ (path : Path) (off : BitVec 17) (s : State) (page v : Nat), s.pathReads path = true → page = off.toNat / 0x1000 → s.pageUp
      page = true → s.clkOk page = true → s.pairValue path off.toNat = some v → exec (.latchedRead path off) s = .next
      (({ s with latched := alPut s.latched (regKey (off.toNat + 4) (pathCopy path)) (BitVec.ofNat 32 (v / 2 ^ 32)), rdata := BitVec.ofNat 32 v } :
      State).portEnds path page))

/-- Management cores are restarted, halted, kicked and watched; the Kiosk window’s doorbell and take. (R411, R420, R421, R422,
R423, R434) -/
def Obligations.CoresRestartHaltAndAreWatched : Prop :=
  (∀ (path : Path) (s : State) (c : Nat), s.pathMay path R.MGC_CORE_CTRL = true → s.pageUp Page.MGC = true → c = s.sel path
      F.MGC_CORE_SEL_CORE → s.fget F.TSG_STAT_STATE = 0 → (s.coreState c ≠ 0 ∨ path = .port) → exec (.restart path) s = .next
      ((({ s with mgmt := { s.mgmt with restarts := s.mgmt.restarts.set c [] } } : State).restartCore c).coreEvent c 0)) ∧
  (∀ (s : State) (c : Nat), s.segMayStart c = false → s.startCore c = (s.fset F.MGC_CORE_STAT_STATE c 0).logErr
      { block := Page.MGC, code := 0x0903, sev := 1 }) ∧
  (∀ (path : Path) (s : State) (c : Nat), s.pathMay path R.MGC_CORE_CTRL = true → s.pageUp Page.MGC = true → c = s.sel path
      F.MGC_CORE_SEL_CORE → s.coreState c ≠ 0 → exec (.haltCore path) s = .next ((s.haltCore c).coreEvent c 1)) ∧
  (∀ (c : Fin 4) (value : BitVec 2) (s : State), s.pathMay (.core c) R.MGC_WDT_KICK = true → s.pageUp Page.MGC = true →
      value.toNat = c.val → exec (.wdtKick (.core c) value) s = .next (s.kick c)) ∧
  (∀ (s : State) (c : Nat), s.flag F.MGC_CORE_STAT_ALIVE c = false → s.mgmt.swap = none → s.kick c = s.set1 F.MGC_CORE_STAT_ALIVE
      c) ∧
  (∀ (core : Fin 4) (s : State), s.pageUp Page.MGC = true → s.coreState core = 1 → s.flag F.MGC_WDT_CFG_EN core = true → exec
      (.watchdogExpiry core) s = .next (s.watchdog core)) ∧
  (∀ (core : Fin 4) (addr : BitVec 19) (s : State), s.pageUp Page.MGC = true → s.coreState core = 1 → exec
      (.managementSramParityError core addr) s = .next
      (({ s with mgmt := { s.mgmt with sram := s.mgmt.sram.putBad addr.toNat (s.mgmt.sram.byte addr.toNat) } } : State).watchdog
      core)) ∧
  (∀ (s : State) (c : Nat) (past : List Nat), s.mgmt.swap = none → past = ((s.mgmt.restarts[c]?).getD []).filter (fun t => decide
      (s.tick.hall ≤ t + 60000000000)) → past.length < 2 → s.watchdog c =
      ((((({ s with mgmt := { s.mgmt with restarts := s.mgmt.restarts.set c (s.tick.hall :: past) } } : State).bumpSat
      F.MGC_CORE_STAT_RESTARTS c).logErr { block := Page.MGC, code := 0x0901, sev := 0 }).restartCore c).coreEvent c 0)) ∧
  (∀ (s : State) (c : Nat) (past : List Nat), s.mgmt.swap = none → past = ((s.mgmt.restarts[c]?).getD []).filter (fun t => decide
      (s.tick.hall ≤ t + 60000000000)) → 2 ≤ past.length → s.watchdog c =
      (((({ s with mgmt := { s.mgmt with restarts := s.mgmt.restarts.set c [] } } : State).haltCore c).logErr
      { block := Page.MGC, code := 0x0902, sev := 1 }).coreEvent c 1)) ∧
  (∀ (path : Path) (s : State), s.pathMay path R.MGC_KSK_DOORBELL = true → s.pageUp Page.MGC = true → exec (.kioskDoorbell path) s
      = .next (s.kskIn (s.sel path F.MGC_KSK_SEL_MBOX) .window s.kskWindow)) ∧
  (∀ (s : State) (b : Nat) (src : KskSrc) (m : List Byte), kskOk m = true → ringBytes ((s.box b).req.map (·.msg)) + m.length ≤
      kskRing → s.kskIn b src m = s.setBox b { s.box b with req := (s.box b).req ++ [⟨src, m⟩] }) ∧
  (∀ (path : Path) (s : State) (b : Nat), s.pathMay path R.MGC_KSK_TAKE = true → s.pageUp Page.MGC = true → b = s.sel path
      F.MGC_KSK_SEL_MBOX → (s.box b).spill = [] → exec (.kioskTake path) s = .next (s.setBox b
      { s.box b with rep := (s.box b).rep.drop 1 })) ∧
  (∀ (ver : BitVec 16) (area : List Byte) (s : State) (c : Nat), s.pageUp Page.MGC = true → s.mgmt.act = some c → exec
      (.coreExchange ver area) s = .next (s.activated c ver.toNat area))

/-- Re-plans of the analogue trim, the power budget and the governor; how the estimate is formed from counts and coefficients is
the model’s choice, log entry 94. (R426, R427, R428, R461, R463) -/
def Obligations.ReplansAndPower : Prop :=
  (∀ (ro : List (BitVec 24)) (s : State), s.pageUp Page.PWA = true → exec (.replanTimer ro) s = .next (s.replanStart (ro.map
      (·.toNat)))) ∧
  (∀ (path : Path) (value : Word) (ro : List (BitVec 24)) (s : State) (s1 : State), s.pathMay path R.PWA_REPLAN = true → s.pageUp
      Page.PWA = true → s1 = s.fset F.PWA_REPLAN_HOURS 0 (clamp 1 8760 (bits value.toNat 0 14)) → exec (.replanNow path value
      ro) s = .next (if bit value.toNat 16 = true then s1.replanStart (ro.map (·.toNat)) else s1)) ∧
  (∀ (s : State) (ro : List Nat), (s.coreState 2 ≠ 1 ∨ s.mgmt.replan.isSome = true) → s.replanStart ro = s) ∧
  (∀ (path : Path) (value : Word) (s : State) (s1 : State), s.pathMay path R.PWA_BUDGET_REQ = true → s.pageUp Page.PWA = true → s1
      = s.fset F.PWA_BUDGET_REQ_REQ 0 (bits value.toNat 0 10) → exec (.budgetRequest path value) s = .next
      { s1 with pwr := { s1.pwr with reqTgl := !s1.pwr.reqTgl } }) ∧
  (∀ (grant : BitVec 10) (s : State) (s1 : State), s.pageUp Page.PWA = true → s1 = (s.fset F.PWA_BUDGET_GRANT_GRANT 0
      grant.toNat).set1 F.PWA_BUDGET_GRANT_VALID → exec (.budgetGrant grant) s = .next
      { s1 with pwr := { s1.pwr with grant := some grant.toNat } }) ∧
  (∀ (est : BitVec 10) (s : State) (e d : Nat) (s1 : State), s.Up Page.PWA → (e, s1) = s.estimate est.toNat → d = governed (s.flag F.PWA_CTRL_GOV_EN) (s.fget F.PWA_BUDGET_EFF_BUDGET) (s.fget
      F.PWA_FLOOR_FLOOR) (s.fget F.PWA_CTRL_HYST) e (s.fget F.LNF_IDLE_POWER) → exec (.governorStep est) s = .next (((s1.fset
      F.PWA_EST_POWER 0 e).fset F.LNF_IDLE_POWER 0 d).fset F.PWA_STAT_GOVERNING 0 (if d = 0 then 0 else 1))) ∧
  (∀ (s : State) (more : Nat), (List.range 16).all (fun i => s.rd R.PWA_COEF i == 0) = true → s.estimate more = (0,
      { s with pwr := { s.pwr with activity := [], since := s.tick.hall } })) ∧
  (∀ (s : State) (more w : Nat), (List.range 16).all (fun i => s.rd R.PWA_COEF i == 0) = false → wattsOf (max 1 ((s.tick.hall -
      s.pwr.since) / 1000)) (s.pwr.activity.foldl (fun a c => a.add ((f32 (s.rd R.PWA_COEF (Config.activityCoef c.1 % 16))).mul (.fin
      false c.2 0))) (.fin false 0 0)) = some w → s.estimate more = (min 1023 (w + more),
      { s with pwr := { s.pwr with activity := [], since := s.tick.hall } }))

/-- A Kiosk request at the head of the mailbox whose turn it is, is answered with its status and its data; which mailbox is next
is the model’s reading, log entry 69, and bodies that the rules do not lay out are open, log entry 41. (R414, R419, R420, R423,
R424, R428) -/
def Obligations.KioskRequestsAreAnswered : Prop :=
  (∀ (mbox : Fin 4) (s : State) (r : KskReq) (rest : List KskReq) (q : State × List Byte) (s1 : State) (body : List Byte),
      s.pageUp Page.MGC = true → (s.box mbox.val).req = r :: rest → s.kskNext = some mbox.val → alGet (s.box mbox.val).kept
      (kskSeq r.msg) = none → s.kskTurned mbox.val r.msg = none → kskOp r.msg = 1 → q = ((s.setBox mbox.val
      { s.box mbox.val with req := rest }).kskPass mbox.val).takeFrag mbox.val (kskSeq r.msg) → s1 = q.1 → body = q.2 ++ kskBodyOf r.msg → bit
      (kskFlags r.msg) 2 = false → exec (.kioskHello mbox) s = .next (s1.kskReply mbox.val r (kskMajor r.msg) (leBytes 4 0 ++
      (leBytes 1 s1.majors.1 ++ leBytes 1 s1.majors.2 ++ openBody 0x01 ((List.range 4).map s1.fwVer ++ [s1.rd R.IDN_IPVER]))))) ∧
  (∀ (mbox : Fin 4) (s : State) (r : KskReq) (rest : List KskReq) (q : State × List Byte) (s1 : State) (body : List Byte),
      s.pageUp Page.MGC = true → (s.box mbox.val).req = r :: rest → s.kskNext = some mbox.val → alGet (s.box mbox.val).kept
      (kskSeq r.msg) = none → s.kskTurned mbox.val r.msg = none → kskOp r.msg = 2 → q = ((s.setBox mbox.val
      { s.box mbox.val with req := rest }).kskPass mbox.val).takeFrag mbox.val (kskSeq r.msg) → s1 = q.1 → body = q.2 ++ kskBodyOf r.msg → bit
      (kskFlags r.msg) 2 = false → exec (.kioskStatus mbox) s = .next (s1.kskReply mbox.val r (kskMajor r.msg) (leBytes 4 0 ++
      openBody 0x02 (((List.range 4).flatMap fun c => [s1.coreState c, s1.fget F.MGC_CORE_STAT_RESTARTS c]) ++ [s1.kskState,
      s1.fget F.TSG_STAT_STATE])))) ∧
  (∀ (mbox : Fin 4) (s : State) (r : KskReq) (rest : List KskReq) (q : State × List Byte) (s1 : State) (body : List Byte),
      s.pageUp Page.MGC = true → (s.box mbox.val).req = r :: rest → s.kskNext = some mbox.val → alGet (s.box mbox.val).kept
      (kskSeq r.msg) = none → s.kskTurned mbox.val r.msg = none → kskOp r.msg = 16 → q = ((s.setBox mbox.val
      { s.box mbox.val with req := rest }).kskPass mbox.val).takeFrag mbox.val (kskSeq r.msg) → s1 = q.1 → body = q.2 ++ kskBodyOf r.msg → bit
      (kskFlags r.msg) 2 = false → 4 ≤ body.length → exec (.logRead mbox) s = .next (s1.kskReply mbox.val r (kskMajor r.msg)
      (leBytes 4 0 ++ openBody 0x10 ((s1.mgmt.log.filter fun x => decide (fieldLE body 0 4 ≤ recSeq x)).flatMap fun x => x.map
      (·.toNat))))) ∧
  (∀ (mbox : Fin 4) (s : State) (r : KskReq) (rest : List KskReq) (q : State × List Byte) (s1 : State) (body : List Byte),
      s.pageUp Page.MGC = true → (s.box mbox.val).req = r :: rest → s.kskNext = some mbox.val → alGet (s.box mbox.val).kept
      (kskSeq r.msg) = none → s.kskTurned mbox.val r.msg = none → kskOp r.msg = 16 → q = ((s.setBox mbox.val
      { s.box mbox.val with req := rest }).kskPass mbox.val).takeFrag mbox.val (kskSeq r.msg) → s1 = q.1 → body = q.2 ++ kskBodyOf r.msg → bit
      (kskFlags r.msg) 2 = false → body.length < 4 → exec (.logRead mbox) s = .next (s1.kskReply mbox.val r (kskMajor r.msg)
      (leBytes 4 3 ++ []))) ∧
  (∀ (mbox : Fin 4) (s : State) (r : KskReq) (rest : List KskReq) (q : State × List Byte) (s1 : State) (body : List Byte) (s2 s3 :
      State), s.pageUp Page.MGC = true → (s.box mbox.val).req = r :: rest → s.kskNext = some mbox.val → alGet (s.box
      mbox.val).kept (kskSeq r.msg) = none → s.kskTurned mbox.val r.msg = none → kskOp r.msg = 32 → q = ((s.setBox mbox.val
      { s.box mbox.val with req := rest }).kskPass mbox.val).takeFrag mbox.val (kskSeq r.msg) → s1 = q.1 → body = q.2 ++ kskBodyOf r.msg → bit
      (kskFlags r.msg) 2 = false → body.length % 4 = 0 → s2 =
      { s1 with mgmt := { s1.mgmt with repairs := s1.mgmt.repairs ++ wordsIn body, putLeft := s1.mgmt.putLeft ++ wordsIn body, putSeen := true } }
      → s3 = (if ((wordsIn body).isEmpty && s2.kskState == 1) = true then s2.kskReady
      else s2.repairGo) → exec (.repairPut mbox) s = .next (s3.kskReply mbox.val r (kskMajor r.msg) (leBytes 4 0 ++
      []))) ∧
  (∀ (mbox : Fin 4) (s : State) (r : KskReq) (rest : List KskReq) (q : State × List Byte) (s1 : State) (body : List Byte),
      s.pageUp Page.MGC = true → (s.box mbox.val).req = r :: rest → s.kskNext = some mbox.val → alGet (s.box mbox.val).kept
      (kskSeq r.msg) = none → s.kskTurned mbox.val r.msg = none → kskOp r.msg = 33 → q = ((s.setBox mbox.val
      { s.box mbox.val with req := rest }).kskPass mbox.val).takeFrag mbox.val (kskSeq r.msg) → s1 = q.1 → body = q.2 ++ kskBodyOf r.msg → bit
      (kskFlags r.msg) 2 = false → exec (.repairGet mbox) s = .next (s1.kskReply mbox.val r (kskMajor r.msg) (leBytes 4 0 ++
      openBody 0x21 s1.mgmt.repairs))) ∧
  (∀ (mbox : Fin 4) (s : State) (r : KskReq) (rest : List KskReq) (q : State × List Byte) (s1 : State) (body : List Byte),
      s.pageUp Page.MGC = true → (s.box mbox.val).req = r :: rest → s.kskNext = some mbox.val → alGet (s.box mbox.val).kept
      (kskSeq r.msg) = none → s.kskTurned mbox.val r.msg = none → kskOp r.msg = 48 → q = ((s.setBox mbox.val
      { s.box mbox.val with req := rest }).kskPass mbox.val).takeFrag mbox.val (kskSeq r.msg) → s1 = q.1 → body = q.2 ++ kskBodyOf r.msg → bit
      (kskFlags r.msg) 2 = false → exec (.ageingGet mbox) s = .next (s1.kskReply mbox.val r (kskMajor r.msg) (leBytes 4 0 ++
      openBody 0x30 ([s1.mgmt.age.guard, s1.mgmt.age.slow] ++ s1.mgmt.age.fail64 ++ s1.mgmt.age.fail32)))) ∧
  (∀ (mbox : Fin 4) (ro : List (BitVec 24)) (s : State) (r : KskReq) (rest : List KskReq) (q : State × List Byte) (s1 : State)
      (body : List Byte), s.pageUp Page.MGC = true → (s.box mbox.val).req = r :: rest → s.kskNext = some mbox.val → alGet
      (s.box mbox.val).kept (kskSeq r.msg) = none → s.kskTurned mbox.val r.msg = none → kskOp r.msg = 49 → q = ((s.setBox mbox.val
      { s.box mbox.val with req := rest }).kskPass mbox.val).takeFrag mbox.val (kskSeq r.msg) → s1 = q.1 → body = q.2 ++ kskBodyOf r.msg
      → bit (kskFlags r.msg) 2 = false → s1.mgmt.replan = none → s1.coreState 2 = 1 → exec (.replan mbox ro) s = .next
      ((s1.replanStart (ro.map (·.toNat))).kskReply mbox.val r (kskMajor r.msg) (leBytes 4 7 ++ []))) ∧
  (∀ (mbox : Fin 4) (s : State) (r : KskReq) (rest : List KskReq) (q : State × List Byte) (s1 : State) (body : List Byte),
      s.pageUp Page.MGC = true → (s.box mbox.val).req = r :: rest → s.kskNext = some mbox.val → alGet (s.box mbox.val).kept
      (kskSeq r.msg) = none → s.kskTurned mbox.val r.msg = none → kskOp r.msg = 64 → q = ((s.setBox mbox.val
      { s.box mbox.val with req := rest }).kskPass mbox.val).takeFrag mbox.val (kskSeq r.msg) → s1 = q.1 → body = q.2 ++ kskBodyOf r.msg → bit
      (kskFlags r.msg) 2 = false → s1.fwRuns = true → exec (.fwStage mbox) s = .next ((s1.stage body).1.kskReply mbox.val r
      (kskMajor r.msg) (leBytes 4 (s1.stage body).2 ++ []))) ∧
  (∀ (mbox : Fin 4) (s : State) (r : KskReq) (rest : List KskReq) (q : State × List Byte) (s1 : State) (body : List Byte),
      s.pageUp Page.MGC = true → (s.box mbox.val).req = r :: rest → s.kskNext = some mbox.val → alGet (s.box mbox.val).kept
      (kskSeq r.msg) = none → s.kskTurned mbox.val r.msg = none → kskOp r.msg = 65 → q = ((s.setBox mbox.val
      { s.box mbox.val with req := rest }).kskPass mbox.val).takeFrag mbox.val (kskSeq r.msg) → s1 = q.1 → body = q.2 ++ kskBodyOf r.msg → bit
      (kskFlags r.msg) 2 = false → body.isEmpty = false → exec (.fwActivate mbox) s = .next ((s1.activate (fieldLE body 0 1)
      (kskMajor r.msg)).1.kskReply mbox.val r (kskMajor r.msg) (leBytes 4 (s1.activate (fieldLE body 0 1) (kskMajor r.msg)).2 ++
      []))) ∧
  (∀ (mbox : Fin 4) (s : State) (r : KskReq) (rest : List KskReq) (q : State × List Byte) (s1 : State) (body : List Byte),
      s.pageUp Page.MGC = true → (s.box mbox.val).req = r :: rest → s.kskNext = some mbox.val → alGet (s.box mbox.val).kept
      (kskSeq r.msg) = none → s.kskTurned mbox.val r.msg = none → kskOp r.msg = 66 → q = ((s.setBox mbox.val
      { s.box mbox.val with req := rest }).kskPass mbox.val).takeFrag mbox.val (kskSeq r.msg) → s1 = q.1 → body = q.2 ++ kskBodyOf r.msg → bit
      (kskFlags r.msg) 2 = false → body.isEmpty = false → exec (.fwRevert mbox) s = .next ((s1.fwRevert (fieldLE body 0
      1)).1.kskReply mbox.val r (kskMajor r.msg) (leBytes 4 (s1.fwRevert (fieldLE body 0 1)).2 ++ []))) ∧
  (∀ (s : State) (b : Nat), s.kskNext = some b → s.kskServed b = true ∧ (s.box b).req ≠ []) ∧
  (∀ (mbox : Fin 4) (s : State) (r : KskReq) (rest : List KskReq) (k : List Byte), s.pageUp Page.MGC = true → (s.box mbox.val).req = r ::
      rest → s.kskNext = some mbox.val → alGet (s.box mbox.val).kept (kskSeq r.msg) = some k → exec (.kioskHello mbox) s = .next
      (((s.setBox mbox.val { s.box mbox.val with req := rest }).kskPass mbox.val).kskOut mbox.val r.src k))

/-- What staging, activating and reverting a segment do. (R423, R424) -/
def Obligations.FirmwareStagesActivatesAndReverts : Prop :=
  (∀ (s : State) (c m : Nat), s.activateRefused c m = true → s.activate c m = (s, 5)) ∧
  (∀ (s : State) (c m : Nat), s.activateRefused c m = false → s.activate c m = (({ s with mgmt := { s.mgmt with act := some c } }
      : State).set1 F.MGC_STAT_ACTIVATING, 7)) ∧
  (∀ (s : State) (c m : Nat), s.flag F.MGC_STAT_STAGED = false → s.activateRefused c m = true) ∧
  (∀ (s : State) (c : Nat) (x : Swap), s.mgmt.act = none → s.mgmt.swap = some x → x.core = c → s.fwRevert c = (s.revertCore c, 0)) ∧
  (∀ (s : State) (c : Nat), s.mgmt.act = none → s.mgmt.swap = none → s.fwRevert c = (s, 5)) ∧
  (∀ (s : State) (c : Nat), s.mgmt.act.isSome = true → s.fwRevert c = (s, 4)) ∧
  (∀ (s : State) (bs : List Byte), (s.mgmt.act.isSome = true ∨ s.flag F.MGC_STAT_ACTIVATING = true) → s.stage bs = (s, 4)) ∧
  (∀ (s : State) (bs : List Byte), s.mgmt.act = none → s.flag F.MGC_STAT_ACTIVATING = false → (bs.length < 64 ∨ 65536 < bs.length)
      → s.stage bs = (s, 3))

/-- A sideband control request is answered, and a vendor-defined message goes to its Kiosk; bytes of MCTP come from its published
standard, log entry 43, and which request a reply belongs to is the model’s reading, log entry 81. (R430, R431) -/
def Obligations.SidebandRequestsAreAnswered : Prop :=
  (∀ (pkts : List (List (BitVec 8))) (s : State) (m : MctpMsg) (d : List Byte), s.pageUp Page.MGC = true → s.isMgr = true →
      s.fwRuns = true → s.kskState ≠ 0 → mctpJoin (s.fget F.MGC_MCTP_EID_EID) pkts = some m → fieldLE m.body 0 1 = 0 → 3 ≤
      m.body.length → bit (fieldLE m.body 1 1) 7 = true → fieldLE m.body 2 1 = 1 → d = m.body.drop 3 → d.length = 2 → fieldLE d
      0 1 % 4 < 2 → fieldLE d 1 1 ≠ 0 → fieldLE d 1 1 ≠ 0xFF → exec (.setEndpointId pkts) s = .next
      ((({ s with mgmt := { s.mgmt with tray := m.src } } : State).fset F.MGC_MCTP_EID_EID 0 (fieldLE d 1 1)).sbSend m.src m.tag
      false (leBytes 1 0 ++ leBytes 1 (fieldLE m.body 1 1 % 32) ++ leBytes 1 1 ++ (leBytes 2 0 ++ leBytes 1 (fieldLE d 1 1) ++
      leBytes 1 0)))) ∧
  (∀ (pkts : List (List (BitVec 8))) (s : State) (m : MctpMsg) (d : List Byte), s.pageUp Page.MGC = true → s.isMgr = true →
      s.fwRuns = true → s.kskState ≠ 0 → mctpJoin (s.fget F.MGC_MCTP_EID_EID) pkts = some m → fieldLE m.body 0 1 = 0 → 3 ≤
      m.body.length → bit (fieldLE m.body 1 1) 7 = true → fieldLE m.body 2 1 = 1 → d = m.body.drop 3 → d.length ≠ 2 → exec
      (.setEndpointId pkts) s = .next (s.sbSend m.src m.tag false (leBytes 1 0 ++ leBytes 1 (fieldLE m.body 1 1 % 32) ++ leBytes
      1 1 ++ leBytes 1 3))) ∧
  (∀ (pkts : List (List (BitVec 8))) (s : State) (m : MctpMsg) (d : List Byte), s.pageUp Page.MGC = true → s.isMgr = true →
      s.fwRuns = true → s.kskState ≠ 0 → mctpJoin (s.fget F.MGC_MCTP_EID_EID) pkts = some m → fieldLE m.body 0 1 = 0 → 3 ≤
      m.body.length → bit (fieldLE m.body 1 1) 7 = true → fieldLE m.body 2 1 = 2 → d = m.body.drop 3 → exec (.getEndpointId
      pkts) s = .next (s.sbSend m.src m.tag false (leBytes 1 0 ++ leBytes 1 (fieldLE m.body 1 1 % 32) ++ leBytes 1 2 ++ (leBytes
      1 0 ++ leBytes 1 (s.fget F.MGC_MCTP_EID_EID) ++ leBytes 2 0)))) ∧
  (∀ (pkts : List (List (BitVec 8))) (s : State) (m : MctpMsg) (d : List Byte), s.pageUp Page.MGC = true → s.isMgr = true →
      s.fwRuns = true → s.kskState ≠ 0 → mctpJoin (s.fget F.MGC_MCTP_EID_EID) pkts = some m → fieldLE m.body 0 1 = 0 → 3 ≤
      m.body.length → bit (fieldLE m.body 1 1) 7 = true → fieldLE m.body 2 1 = 3 → d = m.body.drop 3 → exec (.getEndpointUuid
      pkts) s = .next (s.sbSend m.src m.tag false (leBytes 1 0 ++ leBytes 1 (fieldLE m.body 1 1 % 32) ++ leBytes 1 3 ++ (leBytes
      1 0 ++ (List.range 16).map Config.endpointUuid)))) ∧
  (∀ (pkts : List (List (BitVec 8))) (s : State) (m : MctpMsg) (d : List Byte), s.pageUp Page.MGC = true → s.isMgr = true →
      s.fwRuns = true → s.kskState ≠ 0 → mctpJoin (s.fget F.MGC_MCTP_EID_EID) pkts = some m → fieldLE m.body 0 1 = 0 → 3 ≤
      m.body.length → bit (fieldLE m.body 1 1) 7 = true → fieldLE m.body 2 1 = 4 → d = m.body.drop 3 → d.length = 1 → [0xFF,
      0x00, 0x7F].contains (fieldLE d 0 1) = true → exec (.getMctpVersionSupport pkts) s = .next (s.sbSend m.src m.tag false
      (leBytes 1 0 ++ leBytes 1 (fieldLE m.body 1 1 % 32) ++ leBytes 1 4 ++ (leBytes 1 0 ++ leBytes 1 1 ++ beBytes4
      0xF1F3FF00)))) ∧
  (∀ (pkts : List (List (BitVec 8))) (s : State) (m : MctpMsg) (d : List Byte), s.pageUp Page.MGC = true → s.isMgr = true →
      s.fwRuns = true → s.kskState ≠ 0 → mctpJoin (s.fget F.MGC_MCTP_EID_EID) pkts = some m → fieldLE m.body 0 1 = 0 → 3 ≤
      m.body.length → bit (fieldLE m.body 1 1) 7 = true → fieldLE m.body 2 1 = 5 → d = m.body.drop 3 → exec
      (.getMessageTypeSupport pkts) s = .next (s.sbSend m.src m.tag false (leBytes 1 0 ++ leBytes 1 (fieldLE m.body 1 1 % 32) ++
      leBytes 1 5 ++ (leBytes 1 0 ++ leBytes 1 1 ++ leBytes 1 0x7F)))) ∧
  (∀ (pkts : List (List (BitVec 8))) (s : State) (m : MctpMsg) (d : List Byte), s.pageUp Page.MGC = true → s.isMgr = true →
      s.fwRuns = true → s.kskState ≠ 0 → mctpJoin (s.fget F.MGC_MCTP_EID_EID) pkts = some m → fieldLE m.body 0 1 = 0 → 3 ≤
      m.body.length → bit (fieldLE m.body 1 1) 7 = true → fieldLE m.body 2 1 = 6 → d = m.body.drop 3 → d.length = 1 → fieldLE d
      0 1 = 0 → exec (.getVendorDefinedMsgSupport pkts) s = .next (s.sbSend m.src m.tag false (leBytes 1 0 ++ leBytes 1 (fieldLE
      m.body 1 1 % 32) ++ leBytes 1 6 ++ (leBytes 1 0 ++ leBytes 1 0xFF ++ leBytes 1 1 ++ beBytes4 (s.rd R.MGC_MCTP_IANA) ++
      leBytes 2 0)))) ∧
  (∀ (pkts : List (List (BitVec 8))) (s : State) (m : MctpMsg), s.pageUp Page.MGC = true → s.isMgr = true → s.fwRuns = true →
      s.kskState ≠ 0 → mctpJoin (s.fget F.MGC_MCTP_EID_EID) pkts = some m → fieldLE m.body 0 1 = 0x7F → s.fget
      F.MGC_MCTP_EID_EID ≠ 0 → fieldLE ((m.body.drop 1).take 4).reverse 0 4 = s.rd R.MGC_MCTP_IANA → 6 ≤ m.body.length → exec
      (.vendorDefinedMessage pkts) s = .next (s.vendorIn m.src m.tag (fieldLE m.body 5 1) (m.body.drop 6))) ∧
  (∀ (s : State) (src tag inst : Nat) (k : List Byte), inst = s.ownInst → s.vendorIn src tag inst k = s.kskIn 1 (.sideband src
      tag) k) ∧
  (∀ (s : State) (src tag inst : Nat) (k : List Byte), inst ≠ s.ownInst → (s.tick.checks.any fun c => c.1 == inst) = true → s.vendorIn
      src tag inst k = (s.forward src tag inst k).relaySend inst 1 k) ∧
  (∀ (s : State) (src tag inst : Nat) (k : List Byte), inst ≠ s.ownInst → (s.tick.checks.any fun c => c.1 == inst) = false → kskOk k =
      true → s.vendorIn src tag inst k = s.sbKiosk src tag false inst (kskMsg (kskMajor k) (kskOp k) (kskSeq k) 1 (leBytes 4 6)))

/-- The test gate opens with an erase or is refused, and tower test access works behind it; the bit that the bypass register
captures is presumed, log entry 97. (R244, R432, R433, R464) -/
def Obligations.GateAndTestAccess : Prop :=
  (∀ (path : Path) (s : State) (s1 : State), s1 = s.authorise false → s1.pathMay path R.TSG_CMD
      = true → s1.pageUp Page.TSG = true → exec (.openGate (some path) false) s = .next ((((s1.bump
      F.TSG_REFUSED_CNT_COUNT).set1 F.TSG_STAT_REFUSED).irq Page.TSG 0).logErr { block := Page.TSG, code := 0x0910, sev := 0 })) ∧
  (∀ (path : Path) (s : State) (s1 : State), s1 = s.authorise true → s1.pathMay path R.TSG_CMD
      = true → s1.pageUp Page.TSG = true → (s1.fget F.TSG_STAT_STATE = 0 ∨ s1.fget F.TSG_STAT_STATE = 5) → exec (.openGate (some
      path) true) s = .next s1.gateBegin) ∧
  (∀ (s : State) (level : Bool), s.authorise level =
      { s with pwr := { s.pwr with authorised := level, fell := s.pwr.fell || (s.fget F.TSG_STAT_STATE == 3 && !level) } }) ∧
  (∀ (s : State) (s1 : State), s1 = ({ s.authorise true with pwr := { (s.authorise true).pwr with wso := [], wdr := [] } } : State).fset
      F.TSG_WIR_INSTR 0 2 → s1.pageUp Page.TSG = true → (s1.fget F.TSG_STAT_STATE = 0 ∨ s1.fget F.TSG_STAT_STATE = 5) → exec
      (.openGate none true) s = .next s1.gateBegin) ∧
  (∀ (s : State), s.gateBegin =
      (let s1 := (((s.gateRevert).set1 F.FBP_STAT_GATE_OPENED).set1 F.TSG_STAT_OPENED).irq Page.TSG 1
       let s2 := (s1.resetAll).logErr { block := Page.TSG, code := 0x0911, sev := 1 }
       (({ s2 with pwr := { s2.pwr with fell := false } } : State).eraseKeys.eraseSram).fset F.TSG_STAT_STATE 0 3)) ∧
  (∀ (auth : Bool) (us : BitVec 16) (s : State) (s1 : State), s.run = .running → s.fget F.TSG_STAT_STATE = 3 →
      s1 = { s with pwr := { s.pwr with authorised := auth, fell := s.pwr.fell || !auth } } → exec (.gateEraseDone auth us) s =
      .next (((s1.eraseTower).fset F.TSG_ERASE_US_US 0 us.toNat).fset F.TSG_STAT_STATE 0 (if s.pwr.fell = false ∧ auth = true then 4 else
      5))) ∧
  (∀ (s : State), exec .wsBypass s = .next (s.wir 0x00 [])) ∧
  (∀ (s : State), exec .wsIdcode s = .next (s.wir 0x01 (leBytes 4 (s.rd R.IDN_IPVER)))) ∧
  (∀ (s : State), exec .wsExtest s = .next (s.wir 0x10 [])) ∧
  (∀ (s : State), exec .wsIntestScan s = .next (s.wir 0x11 [])) ∧
  (∀ (s : State) (i : Nat) (out : List Byte), (i ≤ 2 ∨ s.fget F.TSG_STAT_STATE = 4) → s.wir i out =
      (let t := s.fset F.TSG_WIR_INSTR 0 i
       { t with pwr := { t.pwr with wso := out, wdr := if i = 0 then [false] else if i = 1 then (List.range 32).map (fun k => bit (s.rd R.IDN_IPVER) k) else [] } })) ∧
  (∀ (s : State) (i : Nat) (out : List Byte), 2 < i → s.fget F.TSG_STAT_STATE ≠ 4 → s.wir i out =
      (let t := s.fset F.TSG_WIR_INSTR 0 0
       { t with pwr := { t.pwr with wso := [], wdr := [false] } })) ∧
  (∀ (bank : Fin 512) (cmds : List TowerCmd) (s : State) (s1 : State), s1 = s.wir 0x12 [] → s1.fget F.TSG_STAT_STATE = 4 → s1.run
      = .running → s1.tower.selfRefresh = false → exec (.towerAccess bank cmds) s = .next (cmds.foldl (fun (x : State) c =>
      x.rawCmd bank c) s1))

/-- Power-on, resets and starts: what stands, what goes, and where a start that fails stops. (R439, R485, R488, R493) -/
def Obligations.ColdAndWarmStarts : Prop :=
  (∀ (s : State), exec .powerOn s = .next { State.reset with freeCtr := s.freeCtr, pending := s.pending }) ∧
  (∀ (s : State), exec .coldReset s = .next (s.toCold coldMask)) ∧
  (∀ (mgr : Bool) (inst : BitVec 4) (refdly : BitVec 8) (inp : StartIn) (s : State), s.run = .heldCold → exec (.coldStart mgr inst
      refdly inp) s = .next ((s.wr R.IDN_STRAP 0 (mgr.toNat + 16 * inst.toNat + 256 * refdly.toNat)).coldSteps inp false)) ∧
  (∀ (s : State) (i : StartIn) (f : Bool) (b : Nat), baseOf i.windows = some b → i.fail = none → i.extOk = true → deadRow i.tests
      = false → (s.coldSteps i f).run = .running) ∧
  (∀ (s : State) (i : StartIn) (f : Bool), baseOf i.windows = none → (s.coldSteps i f).run = .stopped false 1) ∧
  (∀ (s : State) (s1 : State), (s.run = .running ∨ s.run = .fallback) → s.coldPending = false → s1 = (if s.fget F.CRG_STAT_PHASE =
      15 then s else s.warmFailed) → exec .warmReset s = .next ((s1.noteUndrained.toWarm.set1 F.TWC_FILL_STAT_SELFREF).fset
      F.CRG_START_STAT_FALLBACK_PRIOR 0 (s.run == .fallback).toNat)) ∧
  (∀ (inp : StartIn) (s : State), s.run = .heldWarm → s.fget F.CRG_WARM_FAIL_COUNT ≠ 3 → exec (.warmStart inp) s = .next
      (s.warmSteps inp)) ∧
  (∀ (inp : StartIn) (s : State), s.run = .heldWarm → s.fget F.CRG_WARM_FAIL_COUNT = 3 → exec (.warmStart inp) s = .next
      ((s.toCold (forcedMask (s.locked Page.FBP))).coldSteps inp true)) ∧
  (∀ (s : State), (s.run = .running ∨ s.run = .fallback) → s.fget F.CRG_STAT_PHASE ≠ 15 → exec .startLimit s = .next s.warmFailed) ∧
  (∀ (s : State), s.fget F.CRG_START_STAT_KIND = 1 → s.pwr.failed = false → s.warmFailed =
      ({ s with pwr := { s.pwr with failed := true } } : State).bumpSat F.CRG_WARM_FAIL_COUNT)

/-- The clock monitor, a lost PLL, and the power modes. (R478, R479, R482, R483, R484) -/
def Obligations.ClocksMonitorsAndPowerModes : Prop :=
  (∀ (count : BitVec 12) (s : State), (s.run = .running ∨ s.run = .fallback) → exec (.monitorWindow count) s = .next (s.window
      count.toNat)) ∧
  (∀ (s : State) (n : Nat), s.pwr.recal = true → 1680 ≤ n → n ≤ 2600 → s.window n =
      (let s1 := s.fset F.CRG_MON_CNT_COUNT 0 n
       (({ s1 with pwr := { s1.pwr with recal := false, outs := 0 } } : State).fset F.CRG_MON_BASE_COUNT 0 n).set0 F.CRG_STAT_MON_OUT)) ∧
  (∀ (pll : Fin 3) (s : State), s.run = .running → bit (s.fget F.CRG_STAT_LOCKED) pll.val = true → exec (.pllLockLoss pll) s =
      .next ((s.fset F.CRG_STAT_LOCKED 0 (setBit (s.fget F.CRG_STAT_LOCKED) pll.val false)).fallBack 0x0A11)) ∧
  (∀ (s : State) (c : Nat), s.fallBack c =
      (let s1 := s.noteUndrained.enterSelfRef
       let s2 : State := { s1 with run := .fallback, coding := { s1.coding with stalled := [], fullWait := [] }, host := ⟨[], []⟩ }
       ((s2.set1 F.CRG_STAT_FALLBACK).logErr { block := Page.CRG, code := c, sev := 2 }).irq Page.CRG 0)) ∧
  (∀ (path : Path) (value : Word) (s : State) (s1 : State), s.pathMay path R.CRG_MON_CFG = true → s.pageUp Page.CRG = true → s1 =
      s.fset F.CRG_MON_CFG_TOL 0 (clamp 4 64 (bits value.toNat 0 8)) → exec (.recal path value) s = .next (if bit value.toNat 8
      = true then { s1 with pwr := { s1.pwr with recal := true } } else s1)) ∧
  (∀ (path : Path) (s : State) (s1 : State), s.pathMay path R.CRG_PWR_MODE = true → s.pageUp Page.CRG = true → s1 = s.fset
      F.CRG_PWR_MODE_REQ 0 0 → s1.notReady = false → exec (.runMode path) s = .next s1.wake) ∧
  (∀ (path : Path) (s : State) (s1 : State), s.pathMay path R.CRG_PWR_MODE = true → s.pageUp Page.CRG = true → s1 = s.fset
      F.CRG_PWR_MODE_REQ 0 1 → s.sleepReason = 0 → s1.notReady = false → exec (.sleepMode path) s = .next s1.goSleep) ∧
  (∀ (path : Path) (s : State) (s1 : State), s.pathMay path R.CRG_PWR_MODE = true → s.pageUp Page.CRG = true → s1 = s.fset
      F.CRG_PWR_MODE_REQ 0 2 → s.deepReason = 0 → s1.notReady = false → exec (.deepSleep path) s = .next s1.goDeep) ∧
  (∀ (s : State) (req r : Nat) (f : State → State), r ≠ 0 → s.modeWrite req r f = ((s.fset F.CRG_PWR_MODE_REQ 0 req).fset
      F.CRG_PWR_MODE_REASON 0 r).irq Page.CRG 1) ∧
  (∀ (s : State), s.goDeep =
      (let s1 := (s.enterSelfRef).setPlanRef []
       let s2 : State := { s1 with pwr := { s1.pwr with mode := none } }
       ((s2.fset F.CRG_STAT_LOCKED 0 (s2.fget F.CRG_STAT_LOCKED &&& 2)).fset F.CRG_STAT_MODE 0 2).irq Page.CRG 2))

/-- LOCK, interrupt set, counter clear, the two marks, writes of the common head of a page, and accesses to reserved pages; that
the port’s error signal is kept after the access is the model’s choice, log entry 107. (R94, R384, R455, R499, R500, R501, R502,
R505) -/
def Obligations.RegisterCommandsOfEveryPage : Prop :=
  (∀ (path : Path) (page : BitVec 5) (s : State) (a : Nat), a = lockOff page.toNat → s.pathMay path a = true → s.takesWrite
      page.toNat 0x030 = true → exec (.lockPage path page) s = .next ((s.wr a 0 1).portEnds path page.toNat)) ∧
  (∀ (path : Path) (page : BitVec 5) (value : Word) (s : State) (a : Nat), a = irqStatOff page.toNat → s.pathMay path (a + 8) =
      true → s.takesWrite page.toNat 0x018 = true → exec (.irqSet path page value) s = .next ((s.wr a 0 (s.rd a ||| (value.toNat
      &&& irqMask page.toNat))).portEnds path page.toNat)) ∧
  (∀ (path : Path) (page : BitVec 5) (s : State), s.pathMay path (page.toNat * 0x1000 + 0x008) = true → s.takesWrite page.toNat
      0x008 = true → exec (.clrCnt path page) s = .next ((s.clearCounters page.toNat).portEnds path page.toNat)) ∧
  (∀ (path : Path) (s : State), s.pathMay path R.CDJ_HWM = true → s.Up Page.CDJ → exec (.cdjHwmWrite path) s = .next (s.fset
      F.CDJ_HWM_ENTRIES 0 s.coding.open_.length)) ∧
  (∀ (path : Path) (s : State), s.pathMay path R.ARB_C1_MAX = true → s.Up Page.ARB → exec (.arbC1MaxWrite path) s = .next (s.wr
      R.ARB_C1_MAX 0 0)) ∧
  (∀ (path : Path) (off : BitVec 17) (value : Word) (s : State) (a : Nat), a = off.toNat / 4 * 4 → s.pathMay path a = true →
      s.takesWrite (a / 0x1000) (a % 0x1000) = true → a % 0x1000 < 0x100 → exec (.registerWrite path off value) s = .next
      ((s.headWrite (a / 0x1000) (a % 0x1000) value.toNat).portEnds path (a / 0x1000))) ∧
  (∀ (s : State) (page v : Nat), s.headWrite page 0x010 v = s.wr (page * 0x1000 + 0x010) 0 (s.rd (page * 0x1000 + 0x010) &&& (2 ^
      32 - 1 - v))) ∧
  (∀ (s : State) (page v : Nat), s.headWrite page 0x014 v = s.wr (page * 0x1000 + 0x014) 0 (v &&& irqMask page)) ∧
  (∀ (s : State) (page v : Nat), s.headWrite page 0x01C v = s.wr (page * 0x1000 + 0x01C) 0 0) ∧
  (∀ (s : State) (page v : Nat), bit v 3 = true → s.headWrite page 0x00C v = s.wr (page * 0x1000 + 0x00C) 0 (setBit (s.rd (page *
      0x1000 + 0x00C)) 3 false)) ∧
  (∀ (s : State) (page o v : Nat), o < 0x0C → s.headWrite page o v = s) ∧
  (∀ (off : BitVec 17) (value : Word) (s : State), s.portUp = true → 0x1D000 ≤ off.toNat → exec (.registerWrite .port off value) s =
      .next { s with regErr := true }) ∧
  (∀ (off : BitVec 17) (s : State), s.run = .running → 0x1D000 ≤ off.toNat → exec (.latchedRead .port off) s =
      .next { s with rdata := 0, regErr := true })

/-- A write to an ordinary register of a page writes its fields; a locked one is rejected; a core may write only its own. (R412,
R499, R500, R501, R502) -/
def Obligations.RegisterWritesOfThePages : Prop :=
  (∀ (path : Path) (off : BitVec 17) (value : Word) (s : State) (a : Nat), a = off.toNat / 4 * 4 → s.pathMay path a = true →
      s.takesWrite (a / 0x1000) (a % 0x1000) = true → 0x100 ≤ a % 0x1000 → exec (.registerWrite path off value) s = .next
      ((s.plainWrite path a value.toNat).portEnds path (a / 0x1000))) ∧
  (∀ (s : State) (path : Path) (off v item : Nat), item = s.regItem path off → ownRegs.contains off = false → s.stageTime off v =
      none → s.locked (off / 0x1000) = false → s.dropsWrite path off item v = false → slotConfig.contains off = false → off ≠
      R.PGM_MAP_BASE → off ≠ R.ERU_STAT → s.plainWrite path off v = ((s.accWrite off item v).clampFields off item).afterWrite
      off item) ∧
  (∀ (s : State) (off item v : Nat), (regDefAt off).any RegDef.lockable = true → s.locked (off / 0x1000) = true → s.accWrite off
      item v = s.wr (off / 0x1000 * 0x1000 + 0x00C) 0 (setBit (s.rd (off / 0x1000 * 0x1000 + 0x00C)) 3 true)) ∧
  (∀ (s : State) (off item v : Nat) (d : RegDef), regDefAt off = some d → s.locked (off / 0x1000) = false → s.accWrite off item v
      = s.wr off item (d.flds.foldl (fun w f => f.write w v) (s.rd off item))) ∧
  (∀ (s : State) (c : Fin 4) (off : Nat) (f : State → Host.Outcome State Fault Refusal), s.pageUp Page.MGC = true → s.fget
      F.MGC_CORE_STAT_STATE c = 1 → coreMay c off = false → fromPath (.core c) off s f = .next (s.bumpSat
      F.MGC_CORE_STAT_FOREIGN_WR c)) ∧
  (∀ (s : State) (c : Fin 4) (off : Nat) (f : State → Host.Outcome State Fault Refusal), s.fget F.MGC_CORE_STAT_STATE c ≠ 1 →
      fromPath (.core c) off s f = .next s)

/-- A beat taken from a response channel, and Kiosk messages from another node; of a reply’s body the majors alone are read, log
entry 41. (R414, R417, R425, R446) -/
def Obligations.AnswersTakenByTheHostAndPeers : Prop :=
  (∀ (ch : Fin 4) (lat : Option Nat) (s : State), s.run = .running → (s.host.rsp.any fun r => r.ch == ch.val) = true → exec
      (.rspReady ch lat) s = .next (match lat with | some ns => (s.c1Latency ns).takeBeat ch.val | none => s.takeBeat ch.val)) ∧
  (∀ (s : State) (ch i : Nat) (r : HostRsp) (b : HostBeat), s.host.rsp.findIdx? (fun r => r.ch == ch) = some i → s.host.rsp[i]? =
      some r → r.beats = [b] → s.takeBeat ch = { s.active 2 1 with host := ⟨s.host.rsp.eraseIdx i, s.host.busy.erase (ch * 4096 + r.tag)⟩ }) ∧
  (∀ (s : State) (ch i : Nat) (r : HostRsp) (a b : HostBeat) (l : List HostBeat), s.host.rsp.findIdx? (fun r => r.ch == ch) = some
      i → s.host.rsp[i]? = some r → r.beats = a :: b :: l → s.takeBeat ch = { s.active 2 1 with host := { s.host with rsp := modifyAt (fun _ => { r with beats := b :: l }) i s.host.rsp } }) ∧
  (∀ (hdr payload : List Byte) (s : State) (t : Txn) (s1 : State) (m : List Byte), s.Up Page.FBP → t = Txn.ofHeader hdr payload
      → s.rxCredits t.vc t.resp ≠ 0 → s1 = s.received t.vc t.resp (hdr ++ payload) → hdr.length = 32 → crcOk hdr 28 = true → t.typ = 5 →
      t.dst = s1.fget F.FBP_NODE_NODE → t.dst ≤ 262143 → t.src ≤ 262143 → t.vc = 0 → m = t.payload.take (16 + fieldLE t.payload
      8 2) → t.resp = true → kskOk m = true → kskOp m = 1 → fieldLE m 16 4 = 0 → s1.fwRuns = true → exec (.kioskReply hdr payload) s = .next
      { s1 with mgmt := { s1.mgmt with peers := alPut s1.mgmt.peers t.src (fieldLE m 20 1, fieldLE m 21 1) } }) ∧
  (∀ (hdr payload : List Byte) (s : State) (t : Txn) (s1 : State) (m : List Byte), s.Up Page.FBP → t = Txn.ofHeader hdr payload
      → s.rxCredits t.vc t.resp ≠ 0 → s1 = s.received t.vc t.resp (hdr ++ payload) → hdr.length = 32 → crcOk hdr 28 = true → t.typ = 5 →
      t.dst = s1.fget F.FBP_NODE_NODE → t.dst ≤ 262143 → t.src ≤ 262143 → t.vc = 0 → m = t.payload.take (16 + fieldLE t.payload
      8 2) → t.resp = true → kskOk m = true → (kskOp m ≠ 1 ∨ fieldLE m 16 4 ≠ 0 ∨ s1.fwRuns = false) → exec (.kioskReply hdr payload) s = .next
      s1) ∧
  (∀ (hdr payload : List Byte) (s : State) (t : Txn) (s1 : State) (m : List Byte), s.Up Page.FBP → t = Txn.ofHeader hdr payload
      → s.rxCredits t.vc t.resp ≠ 0 → s1 = s.received t.vc t.resp (hdr ++ payload) → hdr.length = 32 → crcOk hdr 28 = true → t.typ = 5 →
      t.dst = s1.fget F.FBP_NODE_NODE → t.dst ≤ 262143 → t.src ≤ 262143 → t.vc = 0 → m = t.payload.take (16 + fieldLE t.payload
      8 2) → t.resp = true → kskOk m = false → exec (.kioskReply hdr payload) s = .next s1.kskBad) ∧
  (∀ (hdr payload : List Byte) (s : State) (t : Txn) (s1 : State) (m : List Byte), s.Up Page.FBP → t = Txn.ofHeader hdr payload
      → s.rxCredits t.vc t.resp ≠ 0 → s1 = s.received t.vc t.resp (hdr ++ payload) → hdr.length = 32 → crcOk hdr 28 = true → t.typ = 5 →
      t.dst = s1.fget F.FBP_NODE_NODE → t.dst ≤ 262143 → t.src ≤ 262143 → t.vc = 0 → m = t.payload.take (16 + fieldLE t.payload
      8 2) → t.resp = false → exec (.kioskReply hdr payload) s = .next (s1.kskIn 2 (.fabric t.src) m))

/-- A step runs the command at the front of the queue on the state with the rest of the queue. (R15) -/
def Obligations.StepRunsTheFrontCommand : Prop :=
  ∀ (c : Instr) (rest : List Instr) (s : State), step { s with pending := c :: rest } = exec c { s with pending := rest }

/-- On an empty queue a step changes nothing: the model’s choice, log entry 1. (R15) -/
def Obligations.AnEmptyQueueIdles : Prop :=
  ∀ (s : State), s.pending = [] → step s = .next s

/-- The row of a member’s logical block, and the block of a row’s symbol, are each other’s inverse. (R60) -/
def Obligations.BlocksLieWhereTheGeometrySays : Prop :=
  (∀ (n k p L : Nat), 0 < k → k ≤ n → p < n → (rowOfBlock n k p L : Int) = n * (L / k) + ((L % k : Int) - p) % n ∧ symOf n p
      (rowOfBlock n k p L) = L % k) ∧
  (∀ (n k q r : Nat), q < k → k ≤ n → (roleOfSym n q r : Int) = ((q : Int) - r) % n ∧ symOf n (roleOfSym n q r) r = q ∧ blockOfRow
      n k q r = k * (r / n) + q ∧ rowOfBlock n k (roleOfSym n q r) (blockOfRow n k q r) = r)

/-- The state after reset is in canonical form. (R387) -/
def Obligations.TheResetStateIsCanonical : Prop :=
  State.reset.Canon

/-- Every step keeps the canonical form of registers, memories and the record queue. (R387) -/
def Obligations.EveryStepKeepsTheCanonicalForm : Prop :=
  ∀ (s : State), s.Canon → s.SafeStep

/-- Every command answers a next state in every state. (R10) -/
def Obligations.EveryCommandAnswers : Prop :=
  ∀ (c : Instr) (s : State), ∃ t, exec c s = .next t

/-- Held in a cold reset, the engine takes nothing but resets, starts and the test wrapper. (R438, R439) -/
def Obligations.AHeldEngineTakesOnlyStarts : Prop :=
  ∀ (c : Instr) (s : State), s.run = .heldCold → (c = .coldReset ∨ (∃ a b d e, c = .coldStart a b d e) ∨ c = .powerOn ∨ (∃ a b, c
      = .openGate a b) ∨ c = .wsBypass ∨ c = .wsIdcode ∨ c = .wsExtest ∨ c = .wsIntestScan ∨ (∃ a b, c = .towerAccess a b) ∨ ∃
      l, exec c s = .next { s with ring := s.ring ++ l })

/-- A register reads back what was written, and every other one as before. (R500, R502) -/
def Obligations.RegistersReadWhatWasWritten : Prop :=
  (∀ (s : State) (off item v : Nat), s.Canon → (s.wr off item v).rd off item = v % 2 ^ 32) ∧
  (∀ (s : State) (off item off2 item2 v : Nat), regKey off2 item2 ≠ regKey off item → (s.wr off item v).rd off2 item2 = s.rd off2
      item2) ∧
  (∀ (s : State) (f : Fld) (item v : Nat), s.Canon → f.lo + f.width ≤ 32 → (s.fset f item v).fget f item = v % 2 ^ f.width) ∧
  (∀ (s : State) (f g : Fld) (item v : Nat), s.Canon → f.lo + f.width ≤ 32 → g.reg = f.reg → (g.lo + g.width ≤ f.lo ∨ f.lo +
      f.width ≤ g.lo) → (s.fset f item v).fget g item = s.fget g item) ∧
  (∀ (s : State) (off item v : Nat), ∃ r, s.wr off item v = { s with regs := r })

/-- A byte of a memory reads back what was written, and every byte outside reads as before. (R34, R509) -/
def Obligations.MemoriesReadWhatWasWritten : Prop :=
  (∀ (m : Mem) (a : Nat) (b : Byte), m.wf = true → (m.put a b).byte a = b) ∧
  (∀ (m : Mem) (a x : Nat) (b : Byte), x ≠ a → (m.put a b).byte x = m.byte x ∧ (m.putBad a b).byte x = m.byte x) ∧
  (∀ (m : Mem) (a x : Nat) (l : List Byte), (x < a ∨ a + l.length ≤ x) → (m.puts a l).byte x = m.byte x) ∧
  (∀ (m : Mem) (a : Nat) (l : List Byte), m.wf = true → (m.puts a l).bytes a l.length = l) ∧
  (∀ (path : Path) (w : Word) (s : State), s.pathMay path R.TCK_PLAN_DATA = true → s.Up Page.TCK → ∃ t, exec (.planDataAccess path
      (some w)) s = .next t ∧ ∀ a, a < (s.planWord path).2.2 ∨ (s.planWord path).2.2 + 4 ≤ a → t.t0.byte a = s.t0.byte a)

/-- An error record touches the error unit, the counters and registers; an event the counters; an interrupt registers. (R387,
R389, R404) -/
def Obligations.RecordsAndInterruptsTouchOnlyTheirState : Prop :=
  (∀ (s : State) (page b : Nat), ∃ r, s.irq page b = { s with regs := r }) ∧
  (∀ (s : State) (ev n : Nat) (part : Option Nat), ∃ r u, s.event ev part n = { s with regs := r, ctr := u }) ∧
  (∀ (s : State) (e : ErrIn), ∃ r u c, s.logErr e = { s with regs := r, eru := u, ctr := c }) ∧
  (∀ (s : State) (x : ErrRec), s.eru.queue.length < 32 → (s.enqueue x).eru.queue = s.eru.queue ++ [x]) ∧
  (∀ (s : State) (x : ErrRec), 32 ≤ s.eru.queue.length → s.enqueue x = ((s.bump F.ERU_LOST_COUNT).set1 F.ERU_STAT_OVERFLOW).irq
      Page.ERU 1)

/-- SEQUENCE starts at 1, increases by 1 for every record, and runs on across warm starts. (R388) -/
def Obligations.RecordsAreNumberedInSequence : Prop :=
  (∀ (s : State), State.reset.rd R.ERU_SEQ_NEXT = 1 ∧ (s.toCold coldMask).rd R.ERU_SEQ_NEXT = 1) ∧
  (∀ (s : State) (e : ErrIn), s.Canon → (s.logErr e).rd R.ERU_SEQ_NEXT = (s.rd R.ERU_SEQ_NEXT + 1) % 2 ^ 32) ∧
  (∀ (s : State) (e : ErrIn), s.eru.queue.length < 32 → ((s.logErr e).eru.queue.getLast?.map (·.seq)) = some (s.rd
      R.ERU_SEQ_NEXT)) ∧
  (∀ (s : State), s.Canon → (s.toWarm).rd R.ERU_SEQ_NEXT = s.rd R.ERU_SEQ_NEXT)

/-- After reset the registers hold the values the tables state, the memories are empty and nothing waits; that a byte never
written reads 0 is the model’s choice, log entry 6. (R29, R439, R494, R495, R496) -/
def Obligations.ResetLeavesTheStatedValues : Prop :=
  (State.reset.run = .heldCold ∧ State.reset.rd R.IDN_IPVER = 0x03010000 ∧ State.reset.rd R.IDN_GEOM = 768 + 512 * 2 ^ 10 + 8 * 2
      ^ 20 + 8 * 2 ^ 24 ∧ State.reset.rd R.IDN_FREQ0 = 1700 + 1200 * 2 ^ 16 ∧ State.reset.rd R.IDN_FREQ1 = 1600 + 800 * 2 ^ 16 ∧
      State.reset.rd R.IDN_FREQ2 = 600 + 200 * 2 ^ 16 ∧ State.reset.fget F.TCK_PERIOD_US = 100 ∧ State.reset.fget
      F.CRG_MON_CFG_TOL = 16 ∧ State.reset.fget F.CRG_START_LIMIT_MS = 1000 ∧ State.reset.fget F.CRG_PLLA_N = 34 ∧
      State.reset.fget F.CRG_PLLB_N = 48 ∧ State.reset.fget F.CRG_PLLC_N = 32 ∧ State.reset.fget F.CRG_STAT_PHASE = 0) ∧
  (∀ (p : Fin 8) (g : Fin 16), Part.state State.reset p.val = 0 ∧ Grp.state State.reset g.val = 0 ∧ (State.reset.planState
      p.val).inForce = none) ∧
  (State.reset.eru.queue = [] ∧ State.reset.fab.txq = [] ∧ State.reset.host.rsp = [] ∧ State.reset.ring = [] ∧ State.reset.mgmt.sb
      = [] ∧ State.reset.pending = []) ∧
  (∀ (a : Nat), State.reset.t0.byte a = 0 ∧ State.reset.tower.mem.byte a = 0 ∧ State.reset.ext.byte a = 0 ∧
      State.reset.mgmt.sram.byte a = 0)
end

