-- ==== Sys2Proof/Laws/Sparse.lean ====
section
/-! SUPPORT. Laws of the sparse maps: a read after a write, what a write leaves alone, and that every operation keeps the
canonical form. -/

namespace Sys2Proof.Machine

variable {β : Type}

/-! ### Reads after writes -/

theorem alGet_alPut_same (m : List (Nat × β)) (k : Nat) (v : β) : alGet (alPut m k v) k = some v := by
  induction m with
  | nil => simp [alPut, alGet]
  | cons p m ih =>
    obtain ⟨a, b⟩ := p
    unfold alPut
    split
    · simp [alGet]
    · split
      · simp [alGet]
      · have : a ≠ k := fun h => by omega
        simp [alGet, this, ih]

theorem alGet_alPut_other (m : List (Nat × β)) (k j : Nat) (v : β) (h : j ≠ k) : alGet (alPut m k v) j = alGet m j := by
  induction m with
  | nil => simp [alPut, alGet, h.symm]
  | cons p m ih =>
    obtain ⟨a, b⟩ := p
    unfold alPut
    split
    · simp [alGet, h.symm]
    · split
      · next h2 => subst h2; simp [alGet, h.symm]
      · simp only [alGet, ih]

theorem alGet_alDel_other (m : List (Nat × β)) (k j : Nat) (h : j ≠ k) : alGet (alDel m k) j = alGet m j := by
  induction m with
  | nil => rfl
  | cons p m ih =>
    obtain ⟨a, b⟩ := p
    unfold alDel
    split
    · next h2 => subst h2; simp [alGet, h.symm]
    · simp only [alGet, ih]

/-- Keys at or below the bound are not listed. -/
theorem alGet_of_rising (m : List (Nat × β)) (l k : Nat) (h : risingFrom (some l) m = true) (hk : k ≤ l) : alGet m k = none := by
  induction m generalizing l with
  | nil => rfl
  | cons p m ih =>
    obtain ⟨a, b⟩ := p
    simp only [risingFrom, Bool.and_eq_true, decide_eq_true_eq] at h
    have : a ≠ k := by omega
    simp [alGet, this, ih a h.2 (by omega)]

/-- A weaker bound. -/
theorem risingFrom_none (m : List (Nat × β)) (l : Nat) (h : risingFrom (some l) m = true) : risingFrom none m = true := by
  cases m with
  | nil => rfl
  | cons p m => simp only [risingFrom, Bool.and_eq_true] at h ⊢; exact h.2

theorem risingFrom_mono (m : List (Nat × β)) (k l : Nat) (h : risingFrom (some l) m = true) (hk : k ≤ l) :
    risingFrom (some k) m = true := by
  cases m with
  | nil => rfl
  | cons p m => simp only [risingFrom, Bool.and_eq_true, decide_eq_true_eq] at h ⊢; exact ⟨by omega, h.2⟩

theorem alGet_alDel_same (m : List (Nat × β)) (k : Nat) (h : risingFrom none m = true) : alGet (alDel m k) k = none := by
  induction m with
  | nil => rfl
  | cons p m ih =>
    obtain ⟨a, b⟩ := p
    simp only [risingFrom] at h
    unfold alDel
    split
    · next h2 => subst h2; exact alGet_of_rising m a a h (Nat.le_refl a)
    · next h2 => simp only [alGet, h2, if_false]; exact ih (risingFrom_none m a h)

/-! ### The canonical form -/

theorem risingFrom_alPut_some (m : List (Nat × β)) (l k : Nat) (v : β) (h : risingFrom (some l) m = true) (hk : l < k) :
    risingFrom (some l) (alPut m k v) = true := by
  induction m generalizing l with
  | nil => simp [alPut, risingFrom, hk]
  | cons p m ih =>
    obtain ⟨a, b⟩ := p
    simp only [risingFrom, Bool.and_eq_true, decide_eq_true_eq] at h
    unfold alPut
    split
    · next h2 => simp only [risingFrom, Bool.and_eq_true, decide_eq_true_eq]; exact ⟨hk, h2, h.2⟩
    · split
      · next h2 => simp only [risingFrom, Bool.and_eq_true, decide_eq_true_eq]; exact ⟨hk, h2 ▸ h.2⟩
      · simp only [risingFrom, Bool.and_eq_true, decide_eq_true_eq]; exact ⟨h.1, ih a h.2 (by omega)⟩

theorem risingFrom_alPut (m : List (Nat × β)) (k : Nat) (v : β) (h : risingFrom none m = true) : risingFrom none (alPut m k v) = true := by
  cases m with
  | nil => rfl
  | cons p m =>
    obtain ⟨a, b⟩ := p
    simp only [risingFrom] at h
    unfold alPut
    split
    · next h2 => simp only [risingFrom, Bool.and_eq_true, decide_eq_true_eq]; exact ⟨h2, h⟩
    · split
      · next h2 => simp only [risingFrom]; exact h2 ▸ h
      · simp only [risingFrom]; exact risingFrom_alPut_some m a k v h (by omega)

theorem risingFrom_filter_some (m : List (Nat × β)) (f : Nat × β → Bool) (l : Nat) (h : risingFrom (some l) m = true) :
    risingFrom (some l) (m.filter f) = true := by
  induction m generalizing l with
  | nil => rfl
  | cons p m ih =>
    obtain ⟨a, b⟩ := p
    simp only [risingFrom, Bool.and_eq_true, decide_eq_true_eq] at h
    rw [List.filter_cons]
    split
    · simp only [risingFrom, Bool.and_eq_true, decide_eq_true_eq]; exact ⟨h.1, ih a h.2⟩
    · exact ih l (risingFrom_mono m l a h.2 (by omega))

theorem risingFrom_filter (m : List (Nat × β)) (f : Nat × β → Bool) (h : risingFrom none m = true) :
    risingFrom none (m.filter f) = true := by
  induction m with
  | nil => rfl
  | cons p m ih =>
    obtain ⟨a, b⟩ := p
    simp only [risingFrom] at h
    rw [List.filter_cons]
    split
    · simp only [risingFrom]; exact risingFrom_filter_some m f a h
    · exact ih (risingFrom_none m a h)

theorem risingFrom_alDel_some (m : List (Nat × β)) (l k : Nat) (h : risingFrom (some l) m = true) :
    risingFrom (some l) (alDel m k) = true := by
  induction m generalizing l with
  | nil => rfl
  | cons p m ih =>
    obtain ⟨a, b⟩ := p
    simp only [risingFrom, Bool.and_eq_true, decide_eq_true_eq] at h
    unfold alDel
    split
    · exact risingFrom_mono m l a h.2 (by omega)
    · simp only [risingFrom, Bool.and_eq_true, decide_eq_true_eq]; exact ⟨h.1, ih a h.2⟩

theorem risingFrom_alDel (m : List (Nat × β)) (k : Nat) (h : risingFrom none m = true) : risingFrom none (alDel m k) = true := by
  cases m with
  | nil => rfl
  | cons p m =>
    obtain ⟨a, b⟩ := p
    simp only [risingFrom] at h
    unfold alDel
    split
    · exact risingFrom_none m a h
    · simp only [risingFrom]; exact risingFrom_alDel_some m a k h

theorem all_alPut (m : List (Nat × β)) (f : Nat × β → Bool) (k : Nat) (v : β) (h : m.all f = true) (hv : f (k, v) = true) :
    (alPut m k v).all f = true := by
  induction m with
  | nil => simp [alPut, hv]
  | cons p m ih =>
    obtain ⟨a, b⟩ := p
    simp only [List.all_cons, Bool.and_eq_true] at h
    unfold alPut
    split
    · simp only [List.all_cons, hv, h.1, h.2, Bool.and_self]
    · split
      · simp only [List.all_cons, hv, h.2, Bool.and_self]
      · simp only [List.all_cons, h.1, ih h.2, Bool.and_self]

theorem all_alDel (m : List (Nat × β)) (f : Nat × β → Bool) (k : Nat) (h : m.all f = true) : (alDel m k).all f = true := by
  induction m with
  | nil => rfl
  | cons p m ih =>
    obtain ⟨a, b⟩ := p
    simp only [List.all_cons, Bool.and_eq_true] at h
    unfold alDel
    split
    · exact h.2
    · simp only [List.all_cons, h.1, ih h.2, Bool.and_self]

theorem all_filter_of (m : List (Nat × β)) (f g : Nat × β → Bool) (h : m.all f = true) : (m.filter g).all f = true := by
  rw [List.all_eq_true] at h ⊢
  intro x hx
  exact h x (List.mem_filter.1 hx).1

theorem cell_ite_fst {c : Prop} [Decidable c] {p q : Nat × β} (h : q.1 = p.1) : (if c then q else p).1 = p.1 := by
  split
  · exact h
  · rfl

/-- Values changed in place keep the keys rising. -/
theorem risingFrom_map (m : List (Nat × β)) (f : Nat × β → Nat × β) (hf : ∀ p, (f p).1 = p.1) (lo : Option Nat) :
    risingFrom lo (m.map f) = risingFrom lo m := by
  induction m generalizing lo with
  | nil => rfl
  | cons p m ih =>
    obtain ⟨a, b⟩ := p
    have h1 : f (a, b) = (a, (f (a, b)).2) := Prod.ext (hf (a, b)) rfl
    rw [List.map_cons, h1]
    cases lo with
    | none => simp only [risingFrom, ih]
    | some l => simp only [risingFrom, ih]

theorem risingFrom_filterMap_some (m : List (Nat × β)) (f : Nat × β → Option (Nat × β)) (hf : ∀ p q, f p = some q → q.1 = p.1) (l : Nat)
    (h : risingFrom (some l) m = true) : risingFrom (some l) (m.filterMap f) = true := by
  induction m generalizing l with
  | nil => rfl
  | cons p m ih =>
    obtain ⟨a, b⟩ := p
    simp only [risingFrom, Bool.and_eq_true, decide_eq_true_eq] at h
    rw [List.filterMap_cons]
    split
    · exact ih l (risingFrom_mono m l a h.2 (by omega))
    · next q hq =>
      obtain ⟨c, d⟩ := q
      have hc : c = a := hf _ _ hq
      subst hc
      simp only [risingFrom, Bool.and_eq_true, decide_eq_true_eq]
      exact ⟨h.1, ih c h.2⟩

theorem risingFrom_filterMap (m : List (Nat × β)) (f : Nat × β → Option (Nat × β)) (hf : ∀ p q, f p = some q → q.1 = p.1)
    (h : risingFrom none m = true) : risingFrom none (m.filterMap f) = true := by
  induction m with
  | nil => rfl
  | cons p m ih =>
    obtain ⟨a, b⟩ := p
    simp only [risingFrom] at h
    rw [List.filterMap_cons]
    split
    · exact ih (risingFrom_none m a h)
    · next q hq =>
      obtain ⟨c, d⟩ := q
      have hc : c = a := hf _ _ hq
      subst hc
      simp only [risingFrom]
      exact risingFrom_filterMap_some m f hf c h

variable [DecidableEq β] {dflt : Nat → β}

/-- A write keeps the canonical form. -/
theorem spWf_spSet (m : List (Nat × β)) (k : Nat) (v : β) (h : spWf dflt m = true) : spWf dflt (spSet dflt m k v) = true := by
  simp only [spWf, Bool.and_eq_true] at h ⊢
  unfold spSet
  split
  · exact ⟨risingFrom_alDel m k h.1, all_alDel m _ k h.2⟩
  · next hv => exact ⟨risingFrom_alPut m k v h.1, all_alPut m _ k v h.2 (by simpa using hv)⟩

/-- Entries left out keep the canonical form. -/
theorem spWf_filter (m : List (Nat × β)) (f : Nat × β → Bool) (h : spWf dflt m = true) : spWf dflt (m.filter f) = true := by
  simp only [spWf, Bool.and_eq_true] at h ⊢
  exact ⟨risingFrom_filter m f h.1, all_filter_of m _ f h.2⟩

theorem spWf_nil : spWf dflt ([] : List (Nat × β)) = true := rfl

/-- A read after a write to the same key gives the value written. -/
theorem spGet_spSet_same (m : List (Nat × β)) (k : Nat) (v : β) (h : spWf dflt m = true) : spGet dflt (spSet dflt m k v) k = v := by
  simp only [spWf, Bool.and_eq_true] at h
  unfold spGet spSet
  split
  · next hv => rw [alGet_alDel_same m k h.1]; exact hv.symm
  · rw [alGet_alPut_same]; rfl

/-- A write leaves every other key alone. -/
theorem spGet_spSet_other (m : List (Nat × β)) (k j : Nat) (v : β) (h : j ≠ k) : spGet dflt (spSet dflt m k v) j = spGet dflt m j := by
  unfold spGet spSet
  split
  · rw [alGet_alDel_other m k j h]
  · rw [alGet_alPut_other m k j v h]

/-! ### Rising lists of numbers -/


theorem nsWf_cons (a : Nat) (m : List Nat) : nsWf (a :: m) = true ↔ (∀ x ∈ m, a < x) ∧ nsWf m = true := by
  induction m generalizing a with
  | nil => simp [nsWf]
  | cons b m ih =>
    simp only [nsWf, Bool.and_eq_true, decide_eq_true_eq, List.mem_cons, forall_eq_or_imp]
    constructor
    · intro ⟨h1, h2⟩
      exact ⟨⟨h1, fun x hx => Nat.lt_trans h1 (((ih b).1 h2).1 x hx)⟩, h2⟩
    · intro ⟨⟨h1, _⟩, h2⟩
      exact ⟨h1, h2⟩

theorem nsWf_filter (m : List Nat) (f : Nat → Bool) (h : nsWf m = true) : nsWf (m.filter f) = true := by
  induction m with
  | nil => rfl
  | cons a m ih =>
    rw [nsWf_cons] at h
    rw [List.filter_cons]
    split
    · rw [nsWf_cons]
      exact ⟨fun x hx => h.1 x (List.mem_filter.1 hx).1, ih h.2⟩
    · exact ih h.2

theorem mem_nsAdd (m : List Nat) (k x : Nat) : x ∈ nsAdd m k ↔ x = k ∨ x ∈ m := by
  induction m with
  | nil => simp [nsAdd]
  | cons a m ih =>
    unfold nsAdd
    split
    · simp
    · split
      · next h => subst h; simp
      · simp only [List.mem_cons, ih]
        constructor
        · rintro (h | h | h) <;> simp [h]
        · rintro (h | h | h) <;> simp [h]

theorem nsWf_nsAdd (m : List Nat) (k : Nat) (h : nsWf m = true) : nsWf (nsAdd m k) = true := by
  induction m with
  | nil => rfl
  | cons a m ih =>
    have h' := (nsWf_cons a m).1 h
    unfold nsAdd
    split
    · next hk =>
      rw [nsWf_cons]
      refine ⟨fun x hx => ?_, h⟩
      rcases List.mem_cons.1 hx with rfl | hx
      · exact hk
      · exact Nat.lt_trans hk (h'.1 x hx)
    · split
      · exact h
      · rw [nsWf_cons]
        refine ⟨fun x hx => ?_, ih h'.2⟩
        rcases (mem_nsAdd m k x).1 hx with rfl | hx
        · omega
        · exact h'.1 x hx

theorem mem_nsDel_of (m : List Nat) (k x : Nat) (h : x ∈ nsDel m k) : x ∈ m := by
  induction m with
  | nil => simp [nsDel] at h
  | cons a m ih =>
    unfold nsDel at h
    split at h
    · exact List.mem_cons_of_mem a h
    · rcases List.mem_cons.1 h with rfl | h
      · exact List.mem_cons_self
      · exact List.mem_cons_of_mem a (ih h)

theorem nsWf_nsDel (m : List Nat) (k : Nat) (h : nsWf m = true) : nsWf (nsDel m k) = true := by
  induction m with
  | nil => rfl
  | cons a m ih =>
    have h' := (nsWf_cons a m).1 h
    unfold nsDel
    split
    · exact h'.2
    · rw [nsWf_cons]
      exact ⟨fun x hx => h'.1 x (mem_nsDel_of m k x hx), ih h'.2⟩

end Sys2Proof.Machine
end

