-- ==== Sys2Proof/Laws/Memory.lean ====
section
/-! SUPPORT. Laws of the memories: a byte read after a write, what a write leaves alone, and that every memory operation keeps the
canonical form (`Mem.wf`). -/

namespace Sys2Proof.Machine

open Sys2Proof

theorem Mem.wf_iff (m : Mem) : m.wf = true ↔ spWf (fun _ => (0 : Byte)) m.cells = true ∧ nsWf m.bad = true := by
  simp only [Mem.wf, Bool.and_eq_true]

theorem Mem.wf_empty : (⟨[], []⟩ : Mem).wf = true := rfl

theorem Mem.wf_put (m : Mem) (a : Nat) (b : Byte) (h : m.wf = true) : (m.put a b).wf = true := by
  rw [Mem.wf_iff] at h ⊢
  exact ⟨spWf_spSet _ a b h.1, nsWf_nsDel _ a h.2⟩

theorem Mem.wf_putBad (m : Mem) (a : Nat) (b : Byte) (h : m.wf = true) : (m.putBad a b).wf = true := by
  rw [Mem.wf_iff] at h ⊢
  exact ⟨spWf_spSet _ a b h.1, nsWf_nsAdd _ a h.2⟩

theorem Mem.wf_putRaw (m : Mem) (a : Nat) (b : Byte) (p : Bool) (h : m.wf = true) : (m.putRaw a b p).wf = true := by
  unfold Mem.putRaw
  split
  · exact m.wf_putBad a b h
  · exact m.wf_put a b h

theorem Mem.wf_puts (m : Mem) (a : Nat) (bs : List Byte) (h : m.wf = true) : (m.puts a bs).wf = true := by
  induction bs generalizing m a with
  | nil => exact h
  | cons b bs ih => exact ih _ _ (m.wf_put a b h)

theorem Mem.wf_maskPut (m : Mem) (a : Nat) (bs : List (Option Byte)) (h : m.wf = true) : (m.maskPut a bs).wf = true := by
  induction bs generalizing m a with
  | nil => exact h
  | cons b bs ih =>
    cases b with
    | none => exact ih m (a + 1) h
    | some b => exact ih _ _ (m.wf_put a b h)

theorem Mem.wf_filter (m : Mem) (f : Nat × Byte → Bool) (g : Nat → Bool) (h : m.wf = true) :
    (⟨m.cells.filter f, m.bad.filter g⟩ : Mem).wf = true := by
  rw [Mem.wf_iff] at h ⊢
  exact ⟨spWf_filter _ f h.1, nsWf_filter _ g h.2⟩

theorem Mem.wf_zero (m : Mem) (a n : Nat) (h : m.wf = true) : (m.zero a n).wf = true := m.wf_filter _ _ h

/-- A fold of steps that keep the form keeps it. -/
theorem Mem.wf_foldl {α : Type} (f : Mem → α → Mem) (hf : ∀ m x, m.wf = true → (f m x).wf = true) (l : List α) (m : Mem)
    (h : m.wf = true) : (l.foldl f m).wf = true := by
  induction l generalizing m with
  | nil => exact h
  | cons x l ih => exact ih _ (hf m x h)

theorem Mem.wf_poisonSector (m : Mem) (sec : Nat) (h : m.wf = true) : (m.poisonSector sec).wf = true :=
  Mem.wf_foldl _ (fun m _ hm => m.wf_putBad _ _ hm) _ _ h

theorem Mem.wf_copyRaw (m src : Mem) (src0 dst n : Nat) (h : m.wf = true) : (m.copyRaw src src0 dst n).wf = true :=
  Mem.wf_foldl _ (fun m _ hm => m.wf_putBad _ _ hm) _ _
    (Mem.wf_foldl _ (fun m _ hm => m.wf_put _ _ hm) _ _ (m.wf_zero dst n h))

/-! ### Reads after writes -/

theorem Mem.byte_put_same (m : Mem) (a : Nat) (b : Byte) (h : m.wf = true) : (m.put a b).byte a = b :=
  spGet_spSet_same (dflt := fun _ => (0 : Byte)) m.cells a b ((m.wf_iff).1 h).1

theorem Mem.byte_put_other (m : Mem) (a x : Nat) (b : Byte) (h : x ≠ a) : (m.put a b).byte x = m.byte x :=
  spGet_spSet_other (dflt := fun _ => (0 : Byte)) m.cells a x b h

theorem Mem.byte_putBad_other (m : Mem) (a x : Nat) (b : Byte) (h : x ≠ a) : (m.putBad a b).byte x = m.byte x :=
  spGet_spSet_other (dflt := fun _ => (0 : Byte)) m.cells a x b h

/-- Bytes stored from an address up leave every byte outside them alone. -/
theorem Mem.byte_puts_other (m : Mem) (a x : Nat) (bs : List Byte) (h : x < a ∨ a + bs.length ≤ x) : (m.puts a bs).byte x = m.byte x := by
  induction bs generalizing m a with
  | nil => rfl
  | cons b bs ih =>
    have hl : (b :: bs).length = bs.length + 1 := rfl
    rw [hl] at h
    rw [Mem.puts, ih _ _ (by omega), m.byte_put_other a x b (by omega)]

end Sys2Proof.Machine
end

