-- ==== Sys2Proof/Laws/CanonBase.lean ====
section
/-! SUPPORT. How a state keeps its canonical form: rules for branches, folds, pairs and record updates, and the shared operations
that write registers, memories and the record queue. -/

namespace Sys2Proof.Machine

open Sys2Proof

theorem canon_ite {c : Prop} [Decidable c] {a b : State} (ha : a.Canon) (hb : b.Canon) : (if c then a else b).Canon := by
  split <;> assumption

theorem canon_foldl {α : Type} {f : State → α → State} {l : List α} {s : State} (hs : s.Canon)
    (h : ∀ s x, s.Canon → (f s x).Canon) : (l.foldl f s).Canon := by
  induction l generalizing s with
  | nil => exact hs
  | cons x l ih => exact ih (h s x hs)

theorem canon_foldl_fst {α β : Type} {f : State × β → α → State × β} {l : List α} {s : State × β} (hs : s.1.Canon)
    (h : ∀ s x, s.1.Canon → (f s x).1.Canon) : (l.foldl f s).1.Canon := by
  induction l generalizing s with
  | nil => exact hs
  | cons x l ih => exact ih (h s x hs)

theorem canon_fst {α : Type} {a : State} (b : α) (h : a.Canon) : (a, b).1.Canon := h

theorem canon_pair {α : Type} {p : State × α} {a : State} {b : α} (e : p = (a, b)) (h : p.1.Canon) : a.Canon := by
  subst e; exact h

theorem canon_pair_snd {α : Type} {p : α × State} {a : State} {b : α} (e : p = (b, a)) (h : p.2.Canon) : a.Canon := by
  subst e; exact h

theorem canon_some {p : Option State} {a : State} (e : p = some a) (h : ∀ t, p = some t → t.Canon) : a.Canon := h a e

theorem canon_some_pair {α : Type} {p : Option (State × α)} {a : State} {b : α} (e : p = some (a, b))
    (h : ∀ t, p = some t → t.1.Canon) : a.Canon := h (a, b) e

theorem canon_getD {o : Option State} {d : State} (hd : d.Canon) (h : ∀ t, o = some t → t.Canon) : (o.getD d).Canon := by
  cases o with
  | none => exact hd
  | some t => exact h t rfl

/-- A record update that leaves the registers, the memories and the record queue as they are. -/
theorem canon_upd {s : State} {regs latched run eru ctr tick plans tower t0 ext xt pages freeCtr coding fab host upd lane col ring ptc
      arb arc mgmt pwr turns rdata regErr pending}
    (h : s.Canon) (e1 : regs = s.regs) (e2 : Tower.mem tower = s.tower.mem) (e3 : t0 = s.t0) (e4 : ext = s.ext)
    (e5 : Mgmt.sram mgmt = s.mgmt.sram) (e6 : Eru.queue eru = s.eru.queue) :
    (State.mk regs latched run eru ctr tick plans tower t0 ext xt pages freeCtr coding fab host upd lane col ring ptc arb arc mgmt pwr
      turns rdata regErr pending).Canon := by
  subst e1 e3 e4
  exact ⟨h.1, e2 ▸ h.2.1, h.2.2.1, h.2.2.2.1, e5 ▸ h.2.2.2.2.1, e6 ▸ h.2.2.2.2.2⟩

theorem canon_reset : State.reset.Canon := by
  refine ⟨rfl, rfl, rfl, rfl, rfl, ?_⟩
  decide

/-! ### Parts of a canonical state -/

theorem State.Canon.tower_mem {s : State} (h : s.Canon) : s.tower.mem.wf = true := h.2.1
theorem State.Canon.t0_wf {s : State} (h : s.Canon) : s.t0.wf = true := h.2.2.1
theorem State.Canon.ext_wf {s : State} (h : s.Canon) : s.ext.wf = true := h.2.2.2.1
theorem State.Canon.sram_wf {s : State} (h : s.Canon) : s.mgmt.sram.wf = true := h.2.2.2.2.1

/-- The tower's memory replaced by a canonical one. -/
theorem canon_tower {s : State} {t : Tower} (h : s.Canon) (hm : t.mem.wf = true) : ({ s with tower := t }).Canon :=
  ⟨h.1, hm, h.2.2.1, h.2.2.2.1, h.2.2.2.2.1, h.2.2.2.2.2⟩

theorem canon_t0 {s : State} {m : Mem} (h : s.Canon) (hm : m.wf = true) : ({ s with t0 := m }).Canon :=
  ⟨h.1, h.2.1, hm, h.2.2.2.1, h.2.2.2.2.1, h.2.2.2.2.2⟩

theorem canon_ext {s : State} {m : Mem} (h : s.Canon) (hm : m.wf = true) : ({ s with ext := m }).Canon :=
  ⟨h.1, h.2.1, h.2.2.1, hm, h.2.2.2.2.1, h.2.2.2.2.2⟩

theorem canon_ext_pages {s : State} {m : Mem} {p : Pages} (h : s.Canon) (hm : m.wf = true) :
    ({ s with ext := m, pages := p }).Canon :=
  ⟨h.1, h.2.1, h.2.2.1, hm, h.2.2.2.2.1, h.2.2.2.2.2⟩

theorem canon_mgmt {s : State} {m : Mgmt} (h : s.Canon) (hm : m.sram.wf = true) : ({ s with mgmt := m }).Canon :=
  ⟨h.1, h.2.1, h.2.2.1, h.2.2.2.1, hm, h.2.2.2.2.2⟩

theorem canon_eru {s : State} {e : Eru} (h : s.Canon) (hm : e.queue.length ≤ 32) : ({ s with eru := e }).Canon :=
  ⟨h.1, h.2.1, h.2.2.1, h.2.2.2.1, h.2.2.2.2.1, hm⟩

theorem canon_regs {s : State} {r : List (Nat × BitVec 32)} (h : s.Canon) (hr : spWf resetAt r = true) : ({ s with regs := r }).Canon :=
  ⟨hr, h.2.1, h.2.2.1, h.2.2.2.1, h.2.2.2.2.1, h.2.2.2.2.2⟩

/-- A register word written. -/
theorem canon_wr (s : State) (off item v : Nat) (h : s.Canon) : (s.wr off item v).Canon :=
  canon_regs h (spWf_spSet _ _ _ h.1)

end Sys2Proof.Machine
end

