-- ==== Sys2Proof/Laws/Canon/Ops.lean ====
section
/-! SUPPORT. The operations of `Ops.lean` keep the canonical form of the state. -/

namespace Sys2Proof.Machine

open Sys2Proof

theorem canon_fset (a0 : State) (a1 : Fld) (a2 : Nat) (a3 : Nat) (h : a0.Canon) : (State.fset a0 a1 a2 a3).Canon := by
  unfold State.fset
  repeat'
    first
    | with_reducible assumption
    | with_reducible refine canon_ite ?_ ?_
    | with_reducible refine canon_wr _ _ _ _ ?_
    | dsimp only
    | split
    | with_reducible refine canon_upd ?_ rfl rfl rfl rfl rfl rfl

theorem canon_set1 (a0 : State) (a1 : Fld) (a2 : Nat) (h : a0.Canon) : (State.set1 a0 a1 a2).Canon := by
  unfold State.set1
  repeat'
    first
    | with_reducible assumption
    | with_reducible refine canon_ite ?_ ?_
    | with_reducible refine canon_fset _ _ _ _ ?_
    | dsimp only
    | split
    | with_reducible refine canon_upd ?_ rfl rfl rfl rfl rfl rfl

theorem canon_set0 (a0 : State) (a1 : Fld) (a2 : Nat) (h : a0.Canon) : (State.set0 a0 a1 a2).Canon := by
  unfold State.set0
  repeat'
    first
    | with_reducible assumption
    | with_reducible refine canon_ite ?_ ?_
    | with_reducible refine canon_fset _ _ _ _ ?_
    | dsimp only
    | split
    | with_reducible refine canon_upd ?_ rfl rfl rfl rfl rfl rfl

theorem canon_bump (a0 : State) (a1 : Fld) (a2 : Nat) (a3 : Nat) (h : a0.Canon) : (State.bump a0 a1 a2 a3).Canon := by
  unfold State.bump
  repeat'
    first
    | with_reducible assumption
    | with_reducible refine canon_ite ?_ ?_
    | with_reducible refine canon_fset _ _ _ _ ?_
    | dsimp only
    | split
    | with_reducible refine canon_upd ?_ rfl rfl rfl rfl rfl rfl

theorem canon_bumpSat (a0 : State) (a1 : Fld) (a2 : Nat) (a3 : Nat) (h : a0.Canon) : (State.bumpSat a0 a1 a2 a3).Canon := by
  unfold State.bumpSat
  repeat'
    first
    | with_reducible assumption
    | with_reducible refine canon_ite ?_ ?_
    | with_reducible refine canon_fset _ _ _ _ ?_
    | dsimp only
    | split
    | with_reducible refine canon_upd ?_ rfl rfl rfl rfl rfl rfl

theorem canon_wr64 (a0 : State) (a1 : Nat) (a2 : Nat) (a3 : Nat) (h : a0.Canon) : (State.wr64 a0 a1 a2 a3).Canon := by
  unfold State.wr64
  repeat'
    first
    | with_reducible assumption
    | with_reducible refine canon_ite ?_ ?_
    | with_reducible refine canon_wr _ _ _ _ ?_
    | dsimp only
    | split
    | with_reducible refine canon_upd ?_ rfl rfl rfl rfl rfl rfl

theorem canon_irq (a0 : State) (a1 : Nat) (a2 : Nat) (h : a0.Canon) : (State.irq a0 a1 a2).Canon := by
  unfold State.irq
  repeat'
    first
    | with_reducible assumption
    | with_reducible refine canon_ite ?_ ?_
    | with_reducible refine canon_wr _ _ _ _ ?_
    | dsimp only
    | split
    | with_reducible refine canon_upd ?_ rfl rfl rfl rfl rfl rfl

theorem canon_countOne (a0 : State) (a1 : Nat) (a2 : Nat) (h : a0.Canon) : (State.countOne a0 a1 a2).Canon := by
  unfold State.countOne
  extract_lets v _ s1 _ s2
  have h1 : s1.Canon := canon_upd h rfl rfl rfl rfl rfl rfl
  have h2 : s2.Canon := canon_wr _ _ _ _ h1
  exact canon_ite h1 (canon_ite (canon_irq _ _ _ h2) h2)

theorem canon_active (a0 : State) (a1 : Nat) (a2 : Nat) (h : a0.Canon) : (State.active a0 a1 a2).Canon := by
  unfold State.active
  repeat'
    first
    | with_reducible assumption
    | with_reducible refine canon_ite ?_ ?_
    | dsimp only
    | split
    | with_reducible refine canon_upd ?_ rfl rfl rfl rfl rfl rfl

theorem canon_event (a0 : State) (a1 : Nat) (a2 : Option Nat) (a3 : Nat) (h : a0.Canon) : (State.event a0 a1 a2 a3).Canon := by
  unfold State.event
  repeat'
    first
    | with_reducible assumption
    | with_reducible refine canon_ite ?_ ?_
    | with_reducible refine canon_countOne _ _ _ ?_
    | with_reducible refine canon_foldl ?_ (fun _ _ _ => ?_)
    | with_reducible refine canon_foldl_fst ?_ (fun _ _ _ => ?_)
    | with_reducible refine canon_pair (by assumption) ?_
    | dsimp only
    | split
    | with_reducible refine canon_upd ?_ rfl rfl rfl rfl rfl rfl

theorem canon_topDown (a0 : State) (a1 : Nat) (a2 : Nat) (a3 : Nat) (h : a0.Canon) : (State.topDown a0 a1 a2 a3).Canon := by
  unfold State.topDown
  repeat'
    first
    | with_reducible assumption
    | with_reducible refine canon_ite ?_ ?_
    | dsimp only
    | split
    | with_reducible refine canon_upd ?_ rfl rfl rfl rfl rfl rfl

theorem canon_enqueue (a0 : State) (a1 : ErrRec) (h : a0.Canon) : (State.enqueue a0 a1).Canon := by
  unfold State.enqueue
  split
  · next hq =>
    have h1 : ({ a0 with eru := { a0.eru with queue := a0.eru.queue ++ [a1] } }).Canon :=
      canon_eru h (by simp only [List.length_append, List.length_cons, List.length_nil]; omega)
    exact canon_ite (canon_irq _ _ _ h1) h1
  · exact canon_irq _ _ _ (canon_set1 _ _ _ (canon_bump _ _ _ _ h))

theorem canon_latchFatal (a0 : State) (a1 : ErrRec) (h : a0.Canon) : (State.latchFatal a0 a1).Canon := by
  unfold State.latchFatal
  repeat'
    first
    | with_reducible assumption
    | with_reducible refine canon_ite ?_ ?_
    | with_reducible refine canon_set1 _ _ _ ?_
    | with_reducible refine canon_irq _ _ _ ?_
    | dsimp only
    | split
    | with_reducible refine canon_upd ?_ rfl rfl rfl rfl rfl rfl

theorem canon_logErr (a0 : State) (a1 : ErrIn) (h : a0.Canon) : (State.logErr a0 a1).Canon := by
  unfold State.logErr
  repeat'
    first
    | with_reducible assumption
    | with_reducible refine canon_ite ?_ ?_
    | with_reducible refine canon_latchFatal _ _ ?_
    | with_reducible refine canon_enqueue _ _ ?_
    | with_reducible refine canon_event _ _ _ _ ?_
    | with_reducible refine canon_wr _ _ _ _ ?_
    | with_reducible refine canon_bump _ _ _ _ ?_
    | dsimp only
    | split
    | with_reducible refine canon_upd ?_ rfl rfl rfl rfl rfl rfl

theorem canon_logOnce (a0 : State) (a1 : Nat) (a2 : ErrIn) (h : a0.Canon) : (State.logOnce a0 a1 a2).Canon := by
  unfold State.logOnce
  repeat'
    first
    | with_reducible assumption
    | with_reducible refine canon_ite ?_ ?_
    | with_reducible refine canon_logErr _ _ ?_
    | dsimp only
    | split
    | with_reducible refine canon_upd ?_ rfl rfl rfl rfl rfl rfl

theorem canon_logMs (a0 : State) (a1 : ErrIn) (h : a0.Canon) : (State.logMs a0 a1).Canon := by
  unfold State.logMs
  repeat'
    first
    | with_reducible assumption
    | with_reducible refine canon_ite ?_ ?_
    | with_reducible refine canon_logErr _ _ ?_
    | dsimp only
    | split
    | with_reducible refine canon_upd ?_ rfl rfl rfl rfl rfl rfl

theorem canon_clearOnce (a0 : State) (a1 : Nat → Bool) (h : a0.Canon) : (State.clearOnce a0 a1).Canon := by
  unfold State.clearOnce
  repeat'
    first
    | with_reducible assumption
    | with_reducible refine canon_ite ?_ ?_
    | dsimp only
    | split
    | with_reducible refine canon_upd ?_ rfl rfl rfl rfl rfl rfl

theorem canon_free (a0 : State) (h : a0.Canon) : (State.free a0).2.Canon := by
  unfold State.free
  repeat'
    first
    | with_reducible assumption
    | with_reducible refine canon_ite ?_ ?_
    | dsimp only
    | split
    | with_reducible refine canon_upd ?_ rfl rfl rfl rfl rfl rfl

theorem canon_freeBytes (n : Nat) (a0 : State) (h : a0.Canon) : (State.freeBytes n a0).2.Canon := by
  induction n generalizing a0 with
  | zero => exact h
  | succ n ih => exact ih _ (canon_free _ h)

end Sys2Proof.Machine
end

