-- ==== Sys2Proof/Laws/Canon/Tower.lean ====
section
/-! SUPPORT. The operations of `Tower.lean` keep the canonical form of the state. -/

namespace Sys2Proof.Machine

open Sys2Proof

theorem canon_setBank (a0 : State) (a1 : Nat) (a2 : Bank) (h : a0.Canon) : (State.setBank a0 a1 a2).Canon := by
  unfold State.setBank
  repeat'
    first
    | with_reducible assumption
    | with_reducible refine canon_ite ?_ ?_
    | dsimp only
    | split
    | with_reducible refine canon_upd ?_ rfl rfl rfl rfl rfl rfl

theorem canon_secsWritten (a0 : State) (a1 : Nat) (a2 : Nat) (a3 : Nat → Bool) (h : a0.Canon) :
    (State.secsWritten a0 a1 a2 a3).Canon := by
  unfold State.secsWritten
  repeat'
    first
    | with_reducible assumption
    | with_reducible refine canon_ite ?_ ?_
    | with_reducible refine canon_active _ _ _ ?_
    | with_reducible refine canon_event _ _ _ _ ?_
    | with_reducible refine canon_foldl ?_ (fun _ _ _ => ?_)
    | with_reducible refine canon_foldl_fst ?_ (fun _ _ _ => ?_)
    | with_reducible refine canon_pair (by assumption) ?_
    | dsimp only
    | split
    | with_reducible refine canon_upd ?_ rfl rfl rfl rfl rfl rfl

theorem canon_towerPut (a0 : State) (a1 : Nat) (a2 : List (Option Byte)) (h : a0.Canon) : (State.towerPut a0 a1 a2).Canon :=
  canon_secsWritten _ _ _ _ (canon_tower h (Mem.wf_maskPut _ _ _ h.tower_mem))

theorem canon_mirrorFill (a0 : State) (a1 : Nat) (a2 : Nat) (h : a0.Canon) : (State.mirrorFill a0 a1 a2).Canon := by
  unfold State.mirrorFill
  repeat'
    first
    | with_reducible assumption
    | with_reducible refine canon_ite ?_ ?_
    | with_reducible refine canon_foldl ?_ (fun _ _ _ => ?_)
    | with_reducible refine canon_foldl_fst ?_ (fun _ _ _ => ?_)
    | with_reducible refine canon_pair (by assumption) ?_
    | dsimp only
    | split
    | with_reducible refine canon_upd ?_ rfl rfl rfl rfl rfl rfl

theorem canon_xtSend (a0 : State) (a1 : Bool) (a2 : Nat) (a3 : List (Option Byte)) (h : a0.Canon) :
    (State.xtSend a0 a1 a2 a3).Canon := by
  unfold State.xtSend
  repeat'
    first
    | with_reducible assumption
    | with_reducible refine canon_ite ?_ ?_
    | with_reducible refine canon_active _ _ _ ?_
    | dsimp only
    | split
    | with_reducible refine canon_upd ?_ rfl rfl rfl rfl rfl rfl

theorem canon_xtRun (a0 : State) (a1 : List Nat) (h : a0.Canon) : (State.xtRun a0 a1).Canon := by
  unfold State.xtRun
  repeat'
    first
    | with_reducible assumption
    | with_reducible refine canon_ite ?_ ?_
    | with_reducible refine canon_xtSend _ _ _ _ ?_
    | with_reducible refine canon_foldl ?_ (fun _ _ _ => ?_)
    | with_reducible refine canon_foldl_fst ?_ (fun _ _ _ => ?_)
    | with_reducible refine canon_pair (by assumption) ?_
    | dsimp only
    | split
    | with_reducible refine canon_upd ?_ rfl rfl rfl rfl rfl rfl

theorem canon_xtStore (a0 : State) (a1 : List Nat) (h : a0.Canon) : (State.xtStore a0 a1).Canon := by
  unfold State.xtStore
  repeat'
    first
    | with_reducible assumption
    | with_reducible refine canon_ite ?_ ?_
    | with_reducible refine canon_xtSend _ _ _ _ ?_
    | with_reducible refine canon_foldl ?_ (fun _ _ _ => ?_)
    | with_reducible refine canon_foldl_fst ?_ (fun _ _ _ => ?_)
    | with_reducible refine canon_pair (by assumption) ?_
    | dsimp only
    | split
    | with_reducible refine canon_upd ?_ rfl rfl rfl rfl rfl rfl

theorem canon_xtAnswer (a0 : State) (a1 : Bool) (a2 : Nat) (h : a0.Canon) : (State.xtAnswer a0 a1 a2).Canon := by
  unfold State.xtAnswer
  repeat'
    first
    | with_reducible assumption
    | with_reducible refine canon_ite ?_ ?_
    | dsimp only
    | split
    | with_reducible refine canon_upd ?_ rfl rfl rfl rfl rfl rfl

theorem canon_parityPoison (a0 : State) (a1 : Nat) (h : a0.Canon) : (State.parityPoison a0 a1).Canon :=
  canon_logErr _ _ (canon_irq _ _ _ (canon_bump _ _ _ _ (canon_secsWritten _ _ _ _ (canon_mirrorFill _ _ _
    (canon_tower h (Mem.wf_poisonSector _ _ h.tower_mem))))))

theorem canon_readSec (a0 : State) (a1 : Tier) (a2 : Nat) (h : a0.Canon) : (State.readSec a0 a1 a2).1.Canon := by
  unfold State.readSec
  repeat'
    first
    | with_reducible assumption
    | with_reducible refine canon_ite ?_ ?_
    | with_reducible refine canon_parityPoison _ _ ?_
    | with_reducible refine canon_active _ _ _ ?_
    | with_reducible refine canon_event _ _ _ _ ?_
    | with_reducible refine canon_bump _ _ _ _ ?_
    | with_reducible refine canon_irq _ _ _ ?_
    | with_reducible refine canon_xtSend _ _ _ _ ?_
    | dsimp only
    | split
    | with_reducible refine canon_upd ?_ rfl rfl rfl rfl rfl rfl

theorem canon_readTier (a0 : State) (a1 : Tier) (a2 : Nat) (a3 : Nat) (h : a0.Canon) : (State.readTier a0 a1 a2 a3).1.Canon := by
  unfold State.readTier
  repeat'
    first
    | with_reducible assumption
    | with_reducible refine canon_ite ?_ ?_
    | with_reducible refine canon_readSec _ _ _ ?_
    | with_reducible refine canon_foldl ?_ (fun _ _ _ => ?_)
    | with_reducible refine canon_foldl_fst ?_ (fun _ _ _ => ?_)
    | with_reducible refine canon_pair (by assumption) ?_
    | dsimp only
    | split
    | with_reducible refine canon_upd ?_ rfl rfl rfl rfl rfl rfl

theorem canon_writeTier (a0 : State) (a1 : Tier) (a2 : Nat) (a3 : List (Option Byte)) (h : a0.Canon) :
    (State.writeTier a0 a1 a2 a3).Canon := by
  cases a1 with
  | t1 => exact canon_towerPut _ _ _ h
  | t2 =>
    have hx := canon_ext h (Mem.wf_maskPut a0.ext a2 a3 h.ext_wf)
    exact canon_upd (canon_foldl hx fun _ _ ht => canon_xtSend _ _ _ _ ht) rfl rfl rfl rfl rfl rfl

theorem canon_updHalf (a0 : State) (h : a0.Canon) : (State.updHalf a0).Canon := by
  unfold State.updHalf
  repeat'
    first
    | with_reducible assumption
    | with_reducible refine canon_ite ?_ ?_
    | with_reducible refine canon_fset _ _ _ _ ?_
    | dsimp only
    | split
    | with_reducible refine canon_upd ?_ rfl rfl rfl rfl rfl rfl

theorem canon_recordEyes (a0 : State) (a1 : Nat) (a2 : List Nat) (h : a0.Canon) : (State.recordEyes a0 a1 a2).Canon := by
  unfold State.recordEyes
  repeat'
    first
    | with_reducible assumption
    | with_reducible refine canon_ite ?_ ?_
    | with_reducible refine canon_fset _ _ _ _ ?_
    | with_reducible refine canon_foldl ?_ (fun _ _ _ => ?_)
    | with_reducible refine canon_foldl_fst ?_ (fun _ _ _ => ?_)
    | with_reducible refine canon_pair (by assumption) ?_
    | dsimp only
    | split
    | with_reducible refine canon_upd ?_ rfl rfl rfl rfl rfl rfl

theorem canon_issue (a0 : State) (a1 : Nat) (a2 : List Nat) (h : a0.Canon) : (State.issue a0 a1 a2).Canon := by
  unfold State.issue
  repeat'
    first
    | with_reducible assumption
    | with_reducible refine canon_ite ?_ ?_
    | dsimp only
    | split
    | with_reducible refine canon_upd ?_ rfl rfl rfl rfl rfl rfl

theorem canon_issueRd (a0 : State) (a1 : Nat) (a2 : Nat) (h : a0.Canon) : (State.issueRd a0 a1 a2).Canon := by
  unfold State.issueRd
  repeat'
    first
    | with_reducible assumption
    | with_reducible refine canon_ite ?_ ?_
    | with_reducible refine canon_issue _ _ _ ?_
    | with_reducible refine canon_foldl ?_ (fun _ _ _ => ?_)
    | with_reducible refine canon_foldl_fst ?_ (fun _ _ _ => ?_)
    | with_reducible refine canon_pair (by assumption) ?_
    | dsimp only
    | split
    | with_reducible refine canon_upd ?_ rfl rfl rfl rfl rfl rfl

theorem canon_issueWr (a0 : State) (a1 : Nat) (a2 : Nat) (a3 : Nat → Bool) (h : a0.Canon) :
    (State.issueWr a0 a1 a2 a3).Canon := by
  unfold State.issueWr
  repeat'
    first
    | with_reducible assumption
    | with_reducible refine canon_ite ?_ ?_
    | with_reducible refine canon_issue _ _ _ ?_
    | with_reducible refine canon_foldl ?_ (fun _ _ _ => ?_)
    | with_reducible refine canon_foldl_fst ?_ (fun _ _ _ => ?_)
    | with_reducible refine canon_pair (by assumption) ?_
    | dsimp only
    | split
    | with_reducible refine canon_upd ?_ rfl rfl rfl rfl rfl rfl

theorem canon_refBank (a0 : State) (a1 : Nat) (a2 : List Nat) (h : a0.Canon) : (State.refBank a0 a1 a2).Canon := by
  unfold State.refBank
  repeat'
    first
    | with_reducible assumption
    | with_reducible refine canon_ite ?_ ?_
    | with_reducible refine canon_issue _ _ _ ?_
    | with_reducible refine canon_setBank _ _ _ ?_
    | with_reducible refine canon_recordEyes _ _ _ ?_
    | dsimp only
    | split
    | with_reducible refine canon_upd ?_ rfl rfl rfl rfl rfl rfl

theorem canon_planRefresh (a0 : State) (a1 : Nat) (a2 : List Nat) (h : a0.Canon) : (State.planRefresh a0 a1 a2).Canon := by
  unfold State.planRefresh
  repeat'
    first
    | with_reducible assumption
    | with_reducible refine canon_ite ?_ ?_
    | with_reducible refine canon_refBank _ _ _ ?_
    | with_reducible refine canon_setBank _ _ _ ?_
    | dsimp only
    | split
    | with_reducible refine canon_upd ?_ rfl rfl rfl rfl rfl rfl

theorem canon_setPlanRef (a0 : State) (a1 : List Nat) (h : a0.Canon) : (State.setPlanRef a0 a1).Canon := by
  unfold State.setPlanRef
  repeat'
    first
    | with_reducible assumption
    | with_reducible refine canon_ite ?_ ?_
    | with_reducible refine canon_fset _ _ _ _ ?_
    | with_reducible refine canon_foldl ?_ (fun _ _ _ => ?_)
    | with_reducible refine canon_foldl_fst ?_ (fun _ _ _ => ?_)
    | with_reducible refine canon_pair (by assumption) ?_
    | dsimp only
    | split
    | with_reducible refine canon_upd ?_ rfl rfl rfl rfl rfl rfl

theorem canon_enterSelfRef (a0 : State) (h : a0.Canon) : (State.enterSelfRef a0).Canon := by
  unfold State.enterSelfRef
  repeat'
    first
    | with_reducible assumption
    | with_reducible refine canon_ite ?_ ?_
    | with_reducible refine canon_set1 _ _ _ ?_
    | dsimp only
    | split
    | with_reducible refine canon_upd ?_ rfl rfl rfl rfl rfl rfl

theorem canon_leaveSelfRef (a0 : State) (h : a0.Canon) : (State.leaveSelfRef a0).Canon := by
  unfold State.leaveSelfRef
  repeat'
    first
    | with_reducible assumption
    | with_reducible refine canon_ite ?_ ?_
    | with_reducible refine canon_set0 _ _ _ ?_
    | dsimp only
    | split
    | with_reducible refine canon_upd ?_ rfl rfl rfl rfl rfl rfl

theorem canon_applyFuse (a0 : State) (a1 : Nat) (h : a0.Canon) : (State.applyFuse a0 a1).Canon := by
  unfold State.applyFuse
  repeat'
    first
    | with_reducible assumption
    | with_reducible refine canon_ite ?_ ?_
    | with_reducible refine canon_logErr _ _ ?_
    | with_reducible refine canon_irq _ _ _ ?_
    | with_reducible refine canon_bump _ _ _ _ ?_
    | dsimp only
    | split
    | with_reducible refine canon_upd ?_ rfl rfl rfl rfl rfl rfl

theorem canon_applyOrg (a0 : State) (a1 : Nat) (h : a0.Canon) : (State.applyOrg a0 a1).Canon := by
  unfold State.applyOrg
  repeat'
    first
    | with_reducible assumption
    | with_reducible refine canon_ite ?_ ?_
    | with_reducible refine canon_irq _ _ _ ?_
    | with_reducible refine canon_fset _ _ _ _ ?_
    | dsimp only
    | split
    | with_reducible refine canon_upd ?_ rfl rfl rfl rfl rfl rfl

theorem canon_orgTakeOver (a0 : State) (a1 : Nat) (a2 : Org) (h : a0.Canon) : (State.orgTakeOver a0 a1 a2).Canon := by
  unfold State.orgTakeOver
  refine canon_irq _ _ _ (canon_logErr _ _ (canon_tower h ?_))
  show (if a2.fill = true then _ else _ : Mem).wf = true
  split
  · exact Mem.wf_foldl _ (fun m _ hm => m.wf_putBad _ _ hm) _ _
      (Mem.wf_foldl _ (fun m _ hm => m.wf_put _ _ hm) _ _ (Mem.wf_filter _ _ _ h.tower_mem))
  · exact h.tower_mem

theorem canon_orgBoundary (a0 : State) (h : a0.Canon) : (State.orgBoundary a0).Canon := by
  unfold State.orgBoundary
  repeat'
    first
    | with_reducible assumption
    | with_reducible refine canon_ite ?_ ?_
    | with_reducible refine canon_orgTakeOver _ _ _ ?_
    | with_reducible refine canon_foldl ?_ (fun _ _ _ => ?_)
    | with_reducible refine canon_foldl_fst ?_ (fun _ _ _ => ?_)
    | with_reducible refine canon_pair (by assumption) ?_
    | dsimp only
    | split
    | with_reducible refine canon_upd ?_ rfl rfl rfl rfl rfl rfl

theorem canon_critHalt (a0 : State) (a1 : Int) (h : a0.Canon) : (State.critHalt a0 a1).Canon := by
  unfold State.critHalt
  repeat'
    first
    | with_reducible assumption
    | with_reducible refine canon_ite ?_ ?_
    | with_reducible refine canon_irq _ _ _ ?_
    | with_reducible refine canon_logErr _ _ ?_
    | with_reducible refine canon_set1 _ _ _ ?_
    | with_reducible refine canon_setPlanRef _ _ ?_
    | dsimp only
    | split
    | with_reducible refine canon_upd ?_ rfl rfl rfl rfl rfl rfl

theorem canon_sensorFault (a0 : State) (a1 : Nat) (h : a0.Canon) : (State.sensorFault a0 a1).Canon := by
  unfold State.sensorFault
  repeat'
    first
    | with_reducible assumption
    | with_reducible refine canon_ite ?_ ?_
    | with_reducible refine canon_wr _ _ _ _ ?_
    | dsimp only
    | split
    | with_reducible refine canon_upd ?_ rfl rfl rfl rfl rfl rfl

theorem canon_sensorLog (a0 : State) (a1 : Nat) (h : a0.Canon) : (State.sensorLog a0 a1).Canon := by
  unfold State.sensorLog
  repeat'
    first
    | with_reducible assumption
    | with_reducible refine canon_ite ?_ ?_
    | with_reducible refine canon_irq _ _ _ ?_
    | with_reducible refine canon_logErr _ _ ?_
    | dsimp only
    | split
    | with_reducible refine canon_upd ?_ rfl rfl rfl rfl rfl rfl

theorem canon_warnStep (a0 : State) (a1 : Int) (h : a0.Canon) : (State.warnStep a0 a1).Canon := by
  unfold State.warnStep
  repeat'
    first
    | with_reducible assumption
    | with_reducible refine canon_ite ?_ ?_
    | with_reducible refine canon_irq _ _ _ ?_
    | with_reducible refine canon_logErr _ _ ?_
    | with_reducible refine canon_bump _ _ _ _ ?_
    | dsimp only
    | split
    | with_reducible refine canon_upd ?_ rfl rfl rfl rfl rfl rfl

theorem canon_throttleStep (a0 : State) (a1 : Int) (h : a0.Canon) : (State.throttleStep a0 a1).Canon := by
  unfold State.throttleStep
  repeat'
    first
    | with_reducible assumption
    | with_reducible refine canon_ite ?_ ?_
    | with_reducible refine canon_fset _ _ _ _ ?_
    | with_reducible refine canon_set0 _ _ _ ?_
    | with_reducible refine canon_irq _ _ _ ?_
    | with_reducible refine canon_logErr _ _ ?_
    | with_reducible refine canon_set1 _ _ _ ?_
    | dsimp only
    | split
    | with_reducible refine canon_upd ?_ rfl rfl rfl rfl rfl rfl

theorem canon_sensors (a0 : State) (a1 : List (Option Int)) (h : a0.Canon) : (State.sensors a0 a1).Canon := by
  unfold State.sensors
  repeat'
    first
    | with_reducible assumption
    | with_reducible refine canon_ite ?_ ?_
    | with_reducible refine canon_fset _ _ _ _ ?_
    | with_reducible refine canon_sensorFault _ _ ?_
    | with_reducible refine canon_foldl ?_ (fun _ _ _ => ?_)
    | with_reducible refine canon_foldl_fst ?_ (fun _ _ _ => ?_)
    | with_reducible refine canon_pair (by assumption) ?_
    | dsimp only
    | split
    | with_reducible refine canon_upd ?_ rfl rfl rfl rfl rfl rfl

theorem canon_showTemps (a0 : State) (a1 : Nat) (a2 : Int) (h : a0.Canon) : (State.showTemps a0 a1 a2).Canon := by
  unfold State.showTemps
  repeat'
    first
    | with_reducible assumption
    | with_reducible refine canon_ite ?_ ?_
    | with_reducible refine canon_fset _ _ _ _ ?_
    | dsimp only
    | split
    | with_reducible refine canon_upd ?_ rfl rfl rfl rfl rfl rfl

theorem canon_tempSample (a0 : State) (a1 : List (Option Int)) (h : a0.Canon) : (State.tempSample a0 a1).Canon := by
  unfold State.tempSample
  repeat'
    first
    | with_reducible assumption
    | with_reducible refine canon_ite ?_ ?_
    | with_reducible refine canon_updHalf _ ?_
    | with_reducible refine canon_sensorLog _ _ ?_
    | with_reducible refine canon_critHalt _ _ ?_
    | with_reducible refine canon_showTemps _ _ _ ?_
    | with_reducible refine canon_warnStep _ _ ?_
    | with_reducible refine canon_throttleStep _ _ ?_
    | with_reducible refine canon_sensors _ _ ?_
    | with_reducible refine canon_bump _ _ _ _ ?_
    | with_reducible refine canon_foldl ?_ (fun _ _ _ => ?_)
    | with_reducible refine canon_foldl_fst ?_ (fun _ _ _ => ?_)
    | with_reducible refine canon_pair (by assumption) ?_
    | dsimp only
    | split
    | with_reducible refine canon_upd ?_ rfl rfl rfl rfl rfl rfl

theorem canon_critClear (a0 : State) (h : a0.Canon) : (State.critClear a0).Canon := by
  unfold State.critClear
  repeat'
    first
    | with_reducible assumption
    | with_reducible refine canon_ite ?_ ?_
    | with_reducible refine canon_set0 _ _ _ ?_
    | with_reducible refine canon_updHalf _ ?_
    | dsimp only
    | split
    | with_reducible refine canon_upd ?_ rfl rfl rfl rfl rfl rfl

theorem canon_probeGo (a0 : State) (a1 : Nat) (h : a0.Canon) : (State.probeGo a0 a1).Canon := by
  unfold State.probeGo
  repeat'
    first
    | with_reducible assumption
    | with_reducible refine canon_ite ?_ ?_
    | with_reducible refine canon_set1 _ _ _ ?_
    | dsimp only
    | split
    | with_reducible refine canon_upd ?_ rfl rfl rfl rfl rfl rfl

theorem canon_probeDone (a0 : State) (a1 : Nat) (h : a0.Canon) : (State.probeDone a0 a1).Canon := by
  unfold State.probeDone
  repeat'
    first
    | with_reducible assumption
    | with_reducible refine canon_ite ?_ ?_
    | with_reducible refine canon_logErr _ _ ?_
    | with_reducible refine canon_irq _ _ _ ?_
    | with_reducible refine canon_fset _ _ _ _ ?_
    | with_reducible refine canon_set0 _ _ _ ?_
    | with_reducible refine canon_set1 _ _ _ ?_
    | dsimp only
    | split
    | with_reducible refine canon_upd ?_ rfl rfl rfl rfl rfl rfl

end Sys2Proof.Machine
end

