-- ==== Sys2Proof/Laws/Canon/Coding.lean ====
section
/-! SUPPORT. The operations of `Coding.lean` keep the canonical form of the state. -/

namespace Sys2Proof.Machine

open Sys2Proof

theorem canon_tagPut (a0 : State) (a1 : Nat) (a2 : Nat) (a3 : TagLine) (h : a0.Canon) : (State.tagPut a0 a1 a2 a3).Canon := by
  unfold State.tagPut
  repeat'
    first
    | with_reducible assumption
    | with_reducible refine canon_ite ?_ ?_
    | with_reducible refine canon_writeTier _ _ _ _ ?_
    | with_reducible refine canon_foldl ?_ (fun _ _ _ => ?_)
    | with_reducible refine canon_foldl_fst ?_ (fun _ _ _ => ?_)
    | with_reducible refine canon_pair (by assumption) ?_
    | dsimp only
    | split
    | with_reducible refine canon_upd ?_ rfl rfl rfl rfl rfl rfl

theorem canon_report (a0 : State) (a1 : Nat) (a2 : Nat) (a3 : Nat) (a4 : Nat) (a5 : Nat) (a6 : Nat) (h : a0.Canon) :
    (State.report a0 a1 a2 a3 a4 a5 a6).Canon := by
  unfold State.report
  repeat'
    first
    | with_reducible assumption
    | with_reducible refine canon_ite ?_ ?_
    | with_reducible refine canon_irq _ _ _ ?_
    | with_reducible refine canon_writeTier _ _ _ _ ?_
    | with_reducible refine canon_wr _ _ _ _ ?_
    | dsimp only
    | split
    | with_reducible refine canon_upd ?_ rfl rfl rfl rfl rfl rfl

theorem canon_dropGather (a0 : State) (a1 : Nat) (a2 : Nat) (h : a0.Canon) : (State.dropGather a0 a1 a2).Canon := by
  unfold State.dropGather
  repeat'
    first
    | with_reducible assumption
    | with_reducible refine canon_ite ?_ ?_
    | dsimp only
    | split
    | with_reducible refine canon_upd ?_ rfl rfl rfl rfl rfl rfl

theorem canon_setLeft (a0 : State) (a1 : Nat) (a2 : Nat) (h : a0.Canon) : (State.setLeft a0 a1 a2).Canon := by
  unfold State.setLeft
  repeat'
    first
    | with_reducible assumption
    | with_reducible refine canon_ite ?_ ?_
    | with_reducible refine canon_logErr _ _ ?_
    | with_reducible refine canon_set0 _ _ _ ?_
    | with_reducible refine canon_irq _ _ _ ?_
    | with_reducible refine canon_fset _ _ _ _ ?_
    | dsimp only
    | split
    | with_reducible refine canon_upd ?_ rfl rfl rfl rfl rfl rfl

theorem canon_rowDone (a0 : State) (a1 : Nat) (h : a0.Canon) : (State.rowDone a0 a1).Canon := by
  unfold State.rowDone
  repeat'
    first
    | with_reducible assumption
    | with_reducible refine canon_ite ?_ ?_
    | with_reducible refine canon_setLeft _ _ _ ?_
    | dsimp only
    | split
    | with_reducible refine canon_upd ?_ rfl rfl rfl rfl rfl rfl

theorem canon_recount (a0 : State) (a1 : Nat) (h : a0.Canon) : (State.recount a0 a1).Canon := by
  unfold State.recount
  repeat'
    first
    | with_reducible assumption
    | with_reducible refine canon_ite ?_ ?_
    | with_reducible refine canon_setLeft _ _ _ ?_
    | dsimp only
    | split
    | with_reducible refine canon_upd ?_ rfl rfl rfl rfl rfl rfl

theorem canon_escalateAs (a0 : State) (a1 : Nat) (a2 : Nat) (a3 : Nat) (a4 : TagLine) (h : a0.Canon) :
    (State.escalateAs a0 a1 a2 a3 a4).Canon := by
  unfold State.escalateAs
  repeat'
    first
    | with_reducible assumption
    | with_reducible refine canon_ite ?_ ?_
    | with_reducible refine canon_rowDone _ _ ?_
    | with_reducible refine canon_bump _ _ _ _ ?_
    | with_reducible refine canon_irq _ _ _ ?_
    | with_reducible refine canon_report _ _ _ _ _ _ _ ?_
    | with_reducible refine canon_logErr _ _ ?_
    | with_reducible refine canon_dropGather _ _ _ ?_
    | with_reducible refine canon_tagPut _ _ _ _ ?_
    | dsimp only
    | split
    | with_reducible refine canon_upd ?_ rfl rfl rfl rfl rfl rfl

theorem canon_tagRead (a0 : State) (a1 : Nat) (a2 : Nat) (h : a0.Canon) : (State.tagRead a0 a1 a2).1.Canon := by
  unfold State.tagRead
  repeat'
    first
    | with_reducible assumption
    | with_reducible refine canon_ite ?_ ?_
    | with_reducible refine canon_recount _ _ ?_
    | with_reducible refine canon_escalateAs _ _ _ _ _ ?_
    | with_reducible refine canon_tagPut _ _ _ _ ?_
    | with_reducible refine canon_freeBytes _ _ ?_
    | with_reducible refine canon_writeTier _ _ _ _ ?_
    | with_reducible refine canon_logErr _ _ ?_
    | with_reducible refine canon_foldl ?_ (fun _ _ _ => ?_)
    | with_reducible refine canon_foldl_fst ?_ (fun _ _ _ => ?_)
    | with_reducible refine canon_pair (by assumption) ?_
    | with_reducible refine canon_pair_snd (by assumption) ?_
    | dsimp only
    | split
    | with_reducible refine canon_upd ?_ rfl rfl rfl rfl rfl rfl

theorem canon_escalate (a0 : State) (a1 : Nat) (a2 : Nat) (a3 : Nat) (h : a0.Canon) : (State.escalate a0 a1 a2 a3).Canon := by
  unfold State.escalate
  repeat'
    first
    | with_reducible assumption
    | with_reducible refine canon_ite ?_ ?_
    | with_reducible refine canon_escalateAs _ _ _ _ _ ?_
    | with_reducible refine canon_tagRead _ _ _ ?_
    | with_reducible refine canon_pair (by assumption) ?_
    | dsimp only
    | split
    | with_reducible refine canon_upd ?_ rfl rfl rfl rfl rfl rfl

theorem canon_tagFlags (a0 : State) (a1 : Nat) (a2 : Nat) (a3 : Nat) (h : a0.Canon) : (State.tagFlags a0 a1 a2 a3).Canon := by
  unfold State.tagFlags
  repeat'
    first
    | with_reducible assumption
    | with_reducible refine canon_ite ?_ ?_
    | with_reducible refine canon_tagPut _ _ _ _ ?_
    | with_reducible refine canon_tagRead _ _ _ ?_
    | with_reducible refine canon_pair (by assumption) ?_
    | dsimp only
    | split
    | with_reducible refine canon_upd ?_ rfl rfl rfl rfl rfl rfl

theorem canon_offer (a0 : State) (a1 : Txn) (h : a0.Canon) : (State.offer a0 a1).Canon := by
  unfold State.offer
  repeat'
    first
    | with_reducible assumption
    | with_reducible refine canon_ite ?_ ?_
    | dsimp only
    | split
    | with_reducible refine canon_upd ?_ rfl rfl rfl rfl rfl rfl

theorem canon_sendMsg (a0 : State) (a1 : Nat) (a2 : Nat) (a3 : List Byte) (a4 : Option Nat) (a5 : Bool) (h : a0.Canon) :
    (State.sendMsg a0 a1 a2 a3 a4 a5).Canon := by
  unfold State.sendMsg
  repeat'
    first
    | with_reducible assumption
    | with_reducible refine canon_ite ?_ ?_
    | with_reducible refine canon_offer _ _ ?_
    | dsimp only
    | split
    | with_reducible refine canon_upd ?_ rfl rfl rfl rfl rfl rfl

theorem canon_sendRole (a0 : State) (a1 : Nat) (a2 : Nat) (a3 : List Byte) (a4 : Bool) (h : a0.Canon) :
    (State.sendRole a0 a1 a2 a3 a4).Canon := by
  unfold State.sendRole
  repeat'
    first
    | with_reducible assumption
    | with_reducible refine canon_ite ?_ ?_
    | with_reducible refine canon_sendMsg _ _ _ _ _ _ ?_
    | dsimp only
    | split
    | with_reducible refine canon_upd ?_ rfl rfl rfl rfl rfl rfl

theorem canon_updCdj (a0 : State) (h : a0.Canon) : (State.updCdj a0).Canon := by
  unfold State.updCdj
  repeat'
    first
    | with_reducible assumption
    | with_reducible refine canon_ite ?_ ?_
    | with_reducible refine canon_wr64 _ _ _ _ ?_
    | with_reducible refine canon_fset _ _ _ _ ?_
    | dsimp only
    | split
    | with_reducible refine canon_upd ?_ rfl rfl rfl rfl rfl rfl

theorem canon_setOpen (a0 : State) (a1 : List Delta) (h : a0.Canon) : (State.setOpen a0 a1).Canon := by
  unfold State.setOpen
  repeat'
    first
    | with_reducible assumption
    | with_reducible refine canon_ite ?_ ?_
    | with_reducible refine canon_updCdj _ ?_
    | dsimp only
    | split
    | with_reducible refine canon_upd ?_ rfl rfl rfl rfl rfl rfl

theorem canon_sendSeal (a0 : State) (a1 : Nat) (a2 : Nat) (a3 : Nat) (a4 : Nat) (h : a0.Canon) :
    (State.sendSeal a0 a1 a2 a3 a4).Canon := by
  unfold State.sendSeal
  repeat'
    first
    | with_reducible assumption
    | with_reducible refine canon_ite ?_ ?_
    | with_reducible refine canon_sendRole _ _ _ _ _ ?_
    | dsimp only
    | split
    | with_reducible refine canon_upd ?_ rfl rfl rfl rfl rfl rfl

theorem canon_setGrpSeal (a0 : State) (a1 : Nat) (a2 : Nat) (h : a0.Canon) : (State.setGrpSeal a0 a1 a2).Canon := by
  unfold State.setGrpSeal
  repeat'
    first
    | with_reducible assumption
    | with_reducible refine canon_ite ?_ ?_
    | with_reducible refine canon_wr64 _ _ _ _ ?_
    | dsimp only
    | split
    | with_reducible refine canon_upd ?_ rfl rfl rfl rfl rfl rfl

theorem canon_formGrpSeal (a0 : State) (a1 : Nat) (h : a0.Canon) : (State.formGrpSeal a0 a1).Canon := by
  unfold State.formGrpSeal
  repeat'
    first
    | with_reducible assumption
    | with_reducible refine canon_ite ?_ ?_
    | with_reducible refine canon_sendSeal _ _ _ _ _ ?_
    | with_reducible refine canon_setGrpSeal _ _ _ ?_
    | with_reducible refine canon_foldl ?_ (fun _ _ _ => ?_)
    | with_reducible refine canon_foldl_fst ?_ (fun _ _ _ => ?_)
    | with_reducible refine canon_pair (by assumption) ?_
    | dsimp only
    | split
    | with_reducible refine canon_upd ?_ rfl rfl rfl rfl rfl rfl

theorem canon_takeMbrSeal (a0 : State) (a1 : Nat) (a2 : Nat) (a3 : Nat) (h : a0.Canon) :
    (State.takeMbrSeal a0 a1 a2 a3).Canon := by
  unfold State.takeMbrSeal
  repeat'
    first
    | with_reducible assumption
    | with_reducible refine canon_ite ?_ ?_
    | with_reducible refine canon_formGrpSeal _ _ ?_
    | dsimp only
    | split
    | with_reducible refine canon_upd ?_ rfl rfl rfl rfl rfl rfl

theorem canon_tellSeal (a0 : State) (a1 : Nat) (h : a0.Canon) : (State.tellSeal a0 a1).Canon := by
  unfold State.tellSeal
  repeat'
    first
    | with_reducible assumption
    | with_reducible refine canon_ite ?_ ?_
    | with_reducible refine canon_sendSeal _ _ _ _ _ ?_
    | with_reducible refine canon_formGrpSeal _ _ ?_
    | dsimp only
    | split
    | with_reducible refine canon_upd ?_ rfl rfl rfl rfl rfl rfl

theorem canon_updSeal (a0 : State) (a1 : Nat) (h : a0.Canon) : (State.updSeal a0 a1).Canon := by
  unfold State.updSeal
  repeat'
    first
    | with_reducible assumption
    | with_reducible refine canon_ite ?_ ?_
    | with_reducible refine canon_formGrpSeal _ _ ?_
    | with_reducible refine canon_tellSeal _ _ ?_
    | with_reducible refine canon_wr64 _ _ _ _ ?_
    | with_reducible refine canon_foldl ?_ (fun _ _ _ => ?_)
    | with_reducible refine canon_foldl_fst ?_ (fun _ _ _ => ?_)
    | with_reducible refine canon_pair (by assumption) ?_
    | dsimp only
    | split
    | with_reducible refine canon_upd ?_ rfl rfl rfl rfl rfl rfl

theorem canon_updSeals (a0 : State) (h : a0.Canon) : (State.updSeals a0).Canon := by
  unfold State.updSeals
  repeat'
    first
    | with_reducible assumption
    | with_reducible refine canon_ite ?_ ?_
    | with_reducible refine canon_updSeal _ _ ?_
    | with_reducible refine canon_foldl ?_ (fun _ _ _ => ?_)
    | with_reducible refine canon_foldl_fst ?_ (fun _ _ _ => ?_)
    | with_reducible refine canon_pair (by assumption) ?_
    | dsimp only
    | split
    | with_reducible refine canon_upd ?_ rfl rfl rfl rfl rfl rfl

theorem canon_actingCheck (a0 : State) (a1 : Nat) (h : a0.Canon) : (State.actingCheck a0 a1).Canon := by
  unfold State.actingCheck
  repeat'
    first
    | with_reducible assumption
    | with_reducible refine canon_ite ?_ ?_
    | with_reducible refine canon_tellSeal _ _ ?_
    | dsimp only
    | split
    | with_reducible refine canon_upd ?_ rfl rfl rfl rfl rfl rfl

theorem canon_drainedCheck (a0 : State) (a1 : Nat) (h : a0.Canon) : (State.drainedCheck a0 a1).Canon := by
  unfold State.drainedCheck
  repeat'
    first
    | with_reducible assumption
    | with_reducible refine canon_ite ?_ ?_
    | with_reducible refine canon_fset _ _ _ _ ?_
    | with_reducible refine canon_irq _ _ _ ?_
    | dsimp only
    | split
    | with_reducible refine canon_upd ?_ rfl rfl rfl rfl rfl rfl

theorem canon_closeDone (a0 : State) (h : a0.Canon) : (State.closeDone a0).Canon := by
  unfold State.closeDone
  repeat'
    first
    | with_reducible assumption
    | with_reducible refine canon_ite ?_ ?_
    | with_reducible refine canon_updSeals _ ?_
    | with_reducible refine canon_drainedCheck _ _ ?_
    | with_reducible refine canon_setOpen _ _ ?_
    | with_reducible refine canon_foldl ?_ (fun _ _ _ => ?_)
    | with_reducible refine canon_foldl_fst ?_ (fun _ _ _ => ?_)
    | with_reducible refine canon_pair (by assumption) ?_
    | dsimp only
    | split
    | with_reducible refine canon_upd ?_ rfl rfl rfl rfl rfl rfl

theorem canon_openDelta (a0 : State) (a1 : Nat) (a2 : Nat) (a3 : Nat) (a4 : Nat) (a5 : Bool × Bool) (a6 : List (Nat × List Byte)) (h : a0.Canon) :
    ∀ t, (State.openDelta a0 a1 a2 a3 a4 a5 a6) = some t → t.1.Canon := by
  intro t ht
  unfold State.openDelta at ht
  dsimp only at ht
  repeat' split at ht
  all_goals cases ht
  repeat'
    first
    | with_reducible assumption
    | with_reducible refine canon_ite ?_ ?_
    | with_reducible refine canon_irq _ _ _ ?_
    | with_reducible refine canon_event _ _ _ _ ?_
    | with_reducible refine canon_setOpen _ _ ?_
    | dsimp only
    | split
    | with_reducible refine canon_upd ?_ rfl rfl rfl rfl rfl rfl

theorem canon_fullStall (a0 : State) (a1 : Who) (a2 : Nat) (a3 : Nat) (h : a0.Canon) : (State.fullStall a0 a1 a2 a3).Canon := by
  unfold State.fullStall
  repeat'
    first
    | with_reducible assumption
    | with_reducible refine canon_ite ?_ ?_
    | with_reducible refine canon_irq _ _ _ ?_
    | with_reducible refine canon_bump _ _ _ _ ?_
    | dsimp only
    | split
    | with_reducible refine canon_upd ?_ rfl rfl rfl rfl rfl rfl

theorem canon_fullOver (a0 : State) (a1 : Who) (a2 : Nat) (h : a0.Canon) : (State.fullOver a0 a1 a2).Canon := by
  unfold State.fullOver
  repeat'
    first
    | with_reducible assumption
    | with_reducible refine canon_ite ?_ ?_
    | dsimp only
    | split
    | with_reducible refine canon_upd ?_ rfl rfl rfl rfl rfl rfl

theorem canon_sendReseeds (a0 : State) (a1 : Nat) (a2 : Nat) (h : a0.Canon) : (State.sendReseeds a0 a1 a2).Canon := by
  unfold State.sendReseeds
  repeat'
    first
    | with_reducible assumption
    | with_reducible refine canon_ite ?_ ?_
    | with_reducible refine canon_sendRole _ _ _ _ _ ?_
    | with_reducible refine canon_foldl ?_ (fun _ _ _ => ?_)
    | with_reducible refine canon_foldl_fst ?_ (fun _ _ _ => ?_)
    | with_reducible refine canon_pair (by assumption) ?_
    | dsimp only
    | split
    | with_reducible refine canon_upd ?_ rfl rfl rfl rfl rfl rfl

theorem canon_codedWrite (a0 : State) (a1 : Who) (a2 : Nat) (a3 : Nat) (a4 : Nat) (a5 : Nat) (a6 : List (Option Byte)) (h : a0.Canon) :
    (State.codedWrite a0 a1 a2 a3 a4 a5 a6).1.Canon := by
  unfold State.codedWrite
  repeat'
    first
    | with_reducible assumption
    | with_reducible refine canon_ite ?_ ?_
    | with_reducible refine canon_fullStall _ _ _ _ ?_
    | with_reducible refine canon_some_pair (by assumption) (canon_openDelta _ _ _ _ _ _ _ ?_)
    | with_reducible refine canon_readTier _ _ _ _ ?_
    | with_reducible refine canon_sendReseeds _ _ _ ?_
    | with_reducible refine canon_tagPut _ _ _ _ ?_
    | with_reducible refine canon_tagRead _ _ _ ?_
    | with_reducible refine canon_writeTier _ _ _ _ ?_
    | with_reducible refine canon_fullOver _ _ _ ?_
    | with_reducible refine canon_pair (by assumption) ?_
    | dsimp only
    | split
    | with_reducible refine canon_upd ?_ rfl rfl rfl rfl rfl rfl

theorem canon_codedRead (a0 : State) (a1 : Nat) (a2 : Nat) (a3 : Nat) (a4 : Nat) (h : a0.Canon) :
    (State.codedRead a0 a1 a2 a3 a4).1.Canon := by
  unfold State.codedRead
  repeat'
    first
    | with_reducible assumption
    | with_reducible refine canon_ite ?_ ?_
    | with_reducible refine canon_readTier _ _ _ _ ?_
    | with_reducible refine canon_tagRead _ _ _ ?_
    | with_reducible refine canon_pair (by assumption) ?_
    | dsimp only
    | split
    | with_reducible refine canon_upd ?_ rfl rfl rfl rfl rfl rfl

end Sys2Proof.Machine
end

