-- ==== Sys2Proof/Laws/Canon/FabOps.lean ====
section
/-! SUPPORT. The operations of `FabOps.lean` keep the canonical form of the state. -/

namespace Sys2Proof.Machine

open Sys2Proof

theorem canon_offerReq (a0 : State) (a1 : ReqUse) (a2 : Nat) (a3 : Nat) (a4 : Nat) (a5 : Nat) (a6 : Nat) (a7 : Nat) (a8 : Nat) (a9 : List Byte) (a10 : Option Nat) (a11 : Bool) (a12 : Bool) (h : a0.Canon) :
    (State.offerReq a0 a1 a2 a3 a4 a5 a6 a7 a8 a9 a10 a11 a12).Canon := by
  unfold State.offerReq
  repeat'
    first
    | with_reducible assumption
    | with_reducible refine canon_ite ?_ ?_
    | with_reducible refine canon_offer _ _ ?_
    | dsimp only
    | split
    | with_reducible refine canon_upd ?_ rfl rfl rfl rfl rfl rfl

theorem canon_creditCycles (a0 : State) (a1 : Nat) (a2 : Nat) (h : a0.Canon) : (State.creditCycles a0 a1 a2).Canon := by
  unfold State.creditCycles
  repeat'
    first
    | with_reducible assumption
    | with_reducible refine canon_ite ?_ ?_
    | with_reducible refine canon_bump _ _ _ _ ?_
    | with_reducible refine canon_event _ _ _ _ ?_
    | with_reducible refine canon_foldl ?_ (fun _ _ _ => ?_)
    | with_reducible refine canon_foldl_fst ?_ (fun _ _ _ => ?_)
    | with_reducible refine canon_pair (by assumption) ?_
    | dsimp only
    | split
    | with_reducible refine canon_upd ?_ rfl rfl rfl rfl rfl rfl

theorem canon_drrCharge (a0 : State) (a1 : Nat) (h : a0.Canon) : (State.drrCharge a0 a1).Canon := by
  unfold State.drrCharge
  repeat'
    first
    | with_reducible assumption
    | with_reducible refine canon_ite ?_ ?_
    | with_reducible refine canon_foldl ?_ (fun _ _ _ => ?_)
    | with_reducible refine canon_foldl_fst ?_ (fun _ _ _ => ?_)
    | with_reducible refine canon_pair (by assumption) ?_
    | dsimp only
    | split
    | with_reducible refine canon_upd ?_ rfl rfl rfl rfl rfl rfl

end Sys2Proof.Machine
end

