-- ==== Sys2Proof/Laws/Canon/Groups.lean ====
section
/-! SUPPORT. The operations of `Groups.lean` keep the canonical form of the state. -/

namespace Sys2Proof.Machine

open Sys2Proof

theorem canon_zeroSlots (a0 : State) (a1 : Tier) (a2 : Nat) (a3 : Nat) (h : a0.Canon) : (State.zeroSlots a0 a1 a2 a3).Canon := by
  cases a1 with
  | t1 => exact canon_secsWritten _ _ _ _ (canon_mirrorFill _ _ _ (canon_tower h (Mem.wf_zero _ _ _ h.tower_mem)))
  | t2 => exact canon_xtStore _ _ (canon_ext_pages h (Mem.wf_zero a0.ext _ _ h.ext_wf))

theorem canon_slotFresh (a0 : State) (a1 : Nat) (h : a0.Canon) : (State.slotFresh a0 a1).Canon := by
  unfold State.slotFresh
  repeat'
    first
    | with_reducible assumption
    | with_reducible refine canon_ite ?_ ?_
    | with_reducible refine canon_fset _ _ _ _ ?_
    | dsimp only
    | split
    | with_reducible refine canon_upd ?_ rfl rfl rfl rfl rfl rfl

theorem canon_setBusy (a0 : State) (a1 : Nat) (a2 : SlotBusy) (h : a0.Canon) : (State.setBusy a0 a1 a2).Canon := by
  unfold State.setBusy
  repeat'
    first
    | with_reducible assumption
    | with_reducible refine canon_ite ?_ ?_
    | with_reducible refine canon_set1 _ _ _ ?_
    | dsimp only
    | split
    | with_reducible refine canon_upd ?_ rfl rfl rfl rfl rfl rfl

theorem canon_endBusy (a0 : State) (a1 : Nat) (h : a0.Canon) : (State.endBusy a0 a1).Canon := by
  unfold State.endBusy
  repeat'
    first
    | with_reducible assumption
    | with_reducible refine canon_ite ?_ ?_
    | with_reducible refine canon_set0 _ _ _ ?_
    | dsimp only
    | split
    | with_reducible refine canon_upd ?_ rfl rfl rfl rfl rfl rfl

theorem canon_setSlotState (a0 : State) (a1 : Nat) (a2 : Nat) (h : a0.Canon) : (State.setSlotState a0 a1 a2).Canon := by
  unfold State.setSlotState
  repeat'
    first
    | with_reducible assumption
    | with_reducible refine canon_ite ?_ ?_
    | with_reducible refine canon_fset _ _ _ _ ?_
    | with_reducible refine canon_foldl ?_ (fun _ _ _ => ?_)
    | with_reducible refine canon_foldl_fst ?_ (fun _ _ _ => ?_)
    | with_reducible refine canon_pair (by assumption) ?_
    | dsimp only
    | split
    | with_reducible refine canon_upd ?_ rfl rfl rfl rfl rfl rfl

theorem canon_installed (a0 : State) (a1 : Nat) (h : a0.Canon) : (State.installed a0 a1).Canon := by
  unfold State.installed
  repeat'
    first
    | with_reducible assumption
    | with_reducible refine canon_ite ?_ ?_
    | with_reducible refine canon_irq _ _ _ ?_
    | with_reducible refine canon_wr64 _ _ _ _ ?_
    | with_reducible refine canon_setSlotState _ _ _ ?_
    | with_reducible refine canon_endBusy _ _ ?_
    | dsimp only
    | split
    | with_reducible refine canon_upd ?_ rfl rfl rfl rfl rfl rfl

theorem canon_markPending (a0 : State) (a1 : Nat) (h : a0.Canon) : (State.markPending a0 a1).Canon := by
  unfold State.markPending
  repeat'
    first
    | with_reducible assumption
    | with_reducible refine canon_ite ?_ ?_
    | with_reducible refine canon_tagPut _ _ _ _ ?_
    | with_reducible refine canon_zeroSlots _ _ _ _ ?_
    | with_reducible refine canon_foldl ?_ (fun _ _ _ => ?_)
    | with_reducible refine canon_foldl_fst ?_ (fun _ _ _ => ?_)
    | with_reducible refine canon_pair (by assumption) ?_
    | dsimp only
    | split
    | with_reducible refine canon_upd ?_ rfl rfl rfl rfl rfl rfl

theorem canon_install (a0 : State) (a1 : Nat) (h : a0.Canon) : (State.install a0 a1).Canon := by
  unfold State.install
  repeat'
    first
    | with_reducible assumption
    | with_reducible refine canon_ite ?_ ?_
    | with_reducible refine canon_zeroSlots _ _ _ _ ?_
    | with_reducible refine canon_markPending _ _ ?_
    | with_reducible refine canon_wr _ _ _ _ ?_
    | with_reducible refine canon_setSlotState _ _ _ ?_
    | with_reducible refine canon_setBusy _ _ _ ?_
    | with_reducible refine canon_slotFresh _ _ ?_
    | with_reducible refine canon_irq _ _ _ ?_
    | with_reducible refine canon_fset _ _ _ _ ?_
    | dsimp only
    | split
    | with_reducible refine canon_upd ?_ rfl rfl rfl rfl rfl rfl

theorem canon_countPending (a0 : State) (a1 : Nat) (h : a0.Canon) : (State.countPending a0 a1).Canon := by
  unfold State.countPending
  repeat'
    first
    | with_reducible assumption
    | with_reducible refine canon_ite ?_ ?_
    | with_reducible refine canon_fset _ _ _ _ ?_
    | dsimp only
    | split
    | with_reducible refine canon_upd ?_ rfl rfl rfl rfl rfl rfl

theorem canon_dissolve (a0 : State) (a1 : Nat) (h : a0.Canon) : (State.dissolve a0 a1).Canon := by
  unfold State.dissolve
  repeat'
    first
    | with_reducible assumption
    | with_reducible refine canon_ite ?_ ?_
    | with_reducible refine canon_updCdj _ ?_
    | with_reducible refine canon_updSeals _ ?_
    | with_reducible refine canon_set0 _ _ _ ?_
    | with_reducible refine canon_slotFresh _ _ ?_
    | with_reducible refine canon_endBusy _ _ ?_
    | with_reducible refine canon_setSlotState _ _ _ ?_
    | dsimp only
    | split
    | with_reducible refine canon_upd ?_ rfl rfl rfl rfl rfl rfl

theorem canon_emptyDrained (a0 : State) (h : a0.Canon) : (State.emptyDrained a0).Canon := by
  unfold State.emptyDrained
  repeat'
    first
    | with_reducible assumption
    | with_reducible refine canon_ite ?_ ?_
    | with_reducible refine canon_dissolve _ _ ?_
    | with_reducible refine canon_foldl ?_ (fun _ _ _ => ?_)
    | with_reducible refine canon_foldl_fst ?_ (fun _ _ _ => ?_)
    | with_reducible refine canon_pair (by assumption) ?_
    | dsimp only
    | split
    | with_reducible refine canon_upd ?_ rfl rfl rfl rfl rfl rfl

theorem canon_nextSeq (a0 : State) (a1 : Nat) (a2 : Nat) (h : a0.Canon) : (State.nextSeq a0 a1 a2).2.Canon := by
  unfold State.nextSeq
  repeat'
    first
    | with_reducible assumption
    | with_reducible refine canon_ite ?_ ?_
    | dsimp only
    | split
    | with_reducible refine canon_upd ?_ rfl rfl rfl rfl rfl rfl

theorem canon_sendDelta (a0 : State) (a1 : Delta) (a2 : Ack) (a3 : Nat) (a4 : Bool) (h : a0.Canon) :
    (State.sendDelta a0 a1 a2 a3 a4).Canon := by
  unfold State.sendDelta
  repeat'
    first
    | with_reducible assumption
    | with_reducible refine canon_ite ?_ ?_
    | with_reducible refine canon_sendRole _ _ _ _ _ ?_
    | dsimp only
    | split
    | with_reducible refine canon_upd ?_ rfl rfl rfl rfl rfl rfl

theorem canon_setDelta (a0 : State) (a1 : Nat) (a2 : Delta) (h : a0.Canon) : (State.setDelta a0 a1 a2).Canon := by
  unfold State.setDelta
  repeat'
    first
    | with_reducible assumption
    | with_reducible refine canon_ite ?_ ?_
    | with_reducible refine canon_setOpen _ _ ?_
    | dsimp only
    | split
    | with_reducible refine canon_upd ?_ rfl rfl rfl rfl rfl rfl

theorem canon_deltaSend (a0 : State) (a1 : Nat) (a2 : Bool) (h : a0.Canon) : (State.deltaSend a0 a1 a2).Canon := by
  unfold State.deltaSend
  repeat'
    first
    | with_reducible assumption
    | with_reducible refine canon_ite ?_ ?_
    | with_reducible refine canon_sendDelta _ _ _ _ _ ?_
    | with_reducible refine canon_nextSeq _ _ _ ?_
    | with_reducible refine canon_setDelta _ _ _ ?_
    | with_reducible refine canon_sendRole _ _ _ _ _ ?_
    | with_reducible refine canon_logErr _ _ ?_
    | with_reducible refine canon_foldl ?_ (fun _ _ _ => ?_)
    | with_reducible refine canon_foldl_fst ?_ (fun _ _ _ => ?_)
    | with_reducible refine canon_pair (by assumption) ?_
    | with_reducible refine canon_pair_snd (by assumption) ?_
    | dsimp only
    | split
    | with_reducible refine canon_upd ?_ rfl rfl rfl rfl rfl rfl

theorem canon_resend (a0 : State) (a1 : Delta) (a2 : Ack) (h : a0.Canon) : (State.resend a0 a1 a2).Canon := by
  unfold State.resend
  repeat'
    first
    | with_reducible assumption
    | with_reducible refine canon_ite ?_ ?_
    | with_reducible refine canon_sendDelta _ _ _ _ _ ?_
    | with_reducible refine canon_bump _ _ _ _ ?_
    | with_reducible refine canon_event _ _ _ _ ?_
    | dsimp only
    | split
    | with_reducible refine canon_upd ?_ rfl rfl rfl rfl rfl rfl

theorem canon_resendRepair (a0 : State) (a1 : RepairRec) (h : a0.Canon) : (State.resendRepair a0 a1).Canon := by
  unfold State.resendRepair
  repeat'
    first
    | with_reducible assumption
    | with_reducible refine canon_ite ?_ ?_
    | with_reducible refine canon_sendRole _ _ _ _ _ ?_
    | with_reducible refine canon_bump _ _ _ _ ?_
    | with_reducible refine canon_event _ _ _ _ ?_
    | dsimp only
    | split
    | with_reducible refine canon_upd ?_ rfl rfl rfl rfl rfl rfl

theorem canon_suspect (a0 : State) (a1 : Nat) (a2 : Nat) (a3 : Nat) (a4 : Nat) (h : a0.Canon) :
    (State.suspect a0 a1 a2 a3 a4).Canon := by
  unfold State.suspect
  repeat'
    first
    | with_reducible assumption
    | with_reducible refine canon_ite ?_ ?_
    | with_reducible refine canon_irq _ _ _ ?_
    | with_reducible refine canon_logErr _ _ ?_
    | with_reducible refine canon_fset _ _ _ _ ?_
    | dsimp only
    | split
    | with_reducible refine canon_upd ?_ rfl rfl rfl rfl rfl rfl

theorem canon_rxStale (a0 : State) (h : a0.Canon) : (State.rxStale a0).Canon := by
  unfold State.rxStale
  repeat'
    first
    | with_reducible assumption
    | with_reducible refine canon_ite ?_ ?_
    | with_reducible refine canon_bump _ _ _ _ ?_
    | dsimp only
    | split
    | with_reducible refine canon_upd ?_ rfl rfl rfl rfl rfl rfl

theorem canon_lastFail (a0 : State) (a1 : Nat) (a2 : Nat) (h : a0.Canon) : (State.lastFail a0 a1 a2).Canon := by
  unfold State.lastFail
  repeat'
    first
    | with_reducible assumption
    | with_reducible refine canon_ite ?_ ?_
    | with_reducible refine canon_wr _ _ _ _ ?_
    | dsimp only
    | split
    | with_reducible refine canon_upd ?_ rfl rfl rfl rfl rfl rfl

theorem canon_gateDrop (a0 : State) (a1 : Nat) (a2 : Nat) (a3 : Nat) (a4 : Nat) (h : a0.Canon) :
    (State.gateDrop a0 a1 a2 a3 a4).Canon := by
  unfold State.gateDrop
  repeat'
    first
    | with_reducible assumption
    | with_reducible refine canon_ite ?_ ?_
    | with_reducible refine canon_bump _ _ _ _ ?_
    | with_reducible refine canon_lastFail _ _ _ ?_
    | with_reducible refine canon_logErr _ _ ?_
    | dsimp only
    | split
    | with_reducible refine canon_upd ?_ rfl rfl rfl rfl rfl rfl

theorem canon_countFlits (a0 : State) (a1 : Nat) (a2 : Nat) (a3 : Nat) (h : a0.Canon) :
    (State.countFlits a0 a1 a2 a3).Canon := by
  unfold State.countFlits
  repeat'
    first
    | with_reducible assumption
    | with_reducible refine canon_ite ?_ ?_
    | with_reducible refine canon_active _ _ _ ?_
    | with_reducible refine canon_event _ _ _ _ ?_
    | with_reducible refine canon_bump _ _ _ _ ?_
    | dsimp only
    | split
    | with_reducible refine canon_upd ?_ rfl rfl rfl rfl rfl rfl

theorem canon_received (a0 : State) (a1 : Nat) (a2 : Bool) (a3 : List Byte) (h : a0.Canon) :
    (State.received a0 a1 a2 a3).Canon :=
  canon_countFlits _ _ _ _ (canon_upd (canon_foldl h fun _ _ ht => canon_t0 ht (Mem.wf_puts _ _ _ ht.t0_wf)) rfl rfl rfl rfl rfl rfl)

theorem canon_msgIn (a0 : State) (a1 : Nat) (a2 : Bool) (a3 : Bool) (a4 : Nat) (a5 : List Byte) (h : a0.Canon) :
    (State.msgIn a0 a1 a2 a3 a4 a5).Canon := by
  unfold State.msgIn
  repeat'
    first
    | with_reducible assumption
    | with_reducible refine canon_ite ?_ ?_
    | with_reducible refine canon_received _ _ _ _ ?_
    | dsimp only
    | split
    | with_reducible refine canon_upd ?_ rfl rfl rfl rfl rfl rfl

theorem canon_noCredit (a0 : State) (a1 : Nat) (a2 : Nat) (h : a0.Canon) : (State.noCredit a0 a1 a2).Canon := by
  unfold State.noCredit
  repeat'
    first
    | with_reducible assumption
    | with_reducible refine canon_ite ?_ ?_
    | with_reducible refine canon_bump _ _ _ _ ?_
    | with_reducible refine canon_logErr _ _ ?_
    | dsimp only
    | split
    | with_reducible refine canon_upd ?_ rfl rfl rfl rfl rfl rfl

theorem canon_msgSlot (a0 : State) (a1 : Nat) (a2 : List Byte) (a3 : Nat) (a4 : Nat) (h : a0.Canon) :
    (State.msgSlot a0 a1 a2 a3 a4).1.Canon := by
  unfold State.msgSlot
  repeat'
    first
    | with_reducible assumption
    | with_reducible refine canon_ite ?_ ?_
    | with_reducible refine canon_rxStale _ ?_
    | dsimp only
    | split
    | with_reducible refine canon_upd ?_ rfl rfl rfl rfl rfl rfl

theorem canon_keepRepairs (a0 : State) (a1 : RepairRec → Bool) (h : a0.Canon) : (State.keepRepairs a0 a1).Canon := by
  unfold State.keepRepairs
  repeat'
    first
    | with_reducible assumption
    | with_reducible refine canon_ite ?_ ?_
    | dsimp only
    | split
    | with_reducible refine canon_upd ?_ rfl rfl rfl rfl rfl rfl

theorem canon_resendFrom (a0 : State) (a1 : Nat) (a2 : Nat) (a3 : Nat) (h : a0.Canon) :
    (State.resendFrom a0 a1 a2 a3).Canon := by
  unfold State.resendFrom
  repeat'
    first
    | with_reducible assumption
    | with_reducible refine canon_ite ?_ ?_
    | with_reducible refine canon_resendRepair _ _ ?_
    | with_reducible refine canon_resend _ _ _ ?_
    | with_reducible refine canon_foldl ?_ (fun _ _ _ => ?_)
    | with_reducible refine canon_foldl_fst ?_ (fun _ _ _ => ?_)
    | with_reducible refine canon_pair (by assumption) ?_
    | dsimp only
    | split
    | with_reducible refine canon_upd ?_ rfl rfl rfl rfl rfl rfl

theorem canon_ackIn (a0 : State) (a1 : Nat) (a2 : Nat) (a3 : Nat) (h : a0.Canon) : (State.ackIn a0 a1 a2 a3).Canon := by
  unfold State.ackIn
  repeat'
    first
    | with_reducible assumption
    | with_reducible refine canon_ite ?_ ?_
    | with_reducible refine canon_keepRepairs _ _ ?_
    | with_reducible refine canon_setOpen _ _ ?_
    | with_reducible refine canon_closeDone _ ?_
    | dsimp only
    | split
    | with_reducible refine canon_upd ?_ rfl rfl rfl rfl rfl rfl

theorem canon_rxSet (a0 : State) (a1 : RxStream) (h : a0.Canon) : (State.rxSet a0 a1).Canon := by
  unfold State.rxSet
  repeat'
    first
    | with_reducible assumption
    | with_reducible refine canon_ite ?_ ?_
    | dsimp only
    | split
    | with_reducible refine canon_upd ?_ rfl rfl rfl rfl rfl rfl

theorem canon_sendAck (a0 : State) (a1 : Nat) (a2 : Nat) (h : a0.Canon) : (State.sendAck a0 a1 a2).Canon := by
  unfold State.sendAck
  repeat'
    first
    | with_reducible assumption
    | with_reducible refine canon_ite ?_ ?_
    | with_reducible refine canon_sendRole _ _ _ _ _ ?_
    | with_reducible refine canon_rxSet _ _ ?_
    | dsimp only
    | split
    | with_reducible refine canon_upd ?_ rfl rfl rfl rfl rfl rfl

theorem canon_sendNak (a0 : State) (a1 : Nat) (a2 : Nat) (h : a0.Canon) : (State.sendNak a0 a1 a2).Canon := by
  unfold State.sendNak
  repeat'
    first
    | with_reducible assumption
    | with_reducible refine canon_ite ?_ ?_
    | with_reducible refine canon_sendRole _ _ _ _ _ ?_
    | dsimp only
    | split
    | with_reducible refine canon_upd ?_ rfl rfl rfl rfl rfl rfl

theorem canon_applyRecord (a0 : State) (a1 : Nat) (a2 : List Byte) (h : a0.Canon) : (State.applyRecord a0 a1 a2).1.Canon := by
  unfold State.applyRecord
  repeat'
    first
    | with_reducible assumption
    | with_reducible refine canon_ite ?_ ?_
    | with_reducible refine canon_tagPut _ _ _ _ ?_
    | with_reducible refine canon_tagRead _ _ _ ?_
    | with_reducible refine canon_writeTier _ _ _ _ ?_
    | with_reducible refine canon_readTier _ _ _ _ ?_
    | with_reducible refine canon_foldl ?_ (fun _ _ _ => ?_)
    | with_reducible refine canon_foldl_fst ?_ (fun _ _ _ => ?_)
    | with_reducible refine canon_pair (by assumption) ?_
    | dsimp only
    | split
    | with_reducible refine canon_upd ?_ rfl rfl rfl rfl rfl rfl

theorem canon_rxCount (a0 : State) (a1 : Nat) (a2 : Nat) (h : a0.Canon) : (State.rxCount a0 a1 a2).Canon := by
  unfold State.rxCount
  repeat'
    first
    | with_reducible assumption
    | with_reducible refine canon_ite ?_ ?_
    | with_reducible refine canon_sendAck _ _ _ ?_
    | with_reducible refine canon_rxSet _ _ ?_
    | dsimp only
    | split
    | with_reducible refine canon_upd ?_ rfl rfl rfl rfl rfl rfl

theorem canon_takeRecord (a0 : State) (a1 : Nat) (a2 : Nat) (a3 : Nat) (a4 : List Byte) (h : a0.Canon) :
    (State.takeRecord a0 a1 a2 a3 a4).Canon := by
  unfold State.takeRecord
  repeat'
    first
    | with_reducible assumption
    | with_reducible refine canon_ite ?_ ?_
    | with_reducible refine canon_applyRecord _ _ _ ?_
    | with_reducible refine canon_rxCount _ _ _ ?_
    | with_reducible refine canon_tagRead _ _ _ ?_
    | with_reducible refine canon_rxSet _ _ ?_
    | with_reducible refine canon_pair (by assumption) ?_
    | dsimp only
    | split
    | with_reducible refine canon_upd ?_ rfl rfl rfl rfl rfl rfl

theorem canon_drainAhead (a0 : Nat) (a1 : Nat) (a2 : Nat) (a3 : State) (h : a3.Canon) :
    (State.drainAhead a0 a1 a2 a3).Canon := by
  induction a2 generalizing a0 a1 a3 with
  | zero =>
    unfold State.drainAhead
    repeat'
      first
      | with_reducible assumption
      | with_reducible refine canon_ite ?_ ?_
      | with_reducible refine canon_takeRecord _ _ _ _ _ ?_
      | with_reducible refine canon_rxSet _ _ ?_
      | dsimp only
      | split
      | with_reducible refine canon_upd ?_ rfl rfl rfl rfl rfl rfl
  | succ n ih =>
    unfold State.drainAhead
    repeat'
      first
      | with_reducible assumption
      | with_reducible refine canon_ite ?_ ?_
      | with_reducible refine ih _ _ _ ?_
      | with_reducible refine canon_takeRecord _ _ _ _ _ ?_
      | with_reducible refine canon_rxSet _ _ ?_
      | dsimp only
      | split
      | with_reducible refine canon_upd ?_ rfl rfl rfl rfl rfl rfl

theorem canon_recordIn (a0 : State) (a1 : Nat) (a2 : List Byte) (h : a0.Canon) : (State.recordIn a0 a1 a2).Canon := by
  unfold State.recordIn
  repeat'
    first
    | with_reducible assumption
    | with_reducible refine canon_ite ?_ ?_
    | with_reducible refine canon_rxSet _ _ ?_
    | with_reducible refine canon_sendAck _ _ _ ?_
    | with_reducible refine canon_takeRecord _ _ _ _ _ ?_
    | with_reducible refine canon_drainAhead _ _ _ _ ?_
    | with_reducible refine canon_rxStale _ ?_
    | with_reducible refine canon_sendNak _ _ _ ?_
    | with_reducible refine canon_bump _ _ _ _ ?_
    | with_reducible refine canon_irq _ _ _ ?_
    | with_reducible refine canon_logErr _ _ ?_
    | dsimp only
    | split
    | with_reducible refine canon_upd ?_ rfl rfl rfl rfl rfl rfl

end Sys2Proof.Machine
end

