-- ==== Sys2Proof/Laws/Canon/Frames.lean ====
section
/-! SUPPORT. The operations of `Frames.lean` keep the canonical form of the state. -/

namespace Sys2Proof.Machine

open Sys2Proof

theorem canon_setFrame (a0 : State) (a1 : Tier) (a2 : Nat) (a3 : Frame) (h : a0.Canon) : (State.setFrame a0 a1 a2 a3).Canon := by
  unfold State.setFrame
  repeat'
    first
    | with_reducible assumption
    | with_reducible refine canon_ite ?_ ?_
    | dsimp only
    | split
    | with_reducible refine canon_upd ?_ rfl rfl rfl rfl rfl rfl

theorem canon_fillFrame (a0 : State) (a1 : Tier) (a2 : Nat) (h : a0.Canon) : (State.fillFrame a0 a1 a2).Canon := by
  unfold State.fillFrame
  repeat'
    first
    | with_reducible assumption
    | with_reducible refine canon_ite ?_ ?_
    | with_reducible refine canon_zeroSlots _ _ _ _ ?_
    | with_reducible refine canon_bump _ _ _ _ ?_
    | dsimp only
    | split
    | with_reducible refine canon_upd ?_ rfl rfl rfl rfl rfl rfl

theorem canon_takeFree (a0 : State) (a1 : Tier) (h : a0.Canon) : (State.takeFree a0 a1).1.Canon := by
  unfold State.takeFree
  repeat'
    first
    | with_reducible assumption
    | with_reducible refine canon_ite ?_ ?_
    | with_reducible refine canon_fillFrame _ _ _ ?_
    | dsimp only
    | split
    | with_reducible refine canon_upd ?_ rfl rfl rfl rfl rfl rfl

theorem canon_noteDirty (a0 : State) (a1 : Tier) (a2 : Nat) (h : a0.Canon) : (State.noteDirty a0 a1 a2).Canon := by
  unfold State.noteDirty
  repeat'
    first
    | with_reducible assumption
    | with_reducible refine canon_ite ?_ ?_
    | dsimp only
    | split
    | with_reducible refine canon_upd ?_ rfl rfl rfl rfl rfl rfl

theorem canon_releaseFrame (a0 : State) (a1 : Tier) (a2 : Nat) (h : a0.Canon) : (State.releaseFrame a0 a1 a2).Canon := by
  unfold State.releaseFrame
  repeat'
    first
    | with_reducible assumption
    | with_reducible refine canon_ite ?_ ?_
    | with_reducible refine canon_setFrame _ _ _ _ ?_
    | with_reducible refine canon_noteDirty _ _ _ ?_
    | dsimp only
    | split
    | with_reducible refine canon_upd ?_ rfl rfl rfl rfl rfl rfl

theorem canon_unfixFrame (a0 : State) (a1 : Tier) (a2 : Nat) (a3 : Nat) (h : a0.Canon) :
    (State.unfixFrame a0 a1 a2 a3).Canon := by
  unfold State.unfixFrame
  repeat'
    first
    | with_reducible assumption
    | with_reducible refine canon_ite ?_ ?_
    | with_reducible refine canon_setFrame _ _ _ _ ?_
    | with_reducible refine canon_noteDirty _ _ _ ?_
    | dsimp only
    | split
    | with_reducible refine canon_upd ?_ rfl rfl rfl rfl rfl rfl

theorem canon_putPme (a0 : State) (a1 : Nat) (a2 : Nat) (a3 : Pme) (h : a0.Canon) : (State.putPme a0 a1 a2 a3).Canon := by
  unfold State.putPme
  repeat'
    first
    | with_reducible assumption
    | with_reducible refine canon_ite ?_ ?_
    | with_reducible refine canon_towerPut _ _ _ ?_
    | dsimp only
    | split
    | with_reducible refine canon_upd ?_ rfl rfl rfl rfl rfl rfl

theorem canon_setPme (a0 : State) (a1 : Nat) (a2 : Nat) (a3 : Pme) (h : a0.Canon) : (State.setPme a0 a1 a2 a3).Canon := by
  unfold State.setPme
  repeat'
    first
    | with_reducible assumption
    | with_reducible refine canon_ite ?_ ?_
    | with_reducible refine canon_putPme _ _ _ _ ?_
    | with_reducible refine canon_readSec _ _ _ ?_
    | with_reducible refine canon_pair (by assumption) ?_
    | dsimp only
    | split
    | with_reducible refine canon_upd ?_ rfl rfl rfl rfl rfl rfl

theorem canon_wordOut (a0 : State) (a1 : Nat) (h : a0.Canon) : (State.wordOut a0 a1).Canon := by
  unfold State.wordOut
  repeat'
    first
    | with_reducible assumption
    | with_reducible refine canon_ite ?_ ?_
    | with_reducible refine canon_towerPut _ _ _ ?_
    | dsimp only
    | split
    | with_reducible refine canon_upd ?_ rfl rfl rfl rfl rfl rfl

theorem canon_wordsOut (a0 : State) (a1 : Nat) (h : a0.Canon) : (State.wordsOut a0 a1).Canon := by
  unfold State.wordsOut
  repeat'
    first
    | with_reducible assumption
    | with_reducible refine canon_ite ?_ ?_
    | with_reducible refine canon_wordOut _ _ ?_
    | with_reducible refine canon_foldl ?_ (fun _ _ _ => ?_)
    | with_reducible refine canon_foldl_fst ?_ (fun _ _ _ => ?_)
    | with_reducible refine canon_pair (by assumption) ?_
    | dsimp only
    | split
    | with_reducible refine canon_upd ?_ rfl rfl rfl rfl rfl rfl

theorem canon_cachePme (a0 : State) (a1 : Nat) (h : a0.Canon) : (State.cachePme a0 a1).Canon := by
  unfold State.cachePme
  repeat'
    first
    | with_reducible assumption
    | with_reducible refine canon_ite ?_ ?_
    | with_reducible refine canon_wordOut _ _ ?_
    | with_reducible refine canon_foldl ?_ (fun _ _ _ => ?_)
    | with_reducible refine canon_foldl_fst ?_ (fun _ _ _ => ?_)
    | with_reducible refine canon_pair (by assumption) ?_
    | dsimp only
    | split
    | with_reducible refine canon_upd ?_ rfl rfl rfl rfl rfl rfl

theorem canon_pmeRead (a0 : State) (a1 : Nat) (a2 : Nat) (h : a0.Canon) : (State.pmeRead a0 a1 a2).1.Canon := by
  unfold State.pmeRead
  repeat'
    first
    | with_reducible assumption
    | with_reducible refine canon_ite ?_ ?_
    | with_reducible refine canon_cachePme _ _ ?_
    | with_reducible refine canon_logErr _ _ ?_
    | with_reducible refine canon_readSec _ _ _ ?_
    | with_reducible refine canon_bump _ _ _ _ ?_
    | with_reducible refine canon_pair (by assumption) ?_
    | dsimp only
    | split
    | with_reducible refine canon_upd ?_ rfl rfl rfl rfl rfl rfl

theorem canon_touch (a0 : State) (a1 : Nat) (a2 : Nat) (h : a0.Canon) : (State.touch a0 a1 a2).Canon := by
  unfold State.touch
  repeat'
    first
    | with_reducible assumption
    | with_reducible refine canon_ite ?_ ?_
    | with_reducible refine canon_setPme _ _ _ _ ?_
    | dsimp only
    | split
    | with_reducible refine canon_upd ?_ rfl rfl rfl rfl rfl rfl

end Sys2Proof.Machine
end

