-- ==== Sys2Proof/Laws/Canon/Moves.lean ====
section
/-! SUPPORT. The operations of `Moves.lean` keep the canonical form of the state. -/

namespace Sys2Proof.Machine

open Sys2Proof

theorem canon_endUnit (a0 : State) (a1 : Nat) (a2 : Nat) (h : a0.Canon) : (State.endUnit a0 a1 a2).Canon := by
  unfold State.endUnit
  repeat'
    first
    | with_reducible assumption
    | with_reducible refine canon_ite ?_ ?_
    | dsimp only
    | split
    | with_reducible refine canon_upd ?_ rfl rfl rfl rfl rfl rfl

theorem canon_forgetFar (a0 : State) (a1 : Nat) (a2 : Nat) (h : a0.Canon) : (State.forgetFar a0 a1 a2).Canon :=
  canon_upd h rfl rfl rfl rfl rfl rfl

theorem canon_moverUnpin (a0 : State) (a1 : Nat) (a2 : Nat) (h : a0.Canon) : (State.moverUnpin a0 a1 a2).Canon := by
  unfold State.moverUnpin
  repeat'
    first
    | with_reducible assumption
    | with_reducible refine canon_ite ?_ ?_
    | with_reducible refine canon_setPme _ _ _ _ ?_
    | dsimp only
    | split
    | with_reducible refine canon_upd ?_ rfl rfl rfl rfl rfl rfl

theorem canon_giveBack (a0 : State) (a1 : Nat) (a2 : Nat) (h : a0.Canon) : (State.giveBack a0 a1 a2).Canon := by
  unfold State.giveBack
  repeat'
    first
    | with_reducible assumption
    | with_reducible refine canon_ite ?_ ?_
    | with_reducible refine canon_sendMsg _ _ _ _ _ _ ?_
    | with_reducible refine canon_fset _ _ _ _ ?_
    | with_reducible refine canon_forgetFar _ _ _ ?_
    | dsimp only
    | split
    | with_reducible refine canon_upd ?_ rfl rfl rfl rfl rfl rfl

theorem canon_giveBackAfterPins (a0 : State) (a1 : Nat) (a2 : Nat) (a3 : Nat) (h : a0.Canon) :
    (State.giveBackAfterPins a0 a1 a2 a3).Canon := by
  unfold State.giveBackAfterPins
  repeat'
    first
    | with_reducible assumption
    | with_reducible refine canon_ite ?_ ?_
    | with_reducible refine canon_forgetFar _ _ _ ?_
    | with_reducible refine canon_giveBack _ _ _ ?_
    | dsimp only
    | split
    | with_reducible refine canon_upd ?_ rfl rfl rfl rfl rfl rfl

theorem canon_releaseLinger (a0 : State) (a1 : Nat) (a2 : Nat) (a3 : Nat) (h : a0.Canon) :
    (State.releaseLinger a0 a1 a2 a3).Canon := by
  unfold State.releaseLinger
  repeat'
    first
    | with_reducible assumption
    | with_reducible refine canon_ite ?_ ?_
    | with_reducible refine canon_sendMsg _ _ _ _ _ _ ?_
    | with_reducible refine canon_fset _ _ _ _ ?_
    | with_reducible refine canon_releaseFrame _ _ _ ?_
    | dsimp only
    | split
    | with_reducible refine canon_upd ?_ rfl rfl rfl rfl rfl rfl

theorem canon_cancelMove (a0 : State) (a1 : Move) (a2 : Nat) (h : a0.Canon) : (State.cancelMove a0 a1 a2).Canon := by
  unfold State.cancelMove
  repeat'
    first
    | with_reducible assumption
    | with_reducible refine canon_ite ?_ ?_
    | with_reducible refine canon_endUnit _ _ _ ?_
    | with_reducible refine canon_setPme _ _ _ _ ?_
    | with_reducible refine canon_sendMsg _ _ _ _ _ _ ?_
    | with_reducible refine canon_fset _ _ _ _ ?_
    | with_reducible refine canon_releaseFrame _ _ _ ?_
    | dsimp only
    | split
    | with_reducible refine canon_upd ?_ rfl rfl rfl rfl rfl rfl

theorem canon_freeFrames (a0 : State) (a1 : Nat) (a2 : Nat) (a3 : Pme) (h : a0.Canon) :
    (State.freeFrames a0 a1 a2 a3).Canon := by
  unfold State.freeFrames
  repeat'
    first
    | with_reducible assumption
    | with_reducible refine canon_ite ?_ ?_
    | with_reducible refine canon_giveBack _ _ _ ?_
    | with_reducible refine canon_releaseFrame _ _ _ ?_
    | with_reducible refine canon_unfixFrame _ _ _ _ ?_
    | dsimp only
    | split
    | with_reducible refine canon_upd ?_ rfl rfl rfl rfl rfl rfl

theorem canon_dropPage (a0 : State) (a1 : Nat) (a2 : Nat) (h : a0.Canon) : (State.dropPage a0 a1 a2).Canon := by
  unfold State.dropPage
  repeat'
    first
    | with_reducible assumption
    | with_reducible refine canon_ite ?_ ?_
    | with_reducible refine canon_setPme _ _ _ _ ?_
    | with_reducible refine canon_bump _ _ _ _ ?_
    | with_reducible refine canon_freeFrames _ _ _ _ ?_
    | with_reducible refine canon_cancelMove _ _ _ ?_
    | dsimp only
    | split
    | with_reducible refine canon_upd ?_ rfl rfl rfl rfl rfl rfl

theorem canon_releasePage (a0 : State) (a1 : Nat) (a2 : Nat) (h : a0.Canon) : (State.releasePage a0 a1 a2).Canon := by
  unfold State.releasePage
  repeat'
    first
    | with_reducible assumption
    | with_reducible refine canon_ite ?_ ?_
    | with_reducible refine canon_setPme _ _ _ _ ?_
    | with_reducible refine canon_freeFrames _ _ _ _ ?_
    | with_reducible refine canon_cancelMove _ _ _ ?_
    | dsimp only
    | split
    | with_reducible refine canon_upd ?_ rfl rfl rfl rfl rfl rfl

theorem canon_releaseCheck (a0 : State) (a1 : Nat) (a2 : Nat) (h : a0.Canon) : (State.releaseCheck a0 a1 a2).Canon := by
  unfold State.releaseCheck
  repeat'
    first
    | with_reducible assumption
    | with_reducible refine canon_ite ?_ ?_
    | with_reducible refine canon_releasePage _ _ _ ?_
    | dsimp only
    | split
    | with_reducible refine canon_upd ?_ rfl rfl rfl rfl rfl rfl

theorem canon_dropRef (a0 : State) (a1 : Nat) (a2 : Nat) (h : a0.Canon) : (State.dropRef a0 a1 a2).Canon := by
  unfold State.dropRef
  repeat'
    first
    | with_reducible assumption
    | with_reducible refine canon_ite ?_ ?_
    | with_reducible refine canon_setPme _ _ _ _ ?_
    | with_reducible refine canon_releaseCheck _ _ _ ?_
    | dsimp only
    | split
    | with_reducible refine canon_upd ?_ rfl rfl rfl rfl rfl rfl

theorem canon_poisonFull (a0 : State) (a1 : Nat) (h : a0.Canon) : (State.poisonFull a0 a1).Canon := by
  unfold State.poisonFull
  repeat'
    first
    | with_reducible assumption
    | with_reducible refine canon_ite ?_ ?_
    | with_reducible refine canon_cancelMove _ _ _ ?_
    | with_reducible refine canon_dropPage _ _ _ ?_
    | with_reducible refine canon_escalate _ _ _ _ ?_
    | with_reducible refine canon_logErr _ _ ?_
    | with_reducible refine canon_irq _ _ _ ?_
    | dsimp only
    | split
    | with_reducible refine canon_upd ?_ rfl rfl rfl rfl rfl rfl

theorem canon_extPoison (a0 : State) (a1 : Nat) (h : a0.Canon) : (State.extPoison a0 a1).Canon := by
  unfold State.extPoison
  extract_lets s
  have hs : s.Canon := canon_xtStore _ _ (canon_ext h (Mem.wf_puts _ _ _ h.ext_wf))
  clear_value s
  exact canon_ite hs (canon_ite (canon_upd hs rfl rfl rfl rfl rfl rfl) (canon_poisonFull _ _ hs))

theorem canon_putPoison (a0 : State) (a1 : Tier) (a2 : Nat) (h : a0.Canon) : (State.putPoison a0 a1 a2).Canon := by
  cases a1 with
  | t1 => exact canon_secsWritten _ _ _ _ (canon_mirrorFill _ _ _ (canon_tower h (Mem.wf_poisonSector _ _ h.tower_mem)))
  | t2 => exact canon_extPoison _ _ h

theorem canon_frameBad (a0 : State) (a1 : Tier) (a2 : Nat) (h : a0.Canon) : (State.frameBad a0 a1 a2).1.Canon := by
  unfold State.frameBad
  repeat'
    first
    | with_reducible assumption
    | with_reducible refine canon_ite ?_ ?_
    | with_reducible refine canon_active _ _ _ ?_
    | with_reducible refine canon_event _ _ _ _ ?_
    | with_reducible refine canon_readSec _ _ _ ?_
    | with_reducible refine canon_foldl ?_ (fun _ _ _ => ?_)
    | with_reducible refine canon_foldl_fst ?_ (fun _ _ _ => ?_)
    | with_reducible refine canon_pair (by assumption) ?_
    | dsimp only
    | split
    | with_reducible refine canon_upd ?_ rfl rfl rfl rfl rfl rfl

theorem canon_readFrame (a0 : State) (a1 : Tier) (a2 : Nat) (h : a0.Canon) : (State.readFrame a0 a1 a2).Canon := by
  unfold State.readFrame
  repeat'
    first
    | with_reducible assumption
    | with_reducible refine canon_ite ?_ ?_
    | with_reducible refine canon_xtRun _ _ ?_
    | dsimp only
    | split
    | with_reducible refine canon_upd ?_ rfl rfl rfl rfl rfl rfl

theorem canon_copyFrame (a0 : State) (a1 : Tier) (a2 : Nat) (a3 : Tier) (a4 : Nat) (h : a0.Canon) :
    (State.copyFrame a0 a1 a2 a3 a4).1.Canon := by
  have hf := canon_frameBad a0 a1 a2 h
  unfold State.copyFrame
  split
  next s bad heq =>
  rw [heq] at hf
  have hx := canon_readFrame s a1 a2 hf
  dsimp only
  generalize s.readFrame a1 a2 = u at hx ⊢
  refine canon_foldl ?_ (fun _ _ hs => canon_putPoison _ _ _ hs)
  cases a3 with
  | t1 => exact canon_secsWritten _ _ _ _ (canon_mirrorFill _ _ _ (canon_tower hx (Mem.wf_copyRaw _ _ _ _ _ hx.tower_mem)))
  | t2 => exact canon_xtStore _ _ (canon_ext_pages hx (Mem.wf_copyRaw u.ext _ _ _ _ hx.ext_wf))

theorem canon_loseLoan (a0 : State) (a1 : Nat) (a2 : Nat) (a3 : Nat) (h : a0.Canon) : (State.loseLoan a0 a1 a2 a3).Canon := by
  unfold State.loseLoan
  repeat'
    first
    | with_reducible assumption
    | with_reducible refine canon_ite ?_ ?_
    | with_reducible refine canon_bump _ _ _ _ ?_
    | with_reducible refine canon_setPme _ _ _ _ ?_
    | with_reducible refine canon_setFrame _ _ _ _ ?_
    | with_reducible refine canon_fset _ _ _ _ ?_
    | with_reducible refine canon_forgetFar _ _ _ ?_
    | with_reducible refine canon_cancelMove _ _ _ ?_
    | dsimp only
    | split
    | with_reducible refine canon_upd ?_ rfl rfl rfl rfl rfl rfl

theorem canon_pinStall (a0 : State) (a1 : Who) (h : a0.Canon) : (State.pinStall a0 a1).Canon := by
  unfold State.pinStall
  repeat'
    first
    | with_reducible assumption
    | with_reducible refine canon_ite ?_ ?_
    | with_reducible refine canon_bump _ _ _ _ ?_
    | dsimp only
    | split
    | with_reducible refine canon_upd ?_ rfl rfl rfl rfl rfl rfl

theorem canon_pinGo (a0 : State) (a1 : Who) (h : a0.Canon) : (State.pinGo a0 a1).Canon := by
  unfold State.pinGo
  repeat'
    first
    | with_reducible assumption
    | with_reducible refine canon_ite ?_ ?_
    | dsimp only
    | split
    | with_reducible refine canon_upd ?_ rfl rfl rfl rfl rfl rfl

theorem canon_noSpace (a0 : State) (a1 : Nat) (a2 : Nat) (a3 : Bool) (h : a0.Canon) : (State.noSpace a0 a1 a2 a3).Canon := by
  unfold State.noSpace
  repeat'
    first
    | with_reducible assumption
    | with_reducible refine canon_ite ?_ ?_
    | with_reducible refine canon_logErr _ _ ?_
    | with_reducible refine canon_bump _ _ _ _ ?_
    | with_reducible refine canon_set1 _ _ _ ?_
    | with_reducible refine canon_irq _ _ _ ?_
    | dsimp only
    | split
    | with_reducible refine canon_upd ?_ rfl rfl rfl rfl rfl rfl

theorem canon_putMove (a0 : State) (a1 : Move) (h : a0.Canon) : (State.putMove a0 a1).Canon := by
  unfold State.putMove
  repeat'
    first
    | with_reducible assumption
    | with_reducible refine canon_ite ?_ ?_
    | with_reducible refine canon_setPme _ _ _ _ ?_
    | dsimp only
    | split
    | with_reducible refine canon_upd ?_ rfl rfl rfl rfl rfl rfl

theorem canon_sendPieces (a0 : State) (a1 : Move) (a2 : Nat) (a3 : List Nat) (h : a0.Canon) :
    (State.sendPieces a0 a1 a2 a3).Canon := by
  unfold State.sendPieces
  repeat'
    first
    | with_reducible assumption
    | with_reducible refine canon_ite ?_ ?_
    | with_reducible refine canon_offerReq _ _ _ _ _ _ _ _ _ _ _ _ _ ?_
    | with_reducible refine canon_xtRun _ _ ?_
    | with_reducible refine canon_foldl ?_ (fun _ _ _ => ?_)
    | with_reducible refine canon_foldl_fst ?_ (fun _ _ _ => ?_)
    | with_reducible refine canon_pair (by assumption) ?_
    | dsimp only
    | split
    | with_reducible refine canon_upd ?_ rfl rfl rfl rfl rfl rfl

theorem canon_setMove (a0 : State) (a1 : Move) (a2 : Move) (h : a0.Canon) : (State.setMove a0 a1 a2).Canon := by
  unfold State.setMove
  repeat'
    first
    | with_reducible assumption
    | with_reducible refine canon_ite ?_ ?_
    | dsimp only
    | split
    | with_reducible refine canon_upd ?_ rfl rfl rfl rfl rfl rfl

theorem canon_sendMarks (a0 : State) (a1 : Move) (a2 : Nat) (h : a0.Canon) : (State.sendMarks a0 a1 a2).Canon := by
  unfold State.sendMarks
  repeat'
    first
    | with_reducible assumption
    | with_reducible refine canon_ite ?_ ?_
    | with_reducible refine canon_setMove _ _ _ ?_
    | with_reducible refine canon_sendPieces _ _ _ _ ?_
    | with_reducible refine canon_cancelMove _ _ _ ?_
    | dsimp only
    | split
    | with_reducible refine canon_upd ?_ rfl rfl rfl rfl rfl rfl

theorem canon_startLoan (a0 : State) (a1 : Nat) (a2 : Nat) (a3 : Bool) (a4 : Nat) (h : a0.Canon) :
    (State.startLoan a0 a1 a2 a3 a4).1.Canon := by
  unfold State.startLoan
  repeat'
    first
    | with_reducible assumption
    | with_reducible refine canon_ite ?_ ?_
    | with_reducible refine canon_sendMsg _ _ _ _ _ _ ?_
    | with_reducible refine canon_putMove _ _ ?_
    | dsimp only
    | split
    | with_reducible refine canon_upd ?_ rfl rfl rfl rfl rfl rfl

theorem canon_fetchPieces (a0 : State) (a1 : Nat) (a2 : Nat) (h : a0.Canon) : (State.fetchPieces a0 a1 a2).Canon := by
  unfold State.fetchPieces
  repeat'
    first
    | with_reducible assumption
    | with_reducible refine canon_ite ?_ ?_
    | with_reducible refine canon_offerReq _ _ _ _ _ _ _ _ _ _ _ _ _ ?_
    | with_reducible refine canon_foldl ?_ (fun _ _ _ => ?_)
    | with_reducible refine canon_foldl_fst ?_ (fun _ _ _ => ?_)
    | with_reducible refine canon_pair (by assumption) ?_
    | dsimp only
    | split
    | with_reducible refine canon_upd ?_ rfl rfl rfl rfl rfl rfl

theorem canon_startCopy (a0 : State) (a1 : Nat) (a2 : Nat) (a3 : Tier) (a4 : Nat) (a5 : Bool) (a6 : Nat) (h : a0.Canon) :
    (State.startCopy a0 a1 a2 a3 a4 a5 a6).Canon := by
  unfold State.startCopy
  repeat'
    first
    | with_reducible assumption
    | with_reducible refine canon_ite ?_ ?_
    | with_reducible refine canon_fetchPieces _ _ _ ?_
    | with_reducible refine canon_putMove _ _ ?_
    | with_reducible refine canon_setFrame _ _ _ _ ?_
    | dsimp only
    | split
    | with_reducible refine canon_upd ?_ rfl rfl rfl rfl rfl rfl

theorem canon_releaseAfterPins (a0 : State) (a1 : Nat) (a2 : Nat) (a3 : Tier) (a4 : Nat) (a5 : Nat) (h : a0.Canon) :
    (State.releaseAfterPins a0 a1 a2 a3 a4 a5).Canon := by
  unfold State.releaseAfterPins
  repeat'
    first
    | with_reducible assumption
    | with_reducible refine canon_ite ?_ ?_
    | with_reducible refine canon_releaseFrame _ _ _ ?_
    | dsimp only
    | split
    | with_reducible refine canon_upd ?_ rfl rfl rfl rfl rfl rfl

theorem canon_logPoisonMove (a0 : State) (a1 : Nat) (a2 : Nat) (a3 : Nat) (a4 : Nat) (a5 : Bool) (h : a0.Canon) :
    (State.logPoisonMove a0 a1 a2 a3 a4 a5).Canon := by
  unfold State.logPoisonMove
  repeat'
    first
    | with_reducible assumption
    | with_reducible refine canon_ite ?_ ?_
    | with_reducible refine canon_logErr _ _ ?_
    | dsimp only
    | split
    | with_reducible refine canon_upd ?_ rfl rfl rfl rfl rfl rfl

theorem canon_switchPage (a0 : State) (a1 : Move) (a2 : Nat) (h : a0.Canon) : (State.switchPage a0 a1 a2).Canon := by
  unfold State.switchPage
  repeat'
    first
    | with_reducible assumption
    | with_reducible refine canon_ite ?_ ?_
    | with_reducible refine canon_setPme _ _ _ _ ?_
    | with_reducible refine canon_event _ _ _ _ ?_
    | with_reducible refine canon_releaseAfterPins _ _ _ _ _ _ ?_
    | with_reducible refine canon_setFrame _ _ _ _ ?_
    | with_reducible refine canon_releaseFrame _ _ _ ?_
    | dsimp only
    | split
    | with_reducible refine canon_upd ?_ rfl rfl rfl rfl rfl rfl

theorem canon_markFar (a0 : State) (a1 : Nat) (a2 : Nat) (a3 : List Nat) (h : a0.Canon) : (State.markFar a0 a1 a2 a3).Canon := by
  unfold State.markFar
  repeat'
    first
    | with_reducible assumption
    | with_reducible refine canon_ite ?_ ?_
    | with_reducible refine canon_foldl ?_ (fun _ _ _ => ?_)
    | with_reducible refine canon_foldl_fst ?_ (fun _ _ _ => ?_)
    | with_reducible refine canon_pair (by assumption) ?_
    | dsimp only
    | split
    | with_reducible refine canon_upd ?_ rfl rfl rfl rfl rfl rfl

theorem canon_finishMove (a0 : State) (a1 : Move) (h : a0.Canon) : (State.finishMove a0 a1).1.Canon := by
  unfold State.finishMove
  repeat'
    first
    | with_reducible assumption
    | with_reducible refine canon_ite ?_ ?_
    | with_reducible refine canon_copyFrame _ _ _ _ _ ?_
    | with_reducible refine canon_event _ _ _ _ ?_
    | with_reducible refine canon_setFrame _ _ _ _ ?_
    | with_reducible refine canon_setPme _ _ _ _ ?_
    | with_reducible refine canon_giveBackAfterPins _ _ _ _ ?_
    | with_reducible refine canon_switchPage _ _ _ ?_
    | with_reducible refine canon_markFar _ _ _ _ ?_
    | with_reducible refine canon_frameBad _ _ _ ?_
    | with_reducible refine canon_endUnit _ _ _ ?_
    | with_reducible refine canon_logPoisonMove _ _ _ _ _ _ ?_
    | with_reducible refine canon_moverUnpin _ _ _ ?_
    | with_reducible refine canon_cancelMove _ _ _ ?_
    | with_reducible refine canon_pair (by assumption) ?_
    | dsimp only
    | split
    | with_reducible refine canon_upd ?_ rfl rfl rfl rfl rfl rfl

theorem canon_makeT2 (a0 : Nat) (a1 : State) (h : a1.Canon) : (State.makeT2 a0 a1).1.Canon := by
  induction a0 generalizing a1 with
  | zero =>
    unfold State.makeT2
    repeat'
      first
      | with_reducible assumption
      | with_reducible refine canon_ite ?_ ?_
      | with_reducible refine canon_startLoan _ _ _ _ _ ?_
      | with_reducible refine canon_dropPage _ _ _ ?_
      | with_reducible refine canon_takeFree _ _ ?_
      | with_reducible refine canon_pair (by assumption) ?_
      | dsimp only
      | split
      | with_reducible refine canon_upd ?_ rfl rfl rfl rfl rfl rfl
  | succ n ih =>
    unfold State.makeT2
    repeat'
      first
      | with_reducible assumption
      | with_reducible refine canon_ite ?_ ?_
      | with_reducible refine ih _ ?_
      | with_reducible refine canon_startLoan _ _ _ _ _ ?_
      | with_reducible refine canon_dropPage _ _ _ ?_
      | with_reducible refine canon_takeFree _ _ ?_
      | with_reducible refine canon_pair (by assumption) ?_
      | dsimp only
      | split
      | with_reducible refine canon_upd ?_ rfl rfl rfl rfl rfl rfl

theorem canon_takeT2 (a0 : State) (a1 : Nat) (a2 : Nat) (a3 : Bool) (h : a0.Canon) : (State.takeT2 a0 a1 a2 a3).1.Canon := by
  unfold State.takeT2
  repeat'
    first
    | with_reducible assumption
    | with_reducible refine canon_ite ?_ ?_
    | with_reducible refine canon_noSpace _ _ _ _ ?_
    | with_reducible refine canon_makeT2 _ _ ?_
    | with_reducible refine canon_pair (by assumption) ?_
    | dsimp only
    | split
    | with_reducible refine canon_upd ?_ rfl rfl rfl rfl rfl rfl

theorem canon_countEvict (a0 : State) (a1 : Nat) (h : a0.Canon) : (State.countEvict a0 a1).Canon := by
  unfold State.countEvict
  repeat'
    first
    | with_reducible assumption
    | with_reducible refine canon_ite ?_ ?_
    | with_reducible refine canon_bump _ _ _ _ ?_
    | with_reducible refine canon_event _ _ _ _ ?_
    | dsimp only
    | split
    | with_reducible refine canon_upd ?_ rfl rfl rfl rfl rfl rfl

theorem canon_evictHome (a0 : State) (a1 : Nat) (a2 : Nat) (h : a0.Canon) : (State.evictHome a0 a1 a2).Canon := by
  unfold State.evictHome
  repeat'
    first
    | with_reducible assumption
    | with_reducible refine canon_ite ?_ ?_
    | with_reducible refine canon_logPoisonMove _ _ _ _ _ _ ?_
    | with_reducible refine canon_zeroSlots _ _ _ _ ?_
    | with_reducible refine canon_copyFrame _ _ _ _ _ ?_
    | with_reducible refine canon_releaseFrame _ _ _ ?_
    | with_reducible refine canon_setFrame _ _ _ _ ?_
    | with_reducible refine canon_setPme _ _ _ _ ?_
    | with_reducible refine canon_pair (by assumption) ?_
    | dsimp only
    | split
    | with_reducible refine canon_upd ?_ rfl rfl rfl rfl rfl rfl

theorem canon_evictPage (a0 : State) (a1 : Nat) (a2 : Nat) (a3 : Bool) (h : a0.Canon) :
    (State.evictPage a0 a1 a2 a3).1.Canon := by
  unfold State.evictPage
  repeat'
    first
    | with_reducible assumption
    | with_reducible refine canon_ite ?_ ?_
    | with_reducible refine canon_finishMove _ _ ?_
    | with_reducible refine canon_startCopy _ _ _ _ _ _ _ ?_
    | with_reducible refine canon_makeT2 _ _ ?_
    | with_reducible refine canon_startLoan _ _ _ _ _ ?_
    | with_reducible refine canon_dropPage _ _ _ ?_
    | with_reducible refine canon_countEvict _ _ ?_
    | with_reducible refine canon_evictHome _ _ _ ?_
    | with_reducible refine canon_pair (by assumption) ?_
    | dsimp only
    | split
    | with_reducible refine canon_upd ?_ rfl rfl rfl rfl rfl rfl

theorem canon_makeT1 (a0 : List (Nat × Nat)) (a1 : Nat) (a2 : State) (h : a2.Canon) : (State.makeT1 a0 a1 a2).1.Canon := by
  induction a1 generalizing a0 a2 with
  | zero =>
    unfold State.makeT1
    repeat'
      first
      | with_reducible assumption
      | with_reducible refine canon_ite ?_ ?_
      | with_reducible refine canon_evictPage _ _ _ _ ?_
      | with_reducible refine canon_takeFree _ _ ?_
      | with_reducible refine canon_pair (by assumption) ?_
      | dsimp only
      | split
      | with_reducible refine canon_upd ?_ rfl rfl rfl rfl rfl rfl
  | succ n ih =>
    unfold State.makeT1
    repeat'
      first
      | with_reducible assumption
      | with_reducible refine canon_ite ?_ ?_
      | with_reducible refine ih _ _ ?_
      | with_reducible refine canon_evictPage _ _ _ _ ?_
      | with_reducible refine canon_takeFree _ _ ?_
      | with_reducible refine canon_pair (by assumption) ?_
      | dsimp only
      | split
      | with_reducible refine canon_upd ?_ rfl rfl rfl rfl rfl rfl

theorem canon_takeT1 (a0 : State) (a1 : Nat) (a2 : Nat) (a3 : Bool) (h : a0.Canon) : (State.takeT1 a0 a1 a2 a3).1.Canon := by
  unfold State.takeT1
  repeat'
    first
    | with_reducible assumption
    | with_reducible refine canon_ite ?_ ?_
    | with_reducible refine canon_noSpace _ _ _ _ ?_
    | with_reducible refine canon_makeT1 _ _ _ ?_
    | with_reducible refine canon_pair (by assumption) ?_
    | dsimp only
    | split
    | with_reducible refine canon_upd ?_ rfl rfl rfl rfl rfl rfl

theorem canon_copyTo (a0 : Nat) (a1 : Nat) (a2 : Tier) (a3 : Bool) (a4 : Nat) (a5 : State × Alloc) (h : a5.1.Canon) :
    (State.copyTo a0 a1 a2 a3 a4 a5).1.Canon := by
  unfold State.copyTo
  repeat'
    first
    | with_reducible assumption
    | with_reducible refine canon_ite ?_ ?_
    | with_reducible refine canon_startCopy _ _ _ _ _ _ _ ?_
    | dsimp only
    | split
    | with_reducible refine canon_upd ?_ rfl rfl rfl rfl rfl rfl

theorem canon_startMove (a0 : State) (a1 : Nat) (a2 : Nat) (a3 : Nat) (a4 : Bool) (a5 : Nat) (h : a0.Canon) :
    (State.startMove a0 a1 a2 a3 a4 a5).1.Canon := by
  unfold State.startMove
  repeat'
    first
    | with_reducible assumption
    | with_reducible refine canon_ite ?_ ?_
    | with_reducible refine canon_takeT2 _ _ _ _ ?_
    | with_reducible refine canon_takeT1 _ _ _ _ ?_
    | with_reducible refine canon_copyTo _ _ _ _ _ _ ?_
    | with_reducible refine canon_startLoan _ _ _ _ _ ?_
    | with_reducible refine canon_pair (by assumption) ?_
    | dsimp only
    | split
    | with_reducible refine canon_upd ?_ rfl rfl rfl rfl rfl rfl

theorem canon_lateMove (a0 : State) (a1 : Nat) (a2 : Nat) (h : a0.Canon) : (State.lateMove a0 a1 a2).Canon := by
  unfold State.lateMove
  repeat'
    first
    | with_reducible assumption
    | with_reducible refine canon_ite ?_ ?_
    | with_reducible refine canon_pinGo _ _ ?_
    | with_reducible refine canon_startMove _ _ _ _ _ _ ?_
    | with_reducible refine canon_pinStall _ _ ?_
    | with_reducible refine canon_pair (by assumption) ?_
    | dsimp only
    | split
    | with_reducible refine canon_upd ?_ rfl rfl rfl rfl rfl rfl

theorem canon_updEvicting (a0 : State) (h : a0.Canon) : (State.updEvicting a0).Canon := by
  unfold State.updEvicting
  repeat'
    first
    | with_reducible assumption
    | with_reducible refine canon_ite ?_ ?_
    | with_reducible refine canon_set0 _ _ _ ?_
    | with_reducible refine canon_set1 _ _ _ ?_
    | dsimp only
    | split
    | with_reducible refine canon_upd ?_ rfl rfl rfl rfl rfl rfl

end Sys2Proof.Machine
end

