-- ==== Sys2Proof/Laws/Canon/Rebuild.lean ====
section
/-! SUPPORT. The operations of `Rebuild.lean` keep the canonical form of the state. -/

namespace Sys2Proof.Machine

open Sys2Proof

theorem canon_putGather (a0 : State) (a1 : Gather) (h : a0.Canon) : (State.putGather a0 a1).Canon := by
  unfold State.putGather
  repeat'
    first
    | with_reducible assumption
    | with_reducible refine canon_ite ?_ ?_
    | with_reducible refine canon_dropGather _ _ _ ?_
    | dsimp only
    | split
    | with_reducible refine canon_upd ?_ rfl rfl rfl rfl rfl rfl

theorem canon_releaseHeld (a0 : Nat) (a1 : Nat) (a2 : Nat) (a3 : State) (h : a3.Canon) :
    (State.releaseHeld a0 a1 a2 a3).Canon := by
  induction a2 generalizing a0 a1 a3 with
  | zero =>
    unfold State.releaseHeld
    repeat'
      first
      | with_reducible assumption
      | with_reducible refine canon_ite ?_ ?_
      | with_reducible refine canon_applyRecord _ _ _ ?_
      | with_reducible refine canon_rxSet _ _ ?_
      | with_reducible refine canon_rxCount _ _ _ ?_
      | with_reducible refine canon_tagRead _ _ _ ?_
      | with_reducible refine canon_pair (by assumption) ?_
      | dsimp only
      | split
      | with_reducible refine canon_upd ?_ rfl rfl rfl rfl rfl rfl
  | succ n ih =>
    unfold State.releaseHeld
    repeat'
      first
      | with_reducible assumption
      | with_reducible refine canon_ite ?_ ?_
      | with_reducible refine ih _ _ _ ?_
      | with_reducible refine canon_applyRecord _ _ _ ?_
      | with_reducible refine canon_rxSet _ _ ?_
      | with_reducible refine canon_rxCount _ _ _ ?_
      | with_reducible refine canon_tagRead _ _ _ ?_
      | with_reducible refine canon_pair (by assumption) ?_
      | dsimp only
      | split
      | with_reducible refine canon_upd ?_ rfl rfl rfl rfl rfl rfl

theorem canon_releaseAll (a0 : State) (a1 : Nat) (h : a0.Canon) : (State.releaseAll a0 a1).Canon := by
  unfold State.releaseAll
  repeat'
    first
    | with_reducible assumption
    | with_reducible refine canon_ite ?_ ?_
    | with_reducible refine canon_releaseHeld _ _ _ _ ?_
    | with_reducible refine canon_foldl ?_ (fun _ _ _ => ?_)
    | with_reducible refine canon_foldl_fst ?_ (fun _ _ _ => ?_)
    | with_reducible refine canon_pair (by assumption) ?_
    | dsimp only
    | split
    | with_reducible refine canon_upd ?_ rfl rfl rfl rfl rfl rfl

theorem canon_askRole (a0 : State) (a1 : Gather) (a2 : Nat) (a3 : Bool) (h : a0.Canon) :
    (State.askRole a0 a1 a2 a3).1.Canon := by
  unfold State.askRole
  repeat'
    first
    | with_reducible assumption
    | with_reducible refine canon_ite ?_ ?_
    | with_reducible refine canon_sendRole _ _ _ _ _ ?_
    | dsimp only
    | split
    | with_reducible refine canon_upd ?_ rfl rfl rfl rfl rfl rfl

theorem canon_askRoles (a0 : State) (a1 : Gather) (a2 : List Nat) (a3 : Bool) (h : a0.Canon) :
    (State.askRoles a0 a1 a2 a3).1.Canon := by
  unfold State.askRoles
  repeat'
    first
    | with_reducible assumption
    | with_reducible refine canon_ite ?_ ?_
    | with_reducible refine canon_askRole _ _ _ _ ?_
    | with_reducible refine canon_foldl ?_ (fun _ _ _ => ?_)
    | with_reducible refine canon_foldl_fst ?_ (fun _ _ _ => ?_)
    | with_reducible refine canon_pair (by assumption) ?_
    | dsimp only
    | split
    | with_reducible refine canon_upd ?_ rfl rfl rfl rfl rfl rfl

theorem canon_gatherBegin (a0 : State) (a1 : Gather) (h : a0.Canon) : (State.gatherBegin a0 a1).Canon := by
  unfold State.gatherBegin
  repeat'
    first
    | with_reducible assumption
    | with_reducible refine canon_ite ?_ ?_
    | with_reducible refine canon_putGather _ _ ?_
    | with_reducible refine canon_askRoles _ _ _ _ ?_
    | with_reducible refine canon_dropGather _ _ _ ?_
    | with_reducible refine canon_escalate _ _ _ _ ?_
    | with_reducible refine canon_releaseAll _ _ ?_
    | with_reducible refine canon_pair (by assumption) ?_
    | dsimp only
    | split
    | with_reducible refine canon_upd ?_ rfl rfl rfl rfl rfl rfl

theorem canon_gatherStart (a0 : State) (a1 : Nat) (a2 : Nat) (a3 : GatherUse) (a4 : List Nat) (h : a0.Canon) :
    (State.gatherStart a0 a1 a2 a3 a4).Canon := by
  unfold State.gatherStart
  repeat'
    first
    | with_reducible assumption
    | with_reducible refine canon_ite ?_ ?_
    | with_reducible refine canon_escalate _ _ _ _ ?_
    | with_reducible refine canon_releaseAll _ _ ?_
    | with_reducible refine canon_gatherBegin _ _ ?_
    | dsimp only
    | split
    | with_reducible refine canon_upd ?_ rfl rfl rfl rfl rfl rfl

theorem canon_heldRepairs (a0 : State) (h : a0.Canon) : (State.heldRepairs a0).Canon := by
  unfold State.heldRepairs
  repeat'
    first
    | with_reducible assumption
    | with_reducible refine canon_ite ?_ ?_
    | with_reducible refine canon_gatherStart _ _ _ _ _ ?_
    | with_reducible refine canon_foldl ?_ (fun _ _ _ => ?_)
    | with_reducible refine canon_foldl_fst ?_ (fun _ _ _ => ?_)
    | with_reducible refine canon_pair (by assumption) ?_
    | dsimp only
    | split
    | with_reducible refine canon_upd ?_ rfl rfl rfl rfl rfl rfl

theorem canon_gatherFor (a0 : State) (a1 : Nat) (a2 : Option (Nat × GatherUse)) (h : a0.Canon) :
    (State.gatherFor a0 a1 a2).Canon := by
  unfold State.gatherFor
  repeat'
    first
    | with_reducible assumption
    | with_reducible refine canon_ite ?_ ?_
    | with_reducible refine canon_bump _ _ _ _ ?_
    | with_reducible refine canon_gatherStart _ _ _ _ _ ?_
    | dsimp only
    | split
    | with_reducible refine canon_upd ?_ rfl rfl rfl rfl rfl rfl

theorem canon_reseedServed (a0 : State) (a1 : Nat) (a2 : Nat) (a3 : Nat) (h : a0.Canon) :
    (State.reseedServed a0 a1 a2 a3).Canon := by
  unfold State.reseedServed
  repeat'
    first
    | with_reducible assumption
    | with_reducible refine canon_ite ?_ ?_
    | with_reducible refine canon_setOpen _ _ ?_
    | dsimp only
    | split
    | with_reducible refine canon_upd ?_ rfl rfl rfl rfl rfl rfl

theorem canon_gatherServe (a0 : State) (a1 : Nat) (a2 : List Byte) (h : a0.Canon) : (State.gatherServe a0 a1 a2).Canon := by
  unfold State.gatherServe
  repeat'
    first
    | with_reducible assumption
    | with_reducible refine canon_ite ?_ ?_
    | with_reducible refine canon_reseedServed _ _ _ _ ?_
    | with_reducible refine canon_gatherStart _ _ _ _ _ ?_
    | with_reducible refine canon_readTier _ _ _ _ ?_
    | with_reducible refine canon_tagRead _ _ _ ?_
    | with_reducible refine canon_sendMsg _ _ _ _ _ _ ?_
    | with_reducible refine canon_rxStale _ ?_
    | with_reducible refine canon_pair (by assumption) ?_
    | dsimp only
    | split
    | with_reducible refine canon_upd ?_ rfl rfl rfl rfl rfl rfl

theorem canon_writeData (a0 : State) (a1 : Gather) (a2 : List Byte) (a3 : Nat) (a4 : Nat) (a5 : Nat) (h : a0.Canon) :
    (State.writeData a0 a1 a2 a3 a4 a5).Canon := by
  unfold State.writeData
  repeat'
    first
    | with_reducible assumption
    | with_reducible refine canon_ite ?_ ?_
    | with_reducible refine canon_rowDone _ _ ?_
    | with_reducible refine canon_report _ _ _ _ _ _ _ ?_
    | with_reducible refine canon_logErr _ _ ?_
    | with_reducible refine canon_tagPut _ _ _ _ ?_
    | with_reducible refine canon_writeTier _ _ _ _ ?_
    | with_reducible refine canon_tagRead _ _ _ ?_
    | with_reducible refine canon_foldl ?_ (fun _ _ _ => ?_)
    | with_reducible refine canon_foldl_fst ?_ (fun _ _ _ => ?_)
    | with_reducible refine canon_pair (by assumption) ?_
    | dsimp only
    | split
    | with_reducible refine canon_upd ?_ rfl rfl rfl rfl rfl rfl

theorem canon_writeParity (a0 : State) (a1 : Gather) (a2 : List (Nat × List Byte × Nat × Nat)) (h : a0.Canon) :
    (State.writeParity a0 a1 a2).Canon := by
  unfold State.writeParity
  repeat'
    first
    | with_reducible assumption
    | with_reducible refine canon_ite ?_ ?_
    | with_reducible refine canon_rowDone _ _ ?_
    | with_reducible refine canon_logErr _ _ ?_
    | with_reducible refine canon_tagPut _ _ _ _ ?_
    | with_reducible refine canon_writeTier _ _ _ _ ?_
    | with_reducible refine canon_tagRead _ _ _ ?_
    | with_reducible refine canon_foldl ?_ (fun _ _ _ => ?_)
    | with_reducible refine canon_foldl_fst ?_ (fun _ _ _ => ?_)
    | with_reducible refine canon_pair (by assumption) ?_
    | dsimp only
    | split
    | with_reducible refine canon_upd ?_ rfl rfl rfl rfl rfl rfl

theorem canon_sendRepair (a0 : State) (a1 : Gather) (a2 : Nat) (a3 : List (Nat × List Byte)) (h : a0.Canon) :
    (State.sendRepair a0 a1 a2 a3).Canon := by
  unfold State.sendRepair
  repeat'
    first
    | with_reducible assumption
    | with_reducible refine canon_ite ?_ ?_
    | with_reducible refine canon_sendRole _ _ _ _ _ ?_
    | with_reducible refine canon_bump _ _ _ _ ?_
    | with_reducible refine canon_nextSeq _ _ _ ?_
    | with_reducible refine canon_pair_snd (by assumption) ?_
    | dsimp only
    | split
    | with_reducible refine canon_upd ?_ rfl rfl rfl rfl rfl rfl

theorem canon_gatherEnd (a0 : State) (a1 : Gather) (a2 : List (Nat × List Byte × Nat × Nat)) (h : a0.Canon) :
    (State.gatherEnd a0 a1 a2).Canon := by
  unfold State.gatherEnd
  repeat'
    first
    | with_reducible assumption
    | with_reducible refine canon_ite ?_ ?_
    | with_reducible refine canon_sendAck _ _ _ ?_
    | with_reducible refine canon_dropGather _ _ _ ?_
    | with_reducible refine canon_writeParity _ _ _ ?_
    | with_reducible refine canon_writeData _ _ _ _ _ _ ?_
    | with_reducible refine canon_tagRead _ _ _ ?_
    | with_reducible refine canon_releaseAll _ _ ?_
    | with_reducible refine canon_foldl ?_ (fun _ _ _ => ?_)
    | with_reducible refine canon_foldl_fst ?_ (fun _ _ _ => ?_)
    | with_reducible refine canon_pair (by assumption) ?_
    | dsimp only
    | split
    | with_reducible refine canon_upd ?_ rfl rfl rfl rfl rfl rfl

theorem canon_repairStep (a0 : State) (a1 : Gather) (h : a0.Canon) : (State.repairStep a0 a1).Canon := by
  unfold State.repairStep
  repeat'
    first
    | with_reducible assumption
    | with_reducible refine canon_ite ?_ ?_
    | with_reducible refine canon_putGather _ _ ?_
    | with_reducible refine canon_askRoles _ _ _ _ ?_
    | with_reducible refine canon_gatherBegin _ _ ?_
    | with_reducible refine canon_gatherEnd _ _ _ ?_
    | with_reducible refine canon_sendRepair _ _ _ _ ?_
    | with_reducible refine canon_foldl ?_ (fun _ _ _ => ?_)
    | with_reducible refine canon_foldl_fst ?_ (fun _ _ _ => ?_)
    | with_reducible refine canon_pair (by assumption) ?_
    | dsimp only
    | split
    | with_reducible refine canon_upd ?_ rfl rfl rfl rfl rfl rfl

theorem canon_gatherStep (a0 : State) (a1 : Gather) (h : a0.Canon) : (State.gatherStep a0 a1).Canon := by
  unfold State.gatherStep
  repeat'
    first
    | with_reducible assumption
    | with_reducible refine canon_ite ?_ ?_
    | with_reducible refine canon_repairStep _ _ ?_
    | with_reducible refine canon_gatherEnd _ _ _ ?_
    | with_reducible refine canon_tagRead _ _ _ ?_
    | with_reducible refine canon_gatherBegin _ _ ?_
    | with_reducible refine canon_askRoles _ _ _ _ ?_
    | with_reducible refine canon_escalate _ _ _ _ ?_
    | with_reducible refine canon_releaseAll _ _ ?_
    | with_reducible refine canon_putGather _ _ ?_
    | with_reducible refine canon_pair (by assumption) ?_
    | dsimp only
    | split
    | with_reducible refine canon_upd ?_ rfl rfl rfl rfl rfl rfl

theorem canon_gatherFail (a0 : State) (a1 : Gather) (a2 : Nat) (a3 : Bool) (h : a0.Canon) :
    (State.gatherFail a0 a1 a2 a3).Canon := by
  unfold State.gatherFail
  repeat'
    first
    | with_reducible assumption
    | with_reducible refine canon_ite ?_ ?_
    | with_reducible refine canon_dropGather _ _ _ ?_
    | with_reducible refine canon_gatherBegin _ _ ?_
    | with_reducible refine canon_gatherStep _ _ ?_
    | dsimp only
    | split
    | with_reducible refine canon_upd ?_ rfl rfl rfl rfl rfl rfl

theorem canon_gatherIn (a0 : State) (a1 : Nat) (a2 : List Byte) (a3 : Bool) (h : a0.Canon) :
    (State.gatherIn a0 a1 a2 a3).Canon := by
  unfold State.gatherIn
  repeat'
    first
    | with_reducible assumption
    | with_reducible refine canon_ite ?_ ?_
    | with_reducible refine canon_gatherStep _ _ ?_
    | with_reducible refine canon_gatherFail _ _ _ _ ?_
    | with_reducible refine canon_escalate _ _ _ _ ?_
    | with_reducible refine canon_releaseAll _ _ ?_
    | with_reducible refine canon_rxStale _ ?_
    | dsimp only
    | split
    | with_reducible refine canon_upd ?_ rfl rfl rfl rfl rfl rfl

theorem canon_gatherTimeout (a0 : State) (a1 : Nat) (a2 : Nat) (a3 : Nat) (h : a0.Canon) :
    (State.gatherTimeout a0 a1 a2 a3).Canon := by
  unfold State.gatherTimeout
  repeat'
    first
    | with_reducible assumption
    | with_reducible refine canon_ite ?_ ?_
    | with_reducible refine canon_suspect _ _ _ _ _ ?_
    | with_reducible refine canon_gatherFail _ _ _ _ ?_
    | dsimp only
    | split
    | with_reducible refine canon_upd ?_ rfl rfl rfl rfl rfl rfl

theorem canon_recordRx (a0 : State) (a1 : Nat) (a2 : List Byte) (h : a0.Canon) : (State.recordRx a0 a1 a2).Canon := by
  unfold State.recordRx
  repeat'
    first
    | with_reducible assumption
    | with_reducible refine canon_ite ?_ ?_
    | with_reducible refine canon_recordIn _ _ _ ?_
    | with_reducible refine canon_heldRepairs _ ?_
    | dsimp only
    | split
    | with_reducible refine canon_upd ?_ rfl rfl rfl rfl rfl rfl

theorem canon_countLast (a0 : State) (a1 : Nat) (a2 : Nat) (h : a0.Canon) : (State.countLast a0 a1 a2).Canon := by
  unfold State.countLast
  repeat'
    first
    | with_reducible assumption
    | with_reducible refine canon_ite ?_ ?_
    | with_reducible refine canon_irq _ _ _ ?_
    | with_reducible refine canon_logErr _ _ ?_
    | with_reducible refine canon_fset _ _ _ _ ?_
    | with_reducible refine canon_bumpSat _ _ _ _ ?_
    | dsimp only
    | split
    | with_reducible refine canon_upd ?_ rfl rfl rfl rfl rfl rfl

theorem canon_settleTick (a0 : State) (a1 : Nat) (a2 : Nat) (h : a0.Canon) : (State.settleTick a0 a1 a2).Canon := by
  unfold State.settleTick
  repeat'
    first
    | with_reducible assumption
    | with_reducible refine canon_ite ?_ ?_
    | with_reducible refine canon_countLast _ _ _ ?_
    | with_reducible refine canon_foldl ?_ (fun _ _ _ => ?_)
    | with_reducible refine canon_foldl_fst ?_ (fun _ _ _ => ?_)
    | with_reducible refine canon_pair (by assumption) ?_
    | dsimp only
    | split
    | with_reducible refine canon_upd ?_ rfl rfl rfl rfl rfl rfl

theorem canon_settleAll (a0 : State) (a1 : Nat) (h : a0.Canon) : (State.settleAll a0 a1).Canon := by
  unfold State.settleAll
  repeat'
    first
    | with_reducible assumption
    | with_reducible refine canon_ite ?_ ?_
    | with_reducible refine canon_settleTick _ _ _ ?_
    | with_reducible refine canon_foldl ?_ (fun _ _ _ => ?_)
    | with_reducible refine canon_foldl_fst ?_ (fun _ _ _ => ?_)
    | with_reducible refine canon_pair (by assumption) ?_
    | dsimp only
    | split
    | with_reducible refine canon_upd ?_ rfl rfl rfl rfl rfl rfl

theorem canon_resetStreams (a0 : State) (a1 : Nat) (a2 : Nat) (h : a0.Canon) : (State.resetStreams a0 a1 a2).Canon := by
  unfold State.resetStreams
  repeat'
    first
    | with_reducible assumption
    | with_reducible refine canon_ite ?_ ?_
    | dsimp only
    | split
    | with_reducible refine canon_upd ?_ rfl rfl rfl rfl rfl rfl

theorem canon_acksGiven (a0 : State) (a1 : Nat) (a2 : Nat) (h : a0.Canon) : (State.acksGiven a0 a1 a2).Canon := by
  unfold State.acksGiven
  repeat'
    first
    | with_reducible assumption
    | with_reducible refine canon_ite ?_ ?_
    | with_reducible refine canon_setOpen _ _ ?_
    | dsimp only
    | split
    | with_reducible refine canon_upd ?_ rfl rfl rfl rfl rfl rfl

theorem canon_declareLost (a0 : State) (a1 : Nat) (a2 : Nat) (h : a0.Canon) : (State.declareLost a0 a1 a2).Canon := by
  unfold State.declareLost
  repeat'
    first
    | with_reducible assumption
    | with_reducible refine canon_ite ?_ ?_
    | with_reducible refine canon_actingCheck _ _ ?_
    | with_reducible refine canon_formGrpSeal _ _ ?_
    | with_reducible refine canon_settleAll _ _ ?_
    | with_reducible refine canon_gatherFail _ _ _ _ ?_
    | with_reducible refine canon_logErr _ _ ?_
    | with_reducible refine canon_acksGiven _ _ _ ?_
    | with_reducible refine canon_closeDone _ ?_
    | with_reducible refine canon_wr _ _ _ _ ?_
    | with_reducible refine canon_resetStreams _ _ _ ?_
    | with_reducible refine canon_wr64 _ _ _ _ ?_
    | with_reducible refine canon_fset _ _ _ _ ?_
    | with_reducible refine canon_foldl ?_ (fun _ _ _ => ?_)
    | with_reducible refine canon_foldl_fst ?_ (fun _ _ _ => ?_)
    | with_reducible refine canon_pair (by assumption) ?_
    | dsimp only
    | split
    | with_reducible refine canon_upd ?_ rfl rfl rfl rfl rfl rfl

theorem canon_replaceRole (a0 : State) (a1 : Nat) (a2 : Nat) (a3 : Nat) (h : a0.Canon) :
    (State.replaceRole a0 a1 a2 a3).Canon := by
  unfold State.replaceRole
  repeat'
    first
    | with_reducible assumption
    | with_reducible refine canon_ite ?_ ?_
    | with_reducible refine canon_resetStreams _ _ _ ?_
    | with_reducible refine canon_actingCheck _ _ ?_
    | with_reducible refine canon_wr _ _ _ _ ?_
    | with_reducible refine canon_set1 _ _ _ ?_
    | with_reducible refine canon_fset _ _ _ _ ?_
    | dsimp only
    | split
    | with_reducible refine canon_upd ?_ rfl rfl rfl rfl rfl rfl

theorem canon_startRebuild (a0 : State) (a1 : Nat) (a2 : Nat) (h : a0.Canon) : (State.startRebuild a0 a1 a2).Canon := by
  unfold State.startRebuild
  repeat'
    first
    | with_reducible assumption
    | with_reducible refine canon_ite ?_ ?_
    | with_reducible refine canon_rowDone _ _ ?_
    | with_reducible refine canon_set0 _ _ _ ?_
    | with_reducible refine canon_set1 _ _ _ ?_
    | with_reducible refine canon_fset _ _ _ _ ?_
    | dsimp only
    | split
    | with_reducible refine canon_upd ?_ rfl rfl rfl rfl rfl rfl

theorem canon_rebuildRow (a0 : State) (a1 : Nat) (h : a0.Canon) : (State.rebuildRow a0 a1).Canon := by
  unfold State.rebuildRow
  repeat'
    first
    | with_reducible assumption
    | with_reducible refine canon_ite ?_ ?_
    | with_reducible refine canon_fset _ _ _ _ ?_
    | with_reducible refine canon_gatherStart _ _ _ _ _ ?_
    | dsimp only
    | split
    | with_reducible refine canon_upd ?_ rfl rfl rfl rfl rfl rfl

theorem canon_noteArrival (a0 : State) (a1 : Nat) (a2 : Nat) (a3 : Nat) (a4 : Nat) (h : a0.Canon) :
    (State.noteArrival a0 a1 a2 a3 a4).Canon := by
  unfold State.noteArrival
  repeat'
    first
    | with_reducible assumption
    | with_reducible refine canon_ite ?_ ?_
    | with_reducible refine canon_settleTick _ _ _ ?_
    | with_reducible refine canon_wr _ _ _ _ ?_
    | dsimp only
    | split
    | with_reducible refine canon_upd ?_ rfl rfl rfl rfl rfl rfl

theorem canon_tellArrival (a0 : State) (a1 : Nat) (a2 : Nat) (h : a0.Canon) : (State.tellArrival a0 a1 a2).Canon := by
  unfold State.tellArrival
  repeat'
    first
    | with_reducible assumption
    | with_reducible refine canon_ite ?_ ?_
    | with_reducible refine canon_sendRole _ _ _ _ _ ?_
    | with_reducible refine canon_noteArrival _ _ _ _ _ ?_
    | with_reducible refine canon_foldl ?_ (fun _ _ _ => ?_)
    | with_reducible refine canon_foldl_fst ?_ (fun _ _ _ => ?_)
    | with_reducible refine canon_pair (by assumption) ?_
    | dsimp only
    | split
    | with_reducible refine canon_upd ?_ rfl rfl rfl rfl rfl rfl

end Sys2Proof.Machine
end

