-- ==== Sys2Proof/Laws/Canon/Access.lean ====
section
/-! SUPPORT. The operations of `Access.lean` keep the canonical form of the state. -/

namespace Sys2Proof.Machine

open Sys2Proof

theorem canon_pin (a0 : State) (a1 : Nat) (a2 : Nat) (h : a0.Canon) : (State.pin a0 a1 a2).Canon := by
  unfold State.pin
  repeat'
    first
    | with_reducible assumption
    | with_reducible refine canon_ite ?_ ?_
    | with_reducible refine canon_setPme _ _ _ _ ?_
    | dsimp only
    | split
    | with_reducible refine canon_upd ?_ rfl rfl rfl rfl rfl rfl

theorem canon_park (a0 : State) (a1 : Access) (h : a0.Canon) : (State.park a0 a1).Canon := by
  unfold State.park
  repeat'
    first
    | with_reducible assumption
    | with_reducible refine canon_ite ?_ ?_
    | dsimp only
    | split
    | with_reducible refine canon_upd ?_ rfl rfl rfl rfl rfl rfl

theorem canon_masterRefused (a0 : State) (a1 : Nat) (a2 : Nat) (h : a0.Canon) : (State.masterRefused a0 a1 a2).Canon := by
  unfold State.masterRefused
  repeat'
    first
    | with_reducible assumption
    | with_reducible refine canon_ite ?_ ?_
    | with_reducible refine canon_bump _ _ _ _ ?_
    | with_reducible refine canon_irq _ _ _ ?_
    | with_reducible refine canon_logErr _ _ ?_
    | dsimp only
    | split
    | with_reducible refine canon_upd ?_ rfl rfl rfl rfl rfl rfl

theorem canon_mapWord (a0 : State) (a1 : Nat) (a2 : Nat) (h : a0.Canon) : (State.mapWord a0 a1 a2).1.Canon := by
  unfold State.mapWord
  repeat'
    first
    | with_reducible assumption
    | with_reducible refine canon_ite ?_ ?_
    | with_reducible refine canon_readSec _ _ _ ?_
    | with_reducible refine canon_pair (by assumption) ?_
    | dsimp only
    | split
    | with_reducible refine canon_upd ?_ rfl rfl rfl rfl rfl rfl

theorem canon_noteWrite (a0 : State) (a1 : Nat) (a2 : Nat) (h : a0.Canon) : (State.noteWrite a0 a1 a2).Canon := by
  unfold State.noteWrite
  repeat'
    first
    | with_reducible assumption
    | with_reducible refine canon_ite ?_ ?_
    | with_reducible refine canon_cachePme _ _ ?_
    | with_reducible refine canon_mapWord _ _ _ ?_
    | with_reducible refine canon_pair (by assumption) ?_
    | dsimp only
    | split
    | with_reducible refine canon_upd ?_ rfl rfl rfl rfl rfl rfl

theorem canon_discard (a0 : State) (a1 : Nat) (a2 : Nat) (a3 : Nat) (a4 : Pme) (h : a0.Canon) :
    (State.discard a0 a1 a2 a3 a4).1.Canon := by
  unfold State.discard
  repeat'
    first
    | with_reducible assumption
    | with_reducible refine canon_ite ?_ ?_
    | with_reducible refine canon_bump _ _ _ _ ?_
    | with_reducible refine canon_logErr _ _ ?_
    | dsimp only
    | split
    | with_reducible refine canon_upd ?_ rfl rfl rfl rfl rfl rfl

theorem canon_pruneWaits (a0 : State) (a1 : Who) (h : a0.Canon) : (State.pruneWaits a0 a1).Canon := by
  unfold State.pruneWaits
  repeat'
    first
    | with_reducible assumption
    | with_reducible refine canon_ite ?_ ?_
    | dsimp only
    | split
    | with_reducible refine canon_upd ?_ rfl rfl rfl rfl rfl rfl

theorem canon_pageRead (a0 : State) (a1 : Nat) (a2 : Nat) (a3 : Nat) (a4 : Nat) (h : a0.Canon) :
    (State.pageRead a0 a1 a2 a3 a4).1.Canon := by
  unfold State.pageRead
  repeat'
    first
    | with_reducible assumption
    | with_reducible refine canon_ite ?_ ?_
    | with_reducible refine canon_gatherFor _ _ _ ?_
    | with_reducible refine canon_codedRead _ _ _ _ _ ?_
    | with_reducible refine canon_readTier _ _ _ _ ?_
    | with_reducible refine canon_touch _ _ _ ?_
    | with_reducible refine canon_masterRefused _ _ _ ?_
    | with_reducible refine canon_pmeRead _ _ _ ?_
    | with_reducible refine canon_pair (by assumption) ?_
    | dsimp only
    | split
    | with_reducible refine canon_upd ?_ rfl rfl rfl rfl rfl rfl

theorem canon_frameWrite (a0 : State) (a1 : Nat) (a2 : Nat) (a3 : Tier) (a4 : Pme) (a5 : List (Option Byte)) (h : a0.Canon) :
    (State.frameWrite a0 a1 a2 a3 a4 a5).Canon := by
  unfold State.frameWrite
  repeat'
    first
    | with_reducible assumption
    | with_reducible refine canon_ite ?_ ?_
    | with_reducible refine canon_setPme _ _ _ _ ?_
    | with_reducible refine canon_writeTier _ _ _ _ ?_
    | with_reducible refine canon_foldl ?_ (fun _ _ _ => ?_)
    | with_reducible refine canon_foldl_fst ?_ (fun _ _ _ => ?_)
    | with_reducible refine canon_pair (by assumption) ?_
    | dsimp only
    | split
    | with_reducible refine canon_upd ?_ rfl rfl rfl rfl rfl rfl

theorem canon_pageWrite (a0 : State) (a1 : Who) (a2 : Nat) (a3 : Nat) (a4 : Nat) (a5 : List (Option Byte)) (h : a0.Canon) :
    (State.pageWrite a0 a1 a2 a3 a4 a5).1.Canon := by
  unfold State.pageWrite
  repeat'
    first
    | with_reducible assumption
    | with_reducible refine canon_ite ?_ ?_
    | with_reducible refine canon_gatherFor _ _ _ ?_
    | with_reducible refine canon_pruneWaits _ _ ?_
    | with_reducible refine canon_codedWrite _ _ _ _ _ _ _ ?_
    | with_reducible refine canon_frameWrite _ _ _ _ _ _ ?_
    | with_reducible refine canon_noteWrite _ _ _ ?_
    | with_reducible refine canon_setFrame _ _ _ _ ?_
    | with_reducible refine canon_setPme _ _ _ _ ?_
    | with_reducible refine canon_takeT1 _ _ _ _ ?_
    | with_reducible refine canon_touch _ _ _ ?_
    | with_reducible refine canon_masterRefused _ _ _ ?_
    | with_reducible refine canon_discard _ _ _ _ _ ?_
    | with_reducible refine canon_pmeRead _ _ _ ?_
    | with_reducible refine canon_pair (by assumption) ?_
    | dsimp only
    | split
    | with_reducible refine canon_upd ?_ rfl rfl rfl rfl rfl rfl

theorem canon_poisonAt (a0 : State) (a1 : Who) (a2 : Nat) (a3 : Nat) (h : a0.Canon) : (State.poisonAt a0 a1 a2 a3).Canon := by
  unfold State.poisonAt
  repeat'
    first
    | with_reducible assumption
    | with_reducible refine canon_ite ?_ ?_
    | with_reducible refine canon_putPoison _ _ _ ?_
    | with_reducible refine canon_noteWrite _ _ _ ?_
    | with_reducible refine canon_pageWrite _ _ _ _ _ _ ?_
    | with_reducible refine canon_pair (by assumption) ?_
    | dsimp only
    | split
    | with_reducible refine canon_upd ?_ rfl rfl rfl rfl rfl rfl

theorem canon_farPin (a0 : State) (a1 : Nat) (a2 : Nat) (h : a0.Canon) : (State.farPin a0 a1 a2).Canon := by
  unfold State.farPin
  repeat'
    first
    | with_reducible assumption
    | with_reducible refine canon_ite ?_ ?_
    | with_reducible refine canon_pin _ _ _ ?_
    | dsimp only
    | split
    | with_reducible refine canon_upd ?_ rfl rfl rfl rfl rfl rfl

theorem canon_pieceFetch (a0 : State) (a1 : Nat) (a2 : Nat) (a3 : Nat) (a4 : Nat) (a5 : Nat) (h : a0.Canon) :
    (State.pieceFetch a0 a1 a2 a3 a4 a5).1.Canon := by
  unfold State.pieceFetch
  repeat'
    first
    | with_reducible assumption
    | with_reducible refine canon_ite ?_ ?_
    | with_reducible refine canon_pinGo _ _ ?_
    | with_reducible refine canon_farPin _ _ _ ?_
    | with_reducible refine canon_offerReq _ _ _ _ _ _ _ _ _ _ _ _ _ ?_
    | with_reducible refine canon_pinStall _ _ ?_
    | with_reducible refine canon_readTier _ _ _ _ ?_
    | with_reducible refine canon_foldl ?_ (fun _ _ _ => ?_)
    | with_reducible refine canon_foldl_fst ?_ (fun _ _ _ => ?_)
    | with_reducible refine canon_pair (by assumption) ?_
    | dsimp only
    | split
    | with_reducible refine canon_upd ?_ rfl rfl rfl rfl rfl rfl

theorem canon_farTaken (a0 : State) (a1 : Nat) (a2 : Nat) (a3 : Nat) (h : a0.Canon) : (State.farTaken a0 a1 a2 a3).Canon :=
  canon_upd h rfl rfl rfl rfl rfl rfl

theorem canon_readSpan (a0 : State) (a1 : Nat) (a2 : Nat) (a3 : Nat) (a4 : Nat) (h : a0.Canon) :
    (State.readSpan a0 a1 a2 a3 a4).1.Canon := by
  unfold State.readSpan
  repeat'
    first
    | with_reducible assumption
    | with_reducible refine canon_ite ?_ ?_
    | with_reducible refine canon_farTaken _ _ _ _ ?_
    | with_reducible refine canon_pieceFetch _ _ _ _ _ _ ?_
    | with_reducible refine canon_pageRead _ _ _ _ _ ?_
    | with_reducible refine canon_foldl ?_ (fun _ _ _ => ?_)
    | with_reducible refine canon_foldl_fst ?_ (fun _ _ _ => ?_)
    | with_reducible refine canon_pair (by assumption) ?_
    | dsimp only
    | split
    | with_reducible refine canon_upd ?_ rfl rfl rfl rfl rfl rfl

theorem canon_readRange (a0 : State) (a1 : Nat) (a2 : Nat) (a3 : Nat) (a4 : Nat) (h : a0.Canon) :
    (State.readRange a0 a1 a2 a3 a4).1.Canon := by
  unfold State.readRange
  repeat'
    first
    | with_reducible assumption
    | with_reducible refine canon_ite ?_ ?_
    | with_reducible refine canon_pinGo _ _ ?_
    | with_reducible refine canon_readSpan _ _ _ _ _ ?_
    | with_reducible refine canon_pinStall _ _ ?_
    | with_reducible refine canon_pair (by assumption) ?_
    | dsimp only
    | split
    | with_reducible refine canon_upd ?_ rfl rfl rfl rfl rfl rfl

theorem canon_writeRange (a0 : State) (a1 : Who) (a2 : Nat) (a3 : Nat) (a4 : Nat) (a5 : List (Option Byte)) (h : a0.Canon) :
    (State.writeRange a0 a1 a2 a3 a4 a5).1.Canon := by
  unfold State.writeRange
  repeat'
    first
    | with_reducible assumption
    | with_reducible refine canon_ite ?_ ?_
    | with_reducible refine canon_pinGo _ _ ?_
    | with_reducible refine canon_pageWrite _ _ _ _ _ _ ?_
    | with_reducible refine canon_pinStall _ _ ?_
    | with_reducible refine canon_foldl ?_ (fun _ _ _ => ?_)
    | with_reducible refine canon_foldl_fst ?_ (fun _ _ _ => ?_)
    | with_reducible refine canon_pair (by assumption) ?_
    | dsimp only
    | split
    | with_reducible refine canon_upd ?_ rfl rfl rfl rfl rfl rfl

theorem canon_unpin (a0 : State) (a1 : Nat) (a2 : Nat) (h : a0.Canon) : (State.unpin a0 a1 a2).Canon := by
  unfold State.unpin
  repeat'
    first
    | with_reducible assumption
    | with_reducible refine canon_ite ?_ ?_
    | with_reducible refine canon_releaseCheck _ _ _ ?_
    | with_reducible refine canon_releaseLinger _ _ _ _ ?_
    | with_reducible refine canon_setPme _ _ _ _ ?_
    | dsimp only
    | split
    | with_reducible refine canon_upd ?_ rfl rfl rfl rfl rfl rfl

theorem canon_seqLookup (a0 : State) (a1 : Nat) (a2 : Nat) (a3 : Nat) (h : a0.Canon) :
    (State.seqLookup a0 a1 a2 a3).1.Canon := by
  unfold State.seqLookup
  repeat'
    first
    | with_reducible assumption
    | with_reducible refine canon_ite ?_ ?_
    | with_reducible refine canon_readRange _ _ _ _ _ ?_
    | with_reducible refine canon_pair (by assumption) ?_
    | dsimp only
    | split
    | with_reducible refine canon_upd ?_ rfl rfl rfl rfl rfl rfl

theorem canon_seqSet (a0 : State) (a1 : Who) (a2 : Nat) (a3 : Nat) (a4 : Nat) (a5 : Option Nat) (h : a0.Canon) :
    (State.seqSet a0 a1 a2 a3 a4 a5).1.Canon := by
  unfold State.seqSet
  repeat'
    first
    | with_reducible assumption
    | with_reducible refine canon_ite ?_ ?_
    | with_reducible refine canon_writeRange _ _ _ _ _ _ ?_
    | with_reducible refine canon_pair (by assumption) ?_
    | dsimp only
    | split
    | with_reducible refine canon_upd ?_ rfl rfl rfl rfl rfl rfl

theorem canon_kvTake (a0 : State) (a1 : Nat) (h : a0.Canon) : (State.kvTake a0 a1).1.Canon := by
  unfold State.kvTake
  repeat'
    first
    | with_reducible assumption
    | with_reducible refine canon_ite ?_ ?_
    | with_reducible refine canon_irq _ _ _ ?_
    | dsimp only
    | split
    | with_reducible refine canon_upd ?_ rfl rfl rfl rfl rfl rfl

theorem canon_kvReturn (a0 : State) (a1 : Nat) (a2 : Nat) (h : a0.Canon) : (State.kvReturn a0 a1 a2).Canon := by
  unfold State.kvReturn
  repeat'
    first
    | with_reducible assumption
    | with_reducible refine canon_ite ?_ ?_
    | dsimp only
    | split
    | with_reducible refine canon_upd ?_ rfl rfl rfl rfl rfl rfl

theorem canon_putSectors (a0 : State) (a1 : Nat) (a2 : Nat) (a3 : List (Option Byte)) (h : a0.Canon) :
    (State.putSectors a0 a1 a2 a3).Canon := by
  induction a2 generalizing a0 a1 a3 with
  | zero =>
    unfold State.putSectors
    repeat'
      first
      | with_reducible assumption
      | with_reducible refine canon_ite ?_ ?_
      | with_reducible refine canon_writeTier _ _ _ _ ?_
      | with_reducible refine canon_putPoison _ _ _ ?_
      | dsimp only
      | split
      | with_reducible refine canon_upd ?_ rfl rfl rfl rfl rfl rfl
  | succ n ih =>
    unfold State.putSectors
    repeat'
      first
      | with_reducible assumption
      | with_reducible refine canon_ite ?_ ?_
      | with_reducible refine ih _ _ _ ?_
      | with_reducible refine canon_writeTier _ _ _ _ ?_
      | with_reducible refine canon_putPoison _ _ _ ?_
      | dsimp only
      | split
      | with_reducible refine canon_upd ?_ rfl rfl rfl rfl rfl rfl

theorem canon_cowSwitch (a0 : State) (a1 : Nat) (a2 : Nat) (a3 : Nat) (a4 : Nat) (a5 : List (Option Byte)) (h : a0.Canon) :
    (State.cowSwitch a0 a1 a2 a3 a4 a5).Canon := by
  unfold State.cowSwitch
  repeat'
    first
    | with_reducible assumption
    | with_reducible refine canon_ite ?_ ?_
    | with_reducible refine canon_bump _ _ _ _ ?_
    | with_reducible refine canon_dropRef _ _ _ ?_
    | with_reducible refine canon_noteWrite _ _ _ ?_
    | with_reducible refine canon_setPme _ _ _ _ ?_
    | with_reducible refine canon_putSectors _ _ _ _ ?_
    | with_reducible refine canon_copyFrame _ _ _ _ _ ?_
    | with_reducible refine canon_foldl ?_ (fun _ _ _ => ?_)
    | with_reducible refine canon_foldl_fst ?_ (fun _ _ _ => ?_)
    | with_reducible refine canon_pair (by assumption) ?_
    | dsimp only
    | split
    | with_reducible refine canon_upd ?_ rfl rfl rfl rfl rfl rfl

theorem canon_cowPoint (a0 : State) (a1 : Who) (a2 : Nat) (a3 : Nat) (a4 : Nat) (a5 : Nat) (a6 : Nat) (a7 : Nat) (a8 : List (Option Byte)) (h : a0.Canon) :
    (State.cowPoint a0 a1 a2 a3 a4 a5 a6 a7 a8).1.Canon := by
  unfold State.cowPoint
  repeat'
    first
    | with_reducible assumption
    | with_reducible refine canon_ite ?_ ?_
    | with_reducible refine canon_kvReturn _ _ _ ?_
    | with_reducible refine canon_cowSwitch _ _ _ _ _ _ ?_
    | with_reducible refine canon_setFrame _ _ _ _ ?_
    | with_reducible refine canon_seqSet _ _ _ _ _ _ ?_
    | with_reducible refine canon_pair (by assumption) ?_
    | dsimp only
    | split
    | with_reducible refine canon_upd ?_ rfl rfl rfl rfl rfl rfl

theorem canon_cowCopy (a0 : State) (a1 : Who) (a2 : Nat) (a3 : Nat) (a4 : Nat) (a5 : Nat) (a6 : Nat) (a7 : List (Option Byte)) (h : a0.Canon) :
    (State.cowCopy a0 a1 a2 a3 a4 a5 a6 a7).1.Canon := by
  unfold State.cowCopy
  repeat'
    first
    | with_reducible assumption
    | with_reducible refine canon_ite ?_ ?_
    | with_reducible refine canon_cowPoint _ _ _ _ _ _ _ _ _ ?_
    | with_reducible refine canon_moverUnpin _ _ _ ?_
    | with_reducible refine canon_pin _ _ _ ?_
    | with_reducible refine canon_takeT1 _ _ _ _ ?_
    | with_reducible refine canon_kvReturn _ _ _ ?_
    | with_reducible refine canon_pmeRead _ _ _ ?_
    | with_reducible refine canon_pair (by assumption) ?_
    | dsimp only
    | split
    | with_reducible refine canon_upd ?_ rfl rfl rfl rfl rfl rfl

theorem canon_cowPage (a0 : State) (a1 : Who) (a2 : Nat) (a3 : Nat) (a4 : Nat) (a5 : Nat) (h : a0.Canon) :
    (State.cowPage a0 a1 a2 a3 a4 a5).1.Canon := by
  unfold State.cowPage
  repeat'
    first
    | with_reducible assumption
    | with_reducible refine canon_ite ?_ ?_
    | with_reducible refine canon_cowCopy _ _ _ _ _ _ _ _ ?_
    | with_reducible refine canon_kvTake _ _ ?_
    | with_reducible refine canon_readRange _ _ _ _ _ ?_
    | with_reducible refine canon_pinGo _ _ ?_
    | with_reducible refine canon_pinStall _ _ ?_
    | with_reducible refine canon_pmeRead _ _ _ ?_
    | with_reducible refine canon_pair (by assumption) ?_
    | dsimp only
    | split
    | with_reducible refine canon_upd ?_ rfl rfl rfl rfl rfl rfl

end Sys2Proof.Machine
end

