-- ==== Sys2Proof/Laws/Canon/Arbiter.lean ====
section
/-! SUPPORT. The operations of `Arbiter.lean` keep the canonical form of the state. -/

namespace Sys2Proof.Machine

open Sys2Proof

theorem canon_quotaUse (a0 : State) (h : a0.Canon) : (State.quotaUse a0).Canon := by
  unfold State.quotaUse
  repeat'
    first
    | with_reducible assumption
    | with_reducible refine canon_ite ?_ ?_
    | with_reducible refine canon_set1 _ _ _ ?_
    | with_reducible refine canon_bump _ _ _ _ ?_
    | dsimp only
    | split
    | with_reducible refine canon_upd ?_ rfl rfl rfl rfl rfl rfl

theorem canon_arbTake (a0 : State) (a1 : ArbRes) (a2 : ArbReq) (h : a0.Canon) : (State.arbTake a0 a1 a2).Canon := by
  unfold State.arbTake
  repeat'
    first
    | with_reducible assumption
    | with_reducible refine canon_ite ?_ ?_
    | with_reducible refine canon_quotaUse _ ?_
    | with_reducible refine canon_bump _ _ _ _ ?_
    | with_reducible refine canon_event _ _ _ _ ?_
    | dsimp only
    | split
    | with_reducible refine canon_upd ?_ rfl rfl rfl rfl rfl rfl

theorem canon_arbPreempt (a0 : State) (a1 : ArbRes) (a2 : ArbReq) (h : a0.Canon) : (State.arbPreempt a0 a1 a2).Canon := by
  unfold State.arbPreempt
  repeat'
    first
    | with_reducible assumption
    | with_reducible refine canon_ite ?_ ?_
    | with_reducible refine canon_bump _ _ _ _ ?_
    | with_reducible refine canon_event _ _ _ _ ?_
    | dsimp only
    | split
    | with_reducible refine canon_upd ?_ rfl rfl rfl rfl rfl rfl

theorem canon_arbOpp (a0 : State) (a1 : ArbRes) (h : a0.Canon) : (State.arbOpp a0 a1).1.Canon := by
  unfold State.arbOpp
  repeat'
    first
    | with_reducible assumption
    | with_reducible refine canon_ite ?_ ?_
    | dsimp only
    | split
    | with_reducible refine canon_upd ?_ rfl rfl rfl rfl rfl rfl

theorem canon_arbOppUse (a0 : State) (a1 : ArbRes) (a2 : ArbReq) (h : a0.Canon) : (State.arbOppUse a0 a1 a2).Canon := by
  unfold State.arbOppUse
  repeat'
    first
    | with_reducible assumption
    | with_reducible refine canon_ite ?_ ?_
    | dsimp only
    | split
    | with_reducible refine canon_upd ?_ rfl rfl rfl rfl rfl rfl

theorem canon_arbCycle (a0 : State) (a1 : ArbRes) (a2 : List ArbReq) (a3 : Option (ArbReq × Bool)) (h : a0.Canon) :
    (State.arbCycle a0 a1 a2 a3).1.Canon := by
  unfold State.arbCycle
  repeat'
    first
    | with_reducible assumption
    | with_reducible refine canon_ite ?_ ?_
    | with_reducible refine canon_arbPreempt _ _ _ ?_
    | with_reducible refine canon_arbTake _ _ _ ?_
    | with_reducible refine canon_arbOppUse _ _ _ ?_
    | with_reducible refine canon_arbOpp _ _ ?_
    | with_reducible refine canon_pair (by assumption) ?_
    | dsimp only
    | split
    | with_reducible refine canon_upd ?_ rfl rfl rfl rfl rfl rfl

theorem canon_flipCells (a0 : State) (a1 : List (BitVec 33 × BitVec 9)) (h : a0.Canon) : (State.flipCells a0 a1).Canon := by
  refine canon_tower h (Mem.wf_foldl _ (fun m d hm => ?_) _ _ h.tower_mem)
  dsimp only
  split
  · exact Mem.wf_putRaw _ _ _ _ hm
  · exact hm

theorem canon_arbWindow (a0 : State) (h : a0.Canon) : (State.arbWindow a0).Canon := by
  unfold State.arbWindow
  repeat'
    first
    | with_reducible assumption
    | with_reducible refine canon_ite ?_ ?_
    | with_reducible refine canon_set0 _ _ _ ?_
    | dsimp only
    | split
    | with_reducible refine canon_upd ?_ rfl rfl rfl rfl rfl rfl

theorem canon_c1Latency (a0 : State) (a1 : Nat) (h : a0.Canon) : (State.c1Latency a0 a1).Canon := by
  unfold State.c1Latency
  repeat'
    first
    | with_reducible assumption
    | with_reducible refine canon_ite ?_ ?_
    | with_reducible refine canon_bump _ _ _ _ ?_
    | with_reducible refine canon_fset _ _ _ _ ?_
    | dsimp only
    | split
    | with_reducible refine canon_upd ?_ rfl rfl rfl rfl rfl rfl

end Sys2Proof.Machine
end

