-- ==== Sys2Proof/Laws/Canon/Queue.lean ====
section
/-! SUPPORT. The operations of `Queue.lean` keep the canonical form of the state. -/

namespace Sys2Proof.Machine

open Sys2Proof

theorem canon_qShowFull (a0 : State) (a1 : QKind) (a2 : Nat) (h : a0.Canon) : (State.qShowFull a0 a1 a2).Canon := by
  unfold State.qShowFull
  repeat'
    first
    | with_reducible assumption
    | with_reducible refine canon_ite ?_ ?_
    | with_reducible refine canon_fset _ _ _ _ ?_
    | dsimp only
    | split
    | with_reducible refine canon_upd ?_ rfl rfl rfl rfl rfl rfl

theorem canon_qTailWrite (a0 : State) (a1 : QKind) (a2 : Nat) (a3 : Nat) (h : a0.Canon) :
    (State.qTailWrite a0 a1 a2 a3).Canon := by
  unfold State.qTailWrite
  repeat'
    first
    | with_reducible assumption
    | with_reducible refine canon_ite ?_ ?_
    | with_reducible refine canon_fset _ _ _ _ ?_
    | with_reducible refine canon_set1 _ _ _ ?_
    | with_reducible refine canon_irq _ _ _ ?_
    | dsimp only
    | split
    | with_reducible refine canon_upd ?_ rfl rfl rfl rfl rfl rfl

theorem canon_qEnable (a0 : State) (a1 : QKind) (a2 : Nat) (a3 : Bool) (h : a0.Canon) : (State.qEnable a0 a1 a2 a3).Canon := by
  unfold State.qEnable
  repeat'
    first
    | with_reducible assumption
    | with_reducible refine canon_ite ?_ ?_
    | with_reducible refine canon_set1 _ _ _ ?_
    | with_reducible refine canon_fset _ _ _ _ ?_
    | with_reducible refine canon_qShowFull _ _ _ ?_
    | dsimp only
    | split
    | with_reducible refine canon_upd ?_ rfl rfl rfl rfl rfl rfl

theorem canon_qHead (a0 : State) (a1 : QKind) (a2 : Nat) (a3 : Nat) (h : a0.Canon) : (State.qHead a0 a1 a2 a3).1.Canon := by
  unfold State.qHead
  repeat'
    first
    | with_reducible assumption
    | with_reducible refine canon_ite ?_ ?_
    | with_reducible refine canon_readRange _ _ _ _ _ ?_
    | with_reducible refine canon_pair (by assumption) ?_
    | dsimp only
    | split
    | with_reducible refine canon_upd ?_ rfl rfl rfl rfl rfl rfl

theorem canon_qTake (a0 : State) (a1 : QKind) (a2 : Nat) (h : a0.Canon) : (State.qTake a0 a1 a2).Canon := by
  unfold State.qTake
  repeat'
    first
    | with_reducible assumption
    | with_reducible refine canon_ite ?_ ?_
    | with_reducible refine canon_fset _ _ _ _ ?_
    | dsimp only
    | split
    | with_reducible refine canon_upd ?_ rfl rfl rfl rfl rfl rfl

theorem canon_qRecord (a0 : State) (a1 : QKind) (a2 : Nat) (a3 : Option Nat) (a4 : List Byte) (h : a0.Canon) :
    (State.qRecord a0 a1 a2 a3 a4).Canon := by
  unfold State.qRecord
  repeat'
    first
    | with_reducible assumption
    | with_reducible refine canon_ite ?_ ?_
    | with_reducible refine canon_fset _ _ _ _ ?_
    | with_reducible refine canon_irq _ _ _ ?_
    | with_reducible refine canon_qShowFull _ _ _ ?_
    | with_reducible refine canon_park _ _ ?_
    | with_reducible refine canon_writeRange _ _ _ _ _ _ ?_
    | with_reducible refine canon_pair (by assumption) ?_
    | dsimp only
    | split
    | with_reducible refine canon_upd ?_ rfl rfl rfl rfl rfl rfl

theorem canon_qComplete (a0 : State) (a1 : QKind) (a2 : Nat) (a3 : Nat) (a4 : List Byte) (a5 : Nat) (a6 : List (Nat × Nat)) (a7 : Bool) (a8 : Option Nat) (h : a0.Canon) :
    (State.qComplete a0 a1 a2 a3 a4 a5 a6 a7 a8).Canon := by
  unfold State.qComplete
  repeat'
    first
    | with_reducible assumption
    | with_reducible refine canon_ite ?_ ?_
    | with_reducible refine canon_qRecord _ _ _ _ _ ?_
    | with_reducible refine canon_event _ _ _ _ ?_
    | dsimp only
    | split
    | with_reducible refine canon_upd ?_ rfl rfl rfl rfl rfl rfl

theorem canon_qRefuse (a0 : State) (a1 : QKind) (a2 : Nat) (a3 : Nat) (a4 : List Byte) (a5 : Nat) (a6 : Option Nat) (h : a0.Canon) :
    (State.qRefuse a0 a1 a2 a3 a4 a5 a6).Canon := by
  unfold State.qRefuse
  repeat'
    first
    | with_reducible assumption
    | with_reducible refine canon_ite ?_ ?_
    | with_reducible refine canon_irq _ _ _ ?_
    | with_reducible refine canon_logErr _ _ ?_
    | with_reducible refine canon_wr _ _ _ _ ?_
    | with_reducible refine canon_bump _ _ _ _ ?_
    | with_reducible refine canon_qRecord _ _ _ _ _ ?_
    | dsimp only
    | split
    | with_reducible refine canon_upd ?_ rfl rfl rfl rfl rfl rfl

theorem canon_qRun (a0 : State) (a1 : QKind) (a2 : Nat) (a3 : Nat) (a4 : Nat → Bool) (a5 : State → Nat → List Byte → State) (h : a0.Canon) (hf5 : ∀ t0 t1 t2, t0.Canon → (a5 t0 t1 t2).Canon) :
    (State.qRun a0 a1 a2 a3 a4 a5).Canon := by
  unfold State.qRun
  repeat'
    first
    | with_reducible assumption
    | with_reducible refine canon_ite ?_ ?_
    | with_reducible refine hf5 _ _ _ ?_
    | with_reducible refine canon_qTake _ _ _ ?_
    | with_reducible refine canon_qRefuse _ _ _ _ _ _ _ ?_
    | with_reducible refine canon_qHead _ _ _ _ ?_
    | with_reducible refine canon_pair (by assumption) ?_
    | dsimp only
    | split
    | with_reducible refine canon_upd ?_ rfl rfl rfl rfl rfl rfl

end Sys2Proof.Machine
end

