-- ==== Sys2Proof/Laws/Canon/Archive.lean ====
section
/-! SUPPORT. The operations of `Archive.lean` keep the canonical form of the state. -/

namespace Sys2Proof.Machine

open Sys2Proof

theorem canon_arcEntry (a0 : State) (a1 : Nat) (a2 : Nat) (h : a0.Canon) : (State.arcEntry a0 a1 a2).1.Canon := by
  unfold State.arcEntry
  repeat'
    first
    | with_reducible assumption
    | with_reducible refine canon_ite ?_ ?_
    | with_reducible refine canon_readRange _ _ _ _ _ ?_
    | with_reducible refine canon_pair (by assumption) ?_
    | dsimp only
    | split
    | with_reducible refine canon_upd ?_ rfl rfl rfl rfl rfl rfl

theorem canon_mapBit (a0 : State) (a1 : Nat) (a2 : Nat) (a3 : Nat) (h : a0.Canon) : (State.mapBit a0 a1 a2 a3).1.Canon := by
  unfold State.mapBit
  repeat'
    first
    | with_reducible assumption
    | with_reducible refine canon_ite ?_ ?_
    | with_reducible refine canon_mapWord _ _ _ ?_
    | with_reducible refine canon_pair (by assumption) ?_
    | dsimp only
    | split
    | with_reducible refine canon_upd ?_ rfl rfl rfl rfl rfl rfl

theorem canon_mapClear (a0 : State) (a1 : Nat) (a2 : Nat) (a3 : Nat) (h : a0.Canon) : (State.mapClear a0 a1 a2 a3).Canon := by
  unfold State.mapClear
  repeat'
    first
    | with_reducible assumption
    | with_reducible refine canon_ite ?_ ?_
    | with_reducible refine canon_towerPut _ _ _ ?_
    | with_reducible refine canon_mapWord _ _ _ ?_
    | with_reducible refine canon_pair (by assumption) ?_
    | dsimp only
    | split
    | with_reducible refine canon_upd ?_ rfl rfl rfl rfl rfl rfl

theorem canon_mapJoin (a0 : State) (a1 : Nat) (h : a0.Canon) : (State.mapJoin a0 a1).Canon := by
  unfold State.mapJoin
  repeat'
    first
    | with_reducible assumption
    | with_reducible refine canon_ite ?_ ?_
    | with_reducible refine canon_towerPut _ _ _ ?_
    | with_reducible refine canon_mapWord _ _ _ ?_
    | with_reducible refine canon_wordsOut _ _ ?_
    | with_reducible refine canon_foldl ?_ (fun _ _ _ => ?_)
    | with_reducible refine canon_foldl_fst ?_ (fun _ _ _ => ?_)
    | with_reducible refine canon_pair (by assumption) ?_
    | dsimp only
    | split
    | with_reducible refine canon_upd ?_ rfl rfl rfl rfl rfl rfl

theorem canon_setArcPoint (a0 : State) (a1 : Nat) (a2 : Option ArcPoint) (h : a0.Canon) :
    (State.setArcPoint a0 a1 a2).Canon := by
  unfold State.setArcPoint
  repeat'
    first
    | with_reducible assumption
    | with_reducible refine canon_ite ?_ ?_
    | dsimp only
    | split
    | with_reducible refine canon_upd ?_ rfl rfl rfl rfl rfl rfl

theorem canon_arcFail (a0 : State) (a1 : Nat) (a2 : Nat) (h : a0.Canon) : (State.arcFail a0 a1 a2).Canon := by
  unfold State.arcFail
  repeat'
    first
    | with_reducible assumption
    | with_reducible refine canon_ite ?_ ?_
    | with_reducible refine canon_logErr _ _ ?_
    | with_reducible refine canon_irq _ _ _ ?_
    | with_reducible refine canon_setArcPoint _ _ _ ?_
    | with_reducible refine canon_fset _ _ _ _ ?_
    | with_reducible refine canon_mapJoin _ _ ?_
    | dsimp only
    | split
    | with_reducible refine canon_upd ?_ rfl rfl rfl rfl rfl rfl

theorem canon_arcTransmit (a0 : State) (a1 : Nat) (a2 : ArcRec) (h : a0.Canon) : (State.arcTransmit a0 a1 a2).Canon := by
  unfold State.arcTransmit
  repeat'
    first
    | with_reducible assumption
    | with_reducible refine canon_ite ?_ ?_
    | with_reducible refine canon_sendMsg _ _ _ _ _ _ ?_
    | with_reducible refine canon_readRange _ _ _ _ _ ?_
    | with_reducible refine canon_pair (by assumption) ?_
    | dsimp only
    | split
    | with_reducible refine canon_upd ?_ rfl rfl rfl rfl rfl rfl

theorem canon_arcStage (a0 : State) (a1 : Nat) (a2 : Nat) (a3 : ArcPoint) (a4 : List Byte) (h : a0.Canon) :
    (State.arcStage a0 a1 a2 a3 a4).1.Canon := by
  unfold State.arcStage
  repeat'
    first
    | with_reducible assumption
    | with_reducible refine canon_ite ?_ ?_
    | with_reducible refine canon_arcTransmit _ _ _ ?_
    | with_reducible refine canon_event _ _ _ _ ?_
    | with_reducible refine canon_writeRange _ _ _ _ _ _ ?_
    | with_reducible refine canon_pair (by assumption) ?_
    | dsimp only
    | split
    | with_reducible refine canon_upd ?_ rfl rfl rfl rfl rfl rfl

theorem canon_arcCount (a0 : State) (a1 : Nat) (a2 : Nat) (h : a0.Canon) : (State.arcCount a0 a1 a2).Canon := by
  unfold State.arcCount
  repeat'
    first
    | with_reducible assumption
    | with_reducible refine canon_ite ?_ ?_
    | with_reducible refine canon_bump _ _ _ _ ?_
    | dsimp only
    | split
    | with_reducible refine canon_upd ?_ rfl rfl rfl rfl rfl rfl

theorem canon_arcStamp (a0 : State) (a1 : Nat) (a2 : Nat) (h : a0.Canon) : (State.arcStamp a0 a1 a2).1.Canon := by
  unfold State.arcStamp
  repeat'
    first
    | with_reducible assumption
    | with_reducible refine canon_ite ?_ ?_
    | with_reducible refine canon_tagRead _ _ _ ?_
    | with_reducible refine canon_pair (by assumption) ?_
    | dsimp only
    | split
    | with_reducible refine canon_upd ?_ rfl rfl rfl rfl rfl rfl

theorem canon_arcRead (a0 : State) (a1 : Nat) (a2 : Nat) (a3 : Nat) (h : a0.Canon) : (State.arcRead a0 a1 a2 a3).1.Canon := by
  unfold State.arcRead
  repeat'
    first
    | with_reducible assumption
    | with_reducible refine canon_ite ?_ ?_
    | with_reducible refine canon_readRange _ _ _ _ _ ?_
    | with_reducible refine canon_pair (by assumption) ?_
    | dsimp only
    | split
    | with_reducible refine canon_upd ?_ rfl rfl rfl rfl rfl rfl

theorem canon_arcGone (a0 : State) (a1 : Nat) (a2 : Nat) (h : a0.Canon) : (State.arcGone a0 a1 a2).Canon := by
  unfold State.arcGone
  repeat'
    first
    | with_reducible assumption
    | with_reducible refine canon_ite ?_ ?_
    | with_reducible refine canon_bump _ _ _ _ ?_
    | with_reducible refine canon_logErr _ _ ?_
    | dsimp only
    | split
    | with_reducible refine canon_upd ?_ rfl rfl rfl rfl rfl rfl

theorem canon_arcGranule (a0 : State) (a1 : Nat) (a2 : ArcPoint) (a3 : List Byte) (h : a0.Canon) :
    (State.arcGranule a0 a1 a2 a3).1.Canon := by
  unfold State.arcGranule
  repeat'
    first
    | with_reducible assumption
    | with_reducible refine canon_ite ?_ ?_
    | with_reducible refine canon_logErr _ _ ?_
    | with_reducible refine canon_set1 _ _ _ ?_
    | with_reducible refine canon_irq _ _ _ ?_
    | with_reducible refine canon_mapClear _ _ _ _ ?_
    | with_reducible refine canon_bump _ _ _ _ ?_
    | with_reducible refine canon_arcCount _ _ _ ?_
    | with_reducible refine canon_arcStage _ _ _ _ _ ?_
    | with_reducible refine canon_arcStamp _ _ _ ?_
    | with_reducible refine canon_arcGone _ _ _ ?_
    | with_reducible refine canon_arcRead _ _ _ _ ?_
    | with_reducible refine canon_mapBit _ _ _ _ ?_
    | with_reducible refine canon_pair (by assumption) ?_
    | dsimp only
    | split
    | with_reducible refine canon_upd ?_ rfl rfl rfl rfl rfl rfl

theorem canon_arcEnd (a0 : State) (a1 : Nat) (h : a0.Canon) : (State.arcEnd a0 a1).Canon := by
  unfold State.arcEnd
  repeat'
    first
    | with_reducible assumption
    | with_reducible refine canon_ite ?_ ?_
    | with_reducible refine canon_setArcPoint _ _ _ ?_
    | with_reducible refine canon_arcStage _ _ _ _ _ ?_
    | with_reducible refine canon_pair (by assumption) ?_
    | dsimp only
    | split
    | with_reducible refine canon_upd ?_ rfl rfl rfl rfl rfl rfl

theorem canon_arcDrop (a0 : State) (a1 : Nat) (a2 : List Byte) (h : a0.Canon) : (State.arcDrop a0 a1 a2).Canon := by
  unfold State.arcDrop
  repeat'
    first
    | with_reducible assumption
    | with_reducible refine canon_ite ?_ ?_
    | with_reducible refine canon_mapClear _ _ _ _ ?_
    | with_reducible refine canon_foldl ?_ (fun _ _ _ => ?_)
    | with_reducible refine canon_foldl_fst ?_ (fun _ _ _ => ?_)
    | with_reducible refine canon_pair (by assumption) ?_
    | dsimp only
    | split
    | with_reducible refine canon_upd ?_ rfl rfl rfl rfl rfl rfl

theorem canon_arcWalk (a0 : Nat) (a1 : Nat) (a2 : ArcPoint) (a3 : State) (h : a3.Canon) : (State.arcWalk a0 a1 a2 a3).Canon := by
  induction a1 generalizing a0 a2 a3 with
  | zero =>
    unfold State.arcWalk
    repeat'
      first
      | with_reducible assumption
      | with_reducible refine canon_ite ?_ ?_
      | with_reducible refine canon_arcGranule _ _ _ _ ?_
      | with_reducible refine canon_mapBit _ _ _ _ ?_
      | with_reducible refine canon_arcDrop _ _ _ ?_
      | with_reducible refine canon_bump _ _ _ _ ?_
      | with_reducible refine canon_logErr _ _ ?_
      | with_reducible refine canon_arcEntry _ _ _ ?_
      | with_reducible refine canon_fset _ _ _ _ ?_
      | with_reducible refine canon_arcEnd _ _ ?_
      | with_reducible refine canon_setArcPoint _ _ _ ?_
      | with_reducible refine canon_pair (by assumption) ?_
      | dsimp only
      | split
      | with_reducible refine canon_upd ?_ rfl rfl rfl rfl rfl rfl
  | succ n ih =>
    unfold State.arcWalk
    repeat'
      first
      | with_reducible assumption
      | with_reducible refine canon_ite ?_ ?_
      | with_reducible refine ih _ _ _ ?_
      | with_reducible refine canon_arcGranule _ _ _ _ ?_
      | with_reducible refine canon_mapBit _ _ _ _ ?_
      | with_reducible refine canon_arcDrop _ _ _ ?_
      | with_reducible refine canon_bump _ _ _ _ ?_
      | with_reducible refine canon_logErr _ _ ?_
      | with_reducible refine canon_arcEntry _ _ _ ?_
      | with_reducible refine canon_fset _ _ _ _ ?_
      | with_reducible refine canon_arcEnd _ _ ?_
      | with_reducible refine canon_setArcPoint _ _ _ ?_
      | with_reducible refine canon_pair (by assumption) ?_
      | dsimp only
      | split
      | with_reducible refine canon_upd ?_ rfl rfl rfl rfl rfl rfl

theorem canon_arcDone (a0 : State) (a1 : Nat) (h : a0.Canon) : (State.arcDone a0 a1).Canon := by
  unfold State.arcDone
  repeat'
    first
    | with_reducible assumption
    | with_reducible refine canon_ite ?_ ?_
    | with_reducible refine canon_setArcPoint _ _ _ ?_
    | with_reducible refine canon_fset _ _ _ _ ?_
    | with_reducible refine canon_set1 _ _ _ ?_
    | with_reducible refine canon_irq _ _ _ ?_
    | dsimp only
    | split
    | with_reducible refine canon_upd ?_ rfl rfl rfl rfl rfl rfl

theorem canon_arcAck (a0 : State) (a1 : Nat) (a2 : Nat) (h : a0.Canon) : (State.arcAck a0 a1 a2).Canon := by
  unfold State.arcAck
  repeat'
    first
    | with_reducible assumption
    | with_reducible refine canon_ite ?_ ?_
    | with_reducible refine canon_setArcPoint _ _ _ ?_
    | with_reducible refine canon_arcEnd _ _ ?_
    | with_reducible refine canon_arcDone _ _ ?_
    | dsimp only
    | split
    | with_reducible refine canon_upd ?_ rfl rfl rfl rfl rfl rfl

theorem canon_arcResend (a0 : State) (a1 : Nat) (a2 : Nat) (h : a0.Canon) : (State.arcResend a0 a1 a2).Canon := by
  unfold State.arcResend
  repeat'
    first
    | with_reducible assumption
    | with_reducible refine canon_ite ?_ ?_
    | with_reducible refine canon_setArcPoint _ _ _ ?_
    | with_reducible refine canon_bump _ _ _ _ ?_
    | with_reducible refine canon_arcTransmit _ _ _ ?_
    | with_reducible refine canon_arcFail _ _ _ ?_
    | dsimp only
    | split
    | with_reducible refine canon_upd ?_ rfl rfl rfl rfl rfl rfl

theorem canon_arcPut (a0 : State) (a1 : Nat) (a2 : List Byte) (a3 : List Byte) (a4 : List (Option (List Byte))) (h : a0.Canon) :
    (State.arcPut a0 a1 a2 a3 a4).1.Canon := by
  unfold State.arcPut
  repeat'
    first
    | with_reducible assumption
    | with_reducible refine canon_ite ?_ ?_
    | with_reducible refine canon_poisonAt _ _ _ _ ?_
    | with_reducible refine canon_pageWrite _ _ _ _ _ _ ?_
    | with_reducible refine canon_writeRange _ _ _ _ _ _ ?_
    | with_reducible refine canon_foldl ?_ (fun _ _ _ => ?_)
    | with_reducible refine canon_foldl_fst ?_ (fun _ _ _ => ?_)
    | with_reducible refine canon_pair (by assumption) ?_
    | dsimp only
    | split
    | with_reducible refine canon_upd ?_ rfl rfl rfl rfl rfl rfl

theorem canon_arcApply (a0 : State) (a1 : Nat) (a2 : List Byte) (a3 : List Byte) (h : a0.Canon) :
    (State.arcApply a0 a1 a2 a3).1.Canon := by
  unfold State.arcApply
  repeat'
    first
    | with_reducible assumption
    | with_reducible refine canon_ite ?_ ?_
    | with_reducible refine canon_arcPut _ _ _ _ _ ?_
    | with_reducible refine canon_arcEntry _ _ _ ?_
    | with_reducible refine canon_foldl ?_ (fun _ _ _ => ?_)
    | with_reducible refine canon_foldl_fst ?_ (fun _ _ _ => ?_)
    | with_reducible refine canon_pair (by assumption) ?_
    | dsimp only
    | split
    | with_reducible refine canon_upd ?_ rfl rfl rfl rfl rfl rfl

theorem canon_arcOne (a0 : State) (a1 : Nat) (a2 : Nat) (h : a0.Canon) : (State.arcOne a0 a1 a2).1.Canon := by
  unfold State.arcOne
  repeat'
    first
    | with_reducible assumption
    | with_reducible refine canon_ite ?_ ?_
    | with_reducible refine canon_bump _ _ _ _ ?_
    | with_reducible refine canon_arcApply _ _ _ _ ?_
    | with_reducible refine canon_readRange _ _ _ _ _ ?_
    | with_reducible refine canon_pair (by assumption) ?_
    | dsimp only
    | split
    | with_reducible refine canon_upd ?_ rfl rfl rfl rfl rfl rfl

theorem canon_setRestore (a0 : State) (a1 : Nat) (a2 : Option ArcRestore) (h : a0.Canon) :
    (State.setRestore a0 a1 a2).Canon := by
  unfold State.setRestore
  repeat'
    first
    | with_reducible assumption
    | with_reducible refine canon_ite ?_ ?_
    | dsimp only
    | split
    | with_reducible refine canon_upd ?_ rfl rfl rfl rfl rfl rfl

theorem canon_arcRun (a0 : Nat) (a1 : ArcRestore) (a2 : State) (h : a2.Canon) : (State.arcRun a0 a1 a2).Canon := by
  induction a0 generalizing a1 a2 with
  | zero =>
    unfold State.arcRun
    repeat'
      first
      | with_reducible assumption
      | with_reducible refine canon_ite ?_ ?_
      | with_reducible refine canon_logErr _ _ ?_
      | with_reducible refine canon_arcOne _ _ _ ?_
      | with_reducible refine canon_qComplete _ _ _ _ _ _ _ _ _ ?_
      | with_reducible refine canon_setRestore _ _ _ ?_
      | with_reducible refine canon_pair (by assumption) ?_
      | dsimp only
      | split
      | with_reducible refine canon_upd ?_ rfl rfl rfl rfl rfl rfl
  | succ n ih =>
    unfold State.arcRun
    repeat'
      first
      | with_reducible assumption
      | with_reducible refine canon_ite ?_ ?_
      | with_reducible refine ih _ _ ?_
      | with_reducible refine canon_logErr _ _ ?_
      | with_reducible refine canon_arcOne _ _ _ ?_
      | with_reducible refine canon_qComplete _ _ _ _ _ _ _ _ _ ?_
      | with_reducible refine canon_setRestore _ _ _ ?_
      | with_reducible refine canon_pair (by assumption) ?_
      | dsimp only
      | split
      | with_reducible refine canon_upd ?_ rfl rfl rfl rfl rfl rfl

theorem canon_arcTake (a0 : State) (a1 : Nat) (a2 : Nat) (a3 : List Byte) (h : a0.Canon) :
    (State.arcTake a0 a1 a2 a3).Canon := by
  unfold State.arcTake
  repeat'
    first
    | with_reducible assumption
    | with_reducible refine canon_ite ?_ ?_
    | with_reducible refine canon_arcRun _ _ _ ?_
    | with_reducible refine canon_qRefuse _ _ _ _ _ _ _ ?_
    | with_reducible refine canon_qTake _ _ _ ?_
    | dsimp only
    | split
    | with_reducible refine canon_upd ?_ rfl rfl rfl rfl rfl rfl

end Sys2Proof.Machine
end

