-- ==== Sys2Proof/Laws/Canon/Request.lean ====
section
/-! SUPPORT. The operations of `Request.lean` keep the canonical form of the state. -/

namespace Sys2Proof.Machine

open Sys2Proof

theorem canon_accPage (a0 : State) (a1 : Access) (h : a0.Canon) : (State.accPage a0 a1).1.Canon := by
  unfold State.accPage
  repeat'
    first
    | with_reducible assumption
    | with_reducible refine canon_ite ?_ ?_
    | with_reducible refine canon_bump _ _ _ _ ?_
    | with_reducible refine canon_cowPage _ _ _ _ _ _ ?_
    | with_reducible refine canon_seqLookup _ _ _ _ ?_
    | with_reducible refine canon_pair (by assumption) ?_
    | dsimp only
    | split
    | with_reducible refine canon_upd ?_ rfl rfl rfl rfl rfl rfl

theorem canon_atomicAt (a0 : State) (a1 : Who) (a2 : Nat) (a3 : Nat) (a4 : List Byte) (a5 : List Byte) (h : a0.Canon) :
    (State.atomicAt a0 a1 a2 a3 a4 a5).1.Canon := by
  unfold State.atomicAt
  repeat'
    first
    | with_reducible assumption
    | with_reducible refine canon_ite ?_ ?_
    | with_reducible refine canon_pageWrite _ _ _ _ _ _ ?_
    | with_reducible refine canon_pageRead _ _ _ _ _ ?_
    | with_reducible refine canon_pair (by assumption) ?_
    | dsimp only
    | split
    | with_reducible refine canon_upd ?_ rfl rfl rfl rfl rfl rfl

theorem canon_tryAccess (a0 : State) (a1 : Access) (h : a0.Canon) : (State.tryAccess a0 a1).1.Canon := by
  unfold State.tryAccess
  repeat'
    first
    | with_reducible assumption
    | with_reducible refine canon_ite ?_ ?_
    | with_reducible refine canon_pageWrite _ _ _ _ _ _ ?_
    | with_reducible refine canon_pin _ _ _ ?_
    | with_reducible refine canon_pageRead _ _ _ _ _ ?_
    | with_reducible refine canon_atomicAt _ _ _ _ _ _ ?_
    | with_reducible refine canon_accPage _ _ ?_
    | with_reducible refine canon_readRange _ _ _ _ _ ?_
    | with_reducible refine canon_writeRange _ _ _ _ _ _ ?_
    | with_reducible refine canon_pair (by assumption) ?_
    | dsimp only
    | split
    | with_reducible refine canon_upd ?_ rfl rfl rfl rfl rfl rfl

theorem canon_hostAnswer (a0 : State) (a1 : Nat) (a2 : BitVec 128) (a3 : Nat) (a4 : List HostBeat) (h : a0.Canon) :
    (State.hostAnswer a0 a1 a2 a3 a4).Canon := by
  unfold State.hostAnswer
  repeat'
    first
    | with_reducible assumption
    | with_reducible refine canon_ite ?_ ?_
    | dsimp only
    | split
    | with_reducible refine canon_upd ?_ rfl rfl rfl rfl rfl rfl

theorem canon_hostReadDone (a0 : State) (a1 : Nat) (a2 : BitVec 128) (a3 : Nat) (a4 : List (Option Byte)) (h : a0.Canon) :
    (State.hostReadDone a0 a1 a2 a3 a4).Canon := by
  unfold State.hostReadDone
  repeat'
    first
    | with_reducible assumption
    | with_reducible refine canon_ite ?_ ?_
    | with_reducible refine canon_hostAnswer _ _ _ _ _ ?_
    | dsimp only
    | split
    | with_reducible refine canon_upd ?_ rfl rfl rfl rfl rfl rfl

theorem canon_respond (a0 : State) (a1 : List Byte) (a2 : Nat) (a3 : List Byte) (a4 : Bool) (h : a0.Canon) :
    (State.respond a0 a1 a2 a3 a4).Canon := by
  unfold State.respond
  repeat'
    first
    | with_reducible assumption
    | with_reducible refine canon_ite ?_ ?_
    | with_reducible refine canon_offer _ _ ?_
    | dsimp only
    | split
    | with_reducible refine canon_upd ?_ rfl rfl rfl rfl rfl rfl

theorem canon_respondData (a0 : State) (a1 : List Byte) (a2 : List (Option Byte)) (h : a0.Canon) :
    (State.respondData a0 a1 a2).Canon := by
  unfold State.respondData
  repeat'
    first
    | with_reducible assumption
    | with_reducible refine canon_ite ?_ ?_
    | with_reducible refine canon_respond _ _ _ _ _ ?_
    | dsimp only
    | split
    | with_reducible refine canon_upd ?_ rfl rfl rfl rfl rfl rfl

theorem canon_refuseReq (a0 : State) (a1 : List Byte) (a2 : Nat) (a3 : Nat) (h : a0.Canon) :
    (State.refuseReq a0 a1 a2 a3).Canon := by
  unfold State.refuseReq
  repeat'
    first
    | with_reducible assumption
    | with_reducible refine canon_ite ?_ ?_
    | with_reducible refine canon_respond _ _ _ _ _ ?_
    | with_reducible refine canon_lastFail _ _ _ ?_
    | with_reducible refine canon_logMs _ _ ?_
    | dsimp only
    | split
    | with_reducible refine canon_upd ?_ rfl rfl rfl rfl rfl rfl

theorem canon_unitDone (a0 : State) (a1 : Nat) (a2 : Nat) (a3 : Nat) (h : a0.Canon) : (State.unitDone a0 a1 a2 a3).Canon := by
  unfold State.unitDone
  repeat'
    first
    | with_reducible assumption
    | with_reducible refine canon_ite ?_ ?_
    | dsimp only
    | split
    | with_reducible refine canon_upd ?_ rfl rfl rfl rfl rfl rfl

theorem canon_flushJobs (a0 : Nat) (a1 : Nat) (a2 : State) (h : a2.Canon) : (State.flushJobs a0 a1 a2).Canon := by
  induction a1 generalizing a0 a2 with
  | zero =>
    unfold State.flushJobs
    repeat'
      first
      | with_reducible assumption
      | with_reducible refine canon_ite ?_ ?_
      | with_reducible refine canon_qRefuse _ _ _ _ _ _ _ ?_
      | with_reducible refine canon_qComplete _ _ _ _ _ _ _ _ _ ?_
      | dsimp only
      | split
      | with_reducible refine canon_upd ?_ rfl rfl rfl rfl rfl rfl
  | succ n ih =>
    unfold State.flushJobs
    repeat'
      first
      | with_reducible assumption
      | with_reducible refine canon_ite ?_ ?_
      | with_reducible refine ih _ _ ?_
      | with_reducible refine canon_qRefuse _ _ _ _ _ _ _ ?_
      | with_reducible refine canon_qComplete _ _ _ _ _ _ _ _ _ ?_
      | dsimp only
      | split
      | with_reducible refine canon_upd ?_ rfl rfl rfl rfl rfl rfl

theorem canon_flushAll (a0 : State) (h : a0.Canon) : (State.flushAll a0).Canon := by
  unfold State.flushAll
  repeat'
    first
    | with_reducible assumption
    | with_reducible refine canon_ite ?_ ?_
    | with_reducible refine canon_flushJobs _ _ _ ?_
    | with_reducible refine canon_foldl ?_ (fun _ _ _ => ?_)
    | with_reducible refine canon_foldl_fst ?_ (fun _ _ _ => ?_)
    | with_reducible refine canon_pair (by assumption) ?_
    | dsimp only
    | split
    | with_reducible refine canon_upd ?_ rfl rfl rfl rfl rfl rfl

theorem canon_poisonLocal (a0 : State) (a1 : Nat) (a2 : Nat) (a3 : Nat) (h : a0.Canon) :
    (State.poisonLocal a0 a1 a2 a3).Canon := by
  unfold State.poisonLocal
  repeat'
    first
    | with_reducible assumption
    | with_reducible refine canon_ite ?_ ?_
    | with_reducible refine canon_poisonAt _ _ _ _ ?_
    | with_reducible refine canon_foldl ?_ (fun _ _ _ => ?_)
    | with_reducible refine canon_foldl_fst ?_ (fun _ _ _ => ?_)
    | with_reducible refine canon_pair (by assumption) ?_
    | dsimp only
    | split
    | with_reducible refine canon_upd ?_ rfl rfl rfl rfl rfl rfl

theorem canon_putUnit (a0 : State) (a1 : FabJob) (a2 : Nat) (a3 : List Byte) (h : a0.Canon) :
    (State.putUnit a0 a1 a2 a3).Canon := by
  unfold State.putUnit
  repeat'
    first
    | with_reducible assumption
    | with_reducible refine canon_ite ?_ ?_
    | with_reducible refine canon_offerReq _ _ _ _ _ _ _ _ _ _ _ _ _ ?_
    | dsimp only
    | split
    | with_reducible refine canon_upd ?_ rfl rfl rfl rfl rfl rfl

theorem canon_farRead (a0 : State) (a1 : ReqUse) (a2 : Access) (a3 : Nat) (a4 : Nat) (a5 : Nat) (h : a0.Canon) :
    (State.farRead a0 a1 a2 a3 a4 a5).Canon := by
  unfold State.farRead
  repeat'
    first
    | with_reducible assumption
    | with_reducible refine canon_ite ?_ ?_
    | with_reducible refine canon_pin _ _ _ ?_
    | with_reducible refine canon_offerReq _ _ _ _ _ _ _ _ _ _ _ _ _ ?_
    | dsimp only
    | split
    | with_reducible refine canon_upd ?_ rfl rfl rfl rfl rfl rfl

theorem canon_homeRead (a0 : State) (a1 : Nat) (a2 : Nat) (a3 : Nat) (a4 : Nat) (h : a0.Canon) :
    (State.homeRead a0 a1 a2 a3 a4).1.Canon := by
  unfold State.homeRead
  repeat'
    first
    | with_reducible assumption
    | with_reducible refine canon_ite ?_ ?_
    | with_reducible refine canon_readTier _ _ _ _ ?_
    | with_reducible refine canon_pair (by assumption) ?_
    | dsimp only
    | split
    | with_reducible refine canon_upd ?_ rfl rfl rfl rfl rfl rfl

theorem canon_accDone (a0 : State) (a1 : Access) (a2 : AccOut) (h : a0.Canon) : (State.accDone a0 a1 a2).Canon := by
  unfold State.accDone
  repeat'
    first
    | with_reducible assumption
    | with_reducible refine canon_ite ?_ ?_
    | with_reducible refine canon_set1 _ _ _ ?_
    | with_reducible refine canon_irq _ _ _ ?_
    | with_reducible refine canon_poisonAt _ _ _ _ ?_
    | with_reducible refine canon_putUnit _ _ _ _ ?_
    | with_reducible refine canon_unitDone _ _ _ _ ?_
    | with_reducible refine canon_respond _ _ _ _ _ ?_
    | with_reducible refine canon_refuseReq _ _ _ _ ?_
    | with_reducible refine canon_respondData _ _ _ ?_
    | with_reducible refine canon_hostAnswer _ _ _ _ _ ?_
    | with_reducible refine canon_farRead _ _ _ _ _ _ ?_
    | with_reducible refine canon_hostReadDone _ _ _ _ _ ?_
    | with_reducible refine canon_foldl ?_ (fun _ _ _ => ?_)
    | with_reducible refine canon_foldl_fst ?_ (fun _ _ _ => ?_)
    | with_reducible refine canon_pair (by assumption) ?_
    | dsimp only
    | split
    | with_reducible refine canon_upd ?_ rfl rfl rfl rfl rfl rfl

theorem canon_access (a0 : State) (a1 : Access) (h : a0.Canon) : (State.access a0 a1).Canon := by
  unfold State.access
  repeat'
    first
    | with_reducible assumption
    | with_reducible refine canon_ite ?_ ?_
    | with_reducible refine canon_accDone _ _ _ ?_
    | with_reducible refine canon_pinStall _ _ ?_
    | with_reducible refine canon_tryAccess _ _ ?_
    | with_reducible refine canon_park _ _ ?_
    | with_reducible refine canon_pair (by assumption) ?_
    | dsimp only
    | split
    | with_reducible refine canon_upd ?_ rfl rfl rfl rfl rfl rfl

theorem canon_retryOne (a0 : State) (a1 : Access) (h : a0.Canon) : (State.retryOne a0 a1).Canon := by
  unfold State.retryOne
  repeat'
    first
    | with_reducible assumption
    | with_reducible refine canon_ite ?_ ?_
    | with_reducible refine canon_pinGo _ _ ?_
    | with_reducible refine canon_accDone _ _ _ ?_
    | with_reducible refine canon_tryAccess _ _ ?_
    | with_reducible refine canon_pair (by assumption) ?_
    | dsimp only
    | split
    | with_reducible refine canon_upd ?_ rfl rfl rfl rfl rfl rfl

theorem canon_retryThose (a0 : State) (a1 : Access → Bool) (h : a0.Canon) : (State.retryThose a0 a1).Canon := by
  unfold State.retryThose
  repeat'
    first
    | with_reducible assumption
    | with_reducible refine canon_ite ?_ ?_
    | with_reducible refine canon_retryOne _ _ ?_
    | with_reducible refine canon_foldl ?_ (fun _ _ _ => ?_)
    | with_reducible refine canon_foldl_fst ?_ (fun _ _ _ => ?_)
    | with_reducible refine canon_pair (by assumption) ?_
    | dsimp only
    | split
    | with_reducible refine canon_upd ?_ rfl rfl rfl rfl rfl rfl

theorem canon_retryStalled (a0 : State) (h : a0.Canon) : (State.retryStalled a0).Canon := by
  unfold State.retryStalled
  repeat'
    first
    | with_reducible assumption
    | with_reducible refine canon_ite ?_ ?_
    | with_reducible refine canon_retryThose _ _ ?_
    | with_reducible refine canon_flushAll _ ?_
    | dsimp only
    | split
    | with_reducible refine canon_upd ?_ rfl rfl rfl rfl rfl rfl

end Sys2Proof.Machine
end

