-- ==== Sys2Proof/Laws/Canon/Time.lean ====
section
/-! SUPPORT. The operations of `Time.lean` keep the canonical form of the state. -/

namespace Sys2Proof.Machine

open Sys2Proof

theorem canon_condEvents (a0 : State) (a1 : Nat) (h : a0.Canon) : (State.condEvents a0 a1).Canon := by
  unfold State.condEvents
  repeat'
    first
    | with_reducible assumption
    | with_reducible refine canon_ite ?_ ?_
    | with_reducible refine canon_event _ _ _ _ ?_
    | dsimp only
    | split
    | with_reducible refine canon_upd ?_ rfl rfl rfl rfl rfl rfl

theorem canon_pinCycles (a0 : State) (a1 : Nat) (h : a0.Canon) : (State.pinCycles a0 a1).Canon := by
  unfold State.pinCycles
  repeat'
    first
    | with_reducible assumption
    | with_reducible refine canon_ite ?_ ?_
    | with_reducible refine canon_bump _ _ _ _ ?_
    | with_reducible refine canon_event _ _ _ _ ?_
    | with_reducible refine canon_foldl ?_ (fun _ _ _ => ?_)
    | with_reducible refine canon_foldl_fst ?_ (fun _ _ _ => ?_)
    | with_reducible refine canon_pair (by assumption) ?_
    | dsimp only
    | split
    | with_reducible refine canon_upd ?_ rfl rfl rfl rfl rfl rfl

theorem canon_switchPass (a0 : State) (a1 : Nat) (h : a0.Canon) : (State.switchPass a0 a1).Canon := by
  unfold State.switchPass
  repeat'
    first
    | with_reducible assumption
    | with_reducible refine canon_ite ?_ ?_
    | with_reducible refine canon_fset _ _ _ _ ?_
    | with_reducible refine canon_foldl ?_ (fun _ _ _ => ?_)
    | with_reducible refine canon_foldl_fst ?_ (fun _ _ _ => ?_)
    | with_reducible refine canon_pair (by assumption) ?_
    | dsimp only
    | split
    | with_reducible refine canon_upd ?_ rfl rfl rfl rfl rfl rfl

theorem canon_passCycles (a0 : State) (a1 : Nat) (a2 : Nat) (h : a0.Canon) : (State.passCycles a0 a1 a2).Canon := by
  unfold State.passCycles
  repeat'
    first
    | with_reducible assumption
    | with_reducible refine canon_ite ?_ ?_
    | with_reducible refine canon_condEvents _ _ ?_
    | with_reducible refine canon_pinCycles _ _ ?_
    | with_reducible refine canon_creditCycles _ _ _ ?_
    | with_reducible refine canon_switchPass _ _ ?_
    | dsimp only
    | split
    | with_reducible refine canon_upd ?_ rfl rfl rfl rfl rfl rfl

theorem canon_passTo (a0 : State) (a1 : Nat) (h : a0.Canon) : (State.passTo a0 a1).Canon := by
  unfold State.passTo
  repeat'
    first
    | with_reducible assumption
    | with_reducible refine canon_ite ?_ ?_
    | with_reducible refine canon_passCycles _ _ _ ?_
    | dsimp only
    | split
    | with_reducible refine canon_upd ?_ rfl rfl rfl rfl rfl rfl

theorem canon_ringSend (a0 : State) (a1 : Nat) (a2 : Option Nat) (a3 : Nat) (a4 : List Nat) (h : a0.Canon) :
    (State.ringSend a0 a1 a2 a3 a4).Canon := by
  unfold State.ringSend
  repeat'
    first
    | with_reducible assumption
    | with_reducible refine canon_ite ?_ ?_
    | dsimp only
    | split
    | with_reducible refine canon_upd ?_ rfl rfl rfl rfl rfl rfl

theorem canon_ringFail (a0 : State) (h : a0.Canon) : (State.ringFail a0).Canon := by
  unfold State.ringFail
  repeat'
    first
    | with_reducible assumption
    | with_reducible refine canon_ite ?_ ?_
    | with_reducible refine canon_logErr _ _ ?_
    | dsimp only
    | split
    | with_reducible refine canon_upd ?_ rfl rfl rfl rfl rfl rfl

theorem canon_sendCheck (a0 : State) (h : a0.Canon) : (State.sendCheck a0).Canon := by
  unfold State.sendCheck
  repeat'
    first
    | with_reducible assumption
    | with_reducible refine canon_ite ?_ ?_
    | with_reducible refine canon_ringSend _ _ _ _ _ ?_
    | dsimp only
    | split
    | with_reducible refine canon_upd ?_ rfl rfl rfl rfl rfl rfl

theorem canon_checkIn (a0 : State) (a1 : Nat) (a2 : Nat) (h : a0.Canon) : (State.checkIn a0 a1 a2).Canon := by
  unfold State.checkIn
  repeat'
    first
    | with_reducible assumption
    | with_reducible refine canon_ite ?_ ?_
    | with_reducible refine canon_ringFail _ ?_
    | dsimp only
    | split
    | with_reducible refine canon_upd ?_ rfl rfl rfl rfl rfl rfl

theorem canon_showArrivals (a0 : State) (h : a0.Canon) : (State.showArrivals a0).Canon := by
  unfold State.showArrivals
  repeat'
    first
    | with_reducible assumption
    | with_reducible refine canon_ite ?_ ?_
    | with_reducible refine canon_wr64 _ _ _ _ ?_
    | with_reducible refine canon_fset _ _ _ _ ?_
    | with_reducible refine canon_foldl ?_ (fun _ _ _ => ?_)
    | with_reducible refine canon_foldl_fst ?_ (fun _ _ _ => ?_)
    | with_reducible refine canon_pair (by assumption) ?_
    | dsimp only
    | split
    | with_reducible refine canon_upd ?_ rfl rfl rfl rfl rfl rfl

theorem canon_ringArrive (a0 : State) (a1 : Nat) (a2 : Nat) (h : a0.Canon) : (State.ringArrive a0 a1 a2).Canon := by
  unfold State.ringArrive
  repeat'
    first
    | with_reducible assumption
    | with_reducible refine canon_ite ?_ ?_
    | with_reducible refine canon_showArrivals _ ?_
    | dsimp only
    | split
    | with_reducible refine canon_upd ?_ rfl rfl rfl rfl rfl rfl

theorem canon_sealIn (a0 : State) (a1 : Nat) (a2 : Nat) (h : a0.Canon) : (State.sealIn a0 a1 a2).Canon := by
  unfold State.sealIn
  repeat'
    first
    | with_reducible assumption
    | with_reducible refine canon_ite ?_ ?_
    | with_reducible refine canon_wr64 _ _ _ _ ?_
    | with_reducible refine canon_foldl ?_ (fun _ _ _ => ?_)
    | with_reducible refine canon_foldl_fst ?_ (fun _ _ _ => ?_)
    | with_reducible refine canon_pair (by assumption) ?_
    | dsimp only
    | split
    | with_reducible refine canon_upd ?_ rfl rfl rfl rfl rfl rfl

theorem canon_tellTickSeal (a0 : State) (h : a0.Canon) : (State.tellTickSeal a0).Canon := by
  unfold State.tellTickSeal
  repeat'
    first
    | with_reducible assumption
    | with_reducible refine canon_ite ?_ ?_
    | with_reducible refine canon_ringSend _ _ _ _ _ ?_
    | with_reducible refine canon_sealIn _ _ _ ?_
    | dsimp only
    | split
    | with_reducible refine canon_upd ?_ rfl rfl rfl rfl rfl rfl

theorem canon_cancelArm (a0 : State) (a1 : Nat) (h : a0.Canon) : (State.cancelArm a0 a1).Canon := by
  unfold State.cancelArm
  repeat'
    first
    | with_reducible assumption
    | with_reducible refine canon_ite ?_ ?_
    | with_reducible refine canon_fset _ _ _ _ ?_
    | with_reducible refine canon_set1 _ _ _ ?_
    | with_reducible refine canon_ringSend _ _ _ _ _ ?_
    | dsimp only
    | split
    | with_reducible refine canon_upd ?_ rfl rfl rfl rfl rfl rfl

theorem canon_cancelArms (a0 : State) (a1 : Nat) (h : a0.Canon) : (State.cancelArms a0 a1).Canon := by
  unfold State.cancelArms
  repeat'
    first
    | with_reducible assumption
    | with_reducible refine canon_ite ?_ ?_
    | with_reducible refine canon_cancelArm _ _ ?_
    | with_reducible refine canon_foldl ?_ (fun _ _ _ => ?_)
    | with_reducible refine canon_foldl_fst ?_ (fun _ _ _ => ?_)
    | with_reducible refine canon_pair (by assumption) ?_
    | dsimp only
    | split
    | with_reducible refine canon_upd ?_ rfl rfl rfl rfl rfl rfl

theorem canon_timeCommit (a0 : State) (h : a0.Canon) : (State.timeCommit a0).Canon := by
  unfold State.timeCommit
  repeat'
    first
    | with_reducible assumption
    | with_reducible refine canon_ite ?_ ?_
    | with_reducible refine canon_cancelArms _ _ ?_
    | with_reducible refine canon_set1 _ _ _ ?_
    | with_reducible refine canon_irq _ _ _ ?_
    | dsimp only
    | split
    | with_reducible refine canon_upd ?_ rfl rfl rfl rfl rfl rfl

theorem canon_sendRelease (a0 : State) (a1 : Nat) (h : a0.Canon) : (State.sendRelease a0 a1).Canon := by
  unfold State.sendRelease
  repeat'
    first
    | with_reducible assumption
    | with_reducible refine canon_ite ?_ ?_
    | with_reducible refine canon_ringSend _ _ _ _ _ ?_
    | dsimp only
    | split
    | with_reducible refine canon_upd ?_ rfl rfl rfl rfl rfl rfl

theorem canon_barrierArm (a0 : State) (a1 : Nat) (h : a0.Canon) : (State.barrierArm a0 a1).Canon := by
  unfold State.barrierArm
  repeat'
    first
    | with_reducible assumption
    | with_reducible refine canon_ite ?_ ?_
    | with_reducible refine canon_sendRelease _ _ ?_
    | with_reducible refine canon_set1 _ _ _ ?_
    | with_reducible refine canon_wr _ _ _ _ ?_
    | dsimp only
    | split
    | with_reducible refine canon_upd ?_ rfl rfl rfl rfl rfl rfl

end Sys2Proof.Machine
end

