-- ==== Sys2Proof/Laws/Canon/Counters.lean ====
section
/-! SUPPORT. The operations of `Counters.lean` keep the canonical form of the state. -/

namespace Sys2Proof.Machine

open Sys2Proof

theorem canon_applyCtr (a0 : State) (h : a0.Canon) : (State.applyCtr a0).Canon := by
  unfold State.applyCtr
  repeat'
    first
    | with_reducible assumption
    | with_reducible refine canon_ite ?_ ?_
    | with_reducible refine canon_wr _ _ _ _ ?_
    | with_reducible refine canon_foldl ?_ (fun _ _ _ => ?_)
    | with_reducible refine canon_foldl_fst ?_ (fun _ _ _ => ?_)
    | with_reducible refine canon_pair (by assumption) ?_
    | dsimp only
    | split
    | with_reducible refine canon_upd ?_ rfl rfl rfl rfl rfl rfl

theorem canon_userBlocks (a0 : State) (h : a0.Canon) : (State.userBlocks a0).Canon := by
  unfold State.userBlocks
  repeat'
    first
    | with_reducible assumption
    | with_reducible refine canon_ite ?_ ?_
    | with_reducible refine canon_access _ _ ?_
    | with_reducible refine canon_foldl ?_ (fun _ _ _ => ?_)
    | with_reducible refine canon_foldl_fst ?_ (fun _ _ _ => ?_)
    | with_reducible refine canon_pair (by assumption) ?_
    | dsimp only
    | split
    | with_reducible refine canon_upd ?_ rfl rfl rfl rfl rfl rfl

theorem canon_snapNow (a0 : State) (h : a0.Canon) : (State.snapNow a0).Canon := by
  unfold State.snapNow
  repeat'
    first
    | with_reducible assumption
    | with_reducible refine canon_ite ?_ ?_
    | with_reducible refine canon_bump _ _ _ _ ?_
    | with_reducible refine canon_set1 _ _ _ ?_
    | with_reducible refine canon_irq _ _ _ ?_
    | with_reducible refine canon_userBlocks _ ?_
    | with_reducible refine canon_foldl ?_ (fun _ _ _ => ?_)
    | with_reducible refine canon_foldl_fst ?_ (fun _ _ _ => ?_)
    | with_reducible refine canon_pair (by assumption) ?_
    | dsimp only
    | split
    | with_reducible refine canon_upd ?_ rfl rfl rfl rfl rfl rfl

theorem canon_snapAct (a0 : State) (h : a0.Canon) : (State.snapAct a0).Canon := by
  unfold State.snapAct
  repeat'
    first
    | with_reducible assumption
    | with_reducible refine canon_ite ?_ ?_
    | with_reducible refine canon_snapNow _ ?_
    | with_reducible refine canon_fset _ _ _ _ ?_
    | with_reducible refine canon_set0 _ _ _ ?_
    | dsimp only
    | split
    | with_reducible refine canon_upd ?_ rfl rfl rfl rfl rfl rfl

theorem canon_snapDue (a0 : State) (a1 : Nat) (h : a0.Canon) : (State.snapDue a0 a1).Canon := by
  unfold State.snapDue
  repeat'
    first
    | with_reducible assumption
    | with_reducible refine canon_ite ?_ ?_
    | with_reducible refine canon_passTo _ _ ?_
    | with_reducible refine canon_snapAct _ ?_
    | dsimp only
    | split
    | with_reducible refine canon_upd ?_ rfl rfl rfl rfl rfl rfl

theorem canon_snapArm (a0 : State) (a1 : Nat) (a2 : Nat) (h : a0.Canon) : (State.snapArm a0 a1 a2).Canon := by
  unfold State.snapArm
  repeat'
    first
    | with_reducible assumption
    | with_reducible refine canon_ite ?_ ?_
    | with_reducible refine canon_set1 _ _ _ ?_
    | dsimp only
    | split
    | with_reducible refine canon_upd ?_ rfl rfl rfl rfl rfl rfl

theorem canon_snapCmd (a0 : State) (a1 : Nat) (a2 : Bool) (h : a0.Canon) : (State.snapCmd a0 a1 a2).Canon := by
  unfold State.snapCmd
  repeat'
    first
    | with_reducible assumption
    | with_reducible refine canon_ite ?_ ?_
    | with_reducible refine canon_ringSend _ _ _ _ _ ?_
    | with_reducible refine canon_snapArm _ _ _ ?_
    | with_reducible refine canon_set1 _ _ _ ?_
    | dsimp only
    | split
    | with_reducible refine canon_upd ?_ rfl rfl rfl rfl rfl rfl

end Sys2Proof.Machine
end

