-- ==== Sys2Proof/Laws/Canon/Kiosk.lean ====
section
/-! SUPPORT. The operations of `Kiosk.lean` keep the canonical form of the state. -/

namespace Sys2Proof.Machine

open Sys2Proof

theorem canon_setBox (a0 : State) (a1 : Nat) (a2 : Mbox) (h : a0.Canon) : (State.setBox a0 a1 a2).Canon := by
  unfold State.setBox
  repeat'
    first
    | with_reducible assumption
    | with_reducible refine canon_ite ?_ ?_
    | dsimp only
    | split
    | with_reducible refine canon_upd ?_ rfl rfl rfl rfl rfl rfl

theorem canon_kskBad (a0 : State) (h : a0.Canon) : (State.kskBad a0).Canon := by
  unfold State.kskBad
  repeat'
    first
    | with_reducible assumption
    | with_reducible refine canon_ite ?_ ?_
    | with_reducible refine canon_bump _ _ _ _ ?_
    | with_reducible refine canon_logMs _ _ ?_
    | dsimp only
    | split
    | with_reducible refine canon_upd ?_ rfl rfl rfl rfl rfl rfl

theorem canon_kskIn (a0 : State) (a1 : Nat) (a2 : KskSrc) (a3 : List Byte) (h : a0.Canon) : (State.kskIn a0 a1 a2 a3).Canon := by
  unfold State.kskIn
  repeat'
    first
    | with_reducible assumption
    | with_reducible refine canon_ite ?_ ?_
    | with_reducible refine canon_setBox _ _ _ ?_
    | with_reducible refine canon_kskBad _ ?_
    | with_reducible refine canon_set1 _ _ _ ?_
    | dsimp only
    | split
    | with_reducible refine canon_upd ?_ rfl rfl rfl rfl rfl rfl

theorem canon_sbSend (a0 : State) (a1 : Nat) (a2 : Nat) (a3 : Bool) (a4 : List Byte) (h : a0.Canon) :
    (State.sbSend a0 a1 a2 a3 a4).Canon := by
  unfold State.sbSend
  repeat'
    first
    | with_reducible assumption
    | with_reducible refine canon_ite ?_ ?_
    | dsimp only
    | split
    | with_reducible refine canon_upd ?_ rfl rfl rfl rfl rfl rfl

theorem canon_sbKiosk (a0 : State) (a1 : Nat) (a2 : Nat) (a3 : Bool) (a4 : Nat) (a5 : List Byte) (h : a0.Canon) :
    (State.sbKiosk a0 a1 a2 a3 a4 a5).Canon := by
  unfold State.sbKiosk
  repeat'
    first
    | with_reducible assumption
    | with_reducible refine canon_ite ?_ ?_
    | with_reducible refine canon_sbSend _ _ _ _ _ ?_
    | dsimp only
    | split
    | with_reducible refine canon_upd ?_ rfl rfl rfl rfl rfl rfl

theorem canon_relaySend (a0 : State) (a1 : Nat) (a2 : Nat) (a3 : List Byte) (h : a0.Canon) :
    (State.relaySend a0 a1 a2 a3).Canon := by
  unfold State.relaySend
  repeat'
    first
    | with_reducible assumption
    | with_reducible refine canon_ite ?_ ?_
    | with_reducible refine canon_ringSend _ _ _ _ _ ?_
    | with_reducible refine canon_foldl ?_ (fun _ _ _ => ?_)
    | with_reducible refine canon_foldl_fst ?_ (fun _ _ _ => ?_)
    | with_reducible refine canon_pair (by assumption) ?_
    | dsimp only
    | split
    | with_reducible refine canon_upd ?_ rfl rfl rfl rfl rfl rfl

theorem canon_kskWait (a0 : State) (a1 : Nat) (a2 : Bool) (a3 : List Byte) (h : a0.Canon) :
    (State.kskWait a0 a1 a2 a3).Canon := by
  unfold State.kskWait
  repeat'
    first
    | with_reducible assumption
    | with_reducible refine canon_ite ?_ ?_
    | with_reducible refine canon_bumpSat _ _ _ _ ?_
    | with_reducible refine canon_setBox _ _ _ ?_
    | with_reducible refine canon_irq _ _ _ ?_
    | dsimp only
    | split
    | with_reducible refine canon_upd ?_ rfl rfl rfl rfl rfl rfl

theorem canon_kskOut (a0 : State) (a1 : Nat) (a2 : KskSrc) (a3 : List Byte) (h : a0.Canon) :
    (State.kskOut a0 a1 a2 a3).Canon := by
  unfold State.kskOut
  repeat'
    first
    | with_reducible assumption
    | with_reducible refine canon_ite ?_ ?_
    | with_reducible refine canon_sendMsg _ _ _ _ _ _ ?_
    | with_reducible refine canon_relaySend _ _ _ _ ?_
    | with_reducible refine canon_sbKiosk _ _ _ _ _ _ ?_
    | with_reducible refine canon_kskWait _ _ _ _ ?_
    | dsimp only
    | split
    | with_reducible refine canon_upd ?_ rfl rfl rfl rfl rfl rfl

theorem canon_toOperator (a0 : State) (a1 : List Byte) (h : a0.Canon) : (State.toOperator a0 a1).Canon := by
  unfold State.toOperator
  repeat'
    first
    | with_reducible assumption
    | with_reducible refine canon_ite ?_ ?_
    | with_reducible refine canon_relaySend _ _ _ _ ?_
    | with_reducible refine canon_sbKiosk _ _ _ _ _ _ ?_
    | dsimp only
    | split
    | with_reducible refine canon_upd ?_ rfl rfl rfl rfl rfl rfl

theorem canon_notify (a0 : State) (a1 : Nat) (a2 : List Nat) (a3 : Bool) (h : a0.Canon) : (State.notify a0 a1 a2 a3).Canon := by
  unfold State.notify
  repeat'
    first
    | with_reducible assumption
    | with_reducible refine canon_ite ?_ ?_
    | with_reducible refine canon_toOperator _ _ ?_
    | with_reducible refine canon_kskWait _ _ _ _ ?_
    | dsimp only
    | split
    | with_reducible refine canon_upd ?_ rfl rfl rfl rfl rfl rfl

theorem canon_kskReply (a0 : State) (a1 : Nat) (a2 : KskReq) (a3 : Nat) (a4 : List Byte) (h : a0.Canon) :
    (State.kskReply a0 a1 a2 a3 a4).Canon := by
  unfold State.kskReply
  repeat'
    first
    | with_reducible assumption
    | with_reducible refine canon_ite ?_ ?_
    | with_reducible refine canon_setBox _ _ _ ?_
    | with_reducible refine canon_kskOut _ _ _ _ ?_
    | dsimp only
    | split
    | with_reducible refine canon_upd ?_ rfl rfl rfl rfl rfl rfl

theorem canon_takeFrag (a0 : State) (a1 : Nat) (a2 : Nat) (h : a0.Canon) : (State.takeFrag a0 a1 a2).1.Canon := by
  unfold State.takeFrag
  repeat'
    first
    | with_reducible assumption
    | with_reducible refine canon_ite ?_ ?_
    | dsimp only
    | split
    | with_reducible refine canon_upd ?_ rfl rfl rfl rfl rfl rfl

theorem canon_kskPass (a0 : State) (a1 : Nat) (h : a0.Canon) : (State.kskPass a0 a1).Canon := by
  unfold State.kskPass
  repeat'
    first
    | with_reducible assumption
    | with_reducible refine canon_ite ?_ ?_
    | dsimp only
    | split
    | with_reducible refine canon_upd ?_ rfl rfl rfl rfl rfl rfl

theorem canon_kskServe (a0 : State) (a1 : Nat) (a2 : Nat) (a3 : State → List Byte → Nat → State × Nat × List Byte) (h : a0.Canon) (hf3 : ∀ t0 t1 t2, t0.Canon → (a3 t0 t1 t2).1.Canon) :
    (State.kskServe a0 a1 a2 a3).Canon := by
  unfold State.kskServe
  repeat'
    first
    | with_reducible assumption
    | with_reducible refine canon_ite ?_ ?_
    | with_reducible refine hf3 _ _ _ ?_
    | with_reducible refine canon_takeFrag _ _ _ ?_
    | with_reducible refine canon_kskReply _ _ _ _ _ ?_
    | with_reducible refine canon_kskOut _ _ _ _ ?_
    | with_reducible refine canon_setBox _ _ _ ?_
    | with_reducible refine canon_kskPass _ _ ?_
    | with_reducible refine canon_pair (by assumption) ?_
    | dsimp only
    | split
    | with_reducible refine canon_upd ?_ rfl rfl rfl rfl rfl rfl

end Sys2Proof.Machine
end

