-- ==== Sys2Proof/Laws/Canon/Firmware.lean ====
section
/-! SUPPORT. The operations of `Firmware.lean` keep the canonical form of the state. -/

namespace Sys2Proof.Machine

open Sys2Proof

theorem canon_runCore (a0 : State) (a1 : Nat) (h : a0.Canon) : (State.runCore a0 a1).Canon := by
  unfold State.runCore
  repeat'
    first
    | with_reducible assumption
    | with_reducible refine canon_ite ?_ ?_
    | with_reducible refine canon_wr _ _ _ _ ?_
    | with_reducible refine canon_fset _ _ _ _ ?_
    | with_reducible refine canon_set0 _ _ _ ?_
    | dsimp only
    | split
    | with_reducible refine canon_upd ?_ rfl rfl rfl rfl rfl rfl

theorem canon_startCore (a0 : State) (a1 : Nat) (h : a0.Canon) : (State.startCore a0 a1).Canon := by
  unfold State.startCore
  repeat'
    first
    | with_reducible assumption
    | with_reducible refine canon_ite ?_ ?_
    | with_reducible refine canon_fset _ _ _ _ ?_
    | with_reducible refine canon_logErr _ _ ?_
    | with_reducible refine canon_runCore _ _ ?_
    | dsimp only
    | split
    | with_reducible refine canon_upd ?_ rfl rfl rfl rfl rfl rfl

theorem canon_kskReady (a0 : State) (h : a0.Canon) : (State.kskReady a0).Canon := by
  unfold State.kskReady
  repeat'
    first
    | with_reducible assumption
    | with_reducible refine canon_ite ?_ ?_
    | with_reducible refine canon_fset _ _ _ _ ?_
    | dsimp only
    | split
    | with_reducible refine canon_upd ?_ rfl rfl rfl rfl rfl rfl

theorem canon_kskDown (a0 : State) (h : a0.Canon) : (State.kskDown a0).Canon := by
  unfold State.kskDown
  repeat'
    first
    | with_reducible assumption
    | with_reducible refine canon_ite ?_ ?_
    | with_reducible refine canon_fset _ _ _ _ ?_
    | dsimp only
    | split
    | with_reducible refine canon_upd ?_ rfl rfl rfl rfl rfl rfl

theorem canon_kskUp (a0 : State) (h : a0.Canon) : (State.kskUp a0).Canon := by
  unfold State.kskUp
  repeat'
    first
    | with_reducible assumption
    | with_reducible refine canon_ite ?_ ?_
    | with_reducible refine canon_fset _ _ _ _ ?_
    | dsimp only
    | split
    | with_reducible refine canon_upd ?_ rfl rfl rfl rfl rfl rfl

theorem canon_coreEvent (a0 : State) (a1 : Nat) (a2 : Nat) (h : a0.Canon) : (State.coreEvent a0 a1 a2).Canon := by
  unfold State.coreEvent
  repeat'
    first
    | with_reducible assumption
    | with_reducible refine canon_ite ?_ ?_
    | with_reducible refine canon_irq _ _ _ ?_
    | with_reducible refine canon_notify _ _ _ _ ?_
    | dsimp only
    | split
    | with_reducible refine canon_upd ?_ rfl rfl rfl rfl rfl rfl

theorem canon_fwApply (a0 : State) (a1 : Nat) (h : a0.Canon) : (State.fwApply a0 a1).1.Canon := by
  unfold State.fwApply
  repeat'
    first
    | with_reducible assumption
    | with_reducible refine canon_ite ?_ ?_
    | with_reducible refine canon_fset _ _ _ _ ?_
    | with_reducible refine canon_wr _ _ _ _ ?_
    | with_reducible refine canon_applyOrg _ _ ?_
    | dsimp only
    | split
    | with_reducible refine canon_upd ?_ rfl rfl rfl rfl rfl rfl

theorem canon_putApply (a0 : State) (h : a0.Canon) : (State.putApply a0).Canon := by
  unfold State.putApply
  repeat'
    first
    | with_reducible assumption
    | with_reducible refine canon_ite ?_ ?_
    | with_reducible refine canon_fwApply _ _ ?_
    | with_reducible refine canon_foldl ?_ (fun _ _ _ => ?_)
    | with_reducible refine canon_foldl_fst ?_ (fun _ _ _ => ?_)
    | with_reducible refine canon_pair (by assumption) ?_
    | dsimp only
    | split
    | with_reducible refine canon_upd ?_ rfl rfl rfl rfl rfl rfl

theorem canon_putGo (a0 : State) (h : a0.Canon) : (State.putGo a0).Canon := by
  unfold State.putGo
  repeat'
    first
    | with_reducible assumption
    | with_reducible refine canon_ite ?_ ?_
    | with_reducible refine canon_kskReady _ ?_
    | with_reducible refine canon_putApply _ ?_
    | dsimp only
    | split
    | with_reducible refine canon_upd ?_ rfl rfl rfl rfl rfl rfl

theorem canon_repaired (a0 : State) (a1 : Nat) (h : a0.Canon) : (State.repaired a0 a1).Canon := by
  unfold State.repaired
  repeat'
    first
    | with_reducible assumption
    | with_reducible refine canon_ite ?_ ?_
    | with_reducible refine canon_notify _ _ _ _ ?_
    | dsimp only
    | split
    | with_reducible refine canon_upd ?_ rfl rfl rfl rfl rfl rfl

theorem canon_laneRepair (a0 : State) (a1 : Nat) (h : a0.Canon) : (State.laneRepair a0 a1).Canon := by
  unfold State.laneRepair
  repeat'
    first
    | with_reducible assumption
    | with_reducible refine canon_ite ?_ ?_
    | with_reducible refine canon_repaired _ _ ?_
    | with_reducible refine canon_fwApply _ _ ?_
    | with_reducible refine canon_pair (by assumption) ?_
    | dsimp only
    | split
    | with_reducible refine canon_upd ?_ rfl rfl rfl rfl rfl rfl

theorem canon_lanesGo (a0 : State) (h : a0.Canon) : (State.lanesGo a0).Canon := by
  unfold State.lanesGo
  repeat'
    first
    | with_reducible assumption
    | with_reducible refine canon_ite ?_ ?_
    | with_reducible refine canon_laneRepair _ _ ?_
    | with_reducible refine canon_foldl ?_ (fun _ _ _ => ?_)
    | with_reducible refine canon_foldl_fst ?_ (fun _ _ _ => ?_)
    | with_reducible refine canon_pair (by assumption) ?_
    | dsimp only
    | split
    | with_reducible refine canon_upd ?_ rfl rfl rfl rfl rfl rfl

theorem canon_repairGo (a0 : State) (h : a0.Canon) : (State.repairGo a0).Canon := by
  unfold State.repairGo
  repeat'
    first
    | with_reducible assumption
    | with_reducible refine canon_ite ?_ ?_
    | with_reducible refine canon_lanesGo _ ?_
    | with_reducible refine canon_putGo _ ?_
    | dsimp only
    | split
    | with_reducible refine canon_upd ?_ rfl rfl rfl rfl rfl rfl

theorem canon_calibrate (a0 : State) (h : a0.Canon) : (State.calibrate a0).Canon := by
  unfold State.calibrate
  repeat'
    first
    | with_reducible assumption
    | with_reducible refine canon_ite ?_ ?_
    | with_reducible refine canon_wr _ _ _ _ ?_
    | with_reducible refine canon_free _ ?_
    | with_reducible refine canon_foldl ?_ (fun _ _ _ => ?_)
    | with_reducible refine canon_foldl_fst ?_ (fun _ _ _ => ?_)
    | with_reducible refine canon_pair (by assumption) ?_
    | with_reducible refine canon_pair_snd (by assumption) ?_
    | dsimp only
    | split
    | with_reducible refine canon_upd ?_ rfl rfl rfl rfl rfl rfl

theorem canon_replanEnd (a0 : State) (a1 : Replan) (h : a0.Canon) : (State.replanEnd a0 a1).Canon := by
  unfold State.replanEnd
  repeat'
    first
    | with_reducible assumption
    | with_reducible refine canon_ite ?_ ?_
    | with_reducible refine canon_irq _ _ _ ?_
    | with_reducible refine canon_set0 _ _ _ ?_
    | with_reducible refine canon_set1 _ _ _ ?_
    | with_reducible refine canon_bumpSat _ _ _ _ ?_
    | with_reducible refine canon_logErr _ _ ?_
    | with_reducible refine canon_calibrate _ ?_
    | with_reducible refine canon_repairGo _ ?_
    | with_reducible refine canon_notify _ _ _ _ ?_
    | with_reducible refine canon_fset _ _ _ _ ?_
    | with_reducible refine canon_updHalf _ ?_
    | with_reducible refine canon_foldl ?_ (fun _ _ _ => ?_)
    | with_reducible refine canon_foldl_fst ?_ (fun _ _ _ => ?_)
    | with_reducible refine canon_pair (by assumption) ?_
    | dsimp only
    | split
    | with_reducible refine canon_upd ?_ rfl rfl rfl rfl rfl rfl

theorem canon_replanNext (a0 : State) (a1 : Replan) (h : a0.Canon) : (State.replanNext a0 a1).Canon := by
  unfold State.replanNext
  repeat'
    first
    | with_reducible assumption
    | with_reducible refine canon_ite ?_ ?_
    | with_reducible refine canon_replanEnd _ _ ?_
    | with_reducible refine canon_probeGo _ _ ?_
    | with_reducible refine canon_fset _ _ _ _ ?_
    | dsimp only
    | split
    | with_reducible refine canon_upd ?_ rfl rfl rfl rfl rfl rfl

theorem canon_replanGo (a0 : State) (h : a0.Canon) : (State.replanGo a0).Canon := by
  unfold State.replanGo
  repeat'
    first
    | with_reducible assumption
    | with_reducible refine canon_ite ?_ ?_
    | with_reducible refine canon_replanNext _ _ ?_
    | dsimp only
    | split
    | with_reducible refine canon_upd ?_ rfl rfl rfl rfl rfl rfl

theorem canon_replanStart (a0 : State) (a1 : List Nat) (h : a0.Canon) : (State.replanStart a0 a1).Canon := by
  unfold State.replanStart
  repeat'
    first
    | with_reducible assumption
    | with_reducible refine canon_ite ?_ ?_
    | with_reducible refine canon_set1 _ _ _ ?_
    | with_reducible refine canon_replanGo _ ?_
    | with_reducible refine canon_fset _ _ _ _ ?_
    | with_reducible refine canon_foldl ?_ (fun _ _ _ => ?_)
    | with_reducible refine canon_foldl_fst ?_ (fun _ _ _ => ?_)
    | with_reducible refine canon_pair (by assumption) ?_
    | dsimp only
    | split
    | with_reducible refine canon_upd ?_ rfl rfl rfl rfl rfl rfl

theorem canon_restartCore (a0 : State) (a1 : Nat) (h : a0.Canon) : (State.restartCore a0 a1).Canon := by
  unfold State.restartCore
  repeat'
    first
    | with_reducible assumption
    | with_reducible refine canon_ite ?_ ?_
    | with_reducible refine canon_repairGo _ ?_
    | with_reducible refine canon_replanGo _ ?_
    | with_reducible refine canon_kskUp _ ?_
    | with_reducible refine canon_kskDown _ ?_
    | with_reducible refine canon_startCore _ _ ?_
    | dsimp only
    | split
    | with_reducible refine canon_upd ?_ rfl rfl rfl rfl rfl rfl

theorem canon_haltCore (a0 : State) (a1 : Nat) (h : a0.Canon) : (State.haltCore a0 a1).Canon := by
  unfold State.haltCore
  repeat'
    first
    | with_reducible assumption
    | with_reducible refine canon_ite ?_ ?_
    | with_reducible refine canon_kskDown _ ?_
    | with_reducible refine canon_fset _ _ _ _ ?_
    | with_reducible refine canon_set0 _ _ _ ?_
    | dsimp only
    | split
    | with_reducible refine canon_upd ?_ rfl rfl rfl rfl rfl rfl

theorem canon_exchange (a0 : State) (a1 : Nat) (h : a0.Canon) : (State.exchange a0 a1).Canon :=
  canon_mgmt h (Mem.wf_copyRaw _ _ _ _ _ (Mem.wf_copyRaw _ _ _ _ _ h.sram_wf))

theorem canon_revertCore (a0 : State) (a1 : Nat) (h : a0.Canon) : (State.revertCore a0 a1).Canon := by
  unfold State.revertCore
  repeat'
    first
    | with_reducible assumption
    | with_reducible refine canon_ite ?_ ?_
    | with_reducible refine canon_logErr _ _ ?_
    | with_reducible refine canon_coreEvent _ _ _ ?_
    | with_reducible refine canon_runCore _ _ ?_
    | with_reducible refine canon_kskUp _ ?_
    | with_reducible refine canon_set0 _ _ _ ?_
    | with_reducible refine canon_exchange _ _ ?_
    | dsimp only
    | split
    | with_reducible refine canon_upd ?_ rfl rfl rfl rfl rfl rfl

theorem canon_watchdog (a0 : State) (a1 : Nat) (h : a0.Canon) : (State.watchdog a0 a1).Canon := by
  unfold State.watchdog
  repeat'
    first
    | with_reducible assumption
    | with_reducible refine canon_ite ?_ ?_
    | with_reducible refine canon_restartCore _ _ ?_
    | with_reducible refine canon_bumpSat _ _ _ _ ?_
    | with_reducible refine canon_haltCore _ _ ?_
    | with_reducible refine canon_logErr _ _ ?_
    | with_reducible refine canon_coreEvent _ _ _ ?_
    | with_reducible refine canon_revertCore _ _ ?_
    | dsimp only
    | split
    | with_reducible refine canon_upd ?_ rfl rfl rfl rfl rfl rfl

theorem canon_kick (a0 : State) (a1 : Nat) (h : a0.Canon) : (State.kick a0 a1).Canon := by
  unfold State.kick
  repeat'
    first
    | with_reducible assumption
    | with_reducible refine canon_ite ?_ ?_
    | with_reducible refine canon_set0 _ _ _ ?_
    | with_reducible refine canon_coreEvent _ _ _ ?_
    | with_reducible refine canon_set1 _ _ _ ?_
    | dsimp only
    | split
    | with_reducible refine canon_upd ?_ rfl rfl rfl rfl rfl rfl

theorem canon_stage (a0 : State) (a1 : List Byte) (h : a0.Canon) : (State.stage a0 a1).1.Canon := by
  unfold State.stage
  split
  · exact h
  · split
    · exact h
    · have h1 := canon_set0 _ F.MGC_STAT_STAGED 0 (canon_mgmt (m := { a0.mgmt with
        sram := (a0.mgmt.sram.zero stagingArea 0x10000).puts stagingArea a1, swap := none }) h
        (Mem.wf_puts _ _ _ (Mem.wf_zero _ _ _ h.sram_wf)))
      dsimp only
      split
      · exact h1
      · exact canon_fset _ _ _ _ (canon_set1 _ _ _ h1)

theorem canon_agentStage (a0 : State) (a1 : List Byte) (h : a0.Canon) : (State.agentStage a0 a1).1.Canon := by
  unfold State.agentStage
  extract_lets c m _ s
  have hs : s.Canon := canon_mgmt h (Mem.wf_puts _ _ _ (Mem.wf_zero _ _ _ h.sram_wf))
  split
  · exact h
  · split
    · exact h
    · split
      · exact hs
      · have hf := canon_foldl (f := fun s c => if s.coreState c = 0 then s.startCore c else s) (l := List.range 4) hs
          (fun _ c hs => canon_ite (canon_startCore _ c hs) hs)
        exact canon_ite (canon_fset _ _ _ _ hf) hf

theorem canon_activate (a0 : State) (a1 : Nat) (a2 : Nat) (h : a0.Canon) : (State.activate a0 a1 a2).1.Canon := by
  unfold State.activate
  repeat'
    first
    | with_reducible assumption
    | with_reducible refine canon_ite ?_ ?_
    | with_reducible refine canon_set1 _ _ _ ?_
    | dsimp only
    | split
    | with_reducible refine canon_upd ?_ rfl rfl rfl rfl rfl rfl

theorem canon_activated (a0 : State) (a1 : Nat) (a2 : Nat) (a3 : List Byte) (h : a0.Canon) : (State.activated a0 a1 a2 a3).Canon := by
  unfold State.activated
  generalize handoff a1 a2 _ = bs
  extract_lets _ m s1 s2 _ s3 s4
  have hm : m.sram.wf = true := Mem.wf_puts _ _ _ (Mem.wf_zero _ _ _ h.sram_wf)
  clear_value m
  have h1 : s1.Canon := canon_ite (canon_fset _ _ _ _ (canon_fset _ _ _ _ (canon_mgmt h hm))) h
  clear_value s1
  have h2 : s2.Canon := canon_set0 _ _ _ (canon_exchange _ a1 h1)
  clear_value s2
  have h3 : s3.Canon := canon_upd h2 rfl rfl rfl rfl rfl rfl
  clear_value s3
  have h4 : s4.Canon := canon_kskUp _ (canon_runCore _ _ h3)
  exact canon_ite h4 (canon_logErr _ _ h4)

theorem canon_fwRevert (a0 : State) (a1 : Nat) (h : a0.Canon) : (State.fwRevert a0 a1).1.Canon := by
  unfold State.fwRevert
  repeat'
    first
    | with_reducible assumption
    | with_reducible refine canon_ite ?_ ?_
    | with_reducible refine canon_revertCore _ _ ?_
    | dsimp only
    | split
    | with_reducible refine canon_upd ?_ rfl rfl rfl rfl rfl rfl

end Sys2Proof.Machine
end

