-- ==== Sys2Proof/Laws/Canon/Rows.lean ====
section
/-! SUPPORT. The operations of `Rows.lean` keep the canonical form of the state. -/

namespace Sys2Proof.Machine

open Sys2Proof

theorem canon_showPlan (a0 : State) (a1 : Nat) (h : a0.Canon) : (State.showPlan a0 a1).Canon := by
  unfold State.showPlan
  repeat'
    first
    | with_reducible assumption
    | with_reducible refine canon_ite ?_ ?_
    | with_reducible refine canon_wr _ _ _ _ ?_
    | with_reducible refine canon_fset _ _ _ _ ?_
    | dsimp only
    | split
    | with_reducible refine canon_upd ?_ rfl rfl rfl rfl rfl rfl

theorem canon_setPlan (a0 : State) (a1 : Nat) (a2 : PlanState) (h : a0.Canon) : (State.setPlan a0 a1 a2).Canon := by
  unfold State.setPlan
  repeat'
    first
    | with_reducible assumption
    | with_reducible refine canon_ite ?_ ?_
    | with_reducible refine canon_showPlan _ _ ?_
    | dsimp only
    | split
    | with_reducible refine canon_upd ?_ rfl rfl rfl rfl rfl rfl

theorem canon_showPending (a0 : State) (h : a0.Canon) : (State.showPending a0).Canon := by
  unfold State.showPending
  repeat'
    first
    | with_reducible assumption
    | with_reducible refine canon_ite ?_ ?_
    | with_reducible refine canon_fset _ _ _ _ ?_
    | dsimp only
    | split
    | with_reducible refine canon_upd ?_ rfl rfl rfl rfl rfl rfl

theorem canon_applyMasks (a0 : State) (a1 : Nat) (h : a0.Canon) : (State.applyMasks a0 a1).Canon := by
  unfold State.applyMasks
  repeat'
    first
    | with_reducible assumption
    | with_reducible refine canon_ite ?_ ?_
    | dsimp only
    | split
    | with_reducible refine canon_upd ?_ rfl rfl rfl rfl rfl rfl

theorem canon_classChanged (a0 : State) (a1 : List Nat) (h : a0.Canon) : (State.classChanged a0 a1).Canon := by
  unfold State.classChanged
  repeat'
    first
    | with_reducible assumption
    | with_reducible refine canon_ite ?_ ?_
    | with_reducible refine canon_set1 _ _ _ ?_
    | with_reducible refine canon_logErr _ _ ?_
    | with_reducible refine canon_irq _ _ _ ?_
    | with_reducible refine canon_setPlan _ _ _ ?_
    | with_reducible refine canon_foldl ?_ (fun _ _ _ => ?_)
    | with_reducible refine canon_foldl_fst ?_ (fun _ _ _ => ?_)
    | with_reducible refine canon_pair (by assumption) ?_
    | dsimp only
    | split
    | with_reducible refine canon_upd ?_ rfl rfl rfl rfl rfl rfl

theorem canon_bypassApply (a0 : State) (h : a0.Canon) : (State.bypassApply a0).Canon := by
  unfold State.bypassApply
  repeat'
    first
    | with_reducible assumption
    | with_reducible refine canon_ite ?_ ?_
    | with_reducible refine canon_showPending _ ?_
    | with_reducible refine canon_classChanged _ _ ?_
    | with_reducible refine canon_applyMasks _ _ ?_
    | with_reducible refine canon_foldl ?_ (fun _ _ _ => ?_)
    | with_reducible refine canon_foldl_fst ?_ (fun _ _ _ => ?_)
    | with_reducible refine canon_pair (by assumption) ?_
    | dsimp only
    | split
    | with_reducible refine canon_upd ?_ rfl rfl rfl rfl rfl rfl

theorem canon_rowCycles (a0 : State) (a1 : Nat) (a2 : Nat) (a3 : Nat) (h : a0.Canon) : (State.rowCycles a0 a1 a2 a3).Canon := by
  unfold State.rowCycles
  repeat'
    first
    | with_reducible assumption
    | with_reducible refine canon_ite ?_ ?_
    | with_reducible refine canon_topDown _ _ _ _ ?_
    | dsimp only
    | split
    | with_reducible refine canon_upd ?_ rfl rfl rfl rfl rfl rfl

theorem canon_spend (a0 : State) (a1 : Nat) (a2 : Nat) (h : a0.Canon) : (State.spend a0 a1 a2).Canon := by
  unfold State.spend
  repeat'
    first
    | with_reducible assumption
    | with_reducible refine canon_ite ?_ ?_
    | dsimp only
    | split
    | with_reducible refine canon_upd ?_ rfl rfl rfl rfl rfl rfl

theorem canon_idleWindow (a0 : State) (a1 : Nat) (h : a0.Canon) : (State.idleWindow a0 a1).Canon := by
  unfold State.idleWindow
  repeat'
    first
    | with_reducible assumption
    | with_reducible refine canon_ite ?_ ?_
    | with_reducible refine canon_rowCycles _ _ _ _ ?_
    | with_reducible refine canon_spend _ _ _ ?_
    | with_reducible refine canon_bump _ _ _ _ ?_
    | with_reducible refine canon_event _ _ _ _ ?_
    | with_reducible refine canon_fset _ _ _ _ ?_
    | with_reducible refine canon_foldl ?_ (fun _ _ _ => ?_)
    | with_reducible refine canon_foldl_fst ?_ (fun _ _ _ => ?_)
    | with_reducible refine canon_pair (by assumption) ?_
    | dsimp only
    | split
    | with_reducible refine canon_upd ?_ rfl rfl rfl rfl rfl rfl

end Sys2Proof.Machine
end

