-- ==== Sys2Proof/Laws/Canon/T0.lean ====
section
/-! SUPPORT. The operations of `T0.lean` keep the canonical form of the state. -/

namespace Sys2Proof.Machine

open Sys2Proof

theorem canon_t0Write (a0 : State) (a1 : Nat) (a2 : List (Option Byte)) (h : a0.Canon) : (State.t0Write a0 a1 a2).Canon := by
  refine canon_t0 h (Mem.wf_foldl _ (fun m x hm => ?_) _ _ h.t0_wf)
  split
  · exact Mem.wf_put _ _ _ hm
  · exact Mem.wf_putBad _ _ _ hm

end Sys2Proof.Machine
end

