-- ==== Sys2Proof/Laws/Canon/Update.lean ====
section
/-! SUPPORT. The operations of `Update.lean` keep the canonical form of the state. -/

namespace Sys2Proof.Machine

open Sys2Proof

theorem canon_setUpdPart (a0 : State) (a1 : Nat) (a2 : UpdPart) (h : a0.Canon) : (State.setUpdPart a0 a1 a2).Canon := by
  unfold State.setUpdPart
  repeat'
    first
    | with_reducible assumption
    | with_reducible refine canon_ite ?_ ?_
    | dsimp only
    | split
    | with_reducible refine canon_upd ?_ rfl rfl rfl rfl rfl rfl

theorem canon_setPass (a0 : State) (a1 : Nat) (a2 : Option Pass) (h : a0.Canon) : (State.setPass a0 a1 a2).Canon := by
  unfold State.setPass
  repeat'
    first
    | with_reducible assumption
    | with_reducible refine canon_ite ?_ ?_
    | with_reducible refine canon_setUpdPart _ _ _ ?_
    | dsimp only
    | split
    | with_reducible refine canon_upd ?_ rfl rfl rfl rfl rfl rfl

theorem canon_updErr (a0 : State) (a1 : Nat) (a2 : Nat) (a3 : Nat) (a4 : Nat) (a5 : Nat) (a6 : Nat) (a7 : Nat) (h : a0.Canon) :
    (State.updErr a0 a1 a2 a3 a4 a5 a6 a7).Canon := by
  unfold State.updErr
  repeat'
    first
    | with_reducible assumption
    | with_reducible refine canon_ite ?_ ?_
    | with_reducible refine canon_logOnce _ _ _ ?_
    | dsimp only
    | split
    | with_reducible refine canon_upd ?_ rfl rfl rfl rfl rfl rfl

theorem canon_updErrClear (a0 : State) (a1 : Nat) (h : a0.Canon) : (State.updErrClear a0 a1).Canon := by
  unfold State.updErrClear
  repeat'
    first
    | with_reducible assumption
    | with_reducible refine canon_ite ?_ ?_
    | with_reducible refine canon_clearOnce _ _ ?_
    | dsimp only
    | split
    | with_reducible refine canon_upd ?_ rfl rfl rfl rfl rfl rfl

theorem canon_setTlm (a0 : State) (a1 : Nat) (a2 : TlmSlot) (h : a0.Canon) : (State.setTlm a0 a1 a2).Canon := by
  unfold State.setTlm
  repeat'
    first
    | with_reducible assumption
    | with_reducible refine canon_ite ?_ ?_
    | dsimp only
    | split
    | with_reducible refine canon_upd ?_ rfl rfl rfl rfl rfl rfl

theorem canon_belAdd (a0 : State) (a1 : Nat) (a2 : List BelElem) (h : a0.Canon) : (State.belAdd a0 a1 a2).Canon := by
  unfold State.belAdd
  repeat'
    first
    | with_reducible assumption
    | with_reducible refine canon_ite ?_ ?_
    | with_reducible refine canon_set1 _ _ _ ?_
    | with_reducible refine canon_irq _ _ _ ?_
    | with_reducible refine canon_setTlm _ _ _ ?_
    | dsimp only
    | split
    | with_reducible refine canon_upd ?_ rfl rfl rfl rfl rfl rfl

theorem canon_belEnd (a0 : State) (a1 : Nat) (a2 : Nat) (h : a0.Canon) : (State.belEnd a0 a1 a2).Canon := by
  unfold State.belEnd
  repeat'
    first
    | with_reducible assumption
    | with_reducible refine canon_ite ?_ ?_
    | with_reducible refine canon_setTlm _ _ _ ?_
    | dsimp only
    | split
    | with_reducible refine canon_upd ?_ rfl rfl rfl rfl rfl rfl

theorem canon_belModes (a0 : State) (h : a0.Canon) : (State.belModes a0).Canon := by
  unfold State.belModes
  repeat'
    first
    | with_reducible assumption
    | with_reducible refine canon_ite ?_ ?_
    | with_reducible refine canon_setTlm _ _ _ ?_
    | with_reducible refine canon_set0 _ _ _ ?_
    | with_reducible refine canon_foldl ?_ (fun _ _ _ => ?_)
    | with_reducible refine canon_foldl_fst ?_ (fun _ _ _ => ?_)
    | with_reducible refine canon_pair (by assumption) ?_
    | dsimp only
    | split
    | with_reducible refine canon_upd ?_ rfl rfl rfl rfl rfl rfl

theorem canon_bankTurns (a0 : State) (a1 : Nat) (a2 : Nat) (a3 : List Nat) (a4 : Nat) (a5 : Nat) (h : a0.Canon) :
    (State.bankTurns a0 a1 a2 a3 a4 a5).1.Canon := by
  unfold State.bankTurns
  repeat'
    first
    | with_reducible assumption
    | with_reducible refine canon_ite ?_ ?_
    | with_reducible refine canon_foldl ?_ (fun _ _ _ => ?_)
    | with_reducible refine canon_foldl_fst ?_ (fun _ _ _ => ?_)
    | with_reducible refine canon_pair (by assumption) ?_
    | dsimp only
    | split
    | with_reducible refine canon_upd ?_ rfl rfl rfl rfl rfl rfl

theorem canon_bankGives (a0 : State) (a1 : Nat) (a2 : Nat) (a3 : Nat) (h : a0.Canon) : (State.bankGives a0 a1 a2 a3).Canon := by
  unfold State.bankGives
  repeat'
    first
    | with_reducible assumption
    | with_reducible refine canon_ite ?_ ?_
    | dsimp only
    | split
    | with_reducible refine canon_upd ?_ rfl rfl rfl rfl rfl rfl

theorem canon_slotRead (a0 : State) (a1 : Nat) (a2 : Nat) (a3 : Nat) (a4 : Nat) (a5 : Nat) (a6 : Nat) (h : a0.Canon) :
    (State.slotRead a0 a1 a2 a3 a4 a5 a6).1.Canon := by
  unfold State.slotRead
  repeat'
    first
    | with_reducible assumption
    | with_reducible refine canon_ite ?_ ?_
    | with_reducible refine canon_lateMove _ _ _ ?_
    | with_reducible refine canon_readRange _ _ _ _ _ ?_
    | with_reducible refine canon_bankTurns _ _ _ _ _ _ ?_
    | with_reducible refine canon_foldl ?_ (fun _ _ _ => ?_)
    | with_reducible refine canon_foldl_fst ?_ (fun _ _ _ => ?_)
    | with_reducible refine canon_pair (by assumption) ?_
    | dsimp only
    | split
    | with_reducible refine canon_upd ?_ rfl rfl rfl rfl rfl rfl

theorem canon_updRead (a0 : State) (a1 : Nat) (a2 : Nat) (a3 : Nat) (h : a0.Canon) : (State.updRead a0 a1 a2 a3).1.Canon := by
  unfold State.updRead
  repeat'
    first
    | with_reducible assumption
    | with_reducible refine canon_ite ?_ ?_
    | with_reducible refine canon_slotRead _ _ _ _ _ _ _ ?_
    | with_reducible refine canon_pair (by assumption) ?_
    | dsimp only
    | split
    | with_reducible refine canon_upd ?_ rfl rfl rfl rfl rfl rfl

theorem canon_readGrads (a0 : State) (a1 : Nat) (a2 : List Byte) (a3 : Nat) (a4 : Nat) (h : a0.Canon) :
    (State.readGrads a0 a1 a2 a3 a4).1.Canon := by
  unfold State.readGrads
  repeat'
    first
    | with_reducible assumption
    | with_reducible refine canon_ite ?_ ?_
    | with_reducible refine canon_updRead _ _ _ _ ?_
    | with_reducible refine canon_pair (by assumption) ?_
    | dsimp only
    | split
    | with_reducible refine canon_upd ?_ rfl rfl rfl rfl rfl rfl

theorem canon_readElems (a0 : State) (a1 : Nat) (a2 : Pass) (a3 : List Byte) (a4 : Prog) (a5 : Nat) (a6 : Nat) (a7 : Nat) (h : a0.Canon) :
    (State.readElems a0 a1 a2 a3 a4 a5 a6 a7).1.Canon := by
  unfold State.readElems
  repeat'
    first
    | with_reducible assumption
    | with_reducible refine canon_ite ?_ ?_
    | with_reducible refine canon_readGrads _ _ _ _ _ ?_
    | with_reducible refine canon_updRead _ _ _ _ ?_
    | with_reducible refine canon_pair (by assumption) ?_
    | dsimp only
    | split
    | with_reducible refine canon_upd ?_ rfl rfl rfl rfl rfl rfl

theorem canon_frees (a0 : Nat) (a1 : State) (h : a1.Canon) : (State.frees a0 a1).1.Canon := by
  induction a0 generalizing a1 with
  | zero =>
    unfold State.frees
    repeat'
      first
      | with_reducible assumption
      | with_reducible refine canon_ite ?_ ?_
      | with_reducible refine canon_free _ ?_
      | with_reducible refine canon_pair (by assumption) ?_
      | with_reducible refine canon_pair_snd (by assumption) ?_
      | dsimp only
      | split
      | with_reducible refine canon_upd ?_ rfl rfl rfl rfl rfl rfl
  | succ n ih =>
    unfold State.frees
    repeat'
      first
      | with_reducible assumption
      | with_reducible refine canon_ite ?_ ?_
      | with_reducible refine ih _ ?_
      | with_reducible refine canon_free _ ?_
      | with_reducible refine canon_pair (by assumption) ?_
      | with_reducible refine canon_pair_snd (by assumption) ?_
      | dsimp only
      | split
      | with_reducible refine canon_upd ?_ rfl rfl rfl rfl rfl rfl

theorem canon_genWrite (a0 : State) (a1 : Nat) (a2 : Nat) (a3 : Pass) (a4 : List Byte) (a5 : Nat) (a6 : List BelElem) (h : a0.Canon) :
    (State.genWrite a0 a1 a2 a3 a4 a5 a6).Canon := by
  unfold State.genWrite
  repeat'
    first
    | with_reducible assumption
    | with_reducible refine canon_ite ?_ ?_
    | with_reducible refine canon_poisonAt _ _ _ _ ?_
    | with_reducible refine canon_writeRange _ _ _ _ _ _ ?_
    | with_reducible refine canon_bump _ _ _ _ ?_
    | with_reducible refine canon_foldl ?_ (fun _ _ _ => ?_)
    | with_reducible refine canon_foldl_fst ?_ (fun _ _ _ => ?_)
    | with_reducible refine canon_pair (by assumption) ?_
    | dsimp only
    | split
    | with_reducible refine canon_upd ?_ rfl rfl rfl rfl rfl rfl

theorem canon_groupDone (a0 : State) (a1 : Nat) (a2 : Pass) (a3 : List Byte) (a4 : Nat) (a5 : List ElemOut) (h : a0.Canon) :
    (State.groupDone a0 a1 a2 a3 a4 a5).Canon := by
  unfold State.groupDone
  repeat'
    first
    | with_reducible assumption
    | with_reducible refine canon_ite ?_ ?_
    | with_reducible refine canon_genWrite _ _ _ _ _ _ _ ?_
    | with_reducible refine canon_belAdd _ _ _ ?_
    | with_reducible refine canon_event _ _ _ _ ?_
    | with_reducible refine canon_bump _ _ _ _ ?_
    | with_reducible refine canon_irq _ _ _ ?_
    | with_reducible refine canon_updErr _ _ _ _ _ _ _ _ ?_
    | with_reducible refine canon_foldl ?_ (fun _ _ _ => ?_)
    | with_reducible refine canon_foldl_fst ?_ (fun _ _ _ => ?_)
    | with_reducible refine canon_pair (by assumption) ?_
    | dsimp only
    | split
    | with_reducible refine canon_upd ?_ rfl rfl rfl rfl rfl rfl

theorem canon_updFlush (a0 : Nat) (a1 : Nat) (a2 : List (Nat × List (Option Byte))) (a3 : State) (h : a3.Canon) :
    (State.updFlush a0 a1 a2 a3).1.Canon := by
  induction a2 generalizing a0 a1 a3 with
  | nil =>
    unfold State.updFlush
    repeat'
      first
      | with_reducible assumption
      | with_reducible refine canon_ite ?_ ?_
      | with_reducible refine canon_writeRange _ _ _ _ _ _ ?_
      | with_reducible refine canon_bankTurns _ _ _ _ _ _ ?_
      | with_reducible refine canon_pair (by assumption) ?_
      | dsimp only
      | split
      | with_reducible refine canon_upd ?_ rfl rfl rfl rfl rfl rfl
  | cons y ys ih =>
    unfold State.updFlush
    repeat'
      first
      | with_reducible assumption
      | with_reducible refine canon_ite ?_ ?_
      | with_reducible refine ih _ _ _ ?_
      | with_reducible refine canon_writeRange _ _ _ _ _ _ ?_
      | with_reducible refine canon_bankTurns _ _ _ _ _ _ ?_
      | with_reducible refine canon_pair (by assumption) ?_
      | dsimp only
      | split
      | with_reducible refine canon_upd ?_ rfl rfl rfl rfl rfl rfl

theorem canon_holdPages (a0 : State) (a1 : Nat) (a2 : List (Nat × Nat)) (h : a0.Canon) : (State.holdPages a0 a1 a2).1.Canon := by
  unfold State.holdPages
  repeat'
    first
    | with_reducible assumption
    | with_reducible refine canon_ite ?_ ?_
    | dsimp only
    | split
    | with_reducible refine canon_upd ?_ rfl rfl rfl rfl rfl rfl

theorem canon_unholdPages (a0 : State) (a1 : List Nat) (h : a0.Canon) : (State.unholdPages a0 a1).Canon := by
  unfold State.unholdPages
  repeat'
    first
    | with_reducible assumption
    | with_reducible refine canon_ite ?_ ?_
    | with_reducible refine canon_foldl ?_ (fun _ _ _ => ?_)
    | with_reducible refine canon_foldl_fst ?_ (fun _ _ _ => ?_)
    | with_reducible refine canon_pair (by assumption) ?_
    | dsimp only
    | split
    | with_reducible refine canon_upd ?_ rfl rfl rfl rfl rfl rfl

theorem canon_passEnd (a0 : State) (a1 : Nat) (a2 : Pass) (h : a0.Canon) : (State.passEnd a0 a1 a2).Canon := by
  unfold State.passEnd
  repeat'
    first
    | with_reducible assumption
    | with_reducible refine canon_ite ?_ ?_
    | with_reducible refine canon_set0 _ _ _ ?_
    | with_reducible refine canon_irq _ _ _ ?_
    | with_reducible refine canon_setUpdPart _ _ _ ?_
    | with_reducible refine canon_unholdPages _ _ ?_
    | with_reducible refine canon_wr _ _ _ _ ?_
    | with_reducible refine canon_belEnd _ _ _ ?_
    | with_reducible refine canon_foldl ?_ (fun _ _ _ => ?_)
    | with_reducible refine canon_foldl_fst ?_ (fun _ _ _ => ?_)
    | with_reducible refine canon_pair (by assumption) ?_
    | dsimp only
    | split
    | with_reducible refine canon_upd ?_ rfl rfl rfl rfl rfl rfl

theorem canon_layerSkip (a0 : State) (a1 : Nat) (a2 : Pass) (a3 : List Byte) (a4 : Nat) (h : a0.Canon) :
    (State.layerSkip a0 a1 a2 a3 a4).Canon := by
  unfold State.layerSkip
  repeat'
    first
    | with_reducible assumption
    | with_reducible refine canon_ite ?_ ?_
    | with_reducible refine canon_irq _ _ _ ?_
    | with_reducible refine canon_setPass _ _ _ ?_
    | with_reducible refine canon_logErr _ _ ?_
    | with_reducible refine canon_wr _ _ _ _ ?_
    | dsimp only
    | split
    | with_reducible refine canon_upd ?_ rfl rfl rfl rfl rfl rfl

theorem canon_layerBegin (a0 : State) (a1 : Nat) (a2 : Pass) (h : a0.Canon) : (State.layerBegin a0 a1 a2).1.Canon := by
  unfold State.layerBegin
  repeat'
    first
    | with_reducible assumption
    | with_reducible refine canon_ite ?_ ?_
    | with_reducible refine canon_updErrClear _ _ ?_
    | with_reducible refine canon_setPass _ _ _ ?_
    | with_reducible refine canon_holdPages _ _ _ ?_
    | with_reducible refine canon_layerSkip _ _ _ _ _ ?_
    | with_reducible refine canon_updRead _ _ _ _ ?_
    | with_reducible refine canon_pair (by assumption) ?_
    | dsimp only
    | split
    | with_reducible refine canon_upd ?_ rfl rfl rfl rfl rfl rfl

theorem canon_elemAt (a0 : State) (a1 : Nat) (a2 : List Byte) (a3 : Nat) (h : a0.Canon) :
    (State.elemAt a0 a1 a2 a3).1.Canon := by
  unfold State.elemAt
  repeat'
    first
    | with_reducible assumption
    | with_reducible refine canon_ite ?_ ?_
    | with_reducible refine canon_updRead _ _ _ _ ?_
    | with_reducible refine canon_pair (by assumption) ?_
    | dsimp only
    | split
    | with_reducible refine canon_upd ?_ rfl rfl rfl rfl rfl rfl

theorem canon_groupSet (a0 : State) (a1 : Nat) (a2 : Pass) (a3 : List Byte) (a4 : Nat) (a5 : List (Nat × List (Option Byte))) (a6 : Bool) (h : a0.Canon) :
    (State.groupSet a0 a1 a2 a3 a4 a5 a6).Canon := by
  unfold State.groupSet
  repeat'
    first
    | with_reducible assumption
    | with_reducible refine canon_ite ?_ ?_
    | with_reducible refine canon_setPass _ _ _ ?_
    | dsimp only
    | split
    | with_reducible refine canon_upd ?_ rfl rfl rfl rfl rfl rfl

theorem canon_genTurn (a0 : State) (a1 : Nat) (a2 : List Byte) (a3 : Nat) (a4 : Nat) (h : a0.Canon) :
    (State.genTurn a0 a1 a2 a3 a4).1.Canon := by
  unfold State.genTurn
  repeat'
    first
    | with_reducible assumption
    | with_reducible refine canon_ite ?_ ?_
    | with_reducible refine canon_bankTurns _ _ _ _ _ _ ?_
    | with_reducible refine canon_pair (by assumption) ?_
    | dsimp only
    | split
    | with_reducible refine canon_upd ?_ rfl rfl rfl rfl rfl rfl

theorem canon_rowSummed (a0 : State) (a1 : Nat) (a2 : Pass) (a3 : List Byte) (a4 : Nat) (a5 : Option Nat) (a6 : List ElemIn) (h : a0.Canon) :
    (State.rowSummed a0 a1 a2 a3 a4 a5 a6).Canon := by
  unfold State.rowSummed
  repeat'
    first
    | with_reducible assumption
    | with_reducible refine canon_ite ?_ ?_
    | with_reducible refine canon_setPass _ _ _ ?_
    | with_reducible refine canon_bump _ _ _ _ ?_
    | with_reducible refine canon_irq _ _ _ ?_
    | with_reducible refine canon_updErr _ _ _ _ _ _ _ _ ?_
    | dsimp only
    | split
    | with_reducible refine canon_upd ?_ rfl rfl rfl rfl rfl rfl

theorem canon_groupStep (a0 : State) (a1 : Nat) (a2 : Pass) (a3 : List Byte) (a4 : Prog) (h : a0.Canon) :
    (State.groupStep a0 a1 a2 a3 a4).1.Canon := by
  unfold State.groupStep
  repeat'
    first
    | with_reducible assumption
    | with_reducible refine canon_ite ?_ ?_
    | with_reducible refine canon_groupSet _ _ _ _ _ _ _ ?_
    | with_reducible refine canon_groupDone _ _ _ _ _ _ ?_
    | with_reducible refine canon_frees _ _ ?_
    | with_reducible refine canon_genTurn _ _ _ _ _ ?_
    | with_reducible refine canon_rowSummed _ _ _ _ _ _ _ ?_
    | with_reducible refine canon_updRead _ _ _ _ ?_
    | with_reducible refine canon_readElems _ _ _ _ _ _ _ _ ?_
    | with_reducible refine canon_setPass _ _ _ ?_
    | with_reducible refine canon_logErr _ _ ?_
    | with_reducible refine canon_bump _ _ _ _ ?_
    | with_reducible refine canon_elemAt _ _ _ _ ?_
    | with_reducible refine canon_pair (by assumption) ?_
    | dsimp only
    | split
    | with_reducible refine canon_upd ?_ rfl rfl rfl rfl rfl rfl

theorem canon_rowGroup (a0 : State) (a1 : Nat) (a2 : Pass) (h : a0.Canon) : (State.rowGroup a0 a1 a2).1.Canon := by
  unfold State.rowGroup
  repeat'
    first
    | with_reducible assumption
    | with_reducible refine canon_ite ?_ ?_
    | with_reducible refine canon_groupDone _ _ _ _ _ _ ?_
    | with_reducible refine canon_genTurn _ _ _ _ _ ?_
    | with_reducible refine canon_pair (by assumption) ?_
    | dsimp only
    | split
    | with_reducible refine canon_upd ?_ rfl rfl rfl rfl rfl rfl

theorem canon_updWrites (a0 : State) (a1 : Nat) (a2 : Pass) (h : a0.Canon) : (State.updWrites a0 a1 a2).1.Canon := by
  unfold State.updWrites
  repeat'
    first
    | with_reducible assumption
    | with_reducible refine canon_ite ?_ ?_
    | with_reducible refine canon_rowGroup _ _ _ ?_
    | with_reducible refine canon_setPass _ _ _ ?_
    | with_reducible refine canon_updFlush _ _ _ _ ?_
    | with_reducible refine canon_pair (by assumption) ?_
    | dsimp only
    | split
    | with_reducible refine canon_upd ?_ rfl rfl rfl rfl rfl rfl

theorem canon_updStep (a0 : State) (a1 : Nat) (h : a0.Canon) : (State.updStep a0 a1).1.Canon := by
  unfold State.updStep
  repeat'
    first
    | with_reducible assumption
    | with_reducible refine canon_ite ?_ ?_
    | with_reducible refine canon_groupStep _ _ _ _ _ ?_
    | with_reducible refine canon_layerBegin _ _ _ ?_
    | with_reducible refine canon_passEnd _ _ _ ?_
    | with_reducible refine canon_setPass _ _ _ ?_
    | with_reducible refine canon_updWrites _ _ _ ?_
    | with_reducible refine canon_pair (by assumption) ?_
    | dsimp only
    | split
    | with_reducible refine canon_upd ?_ rfl rfl rfl rfl rfl rfl

theorem canon_passFlush (a0 : State) (a1 : Nat) (h : a0.Canon) : (State.passFlush a0 a1).Canon := by
  unfold State.passFlush
  repeat'
    first
    | with_reducible assumption
    | with_reducible refine canon_ite ?_ ?_
    | with_reducible refine canon_setPass _ _ _ ?_
    | with_reducible refine canon_updFlush _ _ _ _ ?_
    | with_reducible refine canon_pair (by assumption) ?_
    | dsimp only
    | split
    | with_reducible refine canon_upd ?_ rfl rfl rfl rfl rfl rfl

theorem canon_passesFlush (a0 : State) (h : a0.Canon) : (State.passesFlush a0).Canon := by
  unfold State.passesFlush
  repeat'
    first
    | with_reducible assumption
    | with_reducible refine canon_ite ?_ ?_
    | with_reducible refine canon_passFlush _ _ ?_
    | with_reducible refine canon_foldl ?_ (fun _ _ _ => ?_)
    | with_reducible refine canon_foldl_fst ?_ (fun _ _ _ => ?_)
    | with_reducible refine canon_pair (by assumption) ?_
    | dsimp only
    | split
    | with_reducible refine canon_upd ?_ rfl rfl rfl rfl rfl rfl

theorem canon_updRun (a0 : Nat) (a1 : Nat) (a2 : State) (h : a2.Canon) : (State.updRun a0 a1 a2).Canon := by
  induction a1 generalizing a0 a2 with
  | zero =>
    unfold State.updRun
    repeat'
      first
      | with_reducible assumption
      | with_reducible refine canon_ite ?_ ?_
      | with_reducible refine canon_topDown _ _ _ _ ?_
      | with_reducible refine canon_updStep _ _ ?_
      | with_reducible refine canon_pair (by assumption) ?_
      | dsimp only
      | split
      | with_reducible refine canon_upd ?_ rfl rfl rfl rfl rfl rfl
  | succ n ih =>
    unfold State.updRun
    repeat'
      first
      | with_reducible assumption
      | with_reducible refine canon_ite ?_ ?_
      | with_reducible refine ih _ _ ?_
      | with_reducible refine canon_topDown _ _ _ _ ?_
      | with_reducible refine canon_updStep _ _ ?_
      | with_reducible refine canon_pair (by assumption) ?_
      | dsimp only
      | split
      | with_reducible refine canon_upd ?_ rfl rfl rfl rfl rfl rfl

theorem canon_passBegin (a0 : State) (a1 : Nat) (h : a0.Canon) : (State.passBegin a0 a1).Canon := by
  unfold State.passBegin
  repeat'
    first
    | with_reducible assumption
    | with_reducible refine canon_ite ?_ ?_
    | with_reducible refine canon_set0 _ _ _ ?_
    | with_reducible refine canon_set1 _ _ _ ?_
    | with_reducible refine canon_setUpdPart _ _ _ ?_
    | with_reducible refine canon_belModes _ ?_
    | with_reducible refine canon_holdPages _ _ _ ?_
    | with_reducible refine canon_pair (by assumption) ?_
    | dsimp only
    | split
    | with_reducible refine canon_upd ?_ rfl rfl rfl rfl rfl rfl

theorem canon_flipAt (a0 : State) (a1 : Nat) (h : a0.Canon) : (State.flipAt a0 a1).Canon := by
  unfold State.flipAt
  repeat'
    first
    | with_reducible assumption
    | with_reducible refine canon_ite ?_ ?_
    | with_reducible refine canon_wr _ _ _ _ ?_
    | with_reducible refine canon_set0 _ _ _ ?_
    | with_reducible refine canon_irq _ _ _ ?_
    | with_reducible refine canon_fset _ _ _ _ ?_
    | with_reducible refine canon_setUpdPart _ _ _ ?_
    | dsimp only
    | split
    | with_reducible refine canon_upd ?_ rfl rfl rfl rfl rfl rfl

end Sys2Proof.Machine
end

