-- ==== Sys2Proof/Laws/Canon/Lane.lean ====
section
/-! SUPPORT. The operations of `Lane.lean` keep the canonical form of the state. -/

namespace Sys2Proof.Machine

open Sys2Proof

theorem canon_setLaneJob (a0 : State) (a1 : LaneJob) (h : a0.Canon) : (State.setLaneJob a0 a1).Canon := by
  unfold State.setLaneJob
  repeat'
    first
    | with_reducible assumption
    | with_reducible refine canon_ite ?_ ?_
    | dsimp only
    | split
    | with_reducible refine canon_upd ?_ rfl rfl rfl rfl rfl rfl

theorem canon_openChain (a0 : State) (a1 : Nat) (a2 : Nat) (a3 : Nat) (h : a0.Canon) : (State.openChain a0 a1 a2 a3).Canon := by
  unfold State.openChain
  repeat'
    first
    | with_reducible assumption
    | with_reducible refine canon_ite ?_ ?_
    | with_reducible refine canon_set1 _ _ _ ?_
    | with_reducible refine canon_fset _ _ _ _ ?_
    | with_reducible refine canon_bump _ _ _ _ ?_
    | dsimp only
    | split
    | with_reducible refine canon_upd ?_ rfl rfl rfl rfl rfl rfl

theorem canon_unpinBuf (a0 : State) (a1 : Chain) (h : a0.Canon) : (State.unpinBuf a0 a1).Canon := by
  unfold State.unpinBuf
  repeat'
    first
    | with_reducible assumption
    | with_reducible refine canon_ite ?_ ?_
    | with_reducible refine canon_fset _ _ _ _ ?_
    | dsimp only
    | split
    | with_reducible refine canon_upd ?_ rfl rfl rfl rfl rfl rfl

theorem canon_closeChain (a0 : State) (a1 : Nat) (h : a0.Canon) : (State.closeChain a0 a1).Canon := by
  unfold State.closeChain
  repeat'
    first
    | with_reducible assumption
    | with_reducible refine canon_ite ?_ ?_
    | with_reducible refine canon_unpinBuf _ _ ?_
    | with_reducible refine canon_set0 _ _ _ ?_
    | dsimp only
    | split
    | with_reducible refine canon_upd ?_ rfl rfl rfl rfl rfl rfl

theorem canon_closeOld (a0 : State) (a1 : Nat × Chain → Bool) (h : a0.Canon) : (State.closeOld a0 a1).Canon := by
  unfold State.closeOld
  repeat'
    first
    | with_reducible assumption
    | with_reducible refine canon_ite ?_ ?_
    | with_reducible refine canon_unpinBuf _ _ ?_
    | with_reducible refine canon_foldl ?_ (fun _ _ _ => ?_)
    | with_reducible refine canon_foldl_fst ?_ (fun _ _ _ => ?_)
    | with_reducible refine canon_pair (by assumption) ?_
    | dsimp only
    | split
    | with_reducible refine canon_upd ?_ rfl rfl rfl rfl rfl rfl

theorem canon_leaveChain (a0 : State) (a1 : Nat) (h : a0.Canon) : (State.leaveChain a0 a1).Canon := by
  unfold State.leaveChain
  repeat'
    first
    | with_reducible assumption
    | with_reducible refine canon_ite ?_ ?_
    | with_reducible refine canon_set0 _ _ _ ?_
    | with_reducible refine canon_closeChain _ _ ?_
    | dsimp only
    | split
    | with_reducible refine canon_upd ?_ rfl rfl rfl rfl rfl rfl

theorem canon_onChains (a0 : State) (a1 : Chain → Bool) (a2 : Chain → Chain) (h : a0.Canon) :
    (State.onChains a0 a1 a2).Canon := by
  unfold State.onChains
  repeat'
    first
    | with_reducible assumption
    | with_reducible refine canon_ite ?_ ?_
    | dsimp only
    | split
    | with_reducible refine canon_upd ?_ rfl rfl rfl rfl rfl rfl

theorem canon_laneFlush (a0 : Nat) (a1 : Nat) (a2 : State) (h : a2.Canon) : (State.laneFlush a0 a1 a2).Canon := by
  induction a1 generalizing a0 a2 with
  | zero =>
    unfold State.laneFlush
    repeat'
      first
      | with_reducible assumption
      | with_reducible refine canon_ite ?_ ?_
      | with_reducible refine canon_qRefuse _ _ _ _ _ _ _ ?_
      | with_reducible refine canon_qComplete _ _ _ _ _ _ _ _ _ ?_
      | dsimp only
      | split
      | with_reducible refine canon_upd ?_ rfl rfl rfl rfl rfl rfl
  | succ n ih =>
    unfold State.laneFlush
    repeat'
      first
      | with_reducible assumption
      | with_reducible refine canon_ite ?_ ?_
      | with_reducible refine ih _ _ ?_
      | with_reducible refine canon_qRefuse _ _ _ _ _ _ _ ?_
      | with_reducible refine canon_qComplete _ _ _ _ _ _ _ _ _ ?_
      | dsimp only
      | split
      | with_reducible refine canon_upd ?_ rfl rfl rfl rfl rfl rfl

theorem canon_markChain (a0 : State) (a1 : Nat) (h : a0.Canon) : (State.markChain a0 a1).Canon := by
  unfold State.markChain
  repeat'
    first
    | with_reducible assumption
    | with_reducible refine canon_ite ?_ ?_
    | with_reducible refine canon_onChains _ _ _ ?_
    | with_reducible refine canon_closeOld _ _ ?_
    | dsimp only
    | split
    | with_reducible refine canon_upd ?_ rfl rfl rfl rfl rfl rfl

theorem canon_countRing (a0 : State) (a1 : Nat) (h : a0.Canon) : (State.countRing a0 a1).Canon := by
  unfold State.countRing
  repeat'
    first
    | with_reducible assumption
    | with_reducible refine canon_ite ?_ ?_
    | dsimp only
    | split
    | with_reducible refine canon_upd ?_ rfl rfl rfl rfl rfl rfl

theorem canon_jobPin (a0 : State) (a1 : Nat) (a2 : Nat) (a3 : Nat) (h : a0.Canon) : (State.jobPin a0 a1 a2 a3).Canon := by
  unfold State.jobPin
  repeat'
    first
    | with_reducible assumption
    | with_reducible refine canon_ite ?_ ?_
    | with_reducible refine canon_pin _ _ _ ?_
    | dsimp only
    | split
    | with_reducible refine canon_upd ?_ rfl rfl rfl rfl rfl rfl

theorem canon_jobUnpin (a0 : State) (a1 : Nat) (h : a0.Canon) : (State.jobUnpin a0 a1).Canon := by
  unfold State.jobUnpin
  repeat'
    first
    | with_reducible assumption
    | with_reducible refine canon_ite ?_ ?_
    | with_reducible refine canon_unpin _ _ _ ?_
    | with_reducible refine canon_foldl ?_ (fun _ _ _ => ?_)
    | with_reducible refine canon_foldl_fst ?_ (fun _ _ _ => ?_)
    | with_reducible refine canon_pair (by assumption) ?_
    | dsimp only
    | split
    | with_reducible refine canon_upd ?_ rfl rfl rfl rfl rfl rfl

theorem canon_clearSets (a0 : State) (a1 : LaneJob) (h : a0.Canon) : (State.clearSets a0 a1).Canon := by
  unfold State.clearSets
  repeat'
    first
    | with_reducible assumption
    | with_reducible refine canon_ite ?_ ?_
    | dsimp only
    | split
    | with_reducible refine canon_upd ?_ rfl rfl rfl rfl rfl rfl

theorem canon_laneEnd (a0 : State) (a1 : LaneJob) (a2 : Nat) (a3 : Nat) (h : a0.Canon) : (State.laneEnd a0 a1 a2 a3).Canon := by
  unfold State.laneEnd
  repeat'
    first
    | with_reducible assumption
    | with_reducible refine canon_ite ?_ ?_
    | with_reducible refine canon_laneFlush _ _ _ ?_
    | with_reducible refine canon_markChain _ _ ?_
    | with_reducible refine canon_countRing _ _ ?_
    | with_reducible refine canon_clearSets _ _ ?_
    | with_reducible refine canon_setLaneJob _ _ ?_
    | with_reducible refine canon_unholdPages _ _ ?_
    | with_reducible refine canon_jobUnpin _ _ ?_
    | dsimp only
    | split
    | with_reducible refine canon_upd ?_ rfl rfl rfl rfl rfl rfl

theorem canon_laneTime (a0 : State) (a1 : LaneJob) (a2 : List Nat) (a3 : Nat) (a4 : Nat) (a5 : Nat) (h : a0.Canon) :
    (State.laneTime a0 a1 a2 a3 a4 a5).Canon := by
  unfold State.laneTime
  repeat'
    first
    | with_reducible assumption
    | with_reducible refine canon_ite ?_ ?_
    | with_reducible refine canon_rowCycles _ _ _ _ ?_
    | with_reducible refine canon_active _ _ _ ?_
    | with_reducible refine canon_foldl ?_ (fun _ _ _ => ?_)
    | with_reducible refine canon_foldl_fst ?_ (fun _ _ _ => ?_)
    | with_reducible refine canon_pair (by assumption) ?_
    | dsimp only
    | split
    | with_reducible refine canon_upd ?_ rfl rfl rfl rfl rfl rfl

theorem canon_laneWaste (a0 : State) (a1 : LaneJob) (h : a0.Canon) : (State.laneWaste a0 a1).Canon := by
  unfold State.laneWaste
  repeat'
    first
    | with_reducible assumption
    | with_reducible refine canon_ite ?_ ?_
    | with_reducible refine canon_laneTime _ _ _ _ _ _ ?_
    | dsimp only
    | split
    | with_reducible refine canon_upd ?_ rfl rfl rfl rfl rfl rfl

theorem canon_noteTail (a0 : State) (a1 : Nat) (a2 : Nat) (h : a0.Canon) : (State.noteTail a0 a1 a2).Canon := by
  unfold State.noteTail
  repeat'
    first
    | with_reducible assumption
    | with_reducible refine canon_ite ?_ ?_
    | dsimp only
    | split
    | with_reducible refine canon_upd ?_ rfl rfl rfl rfl rfl rfl

theorem canon_laneRead (a0 : State) (a1 : LaneJob) (a2 : Nat) (a3 : Nat) (a4 : Nat) (a5 : Nat) (h : a0.Canon) :
    (State.laneRead a0 a1 a2 a3 a4 a5).1.Canon := by
  unfold State.laneRead
  repeat'
    first
    | with_reducible assumption
    | with_reducible refine canon_ite ?_ ?_
    | with_reducible refine canon_slotRead _ _ _ _ _ _ _ ?_
    | with_reducible refine canon_pair (by assumption) ?_
    | dsimp only
    | split
    | with_reducible refine canon_upd ?_ rfl rfl rfl rfl rfl rfl

theorem canon_laneFetch (a0 : State) (a1 : LaneJob) (h : a0.Canon) : (State.laneFetch a0 a1).Canon := by
  unfold State.laneFetch
  repeat'
    first
    | with_reducible assumption
    | with_reducible refine canon_ite ?_ ?_
    | with_reducible refine canon_laneWaste _ _ ?_
    | with_reducible refine canon_laneEnd _ _ _ _ ?_
    | with_reducible refine canon_holdPages _ _ _ ?_
    | with_reducible refine canon_onChains _ _ _ ?_
    | with_reducible refine canon_openChain _ _ _ _ ?_
    | with_reducible refine canon_leaveChain _ _ ?_
    | with_reducible refine canon_setLaneJob _ _ ?_
    | with_reducible refine canon_laneRead _ _ _ _ _ _ ?_
    | with_reducible refine canon_pair (by assumption) ?_
    | dsimp only
    | split
    | with_reducible refine canon_upd ?_ rfl rfl rfl rfl rfl rfl

theorem canon_consume (a0 : State) (a1 : Nat) (a2 : Nat) (a3 : Nat) (a4 : Nat) (a5 : Nat) (a6 : Nat) (a7 : Nat) (a8 : Nat) (h : a0.Canon) :
    (State.consume a0 a1 a2 a3 a4 a5 a6 a7 a8).Canon := by
  unfold State.consume
  repeat'
    first
    | with_reducible assumption
    | with_reducible refine canon_ite ?_ ?_
    | with_reducible refine canon_laneFetch _ _ ?_
    | with_reducible refine canon_qTake _ _ _ ?_
    | with_reducible refine canon_bump _ _ _ _ ?_
    | with_reducible refine canon_set1 _ _ _ ?_
    | with_reducible refine canon_rowCycles _ _ _ _ ?_
    | dsimp only
    | split
    | with_reducible refine canon_upd ?_ rfl rfl rfl rfl rfl rfl

theorem canon_countDirect (a0 : State) (a1 : Nat) (h : a0.Canon) : (State.countDirect a0 a1).Canon := by
  unfold State.countDirect
  repeat'
    first
    | with_reducible assumption
    | with_reducible refine canon_ite ?_ ?_
    | with_reducible refine canon_bump _ _ _ _ ?_
    | dsimp only
    | split
    | with_reducible refine canon_upd ?_ rfl rfl rfl rfl rfl rfl

theorem canon_beatRead (a0 : State) (a1 : LaneJob) (a2 : Nat) (a3 : Nat) (h : a0.Canon) :
    (State.beatRead a0 a1 a2 a3).1.Canon := by
  unfold State.beatRead
  repeat'
    first
    | with_reducible assumption
    | with_reducible refine canon_ite ?_ ?_
    | with_reducible refine canon_lateMove _ _ _ ?_
    | with_reducible refine canon_readTier _ _ _ _ ?_
    | with_reducible refine canon_pageRead _ _ _ _ _ ?_
    | with_reducible refine canon_bankTurns _ _ _ _ _ _ ?_
    | with_reducible refine canon_foldl ?_ (fun _ _ _ => ?_)
    | with_reducible refine canon_foldl_fst ?_ (fun _ _ _ => ?_)
    | with_reducible refine canon_pair (by assumption) ?_
    | dsimp only
    | split
    | with_reducible refine canon_upd ?_ rfl rfl rfl rfl rfl rfl

theorem canon_seqRead (a0 : State) (a1 : LaneJob) (a2 : Nat) (a3 : Nat) (a4 : Nat) (h : a0.Canon) :
    (State.seqRead a0 a1 a2 a3 a4).1.Canon := by
  unfold State.seqRead
  repeat'
    first
    | with_reducible assumption
    | with_reducible refine canon_ite ?_ ?_
    | with_reducible refine canon_bump _ _ _ _ ?_
    | with_reducible refine canon_pinGo _ _ ?_
    | with_reducible refine canon_jobPin _ _ _ _ ?_
    | with_reducible refine canon_beatRead _ _ _ _ ?_
    | with_reducible refine canon_pinStall _ _ ?_
    | with_reducible refine canon_seqLookup _ _ _ _ ?_
    | with_reducible refine canon_foldl ?_ (fun _ _ _ => ?_)
    | with_reducible refine canon_foldl_fst ?_ (fun _ _ _ => ?_)
    | with_reducible refine canon_pair (by assumption) ?_
    | dsimp only
    | split
    | with_reducible refine canon_upd ?_ rfl rfl rfl rfl rfl rfl

theorem canon_smRead (a0 : State) (a1 : LaneJob) (a2 : List Byte) (a3 : Nat) (a4 : Nat) (h : a0.Canon) :
    (State.smRead a0 a1 a2 a3 a4).1.Canon := by
  unfold State.smRead
  repeat'
    first
    | with_reducible assumption
    | with_reducible refine canon_ite ?_ ?_
    | with_reducible refine canon_beatRead _ _ _ _ ?_
    | with_reducible refine canon_seqRead _ _ _ _ _ ?_
    | with_reducible refine canon_pair (by assumption) ?_
    | dsimp only
    | split
    | with_reducible refine canon_upd ?_ rfl rfl rfl rfl rfl rfl

theorem canon_laneWrites (a0 : State) (a1 : LaneJob) (a2 : List (Nat × List (Option Byte) × Nat)) (a3 : List (Nat × Nat)) (h : a0.Canon) :
    (State.laneWrites a0 a1 a2 a3).1.Canon := by
  induction a2 generalizing a0 a1 a3 with
  | nil =>
    unfold State.laneWrites
    repeat'
      first
      | with_reducible assumption
      | with_reducible refine canon_ite ?_ ?_
      | with_reducible refine canon_writeRange _ _ _ _ _ _ ?_
      | with_reducible refine canon_bankTurns _ _ _ _ _ _ ?_
      | with_reducible refine canon_pair (by assumption) ?_
      | dsimp only
      | split
      | with_reducible refine canon_upd ?_ rfl rfl rfl rfl rfl rfl
  | cons y ys ih =>
    unfold State.laneWrites
    repeat'
      first
      | with_reducible assumption
      | with_reducible refine canon_ite ?_ ?_
      | with_reducible refine ih _ _ _ ?_
      | with_reducible refine canon_writeRange _ _ _ _ _ _ ?_
      | with_reducible refine canon_bankTurns _ _ _ _ _ _ ?_
      | with_reducible refine canon_pair (by assumption) ?_
      | dsimp only
      | split
      | with_reducible refine canon_upd ?_ rfl rfl rfl rfl rfl rfl

theorem canon_laneSettle (a0 : State) (a1 : LaneJob) (h : a0.Canon) : (State.laneSettle a0 a1).1.Canon := by
  unfold State.laneSettle
  repeat'
    first
    | with_reducible assumption
    | with_reducible refine canon_ite ?_ ?_
    | with_reducible refine canon_poisonAt _ _ _ _ ?_
    | with_reducible refine canon_laneWrites _ _ _ _ ?_
    | with_reducible refine canon_foldl ?_ (fun _ _ _ => ?_)
    | with_reducible refine canon_foldl_fst ?_ (fun _ _ _ => ?_)
    | with_reducible refine canon_pair (by assumption) ?_
    | dsimp only
    | split
    | with_reducible refine canon_upd ?_ rfl rfl rfl rfl rfl rfl

theorem canon_putResult (a0 : State) (a1 : LaneJob) (a2 : Nat) (a3 : Nat) (a4 : Nat) (a5 : Nat) (a6 : Option Nat) (a7 : Nat) (a8 : Nat) (h : a0.Canon) :
    (State.putResult a0 a1 a2 a3 a4 a5 a6 a7 a8).1.Canon := by
  unfold State.putResult
  repeat'
    first
    | with_reducible assumption
    | with_reducible refine canon_ite ?_ ?_
    | with_reducible refine canon_t0Write _ _ _ ?_
    | with_reducible refine canon_bump _ _ _ _ ?_
    | dsimp only
    | split
    | with_reducible refine canon_upd ?_ rfl rfl rfl rfl rfl rfl

theorem canon_setRow (a0 : State) (a1 : Nat) (a2 : LaneRow) (h : a0.Canon) : (State.setRow a0 a1 a2).Canon := by
  unfold State.setRow
  repeat'
    first
    | with_reducible assumption
    | with_reducible refine canon_ite ?_ ?_
    | dsimp only
    | split
    | with_reducible refine canon_upd ?_ rfl rfl rfl rfl rfl rfl

theorem canon_drainPort (a0 : State) (a1 : Nat) (h : a0.Canon) : (State.drainPort a0 a1).1.Canon := by
  unfold State.drainPort
  repeat'
    first
    | with_reducible assumption
    | with_reducible refine canon_ite ?_ ?_
    | with_reducible refine canon_setRow _ _ _ ?_
    | dsimp only
    | split
    | with_reducible refine canon_upd ?_ rfl rfl rfl rfl rfl rfl

theorem canon_drainTrio (a0 : Nat) (a1 : Nat) (a2 : State) (h : a2.Canon) : (State.drainTrio a0 a1 a2).1.Canon := by
  induction a1 generalizing a0 a2 with
  | zero =>
    unfold State.drainTrio
    repeat'
      first
      | with_reducible assumption
      | with_reducible refine canon_ite ?_ ?_
      | with_reducible refine canon_drainPort _ _ ?_
      | with_reducible refine canon_pair (by assumption) ?_
      | dsimp only
      | split
      | with_reducible refine canon_upd ?_ rfl rfl rfl rfl rfl rfl
  | succ n ih =>
    unfold State.drainTrio
    repeat'
      first
      | with_reducible assumption
      | with_reducible refine canon_ite ?_ ?_
      | with_reducible refine ih _ _ ?_
      | with_reducible refine canon_drainPort _ _ ?_
      | with_reducible refine canon_pair (by assumption) ?_
      | dsimp only
      | split
      | with_reducible refine canon_upd ?_ rfl rfl rfl rfl rfl rfl

theorem canon_smBegin (a0 : State) (a1 : LaneJob) (a2 : List Byte) (h : a0.Canon) : (State.smBegin a0 a1 a2).1.Canon := by
  unfold State.smBegin
  repeat'
    first
    | with_reducible assumption
    | with_reducible refine canon_ite ?_ ?_
    | with_reducible refine canon_setRow _ _ _ ?_
    | with_reducible refine canon_foldl ?_ (fun _ _ _ => ?_)
    | with_reducible refine canon_foldl_fst ?_ (fun _ _ _ => ?_)
    | with_reducible refine canon_pair (by assumption) ?_
    | dsimp only
    | split
    | with_reducible refine canon_upd ?_ rfl rfl rfl rfl rfl rfl

theorem canon_fmtFault (a0 : State) (a1 : LaneJob) (a2 : Nat) (a3 : Nat) (h : a0.Canon) :
    (State.fmtFault a0 a1 a2 a3).Canon := by
  unfold State.fmtFault
  repeat'
    first
    | with_reducible assumption
    | with_reducible refine canon_ite ?_ ?_
    | with_reducible refine canon_logErr _ _ ?_
    | with_reducible refine canon_bump _ _ _ _ ?_
    | with_reducible refine canon_irq _ _ _ ?_
    | dsimp only
    | split
    | with_reducible refine canon_upd ?_ rfl rfl rfl rfl rfl rfl

theorem canon_laneFaults (a0 : State) (a1 : LaneJob) (a2 : Nat) (a3 : Nat) (a4 : List LaneFault) (h : a0.Canon) :
    (State.laneFaults a0 a1 a2 a3 a4).1.Canon := by
  unfold State.laneFaults
  repeat'
    first
    | with_reducible assumption
    | with_reducible refine canon_ite ?_ ?_
    | with_reducible refine canon_logErr _ _ ?_
    | with_reducible refine canon_set1 _ _ _ ?_
    | with_reducible refine canon_bump _ _ _ _ ?_
    | with_reducible refine canon_irq _ _ _ ?_
    | with_reducible refine canon_foldl ?_ (fun _ _ _ => ?_)
    | with_reducible refine canon_foldl_fst ?_ (fun _ _ _ => ?_)
    | with_reducible refine canon_pair (by assumption) ?_
    | dsimp only
    | split
    | with_reducible refine canon_upd ?_ rfl rfl rfl rfl rfl rfl

theorem canon_rowOutput (a0 : State) (a1 : LaneJob) (a2 : List Byte) (a3 : GenFmt) (a4 : Nat) (a5 : Nat) (a6 : Nat) (a7 : List (List Nat)) (a8 : List (List Num)) (a9 : List Nat) (a10 : List LaneFault) (h : a0.Canon) :
    (State.rowOutput a0 a1 a2 a3 a4 a5 a6 a7 a8 a9 a10).Canon := by
  unfold State.rowOutput
  repeat'
    first
    | with_reducible assumption
    | with_reducible refine canon_ite ?_ ?_
    | with_reducible refine canon_setRow _ _ _ ?_
    | with_reducible refine canon_laneFaults _ _ _ _ _ ?_
    | with_reducible refine canon_fmtFault _ _ _ _ ?_
    | with_reducible refine canon_foldl ?_ (fun _ _ _ => ?_)
    | with_reducible refine canon_foldl_fst ?_ (fun _ _ _ => ?_)
    | with_reducible refine canon_pair (by assumption) ?_
    | dsimp only
    | split
    | with_reducible refine canon_upd ?_ rfl rfl rfl rfl rfl rfl

theorem canon_countLate (a0 : State) (a1 : LaneJob) (a2 : Bool) (h : a0.Canon) : (State.countLate a0 a1 a2).1.Canon := by
  unfold State.countLate
  split
  · exact canon_bump _ _ _ _ h
  · exact h

theorem canon_smDrain (a0 : State) (a1 : LaneJob) (a2 : List Byte) (h : a0.Canon) : (State.smDrain a0 a1 a2).1.Canon := by
  unfold State.smDrain
  repeat'
    first
    | with_reducible assumption
    | with_reducible refine canon_ite ?_ ?_
    | with_reducible refine canon_putResult _ _ _ _ _ _ _ _ _ ?_
    | with_reducible refine canon_drainTrio _ _ _ ?_
    | with_reducible refine canon_foldl ?_ (fun _ _ _ => ?_)
    | with_reducible refine canon_foldl_fst ?_ (fun _ _ _ => ?_)
    | with_reducible refine canon_pair (by assumption) ?_
    | dsimp only
    | split
    | with_reducible refine canon_upd ?_ rfl rfl rfl rfl rfl rfl

theorem canon_smOutput (a0 : State) (a1 : LaneJob) (a2 : List Byte) (a3 : List LaneFault) (h : a0.Canon) :
    (State.smOutput a0 a1 a2 a3).1.Canon := by
  unfold State.smOutput
  repeat'
    first
    | with_reducible assumption
    | with_reducible refine canon_ite ?_ ?_
    | with_reducible refine canon_rowOutput _ _ _ _ _ _ _ _ _ _ _ ?_
    | with_reducible refine canon_jobUnpin _ _ ?_
    | with_reducible refine canon_countDirect _ _ ?_
    | with_reducible refine canon_countLate _ _ _ ?_
    | with_reducible refine canon_smRead _ _ _ _ _ ?_
    | with_reducible refine canon_setLaneJob _ _ ?_
    | with_reducible refine canon_foldl ?_ (fun _ _ _ => ?_)
    | with_reducible refine canon_foldl_fst ?_ (fun _ _ _ => ?_)
    | with_reducible refine canon_pair (by assumption) ?_
    | dsimp only
    | split
    | with_reducible refine canon_upd ?_ rfl rfl rfl rfl rfl rfl

theorem canon_smTime (a0 : State) (a1 : LaneJob) (a2 : List Byte) (h : a0.Canon) : (State.smTime a0 a1 a2).Canon := by
  unfold State.smTime
  repeat'
    first
    | with_reducible assumption
    | with_reducible refine canon_ite ?_ ?_
    | with_reducible refine canon_laneTime _ _ _ _ _ _ ?_
    | with_reducible refine canon_foldl ?_ (fun _ _ _ => ?_)
    | with_reducible refine canon_foldl_fst ?_ (fun _ _ _ => ?_)
    | with_reducible refine canon_pair (by assumption) ?_
    | dsimp only
    | split
    | with_reducible refine canon_upd ?_ rfl rfl rfl rfl rfl rfl

theorem canon_smRun (a0 : List Byte) (a1 : List LaneFault) (a2 : Nat) (a3 : LaneJob) (a4 : State) (h : a4.Canon) :
    (State.smRun a0 a1 a2 a3 a4).Canon := by
  induction a2 generalizing a0 a1 a3 a4 with
  | zero =>
    unfold State.smRun
    repeat'
      first
      | with_reducible assumption
      | with_reducible refine canon_ite ?_ ?_
      | with_reducible refine canon_smOutput _ _ _ _ ?_
      | with_reducible refine canon_smTime _ _ _ ?_
      | with_reducible refine canon_laneEnd _ _ _ _ ?_
      | with_reducible refine canon_smDrain _ _ _ ?_
      | with_reducible refine canon_laneSettle _ _ ?_
      | with_reducible refine canon_setLaneJob _ _ ?_
      | with_reducible refine canon_pair (by assumption) ?_
      | dsimp only
      | split
      | with_reducible refine canon_upd ?_ rfl rfl rfl rfl rfl rfl
  | succ n ih =>
    unfold State.smRun
    repeat'
      first
      | with_reducible assumption
      | with_reducible refine canon_ite ?_ ?_
      | with_reducible refine ih _ _ _ _ ?_
      | with_reducible refine canon_smOutput _ _ _ _ ?_
      | with_reducible refine canon_smTime _ _ _ ?_
      | with_reducible refine canon_laneEnd _ _ _ _ ?_
      | with_reducible refine canon_smDrain _ _ _ ?_
      | with_reducible refine canon_laneSettle _ _ ?_
      | with_reducible refine canon_setLaneJob _ _ ?_
      | with_reducible refine canon_pair (by assumption) ?_
      | dsimp only
      | split
      | with_reducible refine canon_upd ?_ rfl rfl rfl rfl rfl rfl

theorem canon_gpRead (a0 : State) (a1 : Nat) (a2 : Nat) (a3 : Nat) (a4 : Nat) (h : a0.Canon) :
    (State.gpRead a0 a1 a2 a3 a4).1.Canon := by
  unfold State.gpRead
  repeat'
    first
    | with_reducible assumption
    | with_reducible refine canon_ite ?_ ?_
    | with_reducible refine canon_jobUnpin _ _ ?_
    | with_reducible refine canon_pinGo _ _ ?_
    | with_reducible refine canon_jobPin _ _ _ _ ?_
    | with_reducible refine canon_readSpan _ _ _ _ _ ?_
    | with_reducible refine canon_pinStall _ _ ?_
    | with_reducible refine canon_foldl ?_ (fun _ _ _ => ?_)
    | with_reducible refine canon_foldl_fst ?_ (fun _ _ _ => ?_)
    | with_reducible refine canon_pair (by assumption) ?_
    | dsimp only
    | split
    | with_reducible refine canon_upd ?_ rfl rfl rfl rfl rfl rfl

theorem canon_gpEntries (a0 : State) (a1 : Nat) (a2 : Nat) (a3 : List Byte) (a4 : List (Nat × Option Nat)) (h : a0.Canon) :
    (State.gpEntries a0 a1 a2 a3 a4).1.Canon := by
  unfold State.gpEntries
  repeat'
    first
    | with_reducible assumption
    | with_reducible refine canon_ite ?_ ?_
    | with_reducible refine canon_gpRead _ _ _ _ _ ?_
    | with_reducible refine canon_foldl ?_ (fun _ _ _ => ?_)
    | with_reducible refine canon_foldl_fst ?_ (fun _ _ _ => ?_)
    | with_reducible refine canon_pair (by assumption) ?_
    | dsimp only
    | split
    | with_reducible refine canon_upd ?_ rfl rfl rfl rfl rfl rfl

theorem canon_gpDrain (a0 : State) (a1 : LaneJob) (a2 : List Byte) (a3 : List (Option Nat)) (h : a0.Canon) :
    (State.gpDrain a0 a1 a2 a3).1.Canon := by
  unfold State.gpDrain
  repeat'
    first
    | with_reducible assumption
    | with_reducible refine canon_ite ?_ ?_
    | with_reducible refine canon_drainTrio _ _ _ ?_
    | with_reducible refine canon_setRow _ _ _ ?_
    | with_reducible refine canon_foldl ?_ (fun _ _ _ => ?_)
    | with_reducible refine canon_foldl_fst ?_ (fun _ _ _ => ?_)
    | with_reducible refine canon_pair (by assumption) ?_
    | dsimp only
    | split
    | with_reducible refine canon_upd ?_ rfl rfl rfl rfl rfl rfl

theorem canon_gpBagDone (a0 : State) (a1 : LaneJob) (a2 : List Byte) (a3 : BagIn) (a4 : Nat) (h : a0.Canon) :
    (State.gpBagDone a0 a1 a2 a3 a4).1.Canon := by
  unfold State.gpBagDone
  repeat'
    first
    | with_reducible assumption
    | with_reducible refine canon_ite ?_ ?_
    | with_reducible refine canon_putResult _ _ _ _ _ _ _ _ _ ?_
    | with_reducible refine canon_gpDrain _ _ _ _ ?_
    | with_reducible refine canon_bump _ _ _ _ ?_
    | with_reducible refine canon_foldl ?_ (fun _ _ _ => ?_)
    | with_reducible refine canon_foldl_fst ?_ (fun _ _ _ => ?_)
    | with_reducible refine canon_pair (by assumption) ?_
    | dsimp only
    | split
    | with_reducible refine canon_upd ?_ rfl rfl rfl rfl rfl rfl

theorem canon_gpBag (a0 : State) (a1 : LaneJob) (a2 : List Byte) (h : a0.Canon) : (State.gpBag a0 a1 a2).1.Canon := by
  unfold State.gpBag
  repeat'
    first
    | with_reducible assumption
    | with_reducible refine canon_ite ?_ ?_
    | with_reducible refine canon_gpBagDone _ _ _ _ _ ?_
    | with_reducible refine canon_gpEntries _ _ _ _ _ ?_
    | with_reducible refine canon_gpRead _ _ _ _ _ ?_
    | with_reducible refine canon_pair (by assumption) ?_
    | dsimp only
    | split
    | with_reducible refine canon_upd ?_ rfl rfl rfl rfl rfl rfl

theorem canon_gpOffsets (a0 : State) (a1 : Nat) (a2 : Nat) (a3 : List Byte) (h : a0.Canon) :
    (State.gpOffsets a0 a1 a2 a3).1.Canon := by
  unfold State.gpOffsets
  repeat'
    first
    | with_reducible assumption
    | with_reducible refine canon_ite ?_ ?_
    | with_reducible refine canon_gpRead _ _ _ _ _ ?_
    | with_reducible refine canon_pair (by assumption) ?_
    | dsimp only
    | split
    | with_reducible refine canon_upd ?_ rfl rfl rfl rfl rfl rfl

theorem canon_gpTime (a0 : State) (a1 : LaneJob) (a2 : List Byte) (h : a0.Canon) : (State.gpTime a0 a1 a2).Canon := by
  unfold State.gpTime
  repeat'
    first
    | with_reducible assumption
    | with_reducible refine canon_ite ?_ ?_
    | with_reducible refine canon_laneTime _ _ _ _ _ _ ?_
    | dsimp only
    | split
    | with_reducible refine canon_upd ?_ rfl rfl rfl rfl rfl rfl

theorem canon_raTime (a0 : State) (a1 : LaneJob) (a2 : List Byte) (h : a0.Canon) : (State.raTime a0 a1 a2).Canon := by
  unfold State.raTime
  repeat'
    first
    | with_reducible assumption
    | with_reducible refine canon_ite ?_ ?_
    | with_reducible refine canon_laneTime _ _ _ _ _ _ ?_
    | dsimp only
    | split
    | with_reducible refine canon_upd ?_ rfl rfl rfl rfl rfl rfl

theorem canon_gpRun (a0 : List Byte) (a1 : Nat) (a2 : LaneJob) (a3 : State) (h : a3.Canon) :
    (State.gpRun a0 a1 a2 a3).Canon := by
  induction a1 generalizing a0 a2 a3 with
  | zero =>
    unfold State.gpRun
    repeat'
      first
      | with_reducible assumption
      | with_reducible refine canon_ite ?_ ?_
      | with_reducible refine canon_gpBag _ _ _ ?_
      | with_reducible refine canon_gpTime _ _ _ ?_
      | with_reducible refine canon_laneEnd _ _ _ _ ?_
      | with_reducible refine canon_laneSettle _ _ ?_
      | with_reducible refine canon_setLaneJob _ _ ?_
      | with_reducible refine canon_pair (by assumption) ?_
      | dsimp only
      | split
      | with_reducible refine canon_upd ?_ rfl rfl rfl rfl rfl rfl
  | succ n ih =>
    unfold State.gpRun
    repeat'
      first
      | with_reducible assumption
      | with_reducible refine canon_ite ?_ ?_
      | with_reducible refine ih _ _ _ ?_
      | with_reducible refine canon_gpBag _ _ _ ?_
      | with_reducible refine canon_gpTime _ _ _ ?_
      | with_reducible refine canon_laneEnd _ _ _ _ ?_
      | with_reducible refine canon_laneSettle _ _ ?_
      | with_reducible refine canon_setLaneJob _ _ ?_
      | with_reducible refine canon_pair (by assumption) ?_
      | dsimp only
      | split
      | with_reducible refine canon_upd ?_ rfl rfl rfl rfl rfl rfl

theorem canon_chainRows (a0 : State) (a1 : LaneJob) (h : a0.Canon) : (State.chainRows a0 a1).Canon := by
  unfold State.chainRows
  repeat'
    first
    | with_reducible assumption
    | with_reducible refine canon_ite ?_ ?_
    | with_reducible refine canon_onChains _ _ _ ?_
    | with_reducible refine canon_foldl ?_ (fun _ _ _ => ?_)
    | with_reducible refine canon_foldl_fst ?_ (fun _ _ _ => ?_)
    | with_reducible refine canon_pair (by assumption) ?_
    | dsimp only
    | split
    | with_reducible refine canon_upd ?_ rfl rfl rfl rfl rfl rfl

theorem canon_smGo (a0 : State) (a1 : LaneJob) (a2 : List Byte) (a3 : List LaneFault) (h : a0.Canon) :
    (State.smGo a0 a1 a2 a3).Canon := by
  unfold State.smGo
  repeat'
    first
    | with_reducible assumption
    | with_reducible refine canon_ite ?_ ?_
    | with_reducible refine canon_chainRows _ _ ?_
    | with_reducible refine canon_smBegin _ _ _ ?_
    | with_reducible refine canon_setLaneJob _ _ ?_
    | with_reducible refine canon_smRun _ _ _ _ _ ?_
    | with_reducible refine canon_pair (by assumption) ?_
    | dsimp only
    | split
    | with_reducible refine canon_upd ?_ rfl rfl rfl rfl rfl rfl

theorem canon_gpGo (a0 : State) (a1 : LaneJob) (a2 : List Byte) (h : a0.Canon) : (State.gpGo a0 a1 a2).Canon := by
  unfold State.gpGo
  repeat'
    first
    | with_reducible assumption
    | with_reducible refine canon_ite ?_ ?_
    | with_reducible refine canon_chainRows _ _ ?_
    | with_reducible refine canon_laneWaste _ _ ?_
    | with_reducible refine canon_laneEnd _ _ _ _ ?_
    | with_reducible refine canon_setLaneJob _ _ ?_
    | with_reducible refine canon_gpOffsets _ _ _ _ ?_
    | with_reducible refine canon_gpRun _ _ _ _ ?_
    | with_reducible refine canon_pair (by assumption) ?_
    | dsimp only
    | split
    | with_reducible refine canon_upd ?_ rfl rfl rfl rfl rfl rfl

theorem canon_laneRefetch (a0 : State) (a1 : Nat) (h : a0.Canon) : (State.laneRefetch a0 a1).Canon := by
  unfold State.laneRefetch
  repeat'
    first
    | with_reducible assumption
    | with_reducible refine canon_ite ?_ ?_
    | with_reducible refine canon_laneFetch _ _ ?_
    | dsimp only
    | split
    | with_reducible refine canon_upd ?_ rfl rfl rfl rfl rfl rfl

end Sys2Proof.Machine
end

