-- ==== Sys2Proof/Laws/Canon/Coll.lean ====
section
/-! SUPPORT. The operations of `Coll.lean` keep the canonical form of the state. -/

namespace Sys2Proof.Machine

open Sys2Proof

theorem canon_colMembers (a0 : State) (a1 : Nat) (a2 : Nat) (a3 : Nat) (h : a0.Canon) :
    (State.colMembers a0 a1 a2 a3).1.Canon := by
  unfold State.colMembers
  repeat'
    first
    | with_reducible assumption
    | with_reducible refine canon_ite ?_ ?_
    | with_reducible refine canon_readRange _ _ _ _ _ ?_
    | with_reducible refine canon_pair (by assumption) ?_
    | dsimp only
    | split
    | with_reducible refine canon_upd ?_ rfl rfl rfl rfl rfl rfl

theorem canon_colInstallOn (a0 : State) (a1 : Nat) (a2 : Option (List (Option Nat))) (h : a0.Canon) :
    (State.colInstallOn a0 a1 a2).Canon := by
  unfold State.colInstallOn
  repeat'
    first
    | with_reducible assumption
    | with_reducible refine canon_ite ?_ ?_
    | with_reducible refine canon_set1 _ _ _ ?_
    | with_reducible refine canon_fset _ _ _ _ ?_
    | dsimp only
    | split
    | with_reducible refine canon_upd ?_ rfl rfl rfl rfl rfl rfl

theorem canon_colInstall (a0 : State) (a1 : Nat) (h : a0.Canon) : (State.colInstall a0 a1).Canon := by
  unfold State.colInstall
  repeat'
    first
    | with_reducible assumption
    | with_reducible refine canon_ite ?_ ?_
    | with_reducible refine canon_colInstallOn _ _ _ ?_
    | with_reducible refine canon_colMembers _ _ _ _ ?_
    | with_reducible refine canon_pair (by assumption) ?_
    | dsimp only
    | split
    | with_reducible refine canon_upd ?_ rfl rfl rfl rfl rfl rfl

theorem canon_setFrag (a0 : State) (a1 : Nat) (a2 : Nat) (a3 : Option Frag) (h : a0.Canon) :
    (State.setFrag a0 a1 a2 a3).Canon := by
  unfold State.setFrag
  repeat'
    first
    | with_reducible assumption
    | with_reducible refine canon_ite ?_ ?_
    | with_reducible refine canon_fset _ _ _ _ ?_
    | dsimp only
    | split
    | with_reducible refine canon_upd ?_ rfl rfl rfl rfl rfl rfl

theorem canon_colSteps (a0 : State) (a1 : ColJob) (h : a0.Canon) : (State.colSteps a0 a1).Canon := by
  unfold State.colSteps
  repeat'
    first
    | with_reducible assumption
    | with_reducible refine canon_ite ?_ ?_
    | with_reducible refine canon_event _ _ _ _ ?_
    | dsimp only
    | split
    | with_reducible refine canon_upd ?_ rfl rfl rfl rfl rfl rfl

theorem canon_setColJob (a0 : State) (a1 : ColJob) (h : a0.Canon) : (State.setColJob a0 a1).Canon := by
  unfold State.setColJob
  repeat'
    first
    | with_reducible assumption
    | with_reducible refine canon_ite ?_ ?_
    | with_reducible refine canon_colSteps _ _ ?_
    | dsimp only
    | split
    | with_reducible refine canon_upd ?_ rfl rfl rfl rfl rfl rfl

theorem canon_colRecord (a0 : State) (a1 : ColJob) (a2 : Nat) (h : a0.Canon) : (State.colRecord a0 a1 a2).Canon := by
  unfold State.colRecord
  repeat'
    first
    | with_reducible assumption
    | with_reducible refine canon_ite ?_ ?_
    | with_reducible refine canon_wr _ _ _ _ ?_
    | with_reducible refine canon_qComplete _ _ _ _ _ _ _ _ _ ?_
    | with_reducible refine canon_qRecord _ _ _ _ _ ?_
    | dsimp only
    | split
    | with_reducible refine canon_upd ?_ rfl rfl rfl rfl rfl rfl

theorem canon_colPoison (a0 : State) (a1 : ColJob) (h : a0.Canon) : (State.colPoison a0 a1).1.Canon := by
  unfold State.colPoison
  repeat'
    first
    | with_reducible assumption
    | with_reducible refine canon_ite ?_ ?_
    | with_reducible refine canon_readRange _ _ _ _ _ ?_
    | with_reducible refine canon_pair (by assumption) ?_
    | dsimp only
    | split
    | with_reducible refine canon_upd ?_ rfl rfl rfl rfl rfl rfl

theorem canon_colClose (a0 : State) (a1 : ColJob) (a2 : Nat) (h : a0.Canon) : (State.colClose a0 a1 a2).Canon := by
  unfold State.colClose
  repeat'
    first
    | with_reducible assumption
    | with_reducible refine canon_ite ?_ ?_
    | with_reducible refine canon_colRecord _ _ _ ?_
    | with_reducible refine canon_setColJob _ _ ?_
    | with_reducible refine canon_colPoison _ _ ?_
    | with_reducible refine canon_pair (by assumption) ?_
    | dsimp only
    | split
    | with_reducible refine canon_upd ?_ rfl rfl rfl rfl rfl rfl

theorem canon_colEnd (a0 : State) (a1 : ColJob) (a2 : Nat) (h : a0.Canon) : (State.colEnd a0 a1 a2).Canon := by
  unfold State.colEnd
  repeat'
    first
    | with_reducible assumption
    | with_reducible refine canon_ite ?_ ?_
    | with_reducible refine canon_colClose _ _ _ ?_
    | with_reducible refine canon_setUpdPart _ _ _ ?_
    | with_reducible refine canon_setFrag _ _ _ _ ?_
    | with_reducible refine canon_setColJob _ _ ?_
    | with_reducible refine canon_foldl ?_ (fun _ _ _ => ?_)
    | with_reducible refine canon_foldl_fst ?_ (fun _ _ _ => ?_)
    | with_reducible refine canon_pair (by assumption) ?_
    | dsimp only
    | split
    | with_reducible refine canon_upd ?_ rfl rfl rfl rfl rfl rfl

theorem canon_colBytes (a0 : State) (a1 : ColJob) (a2 : ColWrite) (h : a0.Canon) : (State.colBytes a0 a1 a2).1.Canon := by
  unfold State.colBytes
  repeat'
    first
    | with_reducible assumption
    | with_reducible refine canon_ite ?_ ?_
    | with_reducible refine canon_readRange _ _ _ _ _ ?_
    | with_reducible refine canon_pair (by assumption) ?_
    | dsimp only
    | split
    | with_reducible refine canon_upd ?_ rfl rfl rfl rfl rfl rfl

theorem canon_colWrite (a0 : State) (a1 : ColJob) (a2 : ColWrite) (h : a0.Canon) : (State.colWrite a0 a1 a2).1.Canon := by
  unfold State.colWrite
  repeat'
    first
    | with_reducible assumption
    | with_reducible refine canon_ite ?_ ?_
    | with_reducible refine canon_poisonAt _ _ _ _ ?_
    | with_reducible refine canon_writeRange _ _ _ _ _ _ ?_
    | with_reducible refine canon_colBytes _ _ _ ?_
    | with_reducible refine canon_foldl ?_ (fun _ _ _ => ?_)
    | with_reducible refine canon_foldl_fst ?_ (fun _ _ _ => ?_)
    | with_reducible refine canon_pair (by assumption) ?_
    | dsimp only
    | split
    | with_reducible refine canon_upd ?_ rfl rfl rfl rfl rfl rfl

theorem canon_colFlush (a0 : ColJob) (a1 : List ColWrite) (a2 : State) (h : a2.Canon) : (State.colFlush a0 a1 a2).1.Canon := by
  induction a1 generalizing a0 a2 with
  | nil =>
    unfold State.colFlush
    repeat'
      first
      | with_reducible assumption
      | with_reducible refine canon_ite ?_ ?_
      | with_reducible refine canon_colWrite _ _ _ ?_
      | with_reducible refine canon_fset _ _ _ _ ?_
      | with_reducible refine canon_pair (by assumption) ?_
      | dsimp only
      | split
      | with_reducible refine canon_upd ?_ rfl rfl rfl rfl rfl rfl
  | cons y ys ih =>
    unfold State.colFlush
    repeat'
      first
      | with_reducible assumption
      | with_reducible refine canon_ite ?_ ?_
      | with_reducible refine ih _ _ ?_
      | with_reducible refine canon_colWrite _ _ _ ?_
      | with_reducible refine canon_fset _ _ _ _ ?_
      | with_reducible refine canon_pair (by assumption) ?_
      | dsimp only
      | split
      | with_reducible refine canon_upd ?_ rfl rfl rfl rfl rfl rfl

theorem canon_colPut (a0 : State) (a1 : ColJob) (a2 : ColWrite) (h : a0.Canon) : (State.colPut a0 a1 a2).1.Canon := by
  unfold State.colPut
  repeat'
    first
    | with_reducible assumption
    | with_reducible refine canon_ite ?_ ?_
    | with_reducible refine canon_colFlush _ _ _ ?_
    | with_reducible refine canon_pair (by assumption) ?_
    | dsimp only
    | split
    | with_reducible refine canon_upd ?_ rfl rfl rfl rfl rfl rfl

theorem canon_colSend (a0 : State) (a1 : ColJob) (a2 : Nat) (a3 : Nat) (a4 : Nat) (a5 : Nat) (a6 : List Byte) (a7 : Nat) (h : a0.Canon) :
    (State.colSend a0 a1 a2 a3 a4 a5 a6 a7).Canon := by
  unfold State.colSend
  repeat'
    first
    | with_reducible assumption
    | with_reducible refine canon_ite ?_ ?_
    | with_reducible refine canon_sendMsg _ _ _ _ _ _ ?_
    | dsimp only
    | split
    | with_reducible refine canon_upd ?_ rfl rfl rfl rfl rfl rfl

theorem canon_colSegments (a0 : State) (a1 : ColJob) (a2 : Nat) (a3 : Nat) (a4 : Nat) (a5 : Nat) (a6 : List (Option Byte)) (h : a0.Canon) :
    (State.colSegments a0 a1 a2 a3 a4 a5 a6).Canon := by
  unfold State.colSegments
  repeat'
    first
    | with_reducible assumption
    | with_reducible refine canon_ite ?_ ?_
    | with_reducible refine canon_colSend _ _ _ _ _ _ _ _ ?_
    | with_reducible refine canon_foldl ?_ (fun _ _ _ => ?_)
    | with_reducible refine canon_foldl_fst ?_ (fun _ _ _ => ?_)
    | with_reducible refine canon_pair (by assumption) ?_
    | dsimp only
    | split
    | with_reducible refine canon_upd ?_ rfl rfl rfl rfl rfl rfl

theorem canon_colRecv (a0 : State) (a1 : ColJob) (h : a0.Canon) : ∀ t, (State.colRecv a0 a1) = some t → t.1.Canon := by
  intro t ht
  unfold State.colRecv at ht
  dsimp only at ht
  repeat' split at ht
  all_goals cases ht
  repeat'
    first
    | with_reducible assumption
    | with_reducible refine canon_ite ?_ ?_
    | with_reducible refine canon_colSend _ _ _ _ _ _ _ _ ?_
    | with_reducible refine canon_setFrag _ _ _ _ ?_
    | with_reducible refine canon_bump _ _ _ _ ?_
    | dsimp only
    | split
    | with_reducible refine canon_upd ?_ rfl rfl rfl rfl rfl rfl

theorem canon_colSendStep (a0 : State) (a1 : ColJob) (h : a0.Canon) : (State.colSendStep a0 a1).1.Canon := by
  unfold State.colSendStep
  repeat'
    first
    | with_reducible assumption
    | with_reducible refine canon_ite ?_ ?_
    | with_reducible refine canon_colSegments _ _ _ _ _ _ _ ?_
    | with_reducible refine canon_readRange _ _ _ _ _ ?_
    | with_reducible refine canon_colSend _ _ _ _ _ _ _ _ ?_
    | with_reducible refine canon_foldl ?_ (fun _ _ _ => ?_)
    | with_reducible refine canon_foldl_fst ?_ (fun _ _ _ => ?_)
    | with_reducible refine canon_pair (by assumption) ?_
    | dsimp only
    | split
    | with_reducible refine canon_upd ?_ rfl rfl rfl rfl rfl rfl

theorem canon_colGo (a0 : Nat) (a1 : ColJob) (a2 : State) (h : a2.Canon) : (State.colGo a0 a1 a2).Canon := by
  induction a0 generalizing a1 a2 with
  | zero =>
    unfold State.colGo
    repeat'
      first
      | with_reducible assumption
      | with_reducible refine canon_ite ?_ ?_
      | with_reducible refine canon_colSteps _ _ ?_
      | with_reducible refine canon_colPoison _ _ ?_
      | with_reducible refine canon_some_pair (by assumption) (canon_colRecv _ _ ?_)
      | with_reducible refine canon_colSendStep _ _ ?_
      | with_reducible refine canon_colEnd _ _ _ ?_
      | with_reducible refine canon_colFlush _ _ _ ?_
      | with_reducible refine canon_setColJob _ _ ?_
      | with_reducible refine canon_pair (by assumption) ?_
      | dsimp only
      | split
      | with_reducible refine canon_upd ?_ rfl rfl rfl rfl rfl rfl
  | succ n ih =>
    unfold State.colGo
    repeat'
      first
      | with_reducible assumption
      | with_reducible refine canon_ite ?_ ?_
      | with_reducible refine ih _ _ ?_
      | with_reducible refine canon_colSteps _ _ ?_
      | with_reducible refine canon_colPoison _ _ ?_
      | with_reducible refine canon_some_pair (by assumption) (canon_colRecv _ _ ?_)
      | with_reducible refine canon_colSendStep _ _ ?_
      | with_reducible refine canon_colEnd _ _ _ ?_
      | with_reducible refine canon_colFlush _ _ _ ?_
      | with_reducible refine canon_setColJob _ _ ?_
      | with_reducible refine canon_pair (by assumption) ?_
      | dsimp only
      | split
      | with_reducible refine canon_upd ?_ rfl rfl rfl rfl rfl rfl

theorem canon_colAdvance (a0 : State) (h : a0.Canon) : (State.colAdvance a0).Canon := by
  unfold State.colAdvance
  repeat'
    first
    | with_reducible assumption
    | with_reducible refine canon_ite ?_ ?_
    | with_reducible refine canon_colGo _ _ _ ?_
    | with_reducible refine canon_colClose _ _ _ ?_
    | with_reducible refine canon_colInstall _ _ ?_
    | with_reducible refine canon_foldl ?_ (fun _ _ _ => ?_)
    | with_reducible refine canon_foldl_fst ?_ (fun _ _ _ => ?_)
    | with_reducible refine canon_pair (by assumption) ?_
    | dsimp only
    | split
    | with_reducible refine canon_upd ?_ rfl rfl rfl rfl rfl rfl

theorem canon_colStart (a0 : State) (a1 : Nat) (a2 : Nat) (a3 : List Byte) (a4 : List Byte) (h : a0.Canon) :
    (State.colStart a0 a1 a2 a3 a4).Canon := by
  unfold State.colStart
  repeat'
    first
    | with_reducible assumption
    | with_reducible refine canon_ite ?_ ?_
    | with_reducible refine canon_setColJob _ _ ?_
    | with_reducible refine canon_colPut _ _ _ ?_
    | with_reducible refine canon_readRange _ _ _ _ _ ?_
    | with_reducible refine canon_colAdvance _ ?_
    | with_reducible refine canon_colRecord _ _ _ ?_
    | with_reducible refine canon_logErr _ _ ?_
    | with_reducible refine canon_qTake _ _ _ ?_
    | with_reducible refine canon_colMembers _ _ _ _ ?_
    | with_reducible refine canon_pair (by assumption) ?_
    | dsimp only
    | split
    | with_reducible refine canon_upd ?_ rfl rfl rfl rfl rfl rfl

theorem canon_colTake (a0 : State) (a1 : Nat) (a2 : Nat) (a3 : List Byte) (h : a0.Canon) :
    (State.colTake a0 a1 a2 a3).Canon := by
  unfold State.colTake
  repeat'
    first
    | with_reducible assumption
    | with_reducible refine canon_ite ?_ ?_
    | with_reducible refine canon_colStart _ _ _ _ _ ?_
    | with_reducible refine canon_qTake _ _ _ ?_
    | with_reducible refine canon_qRefuse _ _ _ _ _ _ _ ?_
    | with_reducible refine canon_readRange _ _ _ _ _ ?_
    | with_reducible refine canon_pair (by assumption) ?_
    | dsimp only
    | split
    | with_reducible refine canon_upd ?_ rfl rfl rfl rfl rfl rfl

theorem canon_colOp (a0 : State) (a1 : Nat) (a2 : Nat) (h : a0.Canon) : (State.colOp a0 a1 a2).Canon := by
  unfold State.colOp
  repeat'
    first
    | with_reducible assumption
    | with_reducible refine canon_ite ?_ ?_
    | with_reducible refine canon_colTake _ _ _ _ ?_
    | with_reducible refine canon_qRun _ _ _ _ _ _ ?_ (fun _ _ _ _ => ?_)
    | with_reducible refine canon_colAdvance _ ?_
    | dsimp only
    | split
    | with_reducible refine canon_upd ?_ rfl rfl rfl rfl rfl rfl

theorem canon_colHead (a0 : State) (a1 : List Byte) (a2 : Nat) (h : a0.Canon) : (State.colHead a0 a1 a2).1.Canon := by
  unfold State.colHead
  repeat'
    first
    | with_reducible assumption
    | with_reducible refine canon_ite ?_ ?_
    | with_reducible refine canon_logErr _ _ ?_
    | dsimp only
    | split
    | with_reducible refine canon_upd ?_ rfl rfl rfl rfl rfl rfl

theorem canon_colStale (a0 : State) (h : a0.Canon) : (State.colStale a0).Canon := by
  unfold State.colStale
  repeat'
    first
    | with_reducible assumption
    | with_reducible refine canon_ite ?_ ?_
    | with_reducible refine canon_bump _ _ _ _ ?_
    | dsimp only
    | split
    | with_reducible refine canon_upd ?_ rfl rfl rfl rfl rfl rfl

theorem canon_colLand (a0 : State) (a1 : ColJob) (a2 : ColStep) (a3 : List Byte) (h : a0.Canon) :
    (State.colLand a0 a1 a2 a3).Canon := by
  unfold State.colLand
  repeat'
    first
    | with_reducible assumption
    | with_reducible refine canon_ite ?_ ?_
    | with_reducible refine canon_setColJob _ _ ?_
    | with_reducible refine canon_colAdvance _ ?_
    | with_reducible refine canon_colFlush _ _ _ ?_
    | with_reducible refine canon_colPut _ _ _ ?_
    | with_reducible refine canon_foldl ?_ (fun _ _ _ => ?_)
    | with_reducible refine canon_foldl_fst ?_ (fun _ _ _ => ?_)
    | with_reducible refine canon_pair (by assumption) ?_
    | dsimp only
    | split
    | with_reducible refine canon_upd ?_ rfl rfl rfl rfl rfl rfl

theorem canon_colSegment (a0 : State) (a1 : List Byte) (h : a0.Canon) : (State.colSegment a0 a1).Canon := by
  unfold State.colSegment
  repeat'
    first
    | with_reducible assumption
    | with_reducible refine canon_ite ?_ ?_
    | with_reducible refine canon_colLand _ _ _ _ ?_
    | with_reducible refine canon_colStale _ ?_
    | with_reducible refine canon_colHead _ _ _ ?_
    | with_reducible refine canon_pair (by assumption) ?_
    | dsimp only
    | split
    | with_reducible refine canon_upd ?_ rfl rfl rfl rfl rfl rfl

theorem canon_colReadyIn (a0 : State) (a1 : List Byte) (h : a0.Canon) : (State.colReadyIn a0 a1).Canon := by
  unfold State.colReadyIn
  repeat'
    first
    | with_reducible assumption
    | with_reducible refine canon_ite ?_ ?_
    | with_reducible refine canon_colAdvance _ ?_
    | with_reducible refine canon_colHead _ _ _ ?_
    | with_reducible refine canon_pair (by assumption) ?_
    | dsimp only
    | split
    | with_reducible refine canon_upd ?_ rfl rfl rfl rfl rfl rfl

theorem canon_colArrivalIn (a0 : State) (a1 : List Byte) (h : a0.Canon) : (State.colArrivalIn a0 a1).Canon := by
  unfold State.colArrivalIn
  repeat'
    first
    | with_reducible assumption
    | with_reducible refine canon_ite ?_ ?_
    | with_reducible refine canon_colAdvance _ ?_
    | with_reducible refine canon_colHead _ _ _ ?_
    | with_reducible refine canon_pair (by assumption) ?_
    | dsimp only
    | split
    | with_reducible refine canon_upd ?_ rfl rfl rfl rfl rfl rfl

theorem canon_colTimeout (a0 : State) (a1 : Nat) (h : a0.Canon) : (State.colTimeout a0 a1).Canon := by
  unfold State.colTimeout
  repeat'
    first
    | with_reducible assumption
    | with_reducible refine canon_ite ?_ ?_
    | with_reducible refine canon_irq _ _ _ ?_
    | with_reducible refine canon_colEnd _ _ _ ?_
    | with_reducible refine canon_bump _ _ _ _ ?_
    | with_reducible refine canon_logErr _ _ ?_
    | with_reducible refine canon_setFrag _ _ _ _ ?_
    | dsimp only
    | split
    | with_reducible refine canon_upd ?_ rfl rfl rfl rfl rfl rfl

end Sys2Proof.Machine
end

