-- ==== Sys2Proof/Laws/Canon/PageCmds.lean ====
section
/-! SUPPORT. The operations of `PageCmds.lean` keep the canonical form of the state. -/

namespace Sys2Proof.Machine

open Sys2Proof

theorem canon_pageMoveDone (a0 : State) (a1 : Nat) (a2 : Nat) (h : a0.Canon) : (State.pageMoveDone a0 a1 a2).Canon := by
  unfold State.pageMoveDone
  repeat'
    first
    | with_reducible assumption
    | with_reducible refine canon_ite ?_ ?_
    | with_reducible refine canon_finishMove _ _ ?_
    | with_reducible refine canon_sendMarks _ _ _ ?_
    | with_reducible refine canon_pair (by assumption) ?_
    | dsimp only
    | split
    | with_reducible refine canon_upd ?_ rfl rfl rfl rfl rfl rfl

theorem canon_agerPass (a0 : State) (h : a0.Canon) : (State.agerPass a0).Canon := by
  unfold State.agerPass
  repeat'
    first
    | with_reducible assumption
    | with_reducible refine canon_ite ?_ ?_
    | with_reducible refine canon_setPme _ _ _ _ ?_
    | with_reducible refine canon_foldl ?_ (fun _ _ _ => ?_)
    | with_reducible refine canon_foldl_fst ?_ (fun _ _ _ => ?_)
    | with_reducible refine canon_pair (by assumption) ?_
    | dsimp only
    | split
    | with_reducible refine canon_upd ?_ rfl rfl rfl rfl rfl rfl

theorem canon_mapPagesWrite (a0 : State) (a1 : Nat) (a2 : Nat) (h : a0.Canon) : (State.mapPagesWrite a0 a1 a2).Canon := by
  unfold State.mapPagesWrite
  repeat'
    first
    | with_reducible assumption
    | with_reducible refine canon_ite ?_ ?_
    | with_reducible refine canon_setFrame _ _ _ _ ?_
    | with_reducible refine canon_fillFrame _ _ _ ?_
    | with_reducible refine canon_set1 _ _ _ ?_
    | with_reducible refine canon_fset _ _ _ _ ?_
    | with_reducible refine canon_wordsOut _ _ ?_
    | with_reducible refine canon_releaseFrame _ _ _ ?_
    | with_reducible refine canon_foldl ?_ (fun _ _ _ => ?_)
    | with_reducible refine canon_foldl_fst ?_ (fun _ _ _ => ?_)
    | with_reducible refine canon_pair (by assumption) ?_
    | dsimp only
    | split
    | with_reducible refine canon_upd ?_ rfl rfl rfl rfl rfl rfl

theorem canon_pftCfgWrite (a0 : State) (a1 : Nat) (h : a0.Canon) : (State.pftCfgWrite a0 a1).Canon := by
  have h1 : (if a0.flag F.PFT_CFG_ENABLE = true then a0 else a0.fset F.PFT_CFG_LOG2 0 (clamp 4 17 (bits a1 0 5))).Canon :=
    canon_ite h (canon_fset _ _ _ _ h)
  have h2 := canon_fset _ F.PFT_CFG_ENABLE 0 (bits a1 8 1) h1
  unfold State.pftCfgWrite
  refine canon_ite (canon_fset _ _ _ _ (canon_secsWritten _ _ _ _ (canon_mirrorFill _ _ _ (canon_tower h2 ?_)))) h2
  refine (Mem.wf_iff _).2 ⟨?_, ((Mem.wf_iff _).1 h2.tower_mem).2⟩
  have hw := ((Mem.wf_iff _).1 h2.tower_mem).1
  simp only [spWf, Bool.and_eq_true] at hw ⊢
  refine ⟨risingFrom_filter _ _ ?_, ?_⟩
  · rw [risingFrom_map]
    · exact hw.1
    · exact fun p => cell_ite_fst rfl
  · rw [List.all_eq_true]
    intro x hx
    simpa using (List.mem_filter.1 hx).2

theorem canon_showLent (a0 : State) (h : a0.Canon) : (State.showLent a0).Canon := by
  unfold State.showLent
  repeat'
    first
    | with_reducible assumption
    | with_reducible refine canon_ite ?_ ?_
    | with_reducible refine canon_fset _ _ _ _ ?_
    | dsimp only
    | split
    | with_reducible refine canon_upd ?_ rfl rfl rfl rfl rfl rfl

theorem canon_loanIn (a0 : State) (a1 : Nat) (a2 : List Byte) (h : a0.Canon) : (State.loanIn a0 a1 a2).Canon := by
  unfold State.loanIn
  repeat'
    first
    | with_reducible assumption
    | with_reducible refine canon_ite ?_ ?_
    | with_reducible refine canon_showLent _ ?_
    | with_reducible refine canon_setFrame _ _ _ _ ?_
    | with_reducible refine canon_sendMsg _ _ _ _ _ _ ?_
    | dsimp only
    | split
    | with_reducible refine canon_upd ?_ rfl rfl rfl rfl rfl rfl

theorem canon_grantIn (a0 : State) (a1 : Nat) (a2 : List Byte) (h : a0.Canon) : (State.grantIn a0 a1 a2).Canon := by
  unfold State.grantIn
  repeat'
    first
    | with_reducible assumption
    | with_reducible refine canon_ite ?_ ?_
    | with_reducible refine canon_noSpace _ _ _ _ ?_
    | with_reducible refine canon_dropPage _ _ _ ?_
    | with_reducible refine canon_cancelMove _ _ _ ?_
    | with_reducible refine canon_setMove _ _ _ ?_
    | with_reducible refine canon_sendPieces _ _ _ _ ?_
    | with_reducible refine canon_fset _ _ _ _ ?_
    | with_reducible refine canon_sendMsg _ _ _ _ _ _ ?_
    | dsimp only
    | split
    | with_reducible refine canon_upd ?_ rfl rfl rfl rfl rfl rfl

theorem canon_endLoan (a0 : State) (a1 : Loan) (h : a0.Canon) : (State.endLoan a0 a1).Canon := by
  unfold State.endLoan
  repeat'
    first
    | with_reducible assumption
    | with_reducible refine canon_ite ?_ ?_
    | with_reducible refine canon_releaseFrame _ _ _ ?_
    | with_reducible refine canon_showLent _ ?_
    | dsimp only
    | split
    | with_reducible refine canon_upd ?_ rfl rfl rfl rfl rfl rfl

theorem canon_revoke (a0 : State) (a1 : Loan) (h : a0.Canon) : (State.revoke a0 a1).Canon := by
  unfold State.revoke
  repeat'
    first
    | with_reducible assumption
    | with_reducible refine canon_ite ?_ ?_
    | with_reducible refine canon_endLoan _ _ ?_
    | with_reducible refine canon_sendMsg _ _ _ _ _ _ ?_
    | dsimp only
    | split
    | with_reducible refine canon_upd ?_ rfl rfl rfl rfl rfl rfl

theorem canon_revokeIn (a0 : State) (a1 : Nat) (a2 : List Byte) (h : a0.Canon) : (State.revokeIn a0 a1 a2).Canon := by
  unfold State.revokeIn
  repeat'
    first
    | with_reducible assumption
    | with_reducible refine canon_ite ?_ ?_
    | with_reducible refine canon_dropPage _ _ _ ?_
    | with_reducible refine canon_setMove _ _ _ ?_
    | with_reducible refine canon_cancelMove _ _ _ ?_
    | with_reducible refine canon_fset _ _ _ _ ?_
    | with_reducible refine canon_loseLoan _ _ _ _ ?_
    | with_reducible refine canon_irq _ _ _ ?_
    | dsimp only
    | split
    | with_reducible refine canon_upd ?_ rfl rfl rfl rfl rfl rfl

theorem canon_revokeTo (a0 : Nat) (a1 : Nat) (a2 : State) (h : a2.Canon) : (State.revokeTo a0 a1 a2).Canon := by
  induction a1 generalizing a0 a2 with
  | zero =>
    unfold State.revokeTo
    repeat'
      first
      | with_reducible assumption
      | with_reducible refine canon_ite ?_ ?_
      | with_reducible refine canon_revoke _ _ ?_
      | dsimp only
      | split
      | with_reducible refine canon_upd ?_ rfl rfl rfl rfl rfl rfl
  | succ n ih =>
    unfold State.revokeTo
    repeat'
      first
      | with_reducible assumption
      | with_reducible refine canon_ite ?_ ?_
      | with_reducible refine ih _ _ ?_
      | with_reducible refine canon_revoke _ _ ?_
      | dsimp only
      | split
      | with_reducible refine canon_upd ?_ rfl rfl rfl rfl rfl rfl

theorem canon_lendPagesWrite (a0 : State) (a1 : Nat) (h : a0.Canon) : (State.lendPagesWrite a0 a1).Canon := by
  unfold State.lendPagesWrite
  repeat'
    first
    | with_reducible assumption
    | with_reducible refine canon_ite ?_ ?_
    | with_reducible refine canon_revokeTo _ _ _ ?_
    | with_reducible refine canon_fset _ _ _ _ ?_
    | dsimp only
    | split
    | with_reducible refine canon_upd ?_ rfl rfl rfl rfl rfl rfl

theorem canon_loseLender (a0 : State) (a1 : Nat) (a2 : Nat) (h : a0.Canon) : (State.loseLender a0 a1 a2).Canon := by
  unfold State.loseLender
  repeat'
    first
    | with_reducible assumption
    | with_reducible refine canon_ite ?_ ?_
    | with_reducible refine canon_dropPage _ _ _ ?_
    | with_reducible refine canon_cancelMove _ _ _ ?_
    | with_reducible refine canon_loseLoan _ _ _ _ ?_
    | with_reducible refine canon_foldl ?_ (fun _ _ _ => ?_)
    | with_reducible refine canon_foldl_fst ?_ (fun _ _ _ => ?_)
    | with_reducible refine canon_pair (by assumption) ?_
    | dsimp only
    | split
    | with_reducible refine canon_upd ?_ rfl rfl rfl rfl rfl rfl

theorem canon_borrowerWrite (a0 : State) (a1 : Nat) (a2 : Nat) (h : a0.Canon) : (State.borrowerWrite a0 a1 a2).Canon := by
  unfold State.borrowerWrite
  repeat'
    first
    | with_reducible assumption
    | with_reducible refine canon_ite ?_ ?_
    | with_reducible refine canon_revoke _ _ ?_
    | with_reducible refine canon_accWrite _ _ _ _ ?_
    | with_reducible refine canon_foldl ?_ (fun _ _ _ => ?_)
    | with_reducible refine canon_foldl_fst ?_ (fun _ _ _ => ?_)
    | with_reducible refine canon_pair (by assumption) ?_
    | dsimp only
    | split
    | with_reducible refine canon_upd ?_ rfl rfl rfl rfl rfl rfl

end Sys2Proof.Machine
end

