-- ==== Sys2Proof/Laws/Canon/PageQueue.lean ====
section
/-! SUPPORT. The operations of `PageQueue.lean` keep the canonical form of the state. -/

namespace Sys2Proof.Machine

open Sys2Proof

theorem canon_mapUnit (a0 : State) (a1 : Nat) (a2 : List Byte) (a3 : Nat) (h : a0.Canon) :
    (State.mapUnit a0 a1 a2 a3).1.Canon := by
  unfold State.mapUnit
  repeat'
    first
    | with_reducible assumption
    | with_reducible refine canon_ite ?_ ?_
    | with_reducible refine canon_setFrame _ _ _ _ ?_
    | with_reducible refine canon_fillFrame _ _ _ ?_
    | with_reducible refine canon_setPme _ _ _ _ ?_
    | with_reducible refine canon_pmeRead _ _ _ ?_
    | with_reducible refine canon_pair (by assumption) ?_
    | dsimp only
    | split
    | with_reducible refine canon_upd ?_ rfl rfl rfl rfl rfl rfl

theorem canon_losePageFrames (a0 : State) (a1 : Nat) (a2 : Nat) (h : a0.Canon) : (State.losePageFrames a0 a1 a2).Canon :=
  canon_upd h rfl rfl rfl rfl rfl rfl

theorem canon_unmapUnit (a0 : State) (a1 : Nat) (a2 : List Byte) (a3 : Nat) (h : a0.Canon) :
    (State.unmapUnit a0 a1 a2 a3).1.Canon := by
  unfold State.unmapUnit
  repeat'
    first
    | with_reducible assumption
    | with_reducible refine canon_ite ?_ ?_
    | with_reducible refine canon_setPme _ _ _ _ ?_
    | with_reducible refine canon_dropRef _ _ _ ?_
    | with_reducible refine canon_losePageFrames _ _ _ ?_
    | with_reducible refine canon_putPme _ _ _ _ ?_
    | with_reducible refine canon_pmeRead _ _ _ ?_
    | with_reducible refine canon_pair (by assumption) ?_
    | dsimp only
    | split
    | with_reducible refine canon_upd ?_ rfl rfl rfl rfl rfl rfl

theorem canon_moveUnit (a0 : State) (a1 : Nat) (a2 : List Byte) (a3 : Nat) (h : a0.Canon) :
    (State.moveUnit a0 a1 a2 a3).1.Canon := by
  unfold State.moveUnit
  repeat'
    first
    | with_reducible assumption
    | with_reducible refine canon_ite ?_ ?_
    | with_reducible refine canon_noSpace _ _ _ _ ?_
    | with_reducible refine canon_startMove _ _ _ _ _ _ ?_
    | with_reducible refine canon_pinGo _ _ ?_
    | with_reducible refine canon_pinStall _ _ ?_
    | with_reducible refine canon_pmeRead _ _ _ ?_
    | with_reducible refine canon_pair (by assumption) ?_
    | dsimp only
    | split
    | with_reducible refine canon_upd ?_ rfl rfl rfl rfl rfl rfl

theorem canon_reserveUnit (a0 : State) (a1 : Nat) (a2 : List Byte) (a3 : Nat) (h : a0.Canon) :
    (State.reserveUnit a0 a1 a2 a3).1.Canon := by
  unfold State.reserveUnit
  repeat'
    first
    | with_reducible assumption
    | with_reducible refine canon_ite ?_ ?_
    | with_reducible refine canon_fillFrame _ _ _ ?_
    | with_reducible refine canon_setFrame _ _ _ _ ?_
    | with_reducible refine canon_releaseFrame _ _ _ ?_
    | dsimp only
    | split
    | with_reducible refine canon_upd ?_ rfl rfl rfl rfl rfl rfl

theorem canon_seqAddUnit (a0 : State) (a1 : Nat) (a2 : List Byte) (a3 : Nat) (h : a0.Canon) :
    (State.seqAddUnit a0 a1 a2 a3).1.Canon := by
  unfold State.seqAddUnit
  repeat'
    first
    | with_reducible assumption
    | with_reducible refine canon_ite ?_ ?_
    | with_reducible refine canon_setPme _ _ _ _ ?_
    | with_reducible refine canon_seqSet _ _ _ _ _ _ ?_
    | with_reducible refine canon_kvReturn _ _ _ ?_
    | with_reducible refine canon_pmeRead _ _ _ ?_
    | with_reducible refine canon_kvTake _ _ ?_
    | with_reducible refine canon_seqLookup _ _ _ _ ?_
    | with_reducible refine canon_pair (by assumption) ?_
    | dsimp only
    | split
    | with_reducible refine canon_upd ?_ rfl rfl rfl rfl rfl rfl

theorem canon_seqShareUnit (a0 : State) (a1 : Nat) (a2 : List Byte) (a3 : Nat) (h : a0.Canon) :
    (State.seqShareUnit a0 a1 a2 a3).1.Canon := by
  unfold State.seqShareUnit
  repeat'
    first
    | with_reducible assumption
    | with_reducible refine canon_ite ?_ ?_
    | with_reducible refine canon_dropRef _ _ _ ?_
    | with_reducible refine canon_setPme _ _ _ _ ?_
    | with_reducible refine canon_seqSet _ _ _ _ _ _ ?_
    | with_reducible refine canon_seqLookup _ _ _ _ ?_
    | with_reducible refine canon_pmeRead _ _ _ ?_
    | with_reducible refine canon_pair (by assumption) ?_
    | dsimp only
    | split
    | with_reducible refine canon_upd ?_ rfl rfl rfl rfl rfl rfl

theorem canon_seqFreeUnit (a0 : State) (a1 : Nat) (a2 : List Byte) (a3 : Nat) (h : a0.Canon) :
    (State.seqFreeUnit a0 a1 a2 a3).1.Canon := by
  unfold State.seqFreeUnit
  repeat'
    first
    | with_reducible assumption
    | with_reducible refine canon_ite ?_ ?_
    | with_reducible refine canon_dropRef _ _ _ ?_
    | with_reducible refine canon_seqSet _ _ _ _ _ _ ?_
    | with_reducible refine canon_pmeRead _ _ _ ?_
    | with_reducible refine canon_seqLookup _ _ _ _ ?_
    | with_reducible refine canon_pair (by assumption) ?_
    | dsimp only
    | split
    | with_reducible refine canon_upd ?_ rfl rfl rfl rfl rfl rfl

theorem canon_cowUnit (a0 : State) (a1 : Nat) (a2 : List Byte) (a3 : Nat) (h : a0.Canon) :
    (State.cowUnit a0 a1 a2 a3).1.Canon := by
  unfold State.cowUnit
  repeat'
    first
    | with_reducible assumption
    | with_reducible refine canon_ite ?_ ?_
    | with_reducible refine canon_cowPage _ _ _ _ _ _ ?_
    | with_reducible refine canon_seqLookup _ _ _ _ ?_
    | with_reducible refine canon_pair (by assumption) ?_
    | dsimp only
    | split
    | with_reducible refine canon_upd ?_ rfl rfl rfl rfl rfl rfl

theorem canon_pftGet (a0 : State) (a1 : Nat) (h : a0.Canon) : (State.pftGet a0 a1).1.Canon := by
  unfold State.pftGet
  repeat'
    first
    | with_reducible assumption
    | with_reducible refine canon_ite ?_ ?_
    | with_reducible refine canon_readTier _ _ _ _ ?_
    | with_reducible refine canon_pair (by assumption) ?_
    | dsimp only
    | split
    | with_reducible refine canon_upd ?_ rfl rfl rfl rfl rfl rfl

theorem canon_pftClear (a0 : State) (a1 : Nat) (a2 : List Byte) (h : a0.Canon) : (State.pftClear a0 a1 a2).Canon := by
  unfold State.pftClear
  repeat'
    first
    | with_reducible assumption
    | with_reducible refine canon_ite ?_ ?_
    | with_reducible refine canon_fset _ _ _ _ ?_
    | with_reducible refine canon_towerPut _ _ _ ?_
    | dsimp only
    | split
    | with_reducible refine canon_upd ?_ rfl rfl rfl rfl rfl rfl

theorem canon_pftSlot (a0 : State) (a1 : Nat) (h : a0.Canon) : (State.pftSlot a0 a1).1.Canon := by
  unfold State.pftSlot
  refine canon_foldl_fst h (fun a e hs => ?_)
  cases a with
  | mk s o =>
    cases o with
    | some i => exact hs
    | none => exact canon_fst _ (canon_pftGet _ _ hs)

theorem canon_pftPlace (a0 : State) (a1 : Nat) (a2 : List Byte) (a3 : Option Nat) (h : a0.Canon) :
    (State.pftPlace a0 a1 a2 a3).1.Canon := by
  unfold State.pftPlace
  repeat'
    first
    | with_reducible assumption
    | with_reducible refine canon_ite ?_ ?_
    | with_reducible refine canon_towerPut _ _ _ ?_
    | with_reducible refine canon_bump _ _ _ _ ?_
    | dsimp only
    | split
    | with_reducible refine canon_upd ?_ rfl rfl rfl rfl rfl rfl

theorem canon_pftInsertUnit (a0 : State) (a1 : Nat) (a2 : List Byte) (h : a0.Canon) :
    (State.pftInsertUnit a0 a1 a2).1.Canon := by
  unfold State.pftInsertUnit
  repeat'
    first
    | with_reducible assumption
    | with_reducible refine canon_ite ?_ ?_
    | with_reducible refine canon_pftPlace _ _ _ _ ?_
    | with_reducible refine canon_pftSlot _ _ ?_
    | with_reducible refine canon_pair (by assumption) ?_
    | dsimp only
    | split
    | with_reducible refine canon_upd ?_ rfl rfl rfl rfl rfl rfl

theorem canon_pftDrop (a0 : State) (a1 : Nat) (a2 : List Byte) (a3 : List Byte) (h : a0.Canon) :
    (State.pftDrop a0 a1 a2 a3).1.Canon := by
  unfold State.pftDrop
  repeat'
    first
    | with_reducible assumption
    | with_reducible refine canon_ite ?_ ?_
    | with_reducible refine canon_pftClear _ _ _ ?_
    | dsimp only
    | split
    | with_reducible refine canon_upd ?_ rfl rfl rfl rfl rfl rfl

theorem canon_pftRemoveUnit (a0 : State) (a1 : Nat) (a2 : List Byte) (h : a0.Canon) :
    (State.pftRemoveUnit a0 a1 a2).1.Canon := by
  unfold State.pftRemoveUnit
  repeat'
    first
    | with_reducible assumption
    | with_reducible refine canon_ite ?_ ?_
    | with_reducible refine canon_pftDrop _ _ _ _ ?_
    | with_reducible refine canon_pftGet _ _ ?_
    | with_reducible refine canon_pair (by assumption) ?_
    | dsimp only
    | split
    | with_reducible refine canon_upd ?_ rfl rfl rfl rfl rfl rfl

theorem canon_pftCheck (a0 : State) (a1 : Nat) (a2 : Nat) (a3 : Nat) (a4 : List Byte) (a5 : List (Nat × List Byte)) (h : a0.Canon) :
    (State.pftCheck a0 a1 a2 a3 a4 a5).1.Canon := by
  unfold State.pftCheck
  repeat'
    first
    | with_reducible assumption
    | with_reducible refine canon_ite ?_ ?_
    | with_reducible refine canon_pftClear _ _ _ ?_
    | with_reducible refine canon_bump _ _ _ _ ?_
    | with_reducible refine canon_pmeRead _ _ _ ?_
    | with_reducible refine canon_pair (by assumption) ?_
    | dsimp only
    | split
    | with_reducible refine canon_upd ?_ rfl rfl rfl rfl rfl rfl

theorem canon_pftMatches (a0 : State) (a1 : Nat) (a2 : Nat) (h : a0.Canon) : (State.pftMatches a0 a1 a2).1.Canon :=
  canon_foldl_fst h (fun s e hs => canon_pftCheck (s.1.pftGet (8 * (a2 % a0.pftBuckets) + e)).1 _ _ _ _ _ (canon_pftGet _ _ hs))

theorem canon_pftPick (a0 : State) (a1 : Nat) (a2 : List (Nat × List Byte)) (h : a0.Canon) :
    (State.pftPick a0 a1 a2).1.Canon := by
  unfold State.pftPick
  repeat'
    first
    | with_reducible assumption
    | with_reducible refine canon_ite ?_ ?_
    | with_reducible refine canon_irq _ _ _ ?_
    | with_reducible refine canon_logErr _ _ ?_
    | with_reducible refine canon_bump _ _ _ _ ?_
    | with_reducible refine canon_wr _ _ _ _ ?_
    | dsimp only
    | split
    | with_reducible refine canon_upd ?_ rfl rfl rfl rfl rfl rfl

theorem canon_pftFind (a0 : State) (a1 : Nat) (a2 : Nat) (h : a0.Canon) : (State.pftFind a0 a1 a2).1.Canon := by
  unfold State.pftFind
  repeat'
    first
    | with_reducible assumption
    | with_reducible refine canon_ite ?_ ?_
    | with_reducible refine canon_pftPick _ _ _ ?_
    | with_reducible refine canon_pftMatches _ _ _ ?_
    | with_reducible refine canon_pair (by assumption) ?_
    | dsimp only
    | split
    | with_reducible refine canon_upd ?_ rfl rfl rfl rfl rfl rfl

theorem canon_keepFound (a0 : State) (a1 : Nat) (a2 : Option (List Byte × Bool)) (h : a0.Canon) :
    (State.keepFound a0 a1 a2).Canon := by
  unfold State.keepFound
  repeat'
    first
    | with_reducible assumption
    | with_reducible refine canon_ite ?_ ?_
    | dsimp only
    | split
    | with_reducible refine canon_upd ?_ rfl rfl rfl rfl rfl rfl

theorem canon_pftResult (a0 : State) (a1 : Nat) (a2 : List Byte) (a3 : Nat) (a4 : List Byte) (a5 : Bool) (h : a0.Canon) :
    (State.pftResult a0 a1 a2 a3 a4 a5).1.Canon := by
  unfold State.pftResult
  repeat'
    first
    | with_reducible assumption
    | with_reducible refine canon_ite ?_ ?_
    | with_reducible refine canon_keepFound _ _ _ ?_
    | with_reducible refine canon_writeRange _ _ _ _ _ _ ?_
    | with_reducible refine canon_pair (by assumption) ?_
    | dsimp only
    | split
    | with_reducible refine canon_upd ?_ rfl rfl rfl rfl rfl rfl

theorem canon_pftLookupUnit (a0 : State) (a1 : Nat) (a2 : List Byte) (a3 : Nat) (h : a0.Canon) :
    (State.pftLookupUnit a0 a1 a2 a3).1.Canon := by
  unfold State.pftLookupUnit
  repeat'
    first
    | with_reducible assumption
    | with_reducible refine canon_ite ?_ ?_
    | with_reducible refine canon_pftFind _ _ _ ?_
    | with_reducible refine canon_readRange _ _ _ _ _ ?_
    | with_reducible refine canon_pftResult _ _ _ _ _ _ ?_
    | with_reducible refine canon_pair (by assumption) ?_
    | dsimp only
    | split
    | with_reducible refine canon_upd ?_ rfl rfl rfl rfl rfl rfl

theorem canon_pageUnit (a0 : State) (a1 : Nat) (a2 : List Byte) (a3 : Nat) (h : a0.Canon) :
    (State.pageUnit a0 a1 a2 a3).1.Canon := by
  unfold State.pageUnit
  repeat'
    first
    | with_reducible assumption
    | with_reducible refine canon_ite ?_ ?_
    | with_reducible refine canon_pftRemoveUnit _ _ _ ?_
    | with_reducible refine canon_pftInsertUnit _ _ _ ?_
    | with_reducible refine canon_pftLookupUnit _ _ _ _ ?_
    | with_reducible refine canon_cowUnit _ _ _ _ ?_
    | with_reducible refine canon_seqFreeUnit _ _ _ _ ?_
    | with_reducible refine canon_seqShareUnit _ _ _ _ ?_
    | with_reducible refine canon_seqAddUnit _ _ _ _ ?_
    | with_reducible refine canon_reserveUnit _ _ _ _ ?_
    | with_reducible refine canon_moveUnit _ _ _ _ ?_
    | with_reducible refine canon_unmapUnit _ _ _ _ ?_
    | with_reducible refine canon_mapUnit _ _ _ _ ?_
    | with_reducible refine canon_pair (by assumption) ?_
    | dsimp only
    | split
    | with_reducible refine canon_upd ?_ rfl rfl rfl rfl rfl rfl

theorem canon_setJob (a0 : State) (a1 : Nat) (a2 : Option PageJob) (h : a0.Canon) : (State.setJob a0 a1 a2).Canon := by
  unfold State.setJob
  repeat'
    first
    | with_reducible assumption
    | with_reducible refine canon_ite ?_ ?_
    | dsimp only
    | split
    | with_reducible refine canon_upd ?_ rfl rfl rfl rfl rfl rfl

theorem canon_endJob (a0 : State) (a1 : PageJob) (a2 : Nat) (h : a0.Canon) : (State.endJob a0 a1 a2).Canon := by
  unfold State.endJob
  repeat'
    first
    | with_reducible assumption
    | with_reducible refine canon_ite ?_ ?_
    | with_reducible refine canon_setJob _ _ _ ?_
    | with_reducible refine canon_qComplete _ _ _ _ _ _ _ _ _ ?_
    | dsimp only
    | split
    | with_reducible refine canon_upd ?_ rfl rfl rfl rfl rfl rfl

theorem canon_runJob (a0 : Nat) (a1 : State) (a2 : Nat) (h : a1.Canon) : (State.runJob a0 a1 a2).Canon := by
  induction a0 generalizing a1 a2 with
  | zero =>
    unfold State.runJob
    repeat'
      first
      | with_reducible assumption
      | with_reducible refine canon_ite ?_ ?_
      | with_reducible refine canon_setJob _ _ _ ?_
      | with_reducible refine canon_pageUnit _ _ _ _ ?_
      | with_reducible refine canon_endJob _ _ _ ?_
      | with_reducible refine canon_pair (by assumption) ?_
      | dsimp only
      | split
      | with_reducible refine canon_upd ?_ rfl rfl rfl rfl rfl rfl
  | succ n ih =>
    unfold State.runJob
    repeat'
      first
      | with_reducible assumption
      | with_reducible refine canon_ite ?_ ?_
      | with_reducible refine ih _ _ ?_
      | with_reducible refine canon_setJob _ _ _ ?_
      | with_reducible refine canon_pageUnit _ _ _ _ ?_
      | with_reducible refine canon_endJob _ _ _ ?_
      | with_reducible refine canon_pair (by assumption) ?_
      | dsimp only
      | split
      | with_reducible refine canon_upd ?_ rfl rfl rfl rfl rfl rfl

theorem canon_runJobs (a0 : State) (h : a0.Canon) : (State.runJobs a0).Canon := by
  unfold State.runJobs
  repeat'
    first
    | with_reducible assumption
    | with_reducible refine canon_ite ?_ ?_
    | with_reducible refine canon_runJob _ _ _ ?_
    | with_reducible refine canon_foldl ?_ (fun _ _ _ => ?_)
    | with_reducible refine canon_foldl_fst ?_ (fun _ _ _ => ?_)
    | with_reducible refine canon_pair (by assumption) ?_
    | dsimp only
    | split
    | with_reducible refine canon_upd ?_ rfl rfl rfl rfl rfl rfl

theorem canon_pageOp (a0 : State) (a1 : Nat) (a2 : Nat) (h : a0.Canon) : (State.pageOp a0 a1 a2).Canon := by
  unfold State.pageOp
  repeat'
    first
    | with_reducible assumption
    | with_reducible refine canon_ite ?_ ?_
    | with_reducible refine canon_qRefuse _ _ _ _ _ _ _ ?_
    | with_reducible refine canon_setJob _ _ _ ?_
    | with_reducible refine canon_runJob _ _ _ ?_
    | with_reducible refine canon_qTake _ _ _ ?_
    | with_reducible refine canon_qRun _ _ _ _ _ _ ?_ (fun _ _ _ _ => ?_)
    | with_reducible refine canon_runJobs _ ?_
    | dsimp only
    | split
    | with_reducible refine canon_upd ?_ rfl rfl rfl rfl rfl rfl

end Sys2Proof.Machine
end

