-- ==== Sys2Proof/Laws/Canon/FabOut.lean ====
section
/-! SUPPORT. The operations of `FabOut.lean` keep the canonical form of the state. -/

namespace Sys2Proof.Machine

open Sys2Proof

theorem canon_pieceDone (a0 : State) (a1 : Nat) (a2 : Nat) (h : a0.Canon) : (State.pieceDone a0 a1 a2).Canon := by
  unfold State.pieceDone
  repeat'
    first
    | with_reducible assumption
    | with_reducible refine canon_ite ?_ ?_
    | with_reducible refine canon_setMove _ _ _ ?_
    | with_reducible refine canon_sendMarks _ _ _ ?_
    | dsimp only
    | split
    | with_reducible refine canon_upd ?_ rfl rfl rfl rfl rfl rfl

theorem canon_pieceIn (a0 : State) (a1 : Nat) (a2 : Nat) (a3 : Nat) (a4 : List Byte) (a5 : Bool) (h : a0.Canon) :
    (State.pieceIn a0 a1 a2 a3 a4 a5).Canon := by
  unfold State.pieceIn
  repeat'
    first
    | with_reducible assumption
    | with_reducible refine canon_ite ?_ ?_
    | with_reducible refine canon_pieceDone _ _ _ ?_
    | with_reducible refine canon_putPoison _ _ _ ?_
    | with_reducible refine canon_writeTier _ _ _ _ ?_
    | with_reducible refine canon_foldl ?_ (fun _ _ _ => ?_)
    | with_reducible refine canon_foldl_fst ?_ (fun _ _ _ => ?_)
    | with_reducible refine canon_pair (by assumption) ?_
    | dsimp only
    | split
    | with_reducible refine canon_upd ?_ rfl rfl rfl rfl rfl rfl

theorem canon_farUnpin (a0 : State) (a1 : Nat) (a2 : Nat) (h : a0.Canon) : (State.farUnpin a0 a1 a2).Canon := by
  unfold State.farUnpin
  repeat'
    first
    | with_reducible assumption
    | with_reducible refine canon_ite ?_ ?_
    | with_reducible refine canon_unpin _ _ _ ?_
    | dsimp only
    | split
    | with_reducible refine canon_upd ?_ rfl rfl rfl rfl rfl rfl

theorem canon_farPiece (a0 : State) (a1 : Nat) (a2 : Nat) (a3 : List (Option Byte)) (h : a0.Canon) :
    (State.farPiece a0 a1 a2 a3).Canon := by
  unfold State.farPiece
  repeat'
    first
    | with_reducible assumption
    | with_reducible refine canon_ite ?_ ?_
    | with_reducible refine canon_farUnpin _ _ _ ?_
    | with_reducible refine canon_retryStalled _ ?_
    | dsimp only
    | split
    | with_reducible refine canon_upd ?_ rfl rfl rfl rfl rfl rfl

theorem canon_farFail (a0 : State) (a1 : ReqUse) (h : a0.Canon) : (State.farFail a0 a1).Canon := by
  unfold State.farFail
  repeat'
    first
    | with_reducible assumption
    | with_reducible refine canon_ite ?_ ?_
    | with_reducible refine canon_farPiece _ _ _ _ ?_
    | with_reducible refine canon_refuseReq _ _ _ _ ?_
    | with_reducible refine canon_respondData _ _ _ ?_
    | with_reducible refine canon_hostReadDone _ _ _ _ _ ?_
    | with_reducible refine canon_unpin _ _ _ ?_
    | with_reducible refine canon_homeRead _ _ _ _ _ ?_
    | with_reducible refine canon_pair (by assumption) ?_
    | dsimp only
    | split
    | with_reducible refine canon_upd ?_ rfl rfl rfl rfl rfl rfl

theorem canon_useFail (a0 : State) (a1 : ReqUse) (a2 : Nat) (h : a0.Canon) : (State.useFail a0 a1 a2).Canon := by
  unfold State.useFail
  repeat'
    first
    | with_reducible assumption
    | with_reducible refine canon_ite ?_ ?_
    | with_reducible refine canon_farFail _ _ ?_
    | with_reducible refine canon_dropPage _ _ _ ?_
    | with_reducible refine canon_cancelMove _ _ _ ?_
    | with_reducible refine canon_loseLoan _ _ _ _ ?_
    | with_reducible refine canon_unitDone _ _ _ _ ?_
    | with_reducible refine canon_poisonLocal _ _ _ _ ?_
    | dsimp only
    | split
    | with_reducible refine canon_upd ?_ rfl rfl rfl rfl rfl rfl

theorem canon_useDone (a0 : State) (a1 : Txn) (a2 : Txn) (h : a0.Canon) : (State.useDone a0 a1 a2).Canon := by
  unfold State.useDone
  repeat'
    first
    | with_reducible assumption
    | with_reducible refine canon_ite ?_ ?_
    | with_reducible refine canon_farPiece _ _ _ _ ?_
    | with_reducible refine canon_respondData _ _ _ ?_
    | with_reducible refine canon_farFail _ _ ?_
    | with_reducible refine canon_hostReadDone _ _ _ _ _ ?_
    | with_reducible refine canon_unpin _ _ _ ?_
    | with_reducible refine canon_pieceDone _ _ _ ?_
    | with_reducible refine canon_useFail _ _ _ ?_
    | with_reducible refine canon_pieceIn _ _ _ _ _ _ ?_
    | with_reducible refine canon_poisonLocal _ _ _ _ ?_
    | with_reducible refine canon_access _ _ ?_
    | with_reducible refine canon_unitDone _ _ _ _ ?_
    | dsimp only
    | split
    | with_reducible refine canon_upd ?_ rfl rfl rfl rfl rfl rfl

theorem canon_responseIn (a0 : State) (a1 : Txn) (h : a0.Canon) : (State.responseIn a0 a1).Canon := by
  unfold State.responseIn
  repeat'
    first
    | with_reducible assumption
    | with_reducible refine canon_ite ?_ ?_
    | with_reducible refine canon_bump _ _ _ _ ?_
    | with_reducible refine canon_useDone _ _ _ ?_
    | with_reducible refine canon_runJobs _ ?_
    | with_reducible refine canon_flushAll _ ?_
    | with_reducible refine canon_colAdvance _ ?_
    | dsimp only
    | split
    | with_reducible refine canon_upd ?_ rfl rfl rfl rfl rfl rfl

theorem canon_countHeld (a0 : State) (h : a0.Canon) : (State.countHeld a0).Canon := by
  unfold State.countHeld
  repeat'
    first
    | with_reducible assumption
    | with_reducible refine canon_ite ?_ ?_
    | with_reducible refine canon_bump _ _ _ _ ?_
    | with_reducible refine canon_foldl ?_ (fun _ _ _ => ?_)
    | with_reducible refine canon_foldl_fst ?_ (fun _ _ _ => ?_)
    | with_reducible refine canon_pair (by assumption) ?_
    | dsimp only
    | split
    | with_reducible refine canon_upd ?_ rfl rfl rfl rfl rfl rfl

theorem canon_sendFlit (a0 : State) (a1 : Going) (a2 : Bool) (h : a0.Canon) : (State.sendFlit a0 a1 a2).Canon := by
  unfold State.sendFlit
  repeat'
    first
    | with_reducible assumption
    | with_reducible refine canon_ite ?_ ?_
    | with_reducible refine canon_countFlits _ _ _ _ ?_
    | dsimp only
    | split
    | with_reducible refine canon_upd ?_ rfl rfl rfl rfl rfl rfl

theorem canon_sendTxn (a0 : State) (a1 : Nat) (a2 : Nat) (h : a0.Canon) : (State.sendTxn a0 a1 a2).Canon := by
  unfold State.sendTxn
  repeat'
    first
    | with_reducible assumption
    | with_reducible refine canon_ite ?_ ?_
    | with_reducible refine canon_sendFlit _ _ _ ?_
    | dsimp only
    | split
    | with_reducible refine canon_upd ?_ rfl rfl rfl rfl rfl rfl

theorem canon_sendOn (a0 : State) (a1 : Nat) (a2 : Nat) (h : a0.Canon) : (State.sendOn a0 a1 a2).Canon := by
  unfold State.sendOn
  repeat'
    first
    | with_reducible assumption
    | with_reducible refine canon_ite ?_ ?_
    | with_reducible refine canon_sendTxn _ _ _ ?_
    | with_reducible refine canon_sendFlit _ _ _ ?_
    | dsimp only
    | split
    | with_reducible refine canon_upd ?_ rfl rfl rfl rfl rfl rfl

theorem canon_dropOutOfStage (a0 : State) (h : a0.Canon) : (State.dropOutOfStage a0).Canon := by
  unfold State.dropOutOfStage
  repeat'
    first
    | with_reducible assumption
    | with_reducible refine canon_ite ?_ ?_
    | with_reducible refine canon_useFail _ _ _ ?_
    | with_reducible refine canon_runJobs _ ?_
    | with_reducible refine canon_flushAll _ ?_
    | with_reducible refine canon_colAdvance _ ?_
    | with_reducible refine canon_foldl ?_ (fun _ _ _ => ?_)
    | with_reducible refine canon_foldl_fst ?_ (fun _ _ _ => ?_)
    | with_reducible refine canon_pair (by assumption) ?_
    | dsimp only
    | split
    | with_reducible refine canon_upd ?_ rfl rfl rfl rfl rfl rfl

theorem canon_stepGen (a0 : State) (a1 : Nat) (h : a0.Canon) : (State.stepGen a0 a1).Canon := by
  unfold State.stepGen
  repeat'
    first
    | with_reducible assumption
    | with_reducible refine canon_ite ?_ ?_
    | with_reducible refine canon_fset _ _ _ _ ?_
    | dsimp only
    | split
    | with_reducible refine canon_upd ?_ rfl rfl rfl rfl rfl rfl

theorem canon_endEntry (a0 : State) (a1 : Nat) (a2 : Nat) (h : a0.Canon) : (State.endEntry a0 a1 a2).Canon := by
  unfold State.endEntry
  repeat'
    first
    | with_reducible assumption
    | with_reducible refine canon_ite ?_ ?_
    | with_reducible refine canon_useFail _ _ _ ?_
    | with_reducible refine canon_runJobs _ ?_
    | with_reducible refine canon_flushAll _ ?_
    | with_reducible refine canon_colAdvance _ ?_
    | with_reducible refine canon_unitDone _ _ _ _ ?_
    | with_reducible refine canon_foldl ?_ (fun _ _ _ => ?_)
    | with_reducible refine canon_foldl_fst ?_ (fun _ _ _ => ?_)
    | with_reducible refine canon_pair (by assumption) ?_
    | dsimp only
    | split
    | with_reducible refine canon_upd ?_ rfl rfl rfl rfl rfl rfl

theorem canon_lenderLost (a0 : State) (a1 : Nat) (h : a0.Canon) : (State.lenderLost a0 a1).Canon := by
  unfold State.lenderLost
  repeat'
    first
    | with_reducible assumption
    | with_reducible refine canon_ite ?_ ?_
    | with_reducible refine canon_loseLender _ _ _ ?_
    | with_reducible refine canon_set1 _ _ _ ?_
    | with_reducible refine canon_logErr _ _ ?_
    | with_reducible refine canon_irq _ _ _ ?_
    | dsimp only
    | split
    | with_reducible refine canon_upd ?_ rfl rfl rfl rfl rfl rfl

theorem canon_msTimeout (a0 : State) (a1 : Nat) (a2 : Nat) (h : a0.Canon) : (State.msTimeout a0 a1 a2).Canon := by
  unfold State.msTimeout
  repeat'
    first
    | with_reducible assumption
    | with_reducible refine canon_ite ?_ ?_
    | with_reducible refine canon_useFail _ _ _ ?_
    | with_reducible refine canon_runJobs _ ?_
    | with_reducible refine canon_flushAll _ ?_
    | with_reducible refine canon_colAdvance _ ?_
    | with_reducible refine canon_lenderLost _ _ ?_
    | with_reducible refine canon_irq _ _ _ ?_
    | with_reducible refine canon_bump _ _ _ _ ?_
    | with_reducible refine canon_event _ _ _ _ ?_
    | with_reducible refine canon_logErr _ _ ?_
    | dsimp only
    | split
    | with_reducible refine canon_upd ?_ rfl rfl rfl rfl rfl rfl

theorem canon_partnerChanged (a0 : State) (a1 : Nat) (a2 : Nat) (a3 : Bool) (h : a0.Canon) :
    (State.partnerChanged a0 a1 a2 a3).Canon := by
  unfold State.partnerChanged
  repeat'
    first
    | with_reducible assumption
    | with_reducible refine canon_ite ?_ ?_
    | with_reducible refine canon_stepGen _ _ ?_
    | with_reducible refine canon_endEntry _ _ _ ?_
    | dsimp only
    | split
    | with_reducible refine canon_upd ?_ rfl rfl rfl rfl rfl rfl

theorem canon_partnerWrite (a0 : State) (a1 : Nat) (a2 : Nat) (h : a0.Canon) : (State.partnerWrite a0 a1 a2).Canon := by
  unfold State.partnerWrite
  repeat'
    first
    | with_reducible assumption
    | with_reducible refine canon_ite ?_ ?_
    | with_reducible refine canon_accWrite _ _ _ _ ?_
    | with_reducible refine canon_partnerChanged _ _ _ _ ?_
    | dsimp only
    | split
    | with_reducible refine canon_upd ?_ rfl rfl rfl rfl rfl rfl

theorem canon_lenderWrite (a0 : State) (a1 : Nat) (a2 : Nat) (h : a0.Canon) : (State.lenderWrite a0 a1 a2).Canon := by
  unfold State.lenderWrite
  repeat'
    first
    | with_reducible assumption
    | with_reducible refine canon_ite ?_ ?_
    | with_reducible refine canon_partnerChanged _ _ _ _ ?_
    | with_reducible refine canon_loseLender _ _ _ ?_
    | with_reducible refine canon_fset _ _ _ _ ?_
    | with_reducible refine canon_accWrite _ _ _ _ ?_
    | dsimp only
    | split
    | with_reducible refine canon_upd ?_ rfl rfl rfl rfl rfl rfl

theorem canon_regionWrite (a0 : State) (a1 : Path) (a2 : Nat) (a3 : Nat) (h : a0.Canon) :
    (State.regionWrite a0 a1 a2 a3).Canon := by
  unfold State.regionWrite
  repeat'
    first
    | with_reducible assumption
    | with_reducible refine canon_ite ?_ ?_
    | with_reducible refine canon_set1 _ _ _ ?_
    | with_reducible refine canon_pathWrite _ _ _ _ ?_
    | dsimp only
    | split
    | with_reducible refine canon_upd ?_ rfl rfl rfl rfl rfl rfl

theorem canon_fvcBufWrite (a0 : State) (a1 : Nat) (a2 : Nat) (h : a0.Canon) : (State.fvcBufWrite a0 a1 a2).Canon := by
  unfold State.fvcBufWrite
  repeat'
    first
    | with_reducible assumption
    | with_reducible refine canon_ite ?_ ?_
    | with_reducible refine canon_accWrite _ _ _ _ ?_
    | with_reducible refine canon_set1 _ _ _ ?_
    | with_reducible refine canon_foldl ?_ (fun _ _ _ => ?_)
    | with_reducible refine canon_foldl_fst ?_ (fun _ _ _ => ?_)
    | with_reducible refine canon_pair (by assumption) ?_
    | dsimp only
    | split
    | with_reducible refine canon_upd ?_ rfl rfl rfl rfl rfl rfl

end Sys2Proof.Machine
end

