-- ==== Sys2Proof/Laws/Canon/UpdCmds.lean ====
section
/-! SUPPORT. The operations of `UpdCmds.lean` keep the canonical form of the state. -/

namespace Sys2Proof.Machine

open Sys2Proof

theorem canon_layerCmd (a0 : State) (a1 : Nat) (h : a0.Canon) : (State.layerCmd a0 a1).Canon := by
  unfold State.layerCmd
  repeat'
    first
    | with_reducible assumption
    | with_reducible refine canon_ite ?_ ?_
    | with_reducible refine canon_updRun _ _ _ ?_
    | dsimp only
    | split
    | with_reducible refine canon_upd ?_ rfl rfl rfl rfl rfl rfl

theorem canon_updSlots (a0 : State) (a1 : Nat) (a2 : Nat) (h : a0.Canon) : (State.updSlots a0 a1 a2).Canon := by
  unfold State.updSlots
  repeat'
    first
    | with_reducible assumption
    | with_reducible refine canon_ite ?_ ?_
    | with_reducible refine canon_updRun _ _ _ ?_
    | dsimp only
    | split
    | with_reducible refine canon_upd ?_ rfl rfl rfl rfl rfl rfl

theorem canon_passEndCmd (a0 : State) (a1 : Nat) (h : a0.Canon) : (State.passEndCmd a0 a1).Canon := by
  unfold State.passEndCmd
  repeat'
    first
    | with_reducible assumption
    | with_reducible refine canon_ite ?_ ?_
    | with_reducible refine canon_updRun _ _ _ ?_
    | dsimp only
    | split
    | with_reducible refine canon_upd ?_ rfl rfl rfl rfl rfl rfl

theorem canon_progCmd (a0 : State) (a1 : Nat) (a2 : Nat) (h : a0.Canon) : (State.progCmd a0 a1 a2).Canon := by
  unfold State.progCmd
  repeat'
    first
    | with_reducible assumption
    | with_reducible refine canon_ite ?_ ?_
    | with_reducible refine canon_updRun _ _ _ ?_
    | dsimp only
    | split
    | with_reducible refine canon_upd ?_ rfl rfl rfl rfl rfl rfl

theorem canon_opStep (a0 : State) (a1 : Nat) (a2 : Fin 32) (a3 : Fin 32) (a4 : Fin 32) (a5 : Fin 32) (h : a0.Canon) :
    (State.opStep a0 a1 a2 a3 a4 a5).Canon := by
  unfold State.opStep
  repeat'
    first
    | with_reducible assumption
    | with_reducible refine canon_ite ?_ ?_
    | dsimp only
    | split
    | with_reducible refine canon_upd ?_ rfl rfl rfl rfl rfl rfl

theorem canon_progLoad (a0 : State) (a1 : Nat) (h : a0.Canon) : (State.progLoad a0 a1).Canon := by
  unfold State.progLoad
  repeat'
    first
    | with_reducible assumption
    | with_reducible refine canon_ite ?_ ?_
    | with_reducible refine canon_fset _ _ _ _ ?_
    | dsimp only
    | split
    | with_reducible refine canon_upd ?_ rfl rfl rfl rfl rfl rfl

theorem canon_flipWrite (a0 : State) (a1 : Nat) (a2 : Nat) (h : a0.Canon) : (State.flipWrite a0 a1 a2).Canon := by
  unfold State.flipWrite
  repeat'
    first
    | with_reducible assumption
    | with_reducible refine canon_ite ?_ ?_
    | with_reducible refine canon_setUpdPart _ _ _ ?_
    | with_reducible refine canon_set1 _ _ _ ?_
    | with_reducible refine canon_irq _ _ _ ?_
    | with_reducible refine canon_fset _ _ _ _ ?_
    | dsimp only
    | split
    | with_reducible refine canon_upd ?_ rfl rfl rfl rfl rfl rfl

theorem canon_tlmZero (a0 : State) (a1 : Nat) (h : a0.Canon) : (State.tlmZero a0 a1).Canon := by
  unfold State.tlmZero
  repeat'
    first
    | with_reducible assumption
    | with_reducible refine canon_ite ?_ ?_
    | with_reducible refine canon_setTlm _ _ _ ?_
    | dsimp only
    | split
    | with_reducible refine canon_upd ?_ rfl rfl rfl rfl rfl rfl

theorem canon_tlmClear (a0 : State) (a1 : Nat) (h : a0.Canon) : (State.tlmClear a0 a1).Canon := by
  unfold State.tlmClear
  repeat'
    first
    | with_reducible assumption
    | with_reducible refine canon_ite ?_ ?_
    | with_reducible refine canon_tlmZero _ _ ?_
    | with_reducible refine canon_foldl ?_ (fun _ _ _ => ?_)
    | with_reducible refine canon_foldl_fst ?_ (fun _ _ _ => ?_)
    | with_reducible refine canon_pair (by assumption) ?_
    | dsimp only
    | split
    | with_reducible refine canon_upd ?_ rfl rfl rfl rfl rfl rfl

theorem canon_tlmReadSel (a0 : State) (a1 : Path) (a2 : Nat) (h : a0.Canon) : (State.tlmReadSel a0 a1 a2).Canon := by
  unfold State.tlmReadSel
  repeat'
    first
    | with_reducible assumption
    | with_reducible refine canon_ite ?_ ?_
    | with_reducible refine canon_wr _ _ _ _ ?_
    | with_reducible refine canon_foldl ?_ (fun _ _ _ => ?_)
    | with_reducible refine canon_foldl_fst ?_ (fun _ _ _ => ?_)
    | with_reducible refine canon_pair (by assumption) ?_
    | dsimp only
    | split
    | with_reducible refine canon_upd ?_ rfl rfl rfl rfl rfl rfl

theorem canon_noiseEnd (a0 : State) (a1 : Nat) (h : a0.Canon) : (State.noiseEnd a0 a1).Canon := by
  unfold State.noiseEnd
  repeat'
    first
    | with_reducible assumption
    | with_reducible refine canon_ite ?_ ?_
    | with_reducible refine canon_set0 _ _ _ ?_
    | with_reducible refine canon_set1 _ _ _ ?_
    | with_reducible refine canon_fset _ _ _ _ ?_
    | with_reducible refine canon_irq _ _ _ ?_
    | dsimp only
    | split
    | with_reducible refine canon_upd ?_ rfl rfl rfl rfl rfl rfl

theorem canon_noiseGo (a0 : State) (h : a0.Canon) : (State.noiseGo a0).Canon := by
  unfold State.noiseGo
  repeat'
    first
    | with_reducible assumption
    | with_reducible refine canon_ite ?_ ?_
    | with_reducible refine canon_set1 _ _ _ ?_
    | with_reducible refine canon_fset _ _ _ _ ?_
    | with_reducible refine canon_irq _ _ _ ?_
    | dsimp only
    | split
    | with_reducible refine canon_upd ?_ rfl rfl rfl rfl rfl rfl

theorem canon_noiseFill (a0 : Nat) (a1 : Nat) (a2 : Noise) (a3 : State) (h : a3.Canon) :
    (State.noiseFill a0 a1 a2 a3).1.Canon := by
  induction a1 generalizing a0 a2 a3 with
  | zero =>
    unfold State.noiseFill
    repeat'
      first
      | with_reducible assumption
      | with_reducible refine canon_ite ?_ ?_
      | with_reducible refine canon_writeRange _ _ _ _ _ _ ?_
      | with_reducible refine canon_pair (by assumption) ?_
      | dsimp only
      | split
      | with_reducible refine canon_upd ?_ rfl rfl rfl rfl rfl rfl
  | succ n ih =>
    unfold State.noiseFill
    repeat'
      first
      | with_reducible assumption
      | with_reducible refine canon_ite ?_ ?_
      | with_reducible refine ih _ _ _ ?_
      | with_reducible refine canon_writeRange _ _ _ _ _ _ ?_
      | with_reducible refine canon_pair (by assumption) ?_
      | dsimp only
      | split
      | with_reducible refine canon_upd ?_ rfl rfl rfl rfl rfl rfl

theorem canon_noiseTo (a0 : State) (a1 : Noise) (a2 : Nat) (a3 : Nat) (h : a0.Canon) : (State.noiseTo a0 a1 a2 a3).Canon := by
  unfold State.noiseTo
  repeat'
    first
    | with_reducible assumption
    | with_reducible refine canon_ite ?_ ?_
    | with_reducible refine canon_noiseEnd _ _ ?_
    | with_reducible refine canon_noiseFill _ _ _ _ ?_
    | with_reducible refine canon_pair (by assumption) ?_
    | dsimp only
    | split
    | with_reducible refine canon_upd ?_ rfl rfl rfl rfl rfl rfl

end Sys2Proof.Machine
end

