-- ==== Sys2Proof/Laws/Canon/Parts.lean ====
section
/-! SUPPORT. The operations of `Parts.lean` keep the canonical form of the state. -/

namespace Sys2Proof.Machine

open Sys2Proof

theorem canon_clearSeat (a0 : State) (a1 : Nat) (h : a0.Canon) : (State.clearSeat a0 a1).Canon := by
  have h1 : ((a0.partRows a1).foldl (fun s r => s.setRow r LaneRow.idle) a0).Canon :=
    canon_foldl h (fun _ _ hs => canon_setRow _ _ _ hs)
  unfold State.clearSeat
  dsimp only
  exact canon_t0 h1 (Mem.wf_zero _ _ _ (Mem.wf_zero _ _ _ h1.t0_wf))

theorem canon_setPart (a0 : State) (a1 : Nat) (a2 : Nat) (h : a0.Canon) : (State.setPart a0 a1 a2).Canon := by
  unfold State.setPart
  repeat'
    first
    | with_reducible assumption
    | with_reducible refine canon_ite ?_ ?_
    | with_reducible refine canon_fset _ _ _ _ ?_
    | dsimp only
    | split
    | with_reducible refine canon_upd ?_ rfl rfl rfl rfl rfl rfl

theorem canon_ptcResult (a0 : State) (a1 : Nat) (a2 : Nat) (h : a0.Canon) : (State.ptcResult a0 a1 a2).Canon := by
  unfold State.ptcResult
  repeat'
    first
    | with_reducible assumption
    | with_reducible refine canon_ite ?_ ?_
    | with_reducible refine canon_irq _ _ _ ?_
    | with_reducible refine canon_fset _ _ _ _ ?_
    | dsimp only
    | split
    | with_reducible refine canon_upd ?_ rfl rfl rfl rfl rfl rfl

theorem canon_topDownZero (a0 : State) (a1 : Nat) (h : a0.Canon) : (State.topDownZero a0 a1).Canon := by
  unfold State.topDownZero
  repeat'
    first
    | with_reducible assumption
    | with_reducible refine canon_ite ?_ ?_
    | dsimp only
    | split
    | with_reducible refine canon_upd ?_ rfl rfl rfl rfl rfl rfl

theorem canon_createPart (a0 : State) (a1 : Nat) (h : a0.Canon) : (State.createPart a0 a1).Canon := by
  unfold State.createPart
  repeat'
    first
    | with_reducible assumption
    | with_reducible refine canon_ite ?_ ?_
    | with_reducible refine canon_clearSeat _ _ ?_
    | with_reducible refine canon_setPart _ _ _ ?_
    | with_reducible refine canon_bump _ _ _ _ ?_
    | with_reducible refine canon_topDownZero _ _ ?_
    | with_reducible refine canon_ptcResult _ _ _ ?_
    | dsimp only
    | split
    | with_reducible refine canon_upd ?_ rfl rfl rfl rfl rfl rfl

theorem canon_putImage (a0 : State) (a1 : Nat) (a2 : List (Option Byte)) (h : a0.Canon) : (State.putImage a0 a1 a2).Canon := by
  unfold State.putImage
  repeat'
    first
    | with_reducible assumption
    | with_reducible refine canon_ite ?_ ?_
    | with_reducible refine canon_writeTier _ _ _ _ ?_
    | with_reducible refine canon_putPoison _ _ _ ?_
    | with_reducible refine canon_foldl ?_ (fun _ _ _ => ?_)
    | with_reducible refine canon_foldl_fst ?_ (fun _ _ _ => ?_)
    | with_reducible refine canon_pair (by assumption) ?_
    | dsimp only
    | split
    | with_reducible refine canon_upd ?_ rfl rfl rfl rfl rfl rfl

theorem canon_saveImage (a0 : State) (a1 : Nat) (h : a0.Canon) : (State.saveImage a0 a1).Canon := by
  unfold State.saveImage
  repeat'
    first
    | with_reducible assumption
    | with_reducible refine canon_ite ?_ ?_
    | with_reducible refine canon_freeBytes _ _ ?_
    | with_reducible refine canon_putImage _ _ _ ?_
    | with_reducible refine canon_pair_snd (by assumption) ?_
    | dsimp only
    | split
    | with_reducible refine canon_upd ?_ rfl rfl rfl rfl rfl rfl

theorem canon_loadImage (a0 : State) (a1 : Nat) (h : a0.Canon) : (State.loadImage a0 a1).Canon := by
  unfold State.loadImage
  repeat'
    first
    | with_reducible assumption
    | with_reducible refine canon_ite ?_ ?_
    | with_reducible refine canon_set1 _ _ _ ?_
    | with_reducible refine canon_logErr _ _ ?_
    | with_reducible refine canon_t0Write _ _ _ ?_
    | with_reducible refine canon_setRow _ _ _ ?_
    | with_reducible refine canon_readTier _ _ _ _ ?_
    | with_reducible refine canon_foldl ?_ (fun _ _ _ => ?_)
    | with_reducible refine canon_foldl_fst ?_ (fun _ _ _ => ?_)
    | with_reducible refine canon_pair (by assumption) ?_
    | dsimp only
    | split
    | with_reducible refine canon_upd ?_ rfl rfl rfl rfl rfl rfl

theorem canon_setSwitch (a0 : State) (a1 : Switch) (h : a0.Canon) : (State.setSwitch a0 a1).Canon := by
  unfold State.setSwitch
  repeat'
    first
    | with_reducible assumption
    | with_reducible refine canon_ite ?_ ?_
    | dsimp only
    | split
    | with_reducible refine canon_upd ?_ rfl rfl rfl rfl rfl rfl

theorem canon_switchBegin (a0 : State) (a1 : Nat) (h : a0.Canon) : (State.switchBegin a0 a1).Canon := by
  unfold State.switchBegin
  repeat'
    first
    | with_reducible assumption
    | with_reducible refine canon_ite ?_ ?_
    | with_reducible refine canon_saveImage _ _ ?_
    | with_reducible refine canon_setPart _ _ _ ?_
    | with_reducible refine canon_setSwitch _ _ ?_
    | dsimp only
    | split
    | with_reducible refine canon_upd ?_ rfl rfl rfl rfl rfl rfl

theorem canon_switchesBegin (a0 : State) (h : a0.Canon) : (State.switchesBegin a0).Canon := by
  unfold State.switchesBegin
  repeat'
    first
    | with_reducible assumption
    | with_reducible refine canon_ite ?_ ?_
    | with_reducible refine canon_switchBegin _ _ ?_
    | with_reducible refine canon_foldl ?_ (fun _ _ _ => ?_)
    | with_reducible refine canon_foldl_fst ?_ (fun _ _ _ => ?_)
    | with_reducible refine canon_pair (by assumption) ?_
    | dsimp only
    | split
    | with_reducible refine canon_upd ?_ rfl rfl rfl rfl rfl rfl

theorem canon_switchPart (a0 : State) (a1 : Nat) (h : a0.Canon) : (State.switchPart a0 a1).Canon := by
  unfold State.switchPart
  repeat'
    first
    | with_reducible assumption
    | with_reducible refine canon_ite ?_ ?_
    | with_reducible refine canon_switchBegin _ _ ?_
    | with_reducible refine canon_ptcResult _ _ _ ?_
    | dsimp only
    | split
    | with_reducible refine canon_upd ?_ rfl rfl rfl rfl rfl rfl

theorem canon_flushWrites (a0 : State) (a1 : Nat) (h : a0.Canon) : (State.flushWrites a0 a1).Canon := by
  unfold State.flushWrites
  repeat'
    first
    | with_reducible assumption
    | with_reducible refine canon_ite ?_ ?_
    | with_reducible refine canon_noiseFill _ _ _ _ ?_
    | with_reducible refine canon_arcRun _ _ _ ?_
    | with_reducible refine canon_runJobs _ ?_
    | with_reducible refine canon_setColJob _ _ ?_
    | with_reducible refine canon_colFlush _ _ _ ?_
    | with_reducible refine canon_retryThose _ _ ?_
    | with_reducible refine canon_setLaneJob _ _ ?_
    | with_reducible refine canon_laneSettle _ _ ?_
    | with_reducible refine canon_passesFlush _ ?_
    | with_reducible refine canon_foldl ?_ (fun _ _ _ => ?_)
    | with_reducible refine canon_foldl_fst ?_ (fun _ _ _ => ?_)
    | with_reducible refine canon_pair (by assumption) ?_
    | dsimp only
    | split
    | with_reducible refine canon_upd ?_ rfl rfl rfl rfl rfl rfl

theorem canon_dissolveSlot (a0 : State) (a1 : Nat) (h : a0.Canon) : (State.dissolveSlot a0 a1).Canon := by
  unfold State.dissolveSlot
  repeat'
    first
    | with_reducible assumption
    | with_reducible refine canon_ite ?_ ?_
    | with_reducible refine canon_dissolve _ _ ?_
    | with_reducible refine canon_flushWrites _ _ ?_
    | dsimp only
    | split
    | with_reducible refine canon_upd ?_ rfl rfl rfl rfl rfl rfl

theorem canon_updLeave (a0 : State) (a1 : Nat) (a2 : Pass) (h : a0.Canon) : (State.updLeave a0 a1 a2).Canon := by
  unfold State.updLeave
  repeat'
    first
    | with_reducible assumption
    | with_reducible refine canon_ite ?_ ?_
    | with_reducible refine canon_park _ _ ?_
    | with_reducible refine canon_updFlush _ _ _ _ ?_
    | with_reducible refine canon_foldl ?_ (fun _ _ _ => ?_)
    | with_reducible refine canon_foldl_fst ?_ (fun _ _ _ => ?_)
    | with_reducible refine canon_pair (by assumption) ?_
    | dsimp only
    | split
    | with_reducible refine canon_upd ?_ rfl rfl rfl rfl rfl rfl

theorem canon_abortQueued (a0 : Nat) (a1 : Nat) (a2 : State) (h : a2.Canon) : (State.abortQueued a0 a1 a2).Canon := by
  induction a1 generalizing a0 a2 with
  | zero =>
    unfold State.abortQueued
    repeat'
      first
      | with_reducible assumption
      | with_reducible refine canon_ite ?_ ?_
      | with_reducible refine canon_qTake _ _ _ ?_
      | with_reducible refine canon_updRead _ _ _ _ ?_
      | with_reducible refine canon_pair (by assumption) ?_
      | dsimp only
      | split
      | with_reducible refine canon_upd ?_ rfl rfl rfl rfl rfl rfl
  | succ n ih =>
    unfold State.abortQueued
    repeat'
      first
      | with_reducible assumption
      | with_reducible refine canon_ite ?_ ?_
      | with_reducible refine ih _ _ ?_
      | with_reducible refine canon_qTake _ _ _ ?_
      | with_reducible refine canon_updRead _ _ _ _ ?_
      | with_reducible refine canon_pair (by assumption) ?_
      | dsimp only
      | split
      | with_reducible refine canon_upd ?_ rfl rfl rfl rfl rfl rfl

theorem canon_laneAbandon (a0 : State) (a1 : LaneJob) (h : a0.Canon) : (State.laneAbandon a0 a1).Canon := by
  unfold State.laneAbandon
  repeat'
    first
    | with_reducible assumption
    | with_reducible refine canon_ite ?_ ?_
    | with_reducible refine canon_laneEnd _ _ _ _ ?_
    | with_reducible refine canon_raTime _ _ _ ?_
    | with_reducible refine canon_gpTime _ _ _ ?_
    | with_reducible refine canon_smTime _ _ _ ?_
    | with_reducible refine canon_laneWaste _ _ ?_
    | dsimp only
    | split
    | with_reducible refine canon_upd ?_ rfl rfl rfl rfl rfl rfl

theorem canon_laneAbandonAll (a0 : State) (a1 : Nat) (a2 : Nat) (h : a0.Canon) : (State.laneAbandonAll a0 a1 a2).Canon := by
  unfold State.laneAbandonAll
  repeat'
    first
    | with_reducible assumption
    | with_reducible refine canon_ite ?_ ?_
    | with_reducible refine canon_laneAbandon _ _ ?_
    | with_reducible refine canon_foldl ?_ (fun _ _ _ => ?_)
    | with_reducible refine canon_foldl_fst ?_ (fun _ _ _ => ?_)
    | with_reducible refine canon_pair (by assumption) ?_
    | dsimp only
    | split
    | with_reducible refine canon_upd ?_ rfl rfl rfl rfl rfl rfl

theorem canon_resetLane (a0 : State) (a1 : Nat) (h : a0.Canon) : (State.resetLane a0 a1).Canon := by
  unfold State.resetLane
  repeat'
    first
    | with_reducible assumption
    | with_reducible refine canon_ite ?_ ?_
    | with_reducible refine canon_closeOld _ _ ?_
    | with_reducible refine canon_closeChain _ _ ?_
    | with_reducible refine canon_laneFlush _ _ _ ?_
    | with_reducible refine canon_abortQueued _ _ _ ?_
    | with_reducible refine canon_foldl ?_ (fun _ _ _ => ?_)
    | with_reducible refine canon_foldl_fst ?_ (fun _ _ _ => ?_)
    | with_reducible refine canon_pair (by assumption) ?_
    | dsimp only
    | split
    | with_reducible refine canon_upd ?_ rfl rfl rfl rfl rfl rfl

theorem canon_resetUpd (a0 : State) (a1 : Nat) (h : a0.Canon) : (State.resetUpd a0 a1).Canon := by
  unfold State.resetUpd
  repeat'
    first
    | with_reducible assumption
    | with_reducible refine canon_ite ?_ ?_
    | with_reducible refine canon_wr _ _ _ _ ?_
    | with_reducible refine canon_set0 _ _ _ ?_
    | with_reducible refine canon_setUpdPart _ _ _ ?_
    | with_reducible refine canon_unholdPages _ _ ?_
    | with_reducible refine canon_updLeave _ _ _ ?_
    | dsimp only
    | split
    | with_reducible refine canon_upd ?_ rfl rfl rfl rfl rfl rfl

theorem canon_resetPages (a0 : State) (a1 : Nat) (h : a0.Canon) : (State.resetPages a0 a1).Canon := by
  unfold State.resetPages
  repeat'
    first
    | with_reducible assumption
    | with_reducible refine canon_ite ?_ ?_
    | with_reducible refine canon_endJob _ _ _ ?_
    | with_reducible refine canon_cancelMove _ _ _ ?_
    | with_reducible refine canon_foldl ?_ (fun _ _ _ => ?_)
    | with_reducible refine canon_foldl_fst ?_ (fun _ _ _ => ?_)
    | with_reducible refine canon_pair (by assumption) ?_
    | dsimp only
    | split
    | with_reducible refine canon_upd ?_ rfl rfl rfl rfl rfl rfl

theorem canon_abortFabric (a0 : Nat) (a1 : Nat) (a2 : State) (h : a2.Canon) : (State.abortFabric a0 a1 a2).Canon := by
  induction a1 generalizing a0 a2 with
  | zero =>
    unfold State.abortFabric
    repeat'
      first
      | with_reducible assumption
      | with_reducible refine canon_ite ?_ ?_
      | with_reducible refine canon_qTake _ _ _ ?_
      | dsimp only
      | split
      | with_reducible refine canon_upd ?_ rfl rfl rfl rfl rfl rfl
  | succ n ih =>
    unfold State.abortFabric
    repeat'
      first
      | with_reducible assumption
      | with_reducible refine canon_ite ?_ ?_
      | with_reducible refine ih _ _ ?_
      | with_reducible refine canon_qTake _ _ _ ?_
      | dsimp only
      | split
      | with_reducible refine canon_upd ?_ rfl rfl rfl rfl rfl rfl

theorem canon_resetCol (a0 : State) (a1 : Nat) (h : a0.Canon) : (State.resetCol a0 a1).Canon := by
  unfold State.resetCol
  repeat'
    first
    | with_reducible assumption
    | with_reducible refine canon_ite ?_ ?_
    | with_reducible refine canon_setFrag _ _ _ _ ?_
    | with_reducible refine canon_colEnd _ _ _ ?_
    | with_reducible refine canon_foldl ?_ (fun _ _ _ => ?_)
    | with_reducible refine canon_foldl_fst ?_ (fun _ _ _ => ?_)
    | with_reducible refine canon_pair (by assumption) ?_
    | dsimp only
    | split
    | with_reducible refine canon_upd ?_ rfl rfl rfl rfl rfl rfl

theorem canon_resetArc (a0 : State) (a1 : Nat) (h : a0.Canon) : (State.resetArc a0 a1).Canon := by
  unfold State.resetArc
  repeat'
    first
    | with_reducible assumption
    | with_reducible refine canon_ite ?_ ?_
    | with_reducible refine canon_setRestore _ _ _ ?_
    | with_reducible refine canon_qComplete _ _ _ _ _ _ _ _ _ ?_
    | with_reducible refine canon_arcFail _ _ _ ?_
    | dsimp only
    | split
    | with_reducible refine canon_upd ?_ rfl rfl rfl rfl rfl rfl

theorem canon_resetGroups (a0 : State) (a1 : Nat) (h : a0.Canon) : (State.resetGroups a0 a1).Canon := by
  unfold State.resetGroups
  repeat'
    first
    | with_reducible assumption
    | with_reducible refine canon_ite ?_ ?_
    | with_reducible refine canon_emptyDrained _ ?_
    | with_reducible refine canon_setSlotState _ _ _ ?_
    | with_reducible refine canon_drainedCheck _ _ ?_
    | with_reducible refine canon_dissolveSlot _ _ ?_
    | with_reducible refine canon_foldl ?_ (fun _ _ _ => ?_)
    | with_reducible refine canon_foldl_fst ?_ (fun _ _ _ => ?_)
    | with_reducible refine canon_pair (by assumption) ?_
    | dsimp only
    | split
    | with_reducible refine canon_upd ?_ rfl rfl rfl rfl rfl rfl

theorem canon_resetEntries (a0 : State) (a1 : Nat) (h : a0.Canon) : (State.resetEntries a0 a1).Canon := by
  unfold State.resetEntries
  repeat'
    first
    | with_reducible assumption
    | with_reducible refine canon_ite ?_ ?_
    | with_reducible refine canon_pftClear _ _ _ ?_
    | with_reducible refine canon_pftGet _ _ ?_
    | with_reducible refine canon_set0 _ _ _ ?_
    | with_reducible refine canon_foldl ?_ (fun _ _ _ => ?_)
    | with_reducible refine canon_foldl_fst ?_ (fun _ _ _ => ?_)
    | with_reducible refine canon_pair (by assumption) ?_
    | dsimp only
    | split
    | with_reducible refine canon_upd ?_ rfl rfl rfl rfl rfl rfl

theorem canon_resetWork (a0 : State) (a1 : Nat) (h : a0.Canon) : (State.resetWork a0 a1).Canon := by
  unfold State.resetWork
  repeat'
    first
    | with_reducible assumption
    | with_reducible refine canon_ite ?_ ?_
    | with_reducible refine canon_retryStalled _ ?_
    | with_reducible refine canon_colAdvance _ ?_
    | with_reducible refine canon_resetGroups _ _ ?_
    | with_reducible refine canon_resetEntries _ _ ?_
    | with_reducible refine canon_wr _ _ _ _ ?_
    | with_reducible refine canon_noiseEnd _ _ ?_
    | with_reducible refine canon_resetCol _ _ ?_
    | with_reducible refine canon_resetArc _ _ ?_
    | with_reducible refine canon_stepGen _ _ ?_
    | with_reducible refine canon_endEntry _ _ _ ?_
    | with_reducible refine canon_abortFabric _ _ _ ?_
    | with_reducible refine canon_flushAll _ ?_
    | with_reducible refine canon_resetLane _ _ ?_
    | with_reducible refine canon_resetUpd _ _ ?_
    | with_reducible refine canon_resetPages _ _ ?_
    | with_reducible refine canon_setPlan _ _ _ ?_
    | with_reducible refine canon_foldl ?_ (fun _ _ _ => ?_)
    | with_reducible refine canon_foldl_fst ?_ (fun _ _ _ => ?_)
    | with_reducible refine canon_pair (by assumption) ?_
    | dsimp only
    | split
    | with_reducible refine canon_upd ?_ rfl rfl rfl rfl rfl rfl

theorem canon_resetBegin (a0 : State) (a1 : Nat) (h : a0.Canon) : (State.resetBegin a0 a1).Canon := by
  unfold State.resetBegin
  repeat'
    first
    | with_reducible assumption
    | with_reducible refine canon_ite ?_ ?_
    | with_reducible refine canon_setPart _ _ _ ?_
    | with_reducible refine canon_resetWork _ _ ?_
    | dsimp only
    | split
    | with_reducible refine canon_upd ?_ rfl rfl rfl rfl rfl rfl

theorem canon_resetPart (a0 : State) (a1 : Nat) (h : a0.Canon) : (State.resetPart a0 a1).Canon := by
  unfold State.resetPart
  repeat'
    first
    | with_reducible assumption
    | with_reducible refine canon_ite ?_ ?_
    | with_reducible refine canon_resetBegin _ _ ?_
    | dsimp only
    | split
    | with_reducible refine canon_upd ?_ rfl rfl rfl rfl rfl rfl

theorem canon_switchEnd (a0 : State) (a1 : Switch) (h : a0.Canon) : (State.switchEnd a0 a1).Canon := by
  unfold State.switchEnd
  repeat'
    first
    | with_reducible assumption
    | with_reducible refine canon_ite ?_ ?_
    | with_reducible refine canon_resetBegin _ _ ?_
    | with_reducible refine canon_bump _ _ _ _ ?_
    | with_reducible refine canon_irq _ _ _ ?_
    | with_reducible refine canon_fset _ _ _ _ ?_
    | with_reducible refine canon_set1 _ _ _ ?_
    | with_reducible refine canon_loadImage _ _ ?_
    | with_reducible refine canon_setPart _ _ _ ?_
    | with_reducible refine canon_foldl ?_ (fun _ _ _ => ?_)
    | with_reducible refine canon_foldl_fst ?_ (fun _ _ _ => ?_)
    | with_reducible refine canon_pair (by assumption) ?_
    | dsimp only
    | split
    | with_reducible refine canon_upd ?_ rfl rfl rfl rfl rfl rfl

theorem canon_releaseAllPages (a0 : State) (a1 : Nat) (h : a0.Canon) : (State.releaseAllPages a0 a1).Canon := by
  unfold State.releaseAllPages
  repeat'
    first
    | with_reducible assumption
    | with_reducible refine canon_ite ?_ ?_
    | with_reducible refine canon_wordsOut _ _ ?_
    | with_reducible refine canon_releasePage _ _ _ ?_
    | with_reducible refine canon_losePageFrames _ _ _ ?_
    | with_reducible refine canon_setPme _ _ _ _ ?_
    | with_reducible refine canon_pmeRead _ _ _ ?_
    | with_reducible refine canon_foldl ?_ (fun _ _ _ => ?_)
    | with_reducible refine canon_foldl_fst ?_ (fun _ _ _ => ?_)
    | with_reducible refine canon_pair (by assumption) ?_
    | dsimp only
    | split
    | with_reducible refine canon_upd ?_ rfl rfl rfl rfl rfl rfl

theorem canon_dropJobs (a0 : State) (a1 : Nat) (h : a0.Canon) : (State.dropJobs a0 a1).Canon := by
  unfold State.dropJobs
  repeat'
    first
    | with_reducible assumption
    | with_reducible refine canon_ite ?_ ?_
    | dsimp only
    | split
    | with_reducible refine canon_upd ?_ rfl rfl rfl rfl rfl rfl

theorem canon_resetEnd (a0 : State) (a1 : Nat) (h : a0.Canon) : (State.resetEnd a0 a1).Canon := by
  unfold State.resetEnd
  repeat'
    first
    | with_reducible assumption
    | with_reducible refine canon_ite ?_ ?_
    | with_reducible refine canon_switchBegin _ _ ?_
    | with_reducible refine canon_logErr _ _ ?_
    | with_reducible refine canon_irq _ _ _ ?_
    | with_reducible refine canon_setPart _ _ _ ?_
    | with_reducible refine canon_set1 _ _ _ ?_
    | with_reducible refine canon_bump _ _ _ _ ?_
    | with_reducible refine canon_releaseAllPages _ _ ?_
    | with_reducible refine canon_dropJobs _ _ ?_
    | with_reducible refine canon_setPlan _ _ _ ?_
    | dsimp only
    | split
    | with_reducible refine canon_upd ?_ rfl rfl rfl rfl rfl rfl

theorem canon_slowAdd (a0 : State) (a1 : Nat) (a2 : Nat) (a3 : Nat) (h : a0.Canon) : (State.slowAdd a0 a1 a2 a3).Canon := by
  unfold State.slowAdd
  repeat'
    first
    | with_reducible assumption
    | with_reducible refine canon_ite ?_ ?_
    | dsimp only
    | split
    | with_reducible refine canon_upd ?_ rfl rfl rfl rfl rfl rfl

theorem canon_slowdown (a0 : State) (a1 : Nat) (h : a0.Canon) : (State.slowdown a0 a1).Canon := by
  unfold State.slowdown
  repeat'
    first
    | with_reducible assumption
    | with_reducible refine canon_ite ?_ ?_
    | with_reducible refine canon_irq _ _ _ ?_
    | with_reducible refine canon_fset _ _ _ _ ?_
    | dsimp only
    | split
    | with_reducible refine canon_upd ?_ rfl rfl rfl rfl rfl rfl

end Sys2Proof.Machine
end

