-- ==== Sys2Proof/Laws/Canon/Boundary.lean ====
section
/-! SUPPORT. The operations of `Boundary.lean` keep the canonical form of the state. -/

namespace Sys2Proof.Machine

open Sys2Proof

theorem canon_epochPlan (a0 : State) (a1 : Nat) (a2 : Nat) (h : a0.Canon) : (State.epochPlan a0 a1 a2).Canon := by
  unfold State.epochPlan
  repeat'
    first
    | with_reducible assumption
    | with_reducible refine canon_ite ?_ ?_
    | with_reducible refine canon_fset _ _ _ _ ?_
    | with_reducible refine canon_setPlan _ _ _ ?_
    | dsimp only
    | split
    | with_reducible refine canon_upd ?_ rfl rfl rfl rfl rfl rfl

theorem canon_timeEpoch (a0 : State) (h : a0.Canon) : (State.timeEpoch a0).Canon := by
  unfold State.timeEpoch
  repeat'
    first
    | with_reducible assumption
    | with_reducible refine canon_ite ?_ ?_
    | with_reducible refine canon_cancelArms _ _ ?_
    | with_reducible refine canon_epochPlan _ _ _ ?_
    | with_reducible refine canon_fset _ _ _ _ ?_
    | with_reducible refine canon_wr64 _ _ _ _ ?_
    | with_reducible refine canon_passTo _ _ ?_
    | with_reducible refine canon_foldl ?_ (fun _ _ _ => ?_)
    | with_reducible refine canon_foldl_fst ?_ (fun _ _ _ => ?_)
    | with_reducible refine canon_pair (by assumption) ?_
    | dsimp only
    | split
    | with_reducible refine canon_upd ?_ rfl rfl rfl rfl rfl rfl

theorem canon_arrive (a0 : State) (h : a0.Canon) : (State.arrive a0).Canon := by
  unfold State.arrive
  repeat'
    first
    | with_reducible assumption
    | with_reducible refine canon_ite ?_ ?_
    | with_reducible refine canon_ringSend _ _ _ _ _ ?_
    | with_reducible refine canon_ringArrive _ _ _ ?_
    | with_reducible refine canon_tellArrival _ _ _ ?_
    | with_reducible refine canon_foldl ?_ (fun _ _ _ => ?_)
    | with_reducible refine canon_foldl_fst ?_ (fun _ _ _ => ?_)
    | with_reducible refine canon_pair (by assumption) ?_
    | dsimp only
    | split
    | with_reducible refine canon_upd ?_ rfl rfl rfl rfl rfl rfl

theorem canon_wasteTick (a0 : State) (a1 : Nat) (a2 : Nat) (h : a0.Canon) : (State.wasteTick a0 a1 a2).Canon := by
  unfold State.wasteTick
  repeat'
    first
    | with_reducible assumption
    | with_reducible refine canon_ite ?_ ?_
    | with_reducible refine canon_rowCycles _ _ _ _ ?_
    | dsimp only
    | split
    | with_reducible refine canon_upd ?_ rfl rfl rfl rfl rfl rfl

theorem canon_idleTick (a0 : State) (a1 : Nat) (a2 : Nat) (h : a0.Canon) : (State.idleTick a0 a1 a2).Canon := by
  unfold State.idleTick
  repeat'
    first
    | with_reducible assumption
    | with_reducible refine canon_ite ?_ ?_
    | with_reducible refine canon_slowAdd _ _ _ _ ?_
    | dsimp only
    | split
    | with_reducible refine canon_upd ?_ rfl rfl rfl rfl rfl rfl

theorem canon_tickEnd (a0 : State) (a1 : Nat) (h : a0.Canon) : (State.tickEnd a0 a1).Canon := by
  unfold State.tickEnd
  repeat'
    first
    | with_reducible assumption
    | with_reducible refine canon_ite ?_ ?_
    | with_reducible refine canon_idleTick _ _ _ ?_
    | with_reducible refine canon_wasteTick _ _ _ ?_
    | with_reducible refine canon_foldl ?_ (fun _ _ _ => ?_)
    | with_reducible refine canon_foldl_fst ?_ (fun _ _ _ => ?_)
    | with_reducible refine canon_pair (by assumption) ?_
    | dsimp only
    | split
    | with_reducible refine canon_upd ?_ rfl rfl rfl rfl rfl rfl

theorem canon_planSwap (a0 : State) (a1 : Nat) (a2 : Nat) (h : a0.Canon) : (State.planSwap a0 a1 a2).Canon := by
  unfold State.planSwap
  repeat'
    first
    | with_reducible assumption
    | with_reducible refine canon_ite ?_ ?_
    | with_reducible refine canon_setPlan _ _ _ ?_
    | with_reducible refine canon_irq _ _ _ ?_
    | dsimp only
    | split
    | with_reducible refine canon_upd ?_ rfl rfl rfl rfl rfl rfl

theorem canon_gate (a0 : State) (a1 : Nat) (a2 : Nat) (h : a0.Canon) : (State.gate a0 a1 a2).1.Canon := by
  unfold State.gate
  repeat'
    first
    | with_reducible assumption
    | with_reducible refine canon_ite ?_ ?_
    | with_reducible refine canon_set0 _ _ _ ?_
    | dsimp only
    | split
    | with_reducible refine canon_upd ?_ rfl rfl rfl rfl rfl rfl

theorem canon_overrun (a0 : State) (a1 : Option Nat) (h : a0.Canon) : (State.overrun a0 a1).Canon := by
  unfold State.overrun
  repeat'
    first
    | with_reducible assumption
    | with_reducible refine canon_ite ?_ ?_
    | with_reducible refine canon_bump _ _ _ _ ?_
    | with_reducible refine canon_irq _ _ _ ?_
    | with_reducible refine canon_event _ _ _ _ ?_
    | dsimp only
    | split
    | with_reducible refine canon_upd ?_ rfl rfl rfl rfl rfl rfl

theorem canon_startWaiting (a0 : State) (a1 : Nat) (h : a0.Canon) : (State.startWaiting a0 a1).Canon := by
  unfold State.startWaiting
  repeat'
    first
    | with_reducible assumption
    | with_reducible refine canon_ite ?_ ?_
    | with_reducible refine canon_setPlan _ _ _ ?_
    | dsimp only
    | split
    | with_reducible refine canon_upd ?_ rfl rfl rfl rfl rfl rfl

theorem canon_partBoundary (a0 : State) (a1 : Nat) (a2 : Nat) (a3 : Bool) (a4 : Nat) (h : a0.Canon) :
    (State.partBoundary a0 a1 a2 a3 a4).Canon := by
  unfold State.partBoundary
  repeat'
    first
    | with_reducible assumption
    | with_reducible refine canon_ite ?_ ?_
    | with_reducible refine canon_startWaiting _ _ ?_
    | with_reducible refine canon_setPlan _ _ _ ?_
    | with_reducible refine canon_overrun _ _ ?_
    | dsimp only
    | split
    | with_reducible refine canon_upd ?_ rfl rfl rfl rfl rfl rfl

theorem canon_countBoundary (a0 : State) (h : a0.Canon) : (State.countBoundary a0).Canon := by
  unfold State.countBoundary
  repeat'
    first
    | with_reducible assumption
    | with_reducible refine canon_ite ?_ ?_
    | with_reducible refine canon_onChains _ _ _ ?_
    | dsimp only
    | split
    | with_reducible refine canon_upd ?_ rfl rfl rfl rfl rfl rfl

theorem canon_bindSwitches (a0 : State) (a1 : Nat) (h : a0.Canon) : (State.bindSwitches a0 a1).Canon := by
  unfold State.bindSwitches
  repeat'
    first
    | with_reducible assumption
    | with_reducible refine canon_ite ?_ ?_
    | dsimp only
    | split
    | with_reducible refine canon_upd ?_ rfl rfl rfl rfl rfl rfl

theorem canon_applyHeld (a0 : State) (a1 : Nat) (h : a0.Canon) : (State.applyHeld a0 a1).Canon := by
  unfold State.applyHeld
  repeat'
    first
    | with_reducible assumption
    | with_reducible refine canon_ite ?_ ?_
    | with_reducible refine canon_bindSwitches _ _ ?_
    | with_reducible refine canon_modeApply _ ?_
    | with_reducible refine canon_flipAt _ _ ?_
    | with_reducible refine canon_orgBoundary _ ?_
    | with_reducible refine canon_bypassApply _ ?_
    | with_reducible refine canon_applyCtr _ ?_
    | with_reducible refine canon_planSwap _ _ _ ?_
    | with_reducible refine canon_foldl ?_ (fun _ _ _ => ?_)
    | with_reducible refine canon_foldl_fst ?_ (fun _ _ _ => ?_)
    | with_reducible refine canon_pair (by assumption) ?_
    | dsimp only
    | split
    | with_reducible refine canon_upd ?_ rfl rfl rfl rfl rfl rfl

theorem canon_enterTick (a0 : State) (a1 : Nat) (h : a0.Canon) : (State.enterTick a0 a1).Canon := by
  unfold State.enterTick
  repeat'
    first
    | with_reducible assumption
    | with_reducible refine canon_ite ?_ ?_
    | dsimp only
    | split
    | with_reducible refine canon_upd ?_ rfl rfl rfl rfl rfl rfl

theorem canon_leaveBoundary (a0 : State) (a1 : Nat) (a2 : Nat) (h : a0.Canon) : (State.leaveBoundary a0 a1 a2).Canon := by
  unfold State.leaveBoundary
  repeat'
    first
    | with_reducible assumption
    | with_reducible refine canon_ite ?_ ?_
    | with_reducible refine canon_repairGo _ ?_
    | with_reducible refine canon_arrive _ ?_
    | with_reducible refine canon_switchesBegin _ ?_
    | with_reducible refine canon_passesFlush _ ?_
    | with_reducible refine canon_updSeals _ ?_
    | with_reducible refine canon_tellTickSeal _ ?_
    | dsimp only
    | split
    | with_reducible refine canon_upd ?_ rfl rfl rfl rfl rfl rfl

theorem canon_takeBoundary (a0 : State) (a1 : Nat) (h : a0.Canon) : (State.takeBoundary a0 a1).Canon := by
  unfold State.takeBoundary
  repeat'
    first
    | with_reducible assumption
    | with_reducible refine canon_ite ?_ ?_
    | with_reducible refine canon_leaveBoundary _ _ _ ?_
    | with_reducible refine canon_budgetApply _ ?_
    | with_reducible refine canon_setPlanRef _ _ ?_
    | with_reducible refine canon_countBoundary _ ?_
    | with_reducible refine canon_arbWindow _ ?_
    | with_reducible refine canon_sendRelease _ _ ?_
    | with_reducible refine canon_partBoundary _ _ _ _ _ ?_
    | with_reducible refine canon_gate _ _ _ ?_
    | with_reducible refine canon_applyHeld _ _ ?_
    | with_reducible refine canon_tickEnd _ _ ?_
    | with_reducible refine canon_enterTick _ _ ?_
    | with_reducible refine canon_timeEpoch _ ?_
    | with_reducible refine canon_snapDue _ _ ?_
    | with_reducible refine canon_passTo _ _ ?_
    | with_reducible refine canon_foldl ?_ (fun _ _ _ => ?_)
    | with_reducible refine canon_foldl_fst ?_ (fun _ _ _ => ?_)
    | with_reducible refine canon_pair (by assumption) ?_
    | dsimp only
    | split
    | with_reducible refine canon_upd ?_ rfl rfl rfl rfl rfl rfl

theorem canon_skipTo (a0 : Nat) (a1 : Nat) (a2 : State) (h : a2.Canon) : (State.skipTo a0 a1 a2).Canon := by
  induction a1 generalizing a0 a2 with
  | zero =>
    unfold State.skipTo
    repeat'
      first
      | with_reducible assumption
      | with_reducible refine canon_ite ?_ ?_
      | with_reducible refine canon_takeBoundary _ _ ?_
      | dsimp only
      | split
      | with_reducible refine canon_upd ?_ rfl rfl rfl rfl rfl rfl
  | succ n ih =>
    unfold State.skipTo
    repeat'
      first
      | with_reducible assumption
      | with_reducible refine canon_ite ?_ ?_
      | with_reducible refine ih _ _ ?_
      | with_reducible refine canon_takeBoundary _ _ ?_
      | dsimp only
      | split
      | with_reducible refine canon_upd ?_ rfl rfl rfl rfl rfl rfl

theorem canon_tailsMove (a0 : State) (a1 : Nat) (a2 : Nat) (h : a0.Canon) : (State.tailsMove a0 a1 a2).Canon := by
  unfold State.tailsMove
  repeat'
    first
    | with_reducible assumption
    | with_reducible refine canon_ite ?_ ?_
    | dsimp only
    | split
    | with_reducible refine canon_upd ?_ rfl rfl rfl rfl rfl rfl

theorem canon_strobe (a0 : State) (a1 : Nat) (a2 : Nat) (h : a0.Canon) : (State.strobe a0 a1 a2).Canon := by
  unfold State.strobe
  repeat'
    first
    | with_reducible assumption
    | with_reducible refine canon_ite ?_ ?_
    | with_reducible refine canon_skipTo _ _ _ ?_
    | with_reducible refine canon_tailsMove _ _ _ ?_
    | with_reducible refine canon_logErr _ _ ?_
    | with_reducible refine canon_passTo _ _ ?_
    | dsimp only
    | split
    | with_reducible refine canon_upd ?_ rfl rfl rfl rfl rfl rfl

theorem canon_countLapse (a0 : State) (a1 : Nat) (h : a0.Canon) : (State.countLapse a0 a1).Canon := by
  unfold State.countLapse
  repeat'
    first
    | with_reducible assumption
    | with_reducible refine canon_ite ?_ ?_
    | with_reducible refine canon_bump _ _ _ _ ?_
    | with_reducible refine canon_fset _ _ _ _ ?_
    | dsimp only
    | split
    | with_reducible refine canon_upd ?_ rfl rfl rfl rfl rfl rfl

theorem canon_feed (a0 : State) (a1 : Nat) (a2 : Nat) (a3 : Nat) (h : a0.Canon) : (State.feed a0 a1 a2 a3).Canon := by
  unfold State.feed
  repeat'
    first
    | with_reducible assumption
    | with_reducible refine canon_ite ?_ ?_
    | dsimp only
    | split
    | with_reducible refine canon_upd ?_ rfl rfl rfl rfl rfl rfl

theorem canon_planOp (a0 : State) (a1 : Nat) (a2 : List (Nat × List Nat)) (a3 : PlanEntry) (h : a0.Canon) :
    (State.planOp a0 a1 a2 a3).Canon := by
  unfold State.planOp
  repeat'
    first
    | with_reducible assumption
    | with_reducible refine canon_ite ?_ ?_
    | with_reducible refine canon_planRefresh _ _ _ ?_
    | with_reducible refine canon_bankGives _ _ _ _ ?_
    | with_reducible refine canon_updSlots _ _ _ ?_
    | with_reducible refine canon_consume _ _ _ _ _ _ _ _ _ ?_
    | with_reducible refine canon_feed _ _ _ _ ?_
    | dsimp only
    | split
    | with_reducible refine canon_upd ?_ rfl rfl rfl rfl rfl rfl

theorem canon_starveJobs (a0 : State) (a1 : Nat) (a2 : Nat) (h : a0.Canon) : (State.starveJobs a0 a1 a2).Canon := by
  unfold State.starveJobs
  repeat'
    first
    | with_reducible assumption
    | with_reducible refine canon_ite ?_ ?_
    | with_reducible refine canon_rowCycles _ _ _ _ ?_
    | with_reducible refine canon_setLaneJob _ _ ?_
    | with_reducible refine canon_foldl ?_ (fun _ _ _ => ?_)
    | with_reducible refine canon_foldl_fst ?_ (fun _ _ _ => ?_)
    | with_reducible refine canon_pair (by assumption) ?_
    | dsimp only
    | split
    | with_reducible refine canon_upd ?_ rfl rfl rfl rfl rfl rfl

theorem canon_doSlot (a0 : State) (a1 : Nat) (a2 : Inst) (a3 : List (Nat × List Nat)) (h : a0.Canon) :
    (State.doSlot a0 a1 a2 a3).Canon := by
  unfold State.doSlot
  repeat'
    first
    | with_reducible assumption
    | with_reducible refine canon_ite ?_ ?_
    | with_reducible refine canon_setPlan _ _ _ ?_
    | with_reducible refine canon_rowCycles _ _ _ _ ?_
    | with_reducible refine canon_planOp _ _ _ _ ?_
    | with_reducible refine canon_passFlush _ _ ?_
    | with_reducible refine canon_starveJobs _ _ _ ?_
    | with_reducible refine canon_countLapse _ _ ?_
    | with_reducible refine canon_foldl ?_ (fun _ _ _ => ?_)
    | with_reducible refine canon_foldl_fst ?_ (fun _ _ _ => ?_)
    | with_reducible refine canon_pair (by assumption) ?_
    | dsimp only
    | split
    | with_reducible refine canon_upd ?_ rfl rfl rfl rfl rfl rfl

theorem canon_holdFor (a0 : State) (a1 : Nat) (a2 : Nat) (a3 : Nat) (h : a0.Canon) : (State.holdFor a0 a1 a2 a3).Canon := by
  unfold State.holdFor
  repeat'
    first
    | with_reducible assumption
    | with_reducible refine canon_ite ?_ ?_
    | with_reducible refine canon_rowCycles _ _ _ _ ?_
    | with_reducible refine canon_spend _ _ _ ?_
    | with_reducible refine canon_bump _ _ _ _ ?_
    | dsimp only
    | split
    | with_reducible refine canon_upd ?_ rfl rfl rfl rfl rfl rfl

theorem canon_holdSlot (a0 : State) (a1 : Nat) (a2 : Nat) (h : a0.Canon) : (State.holdSlot a0 a1 a2).Canon := by
  unfold State.holdSlot
  repeat'
    first
    | with_reducible assumption
    | with_reducible refine canon_ite ?_ ?_
    | with_reducible refine canon_setPlan _ _ _ ?_
    | with_reducible refine canon_holdFor _ _ _ _ ?_
    | with_reducible refine canon_foldl ?_ (fun _ _ _ => ?_)
    | with_reducible refine canon_foldl_fst ?_ (fun _ _ _ => ?_)
    | with_reducible refine canon_pair (by assumption) ?_
    | dsimp only
    | split
    | with_reducible refine canon_upd ?_ rfl rfl rfl rfl rfl rfl

theorem canon_planSlot (a0 : State) (a1 : Nat) (a2 : List (Nat × List Nat)) (h : a0.Canon) :
    (State.planSlot a0 a1 a2).Canon := by
  unfold State.planSlot
  repeat'
    first
    | with_reducible assumption
    | with_reducible refine canon_ite ?_ ?_
    | with_reducible refine canon_doSlot _ _ _ _ ?_
    | with_reducible refine canon_holdSlot _ _ _ ?_
    | with_reducible refine canon_laneAbandonAll _ _ _ ?_
    | dsimp only
    | split
    | with_reducible refine canon_upd ?_ rfl rfl rfl rfl rfl rfl

theorem canon_retire (a0 : State) (a1 : Nat) (a2 : Inst) (h : a0.Canon) : (State.retire a0 a1 a2).Canon := by
  unfold State.retire
  repeat'
    first
    | with_reducible assumption
    | with_reducible refine canon_ite ?_ ?_
    | with_reducible refine canon_passFlush _ _ ?_
    | with_reducible refine canon_arrive _ ?_
    | with_reducible refine canon_updSeals _ ?_
    | with_reducible refine canon_switchesBegin _ ?_
    | with_reducible refine canon_startWaiting _ _ ?_
    | with_reducible refine canon_setPlan _ _ _ ?_
    | with_reducible refine canon_slowAdd _ _ _ _ ?_
    | dsimp only
    | split
    | with_reducible refine canon_upd ?_ rfl rfl rfl rfl rfl rfl

theorem canon_waitFor (a0 : State) (a1 : List (Nat × Nat)) (a2 : Nat) (h : a0.Canon) : (State.waitFor a0 a1 a2).Canon := by
  unfold State.waitFor
  repeat'
    first
    | with_reducible assumption
    | with_reducible refine canon_ite ?_ ?_
    | with_reducible refine canon_setPlan _ _ _ ?_
    | dsimp only
    | split
    | with_reducible refine canon_upd ?_ rfl rfl rfl rfl rfl rfl

theorem canon_lateRelease (a0 : State) (a1 : Nat) (h : a0.Canon) : (State.lateRelease a0 a1).Canon := by
  unfold State.lateRelease
  repeat'
    first
    | with_reducible assumption
    | with_reducible refine canon_ite ?_ ?_
    | with_reducible refine canon_waitFor _ _ _ ?_
    | with_reducible refine canon_arrive _ ?_
    | with_reducible refine canon_foldl ?_ (fun _ _ _ => ?_)
    | with_reducible refine canon_foldl_fst ?_ (fun _ _ _ => ?_)
    | with_reducible refine canon_pair (by assumption) ?_
    | dsimp only
    | split
    | with_reducible refine canon_upd ?_ rfl rfl rfl rfl rfl rfl

theorem canon_releaseIn (a0 : State) (a1 : Nat) (h : a0.Canon) : (State.releaseIn a0 a1).Canon := by
  unfold State.releaseIn
  repeat'
    first
    | with_reducible assumption
    | with_reducible refine canon_ite ?_ ?_
    | with_reducible refine canon_lateRelease _ _ ?_
    | with_reducible refine canon_wr64 _ _ _ _ ?_
    | dsimp only
    | split
    | with_reducible refine canon_upd ?_ rfl rfl rfl rfl rfl rfl

end Sys2Proof.Machine
end

