-- ==== Sys2Proof/Laws/Canon/CollCmds.lean ====
section
/-! SUPPORT. The operations of `CollCmds.lean` keep the canonical form of the state. -/

namespace Sys2Proof.Machine

open Sys2Proof

theorem canon_colRemove (a0 : State) (a1 : Nat) (h : a0.Canon) : (State.colRemove a0 a1).Canon := by
  unfold State.colRemove
  repeat'
    first
    | with_reducible assumption
    | with_reducible refine canon_ite ?_ ?_
    | with_reducible refine canon_set0 _ _ _ ?_
    | with_reducible refine canon_fset _ _ _ _ ?_
    | dsimp only
    | split
    | with_reducible refine canon_upd ?_ rfl rfl rfl rfl rfl rfl

end Sys2Proof.Machine
end

