-- ==== Sys2Proof/Laws/Canon/FabIn.lean ====
section
/-! SUPPORT. The operations of `FabIn.lean` keep the canonical form of the state. -/

namespace Sys2Proof.Machine

open Sys2Proof

theorem canon_blockNode (a0 : State) (a1 : Nat) (a2 : Nat) (h : a0.Canon) : (State.blockNode a0 a1 a2).Canon := by
  unfold State.blockNode
  repeat'
    first
    | with_reducible assumption
    | with_reducible refine canon_ite ?_ ?_
    | with_reducible refine canon_wr _ _ _ _ ?_
    | with_reducible refine canon_irq _ _ _ ?_
    | with_reducible refine canon_logErr _ _ ?_
    | with_reducible refine canon_set1 _ _ _ ?_
    | dsimp only
    | split
    | with_reducible refine canon_upd ?_ rfl rfl rfl rfl rfl rfl

theorem canon_keyFail (a0 : State) (a1 : List Byte) (h : a0.Canon) : (State.keyFail a0 a1).Canon := by
  unfold State.keyFail
  repeat'
    first
    | with_reducible assumption
    | with_reducible refine canon_ite ?_ ?_
    | with_reducible refine canon_blockNode _ _ _ ?_
    | with_reducible refine canon_bump _ _ _ _ ?_
    | with_reducible refine canon_refuseReq _ _ _ _ ?_
    | dsimp only
    | split
    | with_reducible refine canon_upd ?_ rfl rfl rfl rfl rfl rfl

theorem canon_lentAccess (a0 : State) (a1 : List Byte) (a2 : Txn) (a3 : Nat) (a4 : Nat) (h : a0.Canon) :
    (State.lentAccess a0 a1 a2 a3 a4).Canon := by
  unfold State.lentAccess
  repeat'
    first
    | with_reducible assumption
    | with_reducible refine canon_ite ?_ ?_
    | with_reducible refine canon_writeTier _ _ _ _ ?_
    | with_reducible refine canon_respond _ _ _ _ _ ?_
    | with_reducible refine canon_respondData _ _ _ ?_
    | with_reducible refine canon_readTier _ _ _ _ ?_
    | with_reducible refine canon_pair (by assumption) ?_
    | dsimp only
    | split
    | with_reducible refine canon_upd ?_ rfl rfl rfl rfl rfl rfl

theorem canon_fabRequest (a0 : State) (a1 : List Byte) (a2 : Txn) (h : a0.Canon) : (State.fabRequest a0 a1 a2).Canon := by
  unfold State.fabRequest
  repeat'
    first
    | with_reducible assumption
    | with_reducible refine canon_ite ?_ ?_
    | with_reducible refine canon_access _ _ ?_
    | with_reducible refine canon_lentAccess _ _ _ _ _ ?_
    | with_reducible refine canon_keyFail _ _ ?_
    | with_reducible refine canon_bump _ _ _ _ ?_
    | with_reducible refine canon_gateDrop _ _ _ _ _ ?_
    | with_reducible refine canon_refuseReq _ _ _ _ ?_
    | dsimp only
    | split
    | with_reducible refine canon_upd ?_ rfl rfl rfl rfl rfl rfl

end Sys2Proof.Machine
end

