-- ==== Sys2Proof/Laws/Canon/FabQueue.lean ====
section
/-! SUPPORT. The operations of `FabQueue.lean` keep the canonical form of the state. -/

namespace Sys2Proof.Machine

open Sys2Proof

theorem canon_fabIssue (a0 : State) (a1 : FabJob) (h : a0.Canon) : (State.fabIssue a0 a1).Canon := by
  unfold State.fabIssue
  repeat'
    first
    | with_reducible assumption
    | with_reducible refine canon_ite ?_ ?_
    | with_reducible refine canon_access _ _ ?_
    | with_reducible refine canon_offerReq _ _ _ _ _ _ _ _ _ _ _ _ _ ?_
    | with_reducible refine canon_foldl ?_ (fun _ _ _ => ?_)
    | with_reducible refine canon_foldl_fst ?_ (fun _ _ _ => ?_)
    | with_reducible refine canon_pair (by assumption) ?_
    | dsimp only
    | split
    | with_reducible refine canon_upd ?_ rfl rfl rfl rfl rfl rfl

theorem canon_fabTake (a0 : State) (a1 : Nat) (a2 : Nat) (a3 : List Byte) (h : a0.Canon) :
    (State.fabTake a0 a1 a2 a3).Canon := by
  unfold State.fabTake
  repeat'
    first
    | with_reducible assumption
    | with_reducible refine canon_ite ?_ ?_
    | with_reducible refine canon_flushAll _ ?_
    | with_reducible refine canon_fabIssue _ _ ?_
    | with_reducible refine canon_qTake _ _ _ ?_
    | dsimp only
    | split
    | with_reducible refine canon_upd ?_ rfl rfl rfl rfl rfl rfl

end Sys2Proof.Machine
end

