-- ==== Sys2Proof/Laws/Canon/TowerCmds.lean ====
section
/-! SUPPORT. The operations of `TowerCmds.lean` keep the canonical form of the state. -/

namespace Sys2Proof.Machine

open Sys2Proof

theorem canon_mergeSec (a0 : State) (a1 : Nat) (a2 : Nat) (a3 : List Byte) (a4 : List Byte) (h : a0.Canon) :
    (State.mergeSec a0 a1 a2 a3 a4).Canon := by
  unfold State.mergeSec
  repeat'
    first
    | with_reducible assumption
    | with_reducible refine canon_ite ?_ ?_
    | with_reducible refine canon_gatherFor _ _ _ ?_
    | with_reducible refine canon_codedWrite _ _ _ _ _ _ _ ?_
    | with_reducible refine canon_towerPut _ _ _ ?_
    | with_reducible refine canon_readSec _ _ _ ?_
    | with_reducible refine canon_pair (by assumption) ?_
    | dsimp only
    | split
    | with_reducible refine canon_upd ?_ rfl rfl rfl rfl rfl rfl

theorem canon_bankRead (a0 : State) (a1 : Nat) (h : a0.Canon) : (State.bankRead a0 a1).Canon := by
  unfold State.bankRead
  repeat'
    first
    | with_reducible assumption
    | with_reducible refine canon_ite ?_ ?_
    | with_reducible refine canon_gatherFor _ _ _ ?_
    | with_reducible refine canon_readSec _ _ _ ?_
    | with_reducible refine canon_pair (by assumption) ?_
    | dsimp only
    | split
    | with_reducible refine canon_upd ?_ rfl rfl rfl rfl rfl rfl

theorem canon_bankCmd (a0 : State) (a1 : Nat) (a2 : Nat) (a3 : TowerCmd) (h : a0.Canon) : (State.bankCmd a0 a1 a2 a3).Canon := by
  unfold State.bankCmd
  repeat'
    first
    | with_reducible assumption
    | with_reducible refine canon_ite ?_ ?_
    | with_reducible refine canon_refBank _ _ _ ?_
    | with_reducible refine canon_mergeSec _ _ _ _ _ ?_
    | with_reducible refine canon_issueWr _ _ _ _ ?_
    | with_reducible refine canon_towerPut _ _ _ ?_
    | with_reducible refine canon_issueRd _ _ _ ?_
    | with_reducible refine canon_bankRead _ _ ?_
    | with_reducible refine canon_issue _ _ _ ?_
    | with_reducible refine canon_setBank _ _ _ ?_
    | dsimp only
    | split
    | with_reducible refine canon_upd ?_ rfl rfl rfl rfl rfl rfl

end Sys2Proof.Machine
end

