-- ==== Sys2Proof/Laws/Canon/Gate.lean ====
section
/-! SUPPORT. The operations of `Gate.lean` keep the canonical form of the state. -/

namespace Sys2Proof.Machine

open Sys2Proof

theorem canon_gateRevert (a0 : State) (h : a0.Canon) : (State.gateRevert a0).Canon := by
  unfold State.gateRevert
  repeat'
    first
    | with_reducible assumption
    | with_reducible refine canon_ite ?_ ?_
    | with_reducible refine canon_set0 _ _ _ ?_
    | with_reducible refine canon_revertCore _ _ ?_
    | dsimp only
    | split
    | with_reducible refine canon_upd ?_ rfl rfl rfl rfl rfl rfl

theorem canon_resetAll (a0 : State) (h : a0.Canon) : (State.resetAll a0).Canon := by
  unfold State.resetAll
  repeat'
    first
    | with_reducible assumption
    | with_reducible refine canon_ite ?_ ?_
    | with_reducible refine canon_resetPart _ _ ?_
    | with_reducible refine canon_dissolveSlot _ _ ?_
    | with_reducible refine canon_foldl ?_ (fun _ _ _ => ?_)
    | with_reducible refine canon_foldl_fst ?_ (fun _ _ _ => ?_)
    | with_reducible refine canon_pair (by assumption) ?_
    | dsimp only
    | split
    | with_reducible refine canon_upd ?_ rfl rfl rfl rfl rfl rfl

theorem canon_eraseKeys (a0 : State) (h : a0.Canon) : (State.eraseKeys a0).Canon :=
  canon_upd (canon_regs h (spWf_filter a0.regs (fun e => !keyReg (e.1 / 65536)) h.1)) rfl rfl rfl rfl rfl rfl

theorem canon_eraseSram (a0 : State) (h : a0.Canon) : (State.eraseSram a0).Canon := by
  unfold State.eraseSram
  refine canon_set0 _ _ _ (canon_set0 _ _ _ (canon_foldl ?_ (fun _ _ hs => canon_haltCore _ _ hs)))
  exact ⟨h.1, h.2.1, rfl, h.2.2.2.1, rfl, h.2.2.2.2.2⟩

theorem canon_gateBegin (a0 : State) (h : a0.Canon) : (State.gateBegin a0).Canon := by
  unfold State.gateBegin
  repeat'
    first
    | with_reducible assumption
    | with_reducible refine canon_ite ?_ ?_
    | with_reducible refine canon_eraseKeys _ ?_
    | with_reducible refine canon_eraseSram _ ?_
    | with_reducible refine canon_fset _ _ _ _ ?_
    | with_reducible refine canon_resetAll _ ?_
    | with_reducible refine canon_logErr _ _ ?_
    | with_reducible refine canon_set1 _ _ _ ?_
    | with_reducible refine canon_irq _ _ _ ?_
    | with_reducible refine canon_gateRevert _ ?_
    | dsimp only
    | split
    | with_reducible refine canon_upd ?_ rfl rfl rfl rfl rfl rfl

theorem canon_gateOpen (a0 : State) (h : a0.Canon) : (State.gateOpen a0).Canon := by
  unfold State.gateOpen
  repeat'
    first
    | with_reducible assumption
    | with_reducible refine canon_ite ?_ ?_
    | with_reducible refine canon_bump _ _ _ _ ?_
    | with_reducible refine canon_set1 _ _ _ ?_
    | with_reducible refine canon_irq _ _ _ ?_
    | with_reducible refine canon_logErr _ _ ?_
    | with_reducible refine canon_gateBegin _ ?_
    | dsimp only
    | split
    | with_reducible refine canon_upd ?_ rfl rfl rfl rfl rfl rfl

theorem canon_authorise (a0 : State) (a1 : Bool) (h : a0.Canon) : (State.authorise a0 a1).Canon := by
  unfold State.authorise
  repeat'
    first
    | with_reducible assumption
    | with_reducible refine canon_ite ?_ ?_
    | dsimp only
    | split
    | with_reducible refine canon_upd ?_ rfl rfl rfl rfl rfl rfl

theorem canon_eraseTower (a0 : State) (h : a0.Canon) : (State.eraseTower a0).Canon := canon_tower h rfl

theorem canon_wir (a0 : State) (a1 : Nat) (a2 : List Byte) (h : a0.Canon) : (State.wir a0 a1 a2).Canon := by
  unfold State.wir
  repeat'
    first
    | with_reducible assumption
    | with_reducible refine canon_ite ?_ ?_
    | with_reducible refine canon_fset _ _ _ _ ?_
    | dsimp only
    | split
    | with_reducible refine canon_upd ?_ rfl rfl rfl rfl rfl rfl

theorem canon_rawPut (a0 : State) (a1 : Nat) (a2 : Nat) (a3 : Nat) (a4 : Byte) (a5 : Bool) (h : a0.Canon) :
    (State.rawPut a0 a1 a2 a3 a4 a5).Canon := by
  unfold State.rawPut
  split
  · exact canon_mirrorFill _ _ _ (canon_tower h (Mem.wf_putRaw _ _ _ _ h.tower_mem))
  · exact canon_tower h h.tower_mem

theorem canon_rawCmd (a0 : State) (a1 : Nat) (a2 : TowerCmd) (h : a0.Canon) : (State.rawCmd a0 a1 a2).Canon := by
  unfold State.rawCmd
  repeat'
    first
    | with_reducible assumption
    | with_reducible refine canon_ite ?_ ?_
    | with_reducible refine canon_rawPut _ _ _ _ _ _ ?_
    | with_reducible refine canon_bankCmd _ _ _ _ ?_
    | with_reducible refine canon_setBank _ _ _ ?_
    | with_reducible refine canon_foldl ?_ (fun _ _ _ => ?_)
    | with_reducible refine canon_foldl_fst ?_ (fun _ _ _ => ?_)
    | with_reducible refine canon_pair (by assumption) ?_
    | dsimp only
    | split
    | with_reducible refine canon_upd ?_ rfl rfl rfl rfl rfl rfl

end Sys2Proof.Machine
end

