-- ==== Sys2Proof/Laws/Canon/HostData.lean ====
section
/-! SUPPORT. The operations of `HostData.lean` keep the canonical form of the state. -/

namespace Sys2Proof.Machine

open Sys2Proof

theorem canon_hostReq (a0 : State) (a1 : Nat) (a2 : BitVec 128) (a3 : Bool) (a4 : Access) (h : a0.Canon) :
    (State.hostReq a0 a1 a2 a3 a4).Canon := by
  unfold State.hostReq
  repeat'
    first
    | with_reducible assumption
    | with_reducible refine canon_ite ?_ ?_
    | with_reducible refine canon_access _ _ ?_
    | with_reducible refine canon_hostAnswer _ _ _ _ _ ?_
    | with_reducible refine canon_active _ _ _ ?_
    | dsimp only
    | split
    | with_reducible refine canon_upd ?_ rfl rfl rfl rfl rfl rfl

theorem canon_takeBeat (a0 : State) (a1 : Nat) (h : a0.Canon) : (State.takeBeat a0 a1).Canon := by
  unfold State.takeBeat
  repeat'
    first
    | with_reducible assumption
    | with_reducible refine canon_ite ?_ ?_
    | with_reducible refine canon_active _ _ _ ?_
    | dsimp only
    | split
    | with_reducible refine canon_upd ?_ rfl rfl rfl rfl rfl rfl

theorem canon_logXt (a0 : State) (a1 : Nat) (h : a0.Canon) : (State.logXt a0 a1).Canon := by
  unfold State.logXt
  repeat'
    first
    | with_reducible assumption
    | with_reducible refine canon_ite ?_ ?_
    | with_reducible refine canon_logErr _ _ ?_
    | dsimp only
    | split
    | with_reducible refine canon_upd ?_ rfl rfl rfl rfl rfl rfl

end Sys2Proof.Machine
end

