-- ==== Sys2Proof/Laws/Canon/LaneCmds.lean ====
section
/-! SUPPORT. The operations of `LaneCmds.lean` keep the canonical form of the state. -/

namespace Sys2Proof.Machine

open Sys2Proof

theorem canon_raGroup (a0 : State) (a1 : LaneJob) (a2 : List Byte) (a3 : Frag) (h : a0.Canon) :
    (State.raGroup a0 a1 a2 a3).1.Canon := by
  unfold State.raGroup
  repeat'
    first
    | with_reducible assumption
    | with_reducible refine canon_ite ?_ ?_
    | with_reducible refine canon_t0Write _ _ _ ?_
    | with_reducible refine canon_bump _ _ _ _ ?_
    | with_reducible refine canon_laneRead _ _ _ _ _ _ ?_
    | with_reducible refine canon_foldl ?_ (fun _ _ _ => ?_)
    | with_reducible refine canon_foldl_fst ?_ (fun _ _ _ => ?_)
    | with_reducible refine canon_pair (by assumption) ?_
    | dsimp only
    | split
    | with_reducible refine canon_upd ?_ rfl rfl rfl rfl rfl rfl

theorem canon_setColFlag (a0 : State) (a1 : Nat) (a2 : Nat) (h : a0.Canon) : (State.setColFlag a0 a1 a2).Canon := by
  unfold State.setColFlag
  repeat'
    first
    | with_reducible assumption
    | with_reducible refine canon_ite ?_ ?_
    | with_reducible refine canon_wr _ _ _ _ ?_
    | dsimp only
    | split
    | with_reducible refine canon_upd ?_ rfl rfl rfl rfl rfl rfl

theorem canon_failHandle (a0 : State) (a1 : Nat) (h : a0.Canon) : (State.failHandle a0 a1).Canon := by
  unfold State.failHandle
  repeat'
    first
    | with_reducible assumption
    | with_reducible refine canon_ite ?_ ?_
    | dsimp only
    | split
    | with_reducible refine canon_upd ?_ rfl rfl rfl rfl rfl rfl

theorem canon_raFail (a0 : State) (a1 : LaneJob) (a2 : List Byte) (h : a0.Canon) : (State.raFail a0 a1 a2).Canon := by
  unfold State.raFail
  repeat'
    first
    | with_reducible assumption
    | with_reducible refine canon_ite ?_ ?_
    | with_reducible refine canon_laneWaste _ _ ?_
    | with_reducible refine canon_laneEnd _ _ _ _ ?_
    | with_reducible refine canon_colAdvance _ ?_
    | with_reducible refine canon_setFrag _ _ _ _ ?_
    | dsimp only
    | split
    | with_reducible refine canon_upd ?_ rfl rfl rfl rfl rfl rfl

theorem canon_raRun (a0 : List Byte) (a1 : Frag) (a2 : Nat) (a3 : LaneJob) (a4 : State) (h : a4.Canon) :
    (State.raRun a0 a1 a2 a3 a4).Canon := by
  induction a2 generalizing a0 a1 a3 a4 with
  | zero =>
    unfold State.raRun
    repeat'
      first
      | with_reducible assumption
      | with_reducible refine canon_ite ?_ ?_
      | with_reducible refine canon_raGroup _ _ _ _ ?_
      | with_reducible refine canon_laneEnd _ _ _ _ ?_
      | with_reducible refine canon_colAdvance _ ?_
      | with_reducible refine canon_setFrag _ _ _ _ ?_
      | with_reducible refine canon_setColFlag _ _ _ ?_
      | with_reducible refine canon_raTime _ _ _ ?_
      | with_reducible refine canon_laneSettle _ _ ?_
      | with_reducible refine canon_setLaneJob _ _ ?_
      | with_reducible refine canon_pair (by assumption) ?_
      | dsimp only
      | split
      | with_reducible refine canon_upd ?_ rfl rfl rfl rfl rfl rfl
  | succ n ih =>
    unfold State.raRun
    repeat'
      first
      | with_reducible assumption
      | with_reducible refine canon_ite ?_ ?_
      | with_reducible refine ih _ _ _ _ ?_
      | with_reducible refine canon_raGroup _ _ _ _ ?_
      | with_reducible refine canon_laneEnd _ _ _ _ ?_
      | with_reducible refine canon_colAdvance _ ?_
      | with_reducible refine canon_setFrag _ _ _ _ ?_
      | with_reducible refine canon_setColFlag _ _ _ ?_
      | with_reducible refine canon_raTime _ _ _ ?_
      | with_reducible refine canon_laneSettle _ _ ?_
      | with_reducible refine canon_setLaneJob _ _ ?_
      | with_reducible refine canon_pair (by assumption) ?_
      | dsimp only
      | split
      | with_reducible refine canon_upd ?_ rfl rfl rfl rfl rfl rfl

theorem canon_raGo (a0 : State) (a1 : LaneJob) (a2 : List Byte) (h : a0.Canon) : (State.raGo a0 a1 a2).Canon := by
  unfold State.raGo
  repeat'
    first
    | with_reducible assumption
    | with_reducible refine canon_ite ?_ ?_
    | with_reducible refine canon_setLaneJob _ _ ?_
    | with_reducible refine canon_chainRows _ _ ?_
    | with_reducible refine canon_holdPages _ _ _ ?_
    | with_reducible refine canon_fset _ _ _ _ ?_
    | with_reducible refine canon_failHandle _ _ ?_
    | with_reducible refine canon_raRun _ _ _ _ _ ?_
    | with_reducible refine canon_raFail _ _ _ ?_
    | with_reducible refine canon_pair (by assumption) ?_
    | dsimp only
    | split
    | with_reducible refine canon_upd ?_ rfl rfl rfl rfl rfl rfl

theorem canon_laneRun (a0 : State) (a1 : Nat) (a2 : Nat → Bool) (a3 : List LaneFault) (h : a0.Canon) :
    (State.laneRun a0 a1 a2 a3).Canon := by
  unfold State.laneRun
  repeat'
    first
    | with_reducible assumption
    | with_reducible refine canon_ite ?_ ?_
    | with_reducible refine canon_raGo _ _ _ ?_
    | with_reducible refine canon_gpGo _ _ _ ?_
    | with_reducible refine canon_smGo _ _ _ _ ?_
    | with_reducible refine canon_colAdvance _ ?_
    | with_reducible refine canon_laneRefetch _ _ ?_
    | dsimp only
    | split
    | with_reducible refine canon_upd ?_ rfl rfl rfl rfl rfl rfl

theorem canon_chainReport (a0 : State) (a1 : Nat) (a2 : Nat) (h : a0.Canon) : (State.chainReport a0 a1 a2).Canon := by
  unfold State.chainReport
  repeat'
    first
    | with_reducible assumption
    | with_reducible refine canon_ite ?_ ?_
    | with_reducible refine canon_logErr _ _ ?_
    | with_reducible refine canon_irq _ _ _ ?_
    | dsimp only
    | split
    | with_reducible refine canon_upd ?_ rfl rfl rfl rfl rfl rfl

theorem canon_chainLimit (a0 : State) (a1 : Nat) (h : a0.Canon) : (State.chainLimit a0 a1).Canon := by
  unfold State.chainLimit
  repeat'
    first
    | with_reducible assumption
    | with_reducible refine canon_ite ?_ ?_
    | with_reducible refine canon_colAdvance _ ?_
    | with_reducible refine canon_closeChain _ _ ?_
    | with_reducible refine canon_closeOld _ _ ?_
    | with_reducible refine canon_chainReport _ _ _ ?_
    | with_reducible refine canon_foldl ?_ (fun _ _ _ => ?_)
    | with_reducible refine canon_foldl_fst ?_ (fun _ _ _ => ?_)
    | with_reducible refine canon_pair (by assumption) ?_
    | dsimp only
    | split
    | with_reducible refine canon_upd ?_ rfl rfl rfl rfl rfl rfl

theorem canon_pinWrite (a0 : State) (a1 : Nat) (h : a0.Canon) : (State.pinWrite a0 a1).Canon := by
  unfold State.pinWrite
  repeat'
    first
    | with_reducible assumption
    | with_reducible refine canon_ite ?_ ?_
    | with_reducible refine canon_showPending _ ?_
    | with_reducible refine canon_fset _ _ _ _ ?_
    | dsimp only
    | split
    | with_reducible refine canon_upd ?_ rfl rfl rfl rfl rfl rfl

theorem canon_rowTest (a0 : State) (a1 : Nat) (h : a0.Canon) : (State.rowTest a0 a1).Canon := by
  unfold State.rowTest
  repeat'
    first
    | with_reducible assumption
    | with_reducible refine canon_ite ?_ ?_
    | with_reducible refine canon_set0 _ _ _ ?_
    | with_reducible refine canon_fset _ _ _ _ ?_
    | with_reducible refine canon_set1 _ _ _ ?_
    | dsimp only
    | split
    | with_reducible refine canon_upd ?_ rfl rfl rfl rfl rfl rfl

theorem canon_tailWrite (a0 : State) (a1 : Path) (a2 : QKind) (a3 : Nat) (h : a0.Canon) :
    (State.tailWrite a0 a1 a2 a3).Canon := by
  unfold State.tailWrite
  repeat'
    first
    | with_reducible assumption
    | with_reducible refine canon_ite ?_ ?_
    | with_reducible refine canon_noteTail _ _ _ ?_
    | with_reducible refine canon_qTailWrite _ _ _ _ ?_
    | dsimp only
    | split
    | with_reducible refine canon_upd ?_ rfl rfl rfl rfl rfl rfl

theorem canon_qCfgWrite (a0 : State) (a1 : Path) (a2 : QKind) (a3 : Nat) (h : a0.Canon) :
    (State.qCfgWrite a0 a1 a2 a3).Canon := by
  unfold State.qCfgWrite
  repeat'
    first
    | with_reducible assumption
    | with_reducible refine canon_ite ?_ ?_
    | with_reducible refine canon_qEnable _ _ _ _ ?_
    | with_reducible refine canon_fset _ _ _ _ ?_
    | with_reducible refine canon_accWrite _ _ _ _ ?_
    | dsimp only
    | split
    | with_reducible refine canon_upd ?_ rfl rfl rfl rfl rfl rfl

end Sys2Proof.Machine
end

