-- ==== Sys2Proof/Laws/Canon/Plans.lean ====
section
/-! SUPPORT. The operations of `Plans.lean` keep the canonical form of the state. -/

namespace Sys2Proof.Machine

open Sys2Proof

theorem canon_planChecked (a0 : State) (a1 : Nat) (h : a0.Canon) : (State.planChecked a0 a1).Canon := by
  unfold State.planChecked
  repeat'
    first
    | with_reducible assumption
    | with_reducible refine canon_ite ?_ ?_
    | with_reducible refine canon_irq _ _ _ ?_
    | with_reducible refine canon_setPlan _ _ _ ?_
    | with_reducible refine canon_fset _ _ _ _ ?_
    | with_reducible refine canon_wr _ _ _ _ ?_
    | dsimp only
    | split
    | with_reducible refine canon_upd ?_ rfl rfl rfl rfl rfl rfl

theorem canon_planCancel (a0 : State) (a1 : Nat) (h : a0.Canon) : (State.planCancel a0 a1).Canon := by
  unfold State.planCancel
  repeat'
    first
    | with_reducible assumption
    | with_reducible refine canon_ite ?_ ?_
    | with_reducible refine canon_setPlan _ _ _ ?_
    | dsimp only
    | split
    | with_reducible refine canon_upd ?_ rfl rfl rfl rfl rfl rfl

end Sys2Proof.Machine
end

