-- ==== Sys2Proof/Laws/Canon/Starts.lean ====
section
/-! SUPPORT. The operations of `Starts.lean` keep the canonical form of the state. -/

namespace Sys2Proof.Machine

open Sys2Proof

theorem spWf_keepRegs (mask : Nat → Nat) (r : List (Nat × BitVec 32)) (h : spWf resetAt r = true) :
    spWf resetAt (keepRegs mask r) = true := by
  simp only [spWf, Bool.and_eq_true] at h ⊢
  refine ⟨risingFrom_filterMap _ _ (fun p q hq => ?_) h.1, ?_⟩
  · dsimp only at hq
    split at hq
    · cases hq
    · cases hq
      rfl
  · rw [List.all_eq_true]
    intro x hx
    obtain ⟨p, _, hq⟩ := List.mem_filterMap.1 hx
    dsimp only at hq
    split at hq
    · cases hq
    · next hne =>
      cases hq
      simpa using hne

theorem canon_toCold (a0 : State) (a1 : Nat → Nat) (h : a0.Canon) : (State.toCold a0 a1).Canon :=
  ⟨spWf_keepRegs a1 _ h.1, rfl, rfl, rfl, rfl, Nat.zero_le 32⟩

theorem canon_toWarm (a0 : State) (h : a0.Canon) : (State.toWarm a0).Canon :=
  ⟨spWf_keepRegs _ _ h.1, h.tower_mem, rfl, h.ext_wf, h.sram_wf, Nat.zero_le 32⟩

theorem canon_warmFailed (a0 : State) (h : a0.Canon) : (State.warmFailed a0).Canon := by
  unfold State.warmFailed
  repeat'
    first
    | with_reducible assumption
    | with_reducible refine canon_ite ?_ ?_
    | with_reducible refine canon_bumpSat _ _ _ _ ?_
    | dsimp only
    | split
    | with_reducible refine canon_upd ?_ rfl rfl rfl rfl rfl rfl

theorem canon_startFail (a0 : State) (a1 : Bool) (a2 : Nat) (h : a0.Canon) : (State.startFail a0 a1 a2).Canon := by
  unfold State.startFail
  repeat'
    first
    | with_reducible assumption
    | with_reducible refine canon_ite ?_ ?_
    | with_reducible refine canon_logErr _ _ ?_
    | with_reducible refine canon_warmFailed _ ?_
    | with_reducible refine canon_fset _ _ _ _ ?_
    | dsimp only
    | split
    | with_reducible refine canon_upd ?_ rfl rfl rfl rfl rfl rfl

theorem canon_readFuse (a0 : State) (a1 : List Word) (h : a0.Canon) : (State.readFuse a0 a1).Canon := by
  unfold State.readFuse
  repeat'
    first
    | with_reducible assumption
    | with_reducible refine canon_ite ?_ ?_
    | with_reducible refine canon_logErr _ _ ?_
    | with_reducible refine canon_wr _ _ _ _ ?_
    | with_reducible refine canon_fset _ _ _ _ ?_
    | with_reducible refine canon_set1 _ _ _ ?_
    | with_reducible refine canon_foldl ?_ (fun _ _ _ => ?_)
    | with_reducible refine canon_foldl_fst ?_ (fun _ _ _ => ?_)
    | with_reducible refine canon_pair (by assumption) ?_
    | dsimp only
    | split
    | with_reducible refine canon_upd ?_ rfl rfl rfl rfl rfl rfl

theorem canon_applyFuses (a0 : State) (a1 : List Word) (h : a0.Canon) : (State.applyFuses a0 a1).Canon := by
  unfold State.applyFuses
  repeat'
    first
    | with_reducible assumption
    | with_reducible refine canon_ite ?_ ?_
    | with_reducible refine canon_applyFuse _ _ ?_
    | with_reducible refine canon_foldl ?_ (fun _ _ _ => ?_)
    | with_reducible refine canon_foldl_fst ?_ (fun _ _ _ => ?_)
    | with_reducible refine canon_pair (by assumption) ?_
    | dsimp only
    | split
    | with_reducible refine canon_upd ?_ rfl rfl rfl rfl rfl rfl

theorem canon_rowTests (a0 : State) (a1 : List (Fin 768 × Word × Word)) (h : a0.Canon) : (State.rowTests a0 a1).Canon := by
  unfold State.rowTests
  repeat'
    first
    | with_reducible assumption
    | with_reducible refine canon_ite ?_ ?_
    | with_reducible refine canon_wr _ _ _ _ ?_
    | with_reducible refine canon_applyMasks _ _ ?_
    | with_reducible refine canon_foldl ?_ (fun _ _ _ => ?_)
    | with_reducible refine canon_foldl_fst ?_ (fun _ _ _ => ?_)
    | with_reducible refine canon_pair (by assumption) ?_
    | dsimp only
    | split
    | with_reducible refine canon_upd ?_ rfl rfl rfl rfl rfl rfl

theorem canon_philoxCheck (a0 : State) (a1 : Bool) (h : a0.Canon) : (State.philoxCheck a0 a1).Canon := by
  unfold State.philoxCheck
  repeat'
    first
    | with_reducible assumption
    | with_reducible refine canon_ite ?_ ?_
    | with_reducible refine canon_set0 _ _ _ ?_
    | with_reducible refine canon_logErr _ _ ?_
    | with_reducible refine canon_irq _ _ _ ?_
    | with_reducible refine canon_set1 _ _ _ ?_
    | dsimp only
    | split
    | with_reducible refine canon_upd ?_ rfl rfl rfl rfl rfl rfl

theorem canon_freqs (a0 : State) (h : a0.Canon) : (State.freqs a0).Canon := by
  unfold State.freqs
  repeat'
    first
    | with_reducible assumption
    | with_reducible refine canon_ite ?_ ?_
    | with_reducible refine canon_fset _ _ _ _ ?_
    | dsimp only
    | split
    | with_reducible refine canon_upd ?_ rfl rfl rfl rfl rfl rfl

theorem canon_showWindows (a0 : State) (a1 : List (BitVec 12)) (h : a0.Canon) : (State.showWindows a0 a1).Canon := by
  unfold State.showWindows
  repeat'
    first
    | with_reducible assumption
    | with_reducible refine canon_ite ?_ ?_
    | with_reducible refine canon_fset _ _ _ _ ?_
    | dsimp only
    | split
    | with_reducible refine canon_upd ?_ rfl rfl rfl rfl rfl rfl

theorem canon_coldRest (a0 : State) (a1 : StartIn) (h : a0.Canon) : (State.coldRest a0 a1).Canon := by
  unfold State.coldRest
  repeat'
    first
    | with_reducible assumption
    | with_reducible refine canon_ite ?_ ?_
    | with_reducible refine canon_sendCheck _ ?_
    | with_reducible refine canon_fset _ _ _ _ ?_
    | with_reducible refine canon_set1 _ _ _ ?_
    | with_reducible refine canon_rowTests _ _ ?_
    | with_reducible refine canon_philoxCheck _ _ ?_
    | with_reducible refine canon_applyFuses _ _ ?_
    | with_reducible refine canon_readFuse _ _ ?_
    | with_reducible refine canon_startFail _ _ _ ?_
    | dsimp only
    | split
    | with_reducible refine canon_upd ?_ rfl rfl rfl rfl rfl rfl

theorem canon_openCycles (a0 : State) (h : a0.Canon) : (State.openCycles a0).Canon := by
  unfold State.openCycles
  repeat'
    first
    | with_reducible assumption
    | with_reducible refine canon_ite ?_ ?_
    | with_reducible refine canon_free _ ?_
    | with_reducible refine canon_pair_snd (by assumption) ?_
    | dsimp only
    | split
    | with_reducible refine canon_upd ?_ rfl rfl rfl rfl rfl rfl

theorem canon_coldSteps (a0 : State) (a1 : StartIn) (a2 : Bool) (h : a0.Canon) : (State.coldSteps a0 a1 a2).Canon := by
  unfold State.coldSteps
  repeat'
    first
    | with_reducible assumption
    | with_reducible refine canon_ite ?_ ?_
    | with_reducible refine canon_coldRest _ _ ?_
    | with_reducible refine canon_logErr _ _ ?_
    | with_reducible refine canon_startFail _ _ _ ?_
    | with_reducible refine canon_openCycles _ ?_
    | with_reducible refine canon_fset _ _ _ _ ?_
    | with_reducible refine canon_showWindows _ _ ?_
    | dsimp only
    | split
    | with_reducible refine canon_upd ?_ rfl rfl rfl rfl rfl rfl

theorem canon_lanesApply (a0 : State) (h : a0.Canon) : (State.lanesApply a0).Canon := by
  unfold State.lanesApply
  repeat'
    first
    | with_reducible assumption
    | with_reducible refine canon_ite ?_ ?_
    | with_reducible refine canon_foldl ?_ (fun _ _ _ => ?_)
    | with_reducible refine canon_foldl_fst ?_ (fun _ _ _ => ?_)
    | with_reducible refine canon_pair (by assumption) ?_
    | dsimp only
    | split
    | with_reducible refine canon_upd ?_ rfl rfl rfl rfl rfl rfl

theorem canon_warmCores (a0 : State) (h : a0.Canon) : (State.warmCores a0).Canon := by
  unfold State.warmCores
  repeat'
    first
    | with_reducible assumption
    | with_reducible refine canon_ite ?_ ?_
    | with_reducible refine canon_kskReady _ ?_
    | with_reducible refine canon_startCore _ _ ?_
    | with_reducible refine canon_foldl ?_ (fun _ _ _ => ?_)
    | with_reducible refine canon_foldl_fst ?_ (fun _ _ _ => ?_)
    | with_reducible refine canon_pair (by assumption) ?_
    | dsimp only
    | split
    | with_reducible refine canon_upd ?_ rfl rfl rfl rfl rfl rfl

theorem canon_warmSteps (a0 : State) (a1 : StartIn) (h : a0.Canon) : (State.warmSteps a0 a1).Canon := by
  unfold State.warmSteps
  repeat'
    first
    | with_reducible assumption
    | with_reducible refine canon_ite ?_ ?_
    | with_reducible refine canon_warmCores _ ?_
    | with_reducible refine canon_wr _ _ _ _ ?_
    | with_reducible refine canon_rowTests _ _ ?_
    | with_reducible refine canon_philoxCheck _ _ ?_
    | with_reducible refine canon_leaveSelfRef _ ?_
    | with_reducible refine canon_set1 _ _ _ ?_
    | with_reducible refine canon_lanesApply _ ?_
    | with_reducible refine canon_freqs _ ?_
    | with_reducible refine canon_startFail _ _ _ ?_
    | with_reducible refine canon_openCycles _ ?_
    | with_reducible refine canon_fset _ _ _ _ ?_
    | with_reducible refine canon_showWindows _ _ ?_
    | with_reducible refine canon_foldl ?_ (fun _ _ _ => ?_)
    | with_reducible refine canon_foldl_fst ?_ (fun _ _ _ => ?_)
    | with_reducible refine canon_pair (by assumption) ?_
    | dsimp only
    | split
    | with_reducible refine canon_upd ?_ rfl rfl rfl rfl rfl rfl

theorem canon_noteUndrained (a0 : State) (h : a0.Canon) : (State.noteUndrained a0).Canon := by
  unfold State.noteUndrained
  repeat'
    first
    | with_reducible assumption
    | with_reducible refine canon_ite ?_ ?_
    | with_reducible refine canon_set0 _ _ _ ?_
    | with_reducible refine canon_set1 _ _ _ ?_
    | dsimp only
    | split
    | with_reducible refine canon_upd ?_ rfl rfl rfl rfl rfl rfl

theorem canon_fallBack (a0 : State) (a1 : Nat) (h : a0.Canon) : (State.fallBack a0 a1).Canon := by
  unfold State.fallBack
  repeat'
    first
    | with_reducible assumption
    | with_reducible refine canon_ite ?_ ?_
    | with_reducible refine canon_set1 _ _ _ ?_
    | with_reducible refine canon_logErr _ _ ?_
    | with_reducible refine canon_irq _ _ _ ?_
    | with_reducible refine canon_noteUndrained _ ?_
    | with_reducible refine canon_enterSelfRef _ ?_
    | dsimp only
    | split
    | with_reducible refine canon_upd ?_ rfl rfl rfl rfl rfl rfl

theorem canon_window (a0 : State) (a1 : Nat) (h : a0.Canon) : (State.window a0 a1).Canon := by
  unfold State.window
  repeat'
    first
    | with_reducible assumption
    | with_reducible refine canon_ite ?_ ?_
    | with_reducible refine canon_fallBack _ _ ?_
    | with_reducible refine canon_set0 _ _ _ ?_
    | with_reducible refine canon_fset _ _ _ _ ?_
    | dsimp only
    | split
    | with_reducible refine canon_upd ?_ rfl rfl rfl rfl rfl rfl

end Sys2Proof.Machine
end

