-- ==== Sys2Proof/Laws/Canon/Power.lean ====
section
/-! SUPPORT. The operations of `Power.lean` keep the canonical form of the state. -/

namespace Sys2Proof.Machine

open Sys2Proof

theorem canon_modeWrite (a0 : State) (a1 : Nat) (a2 : Nat) (a3 : State → State) (h : a0.Canon) (hf3 : ∀ t0, t0.Canon → (a3 t0).Canon) :
    (State.modeWrite a0 a1 a2 a3).Canon := by
  unfold State.modeWrite
  repeat'
    first
    | with_reducible assumption
    | with_reducible refine canon_ite ?_ ?_
    | with_reducible refine hf3 _ ?_
    | with_reducible refine canon_irq _ _ _ ?_
    | with_reducible refine canon_fset _ _ _ _ ?_
    | dsimp only
    | split
    | with_reducible refine canon_upd ?_ rfl rfl rfl rfl rfl rfl

theorem canon_skipAsleep (a0 : State) (h : a0.Canon) : (State.skipAsleep a0).Canon := by
  unfold State.skipAsleep
  repeat'
    first
    | with_reducible assumption
    | with_reducible refine canon_ite ?_ ?_
    | dsimp only
    | split
    | with_reducible refine canon_upd ?_ rfl rfl rfl rfl rfl rfl

theorem canon_wake (a0 : State) (h : a0.Canon) : (State.wake a0).Canon := by
  unfold State.wake
  repeat'
    first
    | with_reducible assumption
    | with_reducible refine canon_ite ?_ ?_
    | with_reducible refine canon_fset _ _ _ _ ?_
    | with_reducible refine canon_lanesApply _ ?_
    | with_reducible refine canon_leaveSelfRef _ ?_
    | with_reducible refine canon_skipAsleep _ ?_
    | dsimp only
    | split
    | with_reducible refine canon_upd ?_ rfl rfl rfl rfl rfl rfl

theorem canon_goSleep (a0 : State) (h : a0.Canon) : (State.goSleep a0).Canon := by
  unfold State.goSleep
  repeat'
    first
    | with_reducible assumption
    | with_reducible refine canon_ite ?_ ?_
    | dsimp only
    | split
    | with_reducible refine canon_upd ?_ rfl rfl rfl rfl rfl rfl

theorem canon_goDeep (a0 : State) (h : a0.Canon) : (State.goDeep a0).Canon := by
  unfold State.goDeep
  repeat'
    first
    | with_reducible assumption
    | with_reducible refine canon_ite ?_ ?_
    | with_reducible refine canon_fset _ _ _ _ ?_
    | with_reducible refine canon_irq _ _ _ ?_
    | with_reducible refine canon_enterSelfRef _ ?_
    | with_reducible refine canon_setPlanRef _ _ ?_
    | dsimp only
    | split
    | with_reducible refine canon_upd ?_ rfl rfl rfl rfl rfl rfl

theorem canon_estimate (a0 : State) (a1 : Nat) (h : a0.Canon) : (State.estimate a0 a1).2.Canon := by
  unfold State.estimate
  repeat'
    first
    | with_reducible assumption
    | with_reducible refine canon_ite ?_ ?_
    | with_reducible refine canon_free _ ?_
    | with_reducible refine canon_foldl ?_ (fun _ _ _ => ?_)
    | with_reducible refine canon_foldl_fst ?_ (fun _ _ _ => ?_)
    | with_reducible refine canon_pair (by assumption) ?_
    | with_reducible refine canon_pair_snd (by assumption) ?_
    | dsimp only
    | split
    | with_reducible refine canon_upd ?_ rfl rfl rfl rfl rfl rfl

theorem canon_governorStep (a0 : State) (a1 : Nat) (h : a0.Canon) : (State.governorStep a0 a1).Canon := by
  unfold State.governorStep
  repeat'
    first
    | with_reducible assumption
    | with_reducible refine canon_ite ?_ ?_
    | with_reducible refine canon_fset _ _ _ _ ?_
    | with_reducible refine canon_estimate _ _ ?_
    | with_reducible refine canon_pair_snd (by assumption) ?_
    | dsimp only
    | split
    | with_reducible refine canon_upd ?_ rfl rfl rfl rfl rfl rfl

end Sys2Proof.Machine
end

