-- ==== Sys2Proof/Laws/Canon/RegCmds.lean ====
section
/-! SUPPORT. The operations of `RegCmds.lean` keep the canonical form of the state. -/

namespace Sys2Proof.Machine

open Sys2Proof

theorem canon_clampFields (a0 : State) (a1 : Nat) (a2 : Nat) (h : a0.Canon) : (State.clampFields a0 a1 a2).Canon := by
  unfold State.clampFields
  repeat'
    first
    | with_reducible assumption
    | with_reducible refine canon_ite ?_ ?_
    | with_reducible refine canon_fset _ _ _ _ ?_
    | with_reducible refine canon_foldl ?_ (fun _ _ _ => ?_)
    | with_reducible refine canon_foldl_fst ?_ (fun _ _ _ => ?_)
    | with_reducible refine canon_pair (by assumption) ?_
    | dsimp only
    | split
    | with_reducible refine canon_upd ?_ rfl rfl rfl rfl rfl rfl

theorem canon_afterWrite (a0 : State) (a1 : Nat) (a2 : Nat) (h : a0.Canon) : (State.afterWrite a0 a1 a2).Canon := by
  unfold State.afterWrite
  repeat'
    first
    | with_reducible assumption
    | with_reducible refine canon_ite ?_ ?_
    | with_reducible refine canon_updHalf _ ?_
    | with_reducible refine canon_floorCheck _ ?_
    | with_reducible refine canon_fset _ _ _ _ ?_
    | with_reducible refine canon_set0 _ _ _ ?_
    | with_reducible refine canon_colAdvance _ ?_
    | with_reducible refine canon_flushAll _ ?_
    | with_reducible refine canon_qShowFull _ _ _ ?_
    | with_reducible refine canon_laneFlush _ _ _ ?_
    | with_reducible refine canon_updSeals _ ?_
    | dsimp only
    | split
    | with_reducible refine canon_upd ?_ rfl rfl rfl rfl rfl rfl

theorem canon_stageTime (a0 : State) (a1 : Nat) (a2 : Nat) (h : a0.Canon) :
    ∀ t, (State.stageTime a0 a1 a2) = some t → t.Canon := by
  intro t ht
  unfold State.stageTime at ht
  dsimp only at ht
  repeat' split at ht
  all_goals cases ht
  repeat'
    first
    | with_reducible assumption
    | with_reducible refine canon_ite ?_ ?_
    | dsimp only
    | split
    | with_reducible refine canon_upd ?_ rfl rfl rfl rfl rfl rfl

theorem canon_headWrite (a0 : State) (a1 : Nat) (a2 : Nat) (a3 : Nat) (h : a0.Canon) : (State.headWrite a0 a1 a2 a3).Canon := by
  unfold State.headWrite
  repeat'
    first
    | with_reducible assumption
    | with_reducible refine canon_ite ?_ ?_
    | with_reducible refine canon_wr _ _ _ _ ?_
    | dsimp only
    | split
    | with_reducible refine canon_upd ?_ rfl rfl rfl rfl rfl rfl

theorem canon_plainWrite (a0 : State) (a1 : Path) (a2 : Nat) (a3 : Nat) (h : a0.Canon) :
    (State.plainWrite a0 a1 a2 a3).Canon := by
  unfold State.plainWrite
  repeat'
    first
    | with_reducible assumption
    | with_reducible refine canon_ite ?_ ?_
    | with_reducible refine canon_clampFields _ _ _ ?_
    | with_reducible refine canon_afterWrite _ _ _ ?_
    | with_reducible refine canon_set1 _ _ _ ?_
    | with_reducible refine canon_accWrite _ _ _ _ ?_
    | with_reducible refine canon_some (by assumption) (canon_stageTime _ _ _ ?_)
    | dsimp only
    | split
    | with_reducible refine canon_upd ?_ rfl rfl rfl rfl rfl rfl

theorem canon_portEnds (a0 : State) (a1 : Path) (a2 : Nat) (h : a0.Canon) : (State.portEnds a0 a1 a2).Canon := by
  unfold State.portEnds
  repeat'
    first
    | with_reducible assumption
    | with_reducible refine canon_ite ?_ ?_
    | dsimp only
    | split
    | with_reducible refine canon_upd ?_ rfl rfl rfl rfl rfl rfl

theorem canon_writeAt (a0 : State) (a1 : Path) (a2 : Nat) (a3 : Nat) (a4 : State → State) (h : a0.Canon) (hf4 : ∀ t0, t0.Canon → (a4 t0).Canon) :
    (State.writeAt a0 a1 a2 a3 a4).Canon := by
  unfold State.writeAt
  repeat'
    first
    | with_reducible assumption
    | with_reducible refine canon_ite ?_ ?_
    | with_reducible refine hf4 _ ?_
    | with_reducible refine canon_portEnds _ _ _ ?_
    | dsimp only
    | split
    | with_reducible refine canon_upd ?_ rfl rfl rfl rfl rfl rfl

theorem canon_clearCounters (a0 : State) (a1 : Nat) (h : a0.Canon) : (State.clearCounters a0 a1).Canon :=
  canon_regs h (spWf_filter _ _ h.1)

theorem canon_latchRead (a0 : State) (a1 : Path) (a2 : Nat) (h : a0.Canon) : (State.latchRead a0 a1 a2).Canon := by
  unfold State.latchRead
  repeat'
    first
    | with_reducible assumption
    | with_reducible refine canon_ite ?_ ?_
    | dsimp only
    | split
    | with_reducible refine canon_upd ?_ rfl rfl rfl rfl rfl rfl

end Sys2Proof.Machine
end

