-- ==== Sys2Proof/Laws/Canon/Sideband.lean ====
section
/-! SUPPORT. The operations of `Sideband.lean` keep the canonical form of the state. -/

namespace Sys2Proof.Machine

open Sys2Proof

theorem canon_forward (a0 : State) (a1 : Nat) (a2 : Nat) (a3 : Nat) (a4 : List Byte) (h : a0.Canon) :
    (State.forward a0 a1 a2 a3 a4).Canon := by
  unfold State.forward
  repeat'
    first
    | with_reducible assumption
    | with_reducible refine canon_ite ?_ ?_
    | dsimp only
    | split
    | with_reducible refine canon_upd ?_ rfl rfl rfl rfl rfl rfl

theorem canon_vendorIn (a0 : State) (a1 : Nat) (a2 : Nat) (a3 : Nat) (a4 : List Byte) (h : a0.Canon) :
    (State.vendorIn a0 a1 a2 a3 a4).Canon := by
  unfold State.vendorIn
  repeat'
    first
    | with_reducible assumption
    | with_reducible refine canon_ite ?_ ?_
    | with_reducible refine canon_sbKiosk _ _ _ _ _ _ ?_
    | with_reducible refine canon_kskBad _ ?_
    | with_reducible refine canon_forward _ _ _ _ _ ?_
    | with_reducible refine canon_relaySend _ _ _ _ ?_
    | with_reducible refine canon_kskIn _ _ _ _ ?_
    | dsimp only
    | split
    | with_reducible refine canon_upd ?_ rfl rfl rfl rfl rfl rfl

theorem canon_relayOut (a0 : State) (a1 : Nat) (a2 : List Byte) (h : a0.Canon) : (State.relayOut a0 a1 a2).Canon := by
  unfold State.relayOut
  repeat'
    first
    | with_reducible assumption
    | with_reducible refine canon_ite ?_ ?_
    | with_reducible refine canon_sbKiosk _ _ _ _ _ _ ?_
    | dsimp only
    | split
    | with_reducible refine canon_upd ?_ rfl rfl rfl rfl rfl rfl

theorem canon_relayWhole (a0 : State) (a1 : Nat) (a2 : Nat) (a3 : List Byte) (h : a0.Canon) :
    (State.relayWhole a0 a1 a2 a3).Canon := by
  unfold State.relayWhole
  repeat'
    first
    | with_reducible assumption
    | with_reducible refine canon_ite ?_ ?_
    | with_reducible refine canon_relayOut _ _ _ ?_
    | with_reducible refine canon_kskBad _ ?_
    | with_reducible refine canon_kskIn _ _ _ _ ?_
    | dsimp only
    | split
    | with_reducible refine canon_upd ?_ rfl rfl rfl rfl rfl rfl

theorem canon_relayPiece (a0 : State) (a1 : Nat) (a2 : List Nat) (h : a0.Canon) : (State.relayPiece a0 a1 a2).Canon := by
  unfold State.relayPiece
  repeat'
    first
    | with_reducible assumption
    | with_reducible refine canon_ite ?_ ?_
    | with_reducible refine canon_relayWhole _ _ _ _ ?_
    | dsimp only
    | split
    | with_reducible refine canon_upd ?_ rfl rfl rfl rfl rfl rfl

end Sys2Proof.Machine
end

