-- ==== Sys2Proof/Laws/Canon/Step.lean ====
section
/-! SUPPORT. The operations of `Step.lean` keep the canonical form of the state. -/

namespace Sys2Proof.Machine

open Sys2Proof

theorem canon_withFetchWord (a0 : State) (a1 : Nat) (a2 : Nat) (h : a0.Canon) :
    (State.withFetchWord a0 a1 a2).Canon := by
  unfold State.withFetchWord
  repeat'
    first
    | with_reducible assumption
    | with_reducible refine canon_ite ?_ ?_
    | dsimp only
    | split
    | with_reducible refine canon_upd ?_ rfl rfl rfl rfl rfl rfl

end Sys2Proof.Machine
end

