-- ==== Sys2Proof/Laws/Guards.lean ====
section
/-! SUPPORT. What the guards of the commands do: when a guard lets a command through, what it leaves otherwise, that it always
answers a next state, and that it keeps the canonical form. -/

namespace Sys2Proof.Machine

open Sys2Proof

/-- The outcome, if it is a next state, is a canonical one. -/
def Keeps (o : Host.Outcome State Fault Refusal) : Prop := ∀ t, o = .next t → t.Canon

/-- The outcome is a next state. -/
def Answers (o : Host.Outcome State Fault Refusal) : Prop := ∃ t, o = .next t

variable {s : State} {p off typ op : Nat} {f : State → State} {path : Path}

/-! ### A guard that lets the command through -/

theorem onUp_running (h : s.run = .running) : onUp s f = .next (f s) := by simp [onUp, h]

theorem onPage_running (h : s.run = .running) (hc : s.clkOk p = true) : onPage s p f = .next (f s) := by simp [onPage, h, hc]

theorem onPage_up (h : s.Up p) : onPage s p f = .next (f s) := onPage_running h.1 h.2

theorem onMover_up (h : s.Up Page.PGM) (hr : s.tower.selfRefresh = false) : onMover s f = .next (f s) := by
  simp only [onMover, onPage_up h, hr, Bool.false_eq_true, if_false]

/-- A message with room on its channel, from a valid node and not of the test gate, reaches its handler, its flits counted. -/
theorem onMsg_good {s1 : State} {vc : Nat} {resp gate : Bool} {src : BitVec 20} {msg : List Byte} (h : s.Up Page.FBP)
    (hc : s.rxCredits vc resp ≠ 0) (hn : ¬ 262143 < src.toNat) (hg : gate = false) (hs : s1 = s.msgIn vc resp gate src.toNat msg) :
    onMsg s vc resp gate src msg f = .next (f s1) := by
  subst hs hg
  simp only [onMsg, onPage_up h, if_neg hc, nodeMax, if_neg hn, Bool.false_and, Bool.false_eq_true, if_false]

theorem onReg_up (h : s.pageUp p = true) : onReg s p f = .next (f s) := by simp [onReg, h]

theorem pageUp_running (h : s.run = .running) : s.pageUp p = true := by simp [State.pageUp, h]

theorem pageUp_fallback (h : s.run = .fallback) : s.pageUp p = true := by simp [State.pageUp, h]

/-- A page that is up is reached by the register port (R486). -/
theorem portUp_pageUp (h : s.pageUp p = true) : s.portUp = true := by
  unfold State.pageUp at h
  unfold State.portUp
  split at h <;> simp_all

/-- A write that its page takes has its effect, and the access ends without an error. -/
theorem writeAt_takes {o : Nat} (h : s.takesWrite p o = true) : s.writeAt path p o f = (f s).portEnds path p := by
  have h1 : s.pageUp p = true := by simp only [State.takesWrite, Bool.and_eq_true] at h; exact h.1.2
  simp only [State.writeAt, portUp_pageUp h1, h, if_true]

/-- A write to a reserved page sets `pse_reg_err` and nothing else (R455, R502). -/
theorem writeAt_reserved {o : Nat} (hu : s.portUp = true) (h : 0x1D ≤ p) :
    s.writeAt .port p o f = { s with regErr := true } := by
  have h1 : s.takesWrite p o = false := by simp [State.takesWrite, Nat.not_lt.mpr h]
  simp [State.writeAt, State.portEnds, hu, h1, h]

theorem fromPath_port {g : State → Host.Outcome State Fault Refusal} : fromPath .port off s g = g s := rfl

/-- A core's write within its duties. -/
theorem fromPath_duty {c : Fin 4} {g : State → Host.Outcome State Fault Refusal} (hu : s.pageUp Page.MGC = true)
    (hr : s.fget F.MGC_CORE_STAT_STATE c = 1) (hm : coreMay c off = true) :
    fromPath (.core c) off s g = g s := by
  simp [fromPath, hu, hr, hm]

/-- A write a path may make is the register's own (R412). -/
theorem fromPath_may {g : State → Host.Outcome State Fault Refusal} (h : s.pathMay path off = true) : fromPath path off s g = g s := by
  cases path with
  | port => rfl
  | core c =>
    simp only [State.pathMay, Bool.and_eq_true, beq_iff_eq] at h
    exact fromPath_duty h.1.1 h.1.2 h.2

/-- A ring message for this engine, not its own: passed on, and taken. -/
theorem onRing_mine {hdr : BitVec 64} {payload : List (BitVec 64)} (h : s.run = .running) (ht : bits hdr.toNat 60 4 = typ)
    (hn : bits hdr.toNat 50 2 = payload.length) (ho : bits hdr.toNat 56 4 ≠ s.ownInst)
    (hm : bit hdr.toNat 49 = true ∨ bits hdr.toNat 52 4 = s.ownInst) :
    onRing s typ hdr payload f = .next (f { s with ring := s.ring ++ [⟨hdr.toNat, payload.map (·.toNat)⟩] }) := by
  have hm' : (bit hdr.toNat 49 || bits hdr.toNat 52 4 == s.ownInst) = true := by simpa using hm
  simp [onRing, h, ht, hn, ho]
  intro h1 h2
  rcases hm with hm | hm <;> simp_all

/-! ### A guard that does not -/

theorem onUp_off (h : s.run ≠ .running) : onUp s f = .next s := by simp [onUp, h]

theorem onPage_off (h : s.run ≠ .running) : onPage s p f = .next s := by simp [onPage, h]

theorem onPage_unclocked (h : s.clkOk p = false) : onPage s p f = .next s := by simp [onPage, h]

theorem onReg_off (h : s.pageUp p = false) : onReg s p f = .next s := by simp [onReg, h]

theorem pageUp_heldCold (h : s.run = .heldCold) : s.pageUp p = false := by simp [State.pageUp, h]

theorem pageUp_heldWarm (h : s.run = .heldWarm) : s.pageUp p = false := by simp [State.pageUp, h]

/-- A core's write to a register outside its duties (R412). -/
theorem fromPath_foreign {c : Fin 4} {g : State → Host.Outcome State Fault Refusal} (hu : s.pageUp Page.MGC = true)
    (hr : s.fget F.MGC_CORE_STAT_STATE c = 1) (hm : coreMay c off = false) :
    fromPath (.core c) off s g = .next (s.bumpSat F.MGC_CORE_STAT_FOREIGN_WR c) := by
  simp [fromPath, hu, hr, hm]

/-! ### Every guard answers -/

theorem answers_next {t : State} : Answers (.next t) := ⟨t, rfl⟩

theorem answers_onUp : Answers (onUp s f) := answers_next

theorem answers_onPage : Answers (onPage s p f) := answers_next

theorem answers_onReg : Answers (onReg s p f) := answers_next

theorem answers_fromPath {g : State → Host.Outcome State Fault Refusal} (h : Answers (g s)) : Answers (fromPath path off s g) := by
  unfold fromPath
  split
  · exact h
  · split
    · exact answers_next
    · split
      · exact h
      · exact answers_next

theorem answers_onRing {hdr : BitVec 64} {payload : List (BitVec 64)} : Answers (onRing s typ hdr payload f) := answers_next

theorem answers_onKiosk {mbox : Fin 4} {g : State → List Byte → Nat → State × Nat × List Byte} : Answers (onKiosk s mbox op g) :=
  answers_next

theorem answers_onSideband {pkts : List (List Byte)} {g : State → MctpMsg → State} : Answers (onSideband s pkts typ g) := answers_next

theorem answers_onControl {pkts : List (List Byte)} {g : State → MctpMsg → List Byte → State × List Byte} :
    Answers (onControl s pkts typ g) := answers_next

theorem answers_onMsg {vc : Nat} {resp gate : Bool} {src : BitVec 20} {msg : List Byte} :
    Answers (onMsg s vc resp gate src msg f) := answers_next

theorem answers_onTxn {hdr payload : List Byte} {g : State → Txn → State} : Answers (onTxn hdr payload s g) := answers_next

/-! ### Every guard keeps the canonical form -/

theorem keeps_next {t : State} (h : t.Canon) : Keeps (.next t) := by
  intro u hu
  cases hu
  exact h

theorem keeps_onUp (h : s.Canon) (hf : ∀ t : State, t.Canon → (f t).Canon) : Keeps (onUp s f) :=
  keeps_next (canon_ite (hf _ h) h)

theorem keeps_onPage (h : s.Canon) (hf : ∀ t : State, t.Canon → (f t).Canon) : Keeps (onPage s p f) :=
  keeps_next (canon_ite (hf _ h) h)

theorem keeps_onMover (h : s.Canon) (hf : ∀ t : State, t.Canon → (f t).Canon) : Keeps (onMover s f) :=
  keeps_onPage h fun t ht => canon_ite ht (hf t ht)

theorem keeps_onReg (h : s.Canon) (hf : ∀ t : State, t.Canon → (f t).Canon) : Keeps (onReg s p f) :=
  keeps_next (canon_ite (hf _ h) h)

theorem keeps_fromPath {g : State → Host.Outcome State Fault Refusal} (h : s.Canon) (hg : ∀ t : State, t.Canon → Keeps (g t)) :
    Keeps (fromPath path off s g) := by
  unfold fromPath
  split
  · exact hg _ h
  · split
    · exact keeps_next h
    · split
      · exact hg _ h
      · exact keeps_next (canon_bumpSat _ _ _ _ h)

theorem keeps_onRing {hdr : BitVec 64} {payload : List (BitVec 64)} (h : s.Canon) (hf : ∀ t : State, t.Canon → (f t).Canon) :
    Keeps (onRing s typ hdr payload f) := by
  refine keeps_next (canon_ite h ?_)
  have hp : ({ s with ring := s.ring ++ [⟨hdr.toNat, payload.map (·.toNat)⟩] } : State).Canon :=
    canon_upd h rfl rfl rfl rfl rfl rfl
  split
  · exact hp
  · exact hp
  · exact canon_ite h (canon_ite (hf _ hp) hp)
  · exact h

theorem keeps_onKiosk {mbox : Fin 4} {g : State → List Byte → Nat → State × Nat × List Byte} (h : s.Canon)
    (hg : ∀ t bs n, t.Canon → (g t bs n).1.Canon) : Keeps (onKiosk s mbox op g) :=
  keeps_onReg h (fun _ ht => canon_kskServe _ _ _ _ ht (fun _ _ _ hx => hg _ _ _ hx))

theorem keeps_onSideband {pkts : List (List Byte)} {g : State → MctpMsg → State} (h : s.Canon)
    (hg : ∀ t m, t.Canon → (g t m).Canon) : Keeps (onSideband s pkts typ g) := by
  refine keeps_onReg h (fun t ht => canon_ite ?_ ht)
  split
  · exact canon_ite (hg _ _ ht) ht
  · exact ht

theorem keeps_onControl {pkts : List (List Byte)} {g : State → MctpMsg → List Byte → State × List Byte} (h : s.Canon)
    (hg : ∀ t m bs, t.Canon → (g t m bs).1.Canon) : Keeps (onControl s pkts typ g) := by
  refine keeps_onSideband h (fun t m ht => ?_)
  dsimp only
  exact canon_ite ht (canon_sbSend _ _ _ _ _ (hg _ _ _ ht))

theorem keeps_onMsg {vc : Nat} {resp gate : Bool} {src : BitVec 20} {msg : List Byte} (h : s.Canon)
    (hf : ∀ t : State, t.Canon → (f t).Canon) : Keeps (onMsg s vc resp gate src msg f) := by
  refine keeps_onPage h (fun t ht => canon_ite (canon_noCredit _ _ _ ht) ?_)
  have hc := canon_msgIn t vc resp gate src.toNat msg ht
  exact canon_ite (canon_bump _ _ _ _ hc) (canon_ite (canon_gateDrop _ _ _ _ _ hc) (hf _ hc))

theorem keeps_onTxn {hdr payload : List Byte} {g : State → Txn → State} (h : s.Canon) (hg : ∀ t x, t.Canon → (g t x).Canon) :
    Keeps (onTxn hdr payload s g) := by
  refine keeps_onPage h (fun t ht => canon_ite (canon_noCredit _ _ _ ht) ?_)
  have hc := canon_received t (Txn.ofHeader hdr payload).vc (Txn.ofHeader hdr payload).resp (hdr ++ payload) ht
  exact canon_ite (canon_bump _ _ _ _ hc) (hg _ _ hc)

end Sys2Proof.Machine
end

