-- ==== Sys2Proof/Laws/Fabric.lean ====
section
/-! SUPPORT. Transactions that come in with a good header. -/

namespace Sys2Proof.Machine

open Sys2Proof

/-- A transaction with room on its channel and a good header reaches its handler, its flits counted. -/
theorem onTxn_good {s s1 : State} {hdr payload : List Byte} {t : Txn} {f : State → Txn → State} (h : s.run = .running)
    (hu : s.clkOk Page.FBP = true)
    (ht : t = Txn.ofHeader hdr payload) (hc : s.rxCredits t.vc t.resp ≠ 0) (hs : s1 = s.received t.vc t.resp (hdr ++ payload))
    (hl : hdr.length = 32) (hk : crcOk hdr 28 = true) (h1 : 1 ≤ t.typ) (h2 : t.typ ≤ 6) (hd : t.dst = s1.fget F.FBP_NODE_NODE)
    (h3 : t.dst ≤ 262143) (h4 : t.src ≤ 262143) : onTxn hdr payload s f = .next (f s1 t) := by
  subst ht
  subst hs
  unfold onTxn
  rw [onPage_running h hu]
  refine congrArg Host.Outcome.next ?_
  simp only [if_neg hc]
  rw [if_neg]
  rintro (h | h | h | h | h | h | h)
  · exact h hl
  · rw [hk] at h; cases h
  · omega
  · omega
  · exact h hd
  · exact absurd h (by unfold nodeMax; omega)
  · exact absurd h (by unfold nodeMax; omega)

/-- An inbound request of the command's type and operation is checked and made. -/
theorem inbound_good {s s1 : State} {hdr payload : List Byte} {t : Txn} {typ : Nat} {op : Option Nat} (h : s.run = .running)
    (hu : s.clkOk Page.FBP = true)
    (ht : t = Txn.ofHeader hdr payload) (hc : s.rxCredits t.vc t.resp ≠ 0) (hs : s1 = s.received t.vc t.resp (hdr ++ payload))
    (hl : hdr.length = 32) (hk : crcOk hdr 28 = true) (hy : t.typ = typ) (h1 : 1 ≤ typ) (h2 : typ ≤ 6)
    (hd : t.dst = s1.fget F.FBP_NODE_NODE) (h3 : t.dst ≤ 262143) (h4 : t.src ≤ 262143) (ho : op = none ∨ op = some t.op) :
    inbound typ op hdr payload s = .next (s1.fabRequest hdr t) := by
  unfold inbound
  rw [onTxn_good h hu ht hc hs hl hk (by omega) (by omega) hd h3 h4, if_pos ⟨hy, ho⟩]

end Sys2Proof.Machine
end

