-- ==== Sys2Proof/Laws/State.lean ====
section
/-! SUPPORT. What a register write leaves alone: every field of the state but the registers, one lemma per field and operation; and
what reading a register depends on. -/

namespace Sys2Proof.Machine

open Sys2Proof

variable (s : State)

/-! ### wr -/

@[simp] theorem wr_latched (off item v : Nat) : (s.wr off item v).latched = s.latched := rfl
@[simp] theorem wr_run (off item v : Nat) : (s.wr off item v).run = s.run := rfl
@[simp] theorem wr_eru (off item v : Nat) : (s.wr off item v).eru = s.eru := rfl
@[simp] theorem wr_ctr (off item v : Nat) : (s.wr off item v).ctr = s.ctr := rfl
@[simp] theorem wr_tick (off item v : Nat) : (s.wr off item v).tick = s.tick := rfl
@[simp] theorem wr_plans (off item v : Nat) : (s.wr off item v).plans = s.plans := rfl
@[simp] theorem wr_tower (off item v : Nat) : (s.wr off item v).tower = s.tower := rfl
@[simp] theorem wr_t0 (off item v : Nat) : (s.wr off item v).t0 = s.t0 := rfl
@[simp] theorem wr_ext (off item v : Nat) : (s.wr off item v).ext = s.ext := rfl
@[simp] theorem wr_xt (off item v : Nat) : (s.wr off item v).xt = s.xt := rfl
@[simp] theorem wr_pages (off item v : Nat) : (s.wr off item v).pages = s.pages := rfl
@[simp] theorem wr_freeCtr (off item v : Nat) : (s.wr off item v).freeCtr = s.freeCtr := rfl
@[simp] theorem wr_coding (off item v : Nat) : (s.wr off item v).coding = s.coding := rfl
@[simp] theorem wr_fab (off item v : Nat) : (s.wr off item v).fab = s.fab := rfl
@[simp] theorem wr_host (off item v : Nat) : (s.wr off item v).host = s.host := rfl
@[simp] theorem wr_upd (off item v : Nat) : (s.wr off item v).upd = s.upd := rfl
@[simp] theorem wr_lane (off item v : Nat) : (s.wr off item v).lane = s.lane := rfl
@[simp] theorem wr_col (off item v : Nat) : (s.wr off item v).col = s.col := rfl
@[simp] theorem wr_ring (off item v : Nat) : (s.wr off item v).ring = s.ring := rfl
@[simp] theorem wr_ptc (off item v : Nat) : (s.wr off item v).ptc = s.ptc := rfl
@[simp] theorem wr_arb (off item v : Nat) : (s.wr off item v).arb = s.arb := rfl
@[simp] theorem wr_arc (off item v : Nat) : (s.wr off item v).arc = s.arc := rfl
@[simp] theorem wr_mgmt (off item v : Nat) : (s.wr off item v).mgmt = s.mgmt := rfl
@[simp] theorem wr_pwr (off item v : Nat) : (s.wr off item v).pwr = s.pwr := rfl
@[simp] theorem wr_turns (off item v : Nat) : (s.wr off item v).turns = s.turns := rfl
@[simp] theorem wr_rdata (off item v : Nat) : (s.wr off item v).rdata = s.rdata := rfl
@[simp] theorem wr_regErr (off item v : Nat) : (s.wr off item v).regErr = s.regErr := rfl
@[simp] theorem wr_pending (off item v : Nat) : (s.wr off item v).pending = s.pending := rfl

/-! ### fset -/

@[simp] theorem fset_latched (f : Fld) (item v : Nat) : (s.fset f item v).latched = s.latched := rfl
@[simp] theorem fset_run (f : Fld) (item v : Nat) : (s.fset f item v).run = s.run := rfl
@[simp] theorem fset_eru (f : Fld) (item v : Nat) : (s.fset f item v).eru = s.eru := rfl
@[simp] theorem fset_ctr (f : Fld) (item v : Nat) : (s.fset f item v).ctr = s.ctr := rfl
@[simp] theorem fset_tick (f : Fld) (item v : Nat) : (s.fset f item v).tick = s.tick := rfl
@[simp] theorem fset_plans (f : Fld) (item v : Nat) : (s.fset f item v).plans = s.plans := rfl
@[simp] theorem fset_tower (f : Fld) (item v : Nat) : (s.fset f item v).tower = s.tower := rfl
@[simp] theorem fset_t0 (f : Fld) (item v : Nat) : (s.fset f item v).t0 = s.t0 := rfl
@[simp] theorem fset_ext (f : Fld) (item v : Nat) : (s.fset f item v).ext = s.ext := rfl
@[simp] theorem fset_xt (f : Fld) (item v : Nat) : (s.fset f item v).xt = s.xt := rfl
@[simp] theorem fset_pages (f : Fld) (item v : Nat) : (s.fset f item v).pages = s.pages := rfl
@[simp] theorem fset_freeCtr (f : Fld) (item v : Nat) : (s.fset f item v).freeCtr = s.freeCtr := rfl
@[simp] theorem fset_coding (f : Fld) (item v : Nat) : (s.fset f item v).coding = s.coding := rfl
@[simp] theorem fset_fab (f : Fld) (item v : Nat) : (s.fset f item v).fab = s.fab := rfl
@[simp] theorem fset_host (f : Fld) (item v : Nat) : (s.fset f item v).host = s.host := rfl
@[simp] theorem fset_upd (f : Fld) (item v : Nat) : (s.fset f item v).upd = s.upd := rfl
@[simp] theorem fset_lane (f : Fld) (item v : Nat) : (s.fset f item v).lane = s.lane := rfl
@[simp] theorem fset_col (f : Fld) (item v : Nat) : (s.fset f item v).col = s.col := rfl
@[simp] theorem fset_ring (f : Fld) (item v : Nat) : (s.fset f item v).ring = s.ring := rfl
@[simp] theorem fset_ptc (f : Fld) (item v : Nat) : (s.fset f item v).ptc = s.ptc := rfl
@[simp] theorem fset_arb (f : Fld) (item v : Nat) : (s.fset f item v).arb = s.arb := rfl
@[simp] theorem fset_arc (f : Fld) (item v : Nat) : (s.fset f item v).arc = s.arc := rfl
@[simp] theorem fset_mgmt (f : Fld) (item v : Nat) : (s.fset f item v).mgmt = s.mgmt := rfl
@[simp] theorem fset_pwr (f : Fld) (item v : Nat) : (s.fset f item v).pwr = s.pwr := rfl
@[simp] theorem fset_turns (f : Fld) (item v : Nat) : (s.fset f item v).turns = s.turns := rfl
@[simp] theorem fset_rdata (f : Fld) (item v : Nat) : (s.fset f item v).rdata = s.rdata := rfl
@[simp] theorem fset_regErr (f : Fld) (item v : Nat) : (s.fset f item v).regErr = s.regErr := rfl
@[simp] theorem fset_pending (f : Fld) (item v : Nat) : (s.fset f item v).pending = s.pending := rfl

/-! ### set1 -/

@[simp] theorem set1_latched (f : Fld) (item : Nat) : (s.set1 f item).latched = s.latched := rfl
@[simp] theorem set1_run (f : Fld) (item : Nat) : (s.set1 f item).run = s.run := rfl
@[simp] theorem set1_eru (f : Fld) (item : Nat) : (s.set1 f item).eru = s.eru := rfl
@[simp] theorem set1_ctr (f : Fld) (item : Nat) : (s.set1 f item).ctr = s.ctr := rfl
@[simp] theorem set1_tick (f : Fld) (item : Nat) : (s.set1 f item).tick = s.tick := rfl
@[simp] theorem set1_plans (f : Fld) (item : Nat) : (s.set1 f item).plans = s.plans := rfl
@[simp] theorem set1_tower (f : Fld) (item : Nat) : (s.set1 f item).tower = s.tower := rfl
@[simp] theorem set1_t0 (f : Fld) (item : Nat) : (s.set1 f item).t0 = s.t0 := rfl
@[simp] theorem set1_ext (f : Fld) (item : Nat) : (s.set1 f item).ext = s.ext := rfl
@[simp] theorem set1_xt (f : Fld) (item : Nat) : (s.set1 f item).xt = s.xt := rfl
@[simp] theorem set1_pages (f : Fld) (item : Nat) : (s.set1 f item).pages = s.pages := rfl
@[simp] theorem set1_freeCtr (f : Fld) (item : Nat) : (s.set1 f item).freeCtr = s.freeCtr := rfl
@[simp] theorem set1_coding (f : Fld) (item : Nat) : (s.set1 f item).coding = s.coding := rfl
@[simp] theorem set1_fab (f : Fld) (item : Nat) : (s.set1 f item).fab = s.fab := rfl
@[simp] theorem set1_host (f : Fld) (item : Nat) : (s.set1 f item).host = s.host := rfl
@[simp] theorem set1_upd (f : Fld) (item : Nat) : (s.set1 f item).upd = s.upd := rfl
@[simp] theorem set1_lane (f : Fld) (item : Nat) : (s.set1 f item).lane = s.lane := rfl
@[simp] theorem set1_col (f : Fld) (item : Nat) : (s.set1 f item).col = s.col := rfl
@[simp] theorem set1_ring (f : Fld) (item : Nat) : (s.set1 f item).ring = s.ring := rfl
@[simp] theorem set1_ptc (f : Fld) (item : Nat) : (s.set1 f item).ptc = s.ptc := rfl
@[simp] theorem set1_arb (f : Fld) (item : Nat) : (s.set1 f item).arb = s.arb := rfl
@[simp] theorem set1_arc (f : Fld) (item : Nat) : (s.set1 f item).arc = s.arc := rfl
@[simp] theorem set1_mgmt (f : Fld) (item : Nat) : (s.set1 f item).mgmt = s.mgmt := rfl
@[simp] theorem set1_pwr (f : Fld) (item : Nat) : (s.set1 f item).pwr = s.pwr := rfl
@[simp] theorem set1_turns (f : Fld) (item : Nat) : (s.set1 f item).turns = s.turns := rfl
@[simp] theorem set1_rdata (f : Fld) (item : Nat) : (s.set1 f item).rdata = s.rdata := rfl
@[simp] theorem set1_regErr (f : Fld) (item : Nat) : (s.set1 f item).regErr = s.regErr := rfl
@[simp] theorem set1_pending (f : Fld) (item : Nat) : (s.set1 f item).pending = s.pending := rfl

/-! ### set0 -/

@[simp] theorem set0_latched (f : Fld) (item : Nat) : (s.set0 f item).latched = s.latched := rfl
@[simp] theorem set0_run (f : Fld) (item : Nat) : (s.set0 f item).run = s.run := rfl
@[simp] theorem set0_eru (f : Fld) (item : Nat) : (s.set0 f item).eru = s.eru := rfl
@[simp] theorem set0_ctr (f : Fld) (item : Nat) : (s.set0 f item).ctr = s.ctr := rfl
@[simp] theorem set0_tick (f : Fld) (item : Nat) : (s.set0 f item).tick = s.tick := rfl
@[simp] theorem set0_plans (f : Fld) (item : Nat) : (s.set0 f item).plans = s.plans := rfl
@[simp] theorem set0_tower (f : Fld) (item : Nat) : (s.set0 f item).tower = s.tower := rfl
@[simp] theorem set0_t0 (f : Fld) (item : Nat) : (s.set0 f item).t0 = s.t0 := rfl
@[simp] theorem set0_ext (f : Fld) (item : Nat) : (s.set0 f item).ext = s.ext := rfl
@[simp] theorem set0_xt (f : Fld) (item : Nat) : (s.set0 f item).xt = s.xt := rfl
@[simp] theorem set0_pages (f : Fld) (item : Nat) : (s.set0 f item).pages = s.pages := rfl
@[simp] theorem set0_freeCtr (f : Fld) (item : Nat) : (s.set0 f item).freeCtr = s.freeCtr := rfl
@[simp] theorem set0_coding (f : Fld) (item : Nat) : (s.set0 f item).coding = s.coding := rfl
@[simp] theorem set0_fab (f : Fld) (item : Nat) : (s.set0 f item).fab = s.fab := rfl
@[simp] theorem set0_host (f : Fld) (item : Nat) : (s.set0 f item).host = s.host := rfl
@[simp] theorem set0_upd (f : Fld) (item : Nat) : (s.set0 f item).upd = s.upd := rfl
@[simp] theorem set0_lane (f : Fld) (item : Nat) : (s.set0 f item).lane = s.lane := rfl
@[simp] theorem set0_col (f : Fld) (item : Nat) : (s.set0 f item).col = s.col := rfl
@[simp] theorem set0_ring (f : Fld) (item : Nat) : (s.set0 f item).ring = s.ring := rfl
@[simp] theorem set0_ptc (f : Fld) (item : Nat) : (s.set0 f item).ptc = s.ptc := rfl
@[simp] theorem set0_arb (f : Fld) (item : Nat) : (s.set0 f item).arb = s.arb := rfl
@[simp] theorem set0_arc (f : Fld) (item : Nat) : (s.set0 f item).arc = s.arc := rfl
@[simp] theorem set0_mgmt (f : Fld) (item : Nat) : (s.set0 f item).mgmt = s.mgmt := rfl
@[simp] theorem set0_pwr (f : Fld) (item : Nat) : (s.set0 f item).pwr = s.pwr := rfl
@[simp] theorem set0_turns (f : Fld) (item : Nat) : (s.set0 f item).turns = s.turns := rfl
@[simp] theorem set0_rdata (f : Fld) (item : Nat) : (s.set0 f item).rdata = s.rdata := rfl
@[simp] theorem set0_regErr (f : Fld) (item : Nat) : (s.set0 f item).regErr = s.regErr := rfl
@[simp] theorem set0_pending (f : Fld) (item : Nat) : (s.set0 f item).pending = s.pending := rfl

/-! ### bump -/

@[simp] theorem bump_latched (f : Fld) (item n : Nat) : (s.bump f item n).latched = s.latched := rfl
@[simp] theorem bump_run (f : Fld) (item n : Nat) : (s.bump f item n).run = s.run := rfl
@[simp] theorem bump_eru (f : Fld) (item n : Nat) : (s.bump f item n).eru = s.eru := rfl
@[simp] theorem bump_ctr (f : Fld) (item n : Nat) : (s.bump f item n).ctr = s.ctr := rfl
@[simp] theorem bump_tick (f : Fld) (item n : Nat) : (s.bump f item n).tick = s.tick := rfl
@[simp] theorem bump_plans (f : Fld) (item n : Nat) : (s.bump f item n).plans = s.plans := rfl
@[simp] theorem bump_tower (f : Fld) (item n : Nat) : (s.bump f item n).tower = s.tower := rfl
@[simp] theorem bump_t0 (f : Fld) (item n : Nat) : (s.bump f item n).t0 = s.t0 := rfl
@[simp] theorem bump_ext (f : Fld) (item n : Nat) : (s.bump f item n).ext = s.ext := rfl
@[simp] theorem bump_xt (f : Fld) (item n : Nat) : (s.bump f item n).xt = s.xt := rfl
@[simp] theorem bump_pages (f : Fld) (item n : Nat) : (s.bump f item n).pages = s.pages := rfl
@[simp] theorem bump_freeCtr (f : Fld) (item n : Nat) : (s.bump f item n).freeCtr = s.freeCtr := rfl
@[simp] theorem bump_coding (f : Fld) (item n : Nat) : (s.bump f item n).coding = s.coding := rfl
@[simp] theorem bump_fab (f : Fld) (item n : Nat) : (s.bump f item n).fab = s.fab := rfl
@[simp] theorem bump_host (f : Fld) (item n : Nat) : (s.bump f item n).host = s.host := rfl
@[simp] theorem bump_upd (f : Fld) (item n : Nat) : (s.bump f item n).upd = s.upd := rfl
@[simp] theorem bump_lane (f : Fld) (item n : Nat) : (s.bump f item n).lane = s.lane := rfl
@[simp] theorem bump_col (f : Fld) (item n : Nat) : (s.bump f item n).col = s.col := rfl
@[simp] theorem bump_ring (f : Fld) (item n : Nat) : (s.bump f item n).ring = s.ring := rfl
@[simp] theorem bump_ptc (f : Fld) (item n : Nat) : (s.bump f item n).ptc = s.ptc := rfl
@[simp] theorem bump_arb (f : Fld) (item n : Nat) : (s.bump f item n).arb = s.arb := rfl
@[simp] theorem bump_arc (f : Fld) (item n : Nat) : (s.bump f item n).arc = s.arc := rfl
@[simp] theorem bump_mgmt (f : Fld) (item n : Nat) : (s.bump f item n).mgmt = s.mgmt := rfl
@[simp] theorem bump_pwr (f : Fld) (item n : Nat) : (s.bump f item n).pwr = s.pwr := rfl
@[simp] theorem bump_turns (f : Fld) (item n : Nat) : (s.bump f item n).turns = s.turns := rfl
@[simp] theorem bump_rdata (f : Fld) (item n : Nat) : (s.bump f item n).rdata = s.rdata := rfl
@[simp] theorem bump_regErr (f : Fld) (item n : Nat) : (s.bump f item n).regErr = s.regErr := rfl
@[simp] theorem bump_pending (f : Fld) (item n : Nat) : (s.bump f item n).pending = s.pending := rfl

/-! ### bumpSat -/

@[simp] theorem bumpSat_latched (f : Fld) (item n : Nat) : (s.bumpSat f item n).latched = s.latched := rfl
@[simp] theorem bumpSat_run (f : Fld) (item n : Nat) : (s.bumpSat f item n).run = s.run := rfl
@[simp] theorem bumpSat_eru (f : Fld) (item n : Nat) : (s.bumpSat f item n).eru = s.eru := rfl
@[simp] theorem bumpSat_ctr (f : Fld) (item n : Nat) : (s.bumpSat f item n).ctr = s.ctr := rfl
@[simp] theorem bumpSat_tick (f : Fld) (item n : Nat) : (s.bumpSat f item n).tick = s.tick := rfl
@[simp] theorem bumpSat_plans (f : Fld) (item n : Nat) : (s.bumpSat f item n).plans = s.plans := rfl
@[simp] theorem bumpSat_tower (f : Fld) (item n : Nat) : (s.bumpSat f item n).tower = s.tower := rfl
@[simp] theorem bumpSat_t0 (f : Fld) (item n : Nat) : (s.bumpSat f item n).t0 = s.t0 := rfl
@[simp] theorem bumpSat_ext (f : Fld) (item n : Nat) : (s.bumpSat f item n).ext = s.ext := rfl
@[simp] theorem bumpSat_xt (f : Fld) (item n : Nat) : (s.bumpSat f item n).xt = s.xt := rfl
@[simp] theorem bumpSat_pages (f : Fld) (item n : Nat) : (s.bumpSat f item n).pages = s.pages := rfl
@[simp] theorem bumpSat_freeCtr (f : Fld) (item n : Nat) : (s.bumpSat f item n).freeCtr = s.freeCtr := rfl
@[simp] theorem bumpSat_coding (f : Fld) (item n : Nat) : (s.bumpSat f item n).coding = s.coding := rfl
@[simp] theorem bumpSat_fab (f : Fld) (item n : Nat) : (s.bumpSat f item n).fab = s.fab := rfl
@[simp] theorem bumpSat_host (f : Fld) (item n : Nat) : (s.bumpSat f item n).host = s.host := rfl
@[simp] theorem bumpSat_upd (f : Fld) (item n : Nat) : (s.bumpSat f item n).upd = s.upd := rfl
@[simp] theorem bumpSat_lane (f : Fld) (item n : Nat) : (s.bumpSat f item n).lane = s.lane := rfl
@[simp] theorem bumpSat_col (f : Fld) (item n : Nat) : (s.bumpSat f item n).col = s.col := rfl
@[simp] theorem bumpSat_ring (f : Fld) (item n : Nat) : (s.bumpSat f item n).ring = s.ring := rfl
@[simp] theorem bumpSat_ptc (f : Fld) (item n : Nat) : (s.bumpSat f item n).ptc = s.ptc := rfl
@[simp] theorem bumpSat_arb (f : Fld) (item n : Nat) : (s.bumpSat f item n).arb = s.arb := rfl
@[simp] theorem bumpSat_arc (f : Fld) (item n : Nat) : (s.bumpSat f item n).arc = s.arc := rfl
@[simp] theorem bumpSat_mgmt (f : Fld) (item n : Nat) : (s.bumpSat f item n).mgmt = s.mgmt := rfl
@[simp] theorem bumpSat_pwr (f : Fld) (item n : Nat) : (s.bumpSat f item n).pwr = s.pwr := rfl
@[simp] theorem bumpSat_turns (f : Fld) (item n : Nat) : (s.bumpSat f item n).turns = s.turns := rfl
@[simp] theorem bumpSat_rdata (f : Fld) (item n : Nat) : (s.bumpSat f item n).rdata = s.rdata := rfl
@[simp] theorem bumpSat_regErr (f : Fld) (item n : Nat) : (s.bumpSat f item n).regErr = s.regErr := rfl
@[simp] theorem bumpSat_pending (f : Fld) (item n : Nat) : (s.bumpSat f item n).pending = s.pending := rfl

/-! ### wr64 -/

@[simp] theorem wr64_latched (lo item v : Nat) : (s.wr64 lo item v).latched = s.latched := rfl
@[simp] theorem wr64_run (lo item v : Nat) : (s.wr64 lo item v).run = s.run := rfl
@[simp] theorem wr64_eru (lo item v : Nat) : (s.wr64 lo item v).eru = s.eru := rfl
@[simp] theorem wr64_ctr (lo item v : Nat) : (s.wr64 lo item v).ctr = s.ctr := rfl
@[simp] theorem wr64_tick (lo item v : Nat) : (s.wr64 lo item v).tick = s.tick := rfl
@[simp] theorem wr64_plans (lo item v : Nat) : (s.wr64 lo item v).plans = s.plans := rfl
@[simp] theorem wr64_tower (lo item v : Nat) : (s.wr64 lo item v).tower = s.tower := rfl
@[simp] theorem wr64_t0 (lo item v : Nat) : (s.wr64 lo item v).t0 = s.t0 := rfl
@[simp] theorem wr64_ext (lo item v : Nat) : (s.wr64 lo item v).ext = s.ext := rfl
@[simp] theorem wr64_xt (lo item v : Nat) : (s.wr64 lo item v).xt = s.xt := rfl
@[simp] theorem wr64_pages (lo item v : Nat) : (s.wr64 lo item v).pages = s.pages := rfl
@[simp] theorem wr64_freeCtr (lo item v : Nat) : (s.wr64 lo item v).freeCtr = s.freeCtr := rfl
@[simp] theorem wr64_coding (lo item v : Nat) : (s.wr64 lo item v).coding = s.coding := rfl
@[simp] theorem wr64_fab (lo item v : Nat) : (s.wr64 lo item v).fab = s.fab := rfl
@[simp] theorem wr64_host (lo item v : Nat) : (s.wr64 lo item v).host = s.host := rfl
@[simp] theorem wr64_upd (lo item v : Nat) : (s.wr64 lo item v).upd = s.upd := rfl
@[simp] theorem wr64_lane (lo item v : Nat) : (s.wr64 lo item v).lane = s.lane := rfl
@[simp] theorem wr64_col (lo item v : Nat) : (s.wr64 lo item v).col = s.col := rfl
@[simp] theorem wr64_ring (lo item v : Nat) : (s.wr64 lo item v).ring = s.ring := rfl
@[simp] theorem wr64_ptc (lo item v : Nat) : (s.wr64 lo item v).ptc = s.ptc := rfl
@[simp] theorem wr64_arb (lo item v : Nat) : (s.wr64 lo item v).arb = s.arb := rfl
@[simp] theorem wr64_arc (lo item v : Nat) : (s.wr64 lo item v).arc = s.arc := rfl
@[simp] theorem wr64_mgmt (lo item v : Nat) : (s.wr64 lo item v).mgmt = s.mgmt := rfl
@[simp] theorem wr64_pwr (lo item v : Nat) : (s.wr64 lo item v).pwr = s.pwr := rfl
@[simp] theorem wr64_turns (lo item v : Nat) : (s.wr64 lo item v).turns = s.turns := rfl
@[simp] theorem wr64_rdata (lo item v : Nat) : (s.wr64 lo item v).rdata = s.rdata := rfl
@[simp] theorem wr64_regErr (lo item v : Nat) : (s.wr64 lo item v).regErr = s.regErr := rfl
@[simp] theorem wr64_pending (lo item v : Nat) : (s.wr64 lo item v).pending = s.pending := rfl

/-! ### irq -/

@[simp] theorem irq_latched (page b : Nat) : (s.irq page b).latched = s.latched := rfl
@[simp] theorem irq_run (page b : Nat) : (s.irq page b).run = s.run := rfl
@[simp] theorem irq_eru (page b : Nat) : (s.irq page b).eru = s.eru := rfl
@[simp] theorem irq_ctr (page b : Nat) : (s.irq page b).ctr = s.ctr := rfl
@[simp] theorem irq_tick (page b : Nat) : (s.irq page b).tick = s.tick := rfl
@[simp] theorem irq_plans (page b : Nat) : (s.irq page b).plans = s.plans := rfl
@[simp] theorem irq_tower (page b : Nat) : (s.irq page b).tower = s.tower := rfl
@[simp] theorem irq_t0 (page b : Nat) : (s.irq page b).t0 = s.t0 := rfl
@[simp] theorem irq_ext (page b : Nat) : (s.irq page b).ext = s.ext := rfl
@[simp] theorem irq_xt (page b : Nat) : (s.irq page b).xt = s.xt := rfl
@[simp] theorem irq_pages (page b : Nat) : (s.irq page b).pages = s.pages := rfl
@[simp] theorem irq_freeCtr (page b : Nat) : (s.irq page b).freeCtr = s.freeCtr := rfl
@[simp] theorem irq_coding (page b : Nat) : (s.irq page b).coding = s.coding := rfl
@[simp] theorem irq_fab (page b : Nat) : (s.irq page b).fab = s.fab := rfl
@[simp] theorem irq_host (page b : Nat) : (s.irq page b).host = s.host := rfl
@[simp] theorem irq_upd (page b : Nat) : (s.irq page b).upd = s.upd := rfl
@[simp] theorem irq_lane (page b : Nat) : (s.irq page b).lane = s.lane := rfl
@[simp] theorem irq_col (page b : Nat) : (s.irq page b).col = s.col := rfl
@[simp] theorem irq_ring (page b : Nat) : (s.irq page b).ring = s.ring := rfl
@[simp] theorem irq_ptc (page b : Nat) : (s.irq page b).ptc = s.ptc := rfl
@[simp] theorem irq_arb (page b : Nat) : (s.irq page b).arb = s.arb := rfl
@[simp] theorem irq_arc (page b : Nat) : (s.irq page b).arc = s.arc := rfl
@[simp] theorem irq_mgmt (page b : Nat) : (s.irq page b).mgmt = s.mgmt := rfl
@[simp] theorem irq_pwr (page b : Nat) : (s.irq page b).pwr = s.pwr := rfl
@[simp] theorem irq_turns (page b : Nat) : (s.irq page b).turns = s.turns := rfl
@[simp] theorem irq_rdata (page b : Nat) : (s.irq page b).rdata = s.rdata := rfl
@[simp] theorem irq_regErr (page b : Nat) : (s.irq page b).regErr = s.regErr := rfl
@[simp] theorem irq_pending (page b : Nat) : (s.irq page b).pending = s.pending := rfl

/-! ### active -/

@[simp] theorem active_regs (kind n : Nat) : (s.active kind n).regs = s.regs := by unfold State.active; split <;> rfl
@[simp] theorem active_latched (kind n : Nat) : (s.active kind n).latched = s.latched := by unfold State.active; split <;> rfl
@[simp] theorem active_run (kind n : Nat) : (s.active kind n).run = s.run := by unfold State.active; split <;> rfl
@[simp] theorem active_eru (kind n : Nat) : (s.active kind n).eru = s.eru := by unfold State.active; split <;> rfl
@[simp] theorem active_ctr (kind n : Nat) : (s.active kind n).ctr = s.ctr := by unfold State.active; split <;> rfl
@[simp] theorem active_tick (kind n : Nat) : (s.active kind n).tick = s.tick := by unfold State.active; split <;> rfl
@[simp] theorem active_plans (kind n : Nat) : (s.active kind n).plans = s.plans := by unfold State.active; split <;> rfl
@[simp] theorem active_tower (kind n : Nat) : (s.active kind n).tower = s.tower := by unfold State.active; split <;> rfl
@[simp] theorem active_t0 (kind n : Nat) : (s.active kind n).t0 = s.t0 := by unfold State.active; split <;> rfl
@[simp] theorem active_ext (kind n : Nat) : (s.active kind n).ext = s.ext := by unfold State.active; split <;> rfl
@[simp] theorem active_xt (kind n : Nat) : (s.active kind n).xt = s.xt := by unfold State.active; split <;> rfl
@[simp] theorem active_pages (kind n : Nat) : (s.active kind n).pages = s.pages := by unfold State.active; split <;> rfl
@[simp] theorem active_freeCtr (kind n : Nat) : (s.active kind n).freeCtr = s.freeCtr := by unfold State.active; split <;> rfl
@[simp] theorem active_coding (kind n : Nat) : (s.active kind n).coding = s.coding := by unfold State.active; split <;> rfl
@[simp] theorem active_fab (kind n : Nat) : (s.active kind n).fab = s.fab := by unfold State.active; split <;> rfl
@[simp] theorem active_host (kind n : Nat) : (s.active kind n).host = s.host := by unfold State.active; split <;> rfl
@[simp] theorem active_upd (kind n : Nat) : (s.active kind n).upd = s.upd := by unfold State.active; split <;> rfl
@[simp] theorem active_lane (kind n : Nat) : (s.active kind n).lane = s.lane := by unfold State.active; split <;> rfl
@[simp] theorem active_col (kind n : Nat) : (s.active kind n).col = s.col := by unfold State.active; split <;> rfl
@[simp] theorem active_ring (kind n : Nat) : (s.active kind n).ring = s.ring := by unfold State.active; split <;> rfl
@[simp] theorem active_ptc (kind n : Nat) : (s.active kind n).ptc = s.ptc := by unfold State.active; split <;> rfl
@[simp] theorem active_arb (kind n : Nat) : (s.active kind n).arb = s.arb := by unfold State.active; split <;> rfl
@[simp] theorem active_arc (kind n : Nat) : (s.active kind n).arc = s.arc := by unfold State.active; split <;> rfl
@[simp] theorem active_mgmt (kind n : Nat) : (s.active kind n).mgmt = s.mgmt := by unfold State.active; split <;> rfl
@[simp] theorem active_turns (kind n : Nat) : (s.active kind n).turns = s.turns := by unfold State.active; split <;> rfl
@[simp] theorem active_rdata (kind n : Nat) : (s.active kind n).rdata = s.rdata := by unfold State.active; split <;> rfl
@[simp] theorem active_regErr (kind n : Nat) : (s.active kind n).regErr = s.regErr := by unfold State.active; split <;> rfl
@[simp] theorem active_pending (kind n : Nat) : (s.active kind n).pending = s.pending := by unfold State.active; split <;> rfl

/-! ### Reading depends on the registers alone -/

theorem rd_congr {s t : State} (h : s.regs = t.regs) (off item : Nat) : s.rd off item = t.rd off item := by simp only [State.rd, h]

theorem fget_congr {s t : State} (h : s.regs = t.regs) (f : Fld) (item : Nat) : s.fget f item = t.fget f item := by
  simp only [State.fget, rd_congr h]

end Sys2Proof.Machine
end

