-- ==== Sys2Proof/Laws/Fields.lean ====
section
/-! SUPPORT. Laws of the register operations: what a write to a register or a field leaves there, and what it leaves alone. -/

namespace Sys2Proof.Machine

open Sys2Proof

/-! ### Bit fields -/

theorem bits_setBits_same (n lo w v : Nat) : bits (setBits n lo w v) lo w = v % 2 ^ w := by
  unfold bits setBits
  have h1 : n % 2 ^ lo < 2 ^ lo := Nat.mod_lt _ (Nat.two_pow_pos lo)
  have h2 : v % 2 ^ w < 2 ^ w := Nat.mod_lt _ (Nat.two_pow_pos w)
  rw [Nat.shiftRight_eq_div_pow, Nat.pow_add,
    show n % 2 ^ lo + v % 2 ^ w * 2 ^ lo + n >>> (lo + w) * (2 ^ lo * 2 ^ w)
      = n % 2 ^ lo + 2 ^ lo * (v % 2 ^ w + 2 ^ w * (n >>> (lo + w))) by
        rw [Nat.mul_add, Nat.mul_comm (v % 2 ^ w), Nat.mul_comm (n >>> (lo + w)), Nat.mul_assoc, Nat.add_assoc],
    Nat.add_mul_div_left _ _ (Nat.two_pow_pos lo), Nat.div_eq_of_lt h1, Nat.zero_add, Nat.add_mul_mod_self_left,
    Nat.mod_eq_of_lt h2]

theorem testBit_setBits (n lo w v i : Nat) :
    (setBits n lo w v).testBit i = if i < lo then n.testBit i else if i < lo + w then v.testBit (i - lo) else n.testBit i := by
  have h1 : n % 2 ^ lo < 2 ^ lo := Nat.mod_lt _ (Nat.two_pow_pos lo)
  have h2 : v % 2 ^ w < 2 ^ w := Nat.mod_lt _ (Nat.two_pow_pos w)
  have e : setBits n lo w v = 2 ^ lo * (2 ^ w * (n >>> (lo + w)) + v % 2 ^ w) + n % 2 ^ lo := by
    unfold setBits
    rw [Nat.pow_add, Nat.mul_add, Nat.mul_comm (v % 2 ^ w), Nat.mul_comm (n >>> (lo + w)), Nat.mul_assoc]
    omega
  rw [e, Nat.testBit_two_pow_mul_add _ h1]
  split
  · simp [*]
  · rw [Nat.testBit_two_pow_mul_add _ h2]
    split
    · have : i < lo + w := by omega
      simp [*]
    · have : ¬ i < lo + w := by omega
      have e2 : lo + w + (i - lo - w) = i := by omega
      simp [*]

theorem bits_setBits_other (n lo w v lo' w' : Nat) (h : lo' + w' ≤ lo ∨ lo + w ≤ lo') : bits (setBits n lo w v) lo' w' = bits n lo' w' := by
  unfold bits
  apply Nat.eq_of_testBit_eq
  intro i
  simp only [Nat.testBit_mod_two_pow, Nat.testBit_shiftRight, testBit_setBits]
  by_cases hi : i < w'
  · simp only [hi, decide_true, Bool.true_and]
    split
    · rfl
    · split
      · exfalso; omega
      · rfl
  · simp [hi]

theorem setBits_lt (n lo w v m : Nat) (hn : n < 2 ^ m) (hw : lo + w ≤ m) : setBits n lo w v < 2 ^ m := by
  apply Nat.lt_pow_two_of_testBit
  intro i hi
  rw [testBit_setBits]
  have h0 : n.testBit i = false := Nat.testBit_lt_two_pow (Nat.lt_of_lt_of_le hn (Nat.pow_le_pow_right (by omega) hi))
  have h1 : ¬ i < lo := by omega
  have h2 : ¬ i < lo + w := by omega
  simp [h0, h1, h2]

/-! ### Registers -/

theorem rd_lt (s : State) (off item : Nat) : s.rd off item < 2 ^ 32 := BitVec.isLt _

/-- A register read after its write. -/
theorem rd_wr_same {s : State} (h : s.Canon) (off item v : Nat) : (s.wr off item v).rd off item = v % 2 ^ 32 := by
  simp only [State.rd, State.wr, spGet_spSet_same _ _ _ h.1, BitVec.toNat_ofNat]

/-- A write leaves every other register word alone. -/
theorem rd_wr_other (s : State) (off item v off' item' : Nat) (h : regKey off' item' ≠ regKey off item) :
    (s.wr off item v).rd off' item' = s.rd off' item' := by
  simp only [State.rd, State.wr, spGet_spSet_other _ _ _ _ h]

/-- A field read after its write. -/
theorem fget_fset_same {s : State} (h : s.Canon) (f : Fld) (item v : Nat) (hf : f.lo + f.width ≤ 32) :
    (s.fset f item v).fget f item = v % 2 ^ f.width := by
  simp only [State.fget, State.fset, rd_wr_same h]
  rw [Nat.mod_eq_of_lt (setBits_lt _ _ _ _ 32 (rd_lt _ _ _) hf), bits_setBits_same]

/-- A field write leaves the other fields of its register alone. -/
theorem fget_fset_beside {s : State} (h : s.Canon) (f g : Fld) (item v : Nat) (hf : f.lo + f.width ≤ 32) (hr : g.reg = f.reg)
    (hd : g.lo + g.width ≤ f.lo ∨ f.lo + f.width ≤ g.lo) : (s.fset f item v).fget g item = s.fget g item := by
  simp only [State.fget, State.fset, hr, rd_wr_same h]
  rw [Nat.mod_eq_of_lt (setBits_lt _ _ _ _ 32 (rd_lt _ _ _) hf), bits_setBits_other _ _ _ _ _ _ hd]

/-- A field write leaves every other register word alone. -/
theorem fget_fset_other (s : State) (f g : Fld) (item item' v : Nat) (h : regKey g.reg item' ≠ regKey f.reg item) :
    (s.fset f item v).fget g item' = s.fget g item' := by
  simp only [State.fget, State.fset, rd_wr_other _ _ _ _ _ _ h]

end Sys2Proof.Machine
end

