-- ==== Sys2Proof/Laws/Keeps/Arbiter.lean ====
section
/-! SUPPORT. The commands of `Arbiter.lean` keep the canonical form of the state. -/

namespace Sys2Proof.Machine

open Sys2Proof

theorem keeps_execArbGrant (a0 : ArbRes) (a1 : List ArbReq) (a2 : Option (ArbReq × Bool)) (a3 : List TowerCmd) (a4 : List (BitVec 33 × BitVec 9)) (a5 : State) (h : a5.Canon) :
    Keeps (execArbGrant a0 a1 a2 a3 a4 a5) := by
  unfold execArbGrant
  repeat'
    first
    | with_reducible assumption
    | with_reducible refine keeps_onUp (by assumption) (fun _ _ => ?_)
    | with_reducible assumption
    | with_reducible refine canon_ite ?_ ?_
    | with_reducible refine canon_bankCmd _ _ _ _ ?_
    | with_reducible refine canon_flipCells _ _ ?_
    | with_reducible refine canon_arbCycle _ _ _ _ ?_
    | with_reducible refine canon_foldl ?_ (fun _ _ _ => ?_)
    | with_reducible refine canon_foldl_fst ?_ (fun _ _ _ => ?_)
    | with_reducible refine canon_pair (by assumption) ?_
    | dsimp only
    | split
    | with_reducible refine canon_upd ?_ rfl rfl rfl rfl rfl rfl

theorem keeps_execQuotaWindow (a0 : State) (h : a0.Canon) : Keeps (execQuotaWindow a0) := by
  unfold execQuotaWindow
  repeat'
    first
    | with_reducible assumption
    | with_reducible refine keeps_onUp (by assumption) (fun _ _ => ?_)
    | with_reducible assumption
    | with_reducible refine canon_ite ?_ ?_
    | with_reducible refine canon_arbWindow _ ?_
    | dsimp only
    | split
    | with_reducible refine canon_upd ?_ rfl rfl rfl rfl rfl rfl

theorem keeps_execArbC1MaxWrite (a0 : Path) (a1 : State) (h : a1.Canon) : Keeps (execArbC1MaxWrite a0 a1) := by
  unfold execArbC1MaxWrite
  repeat'
    first
    | with_reducible assumption
    | with_reducible refine keeps_onPage (by assumption) (fun _ _ => ?_)
    | with_reducible refine keeps_fromPath (by assumption) (fun _ _ => ?_)
    | with_reducible assumption
    | with_reducible refine canon_ite ?_ ?_
    | with_reducible refine canon_wr _ _ _ _ ?_
    | dsimp only
    | split
    | with_reducible refine canon_upd ?_ rfl rfl rfl rfl rfl rfl

end Sys2Proof.Machine
end

