-- ==== Sys2Proof/Laws/Keeps/Groups.lean ====
section
/-! SUPPORT. The commands of `Groups.lean` keep the canonical form of the state. -/

namespace Sys2Proof.Machine

open Sys2Proof

theorem keeps_execInstallGroup (a0 : Path) (a1 : State) (h : a1.Canon) : Keeps (execInstallGroup a0 a1) := by
  unfold execInstallGroup
  repeat'
    first
    | with_reducible assumption
    | with_reducible refine keeps_onPage (by assumption) (fun _ _ => ?_)
    | with_reducible refine keeps_fromPath (by assumption) (fun _ _ => ?_)
    | with_reducible assumption
    | with_reducible refine canon_ite ?_ ?_
    | with_reducible refine canon_install _ _ ?_
    | dsimp only
    | split
    | with_reducible refine canon_upd ?_ rfl rfl rfl rfl rfl rfl

theorem keeps_execZeroFillDone (a0 : Fin 16) (a1 : State) (h : a1.Canon) : Keeps (execZeroFillDone a0 a1) := by
  unfold execZeroFillDone
  repeat'
    first
    | with_reducible assumption
    | with_reducible refine keeps_onUp (by assumption) (fun _ _ => ?_)
    | with_reducible assumption
    | with_reducible refine canon_ite ?_ ?_
    | with_reducible refine canon_installed _ _ ?_
    | dsimp only
    | split
    | with_reducible refine canon_upd ?_ rfl rfl rfl rfl rfl rfl

theorem keeps_execTagCheckDone (a0 : Fin 16) (a1 : State) (h : a1.Canon) : Keeps (execTagCheckDone a0 a1) := by
  unfold execTagCheckDone
  repeat'
    first
    | with_reducible assumption
    | with_reducible refine keeps_onUp (by assumption) (fun _ _ => ?_)
    | with_reducible assumption
    | with_reducible refine canon_ite ?_ ?_
    | with_reducible refine canon_tagRead _ _ _ ?_
    | with_reducible refine canon_countPending _ _ ?_
    | with_reducible refine canon_installed _ _ ?_
    | with_reducible refine canon_foldl ?_ (fun _ _ _ => ?_)
    | with_reducible refine canon_foldl_fst ?_ (fun _ _ _ => ?_)
    | with_reducible refine canon_pair (by assumption) ?_
    | dsimp only
    | split
    | with_reducible refine canon_upd ?_ rfl rfl rfl rfl rfl rfl

theorem keeps_execDrainSlot (a0 : Path) (a1 : State) (h : a1.Canon) : Keeps (execDrainSlot a0 a1) := by
  unfold execDrainSlot
  repeat'
    first
    | with_reducible assumption
    | with_reducible refine keeps_onPage (by assumption) (fun _ _ => ?_)
    | with_reducible refine keeps_fromPath (by assumption) (fun _ _ => ?_)
    | with_reducible assumption
    | with_reducible refine canon_ite ?_ ?_
    | with_reducible refine canon_setSlotState _ _ _ ?_
    | with_reducible refine canon_drainedCheck _ _ ?_
    | dsimp only
    | split
    | with_reducible refine canon_upd ?_ rfl rfl rfl rfl rfl rfl

theorem keeps_execResume (a0 : Path) (a1 : State) (h : a1.Canon) : Keeps (execResume a0 a1) := by
  unfold execResume
  repeat'
    first
    | with_reducible assumption
    | with_reducible refine keeps_onPage (by assumption) (fun _ _ => ?_)
    | with_reducible refine keeps_fromPath (by assumption) (fun _ _ => ?_)
    | with_reducible assumption
    | with_reducible refine canon_ite ?_ ?_
    | with_reducible refine canon_setSlotState _ _ _ ?_
    | dsimp only
    | split
    | with_reducible refine canon_upd ?_ rfl rfl rfl rfl rfl rfl

theorem keeps_execDeltaSend (a0 : Nat) (a1 : Bool) (a2 : State) (h : a2.Canon) : Keeps (execDeltaSend a0 a1 a2) := by
  unfold execDeltaSend
  repeat'
    first
    | with_reducible assumption
    | with_reducible refine keeps_onUp (by assumption) (fun _ _ => ?_)
    | with_reducible assumption
    | with_reducible refine canon_ite ?_ ?_
    | with_reducible refine canon_deltaSend _ _ _ ?_
    | dsimp only
    | split
    | with_reducible refine canon_upd ?_ rfl rfl rfl rfl rfl rfl

theorem keeps_execResend (a0 : Nat) (a1 : Fin 32) (a2 : State) (h : a2.Canon) : Keeps (execResend a0 a1 a2) := by
  unfold execResend
  repeat'
    first
    | with_reducible assumption
    | with_reducible refine keeps_onUp (by assumption) (fun _ _ => ?_)
    | with_reducible assumption
    | with_reducible refine canon_ite ?_ ?_
    | with_reducible refine canon_resendRepair _ _ ?_
    | with_reducible refine canon_resend _ _ _ ?_
    | with_reducible refine canon_foldl ?_ (fun _ _ _ => ?_)
    | with_reducible refine canon_foldl_fst ?_ (fun _ _ _ => ?_)
    | with_reducible refine canon_pair (by assumption) ?_
    | dsimp only
    | split
    | with_reducible refine canon_upd ?_ rfl rfl rfl rfl rfl rfl

theorem keeps_execAckTimeout (a0 : Nat) (a1 : Fin 32) (a2 : State) (h : a2.Canon) : Keeps (execAckTimeout a0 a1 a2) := by
  unfold execAckTimeout
  repeat'
    first
    | with_reducible assumption
    | with_reducible refine keeps_onUp (by assumption) (fun _ _ => ?_)
    | with_reducible assumption
    | with_reducible refine canon_ite ?_ ?_
    | with_reducible refine canon_suspect _ _ _ _ _ ?_
    | dsimp only
    | split
    | with_reducible refine canon_upd ?_ rfl rfl rfl rfl rfl rfl

theorem keeps_execAck (a0 : Bool) (a1 : BitVec 20) (a2 : List Byte) (a3 : State) (h : a3.Canon) :
    Keeps (execAck a0 a1 a2 a3) := by
  unfold execAck
  repeat'
    first
    | with_reducible assumption
    | with_reducible refine keeps_onMsg (by assumption) (fun _ _ => ?_)
    | with_reducible assumption
    | with_reducible refine canon_ite ?_ ?_
    | with_reducible refine canon_ackIn _ _ _ _ ?_
    | with_reducible refine canon_emptyDrained _ ?_
    | with_reducible refine canon_msgSlot _ _ _ _ _ ?_
    | with_reducible refine canon_pair (by assumption) ?_
    | dsimp only
    | split
    | with_reducible refine canon_upd ?_ rfl rfl rfl rfl rfl rfl

theorem keeps_execNak (a0 : Bool) (a1 : BitVec 20) (a2 : List Byte) (a3 : State) (h : a3.Canon) :
    Keeps (execNak a0 a1 a2 a3) := by
  unfold execNak
  repeat'
    first
    | with_reducible assumption
    | with_reducible refine keeps_onMsg (by assumption) (fun _ _ => ?_)
    | with_reducible assumption
    | with_reducible refine canon_ite ?_ ?_
    | with_reducible refine canon_resendFrom _ _ _ _ ?_
    | with_reducible refine canon_msgSlot _ _ _ _ _ ?_
    | with_reducible refine canon_pair (by assumption) ?_
    | dsimp only
    | split
    | with_reducible refine canon_upd ?_ rfl rfl rfl rfl rfl rfl

theorem keeps_execMemberSeal (a0 : Bool) (a1 : BitVec 20) (a2 : List Byte) (a3 : State) (h : a3.Canon) :
    Keeps (execMemberSeal a0 a1 a2 a3) := by
  unfold execMemberSeal
  repeat'
    first
    | with_reducible assumption
    | with_reducible refine keeps_onMsg (by assumption) (fun _ _ => ?_)
    | with_reducible assumption
    | with_reducible refine canon_ite ?_ ?_
    | with_reducible refine canon_takeMbrSeal _ _ _ _ ?_
    | with_reducible refine canon_msgSlot _ _ _ _ _ ?_
    | with_reducible refine canon_pair (by assumption) ?_
    | dsimp only
    | split
    | with_reducible refine canon_upd ?_ rfl rfl rfl rfl rfl rfl

theorem keeps_execGroupSeal (a0 : Bool) (a1 : BitVec 20) (a2 : List Byte) (a3 : State) (h : a3.Canon) :
    Keeps (execGroupSeal a0 a1 a2 a3) := by
  unfold execGroupSeal
  repeat'
    first
    | with_reducible assumption
    | with_reducible refine keeps_onMsg (by assumption) (fun _ _ => ?_)
    | with_reducible assumption
    | with_reducible refine canon_ite ?_ ?_
    | with_reducible refine canon_setGrpSeal _ _ _ ?_
    | with_reducible refine canon_msgSlot _ _ _ _ _ ?_
    | with_reducible refine canon_pair (by assumption) ?_
    | dsimp only
    | split
    | with_reducible refine canon_upd ?_ rfl rfl rfl rfl rfl rfl

theorem keeps_execAckSend (a0 : Fin 16) (a1 : Fin 32) (a2 : State) (h : a2.Canon) : Keeps (execAckSend a0 a1 a2) := by
  unfold execAckSend
  repeat'
    first
    | with_reducible assumption
    | with_reducible refine keeps_onUp (by assumption) (fun _ _ => ?_)
    | with_reducible assumption
    | with_reducible refine canon_ite ?_ ?_
    | with_reducible refine canon_sendAck _ _ _ ?_
    | dsimp only
    | split
    | with_reducible refine canon_upd ?_ rfl rfl rfl rfl rfl rfl

theorem keeps_execCdjHwmWrite (a0 : Path) (a1 : State) (h : a1.Canon) : Keeps (execCdjHwmWrite a0 a1) := by
  unfold execCdjHwmWrite
  repeat'
    first
    | with_reducible assumption
    | with_reducible refine keeps_onPage (by assumption) (fun _ _ => ?_)
    | with_reducible refine keeps_fromPath (by assumption) (fun _ _ => ?_)
    | with_reducible assumption
    | with_reducible refine canon_ite ?_ ?_
    | with_reducible refine canon_fset _ _ _ _ ?_
    | dsimp only
    | split
    | with_reducible refine canon_upd ?_ rfl rfl rfl rfl rfl rfl

end Sys2Proof.Machine
end

