-- ==== Sys2Proof/Laws/Keeps/Archive.lean ====
section
/-! SUPPORT. The commands of `Archive.lean` keep the canonical form of the state. -/

namespace Sys2Proof.Machine

open Sys2Proof

theorem keeps_execArchiveArm (a0 : Path) (a1 : Bool) (a2 : State) (h : a2.Canon) : Keeps (execArchiveArm a0 a1 a2) := by
  unfold execArchiveArm
  repeat'
    first
    | with_reducible assumption
    | with_reducible refine keeps_onPage (by assumption) (fun _ _ => ?_)
    | with_reducible refine keeps_fromPath (by assumption) (fun _ _ => ?_)
    | with_reducible assumption
    | with_reducible refine canon_ite ?_ ?_
    | with_reducible refine canon_setArcPoint _ _ _ ?_
    | with_reducible refine canon_irq _ _ _ ?_
    | with_reducible refine canon_fset _ _ _ _ ?_
    | dsimp only
    | split
    | with_reducible refine canon_upd ?_ rfl rfl rfl rfl rfl rfl

theorem keeps_execArchiveAbort (a0 : Path) (a1 : State) (h : a1.Canon) : Keeps (execArchiveAbort a0 a1) := by
  unfold execArchiveAbort
  repeat'
    first
    | with_reducible assumption
    | with_reducible refine keeps_onPage (by assumption) (fun _ _ => ?_)
    | with_reducible refine keeps_fromPath (by assumption) (fun _ _ => ?_)
    | with_reducible assumption
    | with_reducible refine canon_ite ?_ ?_
    | with_reducible refine canon_arcFail _ _ _ ?_
    | dsimp only
    | split
    | with_reducible refine canon_upd ?_ rfl rfl rfl rfl rfl rfl

theorem keeps_execArchivePoint (a0 : Fin 8) (a1 : State) (h : a1.Canon) : Keeps (execArchivePoint a0 a1) := by
  unfold execArchivePoint
  repeat'
    first
    | with_reducible assumption
    | with_reducible refine keeps_onPage (by assumption) (fun _ _ => ?_)
    | with_reducible assumption
    | with_reducible refine canon_ite ?_ ?_
    | with_reducible refine canon_bump _ _ _ _ ?_
    | with_reducible refine canon_fset _ _ _ _ ?_
    | dsimp only
    | split
    | with_reducible refine canon_upd ?_ rfl rfl rfl rfl rfl rfl

theorem keeps_execCaptureRecord (a0 : Fin 8) (a1 : State) (h : a1.Canon) : Keeps (execCaptureRecord a0 a1) := by
  unfold execCaptureRecord
  repeat'
    first
    | with_reducible assumption
    | with_reducible refine keeps_onPage (by assumption) (fun _ _ => ?_)
    | with_reducible assumption
    | with_reducible refine canon_ite ?_ ?_
    | with_reducible refine canon_arcEnd _ _ ?_
    | with_reducible refine canon_wordsOut _ _ ?_
    | with_reducible refine canon_arcWalk _ _ _ _ ?_
    | dsimp only
    | split
    | with_reducible refine canon_upd ?_ rfl rfl rfl rfl rfl rfl

theorem keeps_execArchiveAck (a0 : Bool) (a1 : BitVec 20) (a2 : List Byte) (a3 : State) (h : a3.Canon) :
    Keeps (execArchiveAck a0 a1 a2 a3) := by
  unfold execArchiveAck
  repeat'
    first
    | with_reducible assumption
    | with_reducible refine keeps_onMsg (by assumption) (fun _ _ => ?_)
    | with_reducible assumption
    | with_reducible refine canon_ite ?_ ?_
    | with_reducible refine canon_arcAck _ _ _ ?_
    | with_reducible refine canon_foldl ?_ (fun _ _ _ => ?_)
    | with_reducible refine canon_foldl_fst ?_ (fun _ _ _ => ?_)
    | with_reducible refine canon_pair (by assumption) ?_
    | dsimp only
    | split
    | with_reducible refine canon_upd ?_ rfl rfl rfl rfl rfl rfl

theorem keeps_execArchiveResend (a0 : Fin 8) (a1 : Nat) (a2 : State) (h : a2.Canon) : Keeps (execArchiveResend a0 a1 a2) := by
  unfold execArchiveResend
  repeat'
    first
    | with_reducible assumption
    | with_reducible refine keeps_onPage (by assumption) (fun _ _ => ?_)
    | with_reducible assumption
    | with_reducible refine canon_ite ?_ ?_
    | with_reducible refine canon_arcResend _ _ _ ?_
    | dsimp only
    | split
    | with_reducible refine canon_upd ?_ rfl rfl rfl rfl rfl rfl

theorem keeps_execRestore (a0 : Fin 8) (a1 : State) (h : a1.Canon) : Keeps (execRestore a0 a1) := by
  unfold execRestore
  repeat'
    first
    | with_reducible assumption
    | with_reducible refine keeps_onPage (by assumption) (fun _ _ => ?_)
    | with_reducible assumption
    | with_reducible refine canon_ite ?_ ?_
    | with_reducible refine canon_arcTake _ _ _ _ ?_
    | with_reducible refine canon_qRun _ _ _ _ _ _ ?_ (fun _ _ _ _ => ?_)
    | with_reducible refine canon_arcRun _ _ _ ?_
    | dsimp only
    | split
    | with_reducible refine canon_upd ?_ rfl rfl rfl rfl rfl rfl

end Sys2Proof.Machine
end

