-- ==== Sys2Proof/Laws/Keeps/Time.lean ====
section
/-! SUPPORT. The commands of `Time.lean` keep the canonical form of the state. -/

namespace Sys2Proof.Machine

open Sys2Proof

theorem keeps_execRingCheck (a0 : BitVec 64) (a1 : List (BitVec 64)) (a2 : State) (h : a2.Canon) :
    Keeps (execRingCheck a0 a1 a2) := by
  unfold execRingCheck
  repeat'
    first
    | with_reducible assumption
    | with_reducible refine keeps_onRing (by assumption) (fun _ _ => ?_)
    | with_reducible refine keeps_next ?_
    | with_reducible refine canon_ite ?_ ?_
    | with_reducible refine canon_checkIn _ _ _ ?_
    | dsimp only
    | split
    | with_reducible refine canon_upd ?_ rfl rfl rfl rfl rfl rfl

theorem keeps_execCheckTimeout (a0 : State) (h : a0.Canon) : Keeps (execCheckTimeout a0) := by
  unfold execCheckTimeout
  repeat'
    first
    | with_reducible assumption
    | with_reducible refine keeps_onUp (by assumption) (fun _ _ => ?_)
    | with_reducible assumption
    | with_reducible refine canon_ite ?_ ?_
    | with_reducible refine canon_ringFail _ ?_
    | dsimp only
    | split
    | with_reducible refine canon_upd ?_ rfl rfl rfl rfl rfl rfl

theorem keeps_execRingArrival (a0 : BitVec 64) (a1 : List (BitVec 64)) (a2 : State) (h : a2.Canon) :
    Keeps (execRingArrival a0 a1 a2) := by
  unfold execRingArrival
  repeat'
    first
    | with_reducible assumption
    | with_reducible refine keeps_onRing (by assumption) (fun _ _ => ?_)
    | with_reducible assumption
    | with_reducible refine canon_ite ?_ ?_
    | with_reducible refine canon_ringArrive _ _ _ ?_
    | dsimp only
    | split
    | with_reducible refine canon_upd ?_ rfl rfl rfl rfl rfl rfl

theorem keeps_execRingSeal (a0 : BitVec 64) (a1 : List (BitVec 64)) (a2 : State) (h : a2.Canon) :
    Keeps (execRingSeal a0 a1 a2) := by
  unfold execRingSeal
  repeat'
    first
    | with_reducible assumption
    | with_reducible refine keeps_onRing (by assumption) (fun _ _ => ?_)
    | with_reducible assumption
    | with_reducible refine canon_ite ?_ ?_
    | with_reducible refine canon_sealIn _ _ _ ?_
    | dsimp only
    | split
    | with_reducible refine canon_upd ?_ rfl rfl rfl rfl rfl rfl

theorem keeps_execTimeCommit (a0 : Path) (a1 : State) (h : a1.Canon) : Keeps (execTimeCommit a0 a1) := by
  unfold execTimeCommit
  repeat'
    first
    | with_reducible assumption
    | with_reducible refine keeps_onPage (by assumption) (fun _ _ => ?_)
    | with_reducible refine keeps_fromPath (by assumption) (fun _ _ => ?_)
    | with_reducible assumption
    | with_reducible refine canon_ite ?_ ?_
    | with_reducible refine canon_timeCommit _ ?_
    | dsimp only
    | split
    | with_reducible refine canon_upd ?_ rfl rfl rfl rfl rfl rfl

theorem keeps_execBarrierArm (a0 : Path) (a1 : Word) (a2 : State) (h : a2.Canon) : Keeps (execBarrierArm a0 a1 a2) := by
  unfold execBarrierArm
  repeat'
    first
    | with_reducible assumption
    | with_reducible refine keeps_onPage (by assumption) (fun _ _ => ?_)
    | with_reducible refine keeps_fromPath (by assumption) (fun _ _ => ?_)
    | with_reducible assumption
    | with_reducible refine canon_ite ?_ ?_
    | with_reducible refine canon_barrierArm _ _ ?_
    | dsimp only
    | split
    | with_reducible refine canon_upd ?_ rfl rfl rfl rfl rfl rfl

theorem keeps_execHoldover (a0 : State) (h : a0.Canon) : Keeps (execHoldover a0) := by
  unfold execHoldover
  repeat'
    first
    | with_reducible assumption
    | with_reducible refine keeps_onUp (by assumption) (fun _ _ => ?_)
    | with_reducible assumption
    | with_reducible refine canon_ite ?_ ?_
    | dsimp only
    | split
    | with_reducible refine canon_upd ?_ rfl rfl rfl rfl rfl rfl

theorem keeps_execHoldoverTimeout (a0 : State) (h : a0.Canon) : Keeps (execHoldoverTimeout a0) := by
  unfold execHoldoverTimeout
  repeat'
    first
    | with_reducible assumption
    | with_reducible refine keeps_onUp (by assumption) (fun _ _ => ?_)
    | with_reducible assumption
    | with_reducible refine canon_ite ?_ ?_
    | with_reducible refine canon_set1 _ _ _ ?_
    | with_reducible refine canon_irq _ _ _ ?_
    | with_reducible refine canon_logErr _ _ ?_
    | dsimp only
    | split
    | with_reducible refine canon_upd ?_ rfl rfl rfl rfl rfl rfl

theorem keeps_execHoldoverEnd (a0 : State) (h : a0.Canon) : Keeps (execHoldoverEnd a0) := by
  unfold execHoldoverEnd
  repeat'
    first
    | with_reducible assumption
    | with_reducible refine keeps_onUp (by assumption) (fun _ _ => ?_)
    | with_reducible assumption
    | with_reducible refine canon_ite ?_ ?_
    | with_reducible refine canon_set0 _ _ _ ?_
    | dsimp only
    | split
    | with_reducible refine canon_upd ?_ rfl rfl rfl rfl rfl rfl

end Sys2Proof.Machine
end

