-- ==== Sys2Proof/Laws/Keeps/Boundary.lean ====
section
/-! SUPPORT. The commands of `Boundary.lean` keep the canonical form of the state. -/

namespace Sys2Proof.Machine

open Sys2Proof

theorem keeps_execTimeEpoch (a0 : State) (h : a0.Canon) : Keeps (execTimeEpoch a0) := by
  unfold execTimeEpoch
  repeat'
    first
    | with_reducible assumption
    | with_reducible refine keeps_onUp (by assumption) (fun _ _ => ?_)
    | with_reducible assumption
    | with_reducible refine canon_ite ?_ ?_
    | with_reducible refine canon_timeEpoch _ ?_
    | dsimp only
    | split
    | with_reducible refine canon_upd ?_ rfl rfl rfl rfl rfl rfl

theorem keeps_execTickBoundary (a0 : State) (h : a0.Canon) : Keeps (execTickBoundary a0) := by
  unfold execTickBoundary
  repeat'
    first
    | with_reducible assumption
    | with_reducible refine keeps_onUp (by assumption) (fun _ _ => ?_)
    | with_reducible assumption
    | with_reducible refine canon_ite ?_ ?_
    | with_reducible refine canon_takeBoundary _ _ ?_
    | dsimp only
    | split
    | with_reducible refine canon_upd ?_ rfl rfl rfl rfl rfl rfl

theorem keeps_execHallStrobe (a0 : BitVec 64) (a1 : BitVec 64) (a2 : State) (h : a2.Canon) :
    Keeps (execHallStrobe a0 a1 a2) := by
  unfold execHallStrobe
  repeat'
    first
    | with_reducible assumption
    | with_reducible refine keeps_onUp (by assumption) (fun _ _ => ?_)
    | with_reducible assumption
    | with_reducible refine canon_ite ?_ ?_
    | with_reducible refine canon_strobe _ _ _ ?_
    | dsimp only
    | split
    | with_reducible refine canon_upd ?_ rfl rfl rfl rfl rfl rfl

theorem keeps_execFeedEntry (a0 : Fin 8) (a1 : Fin 256) (a2 : Fin 256) (a3 : BitVec 3) (a4 : State) (h : a4.Canon) :
    Keeps (execFeedEntry a0 a1 a2 a3 a4) := by
  unfold execFeedEntry
  repeat'
    first
    | with_reducible assumption
    | with_reducible refine keeps_onPage (by assumption) (fun _ _ => ?_)
    | with_reducible assumption
    | with_reducible refine canon_ite ?_ ?_
    | with_reducible refine canon_feed _ _ _ _ ?_
    | dsimp only
    | split
    | with_reducible refine canon_upd ?_ rfl rfl rfl rfl rfl rfl

theorem keeps_execPlanSlot (a0 : Fin 8) (a1 : List (Nat × List Nat)) (a2 : State) (h : a2.Canon) :
    Keeps (execPlanSlot a0 a1 a2) := by
  unfold execPlanSlot
  repeat'
    first
    | with_reducible assumption
    | with_reducible refine keeps_onPage (by assumption) (fun _ _ => ?_)
    | with_reducible assumption
    | with_reducible refine canon_ite ?_ ?_
    | with_reducible refine canon_planSlot _ _ _ ?_
    | dsimp only
    | split
    | with_reducible refine canon_upd ?_ rfl rfl rfl rfl rfl rfl

theorem keeps_execPlanRetire (a0 : Fin 8) (a1 : BitVec 64) (a2 : State) (h : a2.Canon) : Keeps (execPlanRetire a0 a1 a2) := by
  unfold execPlanRetire
  repeat'
    first
    | with_reducible assumption
    | with_reducible refine keeps_onPage (by assumption) (fun _ _ => ?_)
    | with_reducible assumption
    | with_reducible refine canon_ite ?_ ?_
    | with_reducible refine canon_retire _ _ _ ?_
    | with_reducible refine canon_laneAbandonAll _ _ _ ?_
    | with_reducible refine canon_passTo _ _ ?_
    | dsimp only
    | split
    | with_reducible refine canon_upd ?_ rfl rfl rfl rfl rfl rfl

theorem keeps_execRingRelease (a0 : BitVec 64) (a1 : List (BitVec 64)) (a2 : State) (h : a2.Canon) :
    Keeps (execRingRelease a0 a1 a2) := by
  unfold execRingRelease
  repeat'
    first
    | with_reducible assumption
    | with_reducible refine keeps_onRing (by assumption) (fun _ _ => ?_)
    | with_reducible assumption
    | with_reducible refine canon_ite ?_ ?_
    | with_reducible refine canon_releaseIn _ _ ?_
    | dsimp only
    | split
    | with_reducible refine canon_upd ?_ rfl rfl rfl rfl rfl rfl

theorem keeps_execReleaseTimeout (a0 : State) (h : a0.Canon) : Keeps (execReleaseTimeout a0) := by
  unfold execReleaseTimeout
  repeat'
    first
    | with_reducible assumption
    | with_reducible refine keeps_onUp (by assumption) (fun _ _ => ?_)
    | with_reducible assumption
    | with_reducible refine canon_ite ?_ ?_
    | with_reducible refine canon_overrun _ _ ?_
    | dsimp only
    | split
    | with_reducible refine canon_upd ?_ rfl rfl rfl rfl rfl rfl

end Sys2Proof.Machine
end

