-- ==== Sys2Proof/Laws/Keeps/CollCmds.lean ====
section
/-! SUPPORT. The commands of `CollCmds.lean` keep the canonical form of the state. -/

namespace Sys2Proof.Machine

open Sys2Proof

theorem keeps_execColInstall (a0 : Path) (a1 : State) (h : a1.Canon) : Keeps (execColInstall a0 a1) := by
  unfold execColInstall
  repeat'
    first
    | with_reducible assumption
    | with_reducible refine keeps_onPage (by assumption) (fun _ _ => ?_)
    | with_reducible refine keeps_fromPath (by assumption) (fun _ _ => ?_)
    | with_reducible assumption
    | with_reducible refine canon_ite ?_ ?_
    | with_reducible refine canon_colInstall _ _ ?_
    | dsimp only
    | split
    | with_reducible refine canon_upd ?_ rfl rfl rfl rfl rfl rfl

theorem keeps_execColRemove (a0 : Path) (a1 : State) (h : a1.Canon) : Keeps (execColRemove a0 a1) := by
  unfold execColRemove
  repeat'
    first
    | with_reducible assumption
    | with_reducible refine keeps_onPage (by assumption) (fun _ _ => ?_)
    | with_reducible refine keeps_fromPath (by assumption) (fun _ _ => ?_)
    | with_reducible assumption
    | with_reducible refine canon_ite ?_ ?_
    | with_reducible refine canon_colRemove _ _ ?_
    | dsimp only
    | split
    | with_reducible refine canon_upd ?_ rfl rfl rfl rfl rfl rfl

theorem keeps_execAllReduce (a0 : Fin 8) (a1 : State) (h : a1.Canon) : Keeps (execAllReduce a0 a1) := by
  unfold execAllReduce
  repeat'
    first
    | with_reducible assumption
    | with_reducible refine keeps_onPage (by assumption) (fun _ _ => ?_)
    | with_reducible assumption
    | with_reducible refine canon_ite ?_ ?_
    | with_reducible refine canon_colOp _ _ _ ?_
    | dsimp only
    | split
    | with_reducible refine canon_upd ?_ rfl rfl rfl rfl rfl rfl

theorem keeps_execReduceScatter (a0 : Fin 8) (a1 : State) (h : a1.Canon) : Keeps (execReduceScatter a0 a1) := by
  unfold execReduceScatter
  repeat'
    first
    | with_reducible assumption
    | with_reducible refine keeps_onPage (by assumption) (fun _ _ => ?_)
    | with_reducible assumption
    | with_reducible refine canon_ite ?_ ?_
    | with_reducible refine canon_colOp _ _ _ ?_
    | dsimp only
    | split
    | with_reducible refine canon_upd ?_ rfl rfl rfl rfl rfl rfl

theorem keeps_execAllGather (a0 : Fin 8) (a1 : State) (h : a1.Canon) : Keeps (execAllGather a0 a1) := by
  unfold execAllGather
  repeat'
    first
    | with_reducible assumption
    | with_reducible refine keeps_onPage (by assumption) (fun _ _ => ?_)
    | with_reducible assumption
    | with_reducible refine canon_ite ?_ ?_
    | with_reducible refine canon_colOp _ _ _ ?_
    | dsimp only
    | split
    | with_reducible refine canon_upd ?_ rfl rfl rfl rfl rfl rfl

theorem keeps_execBroadcast (a0 : Fin 8) (a1 : State) (h : a1.Canon) : Keeps (execBroadcast a0 a1) := by
  unfold execBroadcast
  repeat'
    first
    | with_reducible assumption
    | with_reducible refine keeps_onPage (by assumption) (fun _ _ => ?_)
    | with_reducible assumption
    | with_reducible refine canon_ite ?_ ?_
    | with_reducible refine canon_colOp _ _ _ ?_
    | dsimp only
    | split
    | with_reducible refine canon_upd ?_ rfl rfl rfl rfl rfl rfl

theorem keeps_execAllToAll (a0 : Fin 8) (a1 : State) (h : a1.Canon) : Keeps (execAllToAll a0 a1) := by
  unfold execAllToAll
  repeat'
    first
    | with_reducible assumption
    | with_reducible refine keeps_onPage (by assumption) (fun _ _ => ?_)
    | with_reducible assumption
    | with_reducible refine canon_ite ?_ ?_
    | with_reducible refine canon_colOp _ _ _ ?_
    | dsimp only
    | split
    | with_reducible refine canon_upd ?_ rfl rfl rfl rfl rfl rfl

theorem keeps_execColBarrier (a0 : Fin 8) (a1 : State) (h : a1.Canon) : Keeps (execColBarrier a0 a1) := by
  unfold execColBarrier
  repeat'
    first
    | with_reducible assumption
    | with_reducible refine keeps_onPage (by assumption) (fun _ _ => ?_)
    | with_reducible assumption
    | with_reducible refine canon_ite ?_ ?_
    | with_reducible refine canon_colOp _ _ _ ?_
    | dsimp only
    | split
    | with_reducible refine canon_upd ?_ rfl rfl rfl rfl rfl rfl

theorem keeps_execKvRing (a0 : Fin 8) (a1 : State) (h : a1.Canon) : Keeps (execKvRing a0 a1) := by
  unfold execKvRing
  repeat'
    first
    | with_reducible assumption
    | with_reducible refine keeps_onPage (by assumption) (fun _ _ => ?_)
    | with_reducible assumption
    | with_reducible refine canon_ite ?_ ?_
    | with_reducible refine canon_colOp _ _ _ ?_
    | dsimp only
    | split
    | with_reducible refine canon_upd ?_ rfl rfl rfl rfl rfl rfl

theorem keeps_execColSegment (a0 : Bool) (a1 : BitVec 20) (a2 : List Byte) (a3 : State) (h : a3.Canon) :
    Keeps (execColSegment a0 a1 a2 a3) := by
  unfold execColSegment
  repeat'
    first
    | with_reducible assumption
    | with_reducible refine keeps_onMsg (by assumption) (fun _ _ => ?_)
    | with_reducible assumption
    | with_reducible refine canon_ite ?_ ?_
    | with_reducible refine canon_colSegment _ _ ?_
    | dsimp only
    | split
    | with_reducible refine canon_upd ?_ rfl rfl rfl rfl rfl rfl

theorem keeps_execColReady (a0 : Bool) (a1 : BitVec 20) (a2 : List Byte) (a3 : State) (h : a3.Canon) :
    Keeps (execColReady a0 a1 a2 a3) := by
  unfold execColReady
  repeat'
    first
    | with_reducible assumption
    | with_reducible refine keeps_onMsg (by assumption) (fun _ _ => ?_)
    | with_reducible assumption
    | with_reducible refine canon_ite ?_ ?_
    | with_reducible refine canon_colReadyIn _ _ ?_
    | dsimp only
    | split
    | with_reducible refine canon_upd ?_ rfl rfl rfl rfl rfl rfl

theorem keeps_execBarrierArrival (a0 : Bool) (a1 : BitVec 20) (a2 : List Byte) (a3 : State) (h : a3.Canon) :
    Keeps (execBarrierArrival a0 a1 a2 a3) := by
  unfold execBarrierArrival
  repeat'
    first
    | with_reducible assumption
    | with_reducible refine keeps_onMsg (by assumption) (fun _ _ => ?_)
    | with_reducible assumption
    | with_reducible refine canon_ite ?_ ?_
    | with_reducible refine canon_colArrivalIn _ _ ?_
    | dsimp only
    | split
    | with_reducible refine canon_upd ?_ rfl rfl rfl rfl rfl rfl

theorem keeps_execColTimeout (a0 : Fin 8) (a1 : State) (h : a1.Canon) : Keeps (execColTimeout a0 a1) := by
  unfold execColTimeout
  repeat'
    first
    | with_reducible assumption
    | with_reducible refine keeps_onPage (by assumption) (fun _ _ => ?_)
    | with_reducible assumption
    | with_reducible refine canon_ite ?_ ?_
    | with_reducible refine canon_colTimeout _ _ ?_
    | dsimp only
    | split
    | with_reducible refine canon_upd ?_ rfl rfl rfl rfl rfl rfl

end Sys2Proof.Machine
end

