-- ==== Sys2Proof/Laws/Keeps/Counters.lean ====
section
/-! SUPPORT. The commands of `Counters.lean` keep the canonical form of the state. -/

namespace Sys2Proof.Machine

open Sys2Proof

theorem keeps_execEruInject (a0 : Path) (a1 : Word) (a2 : State) (h : a2.Canon) : Keeps (execEruInject a0 a1 a2) := by
  unfold execEruInject
  repeat'
    first
    | with_reducible assumption
    | with_reducible refine keeps_fromPath (by assumption) (fun _ _ => ?_)
    | with_reducible refine keeps_onReg (by assumption) (fun _ _ => ?_)
    | with_reducible assumption
    | with_reducible refine canon_ite ?_ ?_
    | with_reducible refine canon_logErr _ _ ?_
    | dsimp only
    | split
    | with_reducible refine canon_upd ?_ rfl rfl rfl rfl rfl rfl

theorem keeps_execFatalClear (a0 : Path) (a1 : State) (h : a1.Canon) : Keeps (execFatalClear a0 a1) := by
  unfold execFatalClear
  repeat'
    first
    | with_reducible assumption
    | with_reducible refine keeps_fromPath (by assumption) (fun _ _ => ?_)
    | with_reducible refine keeps_onReg (by assumption) (fun _ _ => ?_)
    | with_reducible assumption
    | with_reducible refine canon_ite ?_ ?_
    | with_reducible refine canon_set0 _ _ _ ?_
    | dsimp only
    | split
    | with_reducible refine canon_upd ?_ rfl rfl rfl rfl rfl rfl

theorem keeps_execCtrCfgWrite (a0 : Path) (a1 : Word) (a2 : State) (h : a2.Canon) : Keeps (execCtrCfgWrite a0 a1 a2) := by
  unfold execCtrCfgWrite
  repeat'
    first
    | with_reducible assumption
    | with_reducible refine keeps_fromPath (by assumption) (fun _ _ => ?_)
    | with_reducible refine keeps_onReg (by assumption) (fun _ _ => ?_)
    | with_reducible assumption
    | with_reducible refine canon_ite ?_ ?_
    | dsimp only
    | split
    | with_reducible refine canon_upd ?_ rfl rfl rfl rfl rfl rfl

theorem keeps_execPreload (a0 : Path) (a1 : Word) (a2 : State) (h : a2.Canon) : Keeps (execPreload a0 a1 a2) := by
  unfold execPreload
  repeat'
    first
    | with_reducible assumption
    | with_reducible refine keeps_fromPath (by assumption) (fun _ _ => ?_)
    | with_reducible refine keeps_onReg (by assumption) (fun _ _ => ?_)
    | with_reducible assumption
    | with_reducible refine canon_ite ?_ ?_
    | with_reducible refine canon_fset _ _ _ _ ?_
    | dsimp only
    | split
    | with_reducible refine canon_upd ?_ rfl rfl rfl rfl rfl rfl

theorem keeps_execSnapTime (a0 : State) (h : a0.Canon) : Keeps (execSnapTime a0) := by
  unfold execSnapTime
  repeat'
    first
    | with_reducible assumption
    | with_reducible refine keeps_onUp (by assumption) (fun _ _ => ?_)
    | with_reducible assumption
    | with_reducible refine canon_ite ?_ ?_
    | with_reducible refine canon_passTo _ _ ?_
    | with_reducible refine canon_snapAct _ ?_
    | dsimp only
    | split
    | with_reducible refine canon_upd ?_ rfl rfl rfl rfl rfl rfl

theorem keeps_execSnapshot (a0 : Path) (a1 : Bool) (a2 : State) (h : a2.Canon) : Keeps (execSnapshot a0 a1 a2) := by
  unfold execSnapshot
  repeat'
    first
    | with_reducible assumption
    | with_reducible refine keeps_fromPath (by assumption) (fun _ _ => ?_)
    | with_reducible refine keeps_onUp (by assumption) (fun _ _ => ?_)
    | with_reducible assumption
    | with_reducible refine canon_ite ?_ ?_
    | with_reducible refine canon_snapCmd _ _ _ ?_
    | dsimp only
    | split
    | with_reducible refine canon_upd ?_ rfl rfl rfl rfl rfl rfl

theorem keeps_execFreeze (a0 : Path) (a1 : Bool) (a2 : State) (h : a2.Canon) : Keeps (execFreeze a0 a1 a2) := by
  unfold execFreeze
  repeat'
    first
    | with_reducible assumption
    | with_reducible refine keeps_fromPath (by assumption) (fun _ _ => ?_)
    | with_reducible refine keeps_onUp (by assumption) (fun _ _ => ?_)
    | with_reducible assumption
    | with_reducible refine canon_ite ?_ ?_
    | with_reducible refine canon_snapCmd _ _ _ ?_
    | dsimp only
    | split
    | with_reducible refine canon_upd ?_ rfl rfl rfl rfl rfl rfl

theorem keeps_execUnfreeze (a0 : Path) (a1 : Bool) (a2 : State) (h : a2.Canon) : Keeps (execUnfreeze a0 a1 a2) := by
  unfold execUnfreeze
  repeat'
    first
    | with_reducible assumption
    | with_reducible refine keeps_fromPath (by assumption) (fun _ _ => ?_)
    | with_reducible refine keeps_onUp (by assumption) (fun _ _ => ?_)
    | with_reducible assumption
    | with_reducible refine canon_ite ?_ ?_
    | with_reducible refine canon_snapCmd _ _ _ ?_
    | dsimp only
    | split
    | with_reducible refine canon_upd ?_ rfl rfl rfl rfl rfl rfl

theorem keeps_execRingCounter (a0 : BitVec 64) (a1 : List (BitVec 64)) (a2 : State) (h : a2.Canon) :
    Keeps (execRingCounter a0 a1 a2) := by
  unfold execRingCounter
  repeat'
    first
    | with_reducible assumption
    | with_reducible refine keeps_onRing (by assumption) (fun _ _ => ?_)
    | with_reducible assumption
    | with_reducible refine canon_ite ?_ ?_
    | with_reducible refine canon_snapArm _ _ _ ?_
    | dsimp only
    | split
    | with_reducible refine canon_upd ?_ rfl rfl rfl rfl rfl rfl

end Sys2Proof.Machine
end

