-- ==== Sys2Proof/Laws/Keeps/FabIn.lean ====
section
/-! SUPPORT. The commands of `FabIn.lean` keep the canonical form of the state. -/

namespace Sys2Proof.Machine

open Sys2Proof

theorem keeps_inbound (a0 : Nat) (a1 : Option Nat) (a2 : List Byte) (a3 : List Byte) (a4 : State) (h : a4.Canon) :
    Keeps (inbound a0 a1 a2 a3 a4) := by
  unfold inbound
  repeat'
    first
    | with_reducible assumption
    | with_reducible refine keeps_onTxn (by assumption) (fun _ _ _ => ?_)
    | with_reducible assumption
    | with_reducible refine canon_ite ?_ ?_
    | with_reducible refine canon_fabRequest _ _ _ ?_
    | dsimp only
    | split
    | with_reducible refine canon_upd ?_ rfl rfl rfl rfl rfl rfl

theorem keeps_execFabLoad (a0 : List Byte) (a1 : List Byte) (a2 : State) (h : a2.Canon) : Keeps (execFabLoad a0 a1 a2) := by
  unfold execFabLoad
  repeat'
    first
    | with_reducible assumption
    | with_reducible assumption
    | with_reducible refine canon_ite ?_ ?_
    | with_reducible refine keeps_inbound _ _ _ _ _ ?_
    | dsimp only
    | split
    | with_reducible refine canon_upd ?_ rfl rfl rfl rfl rfl rfl

theorem keeps_execFabStore (a0 : List Byte) (a1 : List Byte) (a2 : State) (h : a2.Canon) : Keeps (execFabStore a0 a1 a2) := by
  unfold execFabStore
  repeat'
    first
    | with_reducible assumption
    | with_reducible assumption
    | with_reducible refine canon_ite ?_ ?_
    | with_reducible refine keeps_inbound _ _ _ _ _ ?_
    | dsimp only
    | split
    | with_reducible refine canon_upd ?_ rfl rfl rfl rfl rfl rfl

theorem keeps_execAtomic (a0 : List Byte) (a1 : List Byte) (a2 : State) (h : a2.Canon) : Keeps (execAtomic a0 a1 a2) := by
  unfold execAtomic
  repeat'
    first
    | with_reducible assumption
    | with_reducible assumption
    | with_reducible refine canon_ite ?_ ?_
    | with_reducible refine keeps_inbound _ _ _ _ _ ?_
    | dsimp only
    | split
    | with_reducible refine canon_upd ?_ rfl rfl rfl rfl rfl rfl

theorem keeps_execAddI32 (a0 : List Byte) (a1 : List Byte) (a2 : State) (h : a2.Canon) : Keeps (execAddI32 a0 a1 a2) := by
  unfold execAddI32
  repeat'
    first
    | with_reducible assumption
    | with_reducible assumption
    | with_reducible refine canon_ite ?_ ?_
    | with_reducible refine keeps_inbound _ _ _ _ _ ?_
    | dsimp only
    | split
    | with_reducible refine canon_upd ?_ rfl rfl rfl rfl rfl rfl

theorem keeps_execAddI64 (a0 : List Byte) (a1 : List Byte) (a2 : State) (h : a2.Canon) : Keeps (execAddI64 a0 a1 a2) := by
  unfold execAddI64
  repeat'
    first
    | with_reducible assumption
    | with_reducible assumption
    | with_reducible refine canon_ite ?_ ?_
    | with_reducible refine keeps_inbound _ _ _ _ _ ?_
    | dsimp only
    | split
    | with_reducible refine canon_upd ?_ rfl rfl rfl rfl rfl rfl

theorem keeps_execAddF32 (a0 : List Byte) (a1 : List Byte) (a2 : State) (h : a2.Canon) : Keeps (execAddF32 a0 a1 a2) := by
  unfold execAddF32
  repeat'
    first
    | with_reducible assumption
    | with_reducible assumption
    | with_reducible refine canon_ite ?_ ?_
    | with_reducible refine keeps_inbound _ _ _ _ _ ?_
    | dsimp only
    | split
    | with_reducible refine canon_upd ?_ rfl rfl rfl rfl rfl rfl

theorem keeps_execMinS32 (a0 : List Byte) (a1 : List Byte) (a2 : State) (h : a2.Canon) : Keeps (execMinS32 a0 a1 a2) := by
  unfold execMinS32
  repeat'
    first
    | with_reducible assumption
    | with_reducible assumption
    | with_reducible refine canon_ite ?_ ?_
    | with_reducible refine keeps_inbound _ _ _ _ _ ?_
    | dsimp only
    | split
    | with_reducible refine canon_upd ?_ rfl rfl rfl rfl rfl rfl

theorem keeps_execMinS64 (a0 : List Byte) (a1 : List Byte) (a2 : State) (h : a2.Canon) : Keeps (execMinS64 a0 a1 a2) := by
  unfold execMinS64
  repeat'
    first
    | with_reducible assumption
    | with_reducible assumption
    | with_reducible refine canon_ite ?_ ?_
    | with_reducible refine keeps_inbound _ _ _ _ _ ?_
    | dsimp only
    | split
    | with_reducible refine canon_upd ?_ rfl rfl rfl rfl rfl rfl

theorem keeps_execMinU32 (a0 : List Byte) (a1 : List Byte) (a2 : State) (h : a2.Canon) : Keeps (execMinU32 a0 a1 a2) := by
  unfold execMinU32
  repeat'
    first
    | with_reducible assumption
    | with_reducible assumption
    | with_reducible refine canon_ite ?_ ?_
    | with_reducible refine keeps_inbound _ _ _ _ _ ?_
    | dsimp only
    | split
    | with_reducible refine canon_upd ?_ rfl rfl rfl rfl rfl rfl

theorem keeps_execMinU64 (a0 : List Byte) (a1 : List Byte) (a2 : State) (h : a2.Canon) : Keeps (execMinU64 a0 a1 a2) := by
  unfold execMinU64
  repeat'
    first
    | with_reducible assumption
    | with_reducible assumption
    | with_reducible refine canon_ite ?_ ?_
    | with_reducible refine keeps_inbound _ _ _ _ _ ?_
    | dsimp only
    | split
    | with_reducible refine canon_upd ?_ rfl rfl rfl rfl rfl rfl

theorem keeps_execMinF32 (a0 : List Byte) (a1 : List Byte) (a2 : State) (h : a2.Canon) : Keeps (execMinF32 a0 a1 a2) := by
  unfold execMinF32
  repeat'
    first
    | with_reducible assumption
    | with_reducible assumption
    | with_reducible refine canon_ite ?_ ?_
    | with_reducible refine keeps_inbound _ _ _ _ _ ?_
    | dsimp only
    | split
    | with_reducible refine canon_upd ?_ rfl rfl rfl rfl rfl rfl

theorem keeps_execMaxS32 (a0 : List Byte) (a1 : List Byte) (a2 : State) (h : a2.Canon) : Keeps (execMaxS32 a0 a1 a2) := by
  unfold execMaxS32
  repeat'
    first
    | with_reducible assumption
    | with_reducible assumption
    | with_reducible refine canon_ite ?_ ?_
    | with_reducible refine keeps_inbound _ _ _ _ _ ?_
    | dsimp only
    | split
    | with_reducible refine canon_upd ?_ rfl rfl rfl rfl rfl rfl

theorem keeps_execMaxS64 (a0 : List Byte) (a1 : List Byte) (a2 : State) (h : a2.Canon) : Keeps (execMaxS64 a0 a1 a2) := by
  unfold execMaxS64
  repeat'
    first
    | with_reducible assumption
    | with_reducible assumption
    | with_reducible refine canon_ite ?_ ?_
    | with_reducible refine keeps_inbound _ _ _ _ _ ?_
    | dsimp only
    | split
    | with_reducible refine canon_upd ?_ rfl rfl rfl rfl rfl rfl

theorem keeps_execMaxU32 (a0 : List Byte) (a1 : List Byte) (a2 : State) (h : a2.Canon) : Keeps (execMaxU32 a0 a1 a2) := by
  unfold execMaxU32
  repeat'
    first
    | with_reducible assumption
    | with_reducible assumption
    | with_reducible refine canon_ite ?_ ?_
    | with_reducible refine keeps_inbound _ _ _ _ _ ?_
    | dsimp only
    | split
    | with_reducible refine canon_upd ?_ rfl rfl rfl rfl rfl rfl

theorem keeps_execMaxU64 (a0 : List Byte) (a1 : List Byte) (a2 : State) (h : a2.Canon) : Keeps (execMaxU64 a0 a1 a2) := by
  unfold execMaxU64
  repeat'
    first
    | with_reducible assumption
    | with_reducible assumption
    | with_reducible refine canon_ite ?_ ?_
    | with_reducible refine keeps_inbound _ _ _ _ _ ?_
    | dsimp only
    | split
    | with_reducible refine canon_upd ?_ rfl rfl rfl rfl rfl rfl

theorem keeps_execMaxF32 (a0 : List Byte) (a1 : List Byte) (a2 : State) (h : a2.Canon) : Keeps (execMaxF32 a0 a1 a2) := by
  unfold execMaxF32
  repeat'
    first
    | with_reducible assumption
    | with_reducible assumption
    | with_reducible refine canon_ite ?_ ?_
    | with_reducible refine keeps_inbound _ _ _ _ _ ?_
    | dsimp only
    | split
    | with_reducible refine canon_upd ?_ rfl rfl rfl rfl rfl rfl

theorem keeps_execCas32 (a0 : List Byte) (a1 : List Byte) (a2 : State) (h : a2.Canon) : Keeps (execCas32 a0 a1 a2) := by
  unfold execCas32
  repeat'
    first
    | with_reducible assumption
    | with_reducible assumption
    | with_reducible refine canon_ite ?_ ?_
    | with_reducible refine keeps_inbound _ _ _ _ _ ?_
    | dsimp only
    | split
    | with_reducible refine canon_upd ?_ rfl rfl rfl rfl rfl rfl

theorem keeps_execCas64 (a0 : List Byte) (a1 : List Byte) (a2 : State) (h : a2.Canon) : Keeps (execCas64 a0 a1 a2) := by
  unfold execCas64
  repeat'
    first
    | with_reducible assumption
    | with_reducible assumption
    | with_reducible refine canon_ite ?_ ?_
    | with_reducible refine keeps_inbound _ _ _ _ _ ?_
    | dsimp only
    | split
    | with_reducible refine canon_upd ?_ rfl rfl rfl rfl rfl rfl

end Sys2Proof.Machine
end

