-- ==== Sys2Proof/Laws/Keeps/FabOut.lean ====
section
/-! SUPPORT. The commands of `FabOut.lean` keep the canonical form of the state. -/

namespace Sys2Proof.Machine

open Sys2Proof

theorem keeps_execResponse (a0 : List Byte) (a1 : List Byte) (a2 : State) (h : a2.Canon) : Keeps (execResponse a0 a1 a2) := by
  unfold execResponse
  repeat'
    first
    | with_reducible assumption
    | with_reducible refine keeps_onTxn (by assumption) (fun _ _ _ => ?_)
    | with_reducible assumption
    | with_reducible refine canon_ite ?_ ?_
    | with_reducible refine canon_responseIn _ _ ?_
    | with_reducible refine canon_gateDrop _ _ _ _ _ ?_
    | dsimp only
    | split
    | with_reducible refine canon_upd ?_ rfl rfl rfl rfl rfl rfl

theorem keeps_execTransactionSend (a0 : Fin 8) (a1 : Fin 4096) (a2 : State) (h : a2.Canon) :
    Keeps (execTransactionSend a0 a1 a2) := by
  unfold execTransactionSend
  repeat'
    first
    | with_reducible assumption
    | with_reducible refine keeps_onPage (by assumption) (fun _ _ => ?_)
    | with_reducible assumption
    | with_reducible refine canon_ite ?_ ?_
    | with_reducible refine canon_drrCharge _ _ ?_
    | with_reducible refine canon_sendOn _ _ _ ?_
    | with_reducible refine canon_dropOutOfStage _ ?_
    | with_reducible refine canon_countHeld _ ?_
    | dsimp only
    | split
    | with_reducible refine canon_upd ?_ rfl rfl rfl rfl rfl rfl

theorem keeps_execMsTimeout (a0 : Fin 4096) (a1 : Fin 4096) (a2 : State) (h : a2.Canon) : Keeps (execMsTimeout a0 a1 a2) := by
  unfold execMsTimeout
  repeat'
    first
    | with_reducible assumption
    | with_reducible refine keeps_onPage (by assumption) (fun _ _ => ?_)
    | with_reducible assumption
    | with_reducible refine canon_ite ?_ ?_
    | with_reducible refine canon_msTimeout _ _ _ ?_
    | dsimp only
    | split
    | with_reducible refine canon_upd ?_ rfl rfl rfl rfl rfl rfl

theorem keeps_execGenerationStep (a0 : Fin 4096) (a1 : State) (h : a1.Canon) : Keeps (execGenerationStep a0 a1) := by
  unfold execGenerationStep
  repeat'
    first
    | with_reducible assumption
    | with_reducible refine keeps_onPage (by assumption) (fun _ _ => ?_)
    | with_reducible assumption
    | with_reducible refine canon_ite ?_ ?_
    | with_reducible refine canon_stepGen _ _ ?_
    | dsimp only
    | split
    | with_reducible refine canon_upd ?_ rfl rfl rfl rfl rfl rfl

theorem keeps_execPartnerWrite (a0 : Path) (a1 : Word) (a2 : State) (h : a2.Canon) : Keeps (execPartnerWrite a0 a1 a2) := by
  unfold execPartnerWrite
  repeat'
    first
    | with_reducible assumption
    | with_reducible refine keeps_onPage (by assumption) (fun _ _ => ?_)
    | with_reducible refine keeps_fromPath (by assumption) (fun _ _ => ?_)
    | with_reducible assumption
    | with_reducible refine canon_ite ?_ ?_
    | with_reducible refine canon_partnerWrite _ _ _ ?_
    | dsimp only
    | split
    | with_reducible refine canon_upd ?_ rfl rfl rfl rfl rfl rfl

theorem keeps_execLenderNodeWrite (a0 : Path) (a1 : Word) (a2 : State) (h : a2.Canon) :
    Keeps (execLenderNodeWrite a0 a1 a2) := by
  unfold execLenderNodeWrite
  repeat'
    first
    | with_reducible assumption
    | with_reducible refine keeps_onPage (by assumption) (fun _ _ => ?_)
    | with_reducible refine keeps_fromPath (by assumption) (fun _ _ => ?_)
    | with_reducible assumption
    | with_reducible refine canon_ite ?_ ?_
    | with_reducible refine canon_lenderWrite _ _ _ ?_
    | with_reducible refine canon_runJobs _ ?_
    | dsimp only
    | split
    | with_reducible refine canon_upd ?_ rfl rfl rfl rfl rfl rfl

theorem keeps_execRegionEntryWrite (a0 : Path) (a1 : BitVec 12) (a2 : Word) (a3 : State) (h : a3.Canon) :
    Keeps (execRegionEntryWrite a0 a1 a2 a3) := by
  unfold execRegionEntryWrite
  repeat'
    first
    | with_reducible assumption
    | with_reducible refine keeps_onPage (by assumption) (fun _ _ => ?_)
    | with_reducible refine keeps_fromPath (by assumption) (fun _ _ => ?_)
    | with_reducible assumption
    | with_reducible refine canon_ite ?_ ?_
    | with_reducible refine canon_regionWrite _ _ _ _ ?_
    | dsimp only
    | split
    | with_reducible refine canon_upd ?_ rfl rfl rfl rfl rfl rfl

theorem keeps_execBlockRemove (a0 : Path) (a1 : Word) (a2 : State) (h : a2.Canon) : Keeps (execBlockRemove a0 a1 a2) := by
  unfold execBlockRemove
  repeat'
    first
    | with_reducible assumption
    | with_reducible refine keeps_onPage (by assumption) (fun _ _ => ?_)
    | with_reducible refine keeps_fromPath (by assumption) (fun _ _ => ?_)
    | with_reducible assumption
    | with_reducible refine canon_ite ?_ ?_
    | with_reducible refine canon_pathWrite _ _ _ _ ?_
    | dsimp only
    | split
    | with_reducible refine canon_upd ?_ rfl rfl rfl rfl rfl rfl

theorem keeps_execFvcBufWrite (a0 : Path) (a1 : Word) (a2 : State) (h : a2.Canon) : Keeps (execFvcBufWrite a0 a1 a2) := by
  unfold execFvcBufWrite
  repeat'
    first
    | with_reducible assumption
    | with_reducible refine keeps_onPage (by assumption) (fun _ _ => ?_)
    | with_reducible refine keeps_fromPath (by assumption) (fun _ _ => ?_)
    | with_reducible assumption
    | with_reducible refine canon_ite ?_ ?_
    | with_reducible refine canon_fvcBufWrite _ _ _ ?_
    | dsimp only
    | split
    | with_reducible refine canon_upd ?_ rfl rfl rfl rfl rfl rfl

theorem keeps_execFabricEnable (a0 : Path) (a1 : Word) (a2 : State) (h : a2.Canon) : Keeps (execFabricEnable a0 a1 a2) := by
  unfold execFabricEnable
  repeat'
    first
    | with_reducible assumption
    | with_reducible refine keeps_onPage (by assumption) (fun _ _ => ?_)
    | with_reducible refine keeps_fromPath (by assumption) (fun _ _ => ?_)
    | with_reducible assumption
    | with_reducible refine canon_ite ?_ ?_
    | with_reducible refine canon_pathWrite _ _ _ _ ?_
    | dsimp only
    | split
    | with_reducible refine canon_upd ?_ rfl rfl rfl rfl rfl rfl

theorem keeps_execLinkUp (a0 : List Nat) (a1 : State) (h : a1.Canon) : Keeps (execLinkUp a0 a1) := by
  unfold execLinkUp
  repeat'
    first
    | with_reducible assumption
    | with_reducible refine keeps_onUp (by assumption) (fun _ _ => ?_)
    | with_reducible assumption
    | with_reducible refine canon_ite ?_ ?_
    | with_reducible refine canon_set1 _ _ _ ?_
    | with_reducible refine canon_foldl ?_ (fun _ _ _ => ?_)
    | with_reducible refine canon_foldl_fst ?_ (fun _ _ _ => ?_)
    | with_reducible refine canon_pair (by assumption) ?_
    | dsimp only
    | split
    | with_reducible refine canon_upd ?_ rfl rfl rfl rfl rfl rfl

theorem keeps_execLinkDown (a0 : State) (h : a0.Canon) : Keeps (execLinkDown a0) := by
  unfold execLinkDown
  repeat'
    first
    | with_reducible assumption
    | with_reducible refine keeps_onUp (by assumption) (fun _ _ => ?_)
    | with_reducible assumption
    | with_reducible refine canon_ite ?_ ?_
    | with_reducible refine canon_logErr _ _ ?_
    | with_reducible refine canon_irq _ _ _ ?_
    | with_reducible refine canon_set0 _ _ _ ?_
    | dsimp only
    | split
    | with_reducible refine canon_upd ?_ rfl rfl rfl rfl rfl rfl

theorem keeps_execLinkRetry (a0 : State) (h : a0.Canon) : Keeps (execLinkRetry a0) := by
  unfold execLinkRetry
  repeat'
    first
    | with_reducible assumption
    | with_reducible refine keeps_onUp (by assumption) (fun _ _ => ?_)
    | with_reducible assumption
    | with_reducible refine canon_ite ?_ ?_
    | with_reducible refine canon_bump _ _ _ _ ?_
    | dsimp only
    | split
    | with_reducible refine canon_upd ?_ rfl rfl rfl rfl rfl rfl

theorem keeps_execCreditReturn (a0 : Fin 8) (a1 : Bool) (a2 : State) (h : a2.Canon) : Keeps (execCreditReturn a0 a1 a2) := by
  unfold execCreditReturn
  repeat'
    first
    | with_reducible assumption
    | with_reducible refine keeps_onUp (by assumption) (fun _ _ => ?_)
    | with_reducible assumption
    | with_reducible refine canon_ite ?_ ?_
    | dsimp only
    | split
    | with_reducible refine canon_upd ?_ rfl rfl rfl rfl rfl rfl

end Sys2Proof.Machine
end

