-- ==== Sys2Proof/Laws/Keeps/FabQueue.lean ====
section
/-! SUPPORT. The commands of `FabQueue.lean` keep the canonical form of the state. -/

namespace Sys2Proof.Machine

open Sys2Proof

theorem keeps_fabQueueOp (a0 : Fin 8) (a1 : Nat) (a2 : State) (h : a2.Canon) : Keeps (fabQueueOp a0 a1 a2) := by
  unfold fabQueueOp
  repeat'
    first
    | with_reducible assumption
    | with_reducible refine keeps_onPage (by assumption) (fun _ _ => ?_)
    | with_reducible assumption
    | with_reducible refine canon_ite ?_ ?_
    | with_reducible refine canon_fabTake _ _ _ _ ?_
    | with_reducible refine canon_flushAll _ ?_
    | with_reducible refine canon_qTake _ _ _ ?_
    | with_reducible refine canon_qHead _ _ _ _ ?_
    | with_reducible refine canon_pair (by assumption) ?_
    | dsimp only
    | split
    | with_reducible refine canon_upd ?_ rfl rfl rfl rfl rfl rfl

theorem keeps_execFabGet (a0 : Fin 8) (a1 : State) (h : a1.Canon) : Keeps (execFabGet a0 a1) := by
  unfold execFabGet
  repeat'
    first
    | with_reducible assumption
    | with_reducible assumption
    | with_reducible refine canon_ite ?_ ?_
    | with_reducible refine keeps_fabQueueOp _ _ _ ?_
    | dsimp only
    | split
    | with_reducible refine canon_upd ?_ rfl rfl rfl rfl rfl rfl

theorem keeps_execFabPut (a0 : Fin 8) (a1 : State) (h : a1.Canon) : Keeps (execFabPut a0 a1) := by
  unfold execFabPut
  repeat'
    first
    | with_reducible assumption
    | with_reducible assumption
    | with_reducible refine canon_ite ?_ ?_
    | with_reducible refine keeps_fabQueueOp _ _ _ ?_
    | dsimp only
    | split
    | with_reducible refine canon_upd ?_ rfl rfl rfl rfl rfl rfl

theorem keeps_execAtomicDescriptor (a0 : Fin 8) (a1 : State) (h : a1.Canon) : Keeps (execAtomicDescriptor a0 a1) := by
  unfold execAtomicDescriptor
  repeat'
    first
    | with_reducible assumption
    | with_reducible assumption
    | with_reducible refine canon_ite ?_ ?_
    | with_reducible refine keeps_fabQueueOp _ _ _ ?_
    | dsimp only
    | split
    | with_reducible refine canon_upd ?_ rfl rfl rfl rfl rfl rfl

end Sys2Proof.Machine
end

