-- ==== Sys2Proof/Laws/Keeps/Firmware.lean ====
section
/-! SUPPORT. The commands of `Firmware.lean` keep the canonical form of the state. -/

namespace Sys2Proof.Machine

open Sys2Proof

theorem keeps_execOrangeryCopyDone (a0 : Fin 256) (a1 : State) (h : a1.Canon) : Keeps (execOrangeryCopyDone a0 a1) := by
  unfold execOrangeryCopyDone
  repeat'
    first
    | with_reducible assumption
    | with_reducible refine keeps_onPage (by assumption) (fun _ _ => ?_)
    | with_reducible assumption
    | with_reducible refine canon_ite ?_ ?_
    | with_reducible refine canon_repaired _ _ ?_
    | dsimp only
    | split
    | with_reducible refine canon_upd ?_ rfl rfl rfl rfl rfl rfl

theorem keeps_execReplanTimer (a0 : List (BitVec 24)) (a1 : State) (h : a1.Canon) : Keeps (execReplanTimer a0 a1) := by
  unfold execReplanTimer
  repeat'
    first
    | with_reducible assumption
    | with_reducible refine keeps_onReg (by assumption) (fun _ _ => ?_)
    | with_reducible assumption
    | with_reducible refine canon_ite ?_ ?_
    | with_reducible refine canon_replanStart _ _ ?_
    | dsimp only
    | split
    | with_reducible refine canon_upd ?_ rfl rfl rfl rfl rfl rfl

theorem keeps_execReplanNow (a0 : Path) (a1 : Word) (a2 : List (BitVec 24)) (a3 : State) (h : a3.Canon) :
    Keeps (execReplanNow a0 a1 a2 a3) := by
  unfold execReplanNow
  repeat'
    first
    | with_reducible assumption
    | with_reducible refine keeps_fromPath (by assumption) (fun _ _ => ?_)
    | with_reducible refine keeps_onReg (by assumption) (fun _ _ => ?_)
    | with_reducible assumption
    | with_reducible refine canon_ite ?_ ?_
    | with_reducible refine canon_replanStart _ _ ?_
    | with_reducible refine canon_fset _ _ _ _ ?_
    | dsimp only
    | split
    | with_reducible refine canon_upd ?_ rfl rfl rfl rfl rfl rfl

theorem keeps_execProbeDone (a0 : Nat) (a1 : State) (h : a1.Canon) : Keeps (execProbeDone a0 a1) := by
  unfold execProbeDone
  repeat'
    first
    | with_reducible assumption
    | with_reducible refine keeps_onPage (by assumption) (fun _ _ => ?_)
    | with_reducible assumption
    | with_reducible refine canon_ite ?_ ?_
    | with_reducible refine canon_probeDone _ _ ?_
    | with_reducible refine canon_replanGo _ ?_
    | dsimp only
    | split
    | with_reducible refine canon_upd ?_ rfl rfl rfl rfl rfl rfl

theorem keeps_execRestart (a0 : Path) (a1 : State) (h : a1.Canon) : Keeps (execRestart a0 a1) := by
  unfold execRestart
  repeat'
    first
    | with_reducible assumption
    | with_reducible refine keeps_fromPath (by assumption) (fun _ _ => ?_)
    | with_reducible refine keeps_onReg (by assumption) (fun _ _ => ?_)
    | with_reducible assumption
    | with_reducible refine canon_ite ?_ ?_
    | with_reducible refine canon_restartCore _ _ ?_
    | with_reducible refine canon_coreEvent _ _ _ ?_
    | dsimp only
    | split
    | with_reducible refine canon_upd ?_ rfl rfl rfl rfl rfl rfl

theorem keeps_execHaltCore (a0 : Path) (a1 : State) (h : a1.Canon) : Keeps (execHaltCore a0 a1) := by
  unfold execHaltCore
  repeat'
    first
    | with_reducible assumption
    | with_reducible refine keeps_fromPath (by assumption) (fun _ _ => ?_)
    | with_reducible refine keeps_onReg (by assumption) (fun _ _ => ?_)
    | with_reducible assumption
    | with_reducible refine canon_ite ?_ ?_
    | with_reducible refine canon_haltCore _ _ ?_
    | with_reducible refine canon_coreEvent _ _ _ ?_
    | dsimp only
    | split
    | with_reducible refine canon_upd ?_ rfl rfl rfl rfl rfl rfl

theorem keeps_execWatchdogExpiry (a0 : Fin 4) (a1 : State) (h : a1.Canon) : Keeps (execWatchdogExpiry a0 a1) := by
  unfold execWatchdogExpiry
  repeat'
    first
    | with_reducible assumption
    | with_reducible refine keeps_onReg (by assumption) (fun _ _ => ?_)
    | with_reducible assumption
    | with_reducible refine canon_ite ?_ ?_
    | with_reducible refine canon_watchdog _ _ ?_
    | dsimp only
    | split
    | with_reducible refine canon_upd ?_ rfl rfl rfl rfl rfl rfl

theorem keeps_execManagementSramParityError (a0 : Fin 4) (a1 : BitVec 19) (a2 : State) (h : a2.Canon) :
    Keeps (execManagementSramParityError a0 a1 a2) :=
  keeps_onReg h (fun s hs => canon_ite hs (canon_watchdog _ _
    (canon_mgmt (m := { s.mgmt with sram := s.mgmt.sram.putBad a1.toNat (s.mgmt.sram.byte a1.toNat) }) hs
      (Mem.wf_putBad _ _ _ hs.sram_wf))))

theorem keeps_execWdtKick (a0 : Path) (a1 : BitVec 2) (a2 : State) (h : a2.Canon) : Keeps (execWdtKick a0 a1 a2) := by
  unfold execWdtKick
  repeat'
    first
    | with_reducible assumption
    | with_reducible refine keeps_fromPath (by assumption) (fun _ _ => ?_)
    | with_reducible refine keeps_onReg (by assumption) (fun _ _ => ?_)
    | with_reducible assumption
    | with_reducible refine canon_ite ?_ ?_
    | with_reducible refine canon_kick _ _ ?_
    | dsimp only
    | split
    | with_reducible refine canon_upd ?_ rfl rfl rfl rfl rfl rfl

theorem keeps_execCoreExchange (a0 : BitVec 16) (a1 : List Byte) (a2 : State) (h : a2.Canon) :
    Keeps (execCoreExchange a0 a1 a2) := by
  unfold execCoreExchange
  repeat'
    first
    | with_reducible assumption
    | with_reducible refine keeps_onReg (by assumption) (fun _ _ => ?_)
    | with_reducible assumption
    | with_reducible refine canon_ite ?_ ?_
    | with_reducible refine canon_activated _ _ _ _ ?_
    | dsimp only
    | split
    | with_reducible refine canon_upd ?_ rfl rfl rfl rfl rfl rfl

theorem keeps_execEruPop (a0 : Path) (a1 : State) (h : a1.Canon) : Keeps (execEruPop a0 a1) := by
  refine keeps_fromPath h (fun t ht => keeps_onReg ht (fun s hs => ?_))
  have h1 : ({ s with eru := { s.eru with queue := s.eru.queue.drop 1 } }).Canon :=
    canon_eru hs (Nat.le_trans (by rw [List.length_drop]; exact Nat.sub_le _ _) hs.2.2.2.2.2)
  dsimp only
  split
  · refine canon_ite (canon_notify _ _ _ _ ?_) ?_ <;> exact canon_upd h1 rfl rfl rfl rfl rfl rfl
  · exact h1

end Sys2Proof.Machine
end

