-- ==== Sys2Proof/Laws/Keeps/Gate.lean ====
section
/-! SUPPORT. The commands of `Gate.lean` keep the canonical form of the state. -/

namespace Sys2Proof.Machine

open Sys2Proof

theorem keeps_execOpenGate (a0 : Option Path) (a1 : Bool) (a2 : State) (h : a2.Canon) : Keeps (execOpenGate a0 a1 a2) := by
  have h1 : (a2.authorise a1).Canon := canon_authorise _ _ h
  cases a0 with
  | some p => exact keeps_fromPath h1 (fun t ht => keeps_onReg ht canon_gateOpen)
  | none => exact keeps_onReg (canon_fset _ _ _ _ (canon_upd h1 rfl rfl rfl rfl rfl rfl)) canon_gateOpen

theorem keeps_execGateEraseDone (a0 : Bool) (a1 : BitVec 16) (a2 : State) (h : a2.Canon) :
    Keeps (execGateEraseDone a0 a1 a2) := by
  unfold execGateEraseDone
  repeat'
    first
    | with_reducible assumption
    | with_reducible refine keeps_onUp (by assumption) (fun _ _ => ?_)
    | with_reducible assumption
    | with_reducible refine canon_ite ?_ ?_
    | with_reducible refine canon_eraseTower _ ?_
    | with_reducible refine canon_fset _ _ _ _ ?_
    | with_reducible refine canon_authorise _ _ ?_
    | dsimp only
    | split
    | with_reducible refine canon_upd ?_ rfl rfl rfl rfl rfl rfl

theorem keeps_execWsBypass (a0 : State) (h : a0.Canon) : Keeps (execWsBypass a0) := by
  unfold execWsBypass
  repeat'
    first
    | with_reducible assumption
    | with_reducible refine keeps_next ?_
    | with_reducible refine canon_ite ?_ ?_
    | with_reducible refine canon_wir _ _ _ ?_
    | dsimp only
    | split
    | with_reducible refine canon_upd ?_ rfl rfl rfl rfl rfl rfl

theorem keeps_execWsIdcode (a0 : State) (h : a0.Canon) : Keeps (execWsIdcode a0) := by
  unfold execWsIdcode
  repeat'
    first
    | with_reducible assumption
    | with_reducible refine keeps_next ?_
    | with_reducible refine canon_ite ?_ ?_
    | with_reducible refine canon_wir _ _ _ ?_
    | dsimp only
    | split
    | with_reducible refine canon_upd ?_ rfl rfl rfl rfl rfl rfl

theorem keeps_execWsExtest (a0 : State) (h : a0.Canon) : Keeps (execWsExtest a0) := by
  unfold execWsExtest
  repeat'
    first
    | with_reducible assumption
    | with_reducible refine keeps_next ?_
    | with_reducible refine canon_ite ?_ ?_
    | with_reducible refine canon_wir _ _ _ ?_
    | dsimp only
    | split
    | with_reducible refine canon_upd ?_ rfl rfl rfl rfl rfl rfl

theorem keeps_execWsIntestScan (a0 : State) (h : a0.Canon) : Keeps (execWsIntestScan a0) := by
  unfold execWsIntestScan
  repeat'
    first
    | with_reducible assumption
    | with_reducible refine keeps_next ?_
    | with_reducible refine canon_ite ?_ ?_
    | with_reducible refine canon_wir _ _ _ ?_
    | dsimp only
    | split
    | with_reducible refine canon_upd ?_ rfl rfl rfl rfl rfl rfl

theorem keeps_execTowerAccess (a0 : Fin 512) (a1 : List TowerCmd) (a2 : State) (h : a2.Canon) : Keeps (execTowerAccess a0 a1 a2) := by
  have h1 := canon_wir a2 0x12 [] h
  unfold execTowerAccess
  dsimp only
  split
  · exact keeps_onUp h1 (fun s hs => canon_ite hs (canon_foldl hs (fun _ _ ht => canon_rawCmd _ _ _ ht)))
  · exact keeps_next h1

end Sys2Proof.Machine
end

