-- ==== Sys2Proof/Laws/Keeps/HostData.lean ====
section
/-! SUPPORT. The commands of `HostData.lean` keep the canonical form of the state. -/

namespace Sys2Proof.Machine

open Sys2Proof

theorem keeps_execHostWrite (a0 : Fin 4) (a1 : BitVec 128) (a2 : List (List Byte × List Bool)) (a3 : State) (h : a3.Canon) :
    Keeps (execHostWrite a0 a1 a2 a3) := by
  unfold execHostWrite
  repeat'
    first
    | with_reducible assumption
    | with_reducible refine keeps_onPage (by assumption) (fun _ _ => ?_)
    | with_reducible assumption
    | with_reducible refine canon_ite ?_ ?_
    | with_reducible refine canon_hostReq _ _ _ _ _ ?_
    | dsimp only
    | split
    | with_reducible refine canon_upd ?_ rfl rfl rfl rfl rfl rfl

theorem keeps_execHostRead (a0 : Fin 4) (a1 : BitVec 128) (a2 : State) (h : a2.Canon) : Keeps (execHostRead a0 a1 a2) := by
  unfold execHostRead
  repeat'
    first
    | with_reducible assumption
    | with_reducible refine keeps_onPage (by assumption) (fun _ _ => ?_)
    | with_reducible assumption
    | with_reducible refine canon_ite ?_ ?_
    | with_reducible refine canon_hostReq _ _ _ _ _ ?_
    | dsimp only
    | split
    | with_reducible refine canon_upd ?_ rfl rfl rfl rfl rfl rfl

theorem keeps_execRspReady (a0 : Fin 4) (a1 : Option Nat) (a2 : State) (h : a2.Canon) : Keeps (execRspReady a0 a1 a2) := by
  unfold execRspReady
  repeat'
    first
    | with_reducible assumption
    | with_reducible refine keeps_onUp (by assumption) (fun _ _ => ?_)
    | with_reducible assumption
    | with_reducible refine canon_ite ?_ ?_
    | with_reducible refine canon_c1Latency _ _ ?_
    | with_reducible refine canon_takeBeat _ _ ?_
    | dsimp only
    | split
    | with_reducible refine canon_upd ?_ rfl rfl rfl rfl rfl rfl

theorem keeps_execWriteAdmit (a0 : State) (h : a0.Canon) : Keeps (execWriteAdmit a0) := by
  unfold execWriteAdmit
  repeat'
    first
    | with_reducible assumption
    | with_reducible refine keeps_onPage (by assumption) (fun _ _ => ?_)
    | with_reducible assumption
    | with_reducible refine canon_ite ?_ ?_
    | with_reducible refine canon_passesFlush _ ?_
    | with_reducible refine canon_retryStalled _ ?_
    | with_reducible refine canon_colAdvance _ ?_
    | with_reducible refine canon_updSeals _ ?_
    | with_reducible refine canon_switchesBegin _ ?_
    | dsimp only
    | split
    | with_reducible refine canon_upd ?_ rfl rfl rfl rfl rfl rfl

theorem keeps_execGatherResponse (a0 : Bool) (a1 : BitVec 20) (a2 : List Byte) (a3 : Bool) (a4 : State) (h : a4.Canon) :
    Keeps (execGatherResponse a0 a1 a2 a3 a4) := by
  unfold execGatherResponse
  repeat'
    first
    | with_reducible assumption
    | with_reducible refine keeps_onMsg (by assumption) (fun _ _ => ?_)
    | with_reducible assumption
    | with_reducible refine canon_ite ?_ ?_
    | with_reducible refine canon_gatherIn _ _ _ _ ?_
    | with_reducible refine canon_heldRepairs _ ?_
    | with_reducible refine canon_retryStalled _ ?_
    | with_reducible refine canon_colAdvance _ ?_
    | dsimp only
    | split
    | with_reducible refine canon_upd ?_ rfl rfl rfl rfl rfl rfl

theorem keeps_execGatherTimeout (a0 : Fin 16) (a1 : Nat) (a2 : Fin 32) (a3 : State) (h : a3.Canon) :
    Keeps (execGatherTimeout a0 a1 a2 a3) := by
  unfold execGatherTimeout
  repeat'
    first
    | with_reducible assumption
    | with_reducible refine keeps_onUp (by assumption) (fun _ _ => ?_)
    | with_reducible assumption
    | with_reducible refine canon_ite ?_ ?_
    | with_reducible refine canon_gatherTimeout _ _ _ _ ?_
    | with_reducible refine canon_heldRepairs _ ?_
    | with_reducible refine canon_retryStalled _ ?_
    | with_reducible refine canon_colAdvance _ ?_
    | dsimp only
    | split
    | with_reducible refine canon_upd ?_ rfl rfl rfl rfl rfl rfl

theorem keeps_execXtResponse (a0 : BitVec 29) (a1 : Bool) (a2 : Bool) (a3 : State) (h : a3.Canon) :
    Keeps (execXtResponse a0 a1 a2 a3) := by
  unfold execXtResponse
  repeat'
    first
    | with_reducible assumption
    | with_reducible refine keeps_onUp (by assumption) (fun _ _ => ?_)
    | with_reducible assumption
    | with_reducible refine canon_ite ?_ ?_
    | with_reducible refine canon_gatherStart _ _ _ _ _ ?_
    | with_reducible refine canon_tagRead _ _ _ ?_
    | with_reducible refine canon_logXt _ _ ?_
    | with_reducible refine canon_extPoison _ _ ?_
    | with_reducible refine canon_xtAnswer _ _ _ ?_
    | with_reducible refine canon_pair (by assumption) ?_
    | dsimp only
    | split
    | with_reducible refine canon_upd ?_ rfl rfl rfl rfl rfl rfl

end Sys2Proof.Machine
end

