-- ==== Sys2Proof/Laws/Keeps/Kiosk.lean ====
section
/-! SUPPORT. The commands of `Kiosk.lean` keep the canonical form of the state. -/

namespace Sys2Proof.Machine

open Sys2Proof

theorem keeps_execKioskDoorbell (a0 : Path) (a1 : State) (h : a1.Canon) : Keeps (execKioskDoorbell a0 a1) := by
  unfold execKioskDoorbell
  repeat'
    first
    | with_reducible assumption
    | with_reducible refine keeps_fromPath (by assumption) (fun _ _ => ?_)
    | with_reducible refine keeps_onReg (by assumption) (fun _ _ => ?_)
    | with_reducible assumption
    | with_reducible refine canon_ite ?_ ?_
    | with_reducible refine canon_kskIn _ _ _ _ ?_
    | dsimp only
    | split
    | with_reducible refine canon_upd ?_ rfl rfl rfl rfl rfl rfl

theorem keeps_execKioskTake (a0 : Path) (a1 : State) (h : a1.Canon) : Keeps (execKioskTake a0 a1) := by
  unfold execKioskTake
  repeat'
    first
    | with_reducible assumption
    | with_reducible refine keeps_fromPath (by assumption) (fun _ _ => ?_)
    | with_reducible refine keeps_onReg (by assumption) (fun _ _ => ?_)
    | with_reducible assumption
    | with_reducible refine canon_ite ?_ ?_
    | with_reducible refine canon_irq _ _ _ ?_
    | with_reducible refine canon_setBox _ _ _ ?_
    | with_reducible refine canon_foldl ?_ (fun _ _ _ => ?_)
    | with_reducible refine canon_foldl_fst ?_ (fun _ _ _ => ?_)
    | with_reducible refine canon_pair (by assumption) ?_
    | dsimp only
    | split
    | with_reducible refine canon_upd ?_ rfl rfl rfl rfl rfl rfl

end Sys2Proof.Machine
end

