-- ==== Sys2Proof/Laws/Keeps/KioskCmds.lean ====
section
/-! SUPPORT. The commands of `KioskCmds.lean` keep the canonical form of the state. -/

namespace Sys2Proof.Machine

open Sys2Proof

theorem keeps_execKioskHello (a0 : Fin 4) (a1 : State) (h : a1.Canon) : Keeps (execKioskHello a0 a1) := by
  unfold execKioskHello
  repeat'
    first
    | with_reducible assumption
    | with_reducible refine keeps_onKiosk (by assumption) (fun _ _ _ _ => ?_)
    | with_reducible assumption
    | with_reducible refine canon_ite ?_ ?_
    | dsimp only
    | split
    | with_reducible refine canon_upd ?_ rfl rfl rfl rfl rfl rfl

theorem keeps_execKioskStatus (a0 : Fin 4) (a1 : State) (h : a1.Canon) : Keeps (execKioskStatus a0 a1) := by
  unfold execKioskStatus
  repeat'
    first
    | with_reducible assumption
    | with_reducible refine keeps_onKiosk (by assumption) (fun _ _ _ _ => ?_)
    | with_reducible assumption
    | with_reducible refine canon_ite ?_ ?_
    | dsimp only
    | split
    | with_reducible refine canon_upd ?_ rfl rfl rfl rfl rfl rfl

theorem keeps_execLogRead (a0 : Fin 4) (a1 : State) (h : a1.Canon) : Keeps (execLogRead a0 a1) := by
  unfold execLogRead
  repeat'
    first
    | with_reducible assumption
    | with_reducible refine keeps_onKiosk (by assumption) (fun _ _ _ _ => ?_)
    | with_reducible assumption
    | with_reducible refine canon_ite ?_ ?_
    | dsimp only
    | split
    | with_reducible refine canon_upd ?_ rfl rfl rfl rfl rfl rfl

theorem keeps_execRepairPut (a0 : Fin 4) (a1 : State) (h : a1.Canon) : Keeps (execRepairPut a0 a1) := by
  unfold execRepairPut
  repeat'
    first
    | with_reducible assumption
    | with_reducible refine keeps_onKiosk (by assumption) (fun _ _ _ _ => ?_)
    | with_reducible assumption
    | with_reducible refine canon_ite ?_ ?_
    | with_reducible refine canon_repairGo _ ?_
    | with_reducible refine canon_kskReady _ ?_
    | dsimp only
    | split
    | with_reducible refine canon_upd ?_ rfl rfl rfl rfl rfl rfl

theorem keeps_execRepairGet (a0 : Fin 4) (a1 : State) (h : a1.Canon) : Keeps (execRepairGet a0 a1) := by
  unfold execRepairGet
  repeat'
    first
    | with_reducible assumption
    | with_reducible refine keeps_onKiosk (by assumption) (fun _ _ _ _ => ?_)
    | with_reducible assumption
    | with_reducible refine canon_ite ?_ ?_
    | dsimp only
    | split
    | with_reducible refine canon_upd ?_ rfl rfl rfl rfl rfl rfl

theorem keeps_execAgeingGet (a0 : Fin 4) (a1 : State) (h : a1.Canon) : Keeps (execAgeingGet a0 a1) := by
  unfold execAgeingGet
  repeat'
    first
    | with_reducible assumption
    | with_reducible refine keeps_onKiosk (by assumption) (fun _ _ _ _ => ?_)
    | with_reducible assumption
    | with_reducible refine canon_ite ?_ ?_
    | dsimp only
    | split
    | with_reducible refine canon_upd ?_ rfl rfl rfl rfl rfl rfl

theorem keeps_execReplan (a0 : Fin 4) (a1 : List (BitVec 24)) (a2 : State) (h : a2.Canon) : Keeps (execReplan a0 a1 a2) := by
  unfold execReplan
  repeat'
    first
    | with_reducible assumption
    | with_reducible refine keeps_onKiosk (by assumption) (fun _ _ _ _ => ?_)
    | with_reducible assumption
    | with_reducible refine canon_ite ?_ ?_
    | with_reducible refine canon_replanStart _ _ ?_
    | dsimp only
    | split
    | with_reducible refine canon_upd ?_ rfl rfl rfl rfl rfl rfl

theorem keeps_execFwStage (a0 : Fin 4) (a1 : State) (h : a1.Canon) : Keeps (execFwStage a0 a1) := by
  unfold execFwStage
  repeat'
    first
    | with_reducible assumption
    | with_reducible refine keeps_onKiosk (by assumption) (fun _ _ _ _ => ?_)
    | with_reducible assumption
    | with_reducible refine canon_ite ?_ ?_
    | with_reducible refine canon_agentStage _ _ ?_
    | with_reducible refine canon_stage _ _ ?_
    | with_reducible refine canon_pair (by assumption) ?_
    | dsimp only
    | split
    | with_reducible refine canon_upd ?_ rfl rfl rfl rfl rfl rfl

theorem keeps_execFwActivate (a0 : Fin 4) (a1 : State) (h : a1.Canon) : Keeps (execFwActivate a0 a1) := by
  unfold execFwActivate
  repeat'
    first
    | with_reducible assumption
    | with_reducible refine keeps_onKiosk (by assumption) (fun _ _ _ _ => ?_)
    | with_reducible assumption
    | with_reducible refine canon_ite ?_ ?_
    | with_reducible refine canon_activate _ _ _ ?_
    | with_reducible refine canon_pair (by assumption) ?_
    | dsimp only
    | split
    | with_reducible refine canon_upd ?_ rfl rfl rfl rfl rfl rfl

theorem keeps_execFwRevert (a0 : Fin 4) (a1 : State) (h : a1.Canon) : Keeps (execFwRevert a0 a1) := by
  unfold execFwRevert
  repeat'
    first
    | with_reducible assumption
    | with_reducible refine keeps_onKiosk (by assumption) (fun _ _ _ _ => ?_)
    | with_reducible assumption
    | with_reducible refine canon_ite ?_ ?_
    | with_reducible refine canon_fwRevert _ _ ?_
    | with_reducible refine canon_pair (by assumption) ?_
    | dsimp only
    | split
    | with_reducible refine canon_upd ?_ rfl rfl rfl rfl rfl rfl

end Sys2Proof.Machine
end

