-- ==== Sys2Proof/Laws/Keeps/LaneCmds.lean ====
section
/-! SUPPORT. The commands of `LaneCmds.lean` keep the canonical form of the state. -/

namespace Sys2Proof.Machine

open Sys2Proof

theorem keeps_execLaneEntry (a0 : Fin 8) (a1 : Fin 16) (a2 : Fin 4) (a3 : Nat) (a4 : Fin 256) (a5 : Fin 256) (a6 : Nat) (a7 : State) (h : a7.Canon) :
    Keeps (execLaneEntry a0 a1 a2 a3 a4 a5 a6 a7) := by
  unfold execLaneEntry
  repeat'
    first
    | with_reducible assumption
    | with_reducible refine keeps_onPage (by assumption) (fun _ _ => ?_)
    | with_reducible assumption
    | with_reducible refine canon_ite ?_ ?_
    | with_reducible refine canon_consume _ _ _ _ _ _ _ _ _ ?_
    | dsimp only
    | split
    | with_reducible refine canon_upd ?_ rfl rfl rfl rfl rfl rfl

theorem keeps_execStreamMm (a0 : Fin 16) (a1 : List LaneFault) (a2 : State) (h : a2.Canon) : Keeps (execStreamMm a0 a1 a2) := by
  unfold execStreamMm
  repeat'
    first
    | with_reducible assumption
    | with_reducible refine keeps_onPage (by assumption) (fun _ _ => ?_)
    | with_reducible assumption
    | with_reducible refine canon_ite ?_ ?_
    | with_reducible refine canon_laneRun _ _ _ _ ?_
    | dsimp only
    | split
    | with_reducible refine canon_upd ?_ rfl rfl rfl rfl rfl rfl

theorem keeps_execGatherPool (a0 : Fin 16) (a1 : State) (h : a1.Canon) : Keeps (execGatherPool a0 a1) := by
  unfold execGatherPool
  repeat'
    first
    | with_reducible assumption
    | with_reducible refine keeps_onPage (by assumption) (fun _ _ => ?_)
    | with_reducible assumption
    | with_reducible refine canon_ite ?_ ?_
    | with_reducible refine canon_laneRun _ _ _ _ ?_
    | dsimp only
    | split
    | with_reducible refine canon_upd ?_ rfl rfl rfl rfl rfl rfl

theorem keeps_execReduceAdd (a0 : Fin 16) (a1 : State) (h : a1.Canon) : Keeps (execReduceAdd a0 a1) := by
  unfold execReduceAdd
  repeat'
    first
    | with_reducible assumption
    | with_reducible refine keeps_onPage (by assumption) (fun _ _ => ?_)
    | with_reducible assumption
    | with_reducible refine canon_ite ?_ ?_
    | with_reducible refine canon_laneRun _ _ _ _ ?_
    | dsimp only
    | split
    | with_reducible refine canon_upd ?_ rfl rfl rfl rfl rfl rfl

theorem keeps_execOperandLand (a0 : Fin 16) (a1 : State) (h : a1.Canon) : Keeps (execOperandLand a0 a1) := by
  unfold execOperandLand
  repeat'
    first
    | with_reducible assumption
    | with_reducible refine keeps_onPage (by assumption) (fun _ _ => ?_)
    | with_reducible assumption
    | with_reducible refine canon_ite ?_ ?_
    | with_reducible refine canon_laneRun _ _ _ _ ?_
    | dsimp only
    | split
    | with_reducible refine canon_upd ?_ rfl rfl rfl rfl rfl rfl

theorem keeps_execChainEnd (a0 : Fin 16) (a1 : State) (h : a1.Canon) : Keeps (execChainEnd a0 a1) := by
  unfold execChainEnd
  repeat'
    first
    | with_reducible assumption
    | with_reducible refine keeps_onPage (by assumption) (fun _ _ => ?_)
    | with_reducible assumption
    | with_reducible refine canon_ite ?_ ?_
    | with_reducible refine canon_closeChain _ _ ?_
    | with_reducible refine canon_colAdvance _ ?_
    | dsimp only
    | split
    | with_reducible refine canon_upd ?_ rfl rfl rfl rfl rfl rfl

theorem keeps_execChainLimit (a0 : Fin 16) (a1 : State) (h : a1.Canon) : Keeps (execChainLimit a0 a1) := by
  unfold execChainLimit
  repeat'
    first
    | with_reducible assumption
    | with_reducible refine keeps_onPage (by assumption) (fun _ _ => ?_)
    | with_reducible assumption
    | with_reducible refine canon_ite ?_ ?_
    | with_reducible refine canon_chainLimit _ _ ?_
    | dsimp only
    | split
    | with_reducible refine canon_upd ?_ rfl rfl rfl rfl rfl rfl

theorem keeps_execBypassWrite (a0 : Path) (a1 : Bool) (a2 : Word) (a3 : State) (h : a3.Canon) :
    Keeps (execBypassWrite a0 a1 a2 a3) := by
  unfold execBypassWrite
  repeat'
    first
    | with_reducible assumption
    | with_reducible refine keeps_onPage (by assumption) (fun _ _ => ?_)
    | with_reducible refine keeps_fromPath (by assumption) (fun _ _ => ?_)
    | with_reducible assumption
    | with_reducible refine canon_ite ?_ ?_
    | with_reducible refine canon_pathWrite _ _ _ _ ?_
    | with_reducible refine canon_showPending _ ?_
    | dsimp only
    | split
    | with_reducible refine canon_upd ?_ rfl rfl rfl rfl rfl rfl

theorem keeps_execKwidthPinWrite (a0 : Path) (a1 : Word) (a2 : State) (h : a2.Canon) : Keeps (execKwidthPinWrite a0 a1 a2) := by
  unfold execKwidthPinWrite
  repeat'
    first
    | with_reducible assumption
    | with_reducible refine keeps_onPage (by assumption) (fun _ _ => ?_)
    | with_reducible refine keeps_fromPath (by assumption) (fun _ _ => ?_)
    | with_reducible assumption
    | with_reducible refine canon_ite ?_ ?_
    | with_reducible refine canon_pinWrite _ _ ?_
    | dsimp only
    | split
    | with_reducible refine canon_upd ?_ rfl rfl rfl rfl rfl rfl

theorem keeps_execRowTest (a0 : Path) (a1 : State) (h : a1.Canon) : Keeps (execRowTest a0 a1) := by
  unfold execRowTest
  repeat'
    first
    | with_reducible assumption
    | with_reducible refine keeps_onPage (by assumption) (fun _ _ => ?_)
    | with_reducible refine keeps_fromPath (by assumption) (fun _ _ => ?_)
    | with_reducible assumption
    | with_reducible refine canon_ite ?_ ?_
    | with_reducible refine canon_rowTest _ _ ?_
    | dsimp only
    | split
    | with_reducible refine canon_upd ?_ rfl rfl rfl rfl rfl rfl

theorem keeps_execRowTestDone (a0 : Word) (a1 : Word) (a2 : State) (h : a2.Canon) : Keeps (execRowTestDone a0 a1 a2) := by
  unfold execRowTestDone
  repeat'
    first
    | with_reducible assumption
    | with_reducible refine keeps_onPage (by assumption) (fun _ _ => ?_)
    | with_reducible assumption
    | with_reducible refine canon_ite ?_ ?_
    | with_reducible refine canon_wr _ _ _ _ ?_
    | with_reducible refine canon_irq _ _ _ ?_
    | with_reducible refine canon_set0 _ _ _ ?_
    | with_reducible refine canon_set1 _ _ _ ?_
    | with_reducible refine canon_fset _ _ _ _ ?_
    | dsimp only
    | split
    | with_reducible refine canon_upd ?_ rfl rfl rfl rfl rfl rfl

theorem keeps_execIdleWindow (a0 : Nat) (a1 : State) (h : a1.Canon) : Keeps (execIdleWindow a0 a1) := by
  unfold execIdleWindow
  repeat'
    first
    | with_reducible assumption
    | with_reducible refine keeps_onPage (by assumption) (fun _ _ => ?_)
    | with_reducible assumption
    | with_reducible refine canon_ite ?_ ?_
    | with_reducible refine canon_idleWindow _ _ ?_
    | dsimp only
    | split
    | with_reducible refine canon_upd ?_ rfl rfl rfl rfl rfl rfl

theorem keeps_execQTailWrite (a0 : Path) (a1 : QKind) (a2 : Word) (a3 : State) (h : a3.Canon) :
    Keeps (execQTailWrite a0 a1 a2 a3) := by
  unfold execQTailWrite
  repeat'
    first
    | with_reducible assumption
    | with_reducible refine keeps_onPage (by assumption) (fun _ _ => ?_)
    | with_reducible refine keeps_fromPath (by assumption) (fun _ _ => ?_)
    | with_reducible assumption
    | with_reducible refine canon_ite ?_ ?_
    | with_reducible refine canon_tailWrite _ _ _ _ ?_
    | dsimp only
    | split
    | with_reducible refine canon_upd ?_ rfl rfl rfl rfl rfl rfl

theorem keeps_execQEnable (a0 : Path) (a1 : QKind) (a2 : Word) (a3 : State) (h : a3.Canon) :
    Keeps (execQEnable a0 a1 a2 a3) := by
  unfold execQEnable
  repeat'
    first
    | with_reducible assumption
    | with_reducible refine keeps_onPage (by assumption) (fun _ _ => ?_)
    | with_reducible refine keeps_fromPath (by assumption) (fun _ _ => ?_)
    | with_reducible assumption
    | with_reducible refine canon_ite ?_ ?_
    | with_reducible refine canon_qCfgWrite _ _ _ _ ?_
    | dsimp only
    | split
    | with_reducible refine canon_upd ?_ rfl rfl rfl rfl rfl rfl

end Sys2Proof.Machine
end

