-- ==== Sys2Proof/Laws/Keeps/PageCmds.lean ====
section
/-! SUPPORT. The commands of `PageCmds.lean` keep the canonical form of the state. -/

namespace Sys2Proof.Machine

open Sys2Proof

theorem keeps_pageQueueOp (a0 : Fin 8) (a1 : Nat) (a2 : State) (h : a2.Canon) : Keeps (pageQueueOp a0 a1 a2) := by
  unfold pageQueueOp
  repeat'
    first
    | with_reducible assumption
    | with_reducible refine keeps_onMover (by assumption) (fun _ _ => ?_)
    | with_reducible assumption
    | with_reducible refine canon_ite ?_ ?_
    | with_reducible refine canon_pageOp _ _ _ ?_
    | dsimp only
    | split
    | with_reducible refine canon_upd ?_ rfl rfl rfl rfl rfl rfl

theorem keeps_execMapPages (a0 : Fin 8) (a1 : State) (h : a1.Canon) : Keeps (execMapPages a0 a1) := by
  unfold execMapPages
  repeat'
    first
    | with_reducible assumption
    | with_reducible assumption
    | with_reducible refine canon_ite ?_ ?_
    | with_reducible refine keeps_pageQueueOp _ _ _ ?_
    | dsimp only
    | split
    | with_reducible refine canon_upd ?_ rfl rfl rfl rfl rfl rfl

theorem keeps_execUnmap (a0 : Fin 8) (a1 : State) (h : a1.Canon) : Keeps (execUnmap a0 a1) := by
  unfold execUnmap
  repeat'
    first
    | with_reducible assumption
    | with_reducible assumption
    | with_reducible refine canon_ite ?_ ?_
    | with_reducible refine keeps_pageQueueOp _ _ _ ?_
    | dsimp only
    | split
    | with_reducible refine canon_upd ?_ rfl rfl rfl rfl rfl rfl

theorem keeps_execMovePages (a0 : Fin 8) (a1 : State) (h : a1.Canon) : Keeps (execMovePages a0 a1) := by
  unfold execMovePages
  repeat'
    first
    | with_reducible assumption
    | with_reducible assumption
    | with_reducible refine canon_ite ?_ ?_
    | with_reducible refine keeps_pageQueueOp _ _ _ ?_
    | dsimp only
    | split
    | with_reducible refine canon_upd ?_ rfl rfl rfl rfl rfl rfl

theorem keeps_execReserveFrames (a0 : Fin 8) (a1 : State) (h : a1.Canon) : Keeps (execReserveFrames a0 a1) := by
  unfold execReserveFrames
  repeat'
    first
    | with_reducible assumption
    | with_reducible assumption
    | with_reducible refine canon_ite ?_ ?_
    | with_reducible refine keeps_pageQueueOp _ _ _ ?_
    | dsimp only
    | split
    | with_reducible refine canon_upd ?_ rfl rfl rfl rfl rfl rfl

theorem keeps_execSeqAdd (a0 : Fin 8) (a1 : State) (h : a1.Canon) : Keeps (execSeqAdd a0 a1) := by
  unfold execSeqAdd
  repeat'
    first
    | with_reducible assumption
    | with_reducible assumption
    | with_reducible refine canon_ite ?_ ?_
    | with_reducible refine keeps_pageQueueOp _ _ _ ?_
    | dsimp only
    | split
    | with_reducible refine canon_upd ?_ rfl rfl rfl rfl rfl rfl

theorem keeps_execSeqShare (a0 : Fin 8) (a1 : State) (h : a1.Canon) : Keeps (execSeqShare a0 a1) := by
  unfold execSeqShare
  repeat'
    first
    | with_reducible assumption
    | with_reducible assumption
    | with_reducible refine canon_ite ?_ ?_
    | with_reducible refine keeps_pageQueueOp _ _ _ ?_
    | dsimp only
    | split
    | with_reducible refine canon_upd ?_ rfl rfl rfl rfl rfl rfl

theorem keeps_execSeqFree (a0 : Fin 8) (a1 : State) (h : a1.Canon) : Keeps (execSeqFree a0 a1) := by
  unfold execSeqFree
  repeat'
    first
    | with_reducible assumption
    | with_reducible assumption
    | with_reducible refine canon_ite ?_ ?_
    | with_reducible refine keeps_pageQueueOp _ _ _ ?_
    | dsimp only
    | split
    | with_reducible refine canon_upd ?_ rfl rfl rfl rfl rfl rfl

theorem keeps_execCow (a0 : Fin 8) (a1 : State) (h : a1.Canon) : Keeps (execCow a0 a1) := by
  unfold execCow
  repeat'
    first
    | with_reducible assumption
    | with_reducible assumption
    | with_reducible refine canon_ite ?_ ?_
    | with_reducible refine keeps_pageQueueOp _ _ _ ?_
    | dsimp only
    | split
    | with_reducible refine canon_upd ?_ rfl rfl rfl rfl rfl rfl

theorem keeps_execPftLookup (a0 : Fin 8) (a1 : State) (h : a1.Canon) : Keeps (execPftLookup a0 a1) := by
  unfold execPftLookup
  repeat'
    first
    | with_reducible assumption
    | with_reducible assumption
    | with_reducible refine canon_ite ?_ ?_
    | with_reducible refine keeps_pageQueueOp _ _ _ ?_
    | dsimp only
    | split
    | with_reducible refine canon_upd ?_ rfl rfl rfl rfl rfl rfl

theorem keeps_execPftInsert (a0 : Fin 8) (a1 : State) (h : a1.Canon) : Keeps (execPftInsert a0 a1) := by
  unfold execPftInsert
  repeat'
    first
    | with_reducible assumption
    | with_reducible assumption
    | with_reducible refine canon_ite ?_ ?_
    | with_reducible refine keeps_pageQueueOp _ _ _ ?_
    | dsimp only
    | split
    | with_reducible refine canon_upd ?_ rfl rfl rfl rfl rfl rfl

theorem keeps_execPftRemove (a0 : Fin 8) (a1 : State) (h : a1.Canon) : Keeps (execPftRemove a0 a1) := by
  unfold execPftRemove
  repeat'
    first
    | with_reducible assumption
    | with_reducible assumption
    | with_reducible refine canon_ite ?_ ?_
    | with_reducible refine keeps_pageQueueOp _ _ _ ?_
    | dsimp only
    | split
    | with_reducible refine canon_upd ?_ rfl rfl rfl rfl rfl rfl

theorem keeps_execPageMoveDone (a0 : Fin 8) (a1 : BitVec 24) (a2 : State) (h : a2.Canon) :
    Keeps (execPageMoveDone a0 a1 a2) := by
  unfold execPageMoveDone
  repeat'
    first
    | with_reducible assumption
    | with_reducible refine keeps_onMover (by assumption) (fun _ _ => ?_)
    | with_reducible assumption
    | with_reducible refine canon_ite ?_ ?_
    | with_reducible refine canon_pageMoveDone _ _ _ ?_
    | with_reducible refine canon_runJobs _ ?_
    | dsimp only
    | split
    | with_reducible refine canon_upd ?_ rfl rfl rfl rfl rfl rfl

theorem keeps_execPinRelease (a0 : Fin 8) (a1 : BitVec 24) (a2 : State) (h : a2.Canon) : Keeps (execPinRelease a0 a1 a2) := by
  unfold execPinRelease
  repeat'
    first
    | with_reducible assumption
    | with_reducible refine keeps_onPage (by assumption) (fun _ _ => ?_)
    | with_reducible assumption
    | with_reducible refine canon_ite ?_ ?_
    | with_reducible refine canon_unpin _ _ _ ?_
    | with_reducible refine canon_runJobs _ ?_
    | dsimp only
    | split
    | with_reducible refine canon_upd ?_ rfl rfl rfl rfl rfl rfl

theorem keeps_execEvict (a0 : State) (h : a0.Canon) : Keeps (execEvict a0) := by
  unfold execEvict
  repeat'
    first
    | with_reducible assumption
    | with_reducible refine keeps_onMover (by assumption) (fun _ _ => ?_)
    | with_reducible assumption
    | with_reducible refine canon_ite ?_ ?_
    | with_reducible refine canon_runJobs _ ?_
    | with_reducible refine canon_noSpace _ _ _ _ ?_
    | with_reducible refine canon_evictPage _ _ _ _ ?_
    | with_reducible refine canon_updEvicting _ ?_
    | with_reducible refine canon_pair (by assumption) ?_
    | dsimp only
    | split
    | with_reducible refine canon_upd ?_ rfl rfl rfl rfl rfl rfl

theorem keeps_execZeroFill (a0 : Bool) (a1 : Nat) (a2 : State) (h : a2.Canon) : Keeps (execZeroFill a0 a1 a2) := by
  unfold execZeroFill
  repeat'
    first
    | with_reducible assumption
    | with_reducible refine keeps_onMover (by assumption) (fun _ _ => ?_)
    | with_reducible assumption
    | with_reducible refine canon_ite ?_ ?_
    | with_reducible refine canon_fillFrame _ _ _ ?_
    | with_reducible refine canon_setFrame _ _ _ _ ?_
    | with_reducible refine canon_updEvicting _ ?_
    | dsimp only
    | split
    | with_reducible refine canon_upd ?_ rfl rfl rfl rfl rfl rfl

theorem keeps_execAgerPass (a0 : State) (h : a0.Canon) : Keeps (execAgerPass a0) := by
  unfold execAgerPass
  repeat'
    first
    | with_reducible assumption
    | with_reducible refine keeps_onMover (by assumption) (fun _ _ => ?_)
    | with_reducible assumption
    | with_reducible refine canon_ite ?_ ?_
    | with_reducible refine canon_agerPass _ ?_
    | dsimp only
    | split
    | with_reducible refine canon_upd ?_ rfl rfl rfl rfl rfl rfl

theorem keeps_execMapPagesWrite (a0 : Path) (a1 : Word) (a2 : State) (h : a2.Canon) : Keeps (execMapPagesWrite a0 a1 a2) := by
  unfold execMapPagesWrite
  repeat'
    first
    | with_reducible assumption
    | with_reducible refine keeps_onPage (by assumption) (fun _ _ => ?_)
    | with_reducible refine keeps_fromPath (by assumption) (fun _ _ => ?_)
    | with_reducible assumption
    | with_reducible refine canon_ite ?_ ?_
    | with_reducible refine canon_mapPagesWrite _ _ _ ?_
    | dsimp only
    | split
    | with_reducible refine canon_upd ?_ rfl rfl rfl rfl rfl rfl

theorem keeps_execPftEnable (a0 : Path) (a1 : Word) (a2 : State) (h : a2.Canon) : Keeps (execPftEnable a0 a1 a2) := by
  unfold execPftEnable
  repeat'
    first
    | with_reducible assumption
    | with_reducible refine keeps_onPage (by assumption) (fun _ _ => ?_)
    | with_reducible refine keeps_fromPath (by assumption) (fun _ _ => ?_)
    | with_reducible assumption
    | with_reducible refine canon_ite ?_ ?_
    | with_reducible refine canon_pftCfgWrite _ _ ?_
    | dsimp only
    | split
    | with_reducible refine canon_upd ?_ rfl rfl rfl rfl rfl rfl

theorem keeps_execLoan (a0 : Bool) (a1 : BitVec 20) (a2 : List Byte) (a3 : State) (h : a3.Canon) :
    Keeps (execLoan a0 a1 a2 a3) := by
  unfold execLoan
  repeat'
    first
    | with_reducible assumption
    | with_reducible refine keeps_onMsg (by assumption) (fun _ _ => ?_)
    | with_reducible assumption
    | with_reducible refine canon_ite ?_ ?_
    | with_reducible refine canon_loanIn _ _ _ ?_
    | dsimp only
    | split
    | with_reducible refine canon_upd ?_ rfl rfl rfl rfl rfl rfl

theorem keeps_execGrant (a0 : Bool) (a1 : BitVec 20) (a2 : List Byte) (a3 : State) (h : a3.Canon) :
    Keeps (execGrant a0 a1 a2 a3) := by
  unfold execGrant
  repeat'
    first
    | with_reducible assumption
    | with_reducible refine keeps_onMsg (by assumption) (fun _ _ => ?_)
    | with_reducible assumption
    | with_reducible refine canon_ite ?_ ?_
    | with_reducible refine canon_grantIn _ _ _ ?_
    | with_reducible refine canon_runJobs _ ?_
    | dsimp only
    | split
    | with_reducible refine canon_upd ?_ rfl rfl rfl rfl rfl rfl

theorem keeps_execLoanTimeout (a0 : Fin 8) (a1 : BitVec 24) (a2 : State) (h : a2.Canon) : Keeps (execLoanTimeout a0 a1 a2) := by
  unfold execLoanTimeout
  repeat'
    first
    | with_reducible assumption
    | with_reducible refine keeps_onPage (by assumption) (fun _ _ => ?_)
    | with_reducible assumption
    | with_reducible refine canon_ite ?_ ?_
    | with_reducible refine canon_sendMsg _ _ _ _ _ _ ?_
    | dsimp only
    | split
    | with_reducible refine canon_upd ?_ rfl rfl rfl rfl rfl rfl

theorem keeps_execReturnFrame (a0 : Bool) (a1 : BitVec 20) (a2 : List Byte) (a3 : State) (h : a3.Canon) :
    Keeps (execReturnFrame a0 a1 a2 a3) := by
  unfold execReturnFrame
  repeat'
    first
    | with_reducible assumption
    | with_reducible refine keeps_onMsg (by assumption) (fun _ _ => ?_)
    | with_reducible assumption
    | with_reducible refine canon_ite ?_ ?_
    | with_reducible refine canon_endLoan _ _ ?_
    | dsimp only
    | split
    | with_reducible refine canon_upd ?_ rfl rfl rfl rfl rfl rfl

theorem keeps_execRevoke (a0 : Bool) (a1 : BitVec 20) (a2 : List Byte) (a3 : State) (h : a3.Canon) :
    Keeps (execRevoke a0 a1 a2 a3) := by
  unfold execRevoke
  repeat'
    first
    | with_reducible assumption
    | with_reducible refine keeps_onMsg (by assumption) (fun _ _ => ?_)
    | with_reducible assumption
    | with_reducible refine canon_ite ?_ ?_
    | with_reducible refine canon_revokeIn _ _ _ ?_
    | with_reducible refine canon_runJobs _ ?_
    | dsimp only
    | split
    | with_reducible refine canon_upd ?_ rfl rfl rfl rfl rfl rfl

theorem keeps_execLendPagesWrite (a0 : Path) (a1 : Word) (a2 : State) (h : a2.Canon) : Keeps (execLendPagesWrite a0 a1 a2) := by
  unfold execLendPagesWrite
  repeat'
    first
    | with_reducible assumption
    | with_reducible refine keeps_onPage (by assumption) (fun _ _ => ?_)
    | with_reducible refine keeps_fromPath (by assumption) (fun _ _ => ?_)
    | with_reducible assumption
    | with_reducible refine canon_ite ?_ ?_
    | with_reducible refine canon_lendPagesWrite _ _ ?_
    | dsimp only
    | split
    | with_reducible refine canon_upd ?_ rfl rfl rfl rfl rfl rfl

theorem keeps_execBorrowerNodeWrite (a0 : Path) (a1 : Word) (a2 : State) (h : a2.Canon) :
    Keeps (execBorrowerNodeWrite a0 a1 a2) := by
  unfold execBorrowerNodeWrite
  repeat'
    first
    | with_reducible assumption
    | with_reducible refine keeps_onPage (by assumption) (fun _ _ => ?_)
    | with_reducible refine keeps_fromPath (by assumption) (fun _ _ => ?_)
    | with_reducible assumption
    | with_reducible refine canon_ite ?_ ?_
    | with_reducible refine canon_borrowerWrite _ _ _ ?_
    | dsimp only
    | split
    | with_reducible refine canon_upd ?_ rfl rfl rfl rfl rfl rfl

end Sys2Proof.Machine
end

