-- ==== Sys2Proof/Laws/Keeps/Plans.lean ====
section
/-! SUPPORT. The commands of `Plans.lean` keep the canonical form of the state. -/

namespace Sys2Proof.Machine

open Sys2Proof

theorem keeps_execPlanCommit (a0 : Path) (a1 : Fin 8) (a2 : State) (h : a2.Canon) : Keeps (execPlanCommit a0 a1 a2) := by
  unfold execPlanCommit
  repeat'
    first
    | with_reducible assumption
    | with_reducible refine keeps_onPage (by assumption) (fun _ _ => ?_)
    | with_reducible refine keeps_fromPath (by assumption) (fun _ _ => ?_)
    | with_reducible assumption
    | with_reducible refine canon_ite ?_ ?_
    | with_reducible refine canon_setPlan _ _ _ ?_
    | with_reducible refine canon_set1 _ _ _ ?_
    | dsimp only
    | split
    | with_reducible refine canon_upd ?_ rfl rfl rfl rfl rfl rfl

theorem keeps_execPlanCheckDone (a0 : Fin 8) (a1 : State) (h : a1.Canon) : Keeps (execPlanCheckDone a0 a1) := by
  unfold execPlanCheckDone
  repeat'
    first
    | with_reducible assumption
    | with_reducible refine keeps_onUp (by assumption) (fun _ _ => ?_)
    | with_reducible assumption
    | with_reducible refine canon_ite ?_ ?_
    | with_reducible refine canon_planChecked _ _ ?_
    | dsimp only
    | split
    | with_reducible refine canon_upd ?_ rfl rfl rfl rfl rfl rfl

theorem keeps_execPlanCancel (a0 : Path) (a1 : Fin 8) (a2 : State) (h : a2.Canon) : Keeps (execPlanCancel a0 a1 a2) := by
  unfold execPlanCancel
  repeat'
    first
    | with_reducible assumption
    | with_reducible refine keeps_onPage (by assumption) (fun _ _ => ?_)
    | with_reducible refine keeps_fromPath (by assumption) (fun _ _ => ?_)
    | with_reducible assumption
    | with_reducible refine canon_ite ?_ ?_
    | with_reducible refine canon_planCancel _ _ ?_
    | dsimp only
    | split
    | with_reducible refine canon_upd ?_ rfl rfl rfl rfl rfl rfl

theorem keeps_execPlanDataAccess (a0 : Path) (a1 : Option Word) (a2 : State) (h : a2.Canon) : Keeps (execPlanDataAccess a0 a1 a2) := by
  have hgo : ∀ s : State, s.Canon → Keeps (onPage s Page.TCK fun s =>
      let (p, item, a) := s.planWord a0
      let s := match a1 with
        | none => { s with rdata := BitVec.ofNat 32 (ofLE (s.t0.bytes a 4)) }
        | some w =>
          if (s.planState p).locked then s.set1 F.TCK_STAT_PLAN_LOCKED_WR
          else { s with t0 := s.t0.puts a (leBytes 4 w.toNat) }
      s.bump F.TCK_PLAN_ADDR_WORD item) := by
    intro s hs
    refine keeps_onPage hs (fun t ht => canon_bump _ _ _ _ ?_)
    cases a1 with
    | none => exact canon_upd ht rfl rfl rfl rfl rfl rfl
    | some w => exact canon_ite (canon_set1 _ _ _ ht) (canon_t0 ht (Mem.wf_puts _ _ _ ht.t0_wf))
  unfold execPlanDataAccess
  cases a1 with
  | none => exact hgo _ h
  | some w => exact keeps_fromPath h hgo

end Sys2Proof.Machine
end

