-- ==== Sys2Proof/Laws/Keeps/Power.lean ====
section
/-! SUPPORT. The commands of `Power.lean` keep the canonical form of the state. -/

namespace Sys2Proof.Machine

open Sys2Proof

theorem keeps_execRunMode (a0 : Path) (a1 : State) (h : a1.Canon) : Keeps (execRunMode a0 a1) := by
  unfold execRunMode
  repeat'
    first
    | with_reducible assumption
    | with_reducible refine keeps_fromPath (by assumption) (fun _ _ => ?_)
    | with_reducible refine keeps_onReg (by assumption) (fun _ _ => ?_)
    | with_reducible assumption
    | with_reducible refine canon_ite ?_ ?_
    | with_reducible refine canon_wake _ ?_
    | with_reducible refine canon_modeWrite _ _ _ _ ?_ (fun _ _ => ?_)
    | dsimp only
    | split
    | with_reducible refine canon_upd ?_ rfl rfl rfl rfl rfl rfl

theorem keeps_execSleepMode (a0 : Path) (a1 : State) (h : a1.Canon) : Keeps (execSleepMode a0 a1) := by
  unfold execSleepMode
  repeat'
    first
    | with_reducible assumption
    | with_reducible refine keeps_fromPath (by assumption) (fun _ _ => ?_)
    | with_reducible refine keeps_onReg (by assumption) (fun _ _ => ?_)
    | with_reducible assumption
    | with_reducible refine canon_ite ?_ ?_
    | with_reducible refine canon_goSleep _ ?_
    | with_reducible refine canon_modeWrite _ _ _ _ ?_ (fun _ _ => ?_)
    | dsimp only
    | split
    | with_reducible refine canon_upd ?_ rfl rfl rfl rfl rfl rfl

theorem keeps_execDeepSleep (a0 : Path) (a1 : State) (h : a1.Canon) : Keeps (execDeepSleep a0 a1) := by
  unfold execDeepSleep
  repeat'
    first
    | with_reducible assumption
    | with_reducible refine keeps_fromPath (by assumption) (fun _ _ => ?_)
    | with_reducible refine keeps_onReg (by assumption) (fun _ _ => ?_)
    | with_reducible assumption
    | with_reducible refine canon_ite ?_ ?_
    | with_reducible refine canon_goDeep _ ?_
    | with_reducible refine canon_modeWrite _ _ _ _ ?_ (fun _ _ => ?_)
    | dsimp only
    | split
    | with_reducible refine canon_upd ?_ rfl rfl rfl rfl rfl rfl

theorem keeps_execBudgetRequest (a0 : Path) (a1 : Word) (a2 : State) (h : a2.Canon) : Keeps (execBudgetRequest a0 a1 a2) := by
  unfold execBudgetRequest
  repeat'
    first
    | with_reducible assumption
    | with_reducible refine keeps_fromPath (by assumption) (fun _ _ => ?_)
    | with_reducible refine keeps_onReg (by assumption) (fun _ _ => ?_)
    | with_reducible assumption
    | with_reducible refine canon_ite ?_ ?_
    | with_reducible refine canon_fset _ _ _ _ ?_
    | dsimp only
    | split
    | with_reducible refine canon_upd ?_ rfl rfl rfl rfl rfl rfl

theorem keeps_execBudgetGrant (a0 : BitVec 10) (a1 : State) (h : a1.Canon) : Keeps (execBudgetGrant a0 a1) := by
  unfold execBudgetGrant
  repeat'
    first
    | with_reducible assumption
    | with_reducible refine keeps_onReg (by assumption) (fun _ _ => ?_)
    | with_reducible assumption
    | with_reducible refine canon_ite ?_ ?_
    | with_reducible refine canon_fset _ _ _ _ ?_
    | with_reducible refine canon_set1 _ _ _ ?_
    | dsimp only
    | split
    | with_reducible refine canon_upd ?_ rfl rfl rfl rfl rfl rfl

theorem keeps_execGovernorStep (a0 : BitVec 10) (a1 : State) (h : a1.Canon) : Keeps (execGovernorStep a0 a1) := by
  unfold execGovernorStep
  repeat'
    first
    | with_reducible assumption
    | with_reducible refine keeps_onPage (by assumption) (fun _ _ => ?_)
    | with_reducible assumption
    | with_reducible refine canon_ite ?_ ?_
    | with_reducible refine canon_governorStep _ _ ?_
    | dsimp only
    | split
    | with_reducible refine canon_upd ?_ rfl rfl rfl rfl rfl rfl

end Sys2Proof.Machine
end

