-- ==== Sys2Proof/Laws/Keeps/Rebuild.lean ====
section
/-! SUPPORT. The commands of `Rebuild.lean` keep the canonical form of the state. -/

namespace Sys2Proof.Machine

open Sys2Proof

theorem keeps_execDeclareLost (a0 : Path) (a1 : Fin 32) (a2 : State) (h : a2.Canon) : Keeps (execDeclareLost a0 a1 a2) := by
  unfold execDeclareLost
  repeat'
    first
    | with_reducible assumption
    | with_reducible refine keeps_onPage (by assumption) (fun _ _ => ?_)
    | with_reducible refine keeps_fromPath (by assumption) (fun _ _ => ?_)
    | with_reducible assumption
    | with_reducible refine canon_ite ?_ ?_
    | with_reducible refine canon_declareLost _ _ _ ?_
    | with_reducible refine canon_emptyDrained _ ?_
    | dsimp only
    | split
    | with_reducible refine canon_upd ?_ rfl rfl rfl rfl rfl rfl

theorem keeps_execReplace (a0 : Path) (a1 : Fin 32) (a2 : BitVec 20) (a3 : State) (h : a3.Canon) :
    Keeps (execReplace a0 a1 a2 a3) := by
  unfold execReplace
  repeat'
    first
    | with_reducible assumption
    | with_reducible refine keeps_onPage (by assumption) (fun _ _ => ?_)
    | with_reducible refine keeps_fromPath (by assumption) (fun _ _ => ?_)
    | with_reducible assumption
    | with_reducible refine canon_ite ?_ ?_
    | with_reducible refine canon_replaceRole _ _ _ _ ?_
    | dsimp only
    | split
    | with_reducible refine canon_upd ?_ rfl rfl rfl rfl rfl rfl

theorem keeps_execStartRebuild (a0 : Path) (a1 : Fin 32) (a2 : State) (h : a2.Canon) : Keeps (execStartRebuild a0 a1 a2) := by
  unfold execStartRebuild
  repeat'
    first
    | with_reducible assumption
    | with_reducible refine keeps_onPage (by assumption) (fun _ _ => ?_)
    | with_reducible refine keeps_fromPath (by assumption) (fun _ _ => ?_)
    | with_reducible assumption
    | with_reducible refine canon_ite ?_ ?_
    | with_reducible refine canon_startRebuild _ _ _ ?_
    | dsimp only
    | split
    | with_reducible refine canon_upd ?_ rfl rfl rfl rfl rfl rfl

theorem keeps_execRebuildInstallDone (a0 : Fin 16) (a1 : State) (h : a1.Canon) : Keeps (execRebuildInstallDone a0 a1) := by
  unfold execRebuildInstallDone
  repeat'
    first
    | with_reducible assumption
    | with_reducible refine keeps_onUp (by assumption) (fun _ _ => ?_)
    | with_reducible assumption
    | with_reducible refine canon_ite ?_ ?_
    | with_reducible refine canon_installed _ _ ?_
    | with_reducible refine canon_set1 _ _ _ ?_
    | dsimp only
    | split
    | with_reducible refine canon_upd ?_ rfl rfl rfl rfl rfl rfl

theorem keeps_execRebuildRow (a0 : Fin 16) (a1 : State) (h : a1.Canon) : Keeps (execRebuildRow a0 a1) := by
  unfold execRebuildRow
  repeat'
    first
    | with_reducible assumption
    | with_reducible refine keeps_onUp (by assumption) (fun _ _ => ?_)
    | with_reducible assumption
    | with_reducible refine canon_ite ?_ ?_
    | with_reducible refine canon_rebuildRow _ _ ?_
    | dsimp only
    | split
    | with_reducible refine canon_upd ?_ rfl rfl rfl rfl rfl rfl

theorem keeps_execGatherRequest (a0 : Bool) (a1 : BitVec 20) (a2 : List Byte) (a3 : State) (h : a3.Canon) :
    Keeps (execGatherRequest a0 a1 a2 a3) := by
  unfold execGatherRequest
  repeat'
    first
    | with_reducible assumption
    | with_reducible refine keeps_onMsg (by assumption) (fun _ _ => ?_)
    | with_reducible assumption
    | with_reducible refine canon_ite ?_ ?_
    | with_reducible refine canon_gatherServe _ _ _ ?_
    | dsimp only
    | split
    | with_reducible refine canon_upd ?_ rfl rfl rfl rfl rfl rfl

theorem keeps_execDeltaRecord (a0 : Bool) (a1 : BitVec 20) (a2 : List Byte) (a3 : State) (h : a3.Canon) :
    Keeps (execDeltaRecord a0 a1 a2 a3) := by
  unfold execDeltaRecord
  repeat'
    first
    | with_reducible assumption
    | with_reducible refine keeps_onMsg (by assumption) (fun _ _ => ?_)
    | with_reducible assumption
    | with_reducible refine canon_ite ?_ ?_
    | with_reducible refine canon_recordRx _ _ _ ?_
    | dsimp only
    | split
    | with_reducible refine canon_upd ?_ rfl rfl rfl rfl rfl rfl

theorem keeps_execRepairRecord (a0 : Bool) (a1 : BitVec 20) (a2 : List Byte) (a3 : State) (h : a3.Canon) :
    Keeps (execRepairRecord a0 a1 a2 a3) := by
  unfold execRepairRecord
  repeat'
    first
    | with_reducible assumption
    | with_reducible refine keeps_onMsg (by assumption) (fun _ _ => ?_)
    | with_reducible assumption
    | with_reducible refine canon_ite ?_ ?_
    | with_reducible refine canon_recordRx _ _ _ ?_
    | dsimp only
    | split
    | with_reducible refine canon_upd ?_ rfl rfl rfl rfl rfl rfl

theorem keeps_execReseed (a0 : Bool) (a1 : BitVec 20) (a2 : List Byte) (a3 : State) (h : a3.Canon) :
    Keeps (execReseed a0 a1 a2 a3) := by
  unfold execReseed
  repeat'
    first
    | with_reducible assumption
    | with_reducible refine keeps_onMsg (by assumption) (fun _ _ => ?_)
    | with_reducible assumption
    | with_reducible refine canon_ite ?_ ?_
    | with_reducible refine canon_gatherStart _ _ _ _ _ ?_
    | with_reducible refine canon_msgSlot _ _ _ _ _ ?_
    | with_reducible refine canon_pair (by assumption) ?_
    | dsimp only
    | split
    | with_reducible refine canon_upd ?_ rfl rfl rfl rfl rfl rfl

theorem keeps_execArrival (a0 : Bool) (a1 : BitVec 20) (a2 : List Byte) (a3 : State) (h : a3.Canon) :
    Keeps (execArrival a0 a1 a2 a3) := by
  unfold execArrival
  repeat'
    first
    | with_reducible assumption
    | with_reducible refine keeps_onMsg (by assumption) (fun _ _ => ?_)
    | with_reducible assumption
    | with_reducible refine canon_ite ?_ ?_
    | with_reducible refine canon_noteArrival _ _ _ _ _ ?_
    | with_reducible refine canon_msgSlot _ _ _ _ _ ?_
    | with_reducible refine canon_pair (by assumption) ?_
    | dsimp only
    | split
    | with_reducible refine canon_upd ?_ rfl rfl rfl rfl rfl rfl

theorem keeps_execArrivalMissing (a0 : Fin 16) (a1 : Fin 32) (a2 : BitVec 64) (a3 : State) (h : a3.Canon) :
    Keeps (execArrivalMissing a0 a1 a2 a3) := by
  unfold execArrivalMissing
  repeat'
    first
    | with_reducible assumption
    | with_reducible refine keeps_onUp (by assumption) (fun _ _ => ?_)
    | with_reducible assumption
    | with_reducible refine canon_ite ?_ ?_
    | with_reducible refine canon_countLast _ _ _ ?_
    | with_reducible refine canon_noteArrival _ _ _ _ _ ?_
    | dsimp only
    | split
    | with_reducible refine canon_upd ?_ rfl rfl rfl rfl rfl rfl

theorem keeps_execStragWindowEnd (a0 : Fin 16) (a1 : State) (h : a1.Canon) : Keeps (execStragWindowEnd a0 a1) := by
  unfold execStragWindowEnd
  repeat'
    first
    | with_reducible assumption
    | with_reducible refine keeps_onUp (by assumption) (fun _ _ => ?_)
    | with_reducible assumption
    | with_reducible refine canon_ite ?_ ?_
    | with_reducible refine canon_fset _ _ _ _ ?_
    | with_reducible refine canon_wr _ _ _ _ ?_
    | with_reducible refine canon_foldl ?_ (fun _ _ _ => ?_)
    | with_reducible refine canon_foldl_fst ?_ (fun _ _ _ => ?_)
    | with_reducible refine canon_pair (by assumption) ?_
    | dsimp only
    | split
    | with_reducible refine canon_upd ?_ rfl rfl rfl rfl rfl rfl

end Sys2Proof.Machine
end

