-- ==== Sys2Proof/Laws/Keeps/RegCmds.lean ====
section
/-! SUPPORT. The commands of `RegCmds.lean` keep the canonical form of the state. -/

namespace Sys2Proof.Machine

open Sys2Proof

theorem keeps_execRegisterWrite (a0 : Path) (a1 : BitVec 17) (a2 : Word) (a3 : State) (h : a3.Canon) :
    Keeps (execRegisterWrite a0 a1 a2 a3) := by
  unfold execRegisterWrite
  repeat'
    first
    | with_reducible assumption
    | with_reducible refine keeps_fromPath (by assumption) (fun _ _ => ?_)
    | with_reducible refine keeps_next ?_
    | with_reducible refine canon_ite ?_ ?_
    | with_reducible refine canon_plainWrite _ _ _ _ ?_
    | with_reducible refine canon_headWrite _ _ _ _ ?_
    | with_reducible refine canon_writeAt _ _ _ _ _ ?_ (fun _ _ => ?_)
    | dsimp only
    | split
    | with_reducible refine canon_upd ?_ rfl rfl rfl rfl rfl rfl

theorem keeps_execLockPage (a0 : Path) (a1 : BitVec 5) (a2 : State) (h : a2.Canon) : Keeps (execLockPage a0 a1 a2) := by
  unfold execLockPage
  repeat'
    first
    | with_reducible assumption
    | with_reducible refine keeps_fromPath (by assumption) (fun _ _ => ?_)
    | with_reducible refine keeps_next ?_
    | with_reducible refine canon_ite ?_ ?_
    | with_reducible refine canon_wr _ _ _ _ ?_
    | with_reducible refine canon_writeAt _ _ _ _ _ ?_ (fun _ _ => ?_)
    | dsimp only
    | split
    | with_reducible refine canon_upd ?_ rfl rfl rfl rfl rfl rfl

theorem keeps_execIrqSet (a0 : Path) (a1 : BitVec 5) (a2 : Word) (a3 : State) (h : a3.Canon) :
    Keeps (execIrqSet a0 a1 a2 a3) := by
  unfold execIrqSet
  repeat'
    first
    | with_reducible assumption
    | with_reducible refine keeps_fromPath (by assumption) (fun _ _ => ?_)
    | with_reducible refine keeps_next ?_
    | with_reducible refine canon_ite ?_ ?_
    | with_reducible refine canon_wr _ _ _ _ ?_
    | with_reducible refine canon_writeAt _ _ _ _ _ ?_ (fun _ _ => ?_)
    | dsimp only
    | split
    | with_reducible refine canon_upd ?_ rfl rfl rfl rfl rfl rfl

theorem keeps_execClrCnt (a0 : Path) (a1 : BitVec 5) (a2 : State) (h : a2.Canon) : Keeps (execClrCnt a0 a1 a2) := by
  unfold execClrCnt
  repeat'
    first
    | with_reducible assumption
    | with_reducible refine keeps_fromPath (by assumption) (fun _ _ => ?_)
    | with_reducible refine keeps_next ?_
    | with_reducible refine canon_ite ?_ ?_
    | with_reducible refine canon_clearCounters _ _ ?_
    | with_reducible refine canon_writeAt _ _ _ _ _ ?_ (fun _ _ => ?_)
    | dsimp only
    | split
    | with_reducible refine canon_upd ?_ rfl rfl rfl rfl rfl rfl

theorem keeps_execLatchedRead (a0 : Path) (a1 : BitVec 17) (a2 : State) (h : a2.Canon) : Keeps (execLatchedRead a0 a1 a2) := by
  unfold execLatchedRead
  repeat'
    first
    | with_reducible assumption
    | with_reducible refine keeps_next ?_
    | with_reducible refine canon_ite ?_ ?_
    | with_reducible refine canon_latchRead _ _ _ ?_
    | with_reducible refine canon_portEnds _ _ _ ?_
    | dsimp only
    | split
    | with_reducible refine canon_upd ?_ rfl rfl rfl rfl rfl rfl

end Sys2Proof.Machine
end

