-- ==== Sys2Proof/Laws/Keeps/Sideband.lean ====
section
/-! SUPPORT. The commands of `Sideband.lean` keep the canonical form of the state. -/

namespace Sys2Proof.Machine

open Sys2Proof

theorem keeps_execSetEndpointId (a0 : List (List (BitVec 8))) (a1 : State) (h : a1.Canon) : Keeps (execSetEndpointId a0 a1) := by
  unfold execSetEndpointId
  repeat'
    first
    | with_reducible assumption
    | with_reducible refine keeps_onControl (by assumption) (fun _ _ _ _ => ?_)
    | with_reducible assumption
    | with_reducible refine canon_ite ?_ ?_
    | with_reducible refine canon_fset _ _ _ _ ?_
    | dsimp only
    | split
    | with_reducible refine canon_upd ?_ rfl rfl rfl rfl rfl rfl

theorem keeps_execGetEndpointId (a0 : List (List (BitVec 8))) (a1 : State) (h : a1.Canon) : Keeps (execGetEndpointId a0 a1) := by
  unfold execGetEndpointId
  repeat'
    first
    | with_reducible assumption
    | with_reducible refine keeps_onControl (by assumption) (fun _ _ _ _ => ?_)
    | with_reducible assumption
    | with_reducible refine canon_ite ?_ ?_
    | dsimp only
    | split
    | with_reducible refine canon_upd ?_ rfl rfl rfl rfl rfl rfl

theorem keeps_execGetEndpointUuid (a0 : List (List (BitVec 8))) (a1 : State) (h : a1.Canon) :
    Keeps (execGetEndpointUuid a0 a1) := by
  unfold execGetEndpointUuid
  repeat'
    first
    | with_reducible assumption
    | with_reducible refine keeps_onControl (by assumption) (fun _ _ _ _ => ?_)
    | with_reducible assumption
    | with_reducible refine canon_ite ?_ ?_
    | dsimp only
    | split
    | with_reducible refine canon_upd ?_ rfl rfl rfl rfl rfl rfl

theorem keeps_execGetMctpVersionSupport (a0 : List (List (BitVec 8))) (a1 : State) (h : a1.Canon) :
    Keeps (execGetMctpVersionSupport a0 a1) := by
  unfold execGetMctpVersionSupport
  repeat'
    first
    | with_reducible assumption
    | with_reducible refine keeps_onControl (by assumption) (fun _ _ _ _ => ?_)
    | with_reducible assumption
    | with_reducible refine canon_ite ?_ ?_
    | dsimp only
    | split
    | with_reducible refine canon_upd ?_ rfl rfl rfl rfl rfl rfl

theorem keeps_execGetMessageTypeSupport (a0 : List (List (BitVec 8))) (a1 : State) (h : a1.Canon) :
    Keeps (execGetMessageTypeSupport a0 a1) := by
  unfold execGetMessageTypeSupport
  repeat'
    first
    | with_reducible assumption
    | with_reducible refine keeps_onControl (by assumption) (fun _ _ _ _ => ?_)
    | with_reducible assumption
    | with_reducible refine canon_ite ?_ ?_
    | dsimp only
    | split
    | with_reducible refine canon_upd ?_ rfl rfl rfl rfl rfl rfl

theorem keeps_execGetVendorDefinedMsgSupport (a0 : List (List (BitVec 8))) (a1 : State) (h : a1.Canon) :
    Keeps (execGetVendorDefinedMsgSupport a0 a1) := by
  unfold execGetVendorDefinedMsgSupport
  repeat'
    first
    | with_reducible assumption
    | with_reducible refine keeps_onControl (by assumption) (fun _ _ _ _ => ?_)
    | with_reducible assumption
    | with_reducible refine canon_ite ?_ ?_
    | dsimp only
    | split
    | with_reducible refine canon_upd ?_ rfl rfl rfl rfl rfl rfl

theorem keeps_execVendorDefinedMessage (a0 : List (List (BitVec 8))) (a1 : State) (h : a1.Canon) :
    Keeps (execVendorDefinedMessage a0 a1) := by
  unfold execVendorDefinedMessage
  repeat'
    first
    | with_reducible assumption
    | with_reducible refine keeps_onSideband (by assumption) (fun _ _ _ => ?_)
    | with_reducible assumption
    | with_reducible refine canon_ite ?_ ?_
    | with_reducible refine canon_vendorIn _ _ _ _ _ ?_
    | dsimp only
    | split
    | with_reducible refine canon_upd ?_ rfl rfl rfl rfl rfl rfl

theorem keeps_execRingRelay (a0 : BitVec 64) (a1 : List (BitVec 64)) (a2 : State) (h : a2.Canon) :
    Keeps (execRingRelay a0 a1 a2) := by
  unfold execRingRelay
  repeat'
    first
    | with_reducible assumption
    | with_reducible refine keeps_onRing (by assumption) (fun _ _ => ?_)
    | with_reducible assumption
    | with_reducible refine canon_ite ?_ ?_
    | with_reducible refine canon_relayPiece _ _ _ ?_
    | dsimp only
    | split
    | with_reducible refine canon_upd ?_ rfl rfl rfl rfl rfl rfl

theorem keeps_execKioskReply (a0 : List Byte) (a1 : List Byte) (a2 : State) (h : a2.Canon) :
    Keeps (execKioskReply a0 a1 a2) := by
  unfold execKioskReply
  repeat'
    first
    | with_reducible assumption
    | with_reducible refine keeps_onTxn (by assumption) (fun _ _ _ => ?_)
    | with_reducible assumption
    | with_reducible refine canon_ite ?_ ?_
    | with_reducible refine canon_kskBad _ ?_
    | with_reducible refine canon_kskIn _ _ _ _ ?_
    | dsimp only
    | split
    | with_reducible refine canon_upd ?_ rfl rfl rfl rfl rfl rfl

end Sys2Proof.Machine
end

