-- ==== Sys2Proof/Laws/Keeps/Starts.lean ====
section
/-! SUPPORT. The commands of `Starts.lean` keep the canonical form of the state. -/

namespace Sys2Proof.Machine

open Sys2Proof

theorem keeps_execPowerOn (a0 : State) (_h : a0.Canon) : Keeps (execPowerOn a0) :=
  keeps_next (canon_upd canon_reset rfl rfl rfl rfl rfl rfl)

theorem keeps_execColdReset (a0 : State) (h : a0.Canon) : Keeps (execColdReset a0) := by
  unfold execColdReset
  repeat'
    first
    | with_reducible assumption
    | with_reducible refine keeps_next ?_
    | with_reducible refine canon_ite ?_ ?_
    | with_reducible refine canon_toCold _ _ ?_
    | dsimp only
    | split
    | with_reducible refine canon_upd ?_ rfl rfl rfl rfl rfl rfl

theorem keeps_execColdStart (a0 : Bool) (a1 : BitVec 4) (a2 : BitVec 8) (a3 : StartIn) (a4 : State) (h : a4.Canon) :
    Keeps (execColdStart a0 a1 a2 a3 a4) := by
  unfold execColdStart
  repeat'
    first
    | with_reducible assumption
    | with_reducible refine keeps_next ?_
    | with_reducible refine canon_ite ?_ ?_
    | with_reducible refine canon_wr _ _ _ _ ?_
    | with_reducible refine canon_coldSteps _ _ _ ?_
    | dsimp only
    | split
    | with_reducible refine canon_upd ?_ rfl rfl rfl rfl rfl rfl

theorem keeps_execWarmReset (a0 : State) (h : a0.Canon) : Keeps (execWarmReset a0) := by
  unfold execWarmReset
  repeat'
    first
    | with_reducible assumption
    | with_reducible refine keeps_next ?_
    | with_reducible refine canon_ite ?_ ?_
    | with_reducible refine canon_set1 _ _ _ ?_
    | with_reducible refine canon_fset _ _ _ _ ?_
    | with_reducible refine canon_noteUndrained _ ?_
    | with_reducible refine canon_toWarm _ ?_
    | with_reducible refine canon_warmFailed _ ?_
    | dsimp only
    | split
    | with_reducible refine canon_upd ?_ rfl rfl rfl rfl rfl rfl

theorem keeps_execWarmStart (a0 : StartIn) (a1 : State) (h : a1.Canon) : Keeps (execWarmStart a0 a1) := by
  unfold execWarmStart
  repeat'
    first
    | with_reducible assumption
    | with_reducible refine keeps_next ?_
    | with_reducible refine canon_ite ?_ ?_
    | with_reducible refine canon_warmSteps _ _ ?_
    | with_reducible refine canon_toCold _ _ ?_
    | with_reducible refine canon_coldSteps _ _ _ ?_
    | dsimp only
    | split
    | with_reducible refine canon_upd ?_ rfl rfl rfl rfl rfl rfl

theorem keeps_execStartLimit (a0 : State) (h : a0.Canon) : Keeps (execStartLimit a0) := by
  unfold execStartLimit
  repeat'
    first
    | with_reducible assumption
    | with_reducible refine keeps_next ?_
    | with_reducible refine canon_ite ?_ ?_
    | with_reducible refine canon_warmFailed _ ?_
    | dsimp only
    | split
    | with_reducible refine canon_upd ?_ rfl rfl rfl rfl rfl rfl

theorem keeps_execMonitorWindow (a0 : BitVec 12) (a1 : State) (h : a1.Canon) : Keeps (execMonitorWindow a0 a1) := by
  unfold execMonitorWindow
  repeat'
    first
    | with_reducible assumption
    | with_reducible refine keeps_next ?_
    | with_reducible refine canon_ite ?_ ?_
    | with_reducible refine canon_fset _ _ _ _ ?_
    | with_reducible refine canon_window _ _ ?_
    | dsimp only
    | split
    | with_reducible refine canon_upd ?_ rfl rfl rfl rfl rfl rfl

theorem keeps_execPllLockLoss (a0 : Fin 3) (a1 : State) (h : a1.Canon) : Keeps (execPllLockLoss a0 a1) := by
  unfold execPllLockLoss
  repeat'
    first
    | with_reducible assumption
    | with_reducible refine keeps_onUp (by assumption) (fun _ _ => ?_)
    | with_reducible assumption
    | with_reducible refine canon_ite ?_ ?_
    | with_reducible refine canon_fset _ _ _ _ ?_
    | with_reducible refine canon_fallBack _ _ ?_
    | dsimp only
    | split
    | with_reducible refine canon_upd ?_ rfl rfl rfl rfl rfl rfl

theorem keeps_execRecal (a0 : Path) (a1 : Word) (a2 : State) (h : a2.Canon) : Keeps (execRecal a0 a1 a2) := by
  unfold execRecal
  repeat'
    first
    | with_reducible assumption
    | with_reducible refine keeps_fromPath (by assumption) (fun _ _ => ?_)
    | with_reducible refine keeps_onReg (by assumption) (fun _ _ => ?_)
    | with_reducible assumption
    | with_reducible refine canon_ite ?_ ?_
    | with_reducible refine canon_fset _ _ _ _ ?_
    | dsimp only
    | split
    | with_reducible refine canon_upd ?_ rfl rfl rfl rfl rfl rfl

end Sys2Proof.Machine
end

