-- ==== Sys2Proof/Laws/Keeps/UpdCmds.lean ====
section
/-! SUPPORT. The commands of `UpdCmds.lean` keep the canonical form of the state. -/

namespace Sys2Proof.Machine

open Sys2Proof

theorem keeps_execUpdPassGo (a0 : Path) (a1 : State) (h : a1.Canon) : Keeps (execUpdPassGo a0 a1) := by
  unfold execUpdPassGo
  repeat'
    first
    | with_reducible assumption
    | with_reducible refine keeps_onPage (by assumption) (fun _ _ => ?_)
    | with_reducible refine keeps_fromPath (by assumption) (fun _ _ => ?_)
    | with_reducible assumption
    | with_reducible refine canon_ite ?_ ?_
    | with_reducible refine canon_setUpdPart _ _ _ ?_
    | with_reducible refine canon_set1 _ _ _ ?_
    | dsimp only
    | split
    | with_reducible refine canon_upd ?_ rfl rfl rfl rfl rfl rfl

theorem keeps_execPassBegin (a0 : Fin 8) (a1 : State) (h : a1.Canon) : Keeps (execPassBegin a0 a1) := by
  unfold execPassBegin
  repeat'
    first
    | with_reducible assumption
    | with_reducible refine keeps_onPage (by assumption) (fun _ _ => ?_)
    | with_reducible assumption
    | with_reducible refine canon_ite ?_ ?_
    | with_reducible refine canon_passBegin _ _ ?_
    | dsimp only
    | split
    | with_reducible refine canon_upd ?_ rfl rfl rfl rfl rfl rfl

theorem keeps_execLayerBegin (a0 : Fin 8) (a1 : State) (h : a1.Canon) : Keeps (execLayerBegin a0 a1) := by
  unfold execLayerBegin
  repeat'
    first
    | with_reducible assumption
    | with_reducible refine keeps_onPage (by assumption) (fun _ _ => ?_)
    | with_reducible assumption
    | with_reducible refine canon_ite ?_ ?_
    | with_reducible refine canon_layerCmd _ _ ?_
    | dsimp only
    | split
    | with_reducible refine canon_upd ?_ rfl rfl rfl rfl rfl rfl

theorem keeps_execUpdateSlot (a0 : Fin 8) (a1 : Nat) (a2 : State) (h : a2.Canon) : Keeps (execUpdateSlot a0 a1 a2) := by
  unfold execUpdateSlot
  repeat'
    first
    | with_reducible assumption
    | with_reducible refine keeps_onPage (by assumption) (fun _ _ => ?_)
    | with_reducible assumption
    | with_reducible refine canon_ite ?_ ?_
    | with_reducible refine canon_updSlots _ _ _ ?_
    | dsimp only
    | split
    | with_reducible refine canon_upd ?_ rfl rfl rfl rfl rfl rfl

theorem keeps_execPassEnd (a0 : Fin 8) (a1 : State) (h : a1.Canon) : Keeps (execPassEnd a0 a1) := by
  unfold execPassEnd
  repeat'
    first
    | with_reducible assumption
    | with_reducible refine keeps_onPage (by assumption) (fun _ _ => ?_)
    | with_reducible assumption
    | with_reducible refine canon_ite ?_ ?_
    | with_reducible refine canon_passEndCmd _ _ ?_
    | dsimp only
    | split
    | with_reducible refine canon_upd ?_ rfl rfl rfl rfl rfl rfl

theorem keeps_execSgdMom (a0 : Fin 8) (a1 : State) (h : a1.Canon) : Keeps (execSgdMom a0 a1) := by
  unfold execSgdMom
  repeat'
    first
    | with_reducible assumption
    | with_reducible refine keeps_onPage (by assumption) (fun _ _ => ?_)
    | with_reducible assumption
    | with_reducible refine canon_ite ?_ ?_
    | with_reducible refine canon_progCmd _ _ _ ?_
    | dsimp only
    | split
    | with_reducible refine canon_upd ?_ rfl rfl rfl rfl rfl rfl

theorem keeps_execSgdNesterov (a0 : Fin 8) (a1 : State) (h : a1.Canon) : Keeps (execSgdNesterov a0 a1) := by
  unfold execSgdNesterov
  repeat'
    first
    | with_reducible assumption
    | with_reducible refine keeps_onPage (by assumption) (fun _ _ => ?_)
    | with_reducible assumption
    | with_reducible refine canon_ite ?_ ?_
    | with_reducible refine canon_progCmd _ _ _ ?_
    | dsimp only
    | split
    | with_reducible refine canon_upd ?_ rfl rfl rfl rfl rfl rfl

theorem keeps_execAdamw (a0 : Fin 8) (a1 : State) (h : a1.Canon) : Keeps (execAdamw a0 a1) := by
  unfold execAdamw
  repeat'
    first
    | with_reducible assumption
    | with_reducible refine keeps_onPage (by assumption) (fun _ _ => ?_)
    | with_reducible assumption
    | with_reducible refine canon_ite ?_ ?_
    | with_reducible refine canon_progCmd _ _ _ ?_
    | dsimp only
    | split
    | with_reducible refine canon_upd ?_ rfl rfl rfl rfl rfl rfl

theorem keeps_execLion (a0 : Fin 8) (a1 : State) (h : a1.Canon) : Keeps (execLion a0 a1) := by
  unfold execLion
  repeat'
    first
    | with_reducible assumption
    | with_reducible refine keeps_onPage (by assumption) (fun _ _ => ?_)
    | with_reducible assumption
    | with_reducible refine canon_ite ?_ ?_
    | with_reducible refine canon_progCmd _ _ _ ?_
    | dsimp only
    | split
    | with_reducible refine canon_upd ?_ rfl rfl rfl rfl rfl rfl

theorem keeps_execAdagradRow (a0 : Fin 8) (a1 : State) (h : a1.Canon) : Keeps (execAdagradRow a0 a1) := by
  unfold execAdagradRow
  repeat'
    first
    | with_reducible assumption
    | with_reducible refine keeps_onPage (by assumption) (fun _ _ => ?_)
    | with_reducible assumption
    | with_reducible refine canon_ite ?_ ?_
    | with_reducible refine canon_progCmd _ _ _ ?_
    | dsimp only
    | split
    | with_reducible refine canon_upd ?_ rfl rfl rfl rfl rfl rfl

theorem keeps_execGenOnly (a0 : Fin 8) (a1 : State) (h : a1.Canon) : Keeps (execGenOnly a0 a1) := by
  unfold execGenOnly
  repeat'
    first
    | with_reducible assumption
    | with_reducible refine keeps_onPage (by assumption) (fun _ _ => ?_)
    | with_reducible assumption
    | with_reducible refine canon_ite ?_ ?_
    | with_reducible refine canon_progCmd _ _ _ ?_
    | dsimp only
    | split
    | with_reducible refine canon_upd ?_ rfl rfl rfl rfl rfl rfl

theorem keeps_execNopOp (a0 : Fin 32) (a1 : Fin 32) (a2 : Fin 32) (a3 : Fin 32) (a4 : State) (h : a4.Canon) :
    Keeps (execNopOp a0 a1 a2 a3 a4) := by
  unfold execNopOp
  repeat'
    first
    | with_reducible assumption
    | with_reducible refine keeps_onPage (by assumption) (fun _ _ => ?_)
    | with_reducible assumption
    | with_reducible refine canon_ite ?_ ?_
    | dsimp only
    | split
    | with_reducible refine canon_upd ?_ rfl rfl rfl rfl rfl rfl

theorem keeps_execMovOp (a0 : Fin 32) (a1 : Fin 32) (a2 : Fin 32) (a3 : Fin 32) (a4 : State) (h : a4.Canon) :
    Keeps (execMovOp a0 a1 a2 a3 a4) := by
  unfold execMovOp
  repeat'
    first
    | with_reducible assumption
    | with_reducible refine keeps_onPage (by assumption) (fun _ _ => ?_)
    | with_reducible assumption
    | with_reducible refine canon_ite ?_ ?_
    | with_reducible refine canon_opStep _ _ _ _ _ _ ?_
    | dsimp only
    | split
    | with_reducible refine canon_upd ?_ rfl rfl rfl rfl rfl rfl

theorem keeps_execAddOp (a0 : Fin 32) (a1 : Fin 32) (a2 : Fin 32) (a3 : Fin 32) (a4 : State) (h : a4.Canon) :
    Keeps (execAddOp a0 a1 a2 a3 a4) := by
  unfold execAddOp
  repeat'
    first
    | with_reducible assumption
    | with_reducible refine keeps_onPage (by assumption) (fun _ _ => ?_)
    | with_reducible assumption
    | with_reducible refine canon_ite ?_ ?_
    | with_reducible refine canon_opStep _ _ _ _ _ _ ?_
    | dsimp only
    | split
    | with_reducible refine canon_upd ?_ rfl rfl rfl rfl rfl rfl

theorem keeps_execSubOp (a0 : Fin 32) (a1 : Fin 32) (a2 : Fin 32) (a3 : Fin 32) (a4 : State) (h : a4.Canon) :
    Keeps (execSubOp a0 a1 a2 a3 a4) := by
  unfold execSubOp
  repeat'
    first
    | with_reducible assumption
    | with_reducible refine keeps_onPage (by assumption) (fun _ _ => ?_)
    | with_reducible assumption
    | with_reducible refine canon_ite ?_ ?_
    | with_reducible refine canon_opStep _ _ _ _ _ _ ?_
    | dsimp only
    | split
    | with_reducible refine canon_upd ?_ rfl rfl rfl rfl rfl rfl

theorem keeps_execMulOp (a0 : Fin 32) (a1 : Fin 32) (a2 : Fin 32) (a3 : Fin 32) (a4 : State) (h : a4.Canon) :
    Keeps (execMulOp a0 a1 a2 a3 a4) := by
  unfold execMulOp
  repeat'
    first
    | with_reducible assumption
    | with_reducible refine keeps_onPage (by assumption) (fun _ _ => ?_)
    | with_reducible assumption
    | with_reducible refine canon_ite ?_ ?_
    | with_reducible refine canon_opStep _ _ _ _ _ _ ?_
    | dsimp only
    | split
    | with_reducible refine canon_upd ?_ rfl rfl rfl rfl rfl rfl

theorem keeps_execFmaOp (a0 : Fin 32) (a1 : Fin 32) (a2 : Fin 32) (a3 : Fin 32) (a4 : State) (h : a4.Canon) :
    Keeps (execFmaOp a0 a1 a2 a3 a4) := by
  unfold execFmaOp
  repeat'
    first
    | with_reducible assumption
    | with_reducible refine keeps_onPage (by assumption) (fun _ _ => ?_)
    | with_reducible assumption
    | with_reducible refine canon_ite ?_ ?_
    | with_reducible refine canon_opStep _ _ _ _ _ _ ?_
    | dsimp only
    | split
    | with_reducible refine canon_upd ?_ rfl rfl rfl rfl rfl rfl

theorem keeps_execFnmaOp (a0 : Fin 32) (a1 : Fin 32) (a2 : Fin 32) (a3 : Fin 32) (a4 : State) (h : a4.Canon) :
    Keeps (execFnmaOp a0 a1 a2 a3 a4) := by
  unfold execFnmaOp
  repeat'
    first
    | with_reducible assumption
    | with_reducible refine keeps_onPage (by assumption) (fun _ _ => ?_)
    | with_reducible assumption
    | with_reducible refine canon_ite ?_ ?_
    | with_reducible refine canon_opStep _ _ _ _ _ _ ?_
    | dsimp only
    | split
    | with_reducible refine canon_upd ?_ rfl rfl rfl rfl rfl rfl

theorem keeps_execDivOp (a0 : Fin 32) (a1 : Fin 32) (a2 : Fin 32) (a3 : Fin 32) (a4 : State) (h : a4.Canon) :
    Keeps (execDivOp a0 a1 a2 a3 a4) := by
  unfold execDivOp
  repeat'
    first
    | with_reducible assumption
    | with_reducible refine keeps_onPage (by assumption) (fun _ _ => ?_)
    | with_reducible assumption
    | with_reducible refine canon_ite ?_ ?_
    | with_reducible refine canon_opStep _ _ _ _ _ _ ?_
    | dsimp only
    | split
    | with_reducible refine canon_upd ?_ rfl rfl rfl rfl rfl rfl

theorem keeps_execSqrtOp (a0 : Fin 32) (a1 : Fin 32) (a2 : Fin 32) (a3 : Fin 32) (a4 : State) (h : a4.Canon) :
    Keeps (execSqrtOp a0 a1 a2 a3 a4) := by
  unfold execSqrtOp
  repeat'
    first
    | with_reducible assumption
    | with_reducible refine keeps_onPage (by assumption) (fun _ _ => ?_)
    | with_reducible assumption
    | with_reducible refine canon_ite ?_ ?_
    | with_reducible refine canon_opStep _ _ _ _ _ _ ?_
    | dsimp only
    | split
    | with_reducible refine canon_upd ?_ rfl rfl rfl rfl rfl rfl

theorem keeps_execMaxOp (a0 : Fin 32) (a1 : Fin 32) (a2 : Fin 32) (a3 : Fin 32) (a4 : State) (h : a4.Canon) :
    Keeps (execMaxOp a0 a1 a2 a3 a4) := by
  unfold execMaxOp
  repeat'
    first
    | with_reducible assumption
    | with_reducible refine keeps_onPage (by assumption) (fun _ _ => ?_)
    | with_reducible assumption
    | with_reducible refine canon_ite ?_ ?_
    | with_reducible refine canon_opStep _ _ _ _ _ _ ?_
    | dsimp only
    | split
    | with_reducible refine canon_upd ?_ rfl rfl rfl rfl rfl rfl

theorem keeps_execMinOp (a0 : Fin 32) (a1 : Fin 32) (a2 : Fin 32) (a3 : Fin 32) (a4 : State) (h : a4.Canon) :
    Keeps (execMinOp a0 a1 a2 a3 a4) := by
  unfold execMinOp
  repeat'
    first
    | with_reducible assumption
    | with_reducible refine keeps_onPage (by assumption) (fun _ _ => ?_)
    | with_reducible assumption
    | with_reducible refine canon_ite ?_ ?_
    | with_reducible refine canon_opStep _ _ _ _ _ _ ?_
    | dsimp only
    | split
    | with_reducible refine canon_upd ?_ rfl rfl rfl rfl rfl rfl

theorem keeps_execAbsOp (a0 : Fin 32) (a1 : Fin 32) (a2 : Fin 32) (a3 : Fin 32) (a4 : State) (h : a4.Canon) :
    Keeps (execAbsOp a0 a1 a2 a3 a4) := by
  unfold execAbsOp
  repeat'
    first
    | with_reducible assumption
    | with_reducible refine keeps_onPage (by assumption) (fun _ _ => ?_)
    | with_reducible assumption
    | with_reducible refine canon_ite ?_ ?_
    | with_reducible refine canon_opStep _ _ _ _ _ _ ?_
    | dsimp only
    | split
    | with_reducible refine canon_upd ?_ rfl rfl rfl rfl rfl rfl

theorem keeps_execNegOp (a0 : Fin 32) (a1 : Fin 32) (a2 : Fin 32) (a3 : Fin 32) (a4 : State) (h : a4.Canon) :
    Keeps (execNegOp a0 a1 a2 a3 a4) := by
  unfold execNegOp
  repeat'
    first
    | with_reducible assumption
    | with_reducible refine keeps_onPage (by assumption) (fun _ _ => ?_)
    | with_reducible assumption
    | with_reducible refine canon_ite ?_ ?_
    | with_reducible refine canon_opStep _ _ _ _ _ _ ?_
    | dsimp only
    | split
    | with_reducible refine canon_upd ?_ rfl rfl rfl rfl rfl rfl

theorem keeps_execSignOp (a0 : Fin 32) (a1 : Fin 32) (a2 : Fin 32) (a3 : Fin 32) (a4 : State) (h : a4.Canon) :
    Keeps (execSignOp a0 a1 a2 a3 a4) := by
  unfold execSignOp
  repeat'
    first
    | with_reducible assumption
    | with_reducible refine keeps_onPage (by assumption) (fun _ _ => ?_)
    | with_reducible assumption
    | with_reducible refine canon_ite ?_ ?_
    | with_reducible refine canon_opStep _ _ _ _ _ _ ?_
    | dsimp only
    | split
    | with_reducible refine canon_upd ?_ rfl rfl rfl rfl rfl rfl

theorem keeps_execSelOp (a0 : Fin 32) (a1 : Fin 32) (a2 : Fin 32) (a3 : Fin 32) (a4 : State) (h : a4.Canon) :
    Keeps (execSelOp a0 a1 a2 a3 a4) := by
  unfold execSelOp
  repeat'
    first
    | with_reducible assumption
    | with_reducible refine keeps_onPage (by assumption) (fun _ _ => ?_)
    | with_reducible assumption
    | with_reducible refine canon_ite ?_ ?_
    | with_reducible refine canon_opStep _ _ _ _ _ _ ?_
    | dsimp only
    | split
    | with_reducible refine canon_upd ?_ rfl rfl rfl rfl rfl rfl

theorem keeps_execSqrOp (a0 : Fin 32) (a1 : Fin 32) (a2 : Fin 32) (a3 : Fin 32) (a4 : State) (h : a4.Canon) :
    Keeps (execSqrOp a0 a1 a2 a3 a4) := by
  unfold execSqrOp
  repeat'
    first
    | with_reducible assumption
    | with_reducible refine keeps_onPage (by assumption) (fun _ _ => ?_)
    | with_reducible assumption
    | with_reducible refine canon_ite ?_ ?_
    | with_reducible refine canon_opStep _ _ _ _ _ _ ?_
    | dsimp only
    | split
    | with_reducible refine canon_upd ?_ rfl rfl rfl rfl rfl rfl

theorem keeps_execProgLoad (a0 : Path) (a1 : Word) (a2 : State) (h : a2.Canon) : Keeps (execProgLoad a0 a1 a2) := by
  unfold execProgLoad
  repeat'
    first
    | with_reducible assumption
    | with_reducible refine keeps_onPage (by assumption) (fun _ _ => ?_)
    | with_reducible refine keeps_fromPath (by assumption) (fun _ _ => ?_)
    | with_reducible assumption
    | with_reducible refine canon_ite ?_ ?_
    | with_reducible refine canon_progLoad _ _ ?_
    | dsimp only
    | split
    | with_reducible refine canon_upd ?_ rfl rfl rfl rfl rfl rfl

theorem keeps_execUpdFlip (a0 : Path) (a1 : Word) (a2 : State) (h : a2.Canon) : Keeps (execUpdFlip a0 a1 a2) := by
  unfold execUpdFlip
  repeat'
    first
    | with_reducible assumption
    | with_reducible refine keeps_onPage (by assumption) (fun _ _ => ?_)
    | with_reducible refine keeps_fromPath (by assumption) (fun _ _ => ?_)
    | with_reducible assumption
    | with_reducible refine canon_ite ?_ ?_
    | with_reducible refine canon_flipWrite _ _ _ ?_
    | dsimp only
    | split
    | with_reducible refine canon_upd ?_ rfl rfl rfl rfl rfl rfl

theorem keeps_execTlmClear (a0 : Path) (a1 : Word) (a2 : State) (h : a2.Canon) : Keeps (execTlmClear a0 a1 a2) := by
  unfold execTlmClear
  repeat'
    first
    | with_reducible assumption
    | with_reducible refine keeps_onPage (by assumption) (fun _ _ => ?_)
    | with_reducible refine keeps_fromPath (by assumption) (fun _ _ => ?_)
    | with_reducible assumption
    | with_reducible refine canon_ite ?_ ?_
    | with_reducible refine canon_tlmClear _ _ ?_
    | dsimp only
    | split
    | with_reducible refine canon_upd ?_ rfl rfl rfl rfl rfl rfl

theorem keeps_execTlmClearAll (a0 : Path) (a1 : Word) (a2 : State) (h : a2.Canon) : Keeps (execTlmClearAll a0 a1 a2) := by
  unfold execTlmClearAll
  repeat'
    first
    | with_reducible assumption
    | with_reducible refine keeps_onPage (by assumption) (fun _ _ => ?_)
    | with_reducible refine keeps_fromPath (by assumption) (fun _ _ => ?_)
    | with_reducible assumption
    | with_reducible refine canon_ite ?_ ?_
    | with_reducible refine canon_tlmClear _ _ ?_
    | dsimp only
    | split
    | with_reducible refine canon_upd ?_ rfl rfl rfl rfl rfl rfl

theorem keeps_execTlmRdSelWrite (a0 : Path) (a1 : Word) (a2 : State) (h : a2.Canon) : Keeps (execTlmRdSelWrite a0 a1 a2) := by
  unfold execTlmRdSelWrite
  repeat'
    first
    | with_reducible assumption
    | with_reducible refine keeps_onPage (by assumption) (fun _ _ => ?_)
    | with_reducible refine keeps_fromPath (by assumption) (fun _ _ => ?_)
    | with_reducible assumption
    | with_reducible refine canon_ite ?_ ?_
    | with_reducible refine canon_tlmReadSel _ _ _ ?_
    | dsimp only
    | split
    | with_reducible refine canon_upd ?_ rfl rfl rfl rfl rfl rfl

theorem keeps_execNoiseGo (a0 : Path) (a1 : State) (h : a1.Canon) : Keeps (execNoiseGo a0 a1) := by
  unfold execNoiseGo
  repeat'
    first
    | with_reducible assumption
    | with_reducible refine keeps_onPage (by assumption) (fun _ _ => ?_)
    | with_reducible refine keeps_fromPath (by assumption) (fun _ _ => ?_)
    | with_reducible assumption
    | with_reducible refine canon_ite ?_ ?_
    | with_reducible refine canon_noiseGo _ ?_
    | dsimp only
    | split
    | with_reducible refine canon_upd ?_ rfl rfl rfl rfl rfl rfl

theorem keeps_execNoiseAbort (a0 : Path) (a1 : Nat) (a2 : State) (h : a2.Canon) : Keeps (execNoiseAbort a0 a1 a2) := by
  unfold execNoiseAbort
  repeat'
    first
    | with_reducible assumption
    | with_reducible refine keeps_onPage (by assumption) (fun _ _ => ?_)
    | with_reducible refine keeps_fromPath (by assumption) (fun _ _ => ?_)
    | with_reducible assumption
    | with_reducible refine canon_ite ?_ ?_
    | with_reducible refine canon_noiseTo _ _ _ _ ?_
    | dsimp only
    | split
    | with_reducible refine canon_upd ?_ rfl rfl rfl rfl rfl rfl

theorem keeps_execNoiseDone (a0 : State) (h : a0.Canon) : Keeps (execNoiseDone a0) := by
  unfold execNoiseDone
  repeat'
    first
    | with_reducible assumption
    | with_reducible refine keeps_onPage (by assumption) (fun _ _ => ?_)
    | with_reducible assumption
    | with_reducible refine canon_ite ?_ ?_
    | with_reducible refine canon_noiseTo _ _ _ _ ?_
    | dsimp only
    | split
    | with_reducible refine canon_upd ?_ rfl rfl rfl rfl rfl rfl

end Sys2Proof.Machine
end

