-- ==== Sys2Proof/Laws/Kiosk.lean ====
section
/-! SUPPORT. What serving a Kiosk request and a sideband control request does, when it is served. -/

namespace Sys2Proof.Machine

open Sys2Proof

/-! ### The turn of the mailboxes -/

@[simp] theorem kskPass_regs (s : State) (b : Nat) : (s.kskPass b).regs = s.regs := rfl
@[simp] theorem kskPass_mgmt (s : State) (b : Nat) : (s.kskPass b).mgmt = s.mgmt := rfl
@[simp] theorem kskPass_run (s : State) (b : Nat) : (s.kskPass b).run = s.run := rfl
@[simp] theorem kskPass_pending (s : State) (b : Nat) : (s.kskPass b).pending = s.pending := rfl

/-- The request at the head of the mailbox whose turn it is, not kept, not turned away, of the opcode, with no more fragments to come: it is
answered. -/
theorem kskServe_runs {s s1 : State} {b op : Nat} {f : State → List Byte → Nat → State × Nat × List Byte} {r : KskReq} {rest : List KskReq}
    {body : List Byte} (hq : (s.box b).req = r :: rest) (hs : s.kskNext = some b) (hk : alGet (s.box b).kept (kskSeq r.msg) = none)
    (ht : s.kskTurned b r.msg = none) (ho : kskOp r.msg = op)
    (h1 : s1 = (((s.setBox b { s.box b with req := rest }).kskPass b).takeFrag b (kskSeq r.msg)).1)
    (hb : body = (((s.setBox b { s.box b with req := rest }).kskPass b).takeFrag b (kskSeq r.msg)).2 ++ kskBodyOf r.msg)
    (hm : bit (kskFlags r.msg) 2 = false) :
    s.kskServe b op f =
      (f s1 body (kskMajor r.msg)).1.kskReply b r (kskMajor r.msg)
        (leBytes 4 (f s1 body (kskMajor r.msg)).2.1 ++ (f s1 body (kskMajor r.msg)).2.2) := by
  subst h1
  subst hb
  unfold State.kskServe
  dsimp only
  rw [hq]
  dsimp only
  rw [if_neg (by simp [hs]), hk, ht]
  simp only [Bool.false_eq_true, if_false, ho, ne_eq, not_true_eq_false, hm]

/-- A sideband message that is whole, of its type, for a manager whose core 0 runs and whose Kiosk is up. -/
theorem onSideband_takes {s : State} {pkts : List (List Byte)} {typ : Nat} {f : State → MctpMsg → State} {m : MctpMsg}
    (hu : s.pageUp Page.MGC = true) (hm : s.isMgr = true) (hf : s.fwRuns = true) (hk : s.kskState ≠ 0)
    (hj : mctpJoin (s.fget F.MGC_MCTP_EID_EID) pkts = some m) (ht : fieldLE m.body 0 1 = typ) :
    onSideband s pkts typ f = .next (f s m) := by
  unfold onSideband
  rw [onReg_up hu]
  have hk' : (s.kskState != 0) = true := by simpa using hk
  simp only [hm, hf, hk', Bool.and_self, if_true]
  rw [hj]
  simp only [ht, if_true]

/-- A control request of the command is answered. -/
theorem onControl_answers {s : State} {pkts : List (List Byte)} {cmd : Nat} {f : State → MctpMsg → List Byte → State × List Byte}
    {m : MctpMsg} (hu : s.pageUp Page.MGC = true) (hm : s.isMgr = true) (hf : s.fwRuns = true) (hk : s.kskState ≠ 0)
    (hj : mctpJoin (s.fget F.MGC_MCTP_EID_EID) pkts = some m) (ht : fieldLE m.body 0 1 = 0) (hl : 3 ≤ m.body.length)
    (hr : bit (fieldLE m.body 1 1) 7 = true) (hc : fieldLE m.body 2 1 = cmd) :
    onControl s pkts cmd f =
      .next ((f s m (m.body.drop 3)).1.sbSend m.src m.tag false
        (leBytes 1 0 ++ leBytes 1 (fieldLE m.body 1 1 % 32) ++ leBytes 1 cmd ++ (f s m (m.body.drop 3)).2)) := by
  unfold onControl
  rw [onSideband_takes hu hm hf hk hj ht]
  refine congrArg Host.Outcome.next ?_
  dsimp only
  rw [if_neg]
  rintro (h | h | h)
  · exact h hc
  · omega
  · rw [hr] at h
    cases h

end Sys2Proof.Machine
end

