-- ==== Sys2Proof/Laws/Ops.lean ====
section
/-! SUPPORT. One lemma for each shared operation that several commands go through. -/

namespace Sys2Proof.Machine

open Sys2Proof

/-- A fold whose every step leaves the value alone. -/
theorem foldl_fixed {α β : Type} {f : β → α → β} {l : List α} {x : β} (h : ∀ a ∈ l, f x a = x) : l.foldl f x = x := by
  induction l with
  | nil => rfl
  | cons a l ih =>
    rw [List.foldl_cons, h a (by simp)]
    exact ih (fun b hb => h b (by simp [hb]))

/-! ### A partition's plan -/

theorem setPlan_plans (s : State) (p : Nat) (x : PlanState) : (s.setPlan p x).plans = s.plans.set p x := rfl

theorem planState_setPlan_same (s : State) (p : Nat) (x : PlanState) (h : p < s.plans.length) : (s.setPlan p x).planState p = x := by
  simp [State.planState, setPlan_plans, h]

theorem planState_setPlan_other (s : State) (p q : Nat) (x : PlanState) (h : q ≠ p) : (s.setPlan p x).planState q = s.planState q := by
  simp [State.planState, setPlan_plans, Ne.symm h]

@[simp] theorem setPlan_length (s : State) (p : Nat) (x : PlanState) : (s.setPlan p x).plans.length = s.plans.length := by
  simp [setPlan_plans]

@[simp] theorem setPlan_tick (s : State) (p : Nat) (x : PlanState) : (s.setPlan p x).tick = s.tick := rfl

/-! ### Messages of a coded group -/

/-- A message that belongs to an installed group changes nothing by being found. -/
theorem msgSlot_found {s : State} {src typ role g : Nat} {m : List Byte} (h : (s.msgSlot src m typ role).2 = some g) :
    s.msgSlot src m typ role = (s, some g) := by
  revert h
  unfold State.msgSlot
  split
  · simp
  · split
    · simp
    · dsimp only
      split
      · simp
      · simp

/-! ### Interrupts, counted events and error records: what they can change -/

/-- Counting and setting a flag writes registers and nothing else. -/
theorem set1_touches (s : State) (f g : Fld) : ∃ q, (s.bump f).set1 g = { s with regs := q } := ⟨_, rfl⟩

/-- Raising an interrupt writes registers and nothing else. -/
theorem irq_touches (s : State) (p b : Nat) : ∃ r, s.irq p b = { s with regs := r } := by
  unfold State.irq
  first | exact ⟨_, rfl⟩ | (split <;> exact ⟨_, rfl⟩)

/-- Counting on one counter changes the counters and the registers. -/
theorem countOne_touches (s : State) (c n : Nat) : ∃ r u, s.countOne c n = { s with regs := r, ctr := u } := by
  unfold State.countOne
  dsimp only
  split
  · exact ⟨_, _, rfl⟩
  · generalize (if c < 32 then R.CTR_OVF_LO else R.CTR_OVF_HI) = q
    split
    · exact ⟨_, _, rfl⟩
    · exact ⟨_, _, rfl⟩

/-- An event changes the counters and the registers. -/
theorem event_touches (s : State) (ev : Nat) (part : Option Nat) (n : Nat) : ∃ r u, s.event ev part n = { s with regs := r, ctr := u } := by
  have h : ∀ (l : List Nat) (t : State), (∃ r u, t = { s with regs := r, ctr := u }) →
      ∃ r u, l.foldl (fun (x : State) c =>
        if x.flag F.CTR_CFG_ENABLE c && x.fget F.CTR_CFG_EVENT c == ev
            && (!x.flag F.CTR_CFG_PART_EN c || part == some (x.fget F.CTR_CFG_PART c))
        then x.countOne c n else x) t = { s with regs := r, ctr := u } := by
    intro l
    induction l with
    | nil => exact fun t h => h
    | cons c l ih =>
      intro t ht
      refine ih _ ?_
      obtain ⟨r, u, rfl⟩ := ht
      dsimp only
      split
      · obtain ⟨r', u', e⟩ := countOne_touches { s with regs := r, ctr := u } c n
        exact ⟨r', u', e⟩
      · exact ⟨r, u, rfl⟩
  unfold State.event
  split
  · exact ⟨s.regs, s.ctr, rfl⟩
  · exact h _ _ ⟨s.regs, s.ctr, rfl⟩

/-- Taking a record into the queue changes the queue and the registers. -/
theorem enqueue_touches (s : State) (x : ErrRec) : ∃ r e, s.enqueue x = { s with regs := r, eru := e } := by
  unfold State.enqueue
  split
  · dsimp only
    split
    · obtain ⟨r, h⟩ := irq_touches { s with eru := { s.eru with queue := s.eru.queue ++ [x] } } Page.ERU 0
      exact ⟨r, _, h⟩
    · exact ⟨_, _, rfl⟩
  · obtain ⟨q, hq⟩ : ∃ q, (s.bump F.ERU_LOST_COUNT).set1 F.ERU_STAT_OVERFLOW = { s with regs := q } := set1_touches s _ _
    rw [hq]
    obtain ⟨r, h⟩ := irq_touches { s with regs := q } Page.ERU 1
    rw [h]
    exact ⟨r, s.eru, rfl⟩

/-- The fatal latch changes the error unit and the registers. -/
theorem latchFatal_touches (s : State) (x : ErrRec) : ∃ r e, s.latchFatal x = { s with regs := r, eru := e } := by
  unfold State.latchFatal
  split
  · exact ⟨_, _, rfl⟩
  · generalize he : ({ s.eru with latch := some x } : Eru) = e
    obtain ⟨q, hq⟩ : ∃ q, ({ s with eru := e } : State).set1 F.ERU_STAT_FATAL = { s with eru := e, regs := q } := ⟨_, rfl⟩
    rw [hq]
    obtain ⟨r, h⟩ := irq_touches { s with eru := e, regs := q } Page.ERU 2
    rw [h]
    exact ⟨r, e, rfl⟩

/-- Two counts and a set of suppressed codes: the error unit and the registers. -/
theorem counted_touches (s : State) (f : Fld) (e : Eru) (p n : Nat) :
    ∃ q, (({ s with eru := e } : State).bump f).wr p 0 n = { s with eru := e, regs := q } := ⟨_, rfl⟩

/-- An error record changes the error unit, the counters and the registers, and nothing else. -/
theorem logErr_touches (s : State) (e : ErrIn) : ∃ r u c, s.logErr e = { s with regs := r, eru := u, ctr := c } := by
  unfold State.logErr
  dsimp only
  generalize ({ s.eru with suppressed := alDel s.eru.suppressed e.code } : Eru) = u0
  generalize ((({ s with eru := u0 } : State).bump F.ERU_SEQ_NEXT_SEQ).rd (errCntOff e.block) + 1) = n
  obtain ⟨q, hq⟩ := counted_touches s F.ERU_SEQ_NEXT_SEQ u0 (errCntOff e.block) n
  rw [hq]
  obtain ⟨r1, u1, h1⟩ := event_touches { s with eru := u0, regs := q } (e.block * 256) e.part 1
  rw [h1]
  dsimp only
  split
  · obtain ⟨r2, u2, h2⟩ := enqueue_touches { s with eru := u0, regs := r1, ctr := u1 } _
    rw [h2]
    obtain ⟨r3, u3, h3⟩ := latchFatal_touches { s with eru := u2, regs := r2, ctr := u1 } _
    rw [h3]
    exact ⟨r3, u3, u1, rfl⟩
  · obtain ⟨r2, u2, h2⟩ := enqueue_touches { s with eru := u0, regs := r1, ctr := u1 } _
    rw [h2]
    exact ⟨r2, u2, u1, rfl⟩

end Sys2Proof.Machine
end

