-- ==== Sys2Proof/Laws/Queues.lean ====
section
/-! SUPPORT. The descriptor at the head of a queue. -/

namespace Sys2Proof.Machine

open Sys2Proof

/-- A sound descriptor of the command's opcode at the head of a ready queue is taken by the command's body. -/
theorem qRun_front {s s1 : State} {k : QKind} {q opcode : Nat} {known : Nat → Bool} {body : State → Nat → List Byte → State}
    {d : List Byte} (hr : s.qReady k q = true) (hs : s1 = (s.qHead k q 2).1) (hd : (s.qHead k q 2).2 = some d)
    (hh : descHeadOk d false = true) (hk : known opcode = true) (ho : fieldLE d 0 1 = opcode) :
    s.qRun k q opcode known body = body s1 (s1.fget k.head q) d := by
  subst hs
  have e : s.qHead k q 2 = ((s.qHead k q 2).1, some d) := Prod.ext rfl hd
  unfold State.qRun
  rw [hr, e]
  simp only [ho, hh, hk, Bool.not_true, Bool.or_self, Bool.false_eq_true, if_false, if_true]

/-- A descriptor with a bad head or an unknown opcode is taken and refused with reason 0x1. -/
theorem qRun_bad {s s1 : State} {k : QKind} {q opcode : Nat} {known : Nat → Bool} {body : State → Nat → List Byte → State}
    {d : List Byte} (hr : s.qReady k q = true) (hs : s1 = (s.qHead k q 2).1) (hd : (s.qHead k q 2).2 = some d)
    (hh : (descHeadOk d false && known (fieldLE d 0 1)) = false) :
    s.qRun k q opcode known body = (s1.qTake k q).qRefuse k q (s1.fget k.head q) d 1 := by
  subst hs
  have e : s.qHead k q 2 = ((s.qHead k q 2).1, some d) := Prod.ext rfl hd
  have hh' : (!descHeadOk d false || !known (fieldLE d 0 1)) = true := by
    rw [← Bool.not_and, hh]; rfl
  unfold State.qRun
  rw [hr, e]
  simp only [hh', Bool.not_true, Bool.false_eq_true, if_false, if_true]

/-- A page queue command whose descriptor passes the checks starts it and carries it on. -/
theorem pageOp_runs {s s1 : State} {p opcode : Nat} {d : List Byte} (hj : s.pages.jobs = []) (hr : s.qReady .page p = true)
    (hs : s1 = (s.qHead .page p 2).1) (hd : (s.qHead .page p 2).2 = some d) (hh : descHeadOk d false = true)
    (hk : pageOpKnown opcode = true) (ho : fieldLE d 0 1 = opcode) (hp : (s1.qTake .page p).pageReason p d = 0) :
    s.pageOp p opcode =
      ((s1.qTake .page p).setJob p (some ⟨p, s1.fget (QKind.head .page) p, d, [], false, none⟩)).runJob ((s1.qTake .page p).pageUnits p d) p := by
  unfold State.pageOp
  rw [hj]
  simp only [List.isEmpty_nil, Bool.not_true, Bool.false_eq_true, if_false]
  rw [qRun_front hr hs hd hh hk ho, hp]
  rfl

/-- One that fails them is refused. -/
theorem pageOp_refused {s s1 : State} {p opcode r : Nat} {d : List Byte} (hj : s.pages.jobs = []) (hr : s.qReady .page p = true)
    (hs : s1 = (s.qHead .page p 2).1) (hd : (s.qHead .page p 2).2 = some d) (hh : descHeadOk d false = true)
    (hk : pageOpKnown opcode = true) (ho : fieldLE d 0 1 = opcode) (hp : (s1.qTake .page p).pageReason p d = r) (h0 : r ≠ 0) :
    s.pageOp p opcode = (s1.qTake .page p).qRefuse .page p (s1.fget (QKind.head .page) p) d r := by
  unfold State.pageOp
  rw [hj]
  simp only [List.isEmpty_nil, Bool.not_true, Bool.false_eq_true, if_false]
  rw [qRun_front hr hs hd hh hk ho, hp]
  split
  · exact absurd rfl h0
  · rfl

end Sys2Proof.Machine
end

