-- ==== Sys2Proof/Laws/Starts.lean ====
section
/-! SUPPORT. What a reset keeps of a register, and which registers an event, an interrupt and a record can change. -/

namespace Sys2Proof.Machine

open Sys2Proof

/-! ### Registers through a reset -/

theorem none_kept (b r : BitVec 32) : (b &&& BitVec.ofNat 32 0) ||| (r &&& ~~~BitVec.ofNat 32 0) = r := by
  have h : ~~~BitVec.ofNat 32 0 = BitVec.allOnes 32 := by decide
  rw [h, BitVec.and_allOnes]
  simp

theorem all_kept (b r : BitVec 32) : (b &&& BitVec.ofNat 32 allBits) ||| (r &&& ~~~BitVec.ofNat 32 allBits) = b := by
  have h : BitVec.ofNat 32 allBits = BitVec.allOnes 32 := by decide
  have h2 : ~~~BitVec.allOnes 32 = 0 := by decide
  rw [h, h2, BitVec.and_allOnes]
  simp

/-- A key whose mask keeps nothing is not listed after a reset. -/
theorem alGet_keepRegs_zero (mask : Nat → Nat) (l : List (Nat × BitVec 32)) (k : Nat) (h : mask (k / 65536) = 0) :
    alGet (keepRegs mask l) k = none := by
  induction l with
  | nil => rfl
  | cons e l ih =>
    obtain ⟨a, b⟩ := e
    unfold keepRegs at ih ⊢
    rw [List.filterMap_cons]
    dsimp only
    split
    · exact ih
    · next q hq =>
      split at hq
      · cases hq
      · next hv =>
        cases hq
        unfold alGet
        split
        · next e =>
          subst e
          exact absurd (by rw [h]; exact none_kept b (resetAt a)) hv
        · exact ih

/-- A register whose mask keeps nothing reads its reset value after a reset. -/
theorem rd_keepRegs_zero (mask : Nat → Nat) (s t : State) (off item : Nat) (ht : t.regs = keepRegs mask s.regs)
    (h : mask (regKey off item / 65536) = 0) : t.rd off item = (resetAt (regKey off item)).toNat := by
  unfold State.rd spGet
  rw [ht, alGet_keepRegs_zero _ _ _ h]
  rfl

/-- A key whose mask keeps every bit is listed after a reset as it was before. -/
theorem alGet_keepRegs_all (mask : Nat → Nat) (l : List (Nat × BitVec 32)) (k : Nat) (h : mask (k / 65536) = allBits)
    (hd : (l.all fun p => decide (p.2 ≠ resetAt p.1)) = true) : alGet (keepRegs mask l) k = alGet l k := by
  induction l with
  | nil => rfl
  | cons e l ih =>
    obtain ⟨a, b⟩ := e
    simp only [List.all_cons, Bool.and_eq_true] at hd
    have ih := ih hd.2
    unfold keepRegs at ih ⊢
    rw [List.filterMap_cons]
    dsimp only
    by_cases ha : a = k
    · subst ha
      have e1 : (b &&& BitVec.ofNat 32 (mask (a / 65536))) ||| (resetAt a &&& ~~~BitVec.ofNat 32 (mask (a / 65536))) = b := by
        rw [h]
        exact all_kept b (resetAt a)
      rw [e1, if_neg (by simpa using hd.1)]
      simp [alGet]
    · split
      · rw [ih]
        simp [alGet, ha]
      · next q hq =>
        split at hq
        · cases hq
        · cases hq
          unfold alGet
          rw [if_neg ha, if_neg ha]
          exact ih

/-- A register whose mask keeps every bit reads as before a reset. -/
theorem rd_keepRegs_all {s : State} (hs : s.Canon) (mask : Nat → Nat) (t : State) (off item : Nat) (ht : t.regs = keepRegs mask s.regs)
    (h : mask (regKey off item / 65536) = allBits) : t.rd off item = s.rd off item := by
  have hw := hs.1
  simp only [spWf, Bool.and_eq_true] at hw
  unfold State.rd spGet
  rw [ht, alGet_keepRegs_all _ _ _ h hw.2]

/-! ### Registers through an interrupt, an event and a record -/

/-- An interrupt leaves every word but its page's status as it was. -/
theorem rd_irq_other (s : State) (p b off item : Nat) (h : regKey off item ≠ regKey (irqStatOff p) 0) :
    (s.irq p b).rd off item = s.rd off item := rd_wr_other s _ _ _ _ _ h

/-- Counting leaves every word but the overflow bits and the page's status as it was. -/
theorem rd_countOne_other (s : State) (c n off item : Nat) (h1 : regKey off item ≠ regKey R.CTR_OVF_LO 0)
    (h2 : regKey off item ≠ regKey R.CTR_OVF_HI 0) (h3 : regKey off item ≠ regKey (irqStatOff Page.CTR) 0) :
    (s.countOne c n).rd off item = s.rd off item := by
  have hq : ∀ q, q = R.CTR_OVF_LO ∨ q = R.CTR_OVF_HI → regKey off item ≠ regKey q 0 := by
    rintro q (rfl | rfl)
    · exact h1
    · exact h2
  have hr := hq (if c < 32 then R.CTR_OVF_LO else R.CTR_OVF_HI) (by split; exact Or.inl rfl; exact Or.inr rfl)
  unfold State.countOne
  dsimp only
  generalize (if c < 32 then R.CTR_OVF_LO else R.CTR_OVF_HI) = q at hr ⊢
  split
  · rfl
  · split
    · rw [rd_irq_other _ _ _ _ _ h3, rd_wr_other _ _ _ _ _ _ hr]
      rfl
    · rw [rd_wr_other _ _ _ _ _ _ hr]
      rfl

/-- An event leaves every word but the overflow bits and the counters' status as it was. -/
theorem rd_event_other (s : State) (ev n : Nat) (part : Option Nat) (off item : Nat) (h1 : regKey off item ≠ regKey R.CTR_OVF_LO 0)
    (h2 : regKey off item ≠ regKey R.CTR_OVF_HI 0) (h3 : regKey off item ≠ regKey (irqStatOff Page.CTR) 0) :
    (s.event ev part n).rd off item = s.rd off item := by
  unfold State.event
  split
  · rfl
  · next hf =>
    clear hf
    generalize s.ctrsSet = l
    induction l generalizing s with
    | nil => rfl
    | cons c l ih =>
      rw [List.foldl_cons, ih]
      split
      · exact rd_countOne_other s c n off item h1 h2 h3
      · rfl

/-- Taking a record in leaves every word but the unit's lost count, status and interrupts as it was. -/
theorem rd_enqueue_other (s : State) (x : ErrRec) (off item : Nat) (h1 : regKey off item ≠ regKey R.ERU_LOST 0)
    (h2 : regKey off item ≠ regKey R.ERU_STAT 0) (h3 : regKey off item ≠ regKey (irqStatOff Page.ERU) 0) :
    (s.enqueue x).rd off item = s.rd off item := by
  unfold State.enqueue
  split
  · dsimp only
    split
    · rw [rd_irq_other _ _ _ _ _ h3]
      rfl
    · rfl
  · rw [rd_irq_other _ _ _ _ _ h3]
    exact (rd_wr_other (s.bump F.ERU_LOST_COUNT) _ _ _ _ _ h2).trans (rd_wr_other s _ _ _ _ _ h1)

/-- The fatal latch leaves every word but the unit's status and interrupts as it was. -/
theorem rd_latchFatal_other (s : State) (x : ErrRec) (off item : Nat) (h2 : regKey off item ≠ regKey R.ERU_STAT 0)
    (h3 : regKey off item ≠ regKey (irqStatOff Page.ERU) 0) : (s.latchFatal x).rd off item = s.rd off item := by
  unfold State.latchFatal
  split
  · rfl
  · rw [rd_irq_other _ _ _ _ _ h3]
    exact rd_wr_other ({ s with eru := { s.eru with latch := some x } } : State) _ _ _ _ _ h2

end Sys2Proof.Machine
end

