-- ==== Sys2Proof/Laws/Update.lean ====
section
/-! SUPPORT. The operation words of the update unit, and one cycle of its slots. -/

namespace Sys2Proof.Machine

open Sys2Proof

/-- A field above a lower part. -/
theorem bits_high {x y lo n : Nat} (hy : y < 2 ^ lo) (hx : x < 2 ^ n) (z : Nat) :
    bits (z * 2 ^ (lo + n) + x * 2 ^ lo + y) lo n = x := by
  have e : z * 2 ^ (lo + n) + x * 2 ^ lo + y = 2 ^ lo * (z * 2 ^ n + x) + y := by
    rw [Nat.pow_add, Nat.mul_add, Nat.mul_left_comm, Nat.mul_comm x]
  have e2 : (z * 2 ^ n + x) % 2 ^ n = x := by rw [Nat.add_comm, Nat.add_mul_mod_self_right, Nat.mod_eq_of_lt hx]
  simp only [bits, Nat.shiftRight_eq_div_pow, e, Nat.mul_add_div (Nat.two_pow_pos lo), Nat.div_eq_of_lt hy, Nat.add_zero, e2]

theorem opWord_op {op d a b c : Nat} (ho : op < 32) (hd : d < 32) (ha : a < 32) (hb : b < 32) (hc : c < 32) :
    bits (opWord op d a b c) 27 5 = op := by
  have h := bits_high (lo := 27) (n := 5) (y := d * 2 ^ 22 + a * 2 ^ 17 + b * 2 ^ 12 + c * 2 ^ 7) (by omega) ho 0
  have e : opWord op d a b c = 0 * 2 ^ (27 + 5) + op * 2 ^ 27 + (d * 2 ^ 22 + a * 2 ^ 17 + b * 2 ^ 12 + c * 2 ^ 7) := by simp only [opWord]; omega
  rw [e]; exact h

theorem opWord_d {op d a b c : Nat} (hd : d < 32) (ha : a < 32) (hb : b < 32) (hc : c < 32) : bits (opWord op d a b c) 22 5 = d := by
  have h := bits_high (lo := 22) (n := 5) (y := a * 2 ^ 17 + b * 2 ^ 12 + c * 2 ^ 7) (by omega) hd op
  have e : opWord op d a b c = op * 2 ^ (22 + 5) + d * 2 ^ 22 + (a * 2 ^ 17 + b * 2 ^ 12 + c * 2 ^ 7) := by simp only [opWord]; omega
  rw [e]; exact h

theorem opWord_a {op d a b c : Nat} (ha : a < 32) (hb : b < 32) (hc : c < 32) : bits (opWord op d a b c) 17 5 = a := by
  have h := bits_high (lo := 17) (n := 5) (y := b * 2 ^ 12 + c * 2 ^ 7) (by omega) ha (op * 32 + d)
  have e : opWord op d a b c = (op * 32 + d) * 2 ^ (17 + 5) + a * 2 ^ 17 + (b * 2 ^ 12 + c * 2 ^ 7) := by simp only [opWord]; omega
  rw [e]; exact h

theorem opWord_b {op d a b c : Nat} (hb : b < 32) (hc : c < 32) : bits (opWord op d a b c) 12 5 = b := by
  have h := bits_high (lo := 12) (n := 5) (y := c * 2 ^ 7) (by omega) hb (op * 1024 + d * 32 + a)
  have e : opWord op d a b c = (op * 1024 + d * 32 + a) * 2 ^ (12 + 5) + b * 2 ^ 12 + c * 2 ^ 7 := by simp only [opWord]; omega
  rw [e]; exact h

theorem opWord_c {op d a b c : Nat} (hc : c < 32) : bits (opWord op d a b c) 7 5 = c := by
  have h := bits_high (lo := 7) (n := 5) (y := 0) (by omega) hc (op * 32768 + d * 1024 + a * 32 + b)
  have e : opWord op d a b c = (op * 32768 + d * 1024 + a * 32 + b) * 2 ^ (7 + 5) + c * 2 ^ 7 + 0 := by simp only [opWord]; omega
  rw [e]; exact h

/-- A word whose operation has a result sets its destination to it. -/
theorem runOp_fields {file : List Nat} {w op d a b c v : Nat} (h1 : bits w 27 5 = op) (h2 : bits w 22 5 = d) (h3 : bits w 17 5 = a)
    (h4 : bits w 12 5 = b) (h5 : bits w 7 5 = c) (hv : opResult op (file.getD a 0) (file.getD b 0) (file.getD c 0) = some v) :
    runOp file w = file.set d v := by
  subst h1 h2 h3 h4 h5
  simp only [runOp, hv]

/-- An operation word that has a result sets its destination to it. -/
theorem runOp_opWord (file : List Nat) {op d a b c v : Nat} (ho : op < 32) (hd : d < 32) (ha : a < 32) (hb : b < 32) (hc : c < 32)
    (hv : opResult op (file.getD a 0) (file.getD b 0) (file.getD c 0) = some v) : runOp file (opWord op d a b c) = file.set d v :=
  runOp_fields (opWord_op ho hd ha hb hc) (opWord_d hd ha hb hc) (opWord_a ha hb hc) (opWord_b hb hc) (opWord_c hc) hv

/-! The operations of the built-in programs as rewriting rules. -/

theorem runOp_mov (file : List Nat) {d a b c : Nat} (hd : d < 32) (ha : a < 32) (hb : b < 32) (hc : c < 32) :
    runOp file (opWord 1 d a b c) = file.set d (f32Canon (file.getD a 0)) := runOp_opWord file (by decide) hd ha hb hc rfl

theorem runOp_add (file : List Nat) {d a b c : Nat} (hd : d < 32) (ha : a < 32) (hb : b < 32) (hc : c < 32) :
    runOp file (opWord 2 d a b c) = file.set d (f32Add (file.getD a 0) (file.getD b 0)) := runOp_opWord file (by decide) hd ha hb hc rfl

theorem runOp_mul (file : List Nat) {d a b c : Nat} (hd : d < 32) (ha : a < 32) (hb : b < 32) (hc : c < 32) :
    runOp file (opWord 4 d a b c) = file.set d (f32Mul (file.getD a 0) (file.getD b 0)) := runOp_opWord file (by decide) hd ha hb hc rfl

theorem runOp_fma (file : List Nat) {d a b c : Nat} (hd : d < 32) (ha : a < 32) (hb : b < 32) (hc : c < 32) :
    runOp file (opWord 5 d a b c) = file.set d (f32Fma (file.getD a 0) (file.getD b 0) (file.getD c 0)) := runOp_opWord file (by decide) hd ha hb hc rfl

theorem runOp_fnma (file : List Nat) {d a b c : Nat} (hd : d < 32) (ha : a < 32) (hb : b < 32) (hc : c < 32) :
    runOp file (opWord 6 d a b c) = file.set d (f32Fnma (file.getD a 0) (file.getD b 0) (file.getD c 0)) := runOp_opWord file (by decide) hd ha hb hc rfl

theorem runOp_div (file : List Nat) {d a b c : Nat} (hd : d < 32) (ha : a < 32) (hb : b < 32) (hc : c < 32) :
    runOp file (opWord 7 d a b c) = file.set d (f32Div (file.getD a 0) (file.getD b 0)) := runOp_opWord file (by decide) hd ha hb hc rfl

theorem runOp_sqrt (file : List Nat) {d a b c : Nat} (hd : d < 32) (ha : a < 32) (hb : b < 32) (hc : c < 32) :
    runOp file (opWord 8 d a b c) = file.set d (f32Sqrt (file.getD a 0)) := runOp_opWord file (by decide) hd ha hb hc rfl

theorem runOp_sign (file : List Nat) {d a b c : Nat} (hd : d < 32) (ha : a < 32) (hb : b < 32) (hc : c < 32) :
    runOp file (opWord 13 d a b c) = file.set d (f32Sign (file.getD a 0)) := runOp_opWord file (by decide) hd ha hb hc rfl

theorem runOp_sqr (file : List Nat) {d a b c : Nat} (hd : d < 32) (ha : a < 32) (hb : b < 32) (hc : c < 32) :
    runOp file (opWord 15 d a b c) = file.set d (f32Mul (file.getD a 0) (file.getD a 0)) := runOp_opWord file (by decide) hd ha hb hc rfl

/-- A code at or below infinity is not a NaN. -/
theorem not_nan_of_le {k : Nat} (neg : Bool) (h : k ≤ 0x7F800000) : (f32 (k + neg.toNat * 2 ^ 31)).isNan = false := by
  have e1 : bits (k + neg.toNat * 2 ^ 31) 23 8 = k / 8388608 := by
    simp only [bits, Nat.shiftRight_eq_div_pow]
    cases neg <;> simp <;> omega
  have e2 : (k + neg.toNat * 2 ^ 31) % 2 ^ 23 = k % 8388608 := by
    cases neg <;> simp <;> omega
  simp only [f32, FFmt.decode, e1, e2]
  split
  · next hx =>
    have : k % 8388608 = 0 := by simp at hx; omega
    simp [this, Num.isNan]
  · split <;> rfl

/-- A rounded result is the canonical NaN or no NaN. -/
theorem f32Canon_round (x : Num) : f32Canon (fp32.round x) = fp32.round x := by
  cases x with
  | nan => rfl
  | inf neg => cases neg <;> rfl
  | fin neg m e =>
    have h : (f32 (fp32.round (.fin neg m e))).isNan = false := by
      have hc : fp32.infCode = 0x7F800000 := rfl
      have hs : fp32.signBit = 2 ^ 31 := rfl
      simp only [FFmt.round, hs]
      exact not_nan_of_le neg (by rw [hc]; exact Nat.min_le_right _ _)
    simp [f32Canon, h]

theorem f32Canon_fma (a b c : Nat) : f32Canon (f32Fma a b c) = f32Fma a b c := f32Canon_round _

/-- An operation with a destination a program may write and operands it may read sets its destination. -/
theorem opStep_value (s : State) {op v : Nat} (d a b c : Fin 32) (ho : op < 32) (hd : 18 ≤ d.val ∧ d.val ≤ 30)
    (hu : (([a.val, b.val, c.val]).take (opArity op)).any (28 ≤ ·) = false)
    (hv : opResult op (s.upd.file.getD a.val 0) (s.upd.file.getD b.val 0) (s.upd.file.getD c.val 0) = some v) :
    s.opStep op d a b c = { s with upd := { s.upd with file := s.upd.file.set d.val v } } := by
  have h : ¬ (d.val < 18 ∨ d.val = 31 ∨ (([a.val, b.val, c.val]).take (opArity op)).any (28 ≤ ·) = true) := by
    rintro (h | h | h)
    · omega
    · omega
    · rw [hu] at h; cases h
  simp only [State.opStep, h, if_false]
  rw [runOp_opWord _ ho d.isLt a.isLt b.isLt c.isLt hv]

/-- One cycle that goes on is what one cycle of slots does. -/
theorem updRun_one {s t : State} {p : Nat} (h : s.updStep p = (t, .go)) : State.updRun p 1 s = t := by
  simp only [State.updRun, h]

/-- A pass without writes left over and without a row to write has none to make. -/
theorem updWrites_none (s : State) (p : Nat) {x : Pass} (ht : x.todo = []) (hl : x.late = []) : s.updWrites p x = (s, some x) := by
  obtain ⟨c, st, sd, hp, l, ds, ps, td, du, fl, sl, pg, pn, is, lt⟩ := x
  cases ht
  cases hl
  simp only [State.updWrites, State.updFlush]
  cases ds <;> rfl

/-- A cycle of a pass without writes left over, by where the pass stands. -/
theorem updStep_ready {s : State} {p : Nat} {x y : Pass} (hx : (s.updPart p).pass = some x) (ht : x.todo = []) (hl : x.late = [])
    (hy : y = { x with pinned := false }) :
    s.updStep p =
      match y.desc with
      | none => if s.fget F.UPD_LTAB_COUNT_COUNT p ≤ y.layer then ((s.setPass p (some y)).passEnd p y, .go)
        else (s.setPass p (some y)).layerBegin p y
      | some d =>
        if ldTotal d ≤ y.pos then
          ((s.setPass p (some y)).setPass p (some { y with layer := y.layer + 1, desc := none, pos := 0 }), .go)
        else if ldGenFmt d ≠ 0 ∧ (s.setPass p (some y)).nextPins p ≠ 0 then
          ((s.setPass p (some y)).setPass p (some { y with pinned := true }), .pin)
        else (s.setPass p (some y)).groupStep p y d ((s.ldProg d).getD .genOnly) := by
  subst hy
  simp only [State.updStep, hx, updWrites_none s p ht hl]
  obtain ⟨c, st, sd, hp, l, ds, ps, td, du, fl, sl, pg, pn, is, lt⟩ := x
  cases hl
  cases ds with
  | none => rfl
  | some d =>
    simp only [and_true]
    by_cases h : ldTotal d ≤ ps
    · simp only [h, if_true]
    · simp only [h, if_false]; rfl

/-- A pass that may go on is the partition's pass. -/
theorem passOn_pass {s : State} {p : Nat} {x : Pass} (h : s.passOn p = some x) : (s.updPart p).pass = some x := by
  unfold State.passOn at h
  split at h
  · exact h
  · cases h

/-- A layer begun is one cycle. -/
theorem updRun_one_layer {s t : State} {p : Nat} {x : Pass} (hx : s.passOn p = some x) (hd : x.desc = none)
    (hl : x.layer < s.fget F.UPD_LTAB_COUNT_COUNT p) (h : s.updStep p = (t, .go)) : s.layerCmd p = t := by
  simp only [State.layerCmd, hx, hd, Option.isNone_none, true_and, hl, if_true]
  exact updRun_one h

/-- A command of a program runs a cycle of the pass when the layer in progress has that program. -/
theorem progCmd_one {s t : State} {p n : Nat} {x : Pass} {d : List Byte} (hx : s.passOn p = some x) (hd : x.desc = some d)
    (hn : ldProgram d = n) (h : s.updStep p = (t, .go)) : s.progCmd p n = t := by
  simp only [State.progCmd, hx, hd, hn, if_true]
  exact updRun_one h

/-- A pass inside a layer, whose generator copy may be written, computes its next group. -/
theorem updStep_group {s : State} {p : Nat} {x y : Pass} {d : List Byte} (hx : (s.updPart p).pass = some x) (ht : x.todo = [])
    (hl : x.late = []) (hy : y = { x with pinned := false }) (hd : y.desc = some d) (hp : y.pos < ldTotal d)
    (hg : ldGenFmt d = 0 ∨ (s.setPass p (some y)).nextPins p = 0) :
    s.updStep p = (s.setPass p (some y)).groupStep p y d ((s.ldProg d).getD .genOnly) := by
  have hn : ¬ (ldGenFmt d ≠ 0 ∧ (s.setPass p (some y)).nextPins p ≠ 0) := fun h => hg.elim h.1 h.2
  rw [updStep_ready hx ht hl hy]
  simp only [hd, Nat.not_le.mpr hp, hn, if_false]

/-- A dense layer takes its elements in order. -/
theorem elemAt_dense (s : State) (p : Nat) {d : List Byte} (pos : Nat) (h : ldSparse d = false) : s.elemAt p d pos = (s, some (some pos)) := by
  simp [State.elemAt, h]

/-- A group of a program of words. -/
theorem groupStep_words {s : State} {p e n : Nat} {x : Pass} {d : List Byte} {ws : List Nat} {q : State × Option (Option Nat)}
    {r : State × Option (List ElemIn)} {v : State × Bool} {xs : List ElemIn} {os : List ElemOut} (hw : (Prog.words ws).strays = false)
    (hq : q = s.elemAt p d x.pos) (he : q.2 = some (some e)) (hn : n = min (32 - e % 32) (ldTotal d - x.pos))
    (hr : r = q.1.readElems p x d (.words ws) e x.pos n) (hs : r.2 = some xs) (hv : v = r.1.genTurn p d e n) (hg : v.2 = true)
    (ho : os = xs.map (wordsElem ws ((List.range 12).map fun i => x.hpWord (ldHpSet d) i) 0 0)) :
    s.groupStep p x d (.words ws) =
      ((({ v.1 with upd := { v.1.upd with file := ((os.filterMap (·.file)).getLast?).getD v.1.upd.file } } : State).groupDone p x d e os).groupSet
        p x d n (groupWrites d e os) true, .go) := by
  subst hn ho
  have hq' : s.elemAt p d x.pos = (q.1, some (some e)) := by rw [← hq, ← he]
  have hr' : q.1.readElems p x d (.words ws) e x.pos (min (32 - e % 32) (ldTotal d - x.pos)) = (r.1, some xs) := by rw [← hr, ← hs]
  have hv' : r.1.genTurn p d e (min (32 - e % 32) (ldTotal d - x.pos)) = (v.1, true) := by rw [← hv, ← hg]
  simp only [State.groupStep, hq', hr', hv', hw, Bool.false_eq_true, if_false, State.frees, List.getD_nil]
  have e : (List.zipIdx xs).map (fun y => wordsElem ws ((List.range 12).map fun i => x.hpWord (ldHpSet d) i) 0 0 y.1) =
      xs.map (wordsElem ws ((List.range 12).map fun i => x.hpWord (ldHpSet d) i) 0 0) := by
    rw [show (fun y : ElemIn × Nat => wordsElem ws ((List.range 12).map fun i => x.hpWord (ldHpSet d) i) 0 0 y.1) =
      (wordsElem ws ((List.range 12).map fun i => x.hpWord (ldHpSet d) i) 0 0) ∘ Prod.fst from rfl, ← List.map_map, List.zipIdx_map_fst]
  rw [e]
  generalize (List.filterMap (·.file) (xs.map (wordsElem ws ((List.range 12).map fun i => x.hpWord (ldHpSet d) i) 0 0))).getLast? = l
  cases l <;> rfl

/-- A command of a program of words computes a group. -/
theorem progCmd_words {s : State} {p k e n : Nat} {x z : Pass} {d : List Byte} {ws : List Nat} {q : State × Option (Option Nat)}
    {r : State × Option (List ElemIn)} {v : State × Bool} {xs : List ElemIn} {os : List ElemOut}
    (hx : s.passOn p = some z) (ht : z.todo = []) (hz : z.late = []) (hy : x = { z with pinned := false }) (hd : x.desc = some d) (hk : ldProgram d = k)
    (hp : (s.ldProg d).getD .genOnly = .words ws) (hw : (Prog.words ws).strays = false) (hl : x.pos < ldTotal d)
    (hg : ldGenFmt d = 0 ∨ (s.setPass p (some x)).nextPins p = 0) (hq : q = (s.setPass p (some x)).elemAt p d x.pos)
    (he : q.2 = some (some e)) (hn : n = min (32 - e % 32) (ldTotal d - x.pos))
    (hr : r = q.1.readElems p x d (.words ws) e x.pos n) (hs : r.2 = some xs) (hv : v = r.1.genTurn p d e n) (hb : v.2 = true)
    (ho : os = xs.map (wordsElem ws ((List.range 12).map fun i => x.hpWord (ldHpSet d) i) 0 0)) :
    s.progCmd p k =
      (({ v.1 with upd := { v.1.upd with file := ((os.filterMap (·.file)).getLast?).getD v.1.upd.file } } : State).groupDone p x d e os).groupSet
        p x d n (groupWrites d e os) true := by
  have hzd : z.desc = some d := by rw [← hd, hy]
  refine progCmd_one hx hzd hk ?_
  rw [updStep_group (passOn_pass hx) ht hz hy hd hl hg, hp]
  exact groupStep_words hw hq he hn hr hs hv hb ho

/-- GEN_ONLY copies a group. -/
theorem progCmd_genOnly {s : State} {p e n : Nat} {x z : Pass} {d : List Byte} {q : State × Option (Option Nat)}
    {r : State × Option (List ElemIn)} {v : State × Bool} {xs : List ElemIn}
    (hx : s.passOn p = some z) (ht : z.todo = []) (hz : z.late = []) (hy : x = { z with pinned := false }) (hd : x.desc = some d) (hk : ldProgram d = 6)
    (hl : x.pos < ldTotal d) (hg : ldGenFmt d = 0 ∨ (s.setPass p (some x)).nextPins p = 0)
    (hq : q = (s.setPass p (some x)).elemAt p d x.pos) (he : q.2 = some (some e)) (hn : n = min (32 - e % 32) (ldTotal d - x.pos))
    (hr : r = q.1.readElems p x d .genOnly e x.pos n) (hs : r.2 = some xs) (hv : v = r.1.genTurn p d e n)
    (hb : v.2 = true) :
    s.progCmd p 6 = (v.1.groupDone p x d e (xs.map genOnlyElem)).groupSet p x d n (groupWrites d e (xs.map genOnlyElem)) true := by
  have hzd : z.desc = some d := by rw [← hd, hy]
  refine progCmd_one hx hzd hk ?_
  have hp : (s.ldProg d).getD .genOnly = .genOnly := by simp [State.ldProg, hk]
  rw [updStep_group (passOn_pass hx) ht hz hy hd hl hg, hp]
  subst hn
  have hq' : (s.setPass p (some x)).elemAt p d x.pos = (q.1, some (some e)) := by rw [← hq, ← he]
  have hr' : q.1.readElems p x d .genOnly e x.pos (min (32 - e % 32) (ldTotal d - x.pos)) = (r.1, some xs) := by rw [← hr, ← hs]
  have hv' : r.1.genTurn p d e (min (32 - e % 32) (ldTotal d - x.pos)) = (v.1, true) := by rw [← hv, ← hb]
  have hf : (List.filterMap (·.file) (xs.map genOnlyElem)).getLast? = none := by
    rw [List.getLast?_eq_none_iff, List.filterMap_eq_nil_iff]
    intro o ho
    obtain ⟨y, _, rfl⟩ := List.mem_map.mp ho
    unfold genOnlyElem
    split <;> rfl
  simp only [State.groupStep, hq', hr', hv', hf]

/-- ADAGRAD_ROW reads the next 32 elements of a row; with the last of them the row's accumulator, and its sum is known (R129, R137). -/
theorem progCmd_adagrad {s : State} {p e : Nat} {x z : Pass} {d : List Byte} {q : State × Option (Option Nat)}
    {r : State × Option (List ElemIn)} {xs : List ElemIn}
    (hx : s.passOn p = some z) (ht : z.todo = []) (hz : z.late = []) (hy : x = { z with pinned := false }) (hd : x.desc = some d)
    (hk : ldProgram d = 5) (hl : x.pos < ldTotal d) (hg : ldGenFmt d = 0 ∨ (s.setPass p (some x)).nextPins p = 0)
    (hq : q = (s.setPass p (some x)).elemAt p d x.pos) (he : q.2 = some (some e))
    (hr : r = q.1.readElems p x d .adagrad e x.pos 32) (hs : r.2 = some xs) :
    (x.ins.length + xs.length < ldRow d →
      s.progCmd p 5 = r.1.setPass p (some { x with pos := x.pos + 32, ins := x.ins ++ xs })) ∧
    (∀ (u : State × UpdRead) (ab : List (Option Byte)), ¬ x.ins.length + xs.length < ldRow d →
      u = r.1.updRead p (ldAddr d 8 + 4 * (e / ldRow d)) 4 → u.2 = .ok ab →
      s.progCmd p 5 = u.1.rowSummed p x d (e + 32 - ldRow d) ((wordsOf 4 ab).headD none) (x.ins ++ xs)) := by
  have hzd : z.desc = some d := by rw [← hd, hy]
  have hp : (s.ldProg d).getD .genOnly = .adagrad := by simp [State.ldProg, hk]
  have hq' : (s.setPass p (some x)).elemAt p d x.pos = (q.1, some (some e)) := by rw [← hq, ← he]
  have hr' : q.1.readElems p x d .adagrad e x.pos 32 = (r.1, some xs) := by rw [← hr, ← hs]
  refine ⟨fun hn => progCmd_one hx hzd hk ?_, fun u ab hn hu ha => progCmd_one hx hzd hk ?_⟩
  · rw [updStep_group (passOn_pass hx) ht hz hy hd hl hg, hp]
    simp only [State.groupStep, hq', hr', hn, if_true]
  · have hu' : r.1.updRead p (ldAddr d 8 + 4 * (e / ldRow d)) 4 = (u.1, .ok ab) := by rw [← hu, ← ha]
    rw [updStep_group (passOn_pass hx) ht hz hy hd hl hg, hp]
    simp only [State.groupStep, hq', hr', hn, if_false, hu']

end Sys2Proof.Machine
end

