-- ==== Sys2Proof/Tests/Helper.lean ====
section
/-! SUPPORT. Small states for the tests and the witnesses. -/

namespace Sys2Proof.Tests

open Sys2Proof Sys2Proof.Machine

/-- The engine running from its reset values. -/
def up : State := { State.reset with run := .running }

/-- A partition resident, with a map of 256 pages at frame 0 and page 0 in frame 1 of the tower. -/
def mapped : State :=
  ((up.fset F.PTC_STAT_STATE 0 2).fset F.PGM_MAP_PAGES_PAGES 0 256).setPme 0 0 { state := 2, frame := 1 }

/-- A plan image without entries: partition 0, period 100, 4 slots, plan 7. -/
def planImg : List Byte :=
  let h := leBytes 1 1 ++ leBytes 1 0 ++ leBytes 2 100 ++ leBytes 2 (up.fget F.IDN_FREQ0_LCLK) ++ leBytes 2 4 ++ leBytes 4 7
    ++ leBytes 1 32 ++ leBytes 1 1 ++ leBytes 2 0 ++ List.replicate 44 0
  h ++ leBytes 4 (crc32c (h ++ leBytes 4 0))

/-- The image in the next buffer of partition 0, its check running. -/
def planned : State :=
  { up.fset F.PTC_SEAT_SLOTS_COUNT 0 4 with
    t0 := up.t0.puts (planBlock 0 0) planImg, plans := up.plans.set 0 { PlanState.idle with check := some ⟨0, false⟩ } }

/-- The link up, with buffers on every channel. -/
def linked : State :=
  (List.range 4).foldl (fun s v => (s.fset F.FVC_BUF_SIZE v 64).fset F.FVC_BUF_RESP v 16)
    ((up.fset F.FBP_CTRL_EN 0 1).fset F.FBP_STAT_LINK_UP 0 1)

/-- A group of two data symbols and one parity in slot 0: own role 0, which is the manager, partners on nodes 1 and 2. -/
def grp : State :=
  let s := (((linked.fset F.CDE_GRP_CFG_K 0 2).fset F.CDE_GRP_CFG_M 0 1).fset F.CDE_GRP_ID_GROUP_ID 0 5).fset F.CDE_GRP_ID_GEN 0 1
  let s := (((s.fset F.CDE_GRP_ROWS_ROWS 0 3).fset F.CDE_GRP_STAT_STATE 0 1).fset F.CDE_GRP_BASE_BASE 0 1024).fset F.CDE_GRP_TAG_TAG_BASE 0 2048
  (List.range 3).foldl (fun s r => (s.fset F.CDE_MEMB_NODE_NODE r r).fset F.CDE_MEMB_NODE_VALID r 1) s

/-- A message of the group from the member of a role. -/
def grpMsg (typ b4 b5 : Nat) (w8 d16 : Nat) : List Byte := msg32 typ 5 b4 b5 1 0 w8 0 d16

/-- The row of the group in which the own member holds the parity. -/
def grpRow : Nat := ((List.range 3).find? fun r => symOf 3 0 r == 2).getD 0

/-- A record of the group for that row, one sector, in order, from the member that holds a data symbol of it. -/
def recMsg (typ : Nat) : List Byte :=
  let role := ((List.range 3).find? fun p => symOf 3 p grpRow == 0).getD 0
  withCrc (leBytes 1 typ ++ leBytes 1 1 ++ leBytes 2 5 ++ leBytes 1 role ++ leBytes 1 0 ++ leBytes 1 0 ++ leBytes 1 1 ++ leBytes 2 0
    ++ leBytes 1 1 ++ leBytes 1 0 ++ leBytes 4 grpRow ++ leBytes 8 1 ++ leBytes 4 1 ++ leBytes 8 0 ++ leBytes 4 role
    ++ leBytes 4 (crc32c (List.replicate 64 3))) ++ List.replicate 64 3

/-- The group with every tag line of its region written. -/
def grpTagged : State := (List.range 3).foldl (fun s r => s.tagPut 0 r (tagMake s 0 r [] 0)) grp

/-- Symbols asked of role 1 for row 0, one answer still to come. -/
def gatherOf : Gather := ⟨0, 0, .rebuild, 1, [(1, 1, false)], [], [], [], [], false, [], [], []⟩

/-- The group with that gather under way. -/
def grpGathers : State := { grp with coding := { grp.coding with gathers := [gatherOf] } }

/-- The answer to it with a status and no data. -/
def gatherMsg (status : Nat) : List Byte :=
  withCrc (leBytes 1 7 ++ leBytes 1 1 ++ leBytes 2 5 ++ leBytes 1 1 ++ leBytes 1 0 ++ leBytes 1 1 ++ leBytes 1 status ++ leBytes 4 0
    ++ leBytes 4 1 ++ leBytes 24 0 ++ leBytes 4 (crc32c []))

/-- The group's slot EMPTY, its frames reserved, no separation asked. -/
def grpFree : State :=
  ({ grp with pages := { grp.pages with t1 := ⟨.free, [(64, .reserved 0 true), (128, .reserved 0 true)]⟩ } }.fset
    F.CDE_GRP_STAT_STATE 0 0 |>.fset F.CDE_GRP_CFG_SEPARATE 0 0).fset F.CDE_GRP_CFG_ZERO 0 0

/-- A layer descriptor: program and count, rows of 32 elements, every region at page 0. -/
def descOf (prog count : Nat) : List Byte :=
  leBytes 28 0 ++ leBytes 4 count ++ leBytes 2 prog ++ leBytes 12 0 ++ leBytes 2 1 ++ leBytes 16 0

/-- A partition in a pass, at the first element of a layer. -/
def passing (prog count : Nat) : State := mapped.setPass 0 (some ⟨0, 1, 0, [], 0, some (descOf prog count), 0, [], 0, [], [], [], false, [], []⟩)

/-- A descriptor of a layer of one element without state words to write elsewhere: GEN_ONLY, no generator format, no READY flag. -/
def layerImg : List Byte :=
  let h := leBytes 4 1 ++ leBytes 4 2 ++ leBytes 20 0 ++ leBytes 4 1 ++ leBytes 2 6 ++ leBytes 10 0 ++ leBytes 2 0xFFFF ++ leBytes 2 1 ++ leBytes 12 0
  h ++ leBytes 4 (crc32c h)

/-- A partition at the start of a pass over that one layer, its descriptor and its master on page 0. -/
def layered : State :=
  let s := (mapped.fset F.UPD_LTAB_COUNT_COUNT 0 1).setPass 0 (some ⟨0, 1, 0, [], 0, none, 0, [], 0, [], [], [], false, [], []⟩)
  let s := s.setPme 0 0 { state := 2, master := true, frame := 1 }
  (s.writeRange (.update 0) 0 0 0 (layerImg.map some)).1

/-- A noise fill of one element under way. -/
def noising : State := { mapped with upd := { mapped.upd with noise := some ⟨0, 0, 1, 0, 0, 0, 0, false, 0⟩ } }

/-- A chain of partition 0 on buffer 0, open for four boundaries, its last descriptor ended. -/
def chainOf : Chain := ⟨0, 0, 4, [], true, 0, none, false⟩

/-- A lane descriptor of a kind that has been read and has begun. -/
def lanedJob (kind : Nat) : LaneJob :=
  { LaneJob.taken 0 0 0 0 kind 0 [0] 1 1 0 0 with desc := some (List.replicate 64 0), begun := true }

/-- That descriptor in front of queue 0. -/
def laned (kind : Nat) : State := { mapped with lane := { mapped.lane with jobs := [lanedJob kind] } }

/-- A row repair of bank 0: row 4 to spare 2. -/
def repairWord : Nat := 2 ^ 31 + 2 ^ 29 + 4 * 2 ^ 7 + 2 * 2 ^ 3

/-- Halted at the critical threshold, every layer cool again. -/
def cool : State := { up with tower := { up.tower with critical := true } }

/-- A page queue descriptor. -/
def pageDesc (op first count target kind : Nat) : List Byte :=
  let h := leBytes 1 op ++ leBytes 1 1 ++ leBytes 6 0 ++ leBytes 4 first ++ leBytes 4 count ++ leBytes 4 0 ++ leBytes 4 target
    ++ leBytes 1 kind ++ leBytes 35 0
  h ++ leBytes 4 (crc32c h)

/-- Queue 0 of a kind enabled, with one descriptor at its head, in page 0; partition 0 has one sequence of 16 pages. -/
def queued (k : QKind) (d : List Byte) : State :=
  let s := ((mapped.fset k.enable 0 1).fset k.tail 0 1).fset F.XLT_SEQ_COUNT_COUNT 0 1
  let s := s.fset F.XLT_SEQ_PAGES_LOG2 0 4
  (s.writeRange (.update 0) 0 0 0 (d.map some)).1

/-- Too few free frames, and one page of the pool to evict. -/
def evicting : State :=
  let s := ((mapped.set1 F.PGM_STAT_EVICTING).fset F.PGM_WATER_LOW 0 16).fset F.PGM_WATER_HIGH 0 32
  { s with pages := { s.pages with t1 := ⟨.kept, [(1, .page 0 0)]⟩ } }

/-- A lender of up to 4 frames, node 6 its borrower. -/
def lending : State :=
  ((linked.fset F.PGM_LEND_PAGES_PAGES 0 4).fset F.PGM_BORROWER_NODE_NODE 0 6).fset F.PGM_BORROWER_NODE_VALID 0 1

/-- One frame lent to node 6. -/
def lent : State := { lending with pages := { lending.pages with loans := [⟨0, 0, 6, 9⟩] } }

/-- A page that waits for its loan. -/
def loanMove : Move := ⟨0, 0, 2, 3, none, 0, 9, 0, [], false, false, 3⟩

/-- A borrower whose lender is node 6, and that page. -/
def borrowing : State :=
  let s := (linked.fset F.PGM_LENDER_NODE_NODE 0 6).fset F.PGM_LENDER_NODE_VALID 0 1
  { s with pages := { s.pages with moves := [loanMove] } }

/-- A page that lives at the lender. -/
def borrowed : State := { borrowing with pages := { borrowing.pages with moves := [], borrowed := [(0, 4)] } }

/-- Eight boundaries since the ager's last pass, which comes every four. -/
def aged : State := { mapped with pages := { mapped.pages with ageTicks := 8 } }.fset F.PGM_AGE_TICKS_TICKS 0 4

/-- A header from node 0 to node 0. -/
def header (typ flags op status tag key off len : Nat) : List Byte :=
  let h := leBytes 1 typ ++ leBytes 1 flags ++ leBytes 1 op ++ leBytes 1 status ++ leBytes 8 0 ++ leBytes 2 tag ++ leBytes 2 len
    ++ leBytes 4 key ++ leBytes 6 off ++ leBytes 2 0
  h ++ leBytes 4 (crc32c h)

/-- A region of page 0 of partition 0 under key 7, with every permission. -/
def regioned : State :=
  let s := List.foldl (fun s v => (s.fset F.FVC_BUF_SIZE v 64).fset F.FVC_BUF_RESP v 16) mapped (List.range 4)
  let s := ((s.fset F.FBK_REG_CFG_VALID 0 1).wr R.FBK_REG_KEY 0 7).wr R.FBK_REG_LEN_LO 0 4096
  s.wr R.FBK_REG_CFG 0 (s.rd R.FBK_REG_CFG 0 + 7 * 2 ^ 4)

/-- A fabric queue descriptor of 16 bytes, by partner entry 0 and key 7, to partition page 0. -/
def fabDesc (op : Nat) : List Byte :=
  let h := leBytes 1 op ++ leBytes 1 1 ++ leBytes 6 0 ++ leBytes 4 0 ++ leBytes 4 7 ++ leBytes 8 0 ++ leBytes 8 0 ++ leBytes 4 16
    ++ leBytes 24 0
  h ++ leBytes 4 (crc32c h)

/-- Partner entry 0 valid, of partition 0. -/
def partnered : State := mapped.fset F.FBP_PTN_NODE_VALID 0 1

/-- An answer of no data waits on a channel, and there are credits for it. -/
def sendingOn (vc : Nat) : State :=
  let t : Txn := ⟨4, vc, false, false, false, false, true, 0, 0, 0, 0, 0, 7, 0, 0, 4, [], none, none, .message, false⟩
  { linked with fab := { linked.fab with txq := [t], credits := [(2 * vc + 1, 8)] } }

/-- Node 0 is the fabric manager, and partition 0 runs job 7. -/
def torn : State :=
  let s := (linked.fset F.PTC_STAT_STATE 0 2).fset F.FBP_FM_NODE_VALID 0 1
  (s.fset F.FBP_PART_JOB_VALID 0 1).fset F.FBP_PART_JOB_JOB 0 7

/-- A collective descriptor of partition 0 over group 0: opcode, count, priority; its data at page 0 and page 1. -/
def colDesc (op count : Nat) : List Byte :=
  let h := leBytes 1 op ++ leBytes 1 1 ++ leBytes 6 0 ++ leBytes 4 0 ++ leBytes 4 count ++ leBytes 4 0 ++ leBytes 4 1 ++ leBytes 36 0
  h ++ leBytes 4 (crc32c h)

/-- Group 0 of two members under tag 3, of partition 0, this engine its rank 0. -/
def colled : State :=
  let s := (linked.fset F.PTC_STAT_STATE 0 2).fset F.COL_GRP_CFG_VALID 0 1
  (s.fset F.COL_GRP_CFG_TAG 0 3).fset F.COL_GRP_STAT_MEMBERS 0 2

/-- The collective of the group, in its first step. -/
def colJobOf (op : Nat) (asked : Bool) : ColJob :=
  { colled.colFresh 0 0 (colDesc op 4) [] [some 0, some 1] with asked := asked }

/-- That collective running. -/
def gathering (op : Nat) (asked : Bool) : State := { colled with col := { colled.col with jobs := [colJobOf op asked], seqs := [(0, 1)] } }

/-- A message of the group from rank 1, step 1 of collective `seq`, with data. -/
def colMsg (typ seq : Nat) (data : List Byte) : List Byte :=
  withCrc (leBytes 1 typ ++ leBytes 1 1 ++ leBytes 2 3 ++ leBytes 4 seq ++ leBytes 2 1 ++ leBytes 2 1 ++ leBytes 4 0
    ++ leBytes 4 data.length ++ leBytes 4 1 ++ leBytes 4 (crc32c data)) ++ data

/-- Partition 0 with a target for its archive, and a map of one granule. -/
def archiving (state : Nat) (recs : List ArcRec) : State :=
  let s := (mapped.fset F.ARC_STAT_STATE 0 state).setArcPoint 0 (some ⟨true, 5, 0, 0, 0, false, recs, false⟩)
  let s := ((s.fset F.ARC_TARGET_VALID 0 1).fset F.ARC_TARGET_NODE 0 6).fset F.FBP_CTRL_EN 0 1
  let s := s.fset F.FBP_STAT_LINK_UP 0 1
  List.foldl (fun s v => (s.fset F.FVC_BUF_SIZE v 64).fset F.FVC_BUF_RESP v 16) s [6]

/-- Group 0 not installed: one axis of two members, the member table at page 0. -/
def grouping : State :=
  let s := ((mapped.wr R.COL_GRID_DIM_01 0 0x10002).wr (R.COL_GRID_DIM_01 + 4) 0 0x10001).wr (R.COL_GRID_DIM_01 + 8) 0 0x10001
  s.fset F.COL_GRP_CFG_NAXES 0 1

/-- An archive that may be armed: a target, a point in time, maps and staging in place. -/
def armable : State :=
  let s := ((mapped.fset F.ARC_TARGET_VALID 0 1).wr R.ARC_POINT_LO 0 5).fset F.ARC_MAP_PAGES_PAGES 0 8
  { s.fset F.ARC_MAP_BASE_FRAME 0 64 with pages := { s.pages with t1 := ⟨.free, [(64, .reserved 0 true)]⟩ } }

/-- Partition 0 EMPTY, its seat and its image frame ready. -/
def creatable : State :=
  let s := (((up.wr R.PTC_SEAT_TRIO_0 0 1).fset F.PTC_SEAT_SLOTS_COUNT 0 4).fset F.PTC_SH_FRAMES_FRAMES 0 1).fset F.PTC_SH_BASE_FRAME 0 64
  { s with pages := { s.pages with t1 := ⟨.free, [(64, .reserved 0 true)]⟩ } }

/-- A switch of seat 0 from partition 0 to partition 1, its boundary reached. -/
def switchOf : Switch := ⟨0, 1, some 0, 0, true, false, 0, 0⟩

/-- That switch waiting for partition 0 to be quiet. -/
def switching : State := { mapped with ptc := { mapped.ptc with switches := [switchOf] } }

/-- An error record. -/
def errRec : ErrRec := ⟨0x0402, 0, Page.CDJ, none, 0, false, false, 0, 0, 0, 0, 0, [0, 1], 0⟩

/-- That record waiting, core 1 running. -/
def recorded : State := { up.fset F.MGC_CORE_STAT_STATE 1 1 with eru := { up.eru with queue := [errRec] } }

/-- Every core running, the Kiosk READY. -/
def managed : State := (List.range 4).foldl (fun s c => s.fset F.MGC_CORE_STAT_STATE c 1) (up.fset F.MGC_STAT_KIOSK_STATE 0 2)

/-- A request in mailbox 0. -/
def kiosk (op : Nat) (body : List Byte) : State := managed.setBox 0 ⟨[⟨.window, kskMsg 0 op 1 0 body⟩], [], [], []⟩

/-- The manager of the hall with an endpoint id. -/
def tray : State :=
  let s := (managed.fset F.IDN_STRAP_MGR 0 1).fset F.MGC_MCTP_EID_EID 0 9
  { s with regs := spSet (fun _ => 0) s.regs (regKey R.MGC_MCTP_IANA 0) 5 }

/-- A sideband message of one packet from endpoint 8. -/
def packet (body : List Byte) : List (List Byte) := [leBytes 1 1 ++ leBytes 1 9 ++ leBytes 1 8 ++ leBytes 1 0xC8 ++ body]

/-- A response of two beats waits on channel 0. -/
def answered : State := { up with host := ⟨[⟨0, 0, 1, 0, [⟨0, [1], 0⟩, ⟨0, [1], 0⟩]⟩], [0]⟩ }

/-- A response of one beat waits on channel 0. -/
def answeredOnce : State := { up with host := ⟨[⟨0, 0, 1, 0, [⟨0, [1], 0⟩]⟩], [0]⟩ }

end Sys2Proof.Tests
end

