-- ==== Sys2Proof/Tests/Slice0.lean ====
section
/-! SUPPORT. Tests: ill-formed commands refused, the queue, and the spec's worked cases and tables. The expected value of each
comes from the spec's own words; a docstring says from which. -/

namespace Sys2Proof.Tests

open Sys2Proof Sys2Proof.Machine

set_option Elab.async false

/-! ### Well-formedness: for each check a term it refuses -/

/-- A ring message whose header counts two words and that carries none (R459). -/
theorem test_wf_ring_words : (Instr.ringSeal (BitVec.ofNat 64 (1 * 2 ^ 60 + 2 * 2 ^ 50)) []).wellFormed = false := by decide +kernel

/-- A ring message of another type (R459). -/
theorem test_wf_ring_type : (Instr.ringSeal (BitVec.ofNat 64 (3 * 2 ^ 60)) []).wellFormed = false := by decide +kernel

/-- A transaction whose header is not 32 bytes (R293). -/
theorem test_wf_header : (Instr.fabLoad [0, 0] []).wellFormed = false := by decide +kernel

/-- A message without room for its header and CRC (R74). -/
theorem test_wf_message : (Instr.ack false 0 [1]).wellFormed = false := by decide +kernel

/-- A WRITE without beats (R441). -/
theorem test_wf_beats : (Instr.hostWrite 0 0 []).wellFormed = false := by decide +kernel

/-- An activation of a row the bank has not (R222). -/
theorem test_wf_row : (Instr.bankEntry 0 1 [.act 6161]).wellFormed = false := by decide +kernel

/-- A sector above 31. -/
theorem test_wf_sector : (Instr.bankEntry 0 1 [.rd 32]).wellFormed = false := by decide +kernel

/-- A BANK entry for user 0 (R507). -/
theorem test_wf_user : (Instr.bankEntry 0 0 []).wellFormed = false := by decide +kernel

/-- An access of the test wrapper beyond a row's columns (R467). -/
theorem test_wf_tower : (Instr.towerAccess 0 [.peek 0 2080]).wellFormed = false := by decide +kernel

/-- A sideband packet of more than 68 bytes (R456). -/
theorem test_wf_packet : (Instr.setEndpointId [List.replicate 69 0]).wellFormed = false := by decide +kernel

/-- Readings of one bank twice (R250). -/
theorem test_wf_eyes : (Instr.planSlot 0 [(3, []), (3, [])]).wellFormed = false := by decide +kernel

/-- A fault in a lane above 31 (R183). -/
theorem test_wf_fault : (Instr.streamMm 0 [.arith 0 32 0]).wellFormed = false := by decide +kernel

/-- A consume point whose rows fall (R194). -/
theorem test_wf_lane : (Instr.laneEntry 0 0 1 1 2 1 1).wellFormed = false := by decide +kernel

/-- An UPDATE entry of 257 cycles (R507). -/
theorem test_wf_update : (Instr.updateSlot 0 257).wellFormed = false := by decide +kernel

/-- A start that tests a row twice. -/
theorem test_wf_start : (Instr.warmStart ⟨[], [], [(0, 0, 0), (0, 0, 0)], true, true, none, 0⟩).wellFormed = false := by decide +kernel

/-- A sample without its 32 readings (R245). -/
theorem test_wf_temps : (Instr.tempSample []).wellFormed = false := by decide +kernel

/-- A register address that is no word's (R455). -/
theorem test_wf_word : (Instr.latchedRead .port 2).wellFormed = false := by decide +kernel

/-- A page above the last (R497). -/
theorem test_wf_page : (Instr.lockPage .port 0x1D).wellFormed = false := by decide +kernel

/-- Fifteen credit words for sixteen channels and directions. -/
theorem test_wf_credits : (Instr.linkUp (List.replicate 15 0)).wellFormed = false := by decide +kernel

/-- Commands that stand in the opcode table without operands are well formed. -/
theorem test_wf_plain : (Instr.holdover).wellFormed = true ∧ (Instr.hallStrobe 0 0).wellFormed = true := by decide +kernel

/-! ### The queue -/

/-- The front command runs, on the state with the queue's rest. -/
theorem test_front_runs : step { up with pending := [.holdover, .holdoverEnd] } = exec .holdover { up with pending := [.holdoverEnd] } := rfl

/-- The second command waits. -/
theorem test_rest_waits : (match step { up with pending := [.quotaWindow, .holdover] } with
    | .next t => t.pending
    | _ => []) = [.holdover] := by decide +kernel

/-- An empty queue idles. -/
theorem test_idle : step State.reset = .next State.reset := rfl

/-- No row has bits, so no word spells a command. -/
theorem test_no_words : decodeTableWord 32 0 = none ∧ State.reset.withFetchWord 32 0 = State.reset := ⟨rfl, rfl⟩

/-! ### Reset values that the register map states -/

/-- `IDN_IPVER` is 0x0301_0000 (R3), `IDN_FREQ0` 1700 and 1200 MHz (R494). -/
theorem test_reset_idn : (State.reset.rd R.IDN_IPVER 0, State.reset.fget F.IDN_FREQ0_LCLK, State.reset.fget F.IDN_FREQ0_ECLK)
    = (0x03010000, 1700, 1200) := by decide +kernel

/-- `CDE_GRP_CFG` has aperture offset 0x0_C10C and port word address 0x3043 (the register map's example). -/
theorem test_reg_address : (R.CDE_GRP_CFG, R.CDE_GRP_CFG / 4) = (0xC10C, 0x3043) := by decide +kernel

/-! ### Codes and checks -/

/-- The check value of R468: CRC32C of the nine ASCII digits. -/
theorem test_crc : crc32c [0x31, 0x32, 0x33, 0x34, 0x35, 0x36, 0x37, 0x38, 0x39] = 0xE3069283 := by decide +kernel

/-- Worked case of R60: member 3's block 21 of an 8 + 2 group lies in row 22, parity 0 with member 6. -/
theorem test_row_of_block : (rowOfBlock 10 8 3 21, symOf 10 3 22, symOf 10 6 22, symOf 10 7 22) = (22, 5, 8, 9) := by decide +kernel

/-- The table after R63: the coefficients of the 8 + 2 geometry. -/
theorem test_coefficients : ((List.range 8).map (coef 2 0), (List.range 8).map (coef 2 1))
    = ([0x8E, 0xF4, 0x47, 0xA7, 0x7A, 0xBA, 0xAD, 0x9D], [0xF4, 0x8E, 0xA7, 0x47, 0xBA, 0x7A, 0x9D, 0xAD]) := by decide +kernel

/-- Worked case after R63: one changed byte, at both holders. -/
theorem test_changed_byte : (gfMul 5 0xBA, gfMul 5 0x7A) = (0x68, 0x8F) := by decide +kernel

/-- Worked case after R109: the lost symbol solved from parity 0, and the wrong one with a young change left in. -/
theorem test_decode_byte : (gfMul (gfInv 0xBA) (0x68 ^^^ gfMul 0xAD 0), gfMul (gfInv 0xBA) (0x68 ^^^ gfMul 0xAD 1)) = (5, 0x61) := by
  decide +kernel

/-- The same through the equation solver, with both unknowns named: D5 = 5. -/
theorem test_solve : gfSolve 1 [([0xBA], [0x68])] = [[5]] := by decide +kernel

/-! ### Arithmetic -/

/-- Worked case of R142: the E4M3 copy of 0x3EAA_AAAB by random number, and rounded to nearest. -/
theorem test_sr_copy : ((GenFmt.e4m3.elem 0 (some 0x90000000) (f32 0x3EAAAAAB)).code,
    (GenFmt.e4m3.elem 0 (some 0xC0000000) (f32 0x3EAAAAAB)).code, (GenFmt.e4m3.elem 0 none (f32 0x3EAAAAAB)).code) = (0x2B, 0x2A, 0x2B) := by
  decide +kernel

/-- The same case: the BF16 copy to nearest is 0x3EAB. -/
theorem test_bf16_copy : (GenFmt.bf16.elem 0 none (f32 0x3EAAAAAB)).code = 0x3EAB := by decide +kernel

/-- Worked case of R178, one row: 1.0, 0, 2⁻²⁴, 2⁻²⁴ added in turn give 1.0. -/
theorem test_one_row : f32Add (f32Add (f32Add 0x3F800000 0) 0x33800000) 0x33800000 = 0x3F800000 := by decide +kernel

/-- Worked case of R178: two, three and four rows give 1.0 + 2⁻²³. -/
theorem test_split_rows : (combine 7 [some 0x3F800000, some (f32Add 0x33800000 0x33800000)],
    combine 7 [some 0x3F800000, some 0, some (f32Add 0x33800000 0x33800000)],
    combine 7 [some 0x3F800000, some 0, some 0x33800000, some 0x33800000]) = (some 0x3F800001, some 0x3F800001, some 0x3F800001) := by
  decide +kernel

/-- R177: four steps over three rows are step 0, step 1, and steps 2 and 3. -/
theorem test_row_steps : (List.range 3).map (rowSteps 4 3) = [[0], [1], [2, 3]] := by decide +kernel

/-- Worked case of one column bypassed: at K-width 32 the second 2⁻²⁴ is lost; at 31 both meet in one step. -/
theorem test_bypassed_column :
    (f32Add (stepSum .bf16 32 (List.replicate 32 0x3F80) ((List.range 32).map fun i => if i = 0 then f32 0x3F800000 else if i = 31 then f32 0x33800000 else f32 0))
        (stepSum .bf16 32 (List.replicate 32 0x3F80) ((List.range 32).map fun i => if i = 0 then f32 0x33800000 else f32 0)),
      f32Add (stepSum .bf16 31 (List.replicate 31 0x3F80) ((List.range 31).map fun i => if i = 0 then f32 0x3F800000 else f32 0))
        (stepSum .bf16 31 (List.replicate 31 0x3F80) ((List.range 31).map fun i => if i = 0 ∨ i = 1 then f32 0x33800000 else f32 0)))
      = (0x3F800000, 0x3F800001) := by decide +kernel

/-! ### Budgets -/

/-- Worked case of the refresh budget: 5, 52 and 1 REF per tick at 100, 1000 and 10 µs. -/
theorem test_refresh_budget : (refsNeeded 100, refsNeeded 1000, refsNeeded 10) = (5, 52, 1) := by decide +kernel

/-- Worked case of the governor: above the budget at demand 14 it takes the step to 15, and between B − HYST and B it holds. -/
theorem test_governor : (governed true 400 0 10 404 14, governed true 400 0 10 399 15) = (15, 15) := by decide +kernel

/-- Worked case of pre-emption: seat 1's image is 8,916,992 B and needs 137 frames. -/
theorem test_image_frames : 4096 * 384 + 1572864 + 5767168 + 4096 = 8916992 ∧ ceilDiv 8916992 65536 = 137 := by decide +kernel

/-! ### Commands -/

/-- `HOLDOVER` while running sets the engine's own holdover. -/
theorem test_holdover : (match exec .holdover up with
    | .next t => t.tick.holdover
    | _ => false) = true := by decide +kernel

/-- Held in a cold reset the same command changes nothing (R438). -/
theorem test_held : exec .holdover State.reset = .next State.reset := rfl

/-- A read of an address nothing has written gives zeros (R63). -/
theorem test_reads_zero : (mapped.readRange 2 0 0 4).2.1 = [some 0, some 0, some 0, some 0] := by decide +kernel

/-- A register of a read-only field keeps its value under a register write (R493). -/
theorem test_read_only : (match exec (.registerWrite .port 0 0xFFFFFFFF) up with
    | .next t => t.rd R.IDN_IPVER 0
    | _ => 0) = 0x03010000 := by decide +kernel

end Sys2Proof.Tests
end

