-- ==== Sys2Proof/Tests/Witness.lean ====
section
/-! SUPPORT. For every statement with hypotheses, a concrete state and operands that meet them all. -/

namespace Sys2Proof.Tests

open Sys2Proof Sys2Proof.Machine

set_option Elab.async false

theorem witness_strobe_hall : ∃ (s : State), s.run = .running :=
  ⟨up, by decide +kernel⟩

theorem witness_hallStrobe : ∃ (s : State), s.run = .running ∧ s.tick.synced = false :=
  ⟨up, by decide +kernel⟩

theorem witness_strobe_small : ∃ (time : BitVec 64) (here : BitVec 64) (s : State) (s1 : State) (l : Nat), s1 =
    ({ s with tick := { s.tick with holdover := false, goodStrobes := if s.flag F.TCK_STAT_HOLDOVER then s.tick.goodStrobes + 1 else 0 } }
    : State).passTo here.toNat ∧ l = s1.tick.hall ∧ s.run = .running ∧ s.tick.synced = true ∧ time.toNat ≤ l + 1000 ∧ l ≤ time.toNat
    + 1000 :=
  ⟨900, 500, { up with tick := { up.tick with synced := true } }, _, _, rfl, rfl, by decide +kernel⟩

theorem witness_strobe_forward : ∃ (time : BitVec 64) (here : BitVec 64) (s : State) (s1 : State) (l : Nat), s1 =
    ({ s with tick := { s.tick with holdover := false, goodStrobes := if s.flag F.TCK_STAT_HOLDOVER then s.tick.goodStrobes + 1 else 0 } }
    : State).passTo here.toNat ∧ l = s1.tick.hall ∧ s.run = .running ∧ s.tick.synced = true ∧ l + 1000 < time.toNat :=
  ⟨9000, 500, { up with tick := { up.tick with synced := true } }, _, _, rfl, rfl, by decide +kernel⟩

theorem witness_strobe_backward : ∃ (time : BitVec 64) (here : BitVec 64) (s : State) (s1 : State) (l : Nat), s1 =
    ({ s with tick := { s.tick with holdover := false, goodStrobes := if s.flag F.TCK_STAT_HOLDOVER then s.tick.goodStrobes + 1 else 0 } }
    : State).passTo here.toNat ∧ l = s1.tick.hall ∧ s.run = .running ∧ s.tick.synced = true ∧ time.toNat + 1000 < l :=
  ⟨0, 5000, { up with tick := { up.tick with synced := true } }, _, _, rfl, rfl, by decide +kernel⟩

theorem witness_skipTo : ∃ (s : State) (t : Nat), s.nextBoundary < t ∧ s.ticking = true :=
  ⟨up.fset F.TCK_PERIOD_US 0 10, 5000000, by decide +kernel⟩

theorem witness_skipTo_there : ∃ (s : State) (t : Nat), t ≤ s.nextBoundary :=
  ⟨up, 0, by decide +kernel⟩

theorem witness_tailsMove : ∃ (s : State) (b : Nat), s.tick.lastBoundary = some b :=
  ⟨{ up with tick := { up.tick with lastBoundary := some 700 } }, 700, by decide +kernel⟩

theorem witness_holdover : ∃ (s : State), s.run = .running :=
  ⟨up, by decide +kernel⟩

theorem witness_holdoverTimeout : ∃ (s : State), s.run = .running ∧ s.tick.holdover = true ∧ s.flag F.TCK_STAT_HOLDOVER = false :=
  ⟨{ up with tick := { up.tick with holdover := true } }, by decide +kernel⟩

theorem witness_holdoverEnd : ∃ (s : State), s.run = .running ∧ s.tick.holdover = false ∧ 16 ≤ s.tick.goodStrobes :=
  ⟨{ up with tick := { up.tick with goodStrobes := 16 } }, by decide +kernel⟩

theorem witness_tickBoundary : ∃ (s : State), s.run = .running ∧ s.ticking = true :=
  ⟨up, by decide +kernel⟩

theorem witness_first_release : ∃ (s : State) (b : Nat), s.tick.released = false ∧ b ∈ s.tick.releases :=
  ⟨{ up with tick := { up.tick with releases := [100000] } }, 100000, by decide +kernel⟩

theorem witness_plan_starts : ∃ (s : State) (p : Nat) (y : Plan), p < s.plans.length ∧ Part.state s p = 2 ∧ s.tick.managerLost =
    false ∧ s.tick.released = true ∧ s.fget F.CRG_STAT_MODE = 0 ∧ s.tower.critical = false ∧ s.switchHolds p = false ∧ (s.planState
    p).running = none ∧ (s.planState p).waiting = [] ∧ (s.planState p).inForce = some y :=
  ⟨{ up with tick := { up.tick with released := true }, plans := up.plans.set 0 { PlanState.idle with inForce := some ⟨7, 0, 100, 1000, 4, 0, 0, []⟩ } }.fset
    F.PTC_STAT_STATE 0 2, 0, ⟨7, 0, 100, 1000, 4, 0, 0, []⟩, by decide +kernel⟩

theorem witness_planSlot : ∃ (part : Fin 8) (s : State) (i : Inst), s.Up Page.TCK ∧ (s.planState part.val).running = some i ∧
    s.planeHalted = false ∧ Part.state s part.val ≠ 4 ∧ i.slot < i.plan.slots ∧ s.spanOpen part.val i.slot = false :=
  ⟨0, { up with plans := up.plans.set 0 { PlanState.idle with running := some ⟨⟨7, 0, 100, 1000, 4, 0, 0, []⟩, 3, 0, 0, 1⟩ } }, ⟨⟨7,
    0, 100, 1000, 4, 0, 0, []⟩, 3, 0, 0, 1⟩, by decide +kernel⟩

theorem witness_planSlot_over : ∃ (part : Fin 8) (s : State) (i : Inst) (hs : List (Nat × Nat × Nat)) (n : Nat), hs = (s.planState
    part.val).holds i.slot ∧ n = (if s.laneOver part.val i.slot = true then 256 else min 256 ((hs.map (·.2.1)).foldl max 0)) ∧ s.Up
    Page.TCK ∧ (s.planState part.val).running = some i ∧ s.planeHalted = false ∧ Part.state s part.val ≠ 4 ∧ (s.laneOver part.val
    i.slot = true ∨ hs ≠ []) :=
  ⟨0,
    { up with lane := { up.lane with jobs := [LaneJob.taken 0 0 0 0 1 0 [] 1 1 3 7] }, plans := up.plans.set 0 { PlanState.idle with running := some ⟨⟨7, 0, 100, 1000, 4, 0, 0, []⟩, 3, 0, 0, 1⟩ } },
    ⟨⟨7, 0, 100, 1000, 4, 0, 0, []⟩, 3, 0, 0, 1⟩, _, _, rfl, rfl, by decide +kernel⟩

theorem witness_planRetire : ∃ (part : Fin 8) (time : BitVec 64) (s : State) (i : Inst), s.Up Page.TCK ∧ time.toNat ≤ s.tick.hall ∧
    (s.planState part.val).running = some i ∧ s.planeHalted = false ∧ Part.state s part.val ≠ 4 ∧ i.plan.slots ≤ i.slot ∧ s.spanOpen
    part.val i.plan.slots = false :=
  ⟨0, 0, { up with plans := up.plans.set 0 { PlanState.idle with running := some ⟨⟨7, 0, 100, 1000, 4, 0, 0, []⟩, 3, 0, 0, 4⟩ } },
    ⟨⟨7, 0, 100, 1000, 4, 0, 0, []⟩, 3, 0, 0, 4⟩, by decide +kernel⟩

theorem witness_feedEntry : ∃ (part : Fin 8) (s : State) (i : Inst), s.Up Page.LNF ∧ (s.planState part.val).running = some i ∧
    s.planeHalted = false :=
  ⟨0, { up with plans := up.plans.set 0 { PlanState.idle with running := some ⟨⟨7, 0, 100, 1000, 4, 0, 0, []⟩, 3, 0, 0, 1⟩ } }, ⟨⟨7,
    0, 100, 1000, 4, 0, 0, []⟩, 3, 0, 0, 1⟩, by decide +kernel⟩

theorem witness_feedEntry_idle : ∃ (part : Fin 8) (s : State), s.Up Page.LNF ∧ ((s.planState part.val).running = none ∨
    s.planeHalted = true) :=
  ⟨0, up, by decide +kernel⟩

theorem witness_laneEntry : ∃ (part : Fin 8) (queue : Fin 16) (first : Fin 256) (last : Fin 256) (s : State) (rows : List Nat), rows
    = (List.range (last.val + 1 - first.val)).flatMap (fun i => [3 * (first.val + i), 3 * (first.val + i) + 1, 3 * (first.val + i) +
    2]) ∧ s.Up Page.LNP ∧ Part.state s part.val = 2 ∧ s.planeHalted = false ∧ s.fget (QKind.head .lane) queue.val ≠ s.fget
    (QKind.tail .lane) queue.val ∧ s.laneHeld part.val queue.val rows = false ∧ s.qPart .lane queue.val = part.val ∧ s.flag
    (QKind.enable .lane) queue.val = true ∧ s.fget (QKind.head .lane) queue.val ≠ s.seenTail queue.val ∧ s.qFull .lane queue.val =
    false :=
  ⟨0, 0, 0, 0, (({ up with tick := { up.tick with hall := 1000000 }, lane := { up.lane with tails := [(0, [(0, 3)])] } }.fset
    (QKind.enable .lane) 0 1).fset (QKind.tail .lane) 0 3).fset F.PTC_STAT_STATE 0 2, _, rfl, by decide +kernel⟩

theorem witness_updateSlot : ∃ (part : Fin 8) (s : State) (x : Pass), s.Up Page.UPD ∧ s.planeHalted = false ∧ s.passOn part.val =
    some x :=
  ⟨0, passing 1 1, ⟨0, 1, 0, [], 0, some (descOf 1 1), 0, [], 0, [], [], [], false, [], []⟩, by decide +kernel⟩

theorem witness_updateSlot_idle : ∃ (part : Fin 8) (s : State), s.Up Page.UPD ∧ Part.state s part.val ≠ 2 :=
  ⟨0, up, by decide +kernel⟩

theorem witness_bank_act : ∃ (s : State) (bank : Fin 512) (user : Fin 5) (r : Nat), s.run = .running ∧ user ≠ 0 ∧
    s.tower.selfRefresh = false ∧ (s.bank bank.val).openRow = none ∧ r < 6144 :=
  ⟨up, 0, (1 : Fin 5), 5, by decide +kernel⟩

theorem witness_bank_rd : ∃ (s : State) (bank : Fin 512) (user : Fin 5) (r : Nat) (x : Nat), s.run = .running ∧ user ≠ 0 ∧
    s.tower.selfRefresh = false ∧ (s.bank bank.val).openRow = some r ∧ x < 32 ∧ r < 6144 :=
  ⟨up.setBank 0 ⟨some 5, 0, false⟩, 0, (1 : Fin 5), 5, 3, by decide +kernel⟩

theorem witness_bank_pre : ∃ (s : State) (bank : Fin 512) (user : Fin 5) (r : Nat), s.run = .running ∧ user ≠ 0 ∧
    s.tower.selfRefresh = false ∧ (s.bank bank.val).openRow = some r :=
  ⟨up.setBank 0 ⟨some 5, 0, false⟩, 0, (1 : Fin 5), 5, by decide +kernel⟩

theorem witness_bank_rd_9 : ∃ (s : State) (bank : Fin 512) (user : Fin 5) (r : Nat) (x : Nat), s.run = .running ∧ user ≠ 0 ∧
    s.tower.selfRefresh = false ∧ (s.bank bank.val).openRow = some r ∧ x < 32 ∧ r < 6144 :=
  ⟨up.setBank 0 ⟨some 5, 0, false⟩, 0, (1 : Fin 5), 5, 3, by decide +kernel⟩

theorem witness_bank_ref : ∃ (s : State) (user : Fin 5), s.run = .running ∧ user ≠ 0 ∧ s.tower.selfRefresh = false :=
  ⟨up, 1, by decide +kernel⟩

theorem witness_writeAdmit : ∃ (s : State), s.run = .running :=
  ⟨up, by decide +kernel⟩

theorem witness_refreshEntry : ∃ (s : State), s.run = .running ∧ s.planeHalted = false ∧ s.flag F.TWC_REF_CTRL_HALF = false :=
  ⟨(up.fset F.TWC_REF_CTRL_HALF 0 0), by decide +kernel⟩

theorem witness_refreshEntry_13 : ∃ (s : State), s.tower.selfRefresh = false :=
  ⟨(up.fset F.TWC_REF_CTRL_HALF 0 0), by decide +kernel⟩

theorem witness_refresh_skipped : ∃ (bank : Fin 512) (s : State), s.run = .running ∧ s.planeHalted = false ∧ s.flag
    F.TWC_REF_CTRL_HALF = true ∧ (s.bank bank.val).skipNext = true :=
  ⟨0, (up.setBank 0 ⟨none, 0, true⟩).fset F.TWC_REF_CTRL_HALF 0 1, by decide +kernel⟩

theorem witness_timeCommit : ∃ (path : Path) (s : State), s.pathMay path R.TCK_CTRL = true ∧ s.Up Page.TCK ∧ s.tick.hall + 2000 ≤
    s.tick.stEpoch ∧ s.tick.commit = none ∧ (s.tick.committed = false ∨ s.tick.epoch ≤ s.tick.stEpoch ∧ (s.tick.stEpoch -
    s.tick.epoch) % max 1 s.periodNs = 0 ∧ s.tick.base + (s.tick.stEpoch - s.tick.epoch) / max 1 s.periodNs - 1 < s.tick.stBase) :=
  ⟨.port, { up with tick := { up.tick with stEpoch := 2000 } }, by decide +kernel⟩

theorem witness_cancel_none : ∃ (s : State) (e : Nat), (∀ h ∈ s.tick.armed, h < e) :=
  ⟨{ up with tick := { up.tick with armed := [5] } }, 9, by decide +kernel⟩

theorem witness_cancel_armed : ∃ (s : State) (e : Nat) (h : Nat), s.tick.armed = [h] ∧ e ≤ h :=
  ⟨{ up with tick := { up.tick with armed := [9] } }, 9, 9, by decide +kernel⟩

theorem witness_timeCommit_pending : ∃ (path : Path) (s : State), s.pathMay path R.TCK_CTRL = true ∧ s.Up Page.TCK ∧
    (s.tick.commit.isSome = true ∨ s.tick.stEpoch < s.tick.hall + 2000 ∨ (s.tick.committed = true ∧ (s.tick.stEpoch < s.tick.epoch ∨
    (s.tick.stEpoch - s.tick.epoch) % max 1 s.periodNs ≠ 0 ∨ s.tick.stBase ≤ s.tick.base + (s.tick.stEpoch - s.tick.epoch) / max 1
    s.periodNs - 1))) :=
  ⟨.port, { up with tick := { up.tick with commit := some (100, 5000, 9) } }, by decide +kernel⟩

theorem witness_timeEpoch : ∃ (s : State) (us : Nat) (e : Nat) (base : Nat), s.run = .running ∧ s.tick.commit = some (us, e, base) ∧
    e ≤ s.nextBoundary ∧ e ≤ s.tick.hall :=
  ⟨{ up with tick := { up.tick with commit := some (100, 0, 9) } }, 100, 0, 9, by decide +kernel⟩

theorem witness_epoch_drops : ∃ (s : State) (us : Nat) (p : Nat) (y : Plan) (h : Nat), p < s.plans.length ∧ (s.planState p).accepted
    = some (y, h) ∧ y.period ≠ us :=
  ⟨{ up with plans := up.plans.set 0 { PlanState.idle with accepted := some (⟨7, 0, 100, 1000, 4, 0, 0, []⟩, 0) } }, 200, 0, ⟨7, 0,
    100, 1000, 4, 0, 0, []⟩, 0, by decide +kernel⟩

theorem witness_planCommit : ∃ (path : Path) (part : Fin 8) (s : State), s.pathMay path R.TCK_PLAN_COMMIT = true ∧ s.Up Page.TCK ∧
    (s.planState part.val).locked = false :=
  ⟨.port, 0, up, by decide +kernel⟩

theorem witness_planCommit_locked : ∃ (path : Path) (part : Fin 8) (s : State), s.pathMay path R.TCK_PLAN_COMMIT = true ∧ s.Up
    Page.TCK ∧ (s.planState part.val).locked = true :=
  ⟨.port, 0, planned, by decide +kernel⟩

theorem witness_planCheckDone : ∃ (part : Fin 8) (s : State) (c : PlanCheck) (y : Plan), s.run = .running ∧ (s.planState
    part.val).check = some c ∧ c.cancelled = false ∧ planOf (s.planImage part.val (s.planState part.val).nextBlk) = some y ∧
    s.planReason part.val (some y) = 0 :=
  ⟨0, planned, ⟨0, false⟩, ⟨7, 0, 100, up.fget F.IDN_FREQ0_LCLK, 4, 32, 1, []⟩, by decide +kernel⟩

theorem witness_planCheck_refused : ∃ (part : Fin 8) (s : State) (c : PlanCheck), s.run = .running ∧ (s.planState part.val).check =
    some c ∧ s.planReason part.val (planOf (s.planImage part.val (s.planState part.val).nextBlk)) ≠ 0 :=
  ⟨0, { up with plans := up.plans.set 0 { PlanState.idle with check := some ⟨0, false⟩ } }, ⟨0, false⟩, by decide +kernel⟩

theorem witness_planCancel : ∃ (path : Path) (part : Fin 8) (s : State), s.pathMay path R.TCK_PLAN_CANCEL = true ∧ s.Up Page.TCK ∧
    (s.planState part.val).check = none ∧ (s.swapsAt (s.planState part.val) s.nextBoundary = false ∨ s.slotAfter s.tick.hall
    s.nextBoundary = true) :=
  ⟨.port, 0, up, by decide +kernel⟩

theorem witness_planCancel_check : ∃ (path : Path) (part : Fin 8) (s : State) (c : PlanCheck), s.pathMay path R.TCK_PLAN_CANCEL =
    true ∧ s.Up Page.TCK ∧ (s.planState part.val).check = some c :=
  ⟨.port, 0, planned, ⟨0, false⟩, by decide +kernel⟩

theorem witness_planData_read : ∃ (s : State), s.Up Page.TCK :=
  ⟨up, by decide +kernel⟩

theorem witness_planDataAccess : ∃ (path : Path) (s : State), s.pathMay path R.TCK_PLAN_DATA = true ∧ s.Up Page.TCK ∧ (s.planState
    (s.planWord path).1).locked = false :=
  ⟨.port, up, by decide +kernel⟩

theorem witness_planData_locked : ∃ (path : Path) (s : State), s.pathMay path R.TCK_PLAN_DATA = true ∧ s.Up Page.TCK ∧ (s.planState
    (s.planWord path).1).locked = true :=
  ⟨.port, planned, by decide +kernel⟩

theorem witness_barrierArm : ∃ (path : Path) (hi : Word) (s : State) (b : Nat), b = (s.wr R.TCK_BARRIER_HI 0 hi.toNat).rd64
    R.TCK_BARRIER_LO ∧ s.pathMay path R.TCK_BARRIER_HI = true ∧ s.Up Page.TCK ∧ s.isMgr = true ∧ s.tick.released = false ∧
    s.eru.checkFailed = false ∧ (s.wr R.TCK_BARRIER_HI 0 hi.toNat).flag F.TCK_STAT_HOLDOVER = false ∧ (s.wr R.TCK_BARRIER_HI 0
    hi.toNat).fget F.CRG_STAT_MODE ≠ 2 ∧ (s.wr R.TCK_BARRIER_HI 0 hi.toNat).isBoundary b = true ∧ s.tick.hall + 2000 ≤ b :=
  ⟨.port, 0, ((up.fset F.IDN_STRAP_MGR 0 1).wr R.TCK_BARRIER_LO 0 100000), _, rfl, by decide +kernel⟩

theorem witness_ringRelease : ∃ (hdr : BitVec 64) (payload : List (BitVec 64)) (s : State), s.run = .running ∧ bits hdr.toNat 60 4 =
    3 ∧ bits hdr.toNat 50 2 = payload.length ∧ bits hdr.toNat 56 4 ≠ s.ownInst ∧ (bit hdr.toNat 49 = true ∨ bits hdr.toNat 52 4 =
    s.ownInst) ∧ s.isMgr = false ∧ payload.length = 1 ∧ bit hdr.toNat 0 = false ∧ (∀ l, s.tick.lastBoundary = some l → l < word0
    payload) :=
  ⟨BitVec.ofNat 64 (3 * 2 ^ 60 + 5 * 2 ^ 56 + 2 ^ 49 + 1 * 2 ^ 50 + 0), [100000], up, by decide +kernel⟩

theorem witness_release_cancel : ∃ (hdr : BitVec 64) (payload : List (BitVec 64)) (s : State), s.run = .running ∧ bits hdr.toNat 60
    4 = 3 ∧ bits hdr.toNat 50 2 = payload.length ∧ bits hdr.toNat 56 4 ≠ s.ownInst ∧ (bit hdr.toNat 49 = true ∨ bits hdr.toNat 52 4
    = s.ownInst) ∧ s.isMgr = false ∧ payload.length = 1 ∧ bit hdr.toNat 0 = true :=
  ⟨BitVec.ofNat 64 (3 * 2 ^ 60 + 5 * 2 ^ 56 + 2 ^ 49 + 1 * 2 ^ 50 + 1), [100000],
    { up with tick := { up.tick with releases := [100000] } }, by decide +kernel⟩

theorem witness_releaseTimeout : ∃ (s : State) (b : Nat × Nat), s.run = .running ∧ s.isMgr = false ∧ s.tick.released = true ∧
    s.tick.managerLost = false ∧ b ∈ s.tick.unreleased ∧ b.2 + 4 * s.periodNs ≤ s.tick.hall :=
  ⟨{ up with tick := { up.tick with released := true, hall := 900000, unreleased := [(1, 100000)] } }, ((1, 100000) : Nat × Nat),
    by decide +kernel⟩

theorem witness_ringSeal : ∃ (hdr : BitVec 64) (payload : List (BitVec 64)) (s : State), s.run = .running ∧ bits hdr.toNat 60 4 = 1
    ∧ bits hdr.toNat 50 2 = payload.length ∧ bits hdr.toNat 56 4 ≠ s.ownInst ∧ (bit hdr.toNat 49 = true ∨ bits hdr.toNat 52 4 =
    s.ownInst) ∧ s.isMgr = true ∧ s.eru.checkFailed = false ∧ payload.length = 1 :=
  ⟨BitVec.ofNat 64 (1 * 2 ^ 60 + 5 * 2 ^ 56 + 2 ^ 49 + 1 * 2 ^ 50 + 0), [7], (up.fset F.IDN_STRAP_MGR 0 1), by decide +kernel⟩

theorem witness_ringArrival : ∃ (hdr : BitVec 64) (payload : List (BitVec 64)) (s : State), s.run = .running ∧ bits hdr.toNat 60 4 =
    2 ∧ bits hdr.toNat 50 2 = payload.length ∧ bits hdr.toNat 56 4 ≠ s.ownInst ∧ (bit hdr.toNat 49 = true ∨ bits hdr.toNat 52 4 =
    s.ownInst) ∧ s.isMgr = true ∧ s.eru.checkFailed = false ∧ payload.length = 1 ∧ s.tick.arrTick < word0 payload :=
  ⟨BitVec.ofNat 64 (2 * 2 ^ 60 + 5 * 2 ^ 56 + 2 ^ 49 + 1 * 2 ^ 50 + 0), [7], (up.fset F.IDN_STRAP_MGR 0 1), by decide +kernel⟩

theorem witness_ringCounter : ∃ (hdr : BitVec 64) (payload : List (BitVec 64)) (s : State), s.run = .running ∧ bits hdr.toNat 60 4 =
    4 ∧ bits hdr.toNat 50 2 = payload.length ∧ bits hdr.toNat 56 4 ≠ s.ownInst ∧ (bit hdr.toNat 49 = true ∨ bits hdr.toNat 52 4 =
    s.ownInst) ∧ bits hdr.toNat 0 2 ≠ 0 ∧ payload.length = 1 :=
  ⟨BitVec.ofNat 64 (4 * 2 ^ 60 + 5 * 2 ^ 56 + 2 ^ 49 + 1 * 2 ^ 50 + 1), [7], up, by decide +kernel⟩

theorem witness_ringRelay : ∃ (hdr : BitVec 64) (payload : List (BitVec 64)) (s : State) (key : Nat), key = 4 * bits hdr.toNat 56 4
    + bits hdr.toNat 7 2 ∧ s.run = .running ∧ bits hdr.toNat 60 4 = 5 ∧ bits hdr.toNat 50 2 = payload.length ∧ bits hdr.toNat 56 4 ≠
    s.ownInst ∧ (bit hdr.toNat 49 = true ∨ bits hdr.toNat 52 4 = s.ownInst) ∧ 1 ≤ bits hdr.toNat 0 5 ∧ bits hdr.toNat 0 5 ≤ 16 ∧
    ceilDiv (bits hdr.toNat 0 5) 8 = payload.length ∧ bit hdr.toNat 6 = false :=
  ⟨BitVec.ofNat 64 (5 * 2 ^ 60 + 5 * 2 ^ 56 + 2 ^ 49 + 1 * 2 ^ 50 + 8 + 32), [7], up, _, rfl, by decide +kernel⟩

theorem witness_ringCheck : ∃ (hdr : BitVec 64) (payload : List (BitVec 64)) (s : State), s.run = .running ∧ bits hdr.toNat 60 4 = 6
    ∧ bits hdr.toNat 50 2 = payload.length ∧ bits hdr.toNat 56 4 ≠ s.ownInst ∧ (bit hdr.toNat 49 = true ∨ bits hdr.toNat 52 4 =
    s.ownInst) ∧ (s.tick.checks.any fun c => c.1 == bits hdr.toNat 56 4) = false ∧ bits (bits hdr.toNat 0 49) 1 4 ≠ s.ownInst ∧ bit
    (bits hdr.toNat 0 49) 0 = false ∧ s.tick.checks.countP (·.2) ≤ 1 :=
  ⟨BitVec.ofNat 64 (6 * 2 ^ 60 + 5 * 2 ^ 56 + 2 ^ 49 + 0 * 2 ^ 50 + 10), [], up, by decide +kernel⟩

theorem witness_checkTimeout : ∃ (s : State), s.run = .running ∧ ((s.tick.checks.any fun c => c.1 == s.ownInst) = false ∨ s.mgrInst
    = none) ∧ s.eru.checkFailed = false :=
  ⟨up, by decide +kernel⟩

theorem witness_hostWrite : ∃ (ch : Fin 4) (hdr : BitVec 128) (beats : List (List Byte × List Bool)) (s : State) (s1 : State) (a :
    Access), a = ⟨1, .hostWrite ch.val hdr, hdPart hdr, if hdForm hdr = 1 then some (hdSeq hdr) else none, hdAddr hdr, 0,
    (writeBytes hdr beats).map some, s.coding.nextAcc⟩ ∧ s1 =
    ({ s with host := { s.host with busy := s.host.busy ++ [ch.val * 4096 + hdTag hdr] } } : State).active 2 (hostHalves hdr).length
    ∧ s.Up Page.XLT ∧ s.hostOutstanding ch.val < 512 ∧ s.host.busy.contains (ch.val * 4096 + hdTag hdr) = false ∧ (hdrOk hdr 2 &&
    beatsOk hdr beats) = true ∧ (s.coding.stalled.any (·.blocks a)) = false ∧ (s1.tryAccess a).2 = .status 0 :=
  ⟨0, BitVec.ofNat 128 (2 + 256 * 16 + 3 * 2 ^ 64 + 9 * 2 ^ 72), [(List.replicate 128 7, (List.range 128).map fun i => decide (16 ≤
    i) && decide (i < 20))], mapped, _, _, rfl, rfl, by decide +kernel⟩

theorem witness_hostRead : ∃ (ch : Fin 4) (hdr : BitVec 128) (s : State) (s1 : State) (a : Access) (bs : List (Option Byte)), a =
    ⟨1, .hostRead ch.val hdr, hdPart hdr, if hdForm hdr = 1 then some (hdSeq hdr) else none, hdAddr hdr, hdLen hdr, [],
    s.coding.nextAcc⟩ ∧ s1 = { s with host := { s.host with busy := s.host.busy ++ [ch.val * 4096 + hdTag hdr] } } ∧ s.Up Page.XLT ∧
    s.hostOutstanding ch.val < 512 ∧ s.host.busy.contains (ch.val * 4096 + hdTag hdr) = false ∧ hdrOk hdr 1 = true ∧
    (s.coding.stalled.any (·.blocks a)) = false ∧ (s1.tryAccess a).2 = .data bs :=
  ⟨0, BitVec.ofNat 128 (1 + 256 * 16 + 3 * 2 ^ 64 + 9 * 2 ^ 72), mapped, _, _, List.replicate 4 (some 0), rfl, rfl,
    by decide +kernel⟩

theorem witness_hostRead_malformed : ∃ (ch : Fin 4) (hdr : BitVec 128) (s : State), s.Up Page.XLT ∧ s.hostOutstanding ch.val < 512 ∧
    hdrOk hdr 1 = false :=
  ⟨0, 0, up, by decide +kernel⟩

theorem witness_hostRead_reused : ∃ (ch : Fin 4) (hdr : BitVec 128) (s : State), s.Up Page.XLT ∧ s.hostOutstanding ch.val < 512 ∧
    s.host.busy.contains (ch.val * 4096 + hdTag hdr) = true ∧ hdrOk hdr 1 = true :=
  ⟨0, BitVec.ofNat 128 (1 + 256 * 16 + 3 * 2 ^ 64 + 9 * 2 ^ 72),
    { mapped with host := ⟨[], [hdTag (BitVec.ofNat 128 (1 + 256 * 16 + 3 * 2 ^ 64 + 9 * 2 ^ 72))]⟩ }, by decide +kernel⟩

theorem witness_hostWrite_malformed : ∃ (ch : Fin 4) (hdr : BitVec 128) (beats : List (List Byte × List Bool)) (s : State), s.Up
    Page.XLT ∧ s.hostOutstanding ch.val < 512 ∧ ((hdrOk hdr 2 && beatsOk hdr beats) = false ∨ s.host.busy.contains (ch.val * 4096 +
    hdTag hdr) = true) :=
  ⟨0, 0, [], up, by decide +kernel⟩

theorem witness_retry_none : ∃ (s : State), s.Up Page.XLT :=
  ⟨up, by decide +kernel⟩

theorem witness_retry_blocked : ∃ (s : State) (a : Access), (s.coding.stalled.takeWhile (· != a)).any (·.blocks a) = true :=
  ⟨{ up with coding := { up.coding with stalled := [⟨1, .hostRead 0 0, 0, none, 0, 64, [], 0⟩, ⟨1, .hostRead 0 1, 0, none, 0, 64, [], 0⟩] } },
    ⟨1, .hostRead 0 1, 0, none, 0, 64, [], 0⟩, by decide +kernel⟩

theorem witness_retry_waits : ∃ (s : State) (a : Access), (s.coding.stalled.takeWhile (· != a)).any (·.blocks a) = false ∧
    (s.tryAccess a).2 = .wait :=
  ⟨{ up with tower := { up.tower with selfRefresh := true } }, ⟨1, .hostRead 0 0, 0, none, 0, 64, [], 0⟩, by decide +kernel⟩

theorem witness_retry_done : ∃ (s : State) (s1 : State) (a : Access), s1 = (s.tryAccess a).1 ∧ (s.coding.stalled.takeWhile (· !=
    a)).any (·.blocks a) = false ∧ (s.tryAccess a).2 ≠ .wait :=
  ⟨mapped, _, ⟨1, .hostRead 0 0, 0, none, 0, 64, [], 0⟩, rfl, by decide +kernel⟩

theorem witness_accDone_write : ∃ (a : Access) (ch : Nat) (hdr : BitVec 128), a.use = .hostWrite ch hdr :=
  ⟨⟨1, .hostWrite 0 0, 0, none, 0, 0, [], 0⟩, 0, 0, by decide +kernel⟩

theorem witness_deltaSend : ∃ (entry : Nat) (s : State) (d : Delta), s.run = .running ∧ s.coding.open_[entry]? = some d ∧ s.flag
    F.CDR_CMD_STAT_AWAIT_START d.slot = false :=
  ⟨0,
    { grp with coding := { grp.coding with open_ := [⟨0, 0, 0, 1, 0, 1, [(0, List.replicate 64 1)], [⟨2, 0, none, false, false, false⟩]⟩] } },
    ⟨0, 0, 0, 1, 0, 1, [(0, List.replicate 64 1)], [⟨2, 0, none, false, false, false⟩]⟩, by decide +kernel⟩

theorem witness_ackSend : ∃ (slot : Fin 16) (member : Fin 32) (s : State), s.run = .running ∧ Grp.state s slot.val ≠ 0 ∧ 0 <
    (s.rxGet slot.val member.val).since :=
  ⟨0, 1, grp.rxSet ⟨0, 1, 4, [], [], 2⟩, by decide +kernel⟩

theorem witness_ack : ∃ (gate : Bool) (src : BitVec 20) (msg : List Byte) (s : State) (s1 : State) (g : Nat), gate = false ∧ s1 =
    s.msgIn 1 true gate src.toNat msg ∧ s.Up Page.FBP ∧ s.rxCredits 1 true ≠ 0 ∧ ¬ 262143 < src.toNat ∧ (s1.msgSlot src.toNat msg 2
    5).2 = some g ∧ fieldLE msg 4 1 = Grp.own s1 g :=
  ⟨_, 1, grpMsg 2 0 1 4 0, grp, _, 0, rfl, rfl, by decide +kernel⟩

theorem witness_nak : ∃ (gate : Bool) (src : BitVec 20) (msg : List Byte) (s : State) (s1 : State) (g : Nat), gate = false ∧ s1 =
    s.msgIn 1 true gate src.toNat msg ∧ s.Up Page.FBP ∧ s.rxCredits 1 true ≠ 0 ∧ ¬ 262143 < src.toNat ∧ (s1.msgSlot src.toNat msg 3
    5).2 = some g ∧ fieldLE msg 4 1 = Grp.own s1 g :=
  ⟨_, 1, grpMsg 3 0 1 4 0, grp, _, 0, rfl, rfl, by decide +kernel⟩

theorem witness_resend : ∃ (entry : Nat) (s : State) (d : Delta), s.run = .running ∧ s.coding.open_[entry]? = some d :=
  ⟨0, { grp with coding := { grp.coding with open_ := [⟨0, 0, 0, 1, 0, 1, [], []⟩] } }, ⟨0, 0, 0, 1, 0, 1, [], []⟩,
    by decide +kernel⟩

theorem witness_resend_repair : ∃ (entry : Nat) (holder : Fin 32) (s : State) (x : RepairRec), s.run = .running ∧
    s.coding.open_[entry]? = none ∧ firstRepair ≤ entry ∧ s.coding.repairs[entry - firstRepair]? = some x ∧ x.role = holder.val :=
  ⟨2048, 1, { grp with coding := { grp.coding with repairs := [⟨0, 1, 0, 0, 0, 0, 0, 0, []⟩] } }, ⟨0, 1, 0, 0, 0, 0, 0, 0, []⟩,
    by decide +kernel⟩

theorem witness_resend_one : ∃ (s : State) (d : Delta) (a : Ack) (q : Nat), a.seq = some q ∧ a.acked = false ∧ a.reseed = false ∧
    Grp.lost s d.slot a.role = false :=
  ⟨up, ⟨0, 0, 0, 1, 0, 1, [], []⟩, ⟨2, 0, some 1, false, false, false⟩, 1, by decide +kernel⟩

theorem witness_ackTimeout : ∃ (entry : Nat) (holder : Fin 32) (s : State) (d : Delta), s.run = .running ∧ s.coding.open_[entry]? =
    some d ∧ (d.acks.any fun a => a.role == holder.val && a.seq.isSome && !a.acked) = true ∧ Grp.lost s d.slot holder.val = false :=
  ⟨0, 2, { grp with coding := { grp.coding with open_ := [⟨0, 0, 0, 1, 0, 1, [], [⟨2, 0, some 1, false, false, false⟩]⟩] } }, ⟨0, 0,
    0, 1, 0, 1, [], [⟨2, 0, some 1, false, false, false⟩]⟩, by decide +kernel⟩

theorem witness_memberSeal : ∃ (gate : Bool) (src : BitVec 20) (msg : List Byte) (s : State) (s1 : State) (g : Nat), gate = false ∧
    s1 = s.msgIn 1 false gate src.toNat msg ∧ s.Up Page.FBP ∧ s.rxCredits 1 false ≠ 0 ∧ ¬ 262143 < src.toNat ∧ (s1.msgSlot src.toNat
    msg 4 4).2 = some g ∧ Grp.acting s1 g = Grp.own s1 g :=
  ⟨_, 1, grpMsg 4 1 0 0 9, grp, _, 0, rfl, rfl, by decide +kernel⟩

theorem witness_groupSeal : ∃ (gate : Bool) (src : BitVec 20) (msg : List Byte) (s : State) (s1 : State) (g : Nat), gate = false ∧
    s1 = s.msgIn 1 false gate src.toNat msg ∧ s.Up Page.FBP ∧ s.rxCredits 1 false ≠ 0 ∧ ¬ 262143 < src.toNat ∧ (s1.msgSlot src.toNat
    msg 5 4).2 = some g ∧ fieldLE msg 4 1 = Grp.acting s1 g ∧ s1.rd64 R.CDE_GRP_SEAL_LO g < fieldLE msg 16 8 :=
  ⟨_, 1, grpMsg 5 1 0 0 9, (grp.fset F.CDE_GRP_CFG_MGR_ROLE 0 1), _, 0, rfl, rfl, by decide +kernel⟩

theorem witness_install_refused : ∃ (path : Path) (s : State) (g : Nat), g = s.sel path F.CDE_GRP_SEL_SLOT ∧ s.pathMay path
    R.CDE_GRP_CMD = true ∧ s.Up Page.CDE ∧ s.installReason g ≠ 0 :=
  ⟨.port, up, _, rfl, by decide +kernel⟩

theorem witness_installGroup : ∃ (path : Path) (s : State) (g : Nat) (s1 : State), g = s.sel path F.CDE_GRP_SEL_SLOT ∧ s1 = ((s.fset
    F.CDE_GRP_STAT_REASON g 0).slotFresh g).fset F.CDR_LOST_ROLES g 0 ∧ s.pathMay path R.CDE_GRP_CMD = true ∧ s.Up Page.CDE ∧
    s.installReason g = 0 ∧ s1.flag F.CDR_CTRL_REBUILD_ON_INSTALL = false ∧ s1.flag F.CDE_GRP_CFG_ZERO g = false :=
  ⟨.port, grpFree, _, _, rfl, rfl, by decide +kernel⟩

theorem witness_install_zero : ∃ (path : Path) (s : State) (g : Nat) (s1 : State), g = s.sel path F.CDE_GRP_SEL_SLOT ∧ s1 = ((s.fset
    F.CDE_GRP_STAT_REASON g 0).slotFresh g).fset F.CDR_LOST_ROLES g 0 ∧ s.pathMay path R.CDE_GRP_CMD = true ∧ s.Up Page.CDE ∧
    s.installReason g = 0 ∧ s1.flag F.CDR_CTRL_REBUILD_ON_INSTALL = false ∧ s1.flag F.CDE_GRP_CFG_ZERO g = true :=
  ⟨.port, grpFree.fset F.CDE_GRP_CFG_ZERO 0 1, _, _, rfl, rfl, by decide +kernel⟩

theorem witness_install_rebuild : ∃ (path : Path) (s : State) (g : Nat) (s1 : State), g = s.sel path F.CDE_GRP_SEL_SLOT ∧ s1 =
    ((s.fset F.CDE_GRP_STAT_REASON g 0).slotFresh g).fset F.CDR_LOST_ROLES g 0 ∧ s.pathMay path R.CDE_GRP_CMD = true ∧ s.Up Page.CDE
    ∧ s.installReason g = 0 ∧ s1.flag F.CDR_CTRL_REBUILD_ON_INSTALL = true :=
  ⟨.port, grpFree.set1 F.CDR_CTRL_REBUILD_ON_INSTALL, _, _, rfl, rfl, by decide +kernel⟩

theorem witness_zeroFillDone : ∃ (slot : Fin 16) (s : State), s.run = .running ∧ alGet s.coding.busy slot.val = some .zeroFill :=
  ⟨0, grp.setBusy 0 .zeroFill, by decide +kernel⟩

theorem witness_tagCheckDone : ∃ (slot : Fin 16) (s : State), s.run = .running ∧ alGet s.coding.busy slot.val = some .tagCheck :=
  ⟨0, grp.setBusy 0 .tagCheck, by decide +kernel⟩

theorem witness_drainSlot : ∃ (path : Path) (s : State) (g : Nat), g = s.sel path F.CDE_GRP_SEL_SLOT ∧ s.pathMay path R.CDE_GRP_CMD
    = true ∧ s.Up Page.CDE ∧ Grp.state s g = 1 :=
  ⟨.port, grp, _, rfl, by decide +kernel⟩

theorem witness_resume : ∃ (path : Path) (s : State) (g : Nat), g = s.sel path F.CDE_GRP_SEL_SLOT ∧ s.pathMay path R.CDE_GRP_CMD =
    true ∧ s.Up Page.CDE ∧ Grp.state s g = 3 :=
  ⟨.port, (grp.fset F.CDE_GRP_STAT_STATE 0 3), _, rfl, by decide +kernel⟩

theorem witness_dissolve : ∃ (path : Path) (s : State) (g : Nat), g = s.sel path F.CDE_GRP_SEL_SLOT ∧ s.pathMay path R.CDE_GRP_CMD =
    true ∧ s.Up Page.CDE ∧ s.coding.stalled = [] ∧ s.coding.plain = none ∧ (List.range 8).all (fun p => (s.updPart p).pass.isNone) =
    true ∧ s.lane.jobs.all (fun j => j.todo.isEmpty) = true ∧ s.col.jobs.all (fun x => x.todo.isEmpty) = true ∧ s.pages.jobs = [] ∧
    s.arc.restores = [] ∧ s.upd.noise = none ∧ Grp.state s g ≠ 0 :=
  ⟨.port, grp, _, rfl, by decide +kernel⟩

theorem witness_declare_refused : ∃ (path : Path) (role : Fin 32) (s : State) (g : Nat), g = s.sel path F.CDR_SEL_SLOT ∧ s.pathMay
    path R.CDR_ROLE_CMD = true ∧ s.Up Page.CDR ∧ s.roleReason g 1 role.val 0 ≠ 0 :=
  ⟨.port, 0, up, _, rfl, by decide +kernel⟩

theorem witness_declareLost : ∃ (path : Path) (role : Fin 32) (s : State) (g : Nat) (s1 : State) (s2 : State) (s3 : State) (s4 :
    State), g = s.sel path F.CDR_SEL_SLOT ∧ s1 = s.fset F.CDR_CMD_STAT_REASON g 0 ∧ s2 = ((s1.wr64 R.CDR_DECL_SEAL_LO g (s1.rd64
    R.CDE_GRP_SEAL_LO g)).wr64 R.CDR_DECL_TICK_LO g s1.tick.now) ∧ s3 = ((((s2.fset F.CDR_LOST_ROLES g (setBit (s2.fget
    F.CDR_LOST_ROLES g) role.val true)).wr R.CDE_MEMB_NODE (g * 32 + role.val) 0).resetStreams g role.val).acksGiven g
    role.val).closeDone ∧ s4 = s3.logErr
    { block := Page.CDR, code := 0x0408, sev := 0, part := some (Grp.part s3 g), detail := [g, role.val, 0, Grp.node s1 g role.val] }
    ∧ s.pathMay path R.CDR_ROLE_CMD = true ∧ s.Up Page.CDR ∧ s.roleReason g 1 role.val 0 = 0 :=
  ⟨.port, 1, grp, _, _, _, _, _, rfl, rfl, rfl, rfl, rfl, by decide +kernel⟩

theorem witness_replace : ∃ (path : Path) (role : Fin 32) (node : BitVec 20) (s : State) (g : Nat) (s1 : State) (s2 : State) (s3 :
    State), g = s.sel path F.CDR_SEL_SLOT ∧ s1 = ((s.fset F.CDR_CMD_STAT_REASON g 0).fset F.CDE_MEMB_NODE_NODE (g * 32 + role.val)
    node.toNat).set1 F.CDE_MEMB_NODE_VALID (g * 32 + role.val) ∧ s2 = (s1.wr R.CDE_MEMB_DOM_A (g * 32 + role.val) (s1.rd
    R.CDR_ROLE_DOM_A g)) ∧ s3 = (s2.wr R.CDE_MEMB_DOM_B (g * 32 + role.val) (s1.rd R.CDR_ROLE_DOM_B g)) ∧ s.pathMay path
    R.CDR_ROLE_CMD = true ∧ s.Up Page.CDR ∧ node.toNat ≤ 262143 ∧ s.roleReason g 2 role.val node.toNat = 0 :=
  ⟨.port, 1, 7, (grp.fset F.CDR_LOST_ROLES 0 2).fset F.CDE_GRP_CFG_SEPARATE 0 0, _, _, _, _, rfl, rfl, rfl, rfl, by decide +kernel⟩

theorem witness_startRebuild : ∃ (path : Path) (role : Fin 32) (s : State) (g : Nat) (s1 : State), g = s.sel path F.CDR_SEL_SLOT ∧
    s1 = (((s.fset F.CDR_CMD_STAT_REASON g 0).set0 F.CDR_CMD_STAT_AWAIT_START g).set1 F.CDR_CMD_STAT_REBUILDING g).fset
    F.CDR_CURSOR_ROW g 0 ∧ s.pathMay path R.CDR_ROLE_CMD = true ∧ s.Up Page.CDR ∧ s.roleReason g 3 role.val 0 = 0 ∧ s1.fget
    F.CDR_LEFT_ROWS g ≠ 0 :=
  ⟨.port, 0, ((grp.fset F.CDR_CMD_STAT_AWAIT_START 0 1).fset F.CDR_LEFT_ROWS 0 3), _, _, rfl, rfl, by decide +kernel⟩

theorem witness_rebuildInstallDone : ∃ (slot : Fin 16) (s : State), s.run = .running ∧ alGet s.coding.busy slot.val = some
    .markPending :=
  ⟨0, grp.setBusy 0 .markPending, by decide +kernel⟩

theorem witness_rebuildRow : ∃ (slot : Fin 16) (s : State) (r : Nat), s.run = .running ∧ s.flag F.CDR_CMD_STAT_REBUILDING slot.val =
    true ∧ s.flag F.CDR_CTRL_PAUSE = false ∧ s.regionBefore slot.val = false ∧ (List.range (Grp.rows s slot.val)).find? (fun r =>
    decide (s.fget F.CDR_CURSOR_ROW slot.val ≤ r) && s.rowPending slot.val r && !s.gathering slot.val r) = some r :=
  ⟨0, (grp.markPending 0).fset F.CDR_CMD_STAT_REBUILDING 0 1, 0, by decide +kernel⟩

theorem witness_gatherTimeout : ∃ (slot : Fin 16) (row : Nat) (role : Fin 32) (s : State) (x : Gather), s.run = .running ∧
    s.coding.gathers.find? (fun x => x.slot == slot.val && x.row == row && x.asked.any fun a => a.2.1 == role.val) = some x :=
  ⟨0, 0, 1, grpGathers, gatherOf, by decide +kernel⟩

theorem witness_deltaRecord : ∃ (gate : Bool) (src : BitVec 20) (msg : List Byte) (s : State) (s1 : State) (g : Nat), gate = false ∧
    s1 = s.msgIn 1 false gate src.toNat msg ∧ s.Up Page.FBP ∧ s.rxCredits 1 false ≠ 0 ∧ ¬ 262143 < src.toNat ∧ s1.slotOf (fieldLE
    msg 2 2) (fieldLE msg 10 1) = some g ∧ 48 ≤ msg.length ∧ crcOk msg 44 = true ∧ fieldLE msg 40 4 = crc32c (msg.drop 48) ∧ fieldLE
    msg 4 1 < Grp.n s1 g ∧ Grp.lost s1 g (fieldLE msg 4 1) = false ∧ Grp.node s1 g (fieldLE msg 4 1) = fieldLE msg 36 4 ∧ fieldLE
    msg 0 1 = 1 ∧ fieldLE msg 1 1 = 1 ∧ fieldLE msg 12 4 < Grp.rows s1 g ∧ fieldLE msg 6 1 < Grp.k s1 g ∧ fieldLE msg 6 1 = symOf
    (Grp.n s1 g) (fieldLE msg 4 1) (fieldLE msg 12 4) ∧ symOf (Grp.n s1 g) (Grp.own s1 g) (fieldLE msg 12 4) = Grp.k s1 g + fieldLE
    msg 5 1 ∧ fieldLE msg 16 8 ≠ 0 ∧ msg.length = 48 + 64 * popCount 64 (fieldLE msg 16 8) ∧ fieldLE msg 24 4 = (s1.rxGet g (fieldLE
    msg 4 1)).next :=
  ⟨_, 2, recMsg 1, grp, _, 0, rfl, rfl, by decide +kernel⟩

theorem witness_repairRecord : ∃ (gate : Bool) (src : BitVec 20) (msg : List Byte) (s : State) (s1 : State) (g : Nat), gate = false
    ∧ s1 = s.msgIn 1 false gate src.toNat msg ∧ s.Up Page.FBP ∧ s.rxCredits 1 false ≠ 0 ∧ ¬ 262143 < src.toNat ∧ s1.slotOf (fieldLE
    msg 2 2) (fieldLE msg 10 1) = some g ∧ 48 ≤ msg.length ∧ crcOk msg 44 = true ∧ fieldLE msg 40 4 = crc32c (msg.drop 48) ∧ fieldLE
    msg 4 1 < Grp.n s1 g ∧ Grp.lost s1 g (fieldLE msg 4 1) = false ∧ Grp.node s1 g (fieldLE msg 4 1) = fieldLE msg 36 4 ∧ fieldLE
    msg 0 1 = 8 ∧ fieldLE msg 1 1 = 1 ∧ fieldLE msg 12 4 < Grp.rows s1 g ∧ fieldLE msg 6 1 < Grp.k s1 g ∧ fieldLE msg 6 1 = symOf
    (Grp.n s1 g) (fieldLE msg 4 1) (fieldLE msg 12 4) ∧ symOf (Grp.n s1 g) (Grp.own s1 g) (fieldLE msg 12 4) = Grp.k s1 g + fieldLE
    msg 5 1 ∧ fieldLE msg 16 8 ≠ 0 ∧ msg.length = 48 + 64 * popCount 64 (fieldLE msg 16 8) ∧ fieldLE msg 24 4 = (s1.rxGet g (fieldLE
    msg 4 1)).next :=
  ⟨_, 2, recMsg 8, grp, _, 0, rfl, rfl, by decide +kernel⟩

theorem witness_record_dup : ∃ (gate : Bool) (src : BitVec 20) (msg : List Byte) (s : State) (s1 : State) (g : Nat), gate = false ∧
    s1 = s.msgIn 1 false gate src.toNat msg ∧ s.Up Page.FBP ∧ s.rxCredits 1 false ≠ 0 ∧ ¬ 262143 < src.toNat ∧ s1.slotOf (fieldLE
    msg 2 2) (fieldLE msg 10 1) = some g ∧ 48 ≤ msg.length ∧ crcOk msg 44 = true ∧ fieldLE msg 40 4 = crc32c (msg.drop 48) ∧ fieldLE
    msg 4 1 < Grp.n s1 g ∧ Grp.lost s1 g (fieldLE msg 4 1) = false ∧ Grp.node s1 g (fieldLE msg 4 1) = fieldLE msg 36 4 ∧ fieldLE
    msg 0 1 = 1 ∧ fieldLE msg 1 1 = 1 ∧ fieldLE msg 12 4 < Grp.rows s1 g ∧ fieldLE msg 6 1 < Grp.k s1 g ∧ fieldLE msg 6 1 = symOf
    (Grp.n s1 g) (fieldLE msg 4 1) (fieldLE msg 12 4) ∧ symOf (Grp.n s1 g) (Grp.own s1 g) (fieldLE msg 12 4) = Grp.k s1 g + fieldLE
    msg 5 1 ∧ fieldLE msg 16 8 ≠ 0 ∧ msg.length = 48 + 64 * popCount 64 (fieldLE msg 16 8) ∧ fieldLE msg 24 4 ≠ (s1.rxGet g (fieldLE
    msg 4 1)).next ∧ serialLe (fieldLE msg 24 4) (s1.rxGet g (fieldLE msg 4 1)).next = true :=
  ⟨_, 2, recMsg 1, (grp.rxSet ⟨0, 2, 5, [], [], 0⟩).rxSet ⟨0, 1, 5, [], [], 0⟩, _, 0, rfl, rfl, by decide +kernel⟩

theorem witness_gather_absent : ∃ (gate : Bool) (src : BitVec 20) (msg : List Byte) (s : State) (s1 : State) (g : Nat), gate = false
    ∧ s1 = s.msgIn 1 false gate src.toNat msg ∧ s.Up Page.FBP ∧ s.rxCredits 1 false ≠ 0 ∧ ¬ 262143 < src.toNat ∧ msg.length = 32 ∧
    fieldLE msg 0 1 = 6 ∧ fieldLE msg 1 1 = 1 ∧ crcOk msg 28 = true ∧ s1.slotOf (fieldLE msg 2 2) (fieldLE msg 6 1) = some g ∧
    (Grp.n s1 g ≤ fieldLE msg 4 1 ∨ Grp.node s1 g (fieldLE msg 4 1) ≠ src.toNat ∨ Grp.lost s1 g (fieldLE msg 4 1) = true ∨ Grp.rows
    s1 g ≤ fieldLE msg 8 4 ∨ fieldLE msg 5 1 ≠ Grp.own s1 g) :=
  ⟨_, 1, grpMsg 6 1 0 9 0, grp, _, 0, rfl, rfl, by decide +kernel⟩

theorem witness_gatherRequest : ∃ (gate : Bool) (src : BitVec 20) (msg : List Byte) (s : State) (s1 : State) (g : Nat) (r : Nat) (tg
    : State × TagLine) (rd : State × Read), gate = false ∧ s1 = s.msgIn 1 false gate src.toNat msg ∧ r = fieldLE msg 8 4 ∧ tg =
    s1.tagRead g r ∧ rd = tg.1.readTier (Grp.tier tg.1 g) (Grp.slotAddr tg.1 g r) 4096 ∧ s.Up Page.FBP ∧ s.rxCredits 1 false ≠ 0 ∧ ¬
    262143 < src.toNat ∧ msg.length = 32 ∧ fieldLE msg 0 1 = 6 ∧ fieldLE msg 1 1 = 1 ∧ crcOk msg 28 = true ∧ s1.slotOf (fieldLE msg
    2 2) (fieldLE msg 6 1) = some g ∧ fieldLE msg 4 1 < Grp.n s1 g ∧ Grp.node s1 g (fieldLE msg 4 1) = src.toNat ∧ Grp.lost s1 g
    (fieldLE msg 4 1) = false ∧ fieldLE msg 8 4 < Grp.rows s1 g ∧ fieldLE msg 5 1 = Grp.own s1 g ∧ tagPending tg.2 = false ∧
    tagEscalated tg.2 = false ∧ bit (fieldLE msg 7 1) 0 = false ∧ (rd.2.erased.isEmpty && !rd.2.poisoned) = true ∧ Grp.k rd.1 g ≤
    symOf (Grp.n s1 g) (Grp.own s1 g) r :=
  ⟨_, 1, grpMsg 6 1 0 grpRow 0, grpTagged, _, 0, _, _, _, rfl, rfl, rfl, rfl, rfl, by decide +kernel⟩

theorem witness_gather_fails : ∃ (gate : Bool) (src : BitVec 20) (msg : List Byte) (damaged : Bool) (s : State) (s1 : State) (g :
    Nat) (x : Gather), gate = false ∧ s1 = s.msgIn 1 true gate src.toNat msg ∧ damaged = false ∧ s.Up Page.FBP ∧ s.rxCredits 1 true
    ≠ 0 ∧ ¬ 262143 < src.toNat ∧ 48 ≤ msg.length ∧ crcOk msg 44 = true ∧ fieldLE msg 0 1 = 7 ∧ fieldLE msg 1 1 = 1 ∧ fieldLE msg 40
    4 = crc32c (msg.drop 48) ∧ s1.slotOf (fieldLE msg 2 2) (fieldLE msg 6 1) = some g ∧ fieldLE msg 4 1 < Grp.n s1 g ∧ Grp.lost s1 g
    (fieldLE msg 4 1) = false ∧ Grp.node s1 g (fieldLE msg 4 1) = src.toNat ∧ s1.coding.gathers.find? (fun x => x.slot == g && x.row
    == fieldLE msg 8 4 && x.asked.any fun a => a.1 == fieldLE msg 12 4 && a.2.1 == fieldLE msg 4 1) = some x ∧ fieldLE msg 7 1 ≠ 0
    :=
  ⟨_, 1, gatherMsg 2, _, grpGathers, _, 0, gatherOf, rfl, rfl, rfl, by decide +kernel⟩

theorem witness_gather_answered : ∃ (gate : Bool) (src : BitVec 20) (msg : List Byte) (s : State) (s1 : State) (g : Nat) (x :
    Gather), gate = false ∧ s1 = s.msgIn 1 true gate src.toNat msg ∧ s.Up Page.FBP ∧ s.rxCredits 1 true ≠ 0 ∧ ¬ 262143 < src.toNat ∧
    48 ≤ msg.length ∧ crcOk msg 44 = true ∧ fieldLE msg 0 1 = 7 ∧ fieldLE msg 1 1 = 1 ∧ fieldLE msg 40 4 = crc32c (msg.drop 48) ∧
    s1.slotOf (fieldLE msg 2 2) (fieldLE msg 6 1) = some g ∧ fieldLE msg 4 1 < Grp.n s1 g ∧ Grp.lost s1 g (fieldLE msg 4 1) = false
    ∧ Grp.node s1 g (fieldLE msg 4 1) = src.toNat ∧ s1.coding.gathers.find? (fun x => x.slot == g && x.row == fieldLE msg 8 4 &&
    x.asked.any fun a => a.1 == fieldLE msg 12 4 && a.2.1 == fieldLE msg 4 1) = some x ∧ fieldLE msg 7 1 = 0 :=
  ⟨_, 1, gatherMsg 0, grpGathers, _, 0, gatherOf, rfl, rfl, by decide +kernel⟩

theorem witness_reseed : ∃ (gate : Bool) (src : BitVec 20) (msg : List Byte) (s : State) (s1 : State) (g : Nat), gate = false ∧ s1 =
    s.msgIn 1 false gate src.toNat msg ∧ s.Up Page.FBP ∧ s.rxCredits 1 false ≠ 0 ∧ ¬ 262143 < src.toNat ∧ (s1.msgSlot src.toNat msg
    0x0A 4).2 = some g ∧ fieldLE msg 5 1 = Grp.own s1 g ∧ fieldLE msg 8 4 < Grp.rows s1 g ∧ Grp.k s1 g ≤ symOf (Grp.n s1 g) (Grp.own
    s1 g) (fieldLE msg 8 4) :=
  ⟨_, 1, grpMsg 0x0A 1 0 grpRow 0, grp, _, 0, rfl, rfl, by decide +kernel⟩

theorem witness_arrival : ∃ (gate : Bool) (src : BitVec 20) (msg : List Byte) (s : State) (s1 : State) (g : Nat), gate = false ∧ s1
    = s.msgIn 1 false gate src.toNat msg ∧ s.Up Page.FBP ∧ s.rxCredits 1 false ≠ 0 ∧ ¬ 262143 < src.toNat ∧ (s1.msgSlot src.toNat
    msg 9 4).2 = some g ∧ Grp.acting s1 g = Grp.own s1 g :=
  ⟨_, 1, grpMsg 9 1 0 50 3, grp, _, 0, rfl, rfl, by decide +kernel⟩

theorem witness_arrivalMissing : ∃ (slot : Fin 16) (role : Fin 32) (tick : BitVec 64) (s : State), s.run = .running ∧ Grp.state s
    slot.val ≠ 0 ∧ Grp.acting s slot.val = Grp.own s slot.val ∧ (Grp.live s slot.val).contains role.val = true ∧ alGet ((alGet
    s.coding.arrivals (slot.val * 32 + role.val)).getD []) tick.toNat = none :=
  ⟨0, 1, 0, grp, by decide +kernel⟩

theorem witness_stragWindowEnd : ∃ (slot : Fin 16) (s : State), s.run = .running ∧ s.tick.now % max (s.fget F.CDR_STRAG_WIN_TICKS
    slot.val) 1 = 0 :=
  ⟨0, up, by decide +kernel⟩

theorem witness_updPassGo : ∃ (path : Path) (s : State) (p : Nat), p = s.sel path F.UPD_PART_SEL_PART ∧ s.pathMay path R.UPD_PASS =
    true ∧ s.Up Page.UPD :=
  ⟨.port, up, _, rfl, by decide +kernel⟩

theorem witness_passBegin : ∃ (part : Fin 8) (s : State), s.Up Page.UPD ∧ s.passDue part.val = true :=
  ⟨0, ({ up with tick := { up.tick with hall := 1000000, lastBoundary := some 1000000 } } : State).setUpdPart 0 ⟨some 0, none, none,
    false, none⟩, by decide +kernel⟩

theorem witness_layer_skipped : ∃ (part : Fin 8) (s : State) (z : Pass) (x : Pass) (addr : Nat) (s1 : State) (bs : List (Option
    Byte)) (d : List Byte), x = { z with pinned := false } ∧ addr = s.fget F.UPD_LTAB_BASE_BASE part.val * 4096 + 64 * x.layer ∧ s1
    = ((s.setPass part.val (some x)).updRead part.val addr 64).1 ∧ d = bs.map (·.getD 0xFF) ∧ s.Up Page.UPD ∧ s.passOn part.val =
    some z ∧ z.todo = [] ∧ z.late = [] ∧ x.desc = none ∧ x.layer < s.fget F.UPD_LTAB_COUNT_COUNT part.val ∧ ((s.setPass part.val
    (some x)).updRead part.val addr 64).2 = .ok bs ∧ s1.ldReason part.val d ≠ 0 :=
  ⟨0, (mapped.fset F.UPD_LTAB_COUNT_COUNT 0 1).setPass 0 (some ⟨0, 1, 0, [], 0, none, 0, [], 0, [], [], [], false, [], []⟩), ⟨0, 1,
    0, [], 0, none, 0, [], 0, [], [], [], false, [], []⟩, _, _, _, List.replicate 64 (some 0), _, rfl, rfl, rfl, rfl,
    by decide +kernel⟩

theorem witness_layerBegin : ∃ (part : Fin 8) (s : State) (z : Pass) (x : Pass) (addr : Nat) (s1 : State) (bs : List (Option Byte))
    (d : List Byte), x = { z with pinned := false } ∧ addr = s.fget F.UPD_LTAB_BASE_BASE part.val * 4096 + 64 * x.layer ∧ s1 =
    ((s.setPass part.val (some x)).updRead part.val addr 64).1 ∧ d = bs.map (·.getD 0xFF) ∧ s.Up Page.UPD ∧ s.passOn part.val = some
    z ∧ z.todo = [] ∧ z.late = [] ∧ x.desc = none ∧ x.layer < s.fget F.UPD_LTAB_COUNT_COUNT part.val ∧ ((s.setPass part.val (some
    x)).updRead part.val addr 64).2 = .ok bs ∧ s1.ldReason part.val d = 0 ∧ (ldReady d = 0xFFFF ∨ bit (s1.rd (R.COL_FLAG_0 + 4 *
    (ldReady d / 32)) part.val) (ldReady d % 32) = true) :=
  ⟨0, layered, ⟨0, 1, 0, [], 0, none, 0, [], 0, [], [], [], false, [], []⟩, _, _, _, layerImg.map some, _, rfl, rfl, rfl, rfl,
    by decide +kernel⟩

theorem witness_passEnd : ∃ (part : Fin 8) (s : State) (z : Pass) (x : Pass), x = { z with pinned := false } ∧ s.Up Page.UPD ∧
    s.passOn part.val = some z ∧ z.todo = [] ∧ z.late = [] ∧ x.desc = none ∧ s.fget F.UPD_LTAB_COUNT_COUNT part.val ≤ x.layer :=
  ⟨0, mapped.setPass 0 (some ⟨0, 1, 0, [], 0, none, 0, [], 0, [], [], [], false, [], []⟩), ⟨0, 1, 0, [], 0, none, 0, [], 0, [], [],
    [], false, [], []⟩, _, rfl, by decide +kernel⟩

theorem witness_sgdMom : ∃ (part : Fin 8) (s : State) (z : Pass) (x : Pass) (d : List Byte) (q : State × Option (Option Nat)) (e :
    Nat) (n : Nat) (r : State × Option (List ElemIn)) (v : State × Bool) (xs : List ElemIn) (os : List ElemOut), x =
    { z with pinned := false } ∧ q = (s.setPass part.val (some x)).elemAt part.val d x.pos ∧ n = min (32 - e % 32) (ldTotal d -
    x.pos) ∧ r = q.1.readElems part.val x d (.words progSgdMom) e x.pos n ∧ v = r.1.genTurn part.val d e n ∧ os = xs.map (wordsElem
    progSgdMom ((List.range 12).map fun i => x.hpWord (ldHpSet d) i) 0 0) ∧ s.Up Page.UPD ∧ s.passOn part.val = some z ∧ z.todo = []
    ∧ z.late = [] ∧ x.desc = some d ∧ ldProgram d = 1 ∧ x.pos < ldTotal d ∧ (ldGenFmt d = 0 ∨ (s.setPass part.val (some x)).nextPins
    part.val = 0) ∧ q.2 = some (some e) ∧ r.2 = some xs ∧ v.2 = true :=
  ⟨0, passing 1 1, ⟨0, 1, 0, [], 0, some (descOf 1 1), 0, [], 0, [], [], [], false, [], []⟩, _, descOf 1 1, _, 0, _, _, _, [⟨some 0,
    some 0, some 0, some 0⟩], _, rfl, rfl, rfl, rfl, rfl, rfl, by decide +kernel⟩

theorem witness_sgdNesterov : ∃ (part : Fin 8) (s : State) (z : Pass) (x : Pass) (d : List Byte) (q : State × Option (Option Nat))
    (e : Nat) (n : Nat) (r : State × Option (List ElemIn)) (v : State × Bool) (xs : List ElemIn) (os : List ElemOut), x =
    { z with pinned := false } ∧ q = (s.setPass part.val (some x)).elemAt part.val d x.pos ∧ n = min (32 - e % 32) (ldTotal d -
    x.pos) ∧ r = q.1.readElems part.val x d (.words progNesterov) e x.pos n ∧ v = r.1.genTurn part.val d e n ∧ os = xs.map
    (wordsElem progNesterov ((List.range 12).map fun i => x.hpWord (ldHpSet d) i) 0 0) ∧ s.Up Page.UPD ∧ s.passOn part.val = some z
    ∧ z.todo = [] ∧ z.late = [] ∧ x.desc = some d ∧ ldProgram d = 2 ∧ x.pos < ldTotal d ∧ (ldGenFmt d = 0 ∨ (s.setPass part.val
    (some x)).nextPins part.val = 0) ∧ q.2 = some (some e) ∧ r.2 = some xs ∧ v.2 = true :=
  ⟨0, passing 2 1, ⟨0, 1, 0, [], 0, some (descOf 2 1), 0, [], 0, [], [], [], false, [], []⟩, _, descOf 2 1, _, 0, _, _, _, [⟨some 0,
    some 0, some 0, some 0⟩], _, rfl, rfl, rfl, rfl, rfl, rfl, by decide +kernel⟩

theorem witness_adamw : ∃ (part : Fin 8) (s : State) (z : Pass) (x : Pass) (d : List Byte) (q : State × Option (Option Nat)) (e :
    Nat) (n : Nat) (r : State × Option (List ElemIn)) (v : State × Bool) (xs : List ElemIn) (os : List ElemOut), x =
    { z with pinned := false } ∧ q = (s.setPass part.val (some x)).elemAt part.val d x.pos ∧ n = min (32 - e % 32) (ldTotal d -
    x.pos) ∧ r = q.1.readElems part.val x d (.words progAdamw) e x.pos n ∧ v = r.1.genTurn part.val d e n ∧ os = xs.map (wordsElem
    progAdamw ((List.range 12).map fun i => x.hpWord (ldHpSet d) i) 0 0) ∧ s.Up Page.UPD ∧ s.passOn part.val = some z ∧ z.todo = []
    ∧ z.late = [] ∧ x.desc = some d ∧ ldProgram d = 3 ∧ x.pos < ldTotal d ∧ (ldGenFmt d = 0 ∨ (s.setPass part.val (some x)).nextPins
    part.val = 0) ∧ q.2 = some (some e) ∧ r.2 = some xs ∧ v.2 = true :=
  ⟨0, passing 3 1, ⟨0, 1, 0, [], 0, some (descOf 3 1), 0, [], 0, [], [], [], false, [], []⟩, _, descOf 3 1, _, 0, _, _, _, [⟨some 0,
    some 0, some 0, some 0⟩], _, rfl, rfl, rfl, rfl, rfl, rfl, by decide +kernel⟩

theorem witness_lion : ∃ (part : Fin 8) (s : State) (z : Pass) (x : Pass) (d : List Byte) (q : State × Option (Option Nat)) (e :
    Nat) (n : Nat) (r : State × Option (List ElemIn)) (v : State × Bool) (xs : List ElemIn) (os : List ElemOut), x =
    { z with pinned := false } ∧ q = (s.setPass part.val (some x)).elemAt part.val d x.pos ∧ n = min (32 - e % 32) (ldTotal d -
    x.pos) ∧ r = q.1.readElems part.val x d (.words progLion) e x.pos n ∧ v = r.1.genTurn part.val d e n ∧ os = xs.map (wordsElem
    progLion ((List.range 12).map fun i => x.hpWord (ldHpSet d) i) 0 0) ∧ s.Up Page.UPD ∧ s.passOn part.val = some z ∧ z.todo = [] ∧
    z.late = [] ∧ x.desc = some d ∧ ldProgram d = 4 ∧ x.pos < ldTotal d ∧ (ldGenFmt d = 0 ∨ (s.setPass part.val (some x)).nextPins
    part.val = 0) ∧ q.2 = some (some e) ∧ r.2 = some xs ∧ v.2 = true :=
  ⟨0, passing 4 1, ⟨0, 1, 0, [], 0, some (descOf 4 1), 0, [], 0, [], [], [], false, [], []⟩, _, descOf 4 1, _, 0, _, _, _, [⟨some 0,
    some 0, some 0, some 0⟩], _, rfl, rfl, rfl, rfl, rfl, rfl, by decide +kernel⟩

theorem witness_genOnly : ∃ (part : Fin 8) (s : State) (z : Pass) (x : Pass) (d : List Byte) (q : State × Option (Option Nat)) (e :
    Nat) (n : Nat) (r : State × Option (List ElemIn)) (v : State × Bool) (xs : List ElemIn), x = { z with pinned := false } ∧ q =
    (s.setPass part.val (some x)).elemAt part.val d x.pos ∧ n = min (32 - e % 32) (ldTotal d - x.pos) ∧ r = q.1.readElems part.val x
    d .genOnly e x.pos n ∧ v = r.1.genTurn part.val d e n ∧ s.Up Page.UPD ∧ s.passOn part.val = some z ∧ z.todo = [] ∧ z.late = [] ∧
    x.desc = some d ∧ ldProgram d = 6 ∧ x.pos < ldTotal d ∧ (ldGenFmt d = 0 ∨ (s.setPass part.val (some x)).nextPins part.val = 0) ∧
    q.2 = some (some e) ∧ r.2 = some xs ∧ v.2 = true :=
  ⟨0, passing 6 1, ⟨0, 1, 0, [], 0, some (descOf 6 1), 0, [], 0, [], [], [], false, [], []⟩, _, descOf 6 1, _, 0, _, _, _, [⟨some 0,
    some 0, some 0, some 0⟩], rfl, rfl, rfl, rfl, rfl, by decide +kernel⟩

theorem witness_adagrad_part : ∃ (part : Fin 8) (s : State) (z : Pass) (x : Pass) (d : List Byte) (q : State × Option (Option Nat))
    (e : Nat) (r : State × Option (List ElemIn)) (xs : List ElemIn), x = { z with pinned := false } ∧ q = (s.setPass part.val (some
    x)).elemAt part.val d x.pos ∧ r = q.1.readElems part.val x d .adagrad e x.pos 32 ∧ s.Up Page.UPD ∧ s.passOn part.val = some z ∧
    z.todo = [] ∧ z.late = [] ∧ x.desc = some d ∧ ldProgram d = 5 ∧ x.pos < ldTotal d ∧ (ldGenFmt d = 0 ∨ (s.setPass part.val (some
    x)).nextPins part.val = 0) ∧ q.2 = some (some e) ∧ r.2 = some xs ∧ x.ins.length + xs.length < ldRow d :=
  ⟨0, mapped.setPass 0 (some ⟨0, 1, 0, [], 0, some ((descOf 5 64).set 46 2), 0, [], 0, [], [], [], false, [], []⟩), ⟨0, 1, 0, [], 0,
    some ((descOf 5 64).set 46 2), 0, [], 0, [], [], [], false, [], []⟩, _, ((descOf 5 64).set 46 2), _, 0, _, List.replicate 32
    ⟨some 0, some 0, some 0, some 0⟩, rfl, rfl, rfl, by decide +kernel⟩

theorem witness_adagradRow : ∃ (part : Fin 8) (s : State) (z : Pass) (x : Pass) (d : List Byte) (q : State × Option (Option Nat)) (e
    : Nat) (r : State × Option (List ElemIn)) (xs : List ElemIn) (u : State × UpdRead) (ab : List (Option Byte)) (acc : Option Nat),
    x = { z with pinned := false } ∧ q = (s.setPass part.val (some x)).elemAt part.val d x.pos ∧ r = q.1.readElems part.val x d
    .adagrad e x.pos 32 ∧ u = r.1.updRead part.val (ldAddr d 8 + 4 * (e / ldRow d)) 4 ∧ s.Up Page.UPD ∧ s.passOn part.val = some z ∧
    z.todo = [] ∧ z.late = [] ∧ x.desc = some d ∧ ldProgram d = 5 ∧ x.pos < ldTotal d ∧ (ldGenFmt d = 0 ∨ (s.setPass part.val (some
    x)).nextPins part.val = 0) ∧ q.2 = some (some e) ∧ r.2 = some xs ∧ ldRow d ≤ x.ins.length + xs.length ∧ u.2 = .ok ab ∧ acc =
    adagradAcc ((wordsOf 4 ab).headD none) (x.ins ++ xs) :=
  ⟨0, passing 5 32, ⟨0, 1, 0, [], 0, some (descOf 5 32), 0, [], 0, [], [], [], false, [], []⟩, _, descOf 5 32, _, 0, _,
    List.replicate 32 ⟨some 0, some 0, some 0, some 0⟩, _, List.replicate 4 (some 0), some 0, rfl, rfl, rfl, rfl, by decide +kernel⟩

theorem witness_rowGroup : ∃ (s : State) (p : Nat) (x : Pass) (d : List Byte) (y : RowGroup) (ys : List RowGroup) (v : State × Bool)
    (os : List ElemOut), v = s.genTurn p d y.elem y.ins.length ∧ os = y.ins.map (adagradElem (fun i => x.hpWord (ldHpSet d) i)
    y.acc) ∧ x.late = y :: ys ∧ x.desc = some d ∧ (ldGenFmt d = 0 ∨ s.nextPins p = 0) ∧ v.2 = true :=
  ⟨mapped, 0, ⟨0, 1, 0, [], 0, some (descOf 5 32), 0, [], 0, [], [], [], false, [], [⟨0, some 0, [⟨some 0, some 0, some 0, some
    0⟩]⟩]⟩, descOf 5 32, ⟨0, some 0, [⟨some 0, some 0, some 0, some 0⟩]⟩, [], _, _, rfl, rfl, by decide +kernel⟩

theorem witness_seq_sgdMom : ∃ (hp : List Nat) (g : Nat), f32Finite g = true ∧ hp.length = 12 :=
  ⟨List.replicate 12 0, 0, by decide +kernel⟩

theorem witness_seq_nesterov : ∃ (hp : List Nat) (g : Nat), f32Finite g = true ∧ hp.length = 12 :=
  ⟨List.replicate 12 0, 0, by decide +kernel⟩

theorem witness_seq_adamw : ∃ (hp : List Nat) (g : Nat), f32Finite g = true ∧ hp.length = 12 :=
  ⟨List.replicate 12 0, 0, by decide +kernel⟩

theorem witness_seq_lion : ∃ (hp : List Nat) (g : Nat), f32Finite g = true ∧ hp.length = 12 :=
  ⟨List.replicate 12 0, 0, by decide +kernel⟩

theorem witness_nopOp : ∃ (s : State), s.Up Page.UPD :=
  ⟨up, by decide +kernel⟩

theorem witness_movOp : ∃ (d : Fin 32) (a : Fin 32) (s : State), s.Up Page.UPD ∧ 18 ≤ d.val ∧ d.val ≤ 30 ∧ a.val < 28 :=
  ⟨18, 0, up, by decide +kernel⟩

theorem witness_addOp : ∃ (d : Fin 32) (a : Fin 32) (b : Fin 32) (s : State), s.Up Page.UPD ∧ 18 ≤ d.val ∧ d.val ≤ 30 ∧ a.val < 28 ∧
    b.val < 28 :=
  ⟨18, 0, 0, up, by decide +kernel⟩

theorem witness_subOp : ∃ (d : Fin 32) (a : Fin 32) (b : Fin 32) (s : State), s.Up Page.UPD ∧ 18 ≤ d.val ∧ d.val ≤ 30 ∧ a.val < 28 ∧
    b.val < 28 :=
  ⟨18, 0, 0, up, by decide +kernel⟩

theorem witness_mulOp : ∃ (d : Fin 32) (a : Fin 32) (b : Fin 32) (s : State), s.Up Page.UPD ∧ 18 ≤ d.val ∧ d.val ≤ 30 ∧ a.val < 28 ∧
    b.val < 28 :=
  ⟨18, 0, 0, up, by decide +kernel⟩

theorem witness_fmaOp : ∃ (d : Fin 32) (a : Fin 32) (b : Fin 32) (c : Fin 32) (s : State), s.Up Page.UPD ∧ 18 ≤ d.val ∧ d.val ≤ 30 ∧
    a.val < 28 ∧ b.val < 28 ∧ c.val < 28 :=
  ⟨18, 0, 0, 0, up, by decide +kernel⟩

theorem witness_fnmaOp : ∃ (d : Fin 32) (a : Fin 32) (b : Fin 32) (c : Fin 32) (s : State), s.Up Page.UPD ∧ 18 ≤ d.val ∧ d.val ≤ 30
    ∧ a.val < 28 ∧ b.val < 28 ∧ c.val < 28 :=
  ⟨18, 0, 0, 0, up, by decide +kernel⟩

theorem witness_divOp : ∃ (d : Fin 32) (a : Fin 32) (b : Fin 32) (s : State), s.Up Page.UPD ∧ 18 ≤ d.val ∧ d.val ≤ 30 ∧ a.val < 28 ∧
    b.val < 28 :=
  ⟨18, 0, 0, up, by decide +kernel⟩

theorem witness_sqrtOp : ∃ (d : Fin 32) (a : Fin 32) (s : State), s.Up Page.UPD ∧ 18 ≤ d.val ∧ d.val ≤ 30 ∧ a.val < 28 :=
  ⟨18, 0, up, by decide +kernel⟩

theorem witness_maxOp : ∃ (d : Fin 32) (a : Fin 32) (b : Fin 32) (s : State), s.Up Page.UPD ∧ 18 ≤ d.val ∧ d.val ≤ 30 ∧ a.val < 28 ∧
    b.val < 28 :=
  ⟨18, 0, 0, up, by decide +kernel⟩

theorem witness_minOp : ∃ (d : Fin 32) (a : Fin 32) (b : Fin 32) (s : State), s.Up Page.UPD ∧ 18 ≤ d.val ∧ d.val ≤ 30 ∧ a.val < 28 ∧
    b.val < 28 :=
  ⟨18, 0, 0, up, by decide +kernel⟩

theorem witness_absOp : ∃ (d : Fin 32) (a : Fin 32) (s : State), s.Up Page.UPD ∧ 18 ≤ d.val ∧ d.val ≤ 30 ∧ a.val < 28 :=
  ⟨18, 0, up, by decide +kernel⟩

theorem witness_negOp : ∃ (d : Fin 32) (a : Fin 32) (s : State), s.Up Page.UPD ∧ 18 ≤ d.val ∧ d.val ≤ 30 ∧ a.val < 28 :=
  ⟨18, 0, up, by decide +kernel⟩

theorem witness_signOp : ∃ (d : Fin 32) (a : Fin 32) (s : State), s.Up Page.UPD ∧ 18 ≤ d.val ∧ d.val ≤ 30 ∧ a.val < 28 :=
  ⟨18, 0, up, by decide +kernel⟩

theorem witness_selOp : ∃ (d : Fin 32) (a : Fin 32) (b : Fin 32) (c : Fin 32) (s : State), s.Up Page.UPD ∧ 18 ≤ d.val ∧ d.val ≤ 30 ∧
    a.val < 28 ∧ b.val < 28 ∧ c.val < 28 :=
  ⟨18, 0, 0, 0, up, by decide +kernel⟩

theorem witness_sqrOp : ∃ (d : Fin 32) (a : Fin 32) (s : State), s.Up Page.UPD ∧ 18 ≤ d.val ∧ d.val ≤ 30 ∧ a.val < 28 :=
  ⟨18, 0, up, by decide +kernel⟩

theorem witness_progLoad : ∃ (path : Path) (value : Word) (s : State) (slot : Nat) (ws : List Nat) (bad : Nat), slot = bits
    value.toNat 8 3 ∧ ws = (List.range (bits value.toNat 0 5)).map (fun i => s.rd R.UPD_PROG_DATA (i + 32 * slot)) ∧ s.pathMay path
    R.UPD_PROG_CMD = true ∧ s.Up Page.UPD ∧ bit value.toNat 16 = true ∧ progReason (bits value.toNat 0 5) ws (s.slotInUse slot) =
    (0, bad) :=
  ⟨.port, 65537, up.wr R.UPD_PROG_DATA 0 (opWord 1 28 0 0 0), _, _, 0, rfl, rfl, by decide +kernel⟩

theorem witness_prog_refused : ∃ (path : Path) (value : Word) (s : State) (slot : Nat) (ws : List Nat) (r : Nat) (bad : Nat), slot =
    bits value.toNat 8 3 ∧ ws = (List.range (bits value.toNat 0 5)).map (fun i => s.rd R.UPD_PROG_DATA (i + 32 * slot)) ∧ s.pathMay
    path R.UPD_PROG_CMD = true ∧ s.Up Page.UPD ∧ bit value.toNat 16 = true ∧ progReason (bits value.toNat 0 5) ws (s.slotInUse slot)
    = (r, bad) ∧ r ≠ 0 :=
  ⟨.port, 65537, up, _, _, 5, 0, rfl, rfl, by decide +kernel⟩

theorem witness_updFlip : ∃ (path : Path) (value : Word) (s : State) (p : Nat), p = s.sel path F.UPD_PART_SEL_PART ∧ s.pathMay path
    R.UPD_FLIP = true ∧ s.Up Page.UPD ∧ s.flipReason p value.toNat = 0 :=
  ⟨.port, 1, up.setUpdPart 0 ⟨none, none, none, true, none⟩, _, rfl, by decide +kernel⟩

theorem witness_flip_refused : ∃ (path : Path) (value : Word) (s : State) (p : Nat), p = s.sel path F.UPD_PART_SEL_PART ∧ s.pathMay
    path R.UPD_FLIP = true ∧ s.Up Page.UPD ∧ s.flipReason p value.toNat ≠ 0 :=
  ⟨.port, 0, up, _, rfl, by decide +kernel⟩

theorem witness_tlmRdSelWrite : ∃ (path : Path) (value : Word) (s : State) (slot : Nat) (bs : List Byte), slot = bits value.toNat 0
    12 ∧ bs = padTo 128 0 (s.tlmSlot slot).result ∧ s.pathMay path R.TLM_RD_SEL = true ∧ s.Up Page.TLM :=
  ⟨.port, 0, up, _, _, rfl, rfl, by decide +kernel⟩

theorem witness_tlmClear : ∃ (path : Path) (value : Word) (s : State), s.pathMay path R.TLM_CLEAR = true ∧ s.Up Page.TLM ∧ bit
    value.toNat 12 = false :=
  ⟨.port, 0, up, by decide +kernel⟩

theorem witness_tlmClearAll : ∃ (path : Path) (value : Word) (s : State), s.pathMay path R.TLM_CLEAR = true ∧ s.Up Page.TLM ∧ bit
    value.toNat 12 = true :=
  ⟨.port, 4096, up, by decide +kernel⟩

theorem witness_noiseGo : ∃ (path : Path) (s : State) (n : Noise), n = ⟨s.fget F.CNV_NOISE_DST_PART, s.fget F.CNV_NOISE_DST_PAGE *
    4096, s.rd R.CNV_NOISE_COUNT, s.rd R.CNV_NOISE_TID, s.rd R.CNV_NOISE_STEP, s.rd R.CNV_SEED_LO (s.fget F.CNV_NOISE_DST_PART) +
    s.rd R.CNV_SEED_HI (s.fget F.CNV_NOISE_DST_PART) * 2 ^ 32, s.fget F.CNV_NOISE_CFG_DIST, s.flag F.CNV_NOISE_CFG_FMT, 0⟩ ∧
    s.pathMay path R.CNV_NOISE_CMD = true ∧ s.Up Page.CNV ∧ s.flag F.CNV_NOISE_STAT_BUSY = false ∧ n.dist ≠ 3 ∧ s.flag
    F.CNV_STAT_KAT_FAIL = false ∧ s.runInMap n.part n.addr (n.size * n.count) = true :=
  ⟨.port, up, _, rfl, by decide +kernel⟩

theorem witness_noise_refused : ∃ (s : State), s.flag F.CNV_NOISE_STAT_BUSY = false ∧ s.fget F.CNV_NOISE_CFG_DIST = 3 :=
  ⟨up.fset F.CNV_NOISE_CFG_DIST 0 3, by decide +kernel⟩

theorem witness_noiseAbort : ∃ (path : Path) (written : Nat) (s : State) (n : Noise) (r : State × Noise), r = State.noiseFill
    written (n.count + 1) n s ∧ s.pathMay path R.CNV_NOISE_CMD = true ∧ s.Up Page.CNV ∧ s.upd.noise = some n :=
  ⟨.port, 0, { up with upd := { up.upd with noise := some ⟨0, 0, 4, 0, 0, 0, 0, false, 0⟩ } }, ⟨0, 0, 4, 0, 0, 0, 0, false, 0⟩, _,
    rfl, by decide +kernel⟩

theorem witness_noiseDone : ∃ (s : State) (n : Noise) (r : State × Noise), r = State.noiseFill n.count (n.count + 1) n s ∧ s.Up
    Page.CNV ∧ s.upd.noise = some n ∧ r.2.pos = r.2.count :=
  ⟨noising, ⟨0, 0, 1, 0, 0, 0, 0, false, 0⟩, _, rfl, by decide +kernel⟩

theorem witness_streamMm : ∃ (queue : Fin 16) (s : State) (s1 : State) (j : LaneJob) (d : List Byte), s1 = s.laneRefetch queue.val ∧
    s.Up Page.LNF ∧ s1.laneFront queue.val = some j ∧ j.desc = some d ∧ j.kind = 1 :=
  ⟨0, laned 1, _, lanedJob 1, List.replicate 64 0, rfl, by decide +kernel⟩

theorem witness_gatherPool : ∃ (queue : Fin 16) (s : State) (s1 : State) (j : LaneJob) (d : List Byte), s1 = s.laneRefetch queue.val
    ∧ s.Up Page.LNF ∧ s1.laneFront queue.val = some j ∧ j.desc = some d ∧ j.kind = 2 :=
  ⟨0, laned 2, _, lanedJob 2, List.replicate 64 0, rfl, by decide +kernel⟩

theorem witness_reduceAdd : ∃ (queue : Fin 16) (s : State) (s1 : State) (j : LaneJob) (d : List Byte), s1 = s.laneRefetch queue.val
    ∧ s.Up Page.LNF ∧ s1.laneFront queue.val = some j ∧ j.desc = some d ∧ j.kind = 3 :=
  ⟨0, laned 3, _, lanedJob 3, List.replicate 64 0, rfl, by decide +kernel⟩

theorem witness_operandLand : ∃ (queue : Fin 16) (s : State) (s1 : State) (j : LaneJob) (d : List Byte), s1 = s.laneRefetch
    queue.val ∧ s.Up Page.LNF ∧ s1.laneFront queue.val = some j ∧ j.desc = some d ∧ j.kind = 1 :=
  ⟨0, laned 1, _, lanedJob 1, List.replicate 64 0, rfl, by decide +kernel⟩

theorem witness_bypassWrite : ∃ (path : Path) (cols : Bool) (s : State) (r : Nat), r = (if cols then R.LNF_ROW_COL_BYP else
    R.LNF_ROW_LANE_BYP) ∧ s.pathMay path r = true ∧ s.Up Page.LNF :=
  ⟨.port, true, up, _, rfl, by decide +kernel⟩

theorem witness_kwidthPinWrite : ∃ (path : Path) (value : Word) (s : State) (w : Nat), w = min 32 (bits value.toNat 0 6) ∧ s.pathMay
    path R.LNF_KWIDTH_PIN = true ∧ s.Up Page.LNF ∧ ((List.range 768).any fun r => (s.fset F.LNF_KWIDTH_PIN_WIDTH 0 w).pinChanges r)
    = false :=
  ⟨.port, 0, up, _, rfl, by decide +kernel⟩

theorem witness_rowTest : ∃ (path : Path) (s : State) (r : Nat), r = s.sel path F.LNF_ROW_SEL_ROW ∧ s.pathMay path R.LNF_ROW_TEST =
    true ∧ s.Up Page.LNF ∧ s.flag F.LNF_TEST_STAT_BUSY = false ∧ s.rowOwner r = none :=
  ⟨.port, up, _, rfl, by decide +kernel⟩

theorem witness_rowTestDone : ∃ (s : State) (r : Nat), s.Up Page.LNF ∧ s.lane.test = some r :=
  ⟨{ up with lane := { up.lane with test := some 0 } }, 0, by decide +kernel⟩

theorem witness_idle_none : ∃ (len : Nat) (s : State) (s1 : State) (a : Nat) (n : Nat), s1 = s.fset F.LNF_IDLE_THERMAL 0 (if
    s.tower.throttle = true then 64 - s.fget F.TTH_THROTTLE_FRAC_FRAC else 0) ∧ a = min 63 (max (s1.fget F.LNF_IDLE_THERMAL) (max
    (s1.fget F.LNF_IDLE_POWER) (s1.fget F.LNF_IDLE_MIN))) ∧ n = min len 64 * a / 64 ∧ s.Up Page.LNF ∧ n = 0 :=
  ⟨0, up, _, _, _, rfl, rfl, rfl, by decide +kernel⟩

theorem witness_idleWindow : ∃ (len : Nat) (s : State) (s1 : State) (a : Nat) (n : Nat), s1 = s.fset F.LNF_IDLE_THERMAL 0 (if
    s.tower.throttle = true then 64 - s.fget F.TTH_THROTTLE_FRAC_FRAC else 0) ∧ a = min 63 (max (s1.fget F.LNF_IDLE_THERMAL) (max
    (s1.fget F.LNF_IDLE_POWER) (s1.fget F.LNF_IDLE_MIN))) ∧ n = min len 64 * a / 64 ∧ s.Up Page.LNF ∧ n ≠ 0 :=
  ⟨64, up.fset F.LNF_IDLE_POWER 0 32, _, _, _, rfl, rfl, rfl, by decide +kernel⟩

theorem witness_chainEnd : ∃ (queue : Fin 16) (s : State) (c : Chain), s.Up Page.LNP ∧ s.chain? queue.val = some c ∧ c.ended = true
    :=
  ⟨0, { up with lane := { up.lane with chains := [(0, chainOf)] } }, chainOf, by decide +kernel⟩

theorem witness_chainLimit : ∃ (queue : Fin 16) (s : State) (c : Chain), s.Up Page.LNP ∧ s.lane.oldChains = [] ∧ s.chain? queue.val
    = some c ∧ max 1 (s.fget F.LNP_CHAIN_LIMIT_TICKS) ≤ c.bounds :=
  ⟨0, { up.fset F.LNP_CHAIN_LIMIT_TICKS 0 4 with lane := { up.lane with chains := [(0, chainOf)] } }, chainOf, by decide +kernel⟩

theorem witness_chainLimit_old : ∃ (queue : Fin 16) (s : State) (c : Chain), s.Up Page.LNP ∧ s.lane.oldChains = [(queue.val, c)] ∧
    s.chain? queue.val = none ∧ max 1 (s.fget F.LNP_CHAIN_LIMIT_TICKS) ≤ c.bounds :=
  ⟨0, { up.fset F.LNP_CHAIN_LIMIT_TICKS 0 4 with lane := { up.lane with oldChains := [(0, chainOf)] } }, chainOf, by decide +kernel⟩

theorem witness_close_chain : ∃ (s : State) (q : Nat) (c : Chain), s.chain? q = some c :=
  ⟨{ up with lane := { up.lane with chains := [(0, chainOf)] } }, 0, chainOf, by decide +kernel⟩

theorem witness_qTailWrite : ∃ (path : Path) (kind : QKind) (value : Word) (s : State) (q : Nat) (n : Nat) (t : Nat), q = s.regItem
    path (kind.cfg + 0xC) ∧ n = s.qSize kind q ∧ t = s.fget kind.tail q ∧ s.pathMay path (kind.cfg + 0xC) = true ∧ s.Up kind.regPage
    ∧ kind ≠ .lane ∧ bits value.toNat 0 12 < n ∧ (bits value.toNat 0 12 + n - t % n) % n ≤ n - 1 - (t + n - s.fget kind.head q) % n
    :=
  ⟨.port, .page, 1, up, _, _, _, rfl, rfl, rfl, by decide +kernel⟩

theorem witness_lane_tail : ∃ (path : Path) (value : Word) (s : State) (q : Nat) (s1 : State), q = s.regItem path R.LNP_Q_TAIL ∧ s1
    = s.qTailWrite .lane q (bits value.toNat 0 12) ∧ s.pathMay path R.LNP_Q_TAIL = true ∧ s.Up Page.LNP ∧ s1.fget (QKind.tail .lane)
    q ≠ s.fget (QKind.tail .lane) q :=
  ⟨.port, 1, up, _, _, rfl, rfl, by decide +kernel⟩

theorem witness_tail_bad : ∃ (s : State) (k : QKind) (q : Nat) (v : Nat) (n : Nat) (t : Nat) (o : Nat), n = s.qSize k q ∧ t = s.fget
    k.tail q ∧ o = (t + n - s.fget k.head q) % n ∧ (n ≤ v ∨ n - 1 - o < (v + n - t % n) % n) :=
  ⟨up, .page, 0, 4096, _, _, _, rfl, rfl, rfl, by decide +kernel⟩

theorem witness_qEnable : ∃ (path : Path) (kind : QKind) (value : Word) (s : State) (q : Nat) (s1 : State) (s2 : State), q =
    s.regItem path kind.cfg ∧ s1 = s.accWrite kind.cfg q (setBit value.toNat 8 false) ∧ s2 = s1.fset kind.sizeLog q (clamp 6 12
    (s1.fget kind.sizeLog q)) ∧ s.pathMay path kind.cfg = true ∧ s.Up kind.regPage ∧ kind ≠ .lane ∧ s.flag kind.enable q = false ∧
    bit value.toNat 8 = true :=
  ⟨.port, .page, 256, up, _, _, _, rfl, rfl, rfl, by decide +kernel⟩

theorem witness_lane_enable : ∃ (path : Path) (value : Word) (s : State) (q : Nat) (s1 : State) (s2 : State), q = s.regItem path
    R.LNP_Q_CFG ∧ s1 = s.accWrite R.LNP_Q_CFG q (setBit value.toNat 8 false) ∧ s2 = (s1.fset (QKind.sizeLog .lane) q (clamp 6 12
    (s1.fget (QKind.sizeLog .lane) q))).qEnable .lane q true ∧ s.pathMay path R.LNP_Q_CFG = true ∧ s.Up Page.LNP ∧ s.flag
    (QKind.enable .lane) q = false ∧ bit value.toNat 8 = true :=
  ⟨.port, 256, up, _, _, _, rfl, rfl, rfl, by decide +kernel⟩

theorem witness_q_opened : ∃ (s : State) (k : QKind) (q : Nat), s.flag k.enable q = false :=
  ⟨up, .page, 0, by decide +kernel⟩

theorem witness_arbGrant : ∃ (b : Fin 512) (reqs : List ArbReq) (damage : List (BitVec 33 × BitVec 9)) (s : State) (s1 : State) (ok
    : Bool) (r : ArbReq), s1 = ((s.flipCells damage).arbOpp (.bank b)).1 ∧ ok = ((s.flipCells damage).arbOpp (.bank b)).2 ∧ s.run =
    .running ∧ s1.arbPick (.bank b) (arbOpen ok reqs) = some r :=
  ⟨0, [⟨2, 0, none, false⟩], [], up, _, _, ⟨2, 0, none, false⟩, rfl, rfl, by decide +kernel⟩

theorem witness_arb_channel : ∃ (k : Fin 8) (reqs : List ArbReq) (damage : List (BitVec 33 × BitVec 9)) (s : State) (s1 : State) (r
    : ArbReq), s1 = s.flipCells damage ∧ s.run = .running ∧ s1.arbPick (.channel k) reqs = some r :=
  ⟨0, [⟨0, 0, none, false⟩], [], up, _, ⟨0, 0, none, false⟩, rfl, by decide +kernel⟩

theorem witness_arb_order : ∃ (s : State) (b : Fin 512) (reqs : List ArbReq) (r : ArbReq), s.flag F.ARB_STAT_MASKED = false ∧
    s.arbUnit (ArbRes.bank b).key 1 reqs = some r :=
  ⟨up, 0, [⟨2, 0, none, false⟩, ⟨1, 1, none, false⟩], ⟨1, 1, none, false⟩, by decide +kernel⟩

theorem witness_arb_masked : ∃ (s : State) (b : Fin 512) (reqs : List ArbReq) (r : ArbReq), s.flag F.ARB_STAT_MASKED = true ∧
    (reqs.find? fun r => r.cls.val == 4) = none ∧ s.arbUnit (ArbRes.bank b).key 2 reqs = some r :=
  ⟨up.set1 F.ARB_STAT_MASKED, 0, [⟨2, 0, none, false⟩, ⟨1, 1, none, false⟩], ⟨2, 0, none, false⟩, by decide +kernel⟩

theorem witness_quotaWindow : ∃ (s : State), s.run = .running :=
  ⟨up, by decide +kernel⟩

theorem witness_autonomousRefresh : ∃ (bank : Fin 512) (s : State), s.run = .running ∧ s.tower.planRef.contains bank.val = false :=
  ⟨0, up, by decide +kernel⟩

theorem witness_autonomous_planned : ∃ (bank : Fin 512) (s : State), s.run = .running ∧ s.tower.planRef.contains bank.val = true :=
  ⟨0, { up with tower := { up.tower with planRef := [0] } }, by decide +kernel⟩

theorem witness_apply : ∃ (path : Path) (s : State) (e : Nat) (w : Nat), e = s.sel path F.TWR_ORG_SEL_ENTRY ∧ w = s.rd
    R.TWR_ORG_ENTRY e ∧ s.pathMay path R.TWR_ORG_CMD = true ∧ s.Up Page.TWR ∧ s.applyReason e = 0 :=
  ⟨.port, up.wr R.TWR_ORG_ENTRY 0 repairWord, _, _, rfl, rfl, by decide +kernel⟩

theorem witness_apply_refused : ∃ (path : Path) (s : State) (e : Nat), e = s.sel path F.TWR_ORG_SEL_ENTRY ∧ s.pathMay path
    R.TWR_ORG_CMD = true ∧ s.Up Page.TWR ∧ s.applyReason e ≠ 0 :=
  ⟨.port, up, _, rfl, by decide +kernel⟩

theorem witness_orangeryCopyDone : ∃ (entry : Fin 256) (s : State) (o : Org), s.Up Page.TWR ∧ s.org entry = some o ∧ o.state =
    .copying :=
  ⟨0, { up with tower := { up.tower with orangery := [(0, ⟨.copying, ⟨1, 0, 5, 2⟩, false, false, ⟨[], []⟩⟩)] } }, ⟨.copying, ⟨1, 0,
    5, 2⟩, false, false, ⟨[], []⟩⟩, by decide +kernel⟩

theorem witness_tempSample : ∃ (readings : List (Option Int)) (s : State) (s1 : State) (hot : Nat) (s2 : State) (s3 : State), s1 =
    (if s.tower.throttle = true then s.bump F.TTH_THROTTLE_US_US 0 10 else s).sensors (padTo 32 none readings) ∧ hot = (List.range
    8).foldl (fun b i => if s1.tempEff b < s1.tempEff i then i else b) 0 ∧ s2 = ((s1.showTemps hot (s1.tempEff hot)).warnStep
    (s1.tempEff hot)).throttleStep (s1.tempEff hot) ∧ s3 = (if s2.tower.critical = false ∧ 1600 ≤ s1.tempEff hot then s2.critHalt
    (s1.tempEff hot) else s2) ∧ s.run = .running :=
  ⟨List.replicate 32 (some 500), up, _, _, _, _, rfl, rfl, rfl, rfl, by decide +kernel⟩

theorem witness_critClear : ∃ (path : Path) (s : State), s.pathMay path R.TTH_CRIT_CLEAR = true ∧ s.Up Page.TTH ∧ s.tower.critical =
    true ∧ ((List.range 8).all fun i => decide (s.tempEff i ≤ 1440)) = true :=
  ⟨.port, cool, by decide +kernel⟩

theorem witness_probeGo : ∃ (path : Path) (s : State) (g : Nat), g = s.sel path F.TWR_PROBE_SEL_GROUP ∧ s.pathMay path
    R.TWR_PROBE_CFG = true ∧ s.Up Page.TWR ∧ s.tower.probe = none ∧ s.tower.selfRefresh = false :=
  ⟨.port, up, _, rfl, by decide +kernel⟩

theorem witness_probeDone : ∃ (fails : Nat) (s : State) (p : Probe) (s1 : State) (c : Nat) (s2 : State), s1 =
    ((({ s with tower := { s.tower with probe := none } } : State).fset F.TWR_PROBE_RES_FAIL_BITS 0 (min fails 0xFFFF)).set0
    F.TWR_PROBE_RES_BUSY).set1 F.TWR_PROBE_RES_DONE ∧ c = s1.fget (tempField (layerOf (8 * p.group))) ∧ s2 = (s1.fset
    F.TWR_PROBE_TEMP_TEMP 0 c).irq Page.TWR 2 ∧ s.Up Page.TWR ∧ s.tower.probe = some p :=
  ⟨0, { up with tower := { up.tower with probe := some ⟨3⟩ } }, ⟨3⟩, _, _, _, rfl, rfl, rfl, by decide +kernel⟩

theorem witness_tthPeakWrite : ∃ (path : Path) (s : State), s.pathMay path R.TTH_PEAK = true ∧ s.Up Page.TTH :=
  ⟨.port, up, by decide +kernel⟩

theorem witness_mapPages : ∃ (p : Fin 8) (s : State) (s1 : State) (d : List Byte), s1 = ((s.qHead .page p.val 2).1).qTake .page
    p.val ∧ s.Up Page.PGM ∧ s.tower.selfRefresh = false ∧ s.fget F.PTC_STAT_STATE p.val ≠ 4 ∧ s.pages.jobs = [] ∧ s.qReady .page
    p.val = true ∧ (s.qHead .page p.val 2).2 = some d ∧ descHeadOk d false = true ∧ fieldLE d 0 1 = 16 ∧ s1.pageReason p.val d = 0
    :=
  ⟨0, queued .page (pageDesc 16 1 1 0 0), _, pageDesc 16 1 1 0 0, rfl, by decide +kernel⟩

theorem witness_unmap : ∃ (p : Fin 8) (s : State) (s1 : State) (d : List Byte), s1 = ((s.qHead .page p.val 2).1).qTake .page p.val ∧
    s.Up Page.PGM ∧ s.tower.selfRefresh = false ∧ s.fget F.PTC_STAT_STATE p.val ≠ 4 ∧ s.pages.jobs = [] ∧ s.qReady .page p.val =
    true ∧ (s.qHead .page p.val 2).2 = some d ∧ descHeadOk d false = true ∧ fieldLE d 0 1 = 17 ∧ s1.pageReason p.val d = 0 :=
  ⟨0, queued .page (pageDesc 17 1 1 0 0), _, pageDesc 17 1 1 0 0, rfl, by decide +kernel⟩

theorem witness_movePages : ∃ (p : Fin 8) (s : State) (s1 : State) (d : List Byte), s1 = ((s.qHead .page p.val 2).1).qTake .page
    p.val ∧ s.Up Page.PGM ∧ s.tower.selfRefresh = false ∧ s.fget F.PTC_STAT_STATE p.val ≠ 4 ∧ s.pages.jobs = [] ∧ s.qReady .page
    p.val = true ∧ (s.qHead .page p.val 2).2 = some d ∧ descHeadOk d false = true ∧ fieldLE d 0 1 = 18 ∧ s1.pageReason p.val d = 0
    :=
  ⟨0, queued .page (pageDesc 18 1 1 0 1), _, pageDesc 18 1 1 0 1, rfl, by decide +kernel⟩

theorem witness_reserveFrames : ∃ (p : Fin 8) (s : State) (s1 : State) (d : List Byte), s1 = ((s.qHead .page p.val 2).1).qTake .page
    p.val ∧ s.Up Page.PGM ∧ s.tower.selfRefresh = false ∧ s.fget F.PTC_STAT_STATE p.val ≠ 4 ∧ s.pages.jobs = [] ∧ s.qReady .page
    p.val = true ∧ (s.qHead .page p.val 2).2 = some d ∧ descHeadOk d false = true ∧ fieldLE d 0 1 = 19 ∧ s1.pageReason p.val d = 0
    :=
  ⟨0, queued .page (pageDesc 19 1 1 0 1), _, pageDesc 19 1 1 0 1, rfl, by decide +kernel⟩

theorem witness_seqAdd : ∃ (p : Fin 8) (s : State) (s1 : State) (d : List Byte), s1 = ((s.qHead .page p.val 2).1).qTake .page p.val
    ∧ s.Up Page.PGM ∧ s.tower.selfRefresh = false ∧ s.fget F.PTC_STAT_STATE p.val ≠ 4 ∧ s.pages.jobs = [] ∧ s.qReady .page p.val =
    true ∧ (s.qHead .page p.val 2).2 = some d ∧ descHeadOk d false = true ∧ fieldLE d 0 1 = 20 ∧ s1.pageReason p.val d = 0 :=
  ⟨0, queued .page (pageDesc 20 1 1 0 0), _, pageDesc 20 1 1 0 0, rfl, by decide +kernel⟩

theorem witness_seqShare : ∃ (p : Fin 8) (s : State) (s1 : State) (d : List Byte), s1 = ((s.qHead .page p.val 2).1).qTake .page
    p.val ∧ s.Up Page.PGM ∧ s.tower.selfRefresh = false ∧ s.fget F.PTC_STAT_STATE p.val ≠ 4 ∧ s.pages.jobs = [] ∧ s.qReady .page
    p.val = true ∧ (s.qHead .page p.val 2).2 = some d ∧ descHeadOk d false = true ∧ fieldLE d 0 1 = 21 ∧ s1.pageReason p.val d = 0
    :=
  ⟨0, queued .page (pageDesc 21 1 1 0 0), _, pageDesc 21 1 1 0 0, rfl, by decide +kernel⟩

theorem witness_seqFree : ∃ (p : Fin 8) (s : State) (s1 : State) (d : List Byte), s1 = ((s.qHead .page p.val 2).1).qTake .page p.val
    ∧ s.Up Page.PGM ∧ s.tower.selfRefresh = false ∧ s.fget F.PTC_STAT_STATE p.val ≠ 4 ∧ s.pages.jobs = [] ∧ s.qReady .page p.val =
    true ∧ (s.qHead .page p.val 2).2 = some d ∧ descHeadOk d false = true ∧ fieldLE d 0 1 = 22 ∧ s1.pageReason p.val d = 0 :=
  ⟨0, queued .page (pageDesc 22 1 1 0 0), _, pageDesc 22 1 1 0 0, rfl, by decide +kernel⟩

theorem witness_cow : ∃ (p : Fin 8) (s : State) (s1 : State) (d : List Byte), s1 = ((s.qHead .page p.val 2).1).qTake .page p.val ∧
    s.Up Page.PGM ∧ s.tower.selfRefresh = false ∧ s.fget F.PTC_STAT_STATE p.val ≠ 4 ∧ s.pages.jobs = [] ∧ s.qReady .page p.val =
    true ∧ (s.qHead .page p.val 2).2 = some d ∧ descHeadOk d false = true ∧ fieldLE d 0 1 = 23 ∧ s1.pageReason p.val d = 0 :=
  ⟨0, queued .page (pageDesc 23 1 1 0 0), _, pageDesc 23 1 1 0 0, rfl, by decide +kernel⟩

theorem witness_pftLookup : ∃ (p : Fin 8) (s : State) (s1 : State) (d : List Byte), s1 = ((s.qHead .page p.val 2).1).qTake .page
    p.val ∧ s.Up Page.PGM ∧ s.tower.selfRefresh = false ∧ s.fget F.PTC_STAT_STATE p.val ≠ 4 ∧ s.pages.jobs = [] ∧ s.qReady .page
    p.val = true ∧ (s.qHead .page p.val 2).2 = some d ∧ descHeadOk d false = true ∧ fieldLE d 0 1 = 24 ∧ s1.pageReason p.val d = 0
    :=
  ⟨0, queued .page (pageDesc 24 16 1 32 0), _, pageDesc 24 16 1 32 0, rfl, by decide +kernel⟩

theorem witness_pftInsert : ∃ (p : Fin 8) (s : State) (s1 : State) (d : List Byte), s1 = ((s.qHead .page p.val 2).1).qTake .page
    p.val ∧ s.Up Page.PGM ∧ s.tower.selfRefresh = false ∧ s.fget F.PTC_STAT_STATE p.val ≠ 4 ∧ s.pages.jobs = [] ∧ s.qReady .page
    p.val = true ∧ (s.qHead .page p.val 2).2 = some d ∧ descHeadOk d false = true ∧ fieldLE d 0 1 = 25 ∧ s1.pageReason p.val d = 0
    :=
  ⟨0, queued .page (pageDesc 25 1 1 0 0), _, pageDesc 25 1 1 0 0, rfl, by decide +kernel⟩

theorem witness_pftRemove : ∃ (p : Fin 8) (s : State) (s1 : State) (d : List Byte), s1 = ((s.qHead .page p.val 2).1).qTake .page
    p.val ∧ s.Up Page.PGM ∧ s.tower.selfRefresh = false ∧ s.fget F.PTC_STAT_STATE p.val ≠ 4 ∧ s.pages.jobs = [] ∧ s.qReady .page
    p.val = true ∧ (s.qHead .page p.val 2).2 = some d ∧ descHeadOk d false = true ∧ fieldLE d 0 1 = 26 ∧ s1.pageReason p.val d = 0
    :=
  ⟨0, queued .page (pageDesc 26 1 1 0 0), _, pageDesc 26 1 1 0 0, rfl, by decide +kernel⟩

theorem witness_page_refused : ∃ (s : State) (p : Nat) (op : Nat) (r : Nat) (s1 : State) (d : List Byte), s1 = ((s.qHead .page p
    2).1).qTake .page p ∧ s.pages.jobs = [] ∧ s.qReady .page p = true ∧ (s.qHead .page p 2).2 = some d ∧ descHeadOk d false = true ∧
    pageOpKnown op = true ∧ fieldLE d 0 1 = op ∧ s1.pageReason p d = r ∧ r ≠ 0 :=
  ⟨queued .page (pageDesc 0x10 1 0 0 0), 0, 16, 4, _, pageDesc 0x10 1 0 0 0, rfl, by decide +kernel⟩

theorem witness_unit_ends : ∃ (s : State) (s1 : State) (p : Nat) (st : Nat) (multi : Bool) (j : PageJob) (j1 : PageJob), s.jobOf p =
    some j ∧ j.ended.length < s.pageUnits p j.desc ∧ s.pageUnit p j.desc j.ended.length = (s1, .ended st, multi) ∧ s1.jobOf p = some
    j1 :=
  ⟨mapped.setJob 0 (some ⟨0, 0, pageDesc 0x11 999 1 0 0, [], false, none⟩), mapped.setJob 0 (some ⟨0, 0, pageDesc 0x11 999 1 0 0,
    [], false, none⟩), 0, 3, false, ⟨0, 0, pageDesc 0x11 999 1 0 0, [], false, none⟩, ⟨0, 0, pageDesc 0x11 999 1 0 0, [], false,
    none⟩, by decide +kernel⟩

theorem witness_map_zero : ∃ (s : State) (s1 : State) (p : Nat) (i : Nat) (d : List Byte) (e : Pme), s1 = (s.pmeRead p (dFirst d % 2
    ^ 24 + i)).1 ∧ (s.pmeRead p (dFirst d % 2 ^ 24 + i)).2 = .pme e ∧ e.state = PgUnmapped ∧ dKind d = 0 :=
  ⟨mapped, _, 0, 0, pageDesc 0x10 1 1 0 0, {}, rfl, by decide +kernel⟩

theorem witness_map_again : ∃ (s : State) (s1 : State) (p : Nat) (i : Nat) (d : List Byte) (e : Pme), s1 = (s.pmeRead p (dFirst d %
    2 ^ 24 + i)).1 ∧ (s.pmeRead p (dFirst d % 2 ^ 24 + i)).2 = .pme e ∧ e.state ≠ PgUnmapped ∧ e.state ≠ PgDropped :=
  ⟨mapped, _, 0, 0, pageDesc 0x10 0 1 0 0, { state := 2, frame := 1 }, rfl, by decide +kernel⟩

theorem witness_unmap_anchored : ∃ (s : State) (s1 : State) (p : Nat) (i : Nat) (d : List Byte) (e : Pme), s1 = (s.pmeRead p (dFirst
    d % 2 ^ 24 + i)).1 ∧ (s.pmeRead p (dFirst d % 2 ^ 24 + i)).2 = .pme e :=
  ⟨mapped, _, 0, 0, pageDesc 0x11 0 1 0 0, { state := 2, frame := 1 }, rfl, by decide +kernel⟩

theorem witness_move_fixed : ∃ (s : State) (s1 : State) (p : Nat) (i : Nat) (d : List Byte) (e : Pme), s1 = (s.pmeRead p (dFirst d %
    2 ^ 24 + i)).1 ∧ (s.pmeRead p (dFirst d % 2 ^ 24 + i)).2 = .pme e ∧ e.state = PgT1 ∧ e.fixed = true :=
  ⟨mapped.setPme 0 0 { state := 2, frame := 1, fixed := true }, _, 0, 0, pageDesc 0x12 0 1 0 2,
    { state := 2, frame := 1, fixed := true }, rfl, by decide +kernel⟩

theorem witness_move_zero : ∃ (s : State) (s1 : State) (p : Nat) (i : Nat) (d : List Byte) (e : Pme), s1 = (s.pmeRead p (dFirst d %
    2 ^ 24 + i)).1 ∧ (s.pmeRead p (dFirst d % 2 ^ 24 + i)).2 = .pme e ∧ e.state = PgZero ∧ e.fixed = false ∧ dKind d = 1 :=
  ⟨mapped.setPme 0 1 { state := 1 }, _, 0, 0, pageDesc 0x12 1 1 0 1, { state := 1 }, rfl, by decide +kernel⟩

theorem witness_reserve_free : ∃ (s : State) (i : Nat) (d : List Byte), s.frameBarred (tierOfKind (dKind d)) (dFirst d + i) = false
    ∧ bit (dFlags d) 3 = false ∧ s.frame (tierOfKind (dKind d)) (dFirst d + i) = .free :=
  ⟨queued .page (pageDesc 0x13 50000 1 0 1), 0, pageDesc 0x13 50000 1 0 1, by decide +kernel⟩

theorem witness_reserve_back : ∃ (s : State) (p : Nat) (i : Nat) (d : List Byte) (c : Bool), s.frameBarred (tierOfKind (dKind d))
    (dFirst d + i) = false ∧ bit (dFlags d) 3 = true ∧ s.frame (tierOfKind (dKind d)) (dFirst d + i) = .reserved p c :=
  ⟨mapped.setFrame .t1 50000 (.reserved 0 true), 0, 0, (pageDesc 0x13 50000 1 0 1).set 25 8, true, by decide +kernel⟩

theorem witness_pageMoveDone : ∃ (p : Fin 8) (page : BitVec 24) (s : State) (m : Move), s.Up Page.PGM ∧ s.tower.selfRefresh = false
    ∧ s.moveOf p.val page.toNat = some m ∧ s.moveBehind m = false ∧ m.tier ≠ 3 :=
  ⟨0, 0, { mapped with pages := { mapped.pages with moves := [⟨0, 0, 2, 1, some 2, 0, 0, 0, [], false, false, 3⟩] } }, ⟨0, 0, 2, 1,
    some 2, 0, 0, 0, [], false, false, 3⟩, by decide +kernel⟩

theorem witness_pinRelease : ∃ (p : Fin 8) (page : BitVec 24) (s : State) (d : Pme) (s1 : State), d = s.pme p.val page.toNat ∧ s1 =
    s.setPme p.val page.toNat { d with pins := d.pins - 1 } ∧ s.Up Page.XLT ∧ s.tower.selfRefresh = false ∧ s.inMap p.val page.toNat
    = true ∧ 0 < d.pins ∧ (s1.pages.linger.find? fun x => x.part == p.val && x.page == page.toNat) = none :=
  ⟨0, 0, mapped.setPme 0 0 { state := 2, frame := 1, pins := 1 }, _, _, rfl, rfl, by decide +kernel⟩

theorem witness_agerPass : ∃ (s : State), s.Up Page.PGM ∧ s.tower.selfRefresh = false ∧ s.fillBehind = false ∧ s.fillNext = none ∧
    max 1 (s.fget F.PGM_AGE_TICKS_TICKS) ≤ s.pages.ageTicks :=
  ⟨aged, by decide +kernel⟩

theorem witness_evict : ∃ (s : State) (s1 : State) (p : Nat) (pg : Nat), s1 = s.updEvicting ∧ s.Up Page.PGM ∧ s.tower.selfRefresh =
    false ∧ s1.moverBusy 2 = false ∧ s1.flag F.PGM_STAT_EVICTING = true ∧ s1.oldest ((s1.poolPages .t1).filter fun x => s1.evictable
    x.1 x.2) = some (p, pg) :=
  ⟨evicting, _, 0, 0, rfl, by decide +kernel⟩

theorem witness_zeroFill : ∃ (t2 : Bool) (frame : Nat) (s : State) (t : Tier), t = (if t2 = true then Tier.t2 else Tier.t1) ∧ s.Up
    Page.PGM ∧ s.tower.selfRefresh = false ∧ s.fillBehind = false ∧ s.fillNext = some (frameKey t frame) ∧ s.frame t frame = .dirty
    :=
  ⟨false, 50000,
    { (mapped.setFrame .t1 50000 .dirty) with pages := { (mapped.setFrame .t1 50000 .dirty).pages with dirtied := [50000] } }, _,
    rfl, by decide +kernel⟩

theorem witness_mapPagesWrite : ∃ (path : Path) (v : Word) (s : State) (p : Nat) (n : Nat) (l : List Nat), p = s.sel path
    F.PGM_PART_SEL_PART ∧ n = min (v.toNat % 2 ^ 25) (2 ^ 24) / 256 * 256 ∧ l = (List.range (mapFrames n)).map (· + s.fget
    F.PGM_MAP_BASE_FRAME p) ∧ s.pathMay path R.PGM_MAP_PAGES = true ∧ s.Up Page.PGM ∧ s.fget F.PGM_MAP_PAGES_PAGES p = 0 ∧ n ≠ 0 ∧
    (∀ f, f ∈ l → f < tierFrames .t1 ∧ s.isSummerhouse f = false ∧ s.inCoded .t1 f = false ∧ (s.frame .t1 f = .free ∨ s.frame .t1 f
    = .dirty ∨ s.frame .t1 f = .kept)) :=
  ⟨.port, 256, up.fset F.PGM_MAP_BASE_FRAME 0 50000, _, _, _, rfl, rfl, rfl, by decide +kernel⟩

theorem witness_map_locked : ∃ (s : State) (p : Nat), s.fget F.PGM_MAP_PAGES_PAGES p ≠ 0 ∧ s.fget F.PTC_STAT_STATE p ≠ 0 :=
  ⟨mapped, 0, by decide +kernel⟩

theorem witness_pft_on : ∃ (path : Path) (s : State), s.pathMay path R.PFT_CFG = true ∧ s.Up Page.PFT ∧ s.flag F.PFT_CFG_ENABLE =
    true :=
  ⟨.port, up.set1 F.PFT_CFG_ENABLE, by decide +kernel⟩

theorem witness_pftEnable : ∃ (path : Path) (v : Word) (s : State) (s1 : State) (lo : Nat) (n : Nat), s1 = (s.fset F.PFT_CFG_LOG2 0
    (clamp 4 17 (bits v.toNat 0 5))).fset F.PFT_CFG_ENABLE 0 (bits v.toNat 8 1) ∧ lo = s1.pftAddr 0 ∧ n = 128 * s1.pftBuckets ∧
    s.pathMay path R.PFT_CFG = true ∧ s.Up Page.PFT ∧ s.flag F.PFT_CFG_ENABLE = false ∧ bit v.toNat 8 = true :=
  ⟨.port, 256, up, _, _, _, rfl, rfl, rfl, by decide +kernel⟩

theorem witness_loan : ∃ (gate : Bool) (src : BitVec 20) (msg : List Byte) (s : State) (s1 : State) (f : Nat) (i : Nat) (s2 :
    State), gate = false ∧ s1 = s.msgIn 7 false gate src.toNat msg ∧ i = freeIndex (s1.pages.loans.map (·.index)) ∧ s2 = s1.setFrame
    .t1 f (.lent src.toNat) ∧ s.Up Page.FBP ∧ s.rxCredits 7 false ≠ 0 ∧ ¬ 262143 < src.toNat ∧ lendOk msg 0x40 = true ∧
    s1.isBorrower src.toNat = true ∧ s1.pages.loans.find? (fun l => l.node == src.toNat && l.req == fieldLE msg 12 4) = none ∧
    s1.pages.loans.length < s1.fget F.PGM_LEND_PAGES_PAGES ∧ s1.findFrame .t1 Frame.isFree = some f :=
  ⟨_, 6, lendMsg 0x40 0 0 9, lending, _, 0, _, _, rfl, rfl, rfl, rfl, by decide +kernel⟩

theorem witness_loan_refused : ∃ (s : State) (src : Nat), s.isBorrower src = false :=
  ⟨up, 0, by decide +kernel⟩

theorem witness_grant : ∃ (gate : Bool) (src : BitVec 20) (msg : List Byte) (s : State) (s1 : State) (l : Nat) (v : Move) (i : Nat)
    (s2 : State), gate = false ∧ s1 = s.msgIn 7 false gate src.toNat msg ∧ i = fieldLE msg 4 4 ∧ s2 = s1.fset F.PGM_BORROWED_PAGES l
    (s1.fget F.PGM_BORROWED_PAGES l + 1) ∧ s.Up Page.FBP ∧ s.rxCredits 7 false ≠ 0 ∧ ¬ 262143 < src.toNat ∧ lendOk msg 0x41 = true ∧
    s1.lenderOf src.toNat = some l ∧ s1.pages.moves.find? (fun v => v.tier == 3 && v.lender == l && v.dst.isNone && v.req == fieldLE
    msg 12 4) = some v ∧ fieldLE msg 8 1 = 0 ∧ fieldLE msg 4 4 < 65536 :=
  ⟨_, 6, lendMsg 0x41 4 0 9, borrowing, _, 0, loanMove, _, _, rfl, rfl, rfl, rfl, by decide +kernel⟩

theorem witness_loanTimeout : ∃ (p : Fin 8) (page : BitVec 24) (s : State) (m : Move), s.Up Page.PGM ∧ s.moveOf p.val page.toNat =
    some m ∧ m.tier = 3 ∧ m.dst = none :=
  ⟨0, 0, borrowing, loanMove, by decide +kernel⟩

theorem witness_returnFrame : ∃ (gate : Bool) (src : BitVec 20) (msg : List Byte) (s : State) (s1 : State) (l : Loan), gate = false
    ∧ s1 = s.msgIn 7 false gate src.toNat msg ∧ s.Up Page.FBP ∧ s.rxCredits 7 false ≠ 0 ∧ ¬ 262143 < src.toNat ∧ lendOk msg 0x42 =
    true ∧ s1.pages.loans.find? (fun l => l.node == src.toNat && l.index == fieldLE msg 4 4) = some l :=
  ⟨_, 6, lendMsg 0x42 0 0 0, lent, _, ⟨0, 0, 6, 9⟩, rfl, rfl, by decide +kernel⟩

theorem witness_revoke : ∃ (gate : Bool) (src : BitVec 20) (msg : List Byte) (s : State) (s1 : State) (l : Nat) (e : Nat × Nat),
    gate = false ∧ s1 = s.msgIn 7 false gate src.toNat msg ∧ s.Up Page.FBP ∧ s.rxCredits 7 false ≠ 0 ∧ ¬ 262143 < src.toNat ∧ lendOk
    msg 0x43 = true ∧ s1.lenderOf src.toNat = some l ∧ s1.pages.borrowed.find? (fun e => e.2 == l * 65536 + fieldLE msg 4 4) = some
    e :=
  ⟨_, 6, lendMsg 0x43 4 0 0, borrowed, _, 0, (0, 4), rfl, rfl, by decide +kernel⟩

theorem witness_lendPagesWrite : ∃ (path : Path) (v : Word) (s : State) (n : Nat) (s1 : State), n = min (v.toNat % 2 ^ 17) 65536 ∧
    s1 = s.fset F.PGM_LEND_PAGES_PAGES 0 n ∧ s.pathMay path R.PGM_LEND_PAGES = true ∧ s.Up Page.PGM :=
  ⟨.port, 0, up, _, _, rfl, rfl, by decide +kernel⟩

theorem witness_revoke_one : ∃ (s : State) (n : Nat) (l : Loan), n < s.pages.loans.length ∧ s.topLoan = some l :=
  ⟨lent, 0, ⟨0, 0, 6, 9⟩, by decide +kernel⟩

theorem witness_lenderNodeWrite : ∃ (path : Path) (v : Word) (s : State) (l : Nat) (s1 : State) (s2 : State) (s3 : State), l = s.sel
    path F.PGM_LENDER_SEL_LENDER ∧ s1 = s.accWrite R.PGM_LENDER_NODE l v.toNat ∧ s2 = (s1.fset F.FBP_PTN_NODE_NODE (lenderEntry l)
    (s1.fget F.PGM_LENDER_NODE_NODE l)).fset F.FBP_PTN_NODE_VALID (lenderEntry l) (s1.fget F.PGM_LENDER_NODE_VALID l) ∧ s3 = (if
    s.flag F.PGM_LENDER_NODE_VALID l = true ∧ s2.lenderInStage l = false then s2.loseLender l 7 else s2) ∧ s.pathMay path
    R.PGM_LENDER_NODE = true ∧ s.Up Page.PGM ∧ bits v.toNat 0 20 ≤ 262143 :=
  ⟨.port, 6, up, _, _, _, _, rfl, rfl, rfl, rfl, by decide +kernel⟩

theorem witness_lenderNodeWrite_bad : ∃ (path : Path) (v : Word) (s : State), s.pathMay path R.PGM_LENDER_NODE = true ∧ s.Up
    Page.PGM ∧ 262143 < bits v.toNat 0 20 :=
  ⟨.port, 0x50000, up, by decide +kernel⟩

theorem witness_borrowerNodeWrite : ∃ (path : Path) (v : Word) (s : State) (b : Nat) (s1 : State), b = s.sel path
    F.PGM_BORROWER_SEL_BORROWER ∧ s1 = s.accWrite R.PGM_BORROWER_NODE b v.toNat ∧ s.pathMay path R.PGM_BORROWER_NODE = true ∧ s.Up
    Page.PGM ∧ s.flag F.PGM_BORROWER_NODE_VALID b = true ∧ bit v.toNat 31 = false ∧ bits v.toNat 0 20 ≤ 262143 :=
  ⟨.port, 0, lent, _, _, rfl, rfl, by decide +kernel⟩

theorem witness_fabLoad : ∃ (hdr : List Byte) (payload : List Byte) (s : State) (t : Txn) (s1 : State), t = Txn.ofHeader hdr payload
    ∧ s1 = s.received t.vc t.resp (hdr ++ payload) ∧ s.Up Page.FBP ∧ s.rxCredits t.vc t.resp ≠ 0 ∧ hdr.length = 32 ∧ crcOk hdr 28 =
    true ∧ t.typ = 1 ∧ t.dst = s1.fget F.FBP_NODE_NODE ∧ t.dst ≤ 262143 ∧ t.src ≤ 262143 :=
  ⟨header 1 2 0 0 0 0 0 16, [], linked, _, _, rfl, rfl, by decide +kernel⟩

theorem witness_fabStore : ∃ (hdr : List Byte) (payload : List Byte) (s : State) (t : Txn) (s1 : State), t = Txn.ofHeader hdr
    payload ∧ s1 = s.received t.vc t.resp (hdr ++ payload) ∧ s.Up Page.FBP ∧ s.rxCredits t.vc t.resp ≠ 0 ∧ hdr.length = 32 ∧ crcOk
    hdr 28 = true ∧ t.typ = 2 ∧ t.dst = s1.fget F.FBP_NODE_NODE ∧ t.dst ≤ 262143 ∧ t.src ≤ 262143 :=
  ⟨header 2 2 0 0 0 0 0 16, [], linked, _, _, rfl, rfl, by decide +kernel⟩

theorem witness_atomic : ∃ (hdr : List Byte) (payload : List Byte) (s : State) (t : Txn) (s1 : State), t = Txn.ofHeader hdr payload
    ∧ s1 = s.received t.vc t.resp (hdr ++ payload) ∧ s.Up Page.FBP ∧ s.rxCredits t.vc t.resp ≠ 0 ∧ hdr.length = 32 ∧ crcOk hdr 28 =
    true ∧ t.typ = 3 ∧ t.dst = s1.fget F.FBP_NODE_NODE ∧ t.dst ≤ 262143 ∧ t.src ≤ 262143 :=
  ⟨header 3 2 1 0 0 0 0 16, [], linked, _, _, rfl, rfl, by decide +kernel⟩

theorem witness_addI32 : ∃ (hdr : List Byte) (payload : List Byte) (s : State) (t : Txn) (s1 : State), t = Txn.ofHeader hdr payload
    ∧ s1 = s.received t.vc t.resp (hdr ++ payload) ∧ s.Up Page.FBP ∧ s.rxCredits t.vc t.resp ≠ 0 ∧ hdr.length = 32 ∧ crcOk hdr 28 =
    true ∧ t.typ = 3 ∧ t.op = 1 ∧ t.dst = s1.fget F.FBP_NODE_NODE ∧ t.dst ≤ 262143 ∧ t.src ≤ 262143 :=
  ⟨header 3 2 1 0 0 0 0 16, [], linked, _, _, rfl, rfl, by decide +kernel⟩

theorem witness_addI64 : ∃ (hdr : List Byte) (payload : List Byte) (s : State) (t : Txn) (s1 : State), t = Txn.ofHeader hdr payload
    ∧ s1 = s.received t.vc t.resp (hdr ++ payload) ∧ s.Up Page.FBP ∧ s.rxCredits t.vc t.resp ≠ 0 ∧ hdr.length = 32 ∧ crcOk hdr 28 =
    true ∧ t.typ = 3 ∧ t.op = 2 ∧ t.dst = s1.fget F.FBP_NODE_NODE ∧ t.dst ≤ 262143 ∧ t.src ≤ 262143 :=
  ⟨header 3 2 2 0 0 0 0 16, [], linked, _, _, rfl, rfl, by decide +kernel⟩

theorem witness_addF32 : ∃ (hdr : List Byte) (payload : List Byte) (s : State) (t : Txn) (s1 : State), t = Txn.ofHeader hdr payload
    ∧ s1 = s.received t.vc t.resp (hdr ++ payload) ∧ s.Up Page.FBP ∧ s.rxCredits t.vc t.resp ≠ 0 ∧ hdr.length = 32 ∧ crcOk hdr 28 =
    true ∧ t.typ = 3 ∧ t.op = 3 ∧ t.dst = s1.fget F.FBP_NODE_NODE ∧ t.dst ≤ 262143 ∧ t.src ≤ 262143 :=
  ⟨header 3 2 3 0 0 0 0 16, [], linked, _, _, rfl, rfl, by decide +kernel⟩

theorem witness_minS32 : ∃ (hdr : List Byte) (payload : List Byte) (s : State) (t : Txn) (s1 : State), t = Txn.ofHeader hdr payload
    ∧ s1 = s.received t.vc t.resp (hdr ++ payload) ∧ s.Up Page.FBP ∧ s.rxCredits t.vc t.resp ≠ 0 ∧ hdr.length = 32 ∧ crcOk hdr 28 =
    true ∧ t.typ = 3 ∧ t.op = 4 ∧ t.dst = s1.fget F.FBP_NODE_NODE ∧ t.dst ≤ 262143 ∧ t.src ≤ 262143 :=
  ⟨header 3 2 4 0 0 0 0 16, [], linked, _, _, rfl, rfl, by decide +kernel⟩

theorem witness_minS64 : ∃ (hdr : List Byte) (payload : List Byte) (s : State) (t : Txn) (s1 : State), t = Txn.ofHeader hdr payload
    ∧ s1 = s.received t.vc t.resp (hdr ++ payload) ∧ s.Up Page.FBP ∧ s.rxCredits t.vc t.resp ≠ 0 ∧ hdr.length = 32 ∧ crcOk hdr 28 =
    true ∧ t.typ = 3 ∧ t.op = 5 ∧ t.dst = s1.fget F.FBP_NODE_NODE ∧ t.dst ≤ 262143 ∧ t.src ≤ 262143 :=
  ⟨header 3 2 5 0 0 0 0 16, [], linked, _, _, rfl, rfl, by decide +kernel⟩

theorem witness_minU32 : ∃ (hdr : List Byte) (payload : List Byte) (s : State) (t : Txn) (s1 : State), t = Txn.ofHeader hdr payload
    ∧ s1 = s.received t.vc t.resp (hdr ++ payload) ∧ s.Up Page.FBP ∧ s.rxCredits t.vc t.resp ≠ 0 ∧ hdr.length = 32 ∧ crcOk hdr 28 =
    true ∧ t.typ = 3 ∧ t.op = 6 ∧ t.dst = s1.fget F.FBP_NODE_NODE ∧ t.dst ≤ 262143 ∧ t.src ≤ 262143 :=
  ⟨header 3 2 6 0 0 0 0 16, [], linked, _, _, rfl, rfl, by decide +kernel⟩

theorem witness_minU64 : ∃ (hdr : List Byte) (payload : List Byte) (s : State) (t : Txn) (s1 : State), t = Txn.ofHeader hdr payload
    ∧ s1 = s.received t.vc t.resp (hdr ++ payload) ∧ s.Up Page.FBP ∧ s.rxCredits t.vc t.resp ≠ 0 ∧ hdr.length = 32 ∧ crcOk hdr 28 =
    true ∧ t.typ = 3 ∧ t.op = 7 ∧ t.dst = s1.fget F.FBP_NODE_NODE ∧ t.dst ≤ 262143 ∧ t.src ≤ 262143 :=
  ⟨header 3 2 7 0 0 0 0 16, [], linked, _, _, rfl, rfl, by decide +kernel⟩

theorem witness_minF32 : ∃ (hdr : List Byte) (payload : List Byte) (s : State) (t : Txn) (s1 : State), t = Txn.ofHeader hdr payload
    ∧ s1 = s.received t.vc t.resp (hdr ++ payload) ∧ s.Up Page.FBP ∧ s.rxCredits t.vc t.resp ≠ 0 ∧ hdr.length = 32 ∧ crcOk hdr 28 =
    true ∧ t.typ = 3 ∧ t.op = 8 ∧ t.dst = s1.fget F.FBP_NODE_NODE ∧ t.dst ≤ 262143 ∧ t.src ≤ 262143 :=
  ⟨header 3 2 8 0 0 0 0 16, [], linked, _, _, rfl, rfl, by decide +kernel⟩

theorem witness_maxS32 : ∃ (hdr : List Byte) (payload : List Byte) (s : State) (t : Txn) (s1 : State), t = Txn.ofHeader hdr payload
    ∧ s1 = s.received t.vc t.resp (hdr ++ payload) ∧ s.Up Page.FBP ∧ s.rxCredits t.vc t.resp ≠ 0 ∧ hdr.length = 32 ∧ crcOk hdr 28 =
    true ∧ t.typ = 3 ∧ t.op = 9 ∧ t.dst = s1.fget F.FBP_NODE_NODE ∧ t.dst ≤ 262143 ∧ t.src ≤ 262143 :=
  ⟨header 3 2 9 0 0 0 0 16, [], linked, _, _, rfl, rfl, by decide +kernel⟩

theorem witness_maxS64 : ∃ (hdr : List Byte) (payload : List Byte) (s : State) (t : Txn) (s1 : State), t = Txn.ofHeader hdr payload
    ∧ s1 = s.received t.vc t.resp (hdr ++ payload) ∧ s.Up Page.FBP ∧ s.rxCredits t.vc t.resp ≠ 0 ∧ hdr.length = 32 ∧ crcOk hdr 28 =
    true ∧ t.typ = 3 ∧ t.op = 10 ∧ t.dst = s1.fget F.FBP_NODE_NODE ∧ t.dst ≤ 262143 ∧ t.src ≤ 262143 :=
  ⟨header 3 2 10 0 0 0 0 16, [], linked, _, _, rfl, rfl, by decide +kernel⟩

theorem witness_maxU32 : ∃ (hdr : List Byte) (payload : List Byte) (s : State) (t : Txn) (s1 : State), t = Txn.ofHeader hdr payload
    ∧ s1 = s.received t.vc t.resp (hdr ++ payload) ∧ s.Up Page.FBP ∧ s.rxCredits t.vc t.resp ≠ 0 ∧ hdr.length = 32 ∧ crcOk hdr 28 =
    true ∧ t.typ = 3 ∧ t.op = 11 ∧ t.dst = s1.fget F.FBP_NODE_NODE ∧ t.dst ≤ 262143 ∧ t.src ≤ 262143 :=
  ⟨header 3 2 11 0 0 0 0 16, [], linked, _, _, rfl, rfl, by decide +kernel⟩

theorem witness_maxU64 : ∃ (hdr : List Byte) (payload : List Byte) (s : State) (t : Txn) (s1 : State), t = Txn.ofHeader hdr payload
    ∧ s1 = s.received t.vc t.resp (hdr ++ payload) ∧ s.Up Page.FBP ∧ s.rxCredits t.vc t.resp ≠ 0 ∧ hdr.length = 32 ∧ crcOk hdr 28 =
    true ∧ t.typ = 3 ∧ t.op = 12 ∧ t.dst = s1.fget F.FBP_NODE_NODE ∧ t.dst ≤ 262143 ∧ t.src ≤ 262143 :=
  ⟨header 3 2 12 0 0 0 0 16, [], linked, _, _, rfl, rfl, by decide +kernel⟩

theorem witness_maxF32 : ∃ (hdr : List Byte) (payload : List Byte) (s : State) (t : Txn) (s1 : State), t = Txn.ofHeader hdr payload
    ∧ s1 = s.received t.vc t.resp (hdr ++ payload) ∧ s.Up Page.FBP ∧ s.rxCredits t.vc t.resp ≠ 0 ∧ hdr.length = 32 ∧ crcOk hdr 28 =
    true ∧ t.typ = 3 ∧ t.op = 13 ∧ t.dst = s1.fget F.FBP_NODE_NODE ∧ t.dst ≤ 262143 ∧ t.src ≤ 262143 :=
  ⟨header 3 2 13 0 0 0 0 16, [], linked, _, _, rfl, rfl, by decide +kernel⟩

theorem witness_cas32 : ∃ (hdr : List Byte) (payload : List Byte) (s : State) (t : Txn) (s1 : State), t = Txn.ofHeader hdr payload ∧
    s1 = s.received t.vc t.resp (hdr ++ payload) ∧ s.Up Page.FBP ∧ s.rxCredits t.vc t.resp ≠ 0 ∧ hdr.length = 32 ∧ crcOk hdr 28 =
    true ∧ t.typ = 3 ∧ t.op = 14 ∧ t.dst = s1.fget F.FBP_NODE_NODE ∧ t.dst ≤ 262143 ∧ t.src ≤ 262143 :=
  ⟨header 3 2 14 0 0 0 0 16, [], linked, _, _, rfl, rfl, by decide +kernel⟩

theorem witness_cas64 : ∃ (hdr : List Byte) (payload : List Byte) (s : State) (t : Txn) (s1 : State), t = Txn.ofHeader hdr payload ∧
    s1 = s.received t.vc t.resp (hdr ++ payload) ∧ s.Up Page.FBP ∧ s.rxCredits t.vc t.resp ≠ 0 ∧ hdr.length = 32 ∧ crcOk hdr 28 =
    true ∧ t.typ = 3 ∧ t.op = 15 ∧ t.dst = s1.fget F.FBP_NODE_NODE ∧ t.dst ≤ 262143 ∧ t.src ≤ 262143 :=
  ⟨header 3 2 15 0 0 0 0 16, [], linked, _, _, rfl, rfl, by decide +kernel⟩

theorem witness_req_gated : ∃ (t : Txn), t.gate = true ∧ t.vc ≠ 0 :=
  ⟨⟨1, 2, false, true, false, false, false, 0, 0, 0, 0, 0, 7, 0, 0, 4, [], none, none, .message, false⟩, by decide +kernel⟩

theorem witness_req_blocked : ∃ (s : State) (t : Txn), t.gate = false ∧ (List.range 16).any (fun b => s.flag F.FBK_BLK_NODE_VALID b
    && s.fget F.FBK_BLK_NODE_NODE b == t.src) = true :=
  ⟨linked.wr R.FBK_BLK_NODE 3 (2 ^ 31), ⟨1, 2, false, false, false, false, false, 0, 0, 0, 0, 0, 7, 0, 0, 4, [], none, none,
    .message, false⟩, by decide +kernel⟩

theorem witness_req_hostile : ∃ (s : State) (t : Txn), t.gate = false ∧ (List.range 16).any (fun b => s.flag F.FBK_BLK_NODE_VALID b
    && s.fget F.FBK_BLK_NODE_NODE b == t.src) = false ∧ sameStage t.src (s.fget F.FBP_NODE_NODE) = false :=
  ⟨up, ⟨1, 2, false, false, false, false, false, 0, 0, 0, 4096, 0, 7, 0, 0, 4, [], none, none, .message, false⟩, by decide +kernel⟩

theorem witness_req_malformed : ∃ (s : State) (t : Txn), t.gate = false ∧ (List.range 16).any (fun b => s.flag F.FBK_BLK_NODE_VALID
    b && s.fget F.FBK_BLK_NODE_NODE b == t.src) = false ∧ sameStage t.src (s.fget F.FBP_NODE_NODE) = true ∧ t.wellFormed = false :=
  ⟨up, ⟨1, 2, false, false, false, false, false, 0, 0, 0, 0, 0, 7, 0, 0, 0, [], none, none, .message, false⟩, by decide +kernel⟩

theorem witness_req_key : ∃ (s : State) (t : Txn), t.gate = false ∧ (List.range 16).any (fun b => s.flag F.FBK_BLK_NODE_VALID b &&
    s.fget F.FBK_BLK_NODE_NODE b == t.src) = false ∧ sameStage t.src (s.fget F.FBP_NODE_NODE) = true ∧ t.wellFormed = true ∧
    s.reqTarget t = none :=
  ⟨up, ⟨1, 2, false, false, false, false, false, 0, 0, 0, 0, 0, 7, 0, 0, 4, [], none, none, .message, false⟩, by decide +kernel⟩

theorem witness_req_resetting : ∃ (s : State) (t : Txn) (p : Nat) (a : Nat) (q : Option Nat), t.gate = false ∧ (List.range 16).any
    (fun b => s.flag F.FBK_BLK_NODE_VALID b && s.fget F.FBK_BLK_NODE_NODE b == t.src) = false ∧ sameStage t.src (s.fget
    F.FBP_NODE_NODE) = true ∧ t.wellFormed = true ∧ s.reqTarget t = some (.addr p q a) ∧ s.fget F.PTC_STAT_STATE p = 4 :=
  ⟨regioned.fset F.PTC_STAT_STATE 0 4, ⟨1, 2, false, false, false, false, false, 0, 0, 0, 0, 0, 7, 0, 0, 4, [], none, none,
    .message, false⟩, 0, 0, none, by decide +kernel⟩

theorem witness_req_made : ∃ (s : State) (t : Txn) (p : Nat) (a : Nat) (q : Option Nat), t.gate = false ∧ (List.range 16).any (fun b
    => s.flag F.FBK_BLK_NODE_VALID b && s.fget F.FBK_BLK_NODE_NODE b == t.src) = false ∧ sameStage t.src (s.fget F.FBP_NODE_NODE) =
    true ∧ t.wellFormed = true ∧ s.reqTarget t = some (.addr p q a) ∧ s.fget F.PTC_STAT_STATE p ≠ 4 :=
  ⟨regioned, ⟨1, 2, false, false, false, false, false, 0, 0, 0, 0, 0, 7, 0, 0, 4, [], none, none, .message, false⟩, 0, 0, none,
    by decide +kernel⟩

theorem witness_req_lent : ∃ (s : State) (t : Txn) (f : Nat) (off : Nat), t.gate = false ∧ (List.range 16).any (fun b => s.flag
    F.FBK_BLK_NODE_VALID b && s.fget F.FBK_BLK_NODE_NODE b == t.src) = false ∧ sameStage t.src (s.fget F.FBP_NODE_NODE) = true ∧
    t.wellFormed = true ∧ s.reqTarget t = some (.lent f off) ∧ t.count = 0 :=
  ⟨lent, ⟨1, 7, false, false, false, false, false, 0, 0, 0, 6, 0, 0, 0, 0, 4, [], none, none, .message, false⟩, 0, 0,
    by decide +kernel⟩

theorem witness_atom_width : ∃ (op : Nat), 1 ≤ op ∧ op ≤ 15 :=
  ⟨1, by decide +kernel⟩

theorem witness_fabGet : ∃ (p : Fin 8) (s : State) (s1 : State) (d : List Byte), s1 = (s.qHead .fabric p.val 2).1 ∧ s.Up Page.FBP ∧
    s.fget F.PTC_STAT_STATE p.val ≠ 0 ∧ s.fget F.PTC_STAT_STATE p.val ≠ 4 ∧ s.qReady .fabric p.val = true ∧ (s.qHead .fabric p.val
    2).2 = some d ∧ (bit (fieldLE d 2 1) 1 = false ∨ (s1.fab.jobs.any fun x => x.part == p.val) = false) ∧ descHeadOk d false = true
    ∧ fieldLE d 0 1 = 32 :=
  ⟨0, queued .fabric (fabDesc 32), _, fabDesc 32, rfl, by decide +kernel⟩

theorem witness_fabPut : ∃ (p : Fin 8) (s : State) (s1 : State) (d : List Byte), s1 = (s.qHead .fabric p.val 2).1 ∧ s.Up Page.FBP ∧
    s.fget F.PTC_STAT_STATE p.val ≠ 0 ∧ s.fget F.PTC_STAT_STATE p.val ≠ 4 ∧ s.qReady .fabric p.val = true ∧ (s.qHead .fabric p.val
    2).2 = some d ∧ (bit (fieldLE d 2 1) 1 = false ∨ (s1.fab.jobs.any fun x => x.part == p.val) = false) ∧ descHeadOk d false = true
    ∧ fieldLE d 0 1 = 33 :=
  ⟨0, queued .fabric (fabDesc 33), _, fabDesc 33, rfl, by decide +kernel⟩

theorem witness_atomicDescriptor : ∃ (p : Fin 8) (s : State) (s1 : State) (d : List Byte), s1 = (s.qHead .fabric p.val 2).1 ∧ s.Up
    Page.FBP ∧ s.fget F.PTC_STAT_STATE p.val ≠ 0 ∧ s.fget F.PTC_STAT_STATE p.val ≠ 4 ∧ s.qReady .fabric p.val = true ∧ (s.qHead
    .fabric p.val 2).2 = some d ∧ (bit (fieldLE d 2 1) 1 = false ∨ (s1.fab.jobs.any fun x => x.part == p.val) = false) ∧ descHeadOk
    d false = true ∧ fieldLE d 0 1 = 34 :=
  ⟨0, queued .fabric (fabDesc 34), _, fabDesc 34, rfl, by decide +kernel⟩

theorem witness_fab_taken : ∃ (s : State) (p : Nat) (d : List Byte), (s.qTake .fabric p).fabReason p d = 0 :=
  ⟨partnered, 0, fabDesc 0x20, by decide +kernel⟩

theorem witness_transactionSend : ∃ (vc : Fin 8) (s : State) (s1 : State) (c : Nat) (drr : Bool), s1 = s.dropOutOfStage.countHeld ∧
    s.Up Page.FBP ∧ s.flag F.FBP_CTRL_EN = true ∧ s.flag F.FBP_STAT_LINK_UP = true ∧ s1.pickChannel vc.val = some (c, drr) :=
  ⟨3, sendingOn 3, _, 3, true, rfl, by decide +kernel⟩

theorem witness_nothing_to_send : ∃ (vc : Fin 8) (s : State) (s1 : State), s1 = s.dropOutOfStage.countHeld ∧ s.Up Page.FBP ∧ s.flag
    F.FBP_CTRL_EN = true ∧ s.flag F.FBP_STAT_LINK_UP = true ∧ s1.pickChannel vc.val = none :=
  ⟨0, linked, _, rfl, by decide +kernel⟩

theorem witness_vc0_first : ∃ (s : State), s.chanReady 0 = true ∧ s.sentOf 0 16 = 0 :=
  ⟨sendingOn 0, by decide +kernel⟩

theorem witness_vc1_minimum : ∃ (s : State), s.sentOf 0 16 ≠ 0 ∧ s.chanReady 1 = true ∧ s.sentOf 1 64 < s.fget F.FVC_VC1_MIN_MIN :=
  ⟨{ sendingOn 1 with fab := { (sendingOn 1).fab with history := [0] } }.fset F.FVC_VC1_MIN_MIN 0 8, by decide +kernel⟩

theorem witness_goes_on : ∃ (s : State) (c : Nat) (g : Going), s.goingOn c = some g :=
  ⟨{ linked with fab := { linked.fab with going := [⟨0, List.replicate 200 0, ⟨4, 1, false, false, false, false, true, 0, 0, 0, 0, 0, 7, 0, 0, 4, [], none, none, .message, false⟩⟩] } },
    1, ⟨0, List.replicate 200 0, ⟨4, 1, false, false, false, false, true, 0, 0, 0, 0, 0, 7, 0, 0, 4, [], none, none, .message,
    false⟩⟩, by decide +kernel⟩

theorem witness_next_on : ∃ (s : State) (c : Nat) (i : Nat), s.goingOn c = none ∧ s.nextOn c = some i :=
  ⟨sendingOn 1, 1, 0, by decide +kernel⟩

theorem witness_send_answer : ∃ (s : State) (i : Nat) (t : Txn) (t1 : Txn), t1 =
    { t with gate := s.flag F.FBP_STAT_GATE_OPENED, src := s.fget F.FBP_NODE_NODE } ∧ s.fab.txq[i]? = some t ∧ t.entry = none :=
  ⟨sendingOn 3, 0, ⟨4, 3, false, false, false, false, true, 0, 0, 0, 0, 0, 7, 0, 0, 4, [], none, none, .message, false⟩, _, rfl,
    by decide +kernel⟩

theorem witness_flit_of_many : ∃ (g : Going), 128 < g.rest.length :=
  ⟨⟨0, List.replicate 200 0, ⟨4, 1, false, false, false, false, true, 0, 0, 0, 0, 0, 7, 0, 0, 4, [], none, none, .message, false⟩⟩,
    by decide +kernel⟩

theorem witness_flit_last : ∃ (g : Going), g.rest.length ≤ 128 :=
  ⟨⟨0, List.replicate 100 0, ⟨4, 1, false, false, false, false, true, 0, 0, 0, 0, 0, 7, 0, 0, 4, [], none, none, .message, false⟩⟩,
    by decide +kernel⟩

theorem witness_response : ∃ (hdr : List Byte) (payload : List Byte) (s : State) (t : Txn) (s1 : State) (f : Flight), t =
    Txn.ofHeader hdr payload ∧ s1 = s.received t.vc t.resp (hdr ++ payload) ∧ s.Up Page.FBP ∧ s.rxCredits t.vc t.resp ≠ 0 ∧
    hdr.length = 32 ∧ crcOk hdr 28 = true ∧ t.typ = 4 ∧ t.dst = s1.fget F.FBP_NODE_NODE ∧ t.dst ≤ 262143 ∧ t.src ≤ 262143 ∧ t.gate =
    false ∧ (s1.fab.flight.find? fun f => f.tag == t.tag % 4096 && f.gen == t.tag / 4096 && s1.fget F.FBP_PTN_NODE_NODE f.entry ==
    t.src) = some f :=
  ⟨header 4 (3 + 128) 0 0 3 0 0 0, [],
    { linked with fab := { linked.fab with flight := [⟨5, 3, 0, ⟨1, 2, false, false, false, false, false, 0, 0, 0, 0, 0, 7, 0, 0, 4, [], none, some 5, .message, false⟩⟩] } },
    _, _, ⟨5, 3, 0, ⟨1, 2, false, false, false, false, false, 0, 0, 0, 0, 0, 7, 0, 0, 4, [], none, some 5, .message, false⟩⟩, rfl,
    rfl, by decide +kernel⟩

theorem witness_response_stale : ∃ (s : State) (t : Txn), (s.fab.flight.find? fun f => f.tag == t.tag % 4096 && f.gen == t.tag /
    4096 && s.fget F.FBP_PTN_NODE_NODE f.entry == t.src) = none :=
  ⟨up, ⟨4, 3, false, false, false, false, true, 0, 0, 0, 0, 0, 7, 0, 0, 4, [], none, none, .message, false⟩, by decide +kernel⟩

theorem witness_msTimeout : ∃ (entry : Fin 4096) (tag : Fin 4096) (s : State) (f : Flight) (s1 : State), s1 =
    { s with fab := { s.fab with flight := s.fab.flight.filter (· != f), quar := nsAdd s.fab.quar (entry.val * 4096 + tag.val) } } ∧
    s.Up Page.FBP ∧ (s.fab.flight.find? fun f => f.entry == entry.val && f.tag == tag.val) = some f ∧ entry.val < 4080 :=
  ⟨5, 3,
    { linked with fab := { linked.fab with flight := [⟨5, 3, 0, ⟨1, 2, false, false, false, false, false, 0, 0, 0, 0, 0, 7, 0, 0, 4, [], none, some 5, .message, false⟩⟩] } },
    ⟨5, 3, 0, ⟨1, 2, false, false, false, false, false, 0, 0, 0, 0, 0, 7, 0, 0, 4, [], none, some 5, .message, false⟩⟩, _, rfl,
    by decide +kernel⟩

theorem witness_generationStep : ∃ (entry : Fin 4096) (s : State), s.Up Page.FBP ∧ (s.fab.quar.any fun k => k / 4096 == entry.val) =
    true :=
  ⟨0, { linked with fab := { linked.fab with quar := [3] } }, by decide +kernel⟩

theorem witness_teardown : ∃ (hdr : List Byte) (payload : List Byte) (s : State) (t : Txn) (s1 : State) (p : Nat), t = Txn.ofHeader
    hdr payload ∧ s1 = s.received t.vc t.resp (hdr ++ payload) ∧ s.Up Page.FBP ∧ s.rxCredits t.vc t.resp ≠ 0 ∧ hdr.length = 32 ∧
    crcOk hdr 28 = true ∧ t.typ = 6 ∧ t.dst = s1.fget F.FBP_NODE_NODE ∧ t.dst ≤ 262143 ∧ t.src ≤ 262143 ∧ t.vc = 0 ∧ s1.flag
    F.FBP_FM_NODE_VALID = true ∧ t.src = s1.fget F.FBP_FM_NODE_NODE ∧ ((List.range 8).find? fun p => s1.flag F.FBP_PART_JOB_VALID p
    && s1.fget F.FBP_PART_JOB_JOB p == t.key % 65536) = some p ∧ Part.state s1 p ≠ 0 ∧ Part.state s1 p ≠ 4 :=
  ⟨header 6 0 0 0 0 7 0 0, [], torn, _, _, 0, rfl, rfl, by decide +kernel⟩

theorem witness_teardown_hostile : ∃ (hdr : List Byte) (payload : List Byte) (s : State) (t : Txn) (s1 : State), t = Txn.ofHeader
    hdr payload ∧ s1 = s.received t.vc t.resp (hdr ++ payload) ∧ s.Up Page.FBP ∧ s.rxCredits t.vc t.resp ≠ 0 ∧ hdr.length = 32 ∧
    crcOk hdr 28 = true ∧ t.typ = 6 ∧ t.dst = s1.fget F.FBP_NODE_NODE ∧ t.dst ≤ 262143 ∧ t.src ≤ 262143 ∧ t.gate = false ∧ s1.flag
    F.FBP_FM_NODE_VALID = false :=
  ⟨header 6 0 0 0 0 7 0 0, [], linked, _, _, rfl, rfl, by decide +kernel⟩

theorem witness_fabricEnable : ∃ (path : Path) (s : State), s.pathMay path R.FBP_CTRL = true ∧ s.Up Page.FBP :=
  ⟨.port, up, by decide +kernel⟩

theorem witness_partnerWrite : ∃ (path : Path) (v : Word) (s : State) (e : Nat), e = s.sel path F.FBP_PTN_SEL_ENTRY ∧ s.pathMay path
    R.FBP_PTN_NODE = true ∧ s.Up Page.FBP ∧ e < 4080 ∧ bits v.toNat 0 20 ≤ 262143 :=
  ⟨.port, 6, up, _, rfl, by decide +kernel⟩

theorem witness_regionEntryWrite : ∃ (path : Path) (off : BitVec 12) (v : Word) (s : State) (a : Nat) (s1 : State) (e : Nat), a =
    Page.FBK * 0x1000 + off.toNat ∧ s1 = s.pathWrite path a v.toNat ∧ e = s.sel path F.FBK_REG_SEL_ENTRY ∧ s.pathMay path a = true ∧
    s.Up Page.FBK ∧ [R.FBK_REG_KEY, R.FBK_REG_BASE, R.FBK_REG_LEN_LO, R.FBK_REG_LEN_HI, R.FBK_REG_CFG, R.FBK_KX_CFG, R.FBK_KX_VA,
    R.FBK_KX_PAGES, R.FBK_KX_BASE].contains a = true :=
  ⟨.port, BitVec.ofNat 12 (R.FBK_REG_KEY % 4096), 7, up, _, _, _, rfl, rfl, rfl, by decide +kernel⟩

theorem witness_blockRemove : ∃ (path : Path) (s : State), s.pathMay path R.FBK_BLK_NODE = true ∧ s.Up Page.FBK :=
  ⟨.port, up, by decide +kernel⟩

theorem witness_fvcBufWrite : ∃ (path : Path) (v : Word) (s : State) (c : Nat), c = s.sel path F.FVC_BUF_SEL_VC ∧ s.pathMay path
    R.FVC_BUF = true ∧ s.Up Page.FVC ∧ s.flag F.FBP_CTRL_EN = false ∧ (List.range 8).foldl (fun a x => a + if x = c then bits
    v.toNat 0 13 else s.fget F.FVC_BUF_SIZE x) 0 ≤ 4096 ∧ bits v.toNat 16 13 ≤ bits v.toNat 0 13 :=
  ⟨.port, 64, up, _, rfl, by decide +kernel⟩

theorem witness_buf_refused : ∃ (s : State), s.flag F.FBP_CTRL_EN = true :=
  ⟨linked, by decide +kernel⟩

theorem witness_linkUp : ∃ (s : State), s.run = .running ∧ s.flag F.FBP_STAT_LINK_UP = false :=
  ⟨up, by decide +kernel⟩

theorem witness_linkDown : ∃ (s : State), s.run = .running ∧ s.flag F.FBP_STAT_LINK_UP = true :=
  ⟨linked, by decide +kernel⟩

theorem witness_linkRetry : ∃ (s : State), s.run = .running :=
  ⟨up, by decide +kernel⟩

theorem witness_creditReturn : ∃ (s : State), s.run = .running ∧ s.flag F.FBP_STAT_LINK_UP = true :=
  ⟨linked, by decide +kernel⟩

theorem witness_install_col_refused : ∃ (path : Path) (s : State) (g : Nat) (r : Nat) (m : State × Option (List (Option Nat))) (own
    : List (Option Nat)), g = s.sel path F.COL_GRP_SEL_ENTRY ∧ m = s.colMembers g (s.grpShape (s.fget F.COL_GRP_CFG_PART g)
    (s.grpAxes g)).2 1 ∧ r = m.1.colInstallReason g own.head?.join ∧ s.pathMay path R.COL_GRP_CMD = true ∧ s.Up Page.COL ∧ m.2 =
    some own ∧ r ≠ 0 :=
  ⟨.port, up, _, _, _, [none], rfl, rfl, rfl, by decide +kernel⟩

theorem witness_colInstall : ∃ (path : Path) (s : State) (g : Nat) (m : State × Option (List (Option Nat))) (own : List (Option
    Nat)) (s1 : State) (q : Nat × Nat), g = s.sel path F.COL_GRP_SEL_ENTRY ∧ m = s.colMembers g (s.grpShape (s.fget
    F.COL_GRP_CFG_PART g) (s.grpAxes g)).2 1 ∧ s1 = ({ m.1 with col := { m.1.col with installs := m.1.col.installs.erase g } } :
    State).fset F.COL_GRP_STAT_REASON g 0 ∧ q = s1.grpShape (s1.fget F.COL_GRP_CFG_PART g) (s1.grpAxes g) ∧ s.pathMay path
    R.COL_GRP_CMD = true ∧ s.Up Page.COL ∧ m.2 = some own ∧ m.1.colInstallReason g own.head?.join = 0 :=
  ⟨.port, grouping, _, _, [some 0], _, _, rfl, rfl, rfl, rfl, by decide +kernel⟩

theorem witness_install_col_waits : ∃ (path : Path) (s : State) (g : Nat) (r : Nat) (m : State × Option (List (Option Nat))), g =
    s.sel path F.COL_GRP_SEL_ENTRY ∧ m = s.colMembers g (s.grpShape (s.fget F.COL_GRP_CFG_PART g) (s.grpAxes g)).2 1 ∧ r =
    m.1.colInstallReason g (some (m.1.fget F.FBP_NODE_NODE)) ∧ s.pathMay path R.COL_GRP_CMD = true ∧ s.Up Page.COL ∧ m.2 = none ∧ ¬
    (1 ≤ r ∧ r ≤ 4) :=
  ⟨.port, grouping.setPme 0 0 { state := 4, frame := 1 }, _, _, _, rfl, rfl, rfl, by decide +kernel⟩

theorem witness_colRemove : ∃ (path : Path) (s : State) (g : Nat), g = s.sel path F.COL_GRP_SEL_ENTRY ∧ s.pathMay path R.COL_GRP_CMD
    = true ∧ s.Up Page.COL ∧ (s.col.jobs.any fun x => x.group == g && x.ended.isNone) = false :=
  ⟨.port, up, _, rfl, by decide +kernel⟩

theorem witness_allReduce : ∃ (part : Fin 8) (s : State) (s1 : State) (d : List Byte), s1 = (s.qHead .collective part.val 2).1 ∧
    s.Up Page.COL ∧ s.colJob part.val = none ∧ s.fget F.PTC_STAT_STATE part.val ≠ 0 ∧ s.fget F.PTC_STAT_STATE part.val ≠ 4 ∧
    s.qReady .collective part.val = true ∧ (s.qHead .collective part.val 2).2 = some d ∧ descHeadOk d false = true ∧ fieldLE d 0 1 =
    48 :=
  ⟨0, queued .collective (colDesc 48 4), _, colDesc 48 4, rfl, by decide +kernel⟩

theorem witness_reduceScatter : ∃ (part : Fin 8) (s : State) (s1 : State) (d : List Byte), s1 = (s.qHead .collective part.val 2).1 ∧
    s.Up Page.COL ∧ s.colJob part.val = none ∧ s.fget F.PTC_STAT_STATE part.val ≠ 0 ∧ s.fget F.PTC_STAT_STATE part.val ≠ 4 ∧
    s.qReady .collective part.val = true ∧ (s.qHead .collective part.val 2).2 = some d ∧ descHeadOk d false = true ∧ fieldLE d 0 1 =
    49 :=
  ⟨0, queued .collective (colDesc 49 4), _, colDesc 49 4, rfl, by decide +kernel⟩

theorem witness_allGather : ∃ (part : Fin 8) (s : State) (s1 : State) (d : List Byte), s1 = (s.qHead .collective part.val 2).1 ∧
    s.Up Page.COL ∧ s.colJob part.val = none ∧ s.fget F.PTC_STAT_STATE part.val ≠ 0 ∧ s.fget F.PTC_STAT_STATE part.val ≠ 4 ∧
    s.qReady .collective part.val = true ∧ (s.qHead .collective part.val 2).2 = some d ∧ descHeadOk d false = true ∧ fieldLE d 0 1 =
    50 :=
  ⟨0, queued .collective (colDesc 50 4), _, colDesc 50 4, rfl, by decide +kernel⟩

theorem witness_broadcast : ∃ (part : Fin 8) (s : State) (s1 : State) (d : List Byte), s1 = (s.qHead .collective part.val 2).1 ∧
    s.Up Page.COL ∧ s.colJob part.val = none ∧ s.fget F.PTC_STAT_STATE part.val ≠ 0 ∧ s.fget F.PTC_STAT_STATE part.val ≠ 4 ∧
    s.qReady .collective part.val = true ∧ (s.qHead .collective part.val 2).2 = some d ∧ descHeadOk d false = true ∧ fieldLE d 0 1 =
    51 :=
  ⟨0, queued .collective (colDesc 51 4), _, colDesc 51 4, rfl, by decide +kernel⟩

theorem witness_allToAll : ∃ (part : Fin 8) (s : State) (s1 : State) (d : List Byte), s1 = (s.qHead .collective part.val 2).1 ∧ s.Up
    Page.COL ∧ s.colJob part.val = none ∧ s.fget F.PTC_STAT_STATE part.val ≠ 0 ∧ s.fget F.PTC_STAT_STATE part.val ≠ 4 ∧ s.qReady
    .collective part.val = true ∧ (s.qHead .collective part.val 2).2 = some d ∧ descHeadOk d false = true ∧ fieldLE d 0 1 = 52 :=
  ⟨0, queued .collective (colDesc 52 4), _, colDesc 52 4, rfl, by decide +kernel⟩

theorem witness_colBarrier : ∃ (part : Fin 8) (s : State) (s1 : State) (d : List Byte), s1 = (s.qHead .collective part.val 2).1 ∧
    s.Up Page.COL ∧ s.colJob part.val = none ∧ s.fget F.PTC_STAT_STATE part.val ≠ 0 ∧ s.fget F.PTC_STAT_STATE part.val ≠ 4 ∧
    s.qReady .collective part.val = true ∧ (s.qHead .collective part.val 2).2 = some d ∧ descHeadOk d false = true ∧ fieldLE d 0 1 =
    53 :=
  ⟨0, queued .collective (colDesc 53 4), _, colDesc 53 4, rfl, by decide +kernel⟩

theorem witness_kvRing : ∃ (part : Fin 8) (s : State) (s1 : State) (d : List Byte), s1 = (s.qHead .collective part.val 2).1 ∧ s.Up
    Page.COL ∧ s.colJob part.val = none ∧ s.fget F.PTC_STAT_STATE part.val ≠ 0 ∧ s.fget F.PTC_STAT_STATE part.val ≠ 4 ∧ s.qReady
    .collective part.val = true ∧ (s.qHead .collective part.val 2).2 = some d ∧ descHeadOk d false = true ∧ fieldLE d 0 1 = 54 :=
  ⟨0, queued .collective (colDesc 54 4), _, colDesc 54 4, rfl, by decide +kernel⟩

theorem witness_col_refused : ∃ (s : State) (p : Nat) (r : Nat) (d : List Byte) (q : State × List (Option Byte) × Span), q = (if
    cdWeights d = true then s.readRange 2 p (s.fget F.UPD_LTAB_BASE_BASE p * 4096 + 64 * fieldLE d 36 2) 64 else (s, [], .ok)) ∧
    q.2.2 ≠ .wait ∧ q.1.colReason p d (q.2.1.map (·.getD 0xFF)) = r ∧ r ≠ 0 :=
  ⟨mapped, 0, 3, colDesc 0x35 1, _, rfl, by decide +kernel⟩

theorem witness_col_started : ∃ (s : State) (p : Nat) (i : Nat) (g : Nat) (d : List Byte) (m : State × Option (List (Option Nat)))
    (nodes : List (Option Nat)) (s1 : State) (s2 : State) (x : ColJob), g = cdGroup d ∧ m = s.colMembers g 0 (s.fget
    F.COL_GRP_STAT_MEMBERS g) ∧ s1 = m.1 ∧ x = ⟨p, i, d, g, (alGet s1.col.seqs g).getD 0 + 1, s1.fget F.COL_GRP_STAT_MEMBERS g,
    s1.fget F.COL_GRP_STAT_RANK g, s1.cdWide d (s1.fget F.COL_GRP_STAT_MEMBERS g), 1, false, 0, [], 1, none, 0, 0, s1.tick.hall,
    s1.tick.hall, none, [], [], none, false, nodes, ldAddr d 20, none, false⟩ ∧ s2 = s1.qTake .collective p ∧ s.colReason p d [] = 0
    ∧ cdWeights d = false ∧ m.2 = some nodes ∧ x.local_ = none :=
  ⟨colled, 0, 0, _, colDesc 0x35 0, _, [none, none], _, _, _, rfl, rfl, rfl, rfl, rfl, by decide +kernel⟩

theorem witness_colSegment : ∃ (gate : Bool) (src : BitVec 20) (msg : List Byte) (s : State) (s1 : State) (s2 : State) (g : Nat) (x
    : ColJob) (t : ColStep), gate = false ∧ s1 = s.msgIn (s.colVc msg) false gate src.toNat msg ∧ s2 = (s1.colHead msg 0x20).1 ∧ t =
    x.step x.rcv ∧ s.Up Page.FBP ∧ s.rxCredits (s.colVc msg) false ≠ 0 ∧ ¬ 262143 < src.toNat ∧ (s1.colHead msg 0x20).2 = some g ∧
    s2.groupJob g = some x ∧ fieldLE msg 4 4 = x.seq ∧ fieldLE msg 8 2 = x.rcv ∧ x.rcv ≤ x.total ∧ x.asked = true ∧ t.from_ = some
    (fieldLE msg 10 2) ∧ fieldLE msg 12 4 + fieldLE msg 16 4 ≤ t.len :=
  ⟨_, 1, colMsg 0x20 1 [1, 2], gathering 0x32 true, _, _, 0, colJobOf 0x32 true, _, rfl, rfl, rfl, rfl, by decide +kernel⟩

theorem witness_colSegment_stale : ∃ (gate : Bool) (src : BitVec 20) (msg : List Byte) (s : State) (s1 : State) (s2 : State) (g :
    Nat), s1 = s.msgIn (s.colVc msg) false gate src.toNat msg ∧ s2 = (s1.colHead msg 0x20).1 ∧ s.Up Page.FBP ∧ s.rxCredits (s.colVc
    msg) false ≠ 0 ∧ ¬ 262143 < src.toNat ∧ gate = false ∧ (s1.colHead msg 0x20).2 = some g ∧ s2.groupJob g = none :=
  ⟨false, 1, colMsg 0x20 1 [1, 2], { colled with col := { colled.col with seqs := [(0, 1)] } }, _, _, 0, rfl, rfl,
    by decide +kernel⟩

theorem witness_col_head : ∃ (msg : List Byte) (typ : Nat), crcOk msg 28 = true ∧ fieldLE msg 24 4 = crc32c ((msg.drop 32).take
    (fieldLE msg 16 4)) ∧ fieldLE msg 0 1 = typ ∧ fieldLE msg 1 1 = 1 :=
  ⟨colMsg 0x20 1 [1, 2], 0x20, by decide +kernel⟩

theorem witness_colReady : ∃ (gate : Bool) (src : BitVec 20) (msg : List Byte) (s : State) (s1 : State) (s2 : State) (g : Nat), s1 =
    s.msgIn (s.colVc msg) false gate src.toNat msg ∧ s2 = (s1.colHead msg 0x21).1 ∧ s.Up Page.FBP ∧ s.rxCredits (s.colVc msg) false
    ≠ 0 ∧ ¬ 262143 < src.toNat ∧ gate = false ∧ (s1.colHead msg 0x21).2 = some g ∧ (alGet s2.col.seqs g).getD 0 < fieldLE msg 4 4 :=
  by (refine ⟨false, 1, colMsg 0x21 1 [], colled, _, _, 0, rfl, rfl, ?_⟩; unfold State.colVc; generalize Config.weightsChannel _ =
    w; revert w; decide +kernel)

theorem witness_barrierArrival : ∃ (gate : Bool) (src : BitVec 20) (msg : List Byte) (s : State) (s1 : State) (s2 : State) (g : Nat)
    (h : ColHeld), gate = false ∧ s1 = s.msgIn 4 false gate src.toNat msg ∧ s2 = (s1.colHead msg 0x22).1 ∧ h = ⟨g, fieldLE msg 10 2,
    fieldLE msg 4 4, fieldLE msg 8 2⟩ ∧ s.Up Page.FBP ∧ s.rxCredits 4 false ≠ 0 ∧ ¬ 262143 < src.toNat ∧ (s1.colHead msg 0x22).2 =
    some g ∧ (alGet s2.col.seqs g).getD 0 < fieldLE msg 4 4 ∧ s2.col.arrived.contains h = false :=
  ⟨_, 1, colMsg 0x22 1 [], colled, _, _, 0, _, rfl, rfl, rfl, rfl, by decide +kernel⟩

theorem witness_colTimeout : ∃ (part : Fin 8) (s : State) (x : ColJob) (s1 : State), s1 = (if x.rcv ≤ x.total ∧ (x.step x.rcv).mode
    = .lanes ∧ x.asked = true then s.setFrag (cdFrag x.desc + x.reduceIndex x.rcv) 3 none else s) ∧ s.Up Page.COL ∧ s.colJob
    part.val = some x ∧ x.ended.isSome = false ∧ ((x.waitsData = true ∧ x.since + 1000 * clamp 10 60000 (s.fget F.COL_TIMEOUT_US) <
    s.tick.hall) ∨ (s.waitsReady x = true ∧ x.sinceSnd + 1000 * clamp 10 60000 (s.fget F.COL_TIMEOUT_US) < s.tick.hall)) :=
  ⟨0, { gathering 0x32 true with tick := { up.tick with hall := 100000000 } }, colJobOf 0x32 true, _, rfl, by decide +kernel⟩

theorem witness_archiveArm : ∃ (path : Path) (s : State) (p : Nat), p = s.sel path F.ARC_PART_SEL_PART ∧ s.pathMay path R.ARC_CMD =
    true ∧ s.Up Page.ARC ∧ s.arcReason p = 0 :=
  ⟨.port, armable, _, rfl, by decide +kernel⟩

theorem witness_archiveArm_refused : ∃ (path : Path) (s : State) (p : Nat), p = s.sel path F.ARC_PART_SEL_PART ∧ s.pathMay path
    R.ARC_CMD = true ∧ s.Up Page.ARC ∧ s.arcReason p ≠ 0 :=
  ⟨.port, up, _, rfl, by decide +kernel⟩

theorem witness_archiveAbort : ∃ (path : Path) (s : State) (p : Nat), p = s.sel path F.ARC_PART_SEL_PART ∧ s.pathMay path R.ARC_CMD
    = true ∧ s.Up Page.ARC ∧ s.fget F.ARC_STAT_STATE p ≠ 0 :=
  ⟨.port, archiving 1 [], _, rfl, by decide +kernel⟩

theorem witness_archivePoint : ∃ (part : Fin 8) (s : State), s.Up Page.ARC ∧ s.arcDue part.val = true :=
  ⟨0, (fun (x : State) => { x with tick := { x.tick with lastBoundary := some 0, now := 9 } }) (archiving 1 []), by decide +kernel⟩

theorem witness_captureRecord : ∃ (part : Fin 8) (s : State) (pt : ArcPoint), s.Up Page.ARC ∧ s.arcPoint part.val = some pt ∧ s.fget
    F.ARC_STAT_STATE part.val = 2 ∧ pt.recs.length < clamp 1 64 (s.fget F.ARC_WINDOW_RECORDS) :=
  ⟨0, archiving 2 [], ⟨true, 5, 0, 0, 0, false, [], false⟩, by decide +kernel⟩

theorem witness_archive_end : ∃ (part : Fin 8) (s : State) (pt : ArcPoint), s.Up Page.ARC ∧ s.arcPoint part.val = some pt ∧ s.fget
    F.ARC_STAT_STATE part.val = 3 :=
  ⟨0, archiving 3 [], ⟨true, 5, 0, 0, 0, false, [], false⟩, by decide +kernel⟩

theorem witness_capture_ends : ∃ (s : State) (p : Nat) (pt : ArcPoint), s.fget F.ARC_TAB_COUNT_COUNT p ≤ pt.entry :=
  ⟨archiving 2 [], 0, ⟨true, 5, 0, 0, 0, false, [], false⟩, by decide +kernel⟩

theorem witness_archiveAck : ∃ (gate : Bool) (src : BitVec 20) (msg : List Byte) (s : State) (s1 : State), gate = false ∧ s1 =
    s.msgIn 6 true gate src.toNat msg ∧ s.Up Page.FBP ∧ s.rxCredits 6 true ≠ 0 ∧ ¬ 262143 < src.toNat ∧ msg.length = 32 ∧ fieldLE
    msg 0 1 = 0x31 ∧ fieldLE msg 1 1 = 1 ∧ crcOk msg 28 = true ∧ fieldLE msg 2 2 = 0 ∧ fieldLE msg 12 16 = 0 :=
  ⟨_, 6, msg32 0x31 0 0 0 0 0 1 0 0, archiving 3 [], _, rfl, rfl, by decide +kernel⟩

theorem witness_ack_done : ∃ (s : State) (p : Nat) (seq : Nat) (pt : ArcPoint), s.arcPoint p = some pt ∧ pt.ended = true ∧
    (pt.recs.filter fun r => decide (seq < r.seq)) = [] :=
  ⟨(archiving 3 []).setArcPoint 0 (some ⟨true, 5, 0, 0, 0, false, [], true⟩), 0, 0, ⟨true, 5, 0, 0, 0, false, [], true⟩,
    by decide +kernel⟩

theorem witness_archiveResend : ∃ (part : Fin 8) (seq : Nat) (s : State) (pt : ArcPoint) (r : ArcRec), s.Up Page.ARC ∧ s.arcPoint
    part.val = some pt ∧ (pt.recs.find? fun r => r.seq == seq) = some r ∧ r.resent < 8 :=
  ⟨0, 1, archiving 3 [⟨0, 1, 32, 7⟩], ⟨true, 5, 0, 0, 0, false, [⟨0, 1, 32, 7⟩], false⟩, ⟨0, 1, 32, 7⟩, by decide +kernel⟩

theorem witness_archiveResend_fails : ∃ (part : Fin 8) (seq : Nat) (s : State) (pt : ArcPoint) (r : ArcRec), s.Up Page.ARC ∧
    s.arcPoint part.val = some pt ∧ (pt.recs.find? fun r => r.seq == seq) = some r ∧ 8 ≤ r.resent :=
  ⟨0, 1, archiving 3 [⟨0, 1, 32, 8⟩], ⟨true, 5, 0, 0, 0, false, [⟨0, 1, 32, 8⟩], false⟩, ⟨0, 1, 32, 8⟩, by decide +kernel⟩

theorem witness_restore : ∃ (part : Fin 8) (s : State) (s1 : State) (d : List Byte) (s2 : State), s1 = (s.qHead .restore part.val
    2).1 ∧ s2 = s1.qTake .restore part.val ∧ s.Up Page.ARC ∧ (s.arc.restores.find? fun x => x.part == part.val) = none ∧ s.fget
    F.PTC_STAT_STATE part.val ≠ 0 ∧ s.fget F.PTC_STAT_STATE part.val ≠ 4 ∧ s.qReady .restore part.val = true ∧ (s.qHead .restore
    part.val 2).2 = some d ∧ descHeadOk d false = true ∧ fieldLE d 0 1 = 0x40 ∧ s2.arcDescReason part.val d = 0 :=
  ⟨0, queued .restore (pageDesc 0x40 0 4 0 0), _, pageDesc 0x40 0 4 0 0, _, rfl, rfl, by decide +kernel⟩

theorem witness_create_refused : ∃ (path : Path) (s : State) (p : Nat), p = s.sel path F.PTC_PART_SEL_PART ∧ s.pathMay path
    R.PTC_CMD = true ∧ s.Up Page.PTC ∧ s.createReason p ≠ 0 :=
  ⟨.port, up, _, rfl, by decide +kernel⟩

theorem witness_createPart : ∃ (path : Path) (s : State) (p : Nat) (s1 : State), p = s.sel path F.PTC_PART_SEL_PART ∧ s1 = ((s.fset
    F.PTC_STAT_REASON p 0).bump F.PTC_JOB_CNT_COUNT ((s.fset F.PTC_STAT_REASON p 0).fget F.PTC_CFG_CLIENT p)).topDownZero p ∧
    s.pathMay path R.PTC_CMD = true ∧ s.Up Page.PTC ∧ s.createReason p = 0 ∧ s1.seatHolder (s1.seatOf p) = none :=
  ⟨.port, creatable, _, _, rfl, rfl, by decide +kernel⟩

theorem witness_create_parked : ∃ (path : Path) (s : State) (p : Nat) (s1 : State) (r : Nat), p = s.sel path F.PTC_PART_SEL_PART ∧
    s1 = ((s.fset F.PTC_STAT_REASON p 0).bump F.PTC_JOB_CNT_COUNT ((s.fset F.PTC_STAT_REASON p 0).fget F.PTC_CFG_CLIENT
    p)).topDownZero p ∧ s.pathMay path R.PTC_CMD = true ∧ s.Up Page.PTC ∧ s.createReason p = 0 ∧ s1.seatHolder (s1.seatOf p) = some
    r :=
  ⟨.port, (creatable.fset F.PTC_STAT_STATE 1 2).wr R.PTC_SEAT_TRIO_0 0 1, _, _, 1, rfl, rfl, by decide +kernel⟩

theorem witness_switch_refused : ∃ (path : Path) (s : State) (p : Nat), p = s.sel path F.PTC_PART_SEL_PART ∧ s.pathMay path
    R.PTC_CMD = true ∧ s.Up Page.PTC ∧ s.switchReason p ≠ 0 :=
  ⟨.port, up, _, rfl, by decide +kernel⟩

theorem witness_switchPart : ∃ (path : Path) (s : State) (p : Nat) (s1 : State), p = s.sel path F.PTC_PART_SEL_PART ∧ s1 = s.fset
    F.PTC_STAT_REASON p 0 ∧ s.pathMay path R.PTC_CMD = true ∧ s.Up Page.PTC ∧ s.switchReason p = 0 :=
  ⟨.port, creatable.fset F.PTC_STAT_STATE 0 1, _, _, rfl, rfl, by decide +kernel⟩

theorem witness_switchDone : ∃ (seat : Fin 8) (time : BitVec 64) (s : State) (w : Switch) (s1 : State), s1 = s.passTo time.toNat ∧
    s.Up Page.PTC ∧ (s1.ptc.switches.find? fun x => x.seat == seat.val) = some w ∧ w.moving = true ∧ s1.tower.critical = false :=
  ⟨0, 0, (fun (x : State) => { x with ptc := { x.ptc with switches := [⟨0, 1, none, 0, true, true, 0, 0⟩] } }) mapped, ⟨0, 1, none,
    0, true, true, 0, 0⟩, _, rfl, by decide +kernel⟩

theorem witness_switchBegin : ∃ (s : State) (seat : Nat) (r : Nat) (x : Switch), (s.ptc.switches.find? fun y => y.seat == seat) =
    some x ∧ x.moving = false ∧ s.seatHolder seat = some r ∧ x.bound = true ∧ Part.state s r = 2 ∧ s.partQuiet r = true :=
  ⟨switching, 0, 0, switchOf, by decide +kernel⟩

theorem witness_reset_refused : ∃ (path : Path) (s : State) (p : Nat), p = s.sel path F.PTC_PART_SEL_PART ∧ s.pathMay path R.PTC_CMD
    = true ∧ s.Up Page.PTC ∧ Part.state s p = 0 :=
  ⟨.port, up, _, rfl, by decide +kernel⟩

theorem witness_resetPart : ∃ (path : Path) (s : State) (p : Nat), p = s.sel path F.PTC_PART_SEL_PART ∧ s.pathMay path R.PTC_CMD =
    true ∧ s.Up Page.PTC ∧ Part.state s p ≠ 0 :=
  ⟨.port, mapped, _, rfl, by decide +kernel⟩

theorem witness_reset_waits : ∃ (s : State) (p : Nat), Part.state s p = 3 :=
  ⟨up.fset F.PTC_STAT_STATE 0 3, 0, by decide +kernel⟩

theorem witness_drainLimit : ∃ (part : Fin 8) (s : State) (s1 : State), s1 = s.emptyDrained ∧ s.Up Page.PTC ∧ Part.state s1 part = 4
    :=
  ⟨0, up.fset F.PTC_STAT_STATE 0 4, _, rfl, by decide +kernel⟩

theorem witness_resetDone : ∃ (part : Fin 8) (s : State) (s1 : State), s1 = s.emptyDrained ∧ s.Up Page.PTC ∧ Part.state s1 part = 4
    ∧ s1.resetQuiet part = true :=
  ⟨0, up.fset F.PTC_STAT_STATE 0 4, _, rfl, by decide +kernel⟩

theorem witness_switch_refused_14 : ∃ (s : State), s.Up Page.PTC :=
  ⟨up, by decide +kernel⟩

theorem witness_eruPop : ∃ (s : State), s.pathMay .port R.ERU_POP = true ∧ s.pageUp Page.ERU = true :=
  ⟨up, by decide +kernel⟩

theorem witness_eruPop_core : ∃ (c : Fin 4) (s : State) (r : ErrRec) (l : List ErrRec) (s1 : State), s1 =
    (let s0 := { s with eru := { s.eru with queue := l } }; { s0 with mgmt := { s0.mgmt with log := s0.mgmt.log ++ [r.bytes] } }) ∧
    s.pathMay (.core c) R.ERU_POP = true ∧ s.pageUp Page.ERU = true ∧ s.eru.queue = r :: l :=
  ⟨1, recorded, errRec, [], _, rfl, by decide +kernel⟩

theorem witness_eruInject : ∃ (path : Path) (s : State), s.pathMay path R.ERU_INJECT = true ∧ s.pageUp Page.ERU = true :=
  ⟨.port, up, by decide +kernel⟩

theorem witness_fatalClear : ∃ (path : Path) (s : State), s.pathMay path R.ERU_STAT = true ∧ s.pageUp Page.ERU = true :=
  ⟨.port, up, by decide +kernel⟩

theorem witness_xtResponse_clean : ∃ (granule : BitVec 29) (err : Bool) (s : State), s.run = .running ∧ (err = false ∨ extSize ≤ 64
    * granule.toNat) :=
  ⟨5, false, up, by decide +kernel⟩

theorem witness_xtResponse : ∃ (granule : BitVec 29) (wr : Bool) (err : Bool) (s : State) (s1 : State), err = true ∧ s1 = s.xtAnswer
    wr granule.toNat ∧ s.run = .running ∧ ¬ extSize ≤ 64 * granule.toNat ∧ ((s1.tagAt granule.toNat = none ∧ s1.codedAt .t2 (64 *
    granule.toNat) = none) ∨ wr = true) :=
  ⟨5, true, _, up, _, rfl, rfl, by decide +kernel⟩

theorem witness_ctrCfgWrite : ∃ (path : Path) (s : State) (c : Nat), c = s.sel path F.CTR_SEL_COUNTER ∧ s.pathMay path R.CTR_CFG =
    true ∧ s.pageUp Page.CTR = true :=
  ⟨.port, up, _, rfl, by decide +kernel⟩

theorem witness_preload : ∃ (path : Path) (value : Word) (s : State) (c : Nat) (s1 : State), c = s.sel path F.CTR_SEL_COUNTER ∧ s1 =
    s.fset F.CTR_PRELOAD_HI_VALUE c value.toNat ∧ s.pathMay path R.CTR_PRELOAD_HI = true ∧ s.pageUp Page.CTR = true :=
  ⟨.port, 0, up, _, _, rfl, rfl, by decide +kernel⟩

theorem witness_snapshot : ∃ (path : Path) (s : State), s.pathMay path R.CTR_SNAP_CMD = true ∧ s.run = .running :=
  ⟨.port, up, by decide +kernel⟩

theorem witness_freeze : ∃ (path : Path) (s : State), s.pathMay path R.CTR_SNAP_CMD = true ∧ s.run = .running :=
  ⟨.port, up, by decide +kernel⟩

theorem witness_unfreeze : ∃ (path : Path) (s : State), s.pathMay path R.CTR_SNAP_CMD = true ∧ s.run = .running :=
  ⟨.port, up, by decide +kernel⟩

theorem witness_snap_refused : ∃ (s : State) (host : Bool), (s.rd64 R.CTR_SNAP_LO < s.tick.hall + 2000 ∨ (host = true ∧ (s.isMgr =
    false ∨ s.eru.checkFailed = true))) :=
  ⟨up, true, by decide +kernel⟩

theorem witness_snap_armed : ∃ (s : State), s.tick.hall + 2000 ≤ s.rd64 R.CTR_SNAP_LO :=
  ⟨up.wr R.CTR_SNAP_LO 0 3000, by decide +kernel⟩

theorem witness_snapTime : ∃ (s : State) (op : Nat) (a : Nat), s.run = .running ∧ s.ctr.armed = some (op, a) :=
  ⟨{ up with ctr := { up.ctr with armed := some (2, 7) } }, 2, 7, by decide +kernel⟩

theorem witness_snap_freezes : ∃ (s : State) (a : Nat), s.ctr.armed = some (2, a) :=
  ⟨{ up with ctr := { up.ctr with armed := some (2, 7) } }, 7, by decide +kernel⟩

theorem witness_latchedRead : ∃ (path : Path) (off : BitVec 17) (s : State) (page : Nat) (v : Nat), page = off.toNat / 0x1000 ∧
    s.pathReads path = true ∧ s.pageUp page = true ∧ s.clkOk page = true ∧ s.pairValue path off.toNat = some v :=
  ⟨.port, BitVec.ofNat 17 R.TCK_HALL_LO, up, _, 0, rfl, by decide +kernel⟩

theorem witness_restart : ∃ (path : Path) (s : State) (c : Nat), c = s.sel path F.MGC_CORE_SEL_CORE ∧ s.pathMay path R.MGC_CORE_CTRL
    = true ∧ s.pageUp Page.MGC = true ∧ s.fget F.TSG_STAT_STATE = 0 ∧ (s.coreState c ≠ 0 ∨ path = .port) :=
  ⟨.port, managed, _, rfl, by decide +kernel⟩

theorem witness_core_may_start : ∃ (s : State) (c : Nat), s.segMayStart c = false :=
  ⟨up, 0, by decide +kernel⟩

theorem witness_haltCore : ∃ (path : Path) (s : State) (c : Nat), c = s.sel path F.MGC_CORE_SEL_CORE ∧ s.pathMay path
    R.MGC_CORE_CTRL = true ∧ s.pageUp Page.MGC = true ∧ s.coreState c ≠ 0 :=
  ⟨.port, managed, _, rfl, by decide +kernel⟩

theorem witness_wdtKick : ∃ (c : Fin 4) (value : BitVec 2) (s : State), s.pathMay (.core c) R.MGC_WDT_KICK = true ∧ s.pageUp
    Page.MGC = true ∧ value.toNat = c.val :=
  ⟨0, 0, managed, by decide +kernel⟩

theorem witness_kick_alive : ∃ (s : State) (c : Nat), s.flag F.MGC_CORE_STAT_ALIVE c = false ∧ s.mgmt.swap = none :=
  ⟨up, 0, by decide +kernel⟩

theorem witness_watchdogExpiry : ∃ (core : Fin 4) (s : State), s.pageUp Page.MGC = true ∧ s.coreState core = 1 ∧ s.flag
    F.MGC_WDT_CFG_EN core = true :=
  ⟨0, managed.fset F.MGC_WDT_CFG_EN 0 1, by decide +kernel⟩

theorem witness_managementSramParityError : ∃ (core : Fin 4) (s : State), s.pageUp Page.MGC = true ∧ s.coreState core = 1 :=
  ⟨0, managed, by decide +kernel⟩

theorem witness_watchdog_restart : ∃ (s : State) (c : Nat) (past : List Nat), past = ((s.mgmt.restarts[c]?).getD []).filter (fun t
    => decide (s.tick.hall ≤ t + 60000000000)) ∧ s.mgmt.swap = none ∧ past.length < 2 :=
  ⟨managed, 0, _, rfl, by decide +kernel⟩

theorem witness_watchdog_halt : ∃ (s : State) (c : Nat) (past : List Nat), past = ((s.mgmt.restarts[c]?).getD []).filter (fun t =>
    decide (s.tick.hall ≤ t + 60000000000)) ∧ s.mgmt.swap = none ∧ 2 ≤ past.length :=
  ⟨{ managed with mgmt := { managed.mgmt with restarts := managed.mgmt.restarts.set 0 [1, 2] } }, 0, _, rfl, by decide +kernel⟩

theorem witness_kioskDoorbell : ∃ (path : Path) (s : State), s.pathMay path R.MGC_KSK_DOORBELL = true ∧ s.pageUp Page.MGC = true :=
  ⟨.port, managed, by decide +kernel⟩

theorem witness_mailbox_in : ∃ (s : State) (b : Nat) (m : List Byte), kskOk m = true ∧ ringBytes ((s.box b).req.map (·.msg)) +
    m.length ≤ kskRing :=
  ⟨managed, 0, kskMsg 0 1 1 0 [], by decide +kernel⟩

theorem witness_kioskTake : ∃ (path : Path) (s : State) (b : Nat), b = s.sel path F.MGC_KSK_SEL_MBOX ∧ s.pathMay path R.MGC_KSK_TAKE
    = true ∧ s.pageUp Page.MGC = true ∧ (s.box b).spill = [] :=
  ⟨.port, managed.setBox 0 ⟨[], [[1]], [], []⟩, _, rfl, by decide +kernel⟩

theorem witness_coreExchange : ∃ (s : State) (c : Nat), s.pageUp Page.MGC = true ∧ s.mgmt.act = some c :=
  ⟨{ managed with mgmt := { managed.mgmt with act := some 2 } }, 2, by decide +kernel⟩

theorem witness_replanTimer : ∃ (s : State), s.pageUp Page.PWA = true :=
  ⟨managed, by decide +kernel⟩

theorem witness_replanNow : ∃ (path : Path) (value : Word) (s : State) (s1 : State), s1 = s.fset F.PWA_REPLAN_HOURS 0 (clamp 1 8760
    (bits value.toNat 0 14)) ∧ s.pathMay path R.PWA_REPLAN = true ∧ s.pageUp Page.PWA = true :=
  ⟨.port, 0, managed, _, rfl, by decide +kernel⟩

theorem witness_replan_once : ∃ (s : State), (s.coreState 2 ≠ 1 ∨ s.mgmt.replan.isSome = true) :=
  ⟨up, by decide +kernel⟩

theorem witness_budgetRequest : ∃ (path : Path) (value : Word) (s : State) (s1 : State), s1 = s.fset F.PWA_BUDGET_REQ_REQ 0 (bits
    value.toNat 0 10) ∧ s.pathMay path R.PWA_BUDGET_REQ = true ∧ s.pageUp Page.PWA = true :=
  ⟨.port, 0, up, _, rfl, by decide +kernel⟩

theorem witness_budgetGrant : ∃ (grant : BitVec 10) (s : State) (s1 : State), s1 = (s.fset F.PWA_BUDGET_GRANT_GRANT 0
    grant.toNat).set1 F.PWA_BUDGET_GRANT_VALID ∧ s.pageUp Page.PWA = true :=
  ⟨0, up, _, rfl, by decide +kernel⟩

theorem witness_governorStep : ∃ (est : BitVec 10) (s : State) (e : Nat) (d : Nat) (s1 : State), d = governed (s.flag
    F.PWA_CTRL_GOV_EN) (s.fget F.PWA_BUDGET_EFF_BUDGET) (s.fget F.PWA_FLOOR_FLOOR) (s.fget F.PWA_CTRL_HYST) e (s.fget
    F.LNF_IDLE_POWER) ∧ s.Up Page.PWA ∧ (e, s1) = s.estimate est.toNat :=
  ⟨3, up, 0, _, (up.estimate 3).2, rfl, by decide +kernel⟩

theorem witness_estimate_uncalibrated : ∃ (s : State), (List.range 16).all (fun i => s.rd R.PWA_COEF i == 0) = true :=
  ⟨up, by decide +kernel⟩

theorem witness_estimate : ∃ (s : State) (w : Nat), (List.range 16).all (fun i => s.rd R.PWA_COEF i == 0) = false ∧ wattsOf (max 1
    ((s.tick.hall - s.pwr.since) / 1000)) (s.pwr.activity.foldl (fun a c => a.add ((f32 (s.rd R.PWA_COEF (Config.activityCoef c.1 %
    16))).mul (.fin false c.2 0))) (.fin false 0 0)) = some w :=
  ⟨up.wr R.PWA_COEF 3 0x3F800000, 0, by decide +kernel⟩

theorem witness_kioskHello : ∃ (mbox : Fin 4) (s : State) (r : KskReq) (rest : List KskReq) (q : State × List Byte) (s1 : State)
    (body : List Byte), q = ((s.setBox mbox.val { s.box mbox.val with req := rest }).kskPass mbox.val).takeFrag mbox.val (kskSeq
    r.msg) ∧ s1 = q.1 ∧ body = q.2 ++ kskBodyOf r.msg ∧ s.pageUp Page.MGC = true ∧ (s.box mbox.val).req = r :: rest ∧ s.kskNext =
    some mbox.val ∧ alGet (s.box mbox.val).kept (kskSeq r.msg) = none ∧ s.kskTurned mbox.val r.msg = none ∧ kskOp r.msg = 1 ∧ bit
    (kskFlags r.msg) 2 = false :=
  ⟨0, kiosk 1 [], ⟨.window, kskMsg 0 1 1 0 []⟩, [], _, _, _, rfl, rfl, rfl, by decide +kernel⟩

theorem witness_kioskStatus : ∃ (mbox : Fin 4) (s : State) (r : KskReq) (rest : List KskReq) (q : State × List Byte) (s1 : State)
    (body : List Byte), q = ((s.setBox mbox.val { s.box mbox.val with req := rest }).kskPass mbox.val).takeFrag mbox.val (kskSeq
    r.msg) ∧ s1 = q.1 ∧ body = q.2 ++ kskBodyOf r.msg ∧ s.pageUp Page.MGC = true ∧ (s.box mbox.val).req = r :: rest ∧ s.kskNext =
    some mbox.val ∧ alGet (s.box mbox.val).kept (kskSeq r.msg) = none ∧ s.kskTurned mbox.val r.msg = none ∧ kskOp r.msg = 2 ∧ bit
    (kskFlags r.msg) 2 = false :=
  ⟨0, kiosk 2 [], ⟨.window, kskMsg 0 2 1 0 []⟩, [], _, _, _, rfl, rfl, rfl, by decide +kernel⟩

theorem witness_logRead : ∃ (mbox : Fin 4) (s : State) (r : KskReq) (rest : List KskReq) (q : State × List Byte) (s1 : State) (body
    : List Byte), q = ((s.setBox mbox.val { s.box mbox.val with req := rest }).kskPass mbox.val).takeFrag mbox.val (kskSeq r.msg) ∧
    s1 = q.1 ∧ body = q.2 ++ kskBodyOf r.msg ∧ s.pageUp Page.MGC = true ∧ (s.box mbox.val).req = r :: rest ∧ s.kskNext = some
    mbox.val ∧ alGet (s.box mbox.val).kept (kskSeq r.msg) = none ∧ s.kskTurned mbox.val r.msg = none ∧ kskOp r.msg = 16 ∧ bit
    (kskFlags r.msg) 2 = false ∧ 4 ≤ body.length :=
  ⟨0, kiosk 16 (leBytes 4 1), ⟨.window, kskMsg 0 16 1 0 (leBytes 4 1)⟩, [], _, _, _, rfl, rfl, rfl, by decide +kernel⟩

theorem witness_logRead_short : ∃ (mbox : Fin 4) (s : State) (r : KskReq) (rest : List KskReq) (q : State × List Byte) (s1 : State)
    (body : List Byte), q = ((s.setBox mbox.val { s.box mbox.val with req := rest }).kskPass mbox.val).takeFrag mbox.val (kskSeq
    r.msg) ∧ s1 = q.1 ∧ body = q.2 ++ kskBodyOf r.msg ∧ s.pageUp Page.MGC = true ∧ (s.box mbox.val).req = r :: rest ∧ s.kskNext =
    some mbox.val ∧ alGet (s.box mbox.val).kept (kskSeq r.msg) = none ∧ s.kskTurned mbox.val r.msg = none ∧ kskOp r.msg = 16 ∧ bit
    (kskFlags r.msg) 2 = false ∧ body.length < 4 :=
  ⟨0, kiosk 16 [], ⟨.window, kskMsg 0 16 1 0 []⟩, [], _, _, _, rfl, rfl, rfl, by decide +kernel⟩

theorem witness_repairPut : ∃ (mbox : Fin 4) (s : State) (r : KskReq) (rest : List KskReq) (q : State × List Byte) (s1 : State)
    (body : List Byte) (s2 : State) (s3 : State), q = ((s.setBox mbox.val { s.box mbox.val with req := rest }).kskPass
    mbox.val).takeFrag mbox.val (kskSeq r.msg) ∧ s1 = q.1 ∧ body = q.2 ++ kskBodyOf r.msg ∧ s2 =
    { s1 with mgmt := { s1.mgmt with repairs := s1.mgmt.repairs ++ wordsIn body, putLeft := s1.mgmt.putLeft ++ wordsIn body, putSeen := true } }
    ∧ s3 = (if ((wordsIn body).isEmpty && s2.kskState == 1) = true then s2.kskReady else s2.repairGo) ∧ s.pageUp Page.MGC = true ∧
    (s.box mbox.val).req = r :: rest ∧ s.kskNext = some mbox.val ∧ alGet (s.box mbox.val).kept (kskSeq r.msg) = none ∧ s.kskTurned
    mbox.val r.msg = none ∧ kskOp r.msg = 32 ∧ bit (kskFlags r.msg) 2 = false ∧ body.length % 4 = 0 :=
  ⟨0, kiosk 32 [], ⟨.window, kskMsg 0 32 1 0 []⟩, [], _, _, _, _, _, rfl, rfl, rfl, rfl, rfl, by decide +kernel⟩

theorem witness_repairGet : ∃ (mbox : Fin 4) (s : State) (r : KskReq) (rest : List KskReq) (q : State × List Byte) (s1 : State)
    (body : List Byte), q = ((s.setBox mbox.val { s.box mbox.val with req := rest }).kskPass mbox.val).takeFrag mbox.val (kskSeq
    r.msg) ∧ s1 = q.1 ∧ body = q.2 ++ kskBodyOf r.msg ∧ s.pageUp Page.MGC = true ∧ (s.box mbox.val).req = r :: rest ∧ s.kskNext =
    some mbox.val ∧ alGet (s.box mbox.val).kept (kskSeq r.msg) = none ∧ s.kskTurned mbox.val r.msg = none ∧ kskOp r.msg = 33 ∧ bit
    (kskFlags r.msg) 2 = false :=
  ⟨0, kiosk 33 [], ⟨.window, kskMsg 0 33 1 0 []⟩, [], _, _, _, rfl, rfl, rfl, by decide +kernel⟩

theorem witness_ageingGet : ∃ (mbox : Fin 4) (s : State) (r : KskReq) (rest : List KskReq) (q : State × List Byte) (s1 : State)
    (body : List Byte), q = ((s.setBox mbox.val { s.box mbox.val with req := rest }).kskPass mbox.val).takeFrag mbox.val (kskSeq
    r.msg) ∧ s1 = q.1 ∧ body = q.2 ++ kskBodyOf r.msg ∧ s.pageUp Page.MGC = true ∧ (s.box mbox.val).req = r :: rest ∧ s.kskNext =
    some mbox.val ∧ alGet (s.box mbox.val).kept (kskSeq r.msg) = none ∧ s.kskTurned mbox.val r.msg = none ∧ kskOp r.msg = 48 ∧ bit
    (kskFlags r.msg) 2 = false :=
  ⟨0, kiosk 48 [], ⟨.window, kskMsg 0 48 1 0 []⟩, [], _, _, _, rfl, rfl, rfl, by decide +kernel⟩

theorem witness_replan : ∃ (mbox : Fin 4) (s : State) (r : KskReq) (rest : List KskReq) (q : State × List Byte) (s1 : State) (body :
    List Byte), q = ((s.setBox mbox.val { s.box mbox.val with req := rest }).kskPass mbox.val).takeFrag mbox.val (kskSeq r.msg) ∧ s1
    = q.1 ∧ body = q.2 ++ kskBodyOf r.msg ∧ s.pageUp Page.MGC = true ∧ (s.box mbox.val).req = r :: rest ∧ s.kskNext = some mbox.val
    ∧ alGet (s.box mbox.val).kept (kskSeq r.msg) = none ∧ s.kskTurned mbox.val r.msg = none ∧ kskOp r.msg = 49 ∧ bit (kskFlags
    r.msg) 2 = false ∧ s1.mgmt.replan = none ∧ s1.coreState 2 = 1 :=
  ⟨0, kiosk 49 [], ⟨.window, kskMsg 0 49 1 0 []⟩, [], _, _, _, rfl, rfl, rfl, by decide +kernel⟩

theorem witness_fwStage : ∃ (mbox : Fin 4) (s : State) (r : KskReq) (rest : List KskReq) (q : State × List Byte) (s1 : State) (body
    : List Byte), q = ((s.setBox mbox.val { s.box mbox.val with req := rest }).kskPass mbox.val).takeFrag mbox.val (kskSeq r.msg) ∧
    s1 = q.1 ∧ body = q.2 ++ kskBodyOf r.msg ∧ s.pageUp Page.MGC = true ∧ (s.box mbox.val).req = r :: rest ∧ s.kskNext = some
    mbox.val ∧ alGet (s.box mbox.val).kept (kskSeq r.msg) = none ∧ s.kskTurned mbox.val r.msg = none ∧ kskOp r.msg = 64 ∧ bit
    (kskFlags r.msg) 2 = false ∧ s1.fwRuns = true :=
  ⟨0, kiosk 64 [], ⟨.window, kskMsg 0 64 1 0 []⟩, [], _, _, _, rfl, rfl, rfl, by decide +kernel⟩

theorem witness_fwActivate : ∃ (mbox : Fin 4) (s : State) (r : KskReq) (rest : List KskReq) (q : State × List Byte) (s1 : State)
    (body : List Byte), q = ((s.setBox mbox.val { s.box mbox.val with req := rest }).kskPass mbox.val).takeFrag mbox.val (kskSeq
    r.msg) ∧ s1 = q.1 ∧ body = q.2 ++ kskBodyOf r.msg ∧ s.pageUp Page.MGC = true ∧ (s.box mbox.val).req = r :: rest ∧ s.kskNext =
    some mbox.val ∧ alGet (s.box mbox.val).kept (kskSeq r.msg) = none ∧ s.kskTurned mbox.val r.msg = none ∧ kskOp r.msg = 65 ∧ bit
    (kskFlags r.msg) 2 = false ∧ body.isEmpty = false :=
  ⟨0, kiosk 65 [0x02], ⟨.window, kskMsg 0 65 1 0 [0x02]⟩, [], _, _, _, rfl, rfl, rfl, by decide +kernel⟩

theorem witness_fwRevert : ∃ (mbox : Fin 4) (s : State) (r : KskReq) (rest : List KskReq) (q : State × List Byte) (s1 : State) (body
    : List Byte), q = ((s.setBox mbox.val { s.box mbox.val with req := rest }).kskPass mbox.val).takeFrag mbox.val (kskSeq r.msg) ∧
    s1 = q.1 ∧ body = q.2 ++ kskBodyOf r.msg ∧ s.pageUp Page.MGC = true ∧ (s.box mbox.val).req = r :: rest ∧ s.kskNext = some
    mbox.val ∧ alGet (s.box mbox.val).kept (kskSeq r.msg) = none ∧ s.kskTurned mbox.val r.msg = none ∧ kskOp r.msg = 66 ∧ bit
    (kskFlags r.msg) 2 = false ∧ body.isEmpty = false :=
  ⟨0, kiosk 66 [0x02], ⟨.window, kskMsg 0 66 1 0 [0x02]⟩, [], _, _, _, rfl, rfl, rfl, by decide +kernel⟩

theorem witness_kiosk_turn : ∃ (s : State) (b : Nat), s.kskNext = some b :=
  ⟨kiosk 1 [], 0, by decide +kernel⟩

theorem witness_kiosk_kept : ∃ (mbox : Fin 4) (s : State) (r : KskReq) (rest : List KskReq) (k : List Byte), s.pageUp Page.MGC =
    true ∧ (s.box mbox.val).req = r :: rest ∧ s.kskNext = some mbox.val ∧ alGet (s.box mbox.val).kept (kskSeq r.msg) = some k :=
  ⟨0, managed.setBox 0 ⟨[⟨.window, kskMsg 0 1 1 0 []⟩], [], [], [(1, [7])]⟩, ⟨.window, kskMsg 0 1 1 0 []⟩, [], [7],
    by decide +kernel⟩

theorem witness_activate_refused : ∃ (s : State) (c : Nat) (m : Nat), s.activateRefused c m = true :=
  ⟨managed, 0, 0, by decide +kernel⟩

theorem witness_activate_begins : ∃ (s : State) (c : Nat) (m : Nat), s.activateRefused c m = false :=
  ⟨(managed.set1 F.MGC_STAT_STAGED).fset F.MGC_STAT_STAGED_CORE 0 2, 2, 0, by decide +kernel⟩

theorem witness_activate_needs_staged : ∃ (s : State), s.flag F.MGC_STAT_STAGED = false :=
  ⟨managed, by decide +kernel⟩

theorem witness_revert_done : ∃ (s : State) (c : Nat) (x : Swap), s.mgmt.act = none ∧ s.mgmt.swap = some x ∧ x.core = c :=
  ⟨{ managed with mgmt := { managed.mgmt with swap := some ⟨2, 0, true⟩ } }, 2, ⟨2, 0, true⟩, by decide +kernel⟩

theorem witness_revert_refused : ∃ (s : State), s.mgmt.act = none ∧ s.mgmt.swap = none :=
  ⟨managed, by decide +kernel⟩

theorem witness_revert_waits : ∃ (s : State), s.mgmt.act.isSome = true :=
  ⟨{ managed with mgmt := { managed.mgmt with act := some 2 } }, by decide +kernel⟩

theorem witness_stage_waits : ∃ (s : State), (s.mgmt.act.isSome = true ∨ s.flag F.MGC_STAT_ACTIVATING = true) :=
  ⟨{ managed with mgmt := { managed.mgmt with act := some 2 } }, by decide +kernel⟩

theorem witness_stage_length : ∃ (s : State) (bs : List Byte), s.mgmt.act = none ∧ s.flag F.MGC_STAT_ACTIVATING = false ∧ (bs.length
    < 64 ∨ 65536 < bs.length) :=
  ⟨managed, [], by decide +kernel⟩

theorem witness_setEndpointId : ∃ (pkts : List (List (BitVec 8))) (s : State) (m : MctpMsg) (d : List Byte), d = m.body.drop 3 ∧
    s.pageUp Page.MGC = true ∧ s.isMgr = true ∧ s.fwRuns = true ∧ s.kskState ≠ 0 ∧ mctpJoin (s.fget F.MGC_MCTP_EID_EID) pkts = some
    m ∧ fieldLE m.body 0 1 = 0 ∧ 3 ≤ m.body.length ∧ bit (fieldLE m.body 1 1) 7 = true ∧ fieldLE m.body 2 1 = 1 ∧ d.length = 2 ∧
    fieldLE d 0 1 % 4 < 2 ∧ fieldLE d 1 1 ≠ 0 ∧ fieldLE d 1 1 ≠ 0xFF :=
  ⟨packet (leBytes 1 0 ++ leBytes 1 0x80 ++ leBytes 1 1 ++ leBytes 1 0 ++ leBytes 1 7), tray, ⟨8, 0, (leBytes 1 0 ++ leBytes 1 0x80
    ++ leBytes 1 1 ++ leBytes 1 0 ++ leBytes 1 7)⟩, _, rfl, by decide +kernel⟩

theorem witness_setEid_short : ∃ (pkts : List (List (BitVec 8))) (s : State) (m : MctpMsg) (d : List Byte), d = m.body.drop 3 ∧
    s.pageUp Page.MGC = true ∧ s.isMgr = true ∧ s.fwRuns = true ∧ s.kskState ≠ 0 ∧ mctpJoin (s.fget F.MGC_MCTP_EID_EID) pkts = some
    m ∧ fieldLE m.body 0 1 = 0 ∧ 3 ≤ m.body.length ∧ bit (fieldLE m.body 1 1) 7 = true ∧ fieldLE m.body 2 1 = 1 ∧ d.length ≠ 2 :=
  ⟨packet (leBytes 1 0 ++ leBytes 1 0x80 ++ leBytes 1 1 ++ []), tray, ⟨8, 0, (leBytes 1 0 ++ leBytes 1 0x80 ++ leBytes 1 1 ++ [])⟩,
    _, rfl, by decide +kernel⟩

theorem witness_getEndpointId : ∃ (pkts : List (List (BitVec 8))) (s : State) (m : MctpMsg) (d : List Byte), d = m.body.drop 3 ∧
    s.pageUp Page.MGC = true ∧ s.isMgr = true ∧ s.fwRuns = true ∧ s.kskState ≠ 0 ∧ mctpJoin (s.fget F.MGC_MCTP_EID_EID) pkts = some
    m ∧ fieldLE m.body 0 1 = 0 ∧ 3 ≤ m.body.length ∧ bit (fieldLE m.body 1 1) 7 = true ∧ fieldLE m.body 2 1 = 2 :=
  ⟨packet (leBytes 1 0 ++ leBytes 1 0x80 ++ leBytes 1 2 ++ []), tray, ⟨8, 0, (leBytes 1 0 ++ leBytes 1 0x80 ++ leBytes 1 2 ++ [])⟩,
    _, rfl, by decide +kernel⟩

theorem witness_getEndpointUuid : ∃ (pkts : List (List (BitVec 8))) (s : State) (m : MctpMsg) (d : List Byte), d = m.body.drop 3 ∧
    s.pageUp Page.MGC = true ∧ s.isMgr = true ∧ s.fwRuns = true ∧ s.kskState ≠ 0 ∧ mctpJoin (s.fget F.MGC_MCTP_EID_EID) pkts = some
    m ∧ fieldLE m.body 0 1 = 0 ∧ 3 ≤ m.body.length ∧ bit (fieldLE m.body 1 1) 7 = true ∧ fieldLE m.body 2 1 = 3 :=
  ⟨packet (leBytes 1 0 ++ leBytes 1 0x80 ++ leBytes 1 3 ++ []), tray, ⟨8, 0, (leBytes 1 0 ++ leBytes 1 0x80 ++ leBytes 1 3 ++ [])⟩,
    _, rfl, by decide +kernel⟩

theorem witness_getMctpVersionSupport : ∃ (pkts : List (List (BitVec 8))) (s : State) (m : MctpMsg) (d : List Byte), d = m.body.drop
    3 ∧ s.pageUp Page.MGC = true ∧ s.isMgr = true ∧ s.fwRuns = true ∧ s.kskState ≠ 0 ∧ mctpJoin (s.fget F.MGC_MCTP_EID_EID) pkts =
    some m ∧ fieldLE m.body 0 1 = 0 ∧ 3 ≤ m.body.length ∧ bit (fieldLE m.body 1 1) 7 = true ∧ fieldLE m.body 2 1 = 4 ∧ d.length = 1
    ∧ [0xFF, 0x00, 0x7F].contains (fieldLE d 0 1) = true :=
  ⟨packet (leBytes 1 0 ++ leBytes 1 0x80 ++ leBytes 1 4 ++ leBytes 1 0), tray, ⟨8, 0, (leBytes 1 0 ++ leBytes 1 0x80 ++ leBytes 1 4
    ++ leBytes 1 0)⟩, _, rfl, by decide +kernel⟩

theorem witness_getMessageTypeSupport : ∃ (pkts : List (List (BitVec 8))) (s : State) (m : MctpMsg) (d : List Byte), d = m.body.drop
    3 ∧ s.pageUp Page.MGC = true ∧ s.isMgr = true ∧ s.fwRuns = true ∧ s.kskState ≠ 0 ∧ mctpJoin (s.fget F.MGC_MCTP_EID_EID) pkts =
    some m ∧ fieldLE m.body 0 1 = 0 ∧ 3 ≤ m.body.length ∧ bit (fieldLE m.body 1 1) 7 = true ∧ fieldLE m.body 2 1 = 5 :=
  ⟨packet (leBytes 1 0 ++ leBytes 1 0x80 ++ leBytes 1 5 ++ []), tray, ⟨8, 0, (leBytes 1 0 ++ leBytes 1 0x80 ++ leBytes 1 5 ++ [])⟩,
    _, rfl, by decide +kernel⟩

theorem witness_getVendorDefinedMsgSupport : ∃ (pkts : List (List (BitVec 8))) (s : State) (m : MctpMsg) (d : List Byte), d =
    m.body.drop 3 ∧ s.pageUp Page.MGC = true ∧ s.isMgr = true ∧ s.fwRuns = true ∧ s.kskState ≠ 0 ∧ mctpJoin (s.fget
    F.MGC_MCTP_EID_EID) pkts = some m ∧ fieldLE m.body 0 1 = 0 ∧ 3 ≤ m.body.length ∧ bit (fieldLE m.body 1 1) 7 = true ∧ fieldLE
    m.body 2 1 = 6 ∧ d.length = 1 ∧ fieldLE d 0 1 = 0 :=
  ⟨packet (leBytes 1 0 ++ leBytes 1 0x80 ++ leBytes 1 6 ++ leBytes 1 0), tray, ⟨8, 0, (leBytes 1 0 ++ leBytes 1 0x80 ++ leBytes 1 6
    ++ leBytes 1 0)⟩, _, rfl, by decide +kernel⟩

theorem witness_vendorDefinedMessage : ∃ (pkts : List (List (BitVec 8))) (s : State) (m : MctpMsg), s.pageUp Page.MGC = true ∧
    s.isMgr = true ∧ s.fwRuns = true ∧ s.kskState ≠ 0 ∧ mctpJoin (s.fget F.MGC_MCTP_EID_EID) pkts = some m ∧ fieldLE m.body 0 1 =
    0x7F ∧ s.fget F.MGC_MCTP_EID_EID ≠ 0 ∧ fieldLE ((m.body.drop 1).take 4).reverse 0 4 = s.rd R.MGC_MCTP_IANA ∧ 6 ≤ m.body.length
    :=
  ⟨packet (leBytes 1 0x7F ++ beBytes4 5 ++ leBytes 1 0 ++ [1, 2]), tray, ⟨8, 0, leBytes 1 0x7F ++ beBytes4 5 ++ leBytes 1 0 ++ [1,
    2]⟩, by decide +kernel⟩

theorem witness_vendor_own : ∃ (s : State) (inst : Nat), inst = s.ownInst :=
  ⟨tray, _, rfl⟩

theorem witness_vendor_forward : ∃ (s : State) (inst : Nat), inst ≠ s.ownInst ∧ (s.tick.checks.any fun c => c.1 == inst) = true :=
  ⟨{ tray with tick := { tray.tick with checks := [(3, false)] } }, 3, by decide +kernel⟩

theorem witness_vendor_absent : ∃ (s : State) (inst : Nat) (k : List Byte), inst ≠ s.ownInst ∧ (s.tick.checks.any fun c => c.1 ==
    inst) = false ∧ kskOk k = true :=
  ⟨tray, 3, kskMsg 0 1 1 0 [], by decide +kernel⟩

theorem witness_openGate_refused : ∃ (path : Path) (s : State) (s1 : State), s1 = s.authorise false ∧ s1.pathMay path R.TSG_CMD =
    true ∧ s1.pageUp Page.TSG = true :=
  ⟨.port, up, _, rfl, by decide +kernel⟩

theorem witness_openGate : ∃ (path : Path) (s : State) (s1 : State), s1 = s.authorise true ∧ s1.pathMay path R.TSG_CMD = true ∧
    s1.pageUp Page.TSG = true ∧ (s1.fget F.TSG_STAT_STATE = 0 ∨ s1.fget F.TSG_STAT_STATE = 5) :=
  ⟨.port, up, _, rfl, by decide +kernel⟩

theorem witness_openGate_wir : ∃ (s : State) (s1 : State), s1 =
    ({ s.authorise true with pwr := { (s.authorise true).pwr with wso := [], wdr := [] } } : State).fset F.TSG_WIR_INSTR 0 2 ∧
    s1.pageUp Page.TSG = true ∧ (s1.fget F.TSG_STAT_STATE = 0 ∨ s1.fget F.TSG_STAT_STATE = 5) :=
  ⟨up, _, rfl, by decide +kernel⟩

theorem witness_gateEraseDone : ∃ (auth : Bool) (s : State) (s1 : State), s1 =
    { s with pwr := { s.pwr with authorised := auth, fell := s.pwr.fell || !auth } } ∧ s.run = .running ∧ s.fget F.TSG_STAT_STATE =
    3 :=
  ⟨true, up.fset F.TSG_STAT_STATE 0 3, _, rfl, by decide +kernel⟩

theorem witness_wir_taken : ∃ (s : State) (i : Nat), (i ≤ 2 ∨ s.fget F.TSG_STAT_STATE = 4) :=
  ⟨up, 1, by decide +kernel⟩

theorem witness_wir_bypass : ∃ (s : State) (i : Nat), 2 < i ∧ s.fget F.TSG_STAT_STATE ≠ 4 :=
  ⟨up, 16, by decide +kernel⟩

theorem witness_towerAccess : ∃ (s : State) (s1 : State), s1 = s.wir 0x12 [] ∧ s1.fget F.TSG_STAT_STATE = 4 ∧ s1.run = .running ∧
    s1.tower.selfRefresh = false :=
  ⟨up.fset F.TSG_STAT_STATE 0 4, _, rfl, by decide +kernel⟩

theorem witness_coldStart : ∃ (s : State), s.run = .heldCold :=
  ⟨State.reset, by decide +kernel⟩

theorem witness_cold_runs : ∃ (i : StartIn) (b : Nat), baseOf i.windows = some b ∧ i.fail = none ∧ i.extOk = true ∧ deadRow i.tests
    = false :=
  ⟨⟨[2000], [], [], true, true, none, 5⟩, 2000, by decide +kernel⟩

theorem witness_cold_window : ∃ (i : StartIn), baseOf i.windows = none :=
  ⟨⟨[5], [], [], true, true, none, 5⟩, by decide +kernel⟩

theorem witness_warmReset : ∃ (s : State) (s1 : State), s1 = (if s.fget F.CRG_STAT_PHASE = 15 then s else s.warmFailed) ∧ (s.run =
    .running ∨ s.run = .fallback) ∧ s.coldPending = false :=
  ⟨up.fset F.CRG_STAT_PHASE 0 15, _, rfl, by decide +kernel⟩

theorem witness_warmStart : ∃ (s : State), s.run = .heldWarm ∧ s.fget F.CRG_WARM_FAIL_COUNT ≠ 3 :=
  ⟨{ up with run := .heldWarm }, by decide +kernel⟩

theorem witness_warmStart_forced : ∃ (s : State), s.run = .heldWarm ∧ s.fget F.CRG_WARM_FAIL_COUNT = 3 :=
  ⟨{ up.fset F.CRG_WARM_FAIL_COUNT 0 3 with run := .heldWarm }, by decide +kernel⟩

theorem witness_monitorWindow : ∃ (s : State), (s.run = .running ∨ s.run = .fallback) ∧ s.fget F.CRG_STAT_PHASE ≠ 15 :=
  ⟨up, by decide +kernel⟩

theorem witness_warm_fail_counted : ∃ (s : State), s.fget F.CRG_START_STAT_KIND = 1 ∧ s.pwr.failed = false :=
  ⟨up.fset F.CRG_START_STAT_KIND 0 1, by decide +kernel⟩

theorem witness_window_recal : ∃ (s : State) (n : Nat), s.pwr.recal = true ∧ 1680 ≤ n ∧ n ≤ 2600 :=
  ⟨{ up with pwr := { up.pwr with recal := true } }, 2000, by decide +kernel⟩

theorem witness_pllLockLoss : ∃ (pll : Fin 3) (s : State), s.run = .running ∧ bit (s.fget F.CRG_STAT_LOCKED) pll.val = true :=
  ⟨0, up.fset F.CRG_STAT_LOCKED 0 7, by decide +kernel⟩

theorem witness_recal : ∃ (path : Path) (value : Word) (s : State) (s1 : State), s1 = s.fset F.CRG_MON_CFG_TOL 0 (clamp 4 64 (bits
    value.toNat 0 8)) ∧ s.pathMay path R.CRG_MON_CFG = true ∧ s.pageUp Page.CRG = true :=
  ⟨.port, 0, up, _, rfl, by decide +kernel⟩

theorem witness_runMode : ∃ (path : Path) (s : State) (s1 : State), s1 = s.fset F.CRG_PWR_MODE_REQ 0 0 ∧ s.pathMay path
    R.CRG_PWR_MODE = true ∧ s.pageUp Page.CRG = true ∧ s1.notReady = false :=
  ⟨.port, up.fset F.CRG_STAT_PHASE 0 15, _, rfl, by decide +kernel⟩

theorem witness_sleepMode : ∃ (path : Path) (s : State) (s1 : State), s1 = s.fset F.CRG_PWR_MODE_REQ 0 1 ∧ s.pathMay path
    R.CRG_PWR_MODE = true ∧ s.pageUp Page.CRG = true ∧ s.sleepReason = 0 ∧ s1.notReady = false :=
  ⟨.port, up.fset F.CRG_STAT_PHASE 0 15, _, rfl, by decide +kernel⟩

theorem witness_deepSleep : ∃ (path : Path) (s : State) (s1 : State), s1 = s.fset F.CRG_PWR_MODE_REQ 0 2 ∧ s.pathMay path
    R.CRG_PWR_MODE = true ∧ s.pageUp Page.CRG = true ∧ s.deepReason = 0 ∧ s1.notReady = false :=
  ⟨.port, up.fset F.CRG_STAT_PHASE 0 15, _, rfl, by decide +kernel⟩

theorem witness_mode_refused : ∃ (r : Nat), r ≠ 0 :=
  ⟨1, by decide +kernel⟩

theorem witness_lockPage : ∃ (path : Path) (page : BitVec 5) (s : State) (a : Nat), a = lockOff page.toNat ∧ s.pathMay path a = true
    ∧ s.takesWrite page.toNat 0x030 = true :=
  ⟨.port, 0, up, _, rfl, by decide +kernel⟩

theorem witness_irqSet : ∃ (path : Path) (page : BitVec 5) (s : State) (a : Nat), a = irqStatOff page.toNat ∧ s.pathMay path (a + 8)
    = true ∧ s.takesWrite page.toNat 0x018 = true :=
  ⟨.port, 0, up, _, rfl, by decide +kernel⟩

theorem witness_clrCnt : ∃ (path : Path) (page : BitVec 5) (s : State), s.pathMay path (page.toNat * 0x1000 + 0x008) = true ∧
    s.takesWrite page.toNat 0x008 = true :=
  ⟨.port, 0, up, by decide +kernel⟩

theorem witness_cdjHwmWrite : ∃ (path : Path) (s : State), s.pathMay path R.CDJ_HWM = true ∧ s.Up Page.CDJ :=
  ⟨.port, up, by decide +kernel⟩

theorem witness_arbC1MaxWrite : ∃ (path : Path) (s : State), s.pathMay path R.ARB_C1_MAX = true ∧ s.Up Page.ARB :=
  ⟨.port, up, by decide +kernel⟩

theorem witness_registerWrite_head : ∃ (path : Path) (off : BitVec 17) (s : State) (a : Nat), a = off.toNat / 4 * 4 ∧ s.pathMay path
    a = true ∧ s.takesWrite (a / 0x1000) (a % 0x1000) = true ∧ a % 0x1000 < 0x100 :=
  ⟨.port, 0, up, _, rfl, by decide +kernel⟩

theorem witness_head_lock_rej : ∃ (v : Nat), bit v 3 = true :=
  ⟨8, by decide +kernel⟩

theorem witness_head_ro : ∃ (o : Nat), o < 0x0C :=
  ⟨0, by decide +kernel⟩

theorem witness_reserved_write : ∃ (off : BitVec 17) (s : State), s.portUp = true ∧ 0x1D000 ≤ off.toNat :=
  ⟨0x1D000, up, by decide +kernel⟩

theorem witness_reserved_read : ∃ (off : BitVec 17) (s : State), s.run = .running ∧ 0x1D000 ≤ off.toNat :=
  ⟨0x1D000, up, by decide +kernel⟩

theorem witness_registerWrite : ∃ (path : Path) (off : BitVec 17) (s : State) (a : Nat), a = off.toNat / 4 * 4 ∧ s.pathMay path a =
    true ∧ s.takesWrite (a / 0x1000) (a % 0x1000) = true ∧ 0x100 ≤ a % 0x1000 :=
  ⟨.port, BitVec.ofNat 17 R.TWC_REF_CTRL, up, _, rfl, by decide +kernel⟩

theorem witness_plain_write : ∃ (s : State) (path : Path) (off : Nat) (v : Nat) (item : Nat), item = s.regItem path off ∧
    ownRegs.contains off = false ∧ s.stageTime off v = none ∧ s.locked (off / 0x1000) = false ∧ s.dropsWrite path off item v = false
    ∧ slotConfig.contains off = false ∧ off ≠ R.PGM_MAP_BASE ∧ off ≠ R.ERU_STAT :=
  ⟨up, .port, R.TWC_REF_CTRL, 1, _, rfl, by decide +kernel⟩

theorem witness_locked_write : ∃ (s : State) (off : Nat), (regDefAt off).any RegDef.lockable = true ∧ s.locked (off / 0x1000) = true
    :=
  ⟨up.wr (lockOff Page.FBP) 0 1, R.FBP_NODE, by decide +kernel⟩

theorem witness_field_write : ∃ (s : State) (off : Nat) (d : RegDef), regDefAt off = some d ∧ s.locked (off / 0x1000) = false :=
  ⟨up, R.TWC_REF_CTRL, (regDefAt R.TWC_REF_CTRL).get (by decide +kernel), by decide +kernel⟩

theorem witness_foreign_write : ∃ (s : State) (c : Fin 4) (off : Nat), s.pageUp Page.MGC = true ∧ s.fget F.MGC_CORE_STAT_STATE c = 1
    ∧ coreMay c off = false :=
  ⟨managed, 0, R.ERU_POP, by decide +kernel⟩

theorem witness_halted_write : ∃ (s : State) (c : Fin 4), s.fget F.MGC_CORE_STAT_STATE c ≠ 1 :=
  ⟨up, 0, by decide +kernel⟩

theorem witness_rspReady : ∃ (ch : Fin 4) (s : State), s.run = .running ∧ (s.host.rsp.any fun r => r.ch == ch.val) = true :=
  ⟨0, answered, by decide +kernel⟩

theorem witness_beat_last : ∃ (s : State) (ch : Nat) (i : Nat) (r : HostRsp) (b : HostBeat), s.host.rsp.findIdx? (fun r => r.ch ==
    ch) = some i ∧ s.host.rsp[i]? = some r ∧ r.beats = [b] :=
  ⟨answeredOnce, 0, 0, ⟨0, 0, 1, 0, [⟨0, [1], 0⟩]⟩, ⟨0, [1], 0⟩, by decide +kernel⟩

theorem witness_beat_next : ∃ (s : State) (ch : Nat) (i : Nat) (r : HostRsp) (a : HostBeat) (b : HostBeat) (l : List HostBeat),
    s.host.rsp.findIdx? (fun r => r.ch == ch) = some i ∧ s.host.rsp[i]? = some r ∧ r.beats = a :: b :: l :=
  ⟨answered, 0, 0, ⟨0, 0, 1, 0, [⟨0, [1], 0⟩, ⟨0, [1], 0⟩]⟩, ⟨0, [1], 0⟩, ⟨0, [1], 0⟩, [], by decide +kernel⟩

theorem witness_kioskReply : ∃ (hdr : List Byte) (payload : List Byte) (s : State) (t : Txn) (s1 : State) (m : List Byte), t =
    Txn.ofHeader hdr payload ∧ s1 = s.received t.vc t.resp (hdr ++ payload) ∧ m = t.payload.take (16 + fieldLE t.payload 8 2) ∧ s.Up
    Page.FBP ∧ s.rxCredits t.vc t.resp ≠ 0 ∧ hdr.length = 32 ∧ crcOk hdr 28 = true ∧ t.typ = 5 ∧ t.dst = s1.fget F.FBP_NODE_NODE ∧
    t.dst ≤ 262143 ∧ t.src ≤ 262143 ∧ t.vc = 0 ∧ t.resp = true ∧ kskOk m = true ∧ kskOp m = 1 ∧ fieldLE m 16 4 = 0 ∧ s1.fwRuns =
    true :=
  ⟨header 5 128 0 0 0 0 0 0, kskMsg 0 1 1 1 (leBytes 4 0 ++ leBytes 4 0), linked.fset F.MGC_CORE_STAT_STATE 0 1, _, _, _, rfl, rfl,
    rfl, by decide +kernel⟩

theorem witness_kioskReply_other : ∃ (hdr : List Byte) (payload : List Byte) (s : State) (t : Txn) (s1 : State) (m : List Byte), t =
    Txn.ofHeader hdr payload ∧ s1 = s.received t.vc t.resp (hdr ++ payload) ∧ m = t.payload.take (16 + fieldLE t.payload 8 2) ∧ s.Up
    Page.FBP ∧ s.rxCredits t.vc t.resp ≠ 0 ∧ hdr.length = 32 ∧ crcOk hdr 28 = true ∧ t.typ = 5 ∧ t.dst = s1.fget F.FBP_NODE_NODE ∧
    t.dst ≤ 262143 ∧ t.src ≤ 262143 ∧ t.vc = 0 ∧ t.resp = true ∧ kskOk m = true ∧ (kskOp m ≠ 1 ∨ fieldLE m 16 4 ≠ 0 ∨ s1.fwRuns =
    false) :=
  ⟨header 5 128 0 0 0 0 0 0, kskMsg 0 2 1 1 (leBytes 4 0 ++ leBytes 4 0), linked.fset F.MGC_CORE_STAT_STATE 0 1, _, _, _, rfl, rfl,
    rfl, by decide +kernel⟩

theorem witness_kioskReply_bad : ∃ (hdr : List Byte) (payload : List Byte) (s : State) (t : Txn) (s1 : State) (m : List Byte), t =
    Txn.ofHeader hdr payload ∧ s1 = s.received t.vc t.resp (hdr ++ payload) ∧ m = t.payload.take (16 + fieldLE t.payload 8 2) ∧ s.Up
    Page.FBP ∧ s.rxCredits t.vc t.resp ≠ 0 ∧ hdr.length = 32 ∧ crcOk hdr 28 = true ∧ t.typ = 5 ∧ t.dst = s1.fget F.FBP_NODE_NODE ∧
    t.dst ≤ 262143 ∧ t.src ≤ 262143 ∧ t.vc = 0 ∧ t.resp = true ∧ kskOk m = false :=
  ⟨header 5 128 0 0 0 0 0 0, [], linked.fset F.MGC_CORE_STAT_STATE 0 1, _, _, _, rfl, rfl, rfl, by decide +kernel⟩

theorem witness_kioskReply_7 : ∃ (hdr : List Byte) (payload : List Byte) (s : State) (t : Txn) (s1 : State) (m : List Byte), t =
    Txn.ofHeader hdr payload ∧ s1 = s.received t.vc t.resp (hdr ++ payload) ∧ m = t.payload.take (16 + fieldLE t.payload 8 2) ∧ s.Up
    Page.FBP ∧ s.rxCredits t.vc t.resp ≠ 0 ∧ hdr.length = 32 ∧ crcOk hdr 28 = true ∧ t.typ = 5 ∧ t.dst = s1.fget F.FBP_NODE_NODE ∧
    t.dst ≤ 262143 ∧ t.src ≤ 262143 ∧ t.vc = 0 ∧ t.resp = false :=
  ⟨header 5 0 0 0 0 0 0 0, [], linked, _, _, _, rfl, rfl, rfl, by decide +kernel⟩

theorem witness_step_idle : ∃ (s : State), s.pending = [] :=
  ⟨State.reset, by decide +kernel⟩

theorem witness_row_of_block : ∃ (n : Nat) (k : Nat) (p : Nat), 0 < k ∧ k ≤ n ∧ p < n :=
  ⟨10, 8, 3, by decide +kernel⟩

theorem witness_block_of_row : ∃ (n : Nat) (k : Nat) (q : Nat), q < k ∧ k ≤ n :=
  ⟨10, 8, 5, by decide +kernel⟩

theorem witness_step_keeps : ∃ (s : State), s.Canon :=
   ⟨State.reset, ⟨rfl, rfl, rfl, rfl, rfl, Nat.zero_le 32⟩⟩

theorem witness_held : ∃ (s : State), s.run = .heldCold :=
  ⟨State.reset, by decide +kernel⟩

theorem witness_reg_same : ∃ (s : State), s.Canon :=
   ⟨State.reset, ⟨rfl, rfl, rfl, rfl, rfl, Nat.zero_le 32⟩⟩

theorem witness_reg_other : ∃ (off : Nat) (item : Nat) (off2 : Nat) (item2 : Nat), regKey off2 item2 ≠ regKey off item :=
  ⟨0, 0, 4, 0, by decide +kernel⟩

theorem witness_field_same : ∃ (s : State) (f : Fld), s.Canon ∧ f.lo + f.width ≤ 32 :=
   ⟨State.reset, F.CRG_MON_CFG_TOL, ⟨rfl, rfl, rfl, rfl, rfl, Nat.zero_le 32⟩, by decide +kernel⟩

theorem witness_field_beside : ∃ (s : State) (f : Fld) (g : Fld), s.Canon ∧ f.lo + f.width ≤ 32 ∧ g.reg = f.reg ∧ (g.lo + g.width ≤
    f.lo ∨ f.lo + f.width ≤ g.lo) :=
   ⟨State.reset, F.CRG_STAT_FALLBACK, F.CRG_STAT_PHASE, ⟨rfl, rfl, rfl, rfl, rfl, Nat.zero_le 32⟩, by decide +kernel,
    by decide +kernel, by decide +kernel⟩

theorem witness_byte_same : ∃ (m : Mem), m.wf = true :=
  ⟨⟨[(3, 1)], []⟩, by decide +kernel⟩

theorem witness_byte_other : ∃ (a : Nat) (x : Nat), x ≠ a :=
  ⟨0, 1, by decide +kernel⟩

theorem witness_run_other : ∃ (a : Nat) (x : Nat) (l : List Byte), (x < a ∨ a + l.length ≤ x) :=
  ⟨0, 5, [], by decide +kernel⟩

theorem witness_run_reads : ∃ (m : Mem), m.wf = true :=
  ⟨⟨[(3, 1)], []⟩, by decide +kernel⟩

theorem witness_record_queued : ∃ (s : State), s.eru.queue.length < 32 :=
  ⟨up, by decide +kernel⟩

theorem witness_record_lost : ∃ (s : State), 32 ≤ s.eru.queue.length :=
  ⟨{ up with eru := { up.eru with queue := List.replicate 32 errRec } }, by decide +kernel⟩

theorem witness_seq_next : ∃ (s : State), s.Canon :=
   ⟨State.reset, ⟨rfl, rfl, rfl, rfl, rfl, Nat.zero_le 32⟩⟩

theorem witness_seq_carried : ∃ (s : State), s.eru.queue.length < 32 :=
  ⟨up, by decide +kernel⟩

theorem witness_seq_warm : ∃ (s : State), s.Canon :=
   ⟨State.reset, ⟨rfl, rfl, rfl, rfl, rfl, Nat.zero_le 32⟩⟩

end Sys2Proof.Tests
end

/-! # Every command answers

A command reaches its meaning through a guard: the engine runs, the page's block has its clocks, the path may write the register,
the message is taken. What a guard does not let through leaves a next state too (log entry 4), so `exec` always answers one. -/

namespace Sys2Proof.Machine

open Sys2Proof

variable {s : State}

/-! ### The guards built on other guards -/

theorem answers_onMover {f : State → State} : Answers (onMover s f) := answers_onPage

theorem answers_pageQueueOp {part : Fin 8} {opcode : Nat} : Answers (pageQueueOp part opcode s) := answers_onMover

theorem answers_fabQueueOp {part : Fin 8} {opcode : Nat} : Answers (fabQueueOp part opcode s) := answers_onPage

theorem answers_inbound {typ : Nat} {op : Option Nat} {hdr payload : List Byte} : Answers (inbound typ op hdr payload s) :=
  answers_onTxn

/-! ### The guards of a write, inside the right of its path to make it -/

section

variable {path : Path} {off p : Nat} {f : State → State}

theorem answers_fromPath_next : Answers (fromPath path off s fun t => .next (f t)) := answers_fromPath answers_next

theorem answers_fromPath_onUp : Answers (fromPath path off s fun t => onUp t f) := answers_fromPath answers_onUp

theorem answers_fromPath_onReg : Answers (fromPath path off s fun t => onReg t p f) := answers_fromPath answers_onReg

theorem answers_fromPath_onPage : Answers (fromPath path off s fun t => onPage t p f) := answers_fromPath answers_onPage

end

/-! ### The commands that choose their guard by an operand or by the state -/

/-- A read of plan data is open to every path, a write only to a path that may make it. -/
theorem answers_execPlanDataAccess {path : Path} {wr : Option Word} : Answers (execPlanDataAccess path wr s) := by
  unfold execPlanDataAccess
  cases wr with
  | none => exact answers_onPage
  | some w => exact answers_fromPath_onPage

/-- An engine's own check message is taken at once, another's through the ring. -/
theorem answers_execRingCheck {hdr : BitVec 64} {payload : List (BitVec 64)} : Answers (execRingCheck hdr payload s) := by
  dsimp only [execRingCheck]
  split
  · exact answers_next
  · exact answers_onRing

/-- The gate opens by a register write or by the test wrapper. -/
theorem answers_execOpenGate {via : Option Path} {authorised : Bool} : Answers (execOpenGate via authorised s) := by
  cases via with
  | none => exact answers_onReg
  | some path => exact answers_fromPath_onReg

/-- Only an open gate passes the wrapper's commands to the tower. -/
theorem answers_execTowerAccess {bank : Fin 512} {cmds : List TowerCmd} : Answers (execTowerAccess bank cmds s) := by
  dsimp only [execTowerAccess]
  split
  · exact answers_onUp
  · exact answers_next

/-! ### All commands -/

/-- The commands fall into groups by the guard they go through, first those that go through none. -/
theorem answers_exec (c : Instr) (s : State) : Answers (exec c s) := by
  unfold exec
  cases c with
  | latchedRead | wsBypass | wsIdcode | wsExtest | wsIntestScan | coldReset | coldStart | warmReset | warmStart | startLimit
  | monitorWindow | powerOn => exact answers_next
  | hallStrobe | holdover | holdoverTimeout | holdoverEnd | tickBoundary | bankEntry | refreshEntry | timeEpoch
  | planCheckDone | releaseTimeout | checkTimeout | deltaSend | ackSend | resend | ackTimeout | zeroFillDone | tagCheckDone
  | rebuildInstallDone | rebuildRow | gatherTimeout | arrivalMissing | stragWindowEnd | arbGrant | quotaWindow
  | autonomousRefresh | tempSample | linkUp | linkDown | linkRetry | creditReturn | xtResponse | snapTime | gateEraseDone
  | pllLockLoss | rspReady => exact answers_onUp
  | watchdogExpiry | coreExchange | replanTimer | budgetGrant | managementSramParityError => exact answers_onReg
  | planSlot | feedEntry | laneEntry | updateSlot | planRetire | hostWrite | hostRead | writeAdmit | passBegin | layerBegin
  | passEnd | sgdMom | sgdNesterov | adamw | lion | adagradRow | genOnly | nopOp | movOp | addOp | subOp | mulOp | fmaOp
  | fnmaOp | divOp | sqrtOp | maxOp | minOp | absOp | negOp | signOp | selOp | sqrOp | noiseDone | rowTestDone | idleWindow
  | streamMm | gatherPool | reduceAdd | chainEnd | chainLimit | operandLand | orangeryCopyDone | probeDone | pinRelease
  | loanTimeout | transactionSend | msTimeout | generationStep | allReduce | reduceScatter | allGather | broadcast | allToAll
  | colBarrier | kvRing | colTimeout | archivePoint | captureRecord | archiveResend | restore | switchDone | drainLimit
  | resetDone | slowdownWindow | governorStep => exact answers_onPage
  | pageMoveDone | agerPass | evict | zeroFill => exact answers_onMover
  | mapPages | unmap | movePages | reserveFrames | seqAdd | seqShare | seqFree | cow | pftLookup | pftInsert | pftRemove =>
    exact answers_pageQueueOp
  | fabGet | fabPut | atomicDescriptor => exact answers_fabQueueOp
  | deltaRecord | ack | nak | memberSeal | groupSeal | gatherRequest | gatherResponse | repairRecord | reseed | arrival
  | loan | grant | returnFrame | revoke | colSegment | colReady | barrierArrival | archiveAck => exact answers_onMsg
  | response | teardown | kioskReply => exact answers_onTxn
  | fabLoad | fabStore | atomic | addI32 | addI64 | addF32 | minS32 | minS64 | minU32 | minU64 | minF32 | maxS32 | maxS64
  | maxU32 | maxU64 | maxF32 | cas32 | cas64 => exact answers_inbound
  | ringRelease | ringSeal | ringArrival | ringCounter | ringRelay => exact answers_onRing
  | kioskHello | kioskStatus | logRead | repairPut | repairGet | ageingGet | replan | fwStage | fwActivate | fwRevert =>
    exact answers_onKiosk
  | vendorDefinedMessage => exact answers_onSideband
  | setEndpointId | getEndpointId | getEndpointUuid | getMctpVersionSupport | getMessageTypeSupport
  | getVendorDefinedMsgSupport => exact answers_onControl
  | lockPage | irqSet | clrCnt | registerWrite => exact answers_fromPath_next
  | snapshot | freeze | unfreeze => exact answers_fromPath_onUp
  | eruPop | eruInject | fatalClear | ctrCfgWrite | preload | restart | haltCore | wdtKick | kioskDoorbell | kioskTake
  | replanNow | budgetRequest | recal | runMode | sleepMode | deepSleep => exact answers_fromPath_onReg
  | timeCommit | planCommit | planCancel | barrierArm | installGroup | drainSlot | resume | dissolve | declareLost | replace
  | startRebuild | updPassGo | progLoad | updFlip | tlmRdSelWrite | tlmClear | tlmClearAll | noiseGo | noiseAbort
  | bypassWrite | kwidthPinWrite | rowTest | qTailWrite | qEnable | apply | critClear | probeGo | tthPeakWrite
  | mapPagesWrite | pftEnable | lendPagesWrite | lenderNodeWrite | borrowerNodeWrite | fabricEnable | partnerWrite
  | regionEntryWrite | blockRemove | fvcBufWrite | colInstall | colRemove | archiveArm | archiveAbort | createPart
  | switchPart | resetPart | cdjHwmWrite | arbC1MaxWrite => exact answers_fromPath_onPage
  | planDataAccess => exact answers_execPlanDataAccess
  | ringCheck => exact answers_execRingCheck
  | openGate => exact answers_execOpenGate
  | towerAccess => exact answers_execTowerAccess

/-- Settles O54: each command is a next state outright or goes through a guard, and every guard answers (log entry 4). -/
theorem everyCommandAnswers : Obligations.EveryCommandAnswers := fun c s => answers_exec c s

end Sys2Proof.Machine

/-! # The queue, the barrier and the instance ring

A ring message that is for this engine is passed on, and its handler runs on the state with the message passed on. So each ring
command is settled by one lemma on what its handler does there; the commands of the barrier go through the guards of a page and of
a running engine instead. -/

namespace Sys2Proof.Machine

open Sys2Proof

section

variable {s : State}

/-! ### The queue of commands -/

theorem step_of_pending_nil (h : s.pending = []) : step s = .next s := by
  unfold step
  rw [h]

/-! ### Arming the barrier (R39) -/

/-- An arm that meets every condition of R39 is accepted, whatever is armed already (log entry 19). -/
theorem barrierArm_accepted {hi b : Nat} {s1 : State} (hs1 : s1 = s.wr R.TCK_BARRIER_HI 0 hi) (hb : b = s1.rd64 R.TCK_BARRIER_LO)
    (hhold : s1.flag F.TCK_STAT_HOLDOVER = false) (hrel : s1.tick.released = false) (hchk : s1.eru.checkFailed = false)
    (hmode : s1.fget F.CRG_STAT_MODE ≠ 2) (hgrid : s1.isBoundary b = true) (hsoon : s1.tick.hall + 2000 ≤ b) :
    s.barrierArm hi =
      (({ s1 with tick := { s1.tick with armed := nsAdd s1.tick.armed b } } : State).set1 F.TCK_STAT_ARMED).sendRelease b := by
  subst hs1 hb
  simp only [State.barrierArm, hhold, hrel, hchk, beq_false_of_ne hmode, hgrid, decide_eq_false (Nat.not_lt.mpr hsoon),
    Bool.not_true, Bool.or_self, Bool.false_eq_true, if_false]

/-- Cancelling one arm takes it out of the armed ones. -/
theorem cancelArm_armed (h : Nat) : (s.cancelArm h).tick.armed = s.tick.armed.filter (· != h) := rfl

/-- Cancelling arms one after another leaves those that are not among them. -/
theorem foldl_cancelArm_armed (l : List Nat) (s : State) :
    (l.foldl (fun s h => s.cancelArm h) s).tick.armed = s.tick.armed.filter fun x => decide (x ∉ l) := by
  induction l generalizing s with
  | nil => exact (List.filter_eq_self.mpr fun _ _ => decide_eq_true List.not_mem_nil).symm
  | cons h l ih =>
    rw [List.foldl_cons, ih, cancelArm_armed, List.filter_filter]
    exact List.filter_congr fun x _ => Bool.eq_iff_iff.mpr (by
      simp only [Bool.and_eq_true, decide_eq_true_eq, bne_iff_ne, ne_eq, List.mem_cons, not_or, and_comm])

/-- An epoch's commit leaves exactly the arms before the epoch (R39). -/
theorem cancelArms_armed (s : State) (e : Nat) : (s.cancelArms e).tick.armed = s.tick.armed.filter fun h => decide (h < e) := by
  unfold State.cancelArms
  rw [foldl_cancelArm_armed]
  refine List.filter_congr fun x hx => ?_
  simp only [List.mem_filter, hx, decide_eq_true_eq, true_and, Nat.not_le]

/-! ### Releases -/

/-- A release whose boundary has not passed is shown and held (R39). -/
theorem releaseIn_early {b : Nat} (h : ∀ l, s.tick.lastBoundary = some l → l < b) :
    s.releaseIn b = { s.wr64 R.TCK_BARRIER_LO 0 b with tick := { s.tick with releases := nsAdd s.tick.releases b } } := by
  have hany : (s.tick.lastBoundary.any fun l => decide (b ≤ l)) = false := by
    cases hl : s.tick.lastBoundary with
    | none => rfl
    | some l => exact decide_eq_false (Nat.not_le.mpr (h l hl))
  simp only [State.releaseIn, wr64_tick, hany, Bool.false_eq_true, if_false]

/-- A worker that has waited four periods for the release of some boundary takes the manager as lost (R17). -/
theorem execReleaseTimeout_lost {b : Nat × Nat} (hrun : s.run = .running) (hmgr : s.isMgr = false) (hrel : s.tick.released = true)
    (hlost : s.tick.managerLost = false) (hb : b ∈ s.tick.unreleased) (hold : b.2 + 4 * s.periodNs ≤ s.tick.hall) :
    execReleaseTimeout s = .next (({ s with tick := { s.tick with managerLost := true } } : State).overrun none) := by
  have hany : (s.tick.unreleased.any fun b => decide (b.2 + 4 * s.periodNs ≤ s.tick.hall)) = true :=
    List.any_eq_true.mpr ⟨b, hb, decide_eq_true hold⟩
  simp only [execReleaseTimeout, onUp_running hrun, hmgr, hrel, hlost, hany, Bool.not_true, Bool.or_self, Bool.false_eq_true,
    if_false]

/-! ### Messages of the ring that are for this engine (R458, R459) -/

/-- The state with a ring message passed on to the next engine. -/
def State.passedOn (s : State) (hdr : BitVec 64) (payload : List (BitVec 64)) : State :=
  { s with ring := s.ring ++ [⟨hdr.toNat, payload.map (·.toNat)⟩] }

@[simp] theorem passedOn_tick (hdr : BitVec 64) (payload : List (BitVec 64)) : (s.passedOn hdr payload).tick = s.tick := rfl

@[simp] theorem passedOn_eru (hdr : BitVec 64) (payload : List (BitVec 64)) : (s.passedOn hdr payload).eru = s.eru := rfl

@[simp] theorem passedOn_isMgr (hdr : BitVec 64) (payload : List (BitVec 64)) : (s.passedOn hdr payload).isMgr = s.isMgr := rfl

variable {typ : Nat} {hdr : BitVec 64} {payload : List (BitVec 64)}

/-- A running engine is given a message of a type that another engine sent to it or to all, of the length its header tells. -/
structure State.Takes (s : State) (typ : Nat) (hdr : BitVec 64) (payload : List (BitVec 64)) : Prop where
  run : s.run = .running
  typ : bits hdr.toNat 60 4 = typ
  words : bits hdr.toNat 50 2 = payload.length
  foreign : bits hdr.toNat 56 4 ≠ s.ownInst
  mine : bit hdr.toNat 49 = true ∨ bits hdr.toNat 52 4 = s.ownInst

theorem onRing_takes {f : State → State} (h : s.Takes typ hdr payload) :
    onRing s typ hdr payload f = .next (f (s.passedOn hdr payload)) :=
  onRing_mine h.run h.typ h.words h.foreign h.mine

/-- A worker holds the boundary of a release that comes before it (R39). -/
theorem execRingRelease_holds (h : s.Takes 3 hdr payload) (hmgr : s.isMgr = false) (hlen : payload.length = 1)
    (hcancel : bit hdr.toNat 0 = false) (hearly : ∀ l, s.tick.lastBoundary = some l → l < word0 payload) :
    execRingRelease hdr payload s = .next
      { (s.passedOn hdr payload).wr64 R.TCK_BARRIER_LO 0 (word0 payload) with
        tick := { s.tick with releases := nsAdd s.tick.releases (word0 payload) } } := by
  have hin := releaseIn_early (s := s.passedOn hdr payload) hearly
  simp only [execRingRelease, onRing_takes h, passedOn_isMgr, passedOn_tick, hmgr, hlen, hcancel, hin, bne_self_eq_false,
    Bool.or_self, Bool.false_eq_true, if_false]

/-- A cancel withdraws the boundary from those a worker holds (R39). -/
theorem execRingRelease_withdraws (h : s.Takes 3 hdr payload) (hmgr : s.isMgr = false) (hlen : payload.length = 1)
    (hcancel : bit hdr.toNat 0 = true) :
    execRingRelease hdr payload s = .next
      { s.passedOn hdr payload with tick := { s.tick with releases := s.tick.releases.filter (· != word0 payload) } } := by
  simp only [execRingRelease, onRing_takes h, passedOn_isMgr, passedOn_tick, hmgr, hlen, hcancel, bne_self_eq_false,
    Bool.or_self, Bool.false_eq_true, if_false, if_true]

/-! ### Seals, arrivals, counters and relays (R18, R41, R404, R431) -/

/-- Taking a seal notes it under its engine; the chip seal it may move is a register. -/
theorem sealIn_tick (s : State) (i n : Nat) : (s.sealIn i n).tick = { s.tick with seals := alPut s.tick.seals i n } := by
  dsimp only [State.sealIn]
  split
  · rfl
  · rfl

/-- The manager takes the seal of another engine. -/
theorem execRingSeal_taken (h : s.Takes 1 hdr payload) (hmgr : s.isMgr = true) (hchk : s.eru.checkFailed = false)
    (hlen : payload.length = 1) :
    execRingSeal hdr payload s = .next ((s.passedOn hdr payload).sealIn (bits hdr.toNat 56 4) (word0 payload)) := by
  simp only [execRingSeal, onRing_takes h, passedOn_isMgr, passedOn_eru, hmgr, hchk, hlen, beq_self_eq_true, Bool.not_false,
    Bool.and_self, if_true]

/-- An arrival at a newer barrier than any before starts its order (R41). -/
theorem ringArrive_newer {i t : Nat} (h : s.tick.arrTick < t) :
    s.ringArrive i t = ({ s with tick := { s.tick with arrTick := t, arrivals := [i] } } : State).showArrivals := by
  have hne : t ≠ s.tick.arrTick := Nat.ne_of_gt h
  simp only [State.ringArrive, if_neg (Nat.lt_asymm h), hne, false_and, if_false]

/-- The manager starts the order of arrivals of a newer tick. -/
theorem execRingArrival_newer (h : s.Takes 2 hdr payload) (hmgr : s.isMgr = true) (hchk : s.eru.checkFailed = false)
    (hlen : payload.length = 1) (hnew : s.tick.arrTick < word0 payload) :
    execRingArrival hdr payload s = .next
      (({ s.passedOn hdr payload with
          tick := { s.tick with arrTick := word0 payload, arrivals := [bits hdr.toNat 56 4] } } : State).showArrivals) := by
  have hin := ringArrive_newer (s := s.passedOn hdr payload) (i := bits hdr.toNat 56 4) hnew
  simp only [execRingArrival, onRing_takes h, passedOn_isMgr, passedOn_eru, passedOn_tick, hmgr, hchk, hlen, hin,
    beq_self_eq_true, Bool.not_false, Bool.and_self, if_true]

/-- A COUNTER message with an operation arms it for its time (R404). -/
theorem execRingCounter_arms (h : s.Takes 4 hdr payload) (hop : bits hdr.toNat 0 2 ≠ 0) (hlen : payload.length = 1) :
    execRingCounter hdr payload s = .next ((s.passedOn hdr payload).snapArm (bits hdr.toNat 0 2) (word0 payload)) := by
  simp only [execRingCounter, onRing_takes h, hop, hlen, ne_eq, not_true_eq_false, or_self, if_false]

/-- A piece that is not the last is put behind the earlier pieces of its message, which the first piece forgets (R431). -/
theorem relayPiece_kept {h : Nat} {words : List Nat} (hlast : bit h 6 = false) :
    s.relayPiece h words = { s with mgmt := { s.mgmt with
      relay := alPut s.mgmt.relay (4 * bits h 56 4 + bits h 7 2)
        ((if bit h 5 then [] else (alGet s.mgmt.relay (4 * bits h 56 4 + bits h 7 2)).getD [])
          ++ (words.flatMap (leBytes 8)).take (bits h 0 5)) } } := by
  simp only [State.relayPiece, hlast, Bool.false_eq_true, if_false]

/-- A RELAY message of 1 to 16 bytes in as many words as they need gives its piece. -/
theorem execRingRelay_piece (h : s.Takes 5 hdr payload) (hpos : 1 ≤ bits hdr.toNat 0 5) (hmax : bits hdr.toNat 0 5 ≤ 16)
    (hlen : ceilDiv (bits hdr.toNat 0 5) 8 = payload.length) :
    execRingRelay hdr payload s = .next ((s.passedOn hdr payload).relayPiece hdr.toNat (payload.map (·.toNat))) := by
  simp only [execRingRelay, onRing_takes h, Nat.one_le_iff_ne_zero.mp hpos, Nat.not_lt.mpr hmax, hlen, ne_eq,
    not_true_eq_false, or_self, if_false]

/-! ### Ring checks (R460) -/

/-- The CHECK of a worker not yet heard, with an instance of its own, is noted; it leaves the managers heard as many as before. -/
theorem checkIn_newWorker {src fld : Nat} (hsrc : src ≠ s.ownInst) (hnew : (s.tick.checks.any fun c => c.1 == src) = false)
    (hinst : bits fld 1 4 ≠ s.ownInst) (hmgr : bit fld 0 = false) (hone : s.tick.checks.countP (·.2) ≤ 1) :
    s.checkIn src fld = { s with tick := { s.tick with checks := s.tick.checks ++ [(src, false)] } } := by
  have hcount : (s.tick.checks ++ [(src, false)]).countP (·.2) ≤ 1 := by
    rw [List.countP_append, List.countP_singleton, if_neg Bool.false_ne_true]
    exact hone
  simp only [State.checkIn, beq_false_of_ne hsrc, beq_false_of_ne hinst, hnew, hmgr, Bool.false_and, Bool.and_false,
    Bool.false_eq_true, if_false, if_neg (Nat.not_lt.mpr hcount)]

/-- A CHECK of another engine is passed on and looked at. -/
theorem execRingCheck_foreign (h : s.Takes 6 hdr payload) :
    execRingCheck hdr payload s = .next ((s.passedOn hdr payload).checkIn (bits hdr.toNat 56 4) (bits hdr.toNat 0 49)) := by
  simp only [execRingCheck, onRing_takes h, h.foreign, and_false, if_false]

/-- Without its own CHECK back, or with no manager heard, the engine fails the ring check. -/
theorem execCheckTimeout_fails (hrun : s.run = .running)
    (hmiss : (s.tick.checks.any fun c => c.1 == s.ownInst) = false ∨ s.mgrInst = none) : execCheckTimeout s = .next s.ringFail := by
  rw [execCheckTimeout, onUp_running hrun]
  rcases hmiss with hown | hmgr
  · simp only [hown, Bool.false_and, Bool.false_eq_true, if_false]
  · simp only [hmgr, Option.isSome_none, Bool.and_false, Bool.false_eq_true, if_false]

/-- The first failure of the ring check is fatal (R460). -/
theorem ringFail_first (h : s.eru.checkFailed = false) :
    s.ringFail = ({ s with eru := { s.eru with checkFailed := true } } : State).logErr { block := Page.TCK, code := 0x0A50, sev := 2 } := by
  simp only [State.ringFail, h, Bool.false_eq_true, if_false]

end

/-! ### The obligations -/

/-- Settles O49: the front command leaves the queue before it runs. -/
theorem stepRunsTheFrontCommand : Obligations.StepRunsTheFrontCommand := fun _ _ _ => rfl

/-- Settles O50: an empty queue is the other case of `step` (log entry 1). -/
theorem anEmptyQueueIdles : Obligations.AnEmptyQueueIdles := fun _ h => step_of_pending_nil h

/-- Settles O6: an arm through the conditions of R39, a release and its cancel through the ring, the lost manager through
`RELEASE_TIMEOUT`, and a new epoch by induction on the arms it cancels. -/
theorem barrierAndRelease : Obligations.BarrierAndRelease := by
  refine ⟨?arm, ?release, ?cancel, ?timeout, cancelArms_armed⟩
  case arm =>
    intro path hi s b hmay hup hmgr hrel hchk hhold hmode hb hgrid hsoon
    calc exec (.barrierArm path hi) s
        = execBarrierArm path hi s := rfl
      _ = onPage s Page.TCK fun s => if s.isMgr then s.barrierArm hi.toNat else s := fromPath_may hmay
      _ = .next (s.barrierArm hi.toNat) := by rw [onPage_up hup, if_pos hmgr]
      _ = _ := by rw [barrierArm_accepted rfl hb hhold hrel hchk hmode hgrid hsoon]; rfl
  case release =>
    intro hdr payload s hrun htyp hwords hsrc hdst hmgr hlen hcancel hearly
    exact execRingRelease_holds ⟨hrun, htyp, hwords, hsrc, hdst⟩ hmgr hlen hcancel hearly
  case cancel =>
    intro hdr payload s hrun htyp hwords hsrc hdst hmgr hlen hcancel
    exact execRingRelease_withdraws ⟨hrun, htyp, hwords, hsrc, hdst⟩ hmgr hlen hcancel
  case timeout =>
    intro s b hrun hmgr hrel hlost hb hold
    exact execReleaseTimeout_lost hrun hmgr hrel hlost hb hold

/-- Settles O7: each message is passed on, and its handler does there what its lemma above says. -/
theorem ringMessagesOfTheHall : Obligations.RingMessagesOfTheHall := by
  refine ⟨?tickSeal, sealIn_tick, ?arrival, ?counter, ?relay, ?check, ?timeout⟩
  case tickSeal =>
    intro hdr payload s hrun htyp hwords hsrc hdst hmgr hchk hlen
    exact execRingSeal_taken ⟨hrun, htyp, hwords, hsrc, hdst⟩ hmgr hchk hlen
  case arrival =>
    intro hdr payload s hrun htyp hwords hsrc hdst hmgr hchk hlen hnew
    exact execRingArrival_newer ⟨hrun, htyp, hwords, hsrc, hdst⟩ hmgr hchk hlen hnew
  case counter =>
    intro hdr payload s hrun htyp hwords hsrc hdst hop hlen
    exact execRingCounter_arms ⟨hrun, htyp, hwords, hsrc, hdst⟩ hop hlen
  case relay =>
    intro hdr payload s key hrun htyp hwords hsrc hdst hpos hmax hlen hlast hkey
    subst hkey
    calc exec (.ringRelay hdr payload) s
        = .next ((s.passedOn hdr payload).relayPiece hdr.toNat (payload.map (·.toNat))) :=
          execRingRelay_piece ⟨hrun, htyp, hwords, hsrc, hdst⟩ hpos hmax hlen
      _ = _ := by rw [relayPiece_kept hlast]; rfl
  case check =>
    intro hdr payload s hrun htyp hwords hsrc hdst hnew hinst hmgr hone
    calc exec (.ringCheck hdr payload) s
        = .next ((s.passedOn hdr payload).checkIn (bits hdr.toNat 56 4) (bits hdr.toNat 0 49)) :=
          execRingCheck_foreign ⟨hrun, htyp, hwords, hsrc, hdst⟩
      _ = _ := by rw [checkIn_newWorker (s := s.passedOn hdr payload) hsrc hnew hinst hmgr hone]; rfl
  case timeout =>
    intro s hrun hmiss hchk
    exact (execCheckTimeout_fails hrun hmiss).trans (congrArg _ (ringFail_first hchk))

end Sys2Proof.Machine

/-! # The geometry of a coded group

The rows of a group's region come in runs of `n`, one turn of the roles around the symbols each (R60). -/

namespace Sys2Proof.Machine

open Sys2Proof

section

variable {n k p q r : Nat}

/-- Going back by a number below `n` around a circle of `n`, in the natural numbers and in the integers. -/
theorem cast_sub_mod (a : Nat) (h : p ≤ n) : (((a + n - p) % n : Nat) : Int) = ((a : Int) - p) % n := by
  have hcast : ((a + n - p : Nat) : Int) = (a : Int) - p + n := by omega
  rw [Int.natCast_emod, hcast, Int.add_emod_right]

/-- The symbol of a member is its role turned by the row's number, of which only the place in its run of `n` rows counts. -/
theorem symOf_mul_add (n p m c : Nat) : symOf n p (n * m + c) = (p + c) % n := by
  unfold symOf
  rw [Nat.add_left_comm, Nat.mul_add_mod]

/-- Turning back by `p` and then forth again is the whole turn. -/
theorem add_sub_mod_cancel (hp : p ≤ n) (hq : q < n) : (p + (q + n - p) % n) % n = q := by
  rw [Nat.add_mod_mod, Nat.add_sub_cancel' (Nat.le_trans hp (Nat.le_add_left n q)), Nat.add_mod_right, Nat.mod_eq_of_lt hq]

/-- Going back by what going back by `p` leaves is `p` again. -/
theorem sub_sub_mod_cancel (hp : p < n) (hq : q < n) : (q + n - (q + n - p) % n) % n = p := by
  rcases Nat.lt_or_ge q p with hlt | hge
  · rw [Nat.mod_eq_of_lt (by omega : q + n - p < n), Nat.sub_sub_self (by omega), Nat.mod_eq_of_lt hp]
  · rw [Nat.sub_add_comm hge, Nat.add_mod_right, Nat.mod_eq_of_lt (Nat.lt_of_le_of_lt (Nat.sub_le q p) hq),
      (by omega : q + n - (q - p) = p + n), Nat.add_mod_right, Nat.mod_eq_of_lt hp]

theorem rowOfBlock_cast (L : Nat) (hp : p < n) :
    (rowOfBlock n k p L : Int) = n * (L / k) + ((L % k : Int) - p) % n := by
  unfold rowOfBlock
  rw [Nat.mod_eq_of_lt hp, Int.natCast_add, cast_sub_mod _ (Nat.le_of_lt hp), Int.natCast_mul, Int.natCast_ediv, Int.natCast_emod]

/-- A member's block is the data symbol of its row that the block's number gives. -/
theorem symOf_rowOfBlock (L : Nat) (hk : 0 < k) (hkn : k ≤ n) (hp : p < n) : symOf n p (rowOfBlock n k p L) = L % k := by
  unfold rowOfBlock
  rw [Nat.mod_eq_of_lt hp, symOf_mul_add, add_sub_mod_cancel (Nat.le_of_lt hp) (Nat.lt_of_lt_of_le (Nat.mod_lt L hk) hkn)]

theorem roleOfSym_cast (hn : 0 < n) : (roleOfSym n q r : Int) = ((q : Int) - r) % n := by
  unfold roleOfSym
  rw [cast_sub_mod _ (Nat.le_of_lt (Nat.mod_lt r hn)), Int.natCast_emod, Int.sub_emod_emod]

/-- The role that a row's symbol belongs to has that symbol in the row. -/
theorem symOf_roleOfSym (hq : q < n) : symOf n (roleOfSym n q r) r = q := by
  have hr : r % n ≤ n := Nat.le_of_lt (Nat.mod_lt r (Nat.zero_lt_of_lt hq))
  calc symOf n (roleOfSym n q r) r
      = (r % n + (q + n - r % n) % n) % n := by unfold symOf roleOfSym; rw [Nat.add_comm _ r, Nat.add_mod, Nat.mod_mod]
    _ = q := add_sub_mod_cancel hr hq

/-- A row's symbol lies, as a block of the role it belongs to, in that row. -/
theorem rowOfBlock_blockOfRow (hq : q < k) (hkn : k ≤ n) : rowOfBlock n k (roleOfSym n q r) (blockOfRow n k q r) = r := by
  have hk : 0 < k := Nat.zero_lt_of_lt hq
  have hn : 0 < n := Nat.lt_of_lt_of_le hk hkn
  have hdiv : (k * (r / n) + q) / k = r / n := by rw [Nat.mul_add_div hk, Nat.div_eq_of_lt hq, Nat.add_zero]
  have hmod : (k * (r / n) + q) % k = q := by rw [Nat.mul_add_mod, Nat.mod_eq_of_lt hq]
  unfold rowOfBlock roleOfSym blockOfRow
  rw [hdiv, hmod, Nat.mod_mod, sub_sub_mod_cancel (Nat.mod_lt r hn) (Nat.lt_of_lt_of_le hq hkn), Nat.div_add_mod]

end

/-- Settles O51: a row is `n` times its run and a place in the run; within a run, role and symbol are turned into each other by that
place, and forth and back is the whole turn (R60). -/
theorem blocksLieWhereTheGeometrySays : Obligations.BlocksLieWhereTheGeometrySays := by
  refine ⟨?rowOf, ?blockOf⟩
  case rowOf =>
    intro n k p L hk hkn hp
    exact ⟨rowOfBlock_cast L hp, symOf_rowOfBlock L hk hkn hp⟩
  case blockOf =>
    intro n k q r hq hkn
    have hqn : q < n := Nat.lt_of_lt_of_le hq hkn
    exact ⟨roleOfSym_cast (Nat.zero_lt_of_lt hqn), symOf_roleOfSym hqn, rfl, rowOfBlock_blockOfRow hq hkn⟩

end Sys2Proof.Machine

/-! # The host data port

A request takes its tag; one that is malformed or whose tag is in use is answered ABORTED at once (R443, R446), any other is made
as an access, whose outcome is the answer. -/

namespace Sys2Proof.Machine

open Sys2Proof

section

variable {s : State}

/-! ### An access that ends -/

/-- An access that nothing holds back and that need not wait gives its outcome to whoever made it. -/
theorem access_ends {a b : Access} (hb : b = { a with id := s.coding.nextAcc }) (hfree : (s.coding.stalled.any (·.blocks b)) = false)
    (hend : (s.tryAccess b).2 ≠ .wait) : s.access a = (s.tryAccess b).1.accDone b (s.tryAccess b).2 := by
  subst hb
  rw [State.access, if_neg (ne_true_of_eq_false hfree)]
  split
  next t hwait => exact absurd (congrArg Prod.snd hwait) hend
  next t o _ hout => rw [hout]

/-- An access held back by an earlier one on the list is left alone. -/
theorem retryOne_blocked {a : Access} (hheld : (s.coding.stalled.takeWhile (· != a)).any (·.blocks a) = true) : s.retryOne a = s :=
  if_pos hheld

/-- An access tried again that must still wait stays on the list. -/
theorem retryOne_waits {a : Access} (hfree : (s.coding.stalled.takeWhile (· != a)).any (·.blocks a) = false)
    (hwait : (s.tryAccess a).2 = .wait) : s.retryOne a = (s.tryAccess a).1 := by
  rw [State.retryOne, if_neg (ne_true_of_eq_false hfree)]
  split
  next t htry => rw [htry]
  next t o hne htry => exact absurd ((congrArg Prod.snd htry).symm.trans hwait) hne

/-- An access tried again that ends leaves the list, and its outcome goes to whoever made it. -/
theorem retryOne_ends {a : Access} (hfree : (s.coding.stalled.takeWhile (· != a)).any (·.blocks a) = false)
    (hend : (s.tryAccess a).2 ≠ .wait) :
    s.retryOne a = (({ (s.tryAccess a).1 with
      coding := { (s.tryAccess a).1.coding with stalled := (s.tryAccess a).1.coding.stalled.erase a } } : State).pinGo
        a.who).accDone a (s.tryAccess a).2 := by
  rw [State.retryOne, if_neg (ne_true_of_eq_false hfree)]
  split
  next t hwait => exact absurd (congrArg Prod.snd hwait) hend
  next t o _ hout => rw [hout]

/-- All that wait are tried again in class order (R72). -/
theorem retryStalled_eq : s.retryStalled =
    (((List.range 4).flatMap fun c => s.coding.stalled.filter (·.cls == c)).foldl (fun x a => x.retryOne a) s).flushAll := by
  have hall : s.coding.stalled.filter (fun _ => true) = s.coding.stalled := List.filter_eq_self.mpr fun _ _ => rfl
  rw [State.retryStalled, State.retryThose, hall]

/-! ### Requests of a channel -/

variable {ch : Nat} {hdr : BitVec 128} {a : Access}

/-- The state in which a request has taken its tag and its port beats are counted. -/
def State.requested (s : State) (ch : Nat) (hdr : BitVec 128) : State :=
  ({ s with host := { s.host with busy := s.host.busy ++ [ch * 4096 + hdTag hdr] } } : State).active 2
    (if hdOp hdr = 2 then (hostHalves hdr).length else 0)

@[simp] theorem requested_coding : (s.requested ch hdr).coding = s.coding := active_coding _ _ _

/-- A READ brings no beats to the port. -/
theorem requested_read (hop : hdOp hdr = 1) :
    s.requested ch hdr = { s with host := { s.host with busy := s.host.busy ++ [ch * 4096 + hdTag hdr] } } := by
  rw [State.requested, hop]
  rfl

/-- A WRITE brings a beat for each half that it covers. -/
theorem requested_write (hop : hdOp hdr = 2) :
    s.requested ch hdr = ({ s with host := { s.host with busy := s.host.busy ++ [ch * 4096 + hdTag hdr] } } : State).active 2
      (hostHalves hdr).length := by
  rw [State.requested, if_pos hop]

theorem hdOp_of_hdrOk {op : Nat} (hok : hdrOk hdr op = true) : hdOp hdr = op := by
  simp only [hdrOk, Bool.and_eq_true, beq_iff_eq] at hok
  exact hok.1.1.1

theorem hostReq_malformed (hout : s.hostOutstanding ch < 512) :
    s.hostReq ch hdr false a = (s.requested ch hdr).hostAnswer ch hdr 5 [emptyBeat] := by
  rw [State.hostReq, if_neg (Nat.not_le.mpr hout)]
  rfl

theorem hostReq_tagInUse (hout : s.hostOutstanding ch < 512) (hbusy : s.host.busy.contains (ch * 4096 + hdTag hdr) = true) :
    s.hostReq ch hdr true a =
      (s.requested ch hdr).hostAnswer ch hdr 5 (if hdOp hdr = 1 then (hostHalves hdr).map fun _ => emptyBeat else [emptyBeat]) := by
  rw [State.hostReq, if_neg (Nat.not_le.mpr hout)]
  exact if_pos hbusy

theorem hostReq_made (hout : s.hostOutstanding ch < 512) (hbusy : s.host.busy.contains (ch * 4096 + hdTag hdr) = false) :
    s.hostReq ch hdr true a = (s.requested ch hdr).access a := by
  rw [State.hostReq, if_neg (Nat.not_le.mpr hout)]
  exact if_neg (ne_true_of_eq_false hbusy)

/-- A request that the memory takes or answers at once gives the outcome of its access, numbered in order of arrival. -/
theorem hostReq_ends {b : Access} (hout : s.hostOutstanding ch < 512) (hbusy : s.host.busy.contains (ch * 4096 + hdTag hdr) = false)
    (hb : b = { a with id := s.coding.nextAcc }) (hfree : (s.coding.stalled.any (·.blocks b)) = false)
    (hend : ((s.requested ch hdr).tryAccess b).2 ≠ .wait) :
    s.hostReq ch hdr true a =
      ((s.requested ch hdr).tryAccess b).1.accDone b ((s.requested ch hdr).tryAccess b).2 := by
  rw [hostReq_made hout hbusy]
  exact access_ends (by rw [hb, requested_coding]) (by rw [requested_coding, hfree]) hend

/-- The access that a WRITE makes, before it is numbered. -/
def writeAccess (ch : Nat) (hdr : BitVec 128) (beats : List (List Byte × List Bool)) : Access :=
  ⟨1, .hostWrite ch hdr, hdPart hdr, if hdForm hdr = 1 then some (hdSeq hdr) else none, hdAddr hdr, 0,
    (writeBytes hdr beats).map some, 0⟩

/-- The access that a READ makes, before it is numbered. -/
def readAccess (ch : Nat) (hdr : BitVec 128) : Access :=
  ⟨1, .hostRead ch hdr, hdPart hdr, if hdForm hdr = 1 then some (hdSeq hdr) else none, hdAddr hdr, hdLen hdr, [], 0⟩

theorem execHostWrite_up {ch : Fin 4} {beats : List (List Byte × List Bool)} (hup : s.Up Page.XLT) :
    execHostWrite ch hdr beats s = .next (s.hostReq ch hdr (hdrOk hdr 2 && beatsOk hdr beats) (writeAccess ch hdr beats)) :=
  onPage_up hup

theorem execHostRead_up {ch : Fin 4} (hup : s.Up Page.XLT) :
    execHostRead ch hdr s = .next (s.hostReq ch hdr (hdrOk hdr 1) (readAccess ch hdr)) := onPage_up hup

theorem accDone_hostWrite (huse : a.use = .hostWrite ch hdr) (st : Nat) :
    s.accDone a (.status st) = s.hostAnswer ch hdr st [emptyBeat] := by
  cases a
  cases huse
  rfl

/-- The bytes read answer a READ, marked where one is poison (R443). -/
theorem accDone_hostRead (huse : a.use = .hostRead ch hdr) (bs : List (Option Byte)) :
    s.accDone a (.data bs) = s.hostAnswer ch hdr (if bs.any (·.isNone) then 4 else 0) (readBeats hdr bs) := by
  cases a
  cases huse
  rfl

end

/-- Settles O8: a request is answered at once or by the outcome of its access, and each access tried again is left alone, waits on
or ends. -/
theorem hostRequestsAnswered : Obligations.HostRequestsAnswered := by
  refine ⟨?write, ?read, ?readMalformed, ?readTagInUse, ?writeRefused, ?tried, fun _ => retryStalled_eq,
    fun _ _ => retryOne_blocked, fun _ _ => retryOne_waits, ?retryEnds, fun _ _ _ _ st huse => accDone_hostWrite huse st⟩
  case write =>
    intro ch hdr beats s s1 a hup hout hbusy hok ha hfree hs1 hdone
    have hop : hdOp hdr = 2 := hdOp_of_hdrOk (Bool.and_eq_true_iff.mp hok).1
    have hs1 : s1 = s.requested ch hdr := hs1.trans (requested_write hop).symm
    subst hs1
    have hend : ((s.requested ch hdr).tryAccess a).2 ≠ .wait := fun h => AccOut.noConfusion (hdone.symm.trans h)
    calc exec (.hostWrite ch hdr beats) s
        = execHostWrite ch hdr beats s := rfl
      _ = .next (((s.requested ch hdr).tryAccess a).1.accDone a (.status 0)) := by
        rw [execHostWrite_up hup, hok, hostReq_ends hout hbusy ha hfree hend, hdone]
      _ = _ := congrArg _ (accDone_hostWrite (by rw [ha]) 0)
  case read =>
    intro ch hdr s s1 a bs hup hout hbusy hok ha hfree hs1 hdone
    have hs1 : s1 = s.requested ch hdr := hs1.trans (requested_read (hdOp_of_hdrOk hok)).symm
    subst hs1
    have hend : ((s.requested ch hdr).tryAccess a).2 ≠ .wait := fun h => AccOut.noConfusion (hdone.symm.trans h)
    calc exec (.hostRead ch hdr) s
        = execHostRead ch hdr s := rfl
      _ = .next (((s.requested ch hdr).tryAccess a).1.accDone a (.data bs)) := by
        rw [execHostRead_up hup, hok, hostReq_ends hout hbusy ha hfree hend, hdone]
      _ = _ := congrArg _ (accDone_hostRead (by rw [ha]) bs)
  case readMalformed =>
    intro ch hdr s hup hout hok
    calc exec (.hostRead ch hdr) s
        = execHostRead ch hdr s := rfl
      _ = .next ((s.requested ch hdr).hostAnswer ch hdr 5 [emptyBeat]) := by
        rw [execHostRead_up hup, hok, hostReq_malformed hout]
  case readTagInUse =>
    intro ch hdr s hup hout hbusy hok
    have hop : hdOp hdr = 1 := hdOp_of_hdrOk hok
    calc exec (.hostRead ch hdr) s
        = execHostRead ch hdr s := rfl
      _ = _ := by rw [execHostRead_up hup, hok, hostReq_tagInUse hout hbusy, if_pos hop, requested_read hop]
  case writeRefused =>
    intro ch hdr beats s hup hout hbad
    calc exec (.hostWrite ch hdr beats) s
        = execHostWrite ch hdr beats s := rfl
      _ = .next ((s.requested ch hdr).hostAnswer ch hdr 5 [emptyBeat]) := by
        rw [execHostWrite_up hup]
        cases hok : hdrOk hdr 2 && beatsOk hdr beats with
        | false => rw [hostReq_malformed hout]
        | true =>
          have hbusy : s.host.busy.contains (ch * 4096 + hdTag hdr) = true := hbad.resolve_left (ne_false_of_eq_true hok)
          have hop : hdOp hdr = 2 := hdOp_of_hdrOk (Bool.and_eq_true_iff.mp hok).1
          rw [hostReq_tagInUse hout hbusy, hop, if_neg (by decide)]
  case tried =>
    intro s hup
    calc exec .writeAdmit s = execWriteAdmit s := rfl
      _ = _ := onPage_up hup
  case retryEnds =>
    intro s s1 a hfree hs1 hend
    subst hs1
    exact retryOne_ends hfree hend

end Sys2Proof.Machine

/-! # Deltas, acknowledgements and seals of a group

A message with room on its channel reaches its handler on the state with its flits received, and one that belongs to a slot changes
nothing by being found; the rest is what the handler does there. -/

namespace Sys2Proof.Machine

open Sys2Proof

section

variable {s : State}

/-! ### Deltas out (R73, R81, R82) -/

/-- An open delta is sent to each live holder that has not had it, under that holder's next number (R73). -/
theorem deltaSend_open {i : Nat} {d : Delta} (hopen : s.coding.open_[i]? = some d)
    (hstart : s.flag F.CDR_CMD_STAT_AWAIT_START d.slot = false) :
    s.deltaSend i false =
      (let r := d.acks.foldl (fun (acc : State × List Ack) a =>
          if a.seq.isSome || a.acked || a.reseed || Grp.lost acc.1 d.slot a.role then (acc.1, acc.2 ++ [a])
          else ((acc.1.nextSeq d.slot a.role).2.sendDelta d a (acc.1.nextSeq d.slot a.role).1 false,
            acc.2 ++ [{ a with seq := some (acc.1.nextSeq d.slot a.role).1 }])) (s, [])
       r.1.setDelta i { d with acks := r.2 }) := by
  simp only [State.deltaSend, hopen, hstart, Bool.false_eq_true, if_false]

/-- A record sent and not acknowledged is sent again under its number (R81). -/
theorem resend_open {d : Delta} {a : Ack} {q : Nat} (hseq : a.seq = some q) (hack : a.acked = false) (hreseed : a.reseed = false)
    (hlost : Grp.lost s d.slot a.role = false) :
    s.resend d a = ((s.sendDelta d a q true).bump F.CDJ_RESEND_CNT_COUNT).event 0x0D03 (some (Grp.part s d.slot)) := by
  simp only [State.resend, hseq, hack, hreseed, hlost, Bool.or_self, Bool.false_eq_true, if_false]

/-- RESEND of an open entry's number sends it again to the holder. -/
theorem execResend_entry {entry : Nat} {holder : Fin 32} {d : Delta} (hrun : s.run = .running)
    (hopen : s.coding.open_[entry]? = some d) :
    execResend entry holder s = .next ((d.acks.filter (·.role == holder.val)).foldl (fun x a => x.resend d a) s) := by
  simp only [execResend, onUp_running hrun, hopen]

/-- RESEND of a repair record's number (log entry 65) sends it again to its holder. -/
theorem execResend_repair {entry : Nat} {holder : Fin 32} {x : RepairRec} (hrun : s.run = .running)
    (hnone : s.coding.open_[entry]? = none) (hfirst : firstRepair ≤ entry)
    (hrec : s.coding.repairs[entry - firstRepair]? = some x) (hrole : x.role = holder.val) :
    execResend entry holder s = .next (s.resendRepair x) := by
  simp only [execResend, onUp_running hrun, hnone, if_neg (Nat.not_lt.mpr hfirst), hrec, if_pos hrole]

/-- A holder that owes an acknowledgement becomes suspect when its time is over (R82). -/
theorem execAckTimeout_suspects {entry : Nat} {holder : Fin 32} {d : Delta} (hrun : s.run = .running)
    (hopen : s.coding.open_[entry]? = some d) (howes : (d.acks.any fun a => a.role == holder.val && a.seq.isSome && !a.acked) = true)
    (hlost : Grp.lost s d.slot holder.val = false) :
    execAckTimeout entry holder s = .next (s.suspect d.slot holder.val 0x0402 d.row) := by
  simp only [execAckTimeout, onUp_running hrun, hopen, howes, hlost, Bool.not_false, Bool.and_self, if_true]

/-- A repeated send from a number on takes deltas and repairs together, in the order of their numbers (R77). -/
theorem resendFrom_eq (g role n : Nat) : s.resendFrom g role n =
    (let deltas := (s.coding.open_.filter (·.slot == g)).flatMap fun d =>
       (d.acks.filter fun a => a.role == role && (a.seq.map (serialLe n ·)).getD false).map fun a =>
         (a.seq.getD 0, (Sum.inl (d, a) : Delta × Ack ⊕ RepairRec))
     let repairs := (s.coding.repairs.filter fun x => x.slot == g && x.role == role && serialLe n x.seq).map fun x =>
       (x.seq, (Sum.inr x : Delta × Ack ⊕ RepairRec))
     ((deltas ++ repairs).foldl (fun l x => putTurn n x l) []).foldl
       (fun y x => x.2.elim (fun e => y.resend e.1 e.2) (fun e => y.resendRepair e)) s) := by
  refine congrArg (List.foldl · s _) (funext fun t => funext fun x => ?_)
  obtain ⟨q, d | r⟩ := x
  · rfl
  · rfl

/-! ### Messages of a slot's members (R77, R78, R84) -/

/-- A message of a channel comes with room for it, from a valid node and not by the test gate: `s1` is the state with it received. -/
structure State.Receives (s : State) (vc : Nat) (resp gate : Bool) (src : BitVec 20) (msg : List Byte) (s1 : State) : Prop where
  up : s.Up Page.FBP
  room : s.rxCredits vc resp ≠ 0
  node : ¬ 262143 < src.toNat
  untested : gate = false
  state : s1 = s.msgIn vc resp gate src.toNat msg

variable {src : BitVec 20} {msg : List Byte} {g : Nat} {s1 : State} {gate : Bool}

theorem onMsg_receives {vc : Nat} {resp : Bool} {f : State → State} (h : s.Receives vc resp gate src msg s1) :
    onMsg s vc resp gate src msg f = .next (f s1) :=
  onMsg_good h.up h.room h.node h.untested h.state

/-- An ACK for this member's records closes what it covers (R77, R79). -/
theorem execAck_good (h : s.Receives 1 true gate src msg s1) (hslot : (s1.msgSlot src.toNat msg 2 5).2 = some g)
    (hown : fieldLE msg 4 1 = Grp.own s1 g) :
    execAck gate src msg s = .next ((s1.ackIn g (fieldLE msg 5 1) (fieldLE msg 8 4)).emptyDrained) := by
  simp only [execAck, onMsg_receives h, msgSlot_found hslot, if_pos hown]

/-- A NAK for this member's records has all from its number on sent again (R77). -/
theorem execNak_good (h : s.Receives 1 true gate src msg s1) (hslot : (s1.msgSlot src.toNat msg 3 5).2 = some g)
    (hown : fieldLE msg 4 1 = Grp.own s1 g) :
    execNak gate src msg s = .next (s1.resendFrom g (fieldLE msg 5 1) (fieldLE msg 8 4)) := by
  simp only [execNak, onMsg_receives h, msgSlot_found hslot, if_pos hown]

/-- The acting manager takes a member's seal (R84). -/
theorem execMemberSeal_good (h : s.Receives 1 false gate src msg s1) (hslot : (s1.msgSlot src.toNat msg 4 4).2 = some g)
    (hact : Grp.acting s1 g = Grp.own s1 g) :
    execMemberSeal gate src msg s = .next (s1.takeMbrSeal g (fieldLE msg 4 1) (fieldLE msg 16 8)) := by
  simp only [execMemberSeal, onMsg_receives h, msgSlot_found hslot, if_pos hact]

/-- A member takes the group seal that the acting manager publishes (R84). -/
theorem execGroupSeal_good (h : s.Receives 1 false gate src msg s1) (hslot : (s1.msgSlot src.toNat msg 5 4).2 = some g)
    (hact : fieldLE msg 4 1 = Grp.acting s1 g) :
    execGroupSeal gate src msg s = .next (s1.setGrpSeal g (fieldLE msg 16 8)) := by
  simp only [execGroupSeal, onMsg_receives h, msgSlot_found hslot, if_pos hact]

/-- A newer group seal replaces the one held (R85). -/
theorem setGrpSeal_newer {t : Nat} (hnew : s.rd64 R.CDE_GRP_SEAL_LO g < t) : s.setGrpSeal g t = s.wr64 R.CDE_GRP_SEAL_LO g t :=
  if_pos hnew

/-- What has come in order since the last ACK is acknowledged (R77). -/
theorem execAckSend_owed {slot : Fin 16} {member : Fin 32} (hrun : s.run = .running) (hstate : Grp.state s slot.val ≠ 0)
    (howed : 0 < (s.rxGet slot.val member.val).since) : execAckSend slot member s = .next (s.sendAck slot.val member.val) := by
  rw [execAckSend, onUp_running hrun, if_pos ⟨hstate, howed⟩]

end

/-- Settles O9: each command reaches its handler, and the handler does what its lemma above says. -/
theorem codingStreamMessages : Obligations.CodingStreamMessages := by
  refine ⟨?deltaSend, ?ackSend, ?ack, ?nak, ?resendEntry, ?resendRepair, fun _ _ _ _ => resend_open, ?ackTimeout, ?memberSeal,
    ?groupSeal⟩
  case deltaSend =>
    intro entry s d hrun hopen hstart
    calc exec (.deltaSend entry false) s
        = .next (s.deltaSend entry false) := onUp_running (f := fun s => s.deltaSend entry false) hrun
      _ = _ := congrArg _ (deltaSend_open hopen hstart)
  case ackSend =>
    intro slot member s hrun hstate howed
    exact execAckSend_owed hrun hstate howed
  case ack =>
    intro gate src msg s s1 g hup hcr hnode hgate hs1 hslot hown
    exact execAck_good ⟨hup, hcr, hnode, hgate, hs1⟩ hslot hown
  case nak =>
    intro gate src msg s s1 g hup hcr hnode hgate hs1 hslot hown
    exact (execNak_good ⟨hup, hcr, hnode, hgate, hs1⟩ hslot hown).trans (congrArg _ (resendFrom_eq _ _ _))
  case resendEntry =>
    intro entry holder s d hrun hopen
    exact execResend_entry hrun hopen
  case resendRepair =>
    intro entry holder s x hrun hnone hfirst hrec hrole
    exact execResend_repair hrun hnone hfirst hrec hrole
  case ackTimeout =>
    intro entry holder s d hrun hopen howes hlost
    exact execAckTimeout_suspects hrun hopen howes hlost
  case memberSeal =>
    intro gate src msg s s1 g hup hcr hnode hgate hs1 hslot hact
    exact execMemberSeal_good ⟨hup, hcr, hnode, hgate, hs1⟩ hslot hact
  case groupSeal =>
    intro gate src msg s s1 g hup hcr hnode hgate hs1 hslot hact hnew
    exact (execGroupSeal_good ⟨hup, hcr, hnode, hgate, hs1⟩ hslot hact).trans (congrArg _ (setGrpSeal_newer hnew))

end Sys2Proof.Machine

/-! # The life of a group slot

Every command of `CDE_GRP_CMD` goes through the right of its path and the clocks of its page to one operation of a slot; what is
left to say is what the operation does in each of its cases. -/

namespace Sys2Proof.Machine

open Sys2Proof

section

variable {s : State} {g : Nat} {path : Path}

/-! ### Installing (R88, R89, R100, R490) -/

/-- An install that R88's checks refuse shows the reason. -/
theorem install_refused (hreason : s.installReason g ≠ 0) :
    s.install g = (s.fset F.CDE_GRP_STAT_REASON g (s.installReason g)).irq Page.CDE 1 :=
  if_pos (bne_iff_ne.mpr hreason)

/-! The filling of a region counts events, and leaves every register but those of the counters alone. -/

theorem rd_foldl {α : Type} {f : State → α → State} {off item : Nat} (hf : ∀ t a, (f t a).rd off item = t.rd off item)
    (l : List α) : (l.foldl f s).rd off item = s.rd off item :=
  List.foldlRecOn (motive := fun t : State => t.rd off item = s.rd off item) l f rfl fun t ht a _ => (hf t a).trans ht

theorem rd_secsWritten_other {a n off item : Nat} {hit : Nat → Bool} (hlo : regKey off item ≠ regKey R.CTR_OVF_LO 0)
    (hhi : regKey off item ≠ regKey R.CTR_OVF_HI 0) (hirq : regKey off item ≠ regKey (irqStatOff Page.CTR) 0) :
    (s.secsWritten a n hit).rd off item = s.rd off item := by
  unfold State.secsWritten
  split
  · rfl
  · refine rd_foldl (fun t i => ?_) _
    exact (rd_event_other _ _ _ _ _ _ hlo hhi hirq).trans (rd_congr (active_regs _ _ _) _ _)

theorem rd_mirrorFill (a n off item : Nat) : (s.mirrorFill a n).rd off item = s.rd off item := by
  unfold State.mirrorFill
  dsimp only
  split
  · rfl
  · rfl

theorem xtSend_regs (wr : Bool) (i : Nat) (data : List (Option Byte)) : (s.xtSend wr i data).regs = s.regs := active_regs s 2 1

theorem rd_xtStore (gs : List Nat) (off item : Nat) : (s.xtStore gs).rd off item = s.rd off item := by
  unfold State.xtStore
  exact rd_foldl (fun t i => rd_congr (xtSend_regs _ _ _) _ _) gs

theorem rd_zeroSlots_other {t : Tier} {base n off item : Nat} (hlo : regKey off item ≠ regKey R.CTR_OVF_LO 0)
    (hhi : regKey off item ≠ regKey R.CTR_OVF_HI 0) (hirq : regKey off item ≠ regKey (irqStatOff Page.CTR) 0) :
    (s.zeroSlots t base n).rd off item = s.rd off item := by
  unfold State.zeroSlots
  cases t with
  | t1 =>
    dsimp only
    rw [rd_secsWritten_other hlo hhi hirq, rd_mirrorFill]
    exact rd_congr rfl _ _
  | t2 =>
    dsimp only
    rw [rd_xtStore]
    exact rd_congr rfl _ _

/-- Registers at different offsets have no word in common. -/
theorem regKey_ne_of_lt {off off' item item' : Nat} (h : off < off') : regKey off item ≠ regKey off' item' := by
  unfold regKey
  omega

theorem rows_zeroSlots (t : Tier) (base n : Nat) : Grp.rows (s.zeroSlots t base n) g = Grp.rows s g :=
  congrArg (bits · _ _) (rd_zeroSlots_other (regKey_ne_of_lt (by decide)) (regKey_ne_of_lt (by decide)) (regKey_ne_of_lt (by decide)))

/-- Zero tag lines, and a PENDING line for each row (R66, R100). -/
theorem markPending_eq : s.markPending g =
    (List.range (Grp.rows s g)).foldl (fun (x : State) r => x.tagPut g r (tagMake x g r [] 1))
      (s.zeroSlots (Grp.tier s g) (s.fget F.CDE_GRP_TAG_TAG_BASE g) (Grp.tagSlots s g)) := by
  unfold State.markPending
  dsimp only
  rw [rows_zeroSlots]

/-- An install that rebuilds starts the cursor and the report over (log entry 57) and marks every row PENDING. -/
theorem install_rebuild {s1 : State} (hreason : s.installReason g = 0)
    (hs1 : s1 = ((s.fset F.CDE_GRP_STAT_REASON g 0).slotFresh g).fset F.CDR_LOST_ROLES g 0)
    (hrebuild : s1.flag F.CDR_CTRL_REBUILD_ON_INSTALL = true) :
    s.install g =
      (let s2 := (s1.setSlotState g 1).setBusy g .markPending
       let s3 := ((s2.fset F.CDR_CURSOR_ROW g 0).fset F.CDR_LEFT_ROWS g (Grp.rows s2 g)).wr R.CDR_REPORT_CNT g 0
       let s4 := s3.wr R.CDR_REPORT_LOST g 0
       (List.range (Grp.rows s4 g)).foldl (fun (x : State) r => x.tagPut g r (tagMake x g r [] 1))
         (s4.zeroSlots (Grp.tier s4 g) (s4.fget F.CDE_GRP_TAG_TAG_BASE g) (Grp.tagSlots s4 g))) := by
  subst hs1
  simp only [State.install, hreason, bne_self_eq_false, hrebuild, Bool.false_eq_true, if_false, if_true, markPending_eq]

/-- An install that fills has its data and its tag lines zeroed. -/
theorem install_zero {s1 : State} (hreason : s.installReason g = 0)
    (hs1 : s1 = ((s.fset F.CDE_GRP_STAT_REASON g 0).slotFresh g).fset F.CDR_LOST_ROLES g 0)
    (hrebuild : s1.flag F.CDR_CTRL_REBUILD_ON_INSTALL = false) (hzero : s1.flag F.CDE_GRP_CFG_ZERO g = true) :
    s.install g =
      (let s2 := (s1.setSlotState g 1).setBusy g .zeroFill
       let s3 := s2.zeroSlots (Grp.tier s2 g) (s2.fget F.CDE_GRP_BASE_BASE g) (Grp.rows s2 g)
       s3.zeroSlots (Grp.tier s3 g) (s3.fget F.CDE_GRP_TAG_TAG_BASE g) (Grp.tagSlots s3 g)) := by
  subst hs1
  simp only [State.install, hreason, bne_self_eq_false, hrebuild, hzero, Bool.false_eq_true, if_false, if_true]

/-- An install that does neither has its tag lines checked. -/
theorem install_tagCheck {s1 : State} (hreason : s.installReason g = 0)
    (hs1 : s1 = ((s.fset F.CDE_GRP_STAT_REASON g 0).slotFresh g).fset F.CDR_LOST_ROLES g 0)
    (hrebuild : s1.flag F.CDR_CTRL_REBUILD_ON_INSTALL = false) (hzero : s1.flag F.CDE_GRP_CFG_ZERO g = false) :
    s.install g = s1.setBusy g .tagCheck := by
  subst hs1
  simp only [State.install, hreason, bne_self_eq_false, hrebuild, hzero, Bool.false_eq_true, if_false]

/-! ### The commands of `CDE_GRP_CMD` on the slot selected -/

theorem execInstallGroup_up (hmay : s.pathMay path R.CDE_GRP_CMD = true) (hup : s.Up Page.CDE) :
    execInstallGroup path s = .next (s.install (s.sel path F.CDE_GRP_SEL_SLOT)) := by
  rw [execInstallGroup, fromPath_may hmay, onPage_up hup]

/-- A drain of an ACTIVE slot makes it DRAINING, or DRAINED where nothing is open (R91). -/
theorem execDrainSlot_active (hmay : s.pathMay path R.CDE_GRP_CMD = true) (hup : s.Up Page.CDE)
    (hstate : Grp.state s (s.sel path F.CDE_GRP_SEL_SLOT) = 1) :
    execDrainSlot path s =
      .next ((s.setSlotState (s.sel path F.CDE_GRP_SEL_SLOT) 2).drainedCheck (s.sel path F.CDE_GRP_SEL_SLOT)) := by
  rw [execDrainSlot, fromPath_may hmay, onPage_up hup, if_pos hstate]

/-- A resume makes a DRAINED slot ACTIVE again (R91). -/
theorem execResume_drained (hmay : s.pathMay path R.CDE_GRP_CMD = true) (hup : s.Up Page.CDE)
    (hstate : Grp.state s (s.sel path F.CDE_GRP_SEL_SLOT) = 3) :
    execResume path s = .next (s.setSlotState (s.sel path F.CDE_GRP_SEL_SLOT) 1) := by
  rw [execResume, fromPath_may hmay, onPage_up hup, if_pos hstate]

theorem execDissolve_up (hmay : s.pathMay path R.CDE_GRP_CMD = true) (hup : s.Up Page.CDE) :
    execDissolve path s = .next (s.dissolveSlot (s.sel path F.CDE_GRP_SEL_SLOT)) := by
  rw [execDissolve, fromPath_may hmay, onPage_up hup]

/-! ### The end of a fill and of a tag check -/

variable {slot : Fin 16}

theorem execZeroFillDone_filling (hrun : s.run = .running) (hbusy : alGet s.coding.busy slot.val = some .zeroFill) :
    execZeroFillDone slot s = .next (s.installed slot.val) := by
  rw [execZeroFillDone, onUp_running hrun, if_pos hbusy]

theorem execTagCheckDone_checking (hrun : s.run = .running) (hbusy : alGet s.coding.busy slot.val = some .tagCheck) :
    execTagCheckDone slot s = .next
      ((((List.range (Grp.rows s slot.val)).foldl (fun (x : State) r => (x.tagRead slot.val r).1) s).countPending
        slot.val).installed slot.val) := by
  rw [execTagCheckDone, onUp_running hrun, if_pos hbusy]

/-! ### Dissolving (R91) -/

/-- No unit has a write of its own in progress or waiting. -/
structure State.NoWrites (s : State) : Prop where
  stalled : s.coding.stalled = []
  passes : ∀ p ∈ List.range 8, (s.updPart p).pass = none
  lanes : ∀ j ∈ s.lane.jobs, j.todo.isEmpty = true
  collectives : ∀ x ∈ s.col.jobs, x.todo.isEmpty = true
  pages : s.pages.jobs = []
  restores : s.arc.restores = []
  noise : s.upd.noise = none

theorem passFlush_none {p : Nat} (hpass : (s.updPart p).pass = none) : s.passFlush p = s := by
  rw [State.passFlush, hpass]

/-- With no pass in progress nothing of the update unit is left to write. -/
theorem passesFlush_none (hpass : ∀ p ∈ List.range 8, (s.updPart p).pass = none) : s.passesFlush = s :=
  foldl_fixed fun p hp => passFlush_none (hpass p hp)

theorem retryThose_none (hstalled : s.coding.stalled = []) (f : Access → Bool) : s.retryThose f = s := by
  rw [State.retryThose, hstalled]
  rfl

theorem filter_not_eq_nil {α : Type} {l : List α} {f : α → Bool} (h : ∀ j ∈ l, f j = true) :
    l.filter (fun j => !f j) = [] :=
  List.filter_eq_nil_iff.mpr fun j hj => by rw [h j hj]; decide

/-- Where no write is in progress, trying them all changes nothing. -/
theorem flushWrites_none (h : s.NoWrites) : s.flushWrites g = s := by
  have hlanes : (s.lane.jobs.filter fun j => !j.todo.isEmpty) = [] := filter_not_eq_nil h.lanes
  have hcols : (s.col.jobs.filter fun x => !x.todo.isEmpty) = [] := filter_not_eq_nil h.collectives
  have hpasses : s.passesFlush = s := passesFlush_none h.passes
  have hretry : s.retryThose (·.use.writes) = s := retryThose_none h.stalled _
  have hjobs : s.runJobs = s := by rw [State.runJobs, h.pages, List.foldl_nil]
  unfold State.flushWrites
  rw [hpasses]
  dsimp only
  rw [hlanes, List.foldl_nil, hretry, hcols, List.foldl_nil, hjobs, h.restores, List.foldl_nil, h.noise]

/-- Dissolving a group that no write stands in the way of empties its slot. -/
theorem dissolveSlot_quiet (h : s.NoWrites) (hplain : s.coding.plain = none) (hstate : Grp.state s g ≠ 0) :
    s.dissolveSlot g = s.dissolve g := by
  have htaken : s.slotTaken g = true := Bool.or_eq_true_iff.mpr (.inl (bne_iff_ne.mpr hstate))
  have hflush : ({ s with coding := { s.coding with plain := some g } } : State).flushWrites g
      = { s with coding := { s.coding with plain := some g } } :=
    flushWrites_none ⟨h.stalled, h.passes, h.lanes, h.collectives, h.pages, h.restores, h.noise⟩
  have hback : ({ s with coding := { s.coding with plain := none } } : State) = s := by rw [← hplain]
  simp only [State.dissolveSlot, htaken, Bool.not_true, Bool.false_eq_true, if_false, hflush, hback]

theorem dissolve_of_state (hstate : Grp.state s g ≠ 0) :
    s.dissolve g = (((((s.slotFresh g).endBusy g).setSlotState g 0).set0 F.CDR_CMD_STAT_AWAIT_START g).set0
      F.CDR_CMD_STAT_REBUILDING g).updCdj.updSeals := by
  rw [State.dissolve, if_neg fun h => hstate (of_decide_eq_true (Bool.and_eq_true_iff.mp h).1)]

end

/-- Settles O10: the checks and the two settings choose the case of an install, the slot's state that of the other commands, and with
no write in progress a dissolve has none to complete first. -/
theorem groupSlotLifeCycle : Obligations.GroupSlotLifeCycle := by
  refine ⟨?refused, ?tagCheck, ?zero, ?rebuild, ?zeroDone, ?tagCheckDone, ?drain, ?resume, ?dissolve⟩
  case refused =>
    intro path s g hmay hup hg hreason
    subst hg
    exact (execInstallGroup_up hmay hup).trans (congrArg _ (install_refused hreason))
  case tagCheck =>
    intro path s g s1 hmay hup hg hreason hs1 hrebuild hzero
    subst hg
    exact (execInstallGroup_up hmay hup).trans (congrArg _ (install_tagCheck hreason hs1 hrebuild hzero))
  case zero =>
    intro path s g s1 hmay hup hg hreason hs1 hrebuild hzero
    subst hg
    exact (execInstallGroup_up hmay hup).trans (congrArg _ (install_zero hreason hs1 hrebuild hzero))
  case rebuild =>
    intro path s g s1 hmay hup hg hreason hs1 hrebuild
    subst hg
    exact (execInstallGroup_up hmay hup).trans (congrArg _ (install_rebuild hreason hs1 hrebuild))
  case zeroDone =>
    intro slot s hrun hbusy
    exact execZeroFillDone_filling hrun hbusy
  case tagCheckDone =>
    intro slot s hrun hbusy
    exact execTagCheckDone_checking hrun hbusy
  case drain =>
    intro path s g hmay hup hg hstate
    subst hg
    exact execDrainSlot_active hmay hup hstate
  case resume =>
    intro path s g hmay hup hg hstate
    subst hg
    exact execResume_drained hmay hup hstate
  case dissolve =>
    intro path s g hmay hup hg hstalled hplain hpasses hlanes hcols hpages hrestores hnoise hstate
    subst hg
    have hpasses : ∀ p ∈ List.range 8, (s.updPart p).pass = none := fun p hp =>
      Option.isNone_iff_eq_none.mp (List.all_eq_true.mp hpasses p hp)
    have hquiet : s.NoWrites :=
      ⟨hstalled, hpasses, List.all_eq_true.mp hlanes, List.all_eq_true.mp hcols, hpages, hrestores, hnoise⟩
    calc exec (.dissolve path) s
        = .next (s.dissolveSlot (s.sel path F.CDE_GRP_SEL_SLOT)) := execDissolve_up hmay hup
      _ = _ := by rw [dissolveSlot_quiet hquiet hplain hstate, dissolve_of_state hstate]

end Sys2Proof.Machine

/-! # What an answered gather request changes

The holder of a row's parity that a reseed was sent to asks for the row's block, and from then on its ACK ends what the entries of the
row owe it (R396, log entry 21): the request that is answered OK is noted in the open entries. -/

namespace Sys2Proof.Machine

open Sys2Proof

/-- An open entry of row 2 whose record to role 1 is replaced by a reseed that the role has not asked for yet. -/
def reseededEntry : Delta := ⟨0, 2, 0, 0, 0, 0, [], [⟨1, 0, none, false, true, false⟩]⟩

/-- The member of role 0 in a group of two data symbols and one parity, its link up: it holds the parity of row 2, whose tag line is
written, and has that entry open. -/
def parityHolder : State :=
  let up : State := { State.reset with run := .running }
  let linked := (((up.fset F.FBP_CTRL_EN 0 1).fset F.FBP_STAT_LINK_UP 0 1).fset F.FVC_BUF_SIZE 1 64).fset F.FVC_BUF_RESP 1 16
  let sized := ((linked.fset F.CDE_GRP_CFG_K 0 2).fset F.CDE_GRP_CFG_M 0 1).fset F.CDE_GRP_ROWS_ROWS 0 3
  let placed := (sized.fset F.CDE_GRP_BASE_BASE 0 1024).fset F.CDE_GRP_TAG_TAG_BASE 0 2048
  let active := (placed.fset F.CDE_GRP_STAT_STATE 0 1).fset F.CDE_MEMB_NODE_NODE 1 1
  let tagged := active.tagPut 0 2 (tagMake active 0 2 [] 0)
  { tagged with coding := { tagged.coding with open_ := [reseededEntry] } }

/-- The same entry once the role has asked for the row. -/
def servedEntry : Delta := { reseededEntry with acks := [⟨1, 0, none, false, true, true⟩] }

/-- The request of role 1 to role 0 for row 2. -/
def rowRequest : List Byte := msg32 6 0 1 0 0 0 2 0 0

/-- The state in which the request has come in. -/
def requestTaken : State := parityHolder.msgIn 1 false false 1 rowRequest

/-- The row's tag line as the request has it read. -/
def tagAsked : State × TagLine := requestTaken.tagRead 0 2

/-- The row's slot read after it. -/
def slotAsked : State × Read := tagAsked.1.readTier (Grp.tier tagAsked.1 0) (Grp.slotAddr tagAsked.1 0 2) 4096

/-- The open entries that a command leaves. -/
def openEntries : Host.Outcome State Fault Refusal → List Delta
  | .next s => s.coding.open_
  | _ => []

/-- Offering a message leaves the open entries alone. -/
theorem openEntries_sendMsg (s : State) (vc dst : Nat) (payload : List Byte) (part : Option Nat) (resp : Bool) :
    openEntries (.next (s.sendMsg vc dst payload part resp)) = s.coding.open_ := rfl

/-- The request is answered, and its requester noted as served. -/
theorem openEntries_rowRequest : openEntries (exec (.gatherRequest false 1 rowRequest) parityHolder) = [servedEntry] := by
  decide +kernel

/-- The reads alone leave the entry as it was. -/
theorem slotAsked_open : slotAsked.1.coding.open_ = [reseededEntry] := by decide +kernel

/-- Refutes O12: the clause for a request that a parity slot answers OK has the state, but for the answer, as the reads leave it; yet
the request also notes the requester as served in the row's open entries (R396). The clause is over every state, so also over one
with an entry open of a row whose parity the member holds. -/
theorem not_gatherAndRecordMessages : ¬ Obligations.GatherAndRecordMessages := by
  intro h
  obtain ⟨-, -, -, -, hparity, -⟩ := h
  have hanswer := hparity false 1 rowRequest parityHolder requestTaken 0 2 tagAsked slotAsked
    (by decide +kernel) (by decide +kernel) (by decide +kernel) rfl rfl (by decide +kernel) (by decide +kernel)
    (by decide +kernel) (by decide +kernel) (by decide +kernel) (by decide +kernel) (by decide +kernel) (by decide +kernel)
    (by decide +kernel) (by decide +kernel) (by decide +kernel) rfl (by decide +kernel) (by decide +kernel) rfl
    (by decide +kernel) (by decide +kernel) (by decide +kernel)
  have hkept : [servedEntry] = [reseededEntry] :=
    calc [servedEntry]
        = openEntries (exec (.gatherRequest false 1 rowRequest) parityHolder) := openEntries_rowRequest.symm
      _ = slotAsked.1.coding.open_ := by rw [hanswer, openEntries_sendMsg]
      _ = [reseededEntry] := slotAsked_open
  exact absurd hkept (by decide)

end Sys2Proof.Machine

/-! # The common head of a page, the two marks and reserved pages

A write whose path may make it and whose page takes it has its effect, and the port ends the access (R455, R499). -/

namespace Sys2Proof.Machine

open Sys2Proof

section

variable {s : State} {path : Path}

/-! ### Writes that a page takes -/

theorem execLockPage_takes {page : BitVec 5} (hmay : s.pathMay path (lockOff page.toNat) = true)
    (htakes : s.takesWrite page.toNat 0x030 = true) :
    execLockPage path page s = .next ((s.wr (lockOff page.toNat) 0 1).portEnds path page.toNat) := by
  rw [execLockPage, fromPath_may hmay, writeAt_takes htakes]

theorem execIrqSet_takes {page : BitVec 5} {value : Word} (hmay : s.pathMay path (irqStatOff page.toNat + 8) = true)
    (htakes : s.takesWrite page.toNat 0x018 = true) :
    execIrqSet path page value s = .next ((s.wr (irqStatOff page.toNat) 0
      (s.rd (irqStatOff page.toNat) ||| (value.toNat &&& irqMask page.toNat))).portEnds path page.toNat) := by
  rw [execIrqSet, fromPath_may hmay, writeAt_takes htakes]

theorem execClrCnt_takes {page : BitVec 5} (hmay : s.pathMay path (page.toNat * 0x1000 + 0x008) = true)
    (htakes : s.takesWrite page.toNat 0x008 = true) :
    execClrCnt path page s = .next ((s.clearCounters page.toNat).portEnds path page.toNat) := by
  rw [execClrCnt, fromPath_may hmay, writeAt_takes htakes]

variable {off : BitVec 17} {value : Word} {a : Nat}

/-- A write below 0x100 of a page goes to its common head. -/
theorem execRegisterWrite_head (ha : a = off.toNat / 4 * 4) (hmay : s.pathMay path a = true)
    (htakes : s.takesWrite (a / 0x1000) (a % 0x1000) = true) (hhead : a % 0x1000 < 0x100) :
    execRegisterWrite path off value s =
      .next ((s.headWrite (a / 0x1000) (a % 0x1000) value.toNat).portEnds path (a / 0x1000)) := by
  subst ha
  rw [execRegisterWrite, fromPath_may hmay, writeAt_takes htakes, if_pos hhead]

/-! ### The marks (R94, R384) -/

theorem execCdjHwmWrite_up (hmay : s.pathMay path R.CDJ_HWM = true) (hup : s.Up Page.CDJ) :
    execCdjHwmWrite path s = .next (s.fset F.CDJ_HWM_ENTRIES 0 s.coding.open_.length) := by
  rw [execCdjHwmWrite, fromPath_may hmay, onPage_up hup]

theorem execArbC1MaxWrite_up (hmay : s.pathMay path R.ARB_C1_MAX = true) (hup : s.Up Page.ARB) :
    execArbC1MaxWrite path s = .next (s.wr R.ARB_C1_MAX 0 0) := by
  rw [execArbC1MaxWrite, fromPath_may hmay, onPage_up hup]

/-! ### The registers of the head (R498, R499) -/

variable (s) (page v : Nat)

/-- `IRQ_STAT` clears where the write has ones. -/
theorem headWrite_irqStat : s.headWrite page 0x010 v =
    s.wr (page * 0x1000 + 0x010) 0 (s.rd (page * 0x1000 + 0x010) &&& (2 ^ 32 - 1 - v)) := rfl

/-- `IRQ_EN` takes the bits that the page routes. -/
theorem headWrite_irqEn : s.headWrite page 0x014 v = s.wr (page * 0x1000 + 0x014) 0 (v &&& irqMask page) := rfl

/-- `ERR_CNT` clears by any write. -/
theorem headWrite_errCnt : s.headWrite page 0x01C v = s.wr (page * 0x1000 + 0x01C) 0 0 := rfl

variable {v}

/-- `STAT.LOCK_DROP` clears by a one. -/
theorem headWrite_lockDrop (hone : bit v 3 = true) : s.headWrite page 0x00C v =
    s.wr (page * 0x1000 + 0x00C) 0 (setBit (s.rd (page * 0x1000 + 0x00C)) 3 false) := if_pos hone

variable {o : Nat} (v)

/-- What lies before `STAT` takes nothing from a register write. -/
theorem headWrite_beforeStat (ho : o < 0x0C) : s.headWrite page o v = s := by
  have hne : ∀ x, 0x0C ≤ x → o ≠ x := fun x hx => Nat.ne_of_lt (Nat.lt_of_lt_of_le ho hx)
  simp only [State.headWrite, hne 0x00C (by decide), hne 0x010 (by decide), hne 0x014 (by decide), hne 0x01C (by decide),
    hne 0x020 (by decide), hne 0x024 (by decide), hne 0x028 (by decide), or_self, if_false]

variable {s}

/-! ### Reserved pages (R455, R502) -/

/-- The word that an offset of a reserved page lies in is of a reserved page. -/
theorem reserved_page_of_le (hoff : 0x1D000 ≤ off.toNat) : 0x1D ≤ off.toNat / 4 * 4 / 0x1000 := by omega

theorem execRegisterWrite_reserved (hport : s.portUp = true) (hoff : 0x1D000 ≤ off.toNat) :
    execRegisterWrite .port off value s = .next { s with regErr := true } := by
  rw [execRegisterWrite, fromPath_port, writeAt_reserved hport (reserved_page_of_le hoff)]

theorem execLatchedRead_reserved (hrun : s.run = .running) (hoff : 0x1D000 ≤ off.toNat) :
    execLatchedRead .port off s = .next { s with rdata := 0, regErr := true } := by
  have hpage : 0x1D ≤ off.toNat / 0x1000 := by omega
  have hup : s.pageUp (off.toNat / 0x1000) = true := pageUp_running hrun
  simp only [execLatchedRead, State.pathReads, State.portEnds, portUp_pageUp hup, hup, decide_eq_true hpage,
    decide_eq_false (Nat.not_lt.mpr hpage), Bool.true_or, Bool.and_self, Bool.and_false, Bool.false_eq_true, if_true, if_false]

end

/-- Settles O46: each write has its effect where its page takes it; an access to a reserved page has none but the error signal (log
entry 107). -/
theorem registerCommandsOfEveryPage : Obligations.RegisterCommandsOfEveryPage := by
  refine ⟨?lock, ?irqSet, ?clear, fun _ _ => execCdjHwmWrite_up, fun _ _ => execArbC1MaxWrite_up, ?head, headWrite_irqStat,
    headWrite_irqEn, headWrite_errCnt, fun s page _ => headWrite_lockDrop s page, fun s page _ v => headWrite_beforeStat s page v,
    fun _ _ _ => execRegisterWrite_reserved, fun _ _ => execLatchedRead_reserved⟩
  case lock =>
    intro path page s a ha hmay htakes
    subst ha
    exact execLockPage_takes hmay htakes
  case irqSet =>
    intro path page value s a ha hmay htakes
    subst ha
    exact execIrqSet_takes hmay htakes
  case clear =>
    intro path page s hmay htakes
    exact execClrCnt_takes hmay htakes
  case head =>
    intro path off value s a ha hmay htakes hhead
    exact execRegisterWrite_head ha hmay htakes hhead

end Sys2Proof.Machine

/-! # The programs of the update unit

A built-in program is a list of operation words, each of which writes one register of an element's file. So what a program leaves in
an output is read off by rewriting: an operation word sets its destination, and a register read is the last one set there, or what the
file started with. -/

namespace Sys2Proof.Machine

open Sys2Proof

section

/-! ### Registers of a file -/

theorem getD_set_same {file : List Nat} {i v : Nat} (hi : i < file.length) : (file.set i v).getD i 0 = v := by
  rw [List.getD_eq_getElem?_getD, List.getElem?_set_self hi, Option.getD_some]

theorem getD_set_other {file : List Nat} {i j v : Nat} (hij : i ≠ j) : (file.set i v).getD j 0 = file.getD j 0 := by
  rw [List.getD_eq_getElem?_getD, List.getElem?_set_ne hij, List.getD_eq_getElem?_getD]

theorem getD_append_first {l l' : List Nat} {i : Nat} (hi : i < l.length) : (l ++ l').getD i 0 = l.getD i 0 := by
  rw [List.getD_eq_getElem?_getD, List.getElem?_append_left hi, List.getD_eq_getElem?_getD]

variable {w g m1 m2 : Nat} {hp : List Nat}

theorem padTo_of_length {n : Nat} (hlen : hp.length = n) : padTo n 0 hp = hp := by
  rw [padTo, hlen, Nat.sub_self, List.replicate_zero, List.append_nil, List.take_of_length_le (Nat.le_of_eq hlen)]

/-- An element's file starts with its words and the twelve hyperparameters (R131). -/
theorem elemFile_eq (hlen : hp.length = 12) :
    elemFile w g m1 m2 hp = w :: g :: m1 :: m2 :: (hp ++ ([0, f32One] ++ List.replicate 14 0)) := by
  rw [elemFile, padTo_of_length hlen, List.append_assoc, List.append_assoc]
  rfl

theorem length_elemFile (hlen : hp.length = 12) : (elemFile w g m1 m2 hp).length = 32 := by
  simp only [elemFile_eq hlen, List.length_cons, List.length_append, List.length_replicate, List.length_nil, hlen]

theorem elemFile_master : (elemFile w g m1 m2 hp).getD rW 0 = w := rfl

theorem elemFile_gradient : (elemFile w g m1 m2 hp).getD rG 0 = g := rfl

theorem elemFile_m1 : (elemFile w g m1 m2 hp).getD rM1 0 = m1 := rfl

theorem elemFile_m2 : (elemFile w g m1 m2 hp).getD rM2 0 = m2 := rfl

/-- The registers from H0 up to H11. -/
theorem elemFile_hyper (hlen : hp.length = 12) {i : Nat} (hlo : 4 ≤ i) (hhi : i < 16) :
    (elemFile w g m1 m2 hp).getD i 0 = hp.getD (i - 4) 0 := by
  obtain ⟨k, rfl⟩ := Nat.exists_eq_add_of_le' hlo
  rw [elemFile_eq hlen, Nat.add_sub_cancel]
  exact getD_append_first (by omega)

/-! ### One element (R131, R134) -/

/-- A program that names no state word whose region it leaves alone runs on the words that were read (log entry 31). -/
theorem wordsElem_finite {ws : List Nat} {f1 f2 : Nat} (hws : (Prog.words ws).strays = false) (hg : f32Finite g = true) :
    wordsElem ws hp f1 f2 ⟨some w, some g, some m1, some m2⟩ =
      (let file := runWords (elemFile w g m1 m2 hp) ws
       ⟨.upd w (file.getD rOW 0) g, if progWrites ws rOW then some (file.getD rOW 0) else none,
         if progWrites ws rOM1 then some (file.getD rOM1 0) else none,
         if progWrites ws rOM2 then some (file.getD rOM2 0) else none, some file⟩) := by
  obtain ⟨h1, h2⟩ := Bool.or_eq_false_iff.mp hws
  simp only [wordsElem, hg, h1, h2, Bool.not_true, Bool.false_eq_true, if_false]

/-! ### What each program leaves in its outputs (R136) -/

theorem sgdMom_outputs (hlen : hp.length = 12) :
    (let h := fun i => hp.getD i 0
     let m1' := f32Fma (h 9) m1 (f32Fma (h 6) w g)
     let out := (runWords (elemFile w g m1 m2 hp) progSgdMom).getD
     out rOW 0 = f32Fnma (h 0) m1' w ∧ out rOM1 0 = m1') := by
  simp only [runWords, progSgdMom, List.foldl_cons, List.foldl_nil, runOp_fma, runOp_fnma, runOp_mov, f32Canon_fma, getD_set_same,
    getD_set_other, List.length_set, length_elemFile hlen, elemFile_hyper hlen, elemFile_master, elemFile_gradient, elemFile_m1,
    rW, rG, rM1, rH, rT, rOW, rOM1, ne_eq, not_false_eq_true, reduceCtorEq, Nat.add_zero, Nat.sub_self, Nat.zero_lt_succ,
    Nat.reduceAdd, Nat.reduceSub, Nat.reduceLT, Nat.reduceLeDiff, Nat.reduceEqDiff, Std.le_refl, and_self]

theorem nesterov_outputs (hlen : hp.length = 12) :
    (let h := fun i => hp.getD i 0
     let g' := f32Fma (h 6) w g
     let m1' := f32Fma (h 9) m1 g'
     let out := (runWords (elemFile w g m1 m2 hp) progNesterov).getD
     out rOW 0 = f32Fnma (h 0) (f32Fma (h 9) m1' g') w ∧ out rOM1 0 = m1') := by
  simp only [runWords, progNesterov, List.foldl_cons, List.foldl_nil, runOp_fma, runOp_fnma, runOp_mov, f32Canon_fma,
    getD_set_same, getD_set_other, List.length_set, length_elemFile hlen, elemFile_hyper hlen, elemFile_master, elemFile_gradient,
    elemFile_m1, rW, rG, rM1, rH, rT, rOW, rOM1, ne_eq, not_false_eq_true, reduceCtorEq, Nat.add_zero, Nat.sub_self,
    Nat.zero_lt_succ, Nat.succ_ne_self, Nat.reduceAdd, Nat.reduceSub, Nat.reduceLT, Nat.reduceLeDiff, Nat.reduceEqDiff,
    Std.le_refl, and_self]

theorem adamw_outputs (hlen : hp.length = 12) :
    (let h := fun i => hp.getD i 0
     let m1' := f32Fma (h 1) m1 (f32Mul (h 2) g)
     let m2' := f32Fma (h 3) m2 (f32Mul (h 4) (f32Mul g g))
     let ratio := f32Div (f32Mul m1' (h 7)) (f32Add (f32Sqrt (f32Mul m2' (h 8))) (h 5))
     let out := (runWords (elemFile w g m1 m2 hp) progAdamw).getD
     out rOW 0 = f32Fnma (h 0) (f32Fma (h 6) w ratio) w ∧ out rOM1 0 = m1' ∧ out rOM2 0 = m2') := by
  simp only [runWords, progAdamw, List.foldl_cons, List.foldl_nil, runOp_fma, runOp_fnma, runOp_mov, runOp_mul, runOp_sqr,
    runOp_div, runOp_add, runOp_sqrt, f32Canon_fma, getD_set_same, getD_set_other, List.length_set, List.set_set,
    length_elemFile hlen, elemFile_hyper hlen, elemFile_master, elemFile_gradient, elemFile_m1, elemFile_m2, rW, rG, rM1, rM2, rH,
    rT, rOW, rOM1, rOM2, ne_eq, not_false_eq_true, reduceCtorEq, Nat.add_zero, Nat.sub_self, Nat.zero_lt_succ, Nat.succ_ne_self,
    Nat.reduceAdd, Nat.reduceSub, Nat.reduceLT, Nat.reduceLeDiff, Nat.reduceEqDiff, Std.le_refl, and_self]

theorem lion_outputs (hlen : hp.length = 12) :
    (let h := fun i => hp.getD i 0
     let sign := f32Sign (f32Fma (h 1) m1 (f32Mul (h 2) g))
     let out := (runWords (elemFile w g m1 m2 hp) progLion).getD
     out rOW 0 = f32Fnma (h 0) (f32Fma (h 6) w sign) w ∧ out rOM1 0 = f32Fma (h 3) m1 (f32Mul (h 4) g)) := by
  simp only [runWords, progLion, List.foldl_cons, List.foldl_nil, runOp_fma, runOp_fnma, runOp_mul, runOp_sign, getD_set_same,
    getD_set_other, List.length_set, List.set_set, length_elemFile hlen, elemFile_hyper hlen, elemFile_master, elemFile_gradient,
    elemFile_m1, rW, rG, rM1, rH, rT, rOW, rOM1, ne_eq, not_false_eq_true, reduceCtorEq, Nat.add_zero, Nat.sub_self,
    Nat.zero_lt_succ, Nat.succ_ne_self, Nat.reduceAdd, Nat.reduceSub, Nat.reduceLT, Nat.reduceLeDiff, Nat.reduceEqDiff,
    Std.le_refl, and_self]

end

/-- Settles O15: no program strays, so each runs on the words that were read; an output that it does not write is none. -/
theorem builtInProgramSequences : Obligations.BuiltInProgramSequences := by
  refine ⟨?sgdMom, ?nesterov, ?adamw, ?lion⟩
  case sgdMom =>
    intro hp w g m1 m2 f1 f2 hg hlen
    obtain ⟨hw, hm1⟩ := sgdMom_outputs hlen
    rw [wordsElem_finite rfl hg]
    exact ⟨congrArg some hw, congrArg some hm1, rfl⟩
  case nesterov =>
    intro hp w g m1 m2 f1 f2 hg hlen
    obtain ⟨hw, hm1⟩ := nesterov_outputs hlen
    rw [wordsElem_finite rfl hg]
    exact ⟨congrArg some hw, congrArg some hm1, rfl⟩
  case adamw =>
    intro hp w g m1 m2 f1 f2 hg hlen
    obtain ⟨hw, hm1, hm2⟩ := adamw_outputs hlen
    rw [wordsElem_finite rfl hg]
    exact ⟨congrArg some hw, congrArg some hm1, congrArg some hm2⟩
  case lion =>
    intro hp w g m1 m2 f1 f2 hg hlen
    obtain ⟨hw, hm1⟩ := lion_outputs hlen
    rw [wordsElem_finite rfl hg]
    exact ⟨congrArg some hw, congrArg some hm1, rfl⟩

end Sys2Proof.Machine

/-! # The operations of the update unit

Each operation is one operation word on the register file; what differs is how many operands it takes, and R133 asks of those alone
that a program may read them. -/

namespace Sys2Proof.Machine

open Sys2Proof

section

/-! ### Registers that a program may read -/

variable {x y z : Nat}

theorem readable_one (hx : x < 28) : ∀ r ∈ [x], r < 28 := List.forall_mem_singleton.mpr hx

theorem readable_two (hx : x < 28) (hy : y < 28) : ∀ r ∈ [x, y], r < 28 := List.forall_mem_cons.mpr ⟨hx, readable_one hy⟩

theorem readable_three (hx : x < 28) (hy : y < 28) (hz : z < 28) : ∀ r ∈ [x, y, z], r < 28 :=
  List.forall_mem_cons.mpr ⟨hx, readable_two hy hz⟩

/-- An operation with a destination that a program may write and operands it may read sets its destination. -/
theorem onPage_opStep {s : State} {op v : Nat} {d a b c : Fin 32} (hop : op < 32) (hup : s.Up Page.UPD) (hlo : 18 ≤ d.val)
    (hhi : d.val ≤ 30) (hread : ∀ r ∈ ([a.val, b.val, c.val]).take (opArity op), r < 28)
    (hv : opResult op (s.upd.file.getD a.val 0) (s.upd.file.getD b.val 0) (s.upd.file.getD c.val 0) = some v) :
    onPage s Page.UPD (fun s => s.opStep op d a b c) = .next { s with upd := { s.upd with file := s.upd.file.set d.val v } } := by
  have hused : (([a.val, b.val, c.val]).take (opArity op)).any (28 ≤ ·) = false :=
    List.any_eq_false.mpr fun r hr h => Nat.not_le.mpr (hread r hr) (of_decide_eq_true h)
  rw [onPage_up hup, opStep_value s d a b c hop ⟨hlo, hhi⟩ hused hv]

end

/-- Settles O16: NOP does nothing, and every other operation is of one, two or three operands. -/
theorem updateOperationsWriteTheirDestination : Obligations.UpdateOperationsWriteTheirDestination := by
  refine ⟨?nop, ?mov, ?add, ?sub, ?mul, ?fma, ?fnma, ?div, ?sqrt, ?max, ?min, ?abs, ?neg, ?sign, ?sel, ?sqr⟩
  case nop => exact fun _ _ _ _ _ hup => onPage_up (f := fun s => s) hup
  case mov => exact fun _ _ _ _ _ hup hlo hhi ha => onPage_opStep (op := 0x01) (by decide) hup hlo hhi (readable_one ha) rfl
  case sqrt => exact fun _ _ _ _ _ hup hlo hhi ha => onPage_opStep (op := 0x08) (by decide) hup hlo hhi (readable_one ha) rfl
  case abs => exact fun _ _ _ _ _ hup hlo hhi ha => onPage_opStep (op := 0x0B) (by decide) hup hlo hhi (readable_one ha) rfl
  case neg => exact fun _ _ _ _ _ hup hlo hhi ha => onPage_opStep (op := 0x0C) (by decide) hup hlo hhi (readable_one ha) rfl
  case sign => exact fun _ _ _ _ _ hup hlo hhi ha => onPage_opStep (op := 0x0D) (by decide) hup hlo hhi (readable_one ha) rfl
  case sqr => exact fun _ _ _ _ _ hup hlo hhi ha => onPage_opStep (op := 0x0F) (by decide) hup hlo hhi (readable_one ha) rfl
  case add => exact fun _ _ _ _ _ hup hlo hhi ha hb => onPage_opStep (op := 0x02) (by decide) hup hlo hhi (readable_two ha hb) rfl
  case sub => exact fun _ _ _ _ _ hup hlo hhi ha hb => onPage_opStep (op := 0x03) (by decide) hup hlo hhi (readable_two ha hb) rfl
  case mul => exact fun _ _ _ _ _ hup hlo hhi ha hb => onPage_opStep (op := 0x04) (by decide) hup hlo hhi (readable_two ha hb) rfl
  case div => exact fun _ _ _ _ _ hup hlo hhi ha hb => onPage_opStep (op := 0x07) (by decide) hup hlo hhi (readable_two ha hb) rfl
  case max => exact fun _ _ _ _ _ hup hlo hhi ha hb => onPage_opStep (op := 0x09) (by decide) hup hlo hhi (readable_two ha hb) rfl
  case min => exact fun _ _ _ _ _ hup hlo hhi ha hb => onPage_opStep (op := 0x0A) (by decide) hup hlo hhi (readable_two ha hb) rfl
  case fma => exact fun _ _ _ _ _ hup hlo hhi ha hb hc =>
    onPage_opStep (op := 0x05) (by decide) hup hlo hhi (readable_three ha hb hc) rfl
  case fnma => exact fun _ _ _ _ _ hup hlo hhi ha hb hc =>
    onPage_opStep (op := 0x06) (by decide) hup hlo hhi (readable_three ha hb hc) rfl
  case sel => exact fun _ _ _ _ _ hup hlo hhi ha hb hc =>
    onPage_opStep (op := 0x0E) (by decide) hup hlo hhi (readable_three ha hb hc) rfl

end Sys2Proof.Machine

/-! # The life of a pass

A command of a pass is one cycle of its partition's slots, and where the pass stands says what the cycle does: before a layer it reads
the next descriptor, and after the last layer it ends the pass. -/

namespace Sys2Proof.Machine

open Sys2Proof

section

variable {s : State} {p : Nat} {x z : Pass}

/-! ### Asking for a pass and beginning it (R128) -/

/-- A GO leaves the time of one that waits (log entry 19). -/
theorem execUpdPassGo_up {path : Path} (hmay : s.pathMay path R.UPD_PASS = true) (hup : s.Up Page.UPD) :
    execUpdPassGo path s = .next
      (let p := s.sel path F.UPD_PART_SEL_PART
       (s.setUpdPart p { s.updPart p with go := some ((s.updPart p).go.getD s.tick.hall) }).set1 F.UPD_FLIP_STAT_PASS_PENDING p) := by
  rw [execUpdPassGo, fromPath_may hmay, onPage_up hup]

/-- A pass that is due latches what it uses and keeps its pages (R128, R261). -/
theorem passBegin_due (hdue : s.passDue p = true) :
    s.passBegin p =
      (let h := s.belModes.holdPages p (s.passRuns p)
       let s2 := h.1.setUpdPart p
         { h.1.updPart p with go := none, pass := some ⟨s.rd R.UPD_CLIP_SCALE p, s.rd R.UPD_STEP p,
             s.rd R.CNV_SEED_LO p + s.rd R.CNV_SEED_HI p * 2 ^ 32, s.hpWords, 0, none, 0, [], 0, [], [], h.2, false, [], []⟩ }
       (s2.set0 F.UPD_FLIP_STAT_PASS_PENDING p).set1 F.UPD_FLIP_STAT_PASS_ACTIVE p) := by
  simp only [State.passBegin, hdue, Bool.not_true, Bool.false_eq_true, if_false]

/-! ### Before a layer (R127, R130) -/

/-- A pass between layers, with layers left, goes to the next one. -/
theorem layerCmd_begins {t : State} (hon : s.passOn p = some z) (htodo : z.todo = []) (hlate : z.late = [])
    (hx : x = { z with pinned := false }) (hdesc : x.desc = none) (hlayer : x.layer < s.fget F.UPD_LTAB_COUNT_COUNT p)
    (hbegin : (s.setPass p (some x)).layerBegin p x = (t, .go)) : s.layerCmd p = t := by
  have hz : z.desc = none := by rw [← hdesc, hx]
  have hleft : z.layer < s.fget F.UPD_LTAB_COUNT_COUNT p := by rw [hx] at hlayer; exact hlayer
  refine updRun_one_layer hon hz hleft ?_
  simp only [updStep_ready (passOn_pass hon) htodo hlate hx, hdesc, if_neg (Nat.not_le.mpr hlayer), hbegin]

variable {s1 : State} {bs : List (Option Byte)} {d : List Byte}

/-- A descriptor that a check of R127 refuses has its layer skipped. -/
theorem layerBegin_bad (hread : s.updRead p (s.fget F.UPD_LTAB_BASE_BASE p * 4096 + 64 * x.layer) 64 = (s1, .ok bs))
    (hd : d = bs.map (·.getD 0xFF)) (hreason : s1.ldReason p d ≠ 0) :
    s.layerBegin p x = (s1.layerSkip p x d (s1.ldReason p d), .go) := by
  subst hd
  simp only [State.layerBegin, hread, if_pos hreason]

/-- A good descriptor opens its layer once its READY flag is up; a layer that names no flag waits for none (R130). -/
theorem layerBegin_ready (hread : s.updRead p (s.fget F.UPD_LTAB_BASE_BASE p * 4096 + 64 * x.layer) 64 = (s1, .ok bs))
    (hd : d = bs.map (·.getD 0xFF)) (hreason : s1.ldReason p d = 0)
    (hready : ldReady d = 0xFFFF ∨ bit (s1.rd (R.COL_FLAG_0 + 4 * (ldReady d / 32)) p) (ldReady d % 32) = true) :
    s.layerBegin p x =
      (let r := s1.holdPages p (ldRegions d ((s1.ldProg d).getD .genOnly))
       (r.1.updErrClear p).setPass p (some
         { x with desc := some d, pos := 0, flags := x.noteFlag (ldReady d), pages := x.pages ++ r.2 }), .go) := by
  subst hd
  have hwaits : ¬ (ldReady (bs.map (·.getD 0xFF)) ≠ 0xFFFF ∧
      bit (s1.rd (R.COL_FLAG_0 + 4 * (ldReady (bs.map (·.getD 0xFF)) / 32)) p) (ldReady (bs.map (·.getD 0xFF)) % 32) = false) :=
    fun h => hready.elim h.1 (Bool.eq_false_iff.mp h.2)
  simp only [State.layerBegin, hread, hreason, ne_eq, not_true_eq_false, if_false, if_neg hwaits]

/-! ### After the last layer (R129) -/

/-- A pass between layers, with none left, ends. -/
theorem passEndCmd_ends (hon : s.passOn p = some z) (htodo : z.todo = []) (hlate : z.late = [])
    (hx : x = { z with pinned := false }) (hdesc : x.desc = none) (hlayer : s.fget F.UPD_LTAB_COUNT_COUNT p ≤ x.layer) :
    s.passEndCmd p = (s.setPass p (some x)).passEnd p x := by
  have hz : z.desc.isNone ∧ s.fget F.UPD_LTAB_COUNT_COUNT p ≤ z.layer := by
    subst hx
    exact ⟨Option.isNone_iff_eq_none.mpr hdesc, hlayer⟩
  simp only [State.passEndCmd, hon, if_pos hz]
  refine updRun_one ?_
  simp only [updStep_ready (passOn_pass hon) htodo hlate hx, hdesc, if_pos hlayer]

end

/-- Settles O13: the clauses for a layer and for the end run the one cycle that the command stands for. -/
theorem passesStartAndEnd : Obligations.PassesStartAndEnd := by
  refine ⟨?go, ?begin, ?bad, ?ready, ?ends⟩
  case go =>
    intro path s p hmay hup hp
    subst hp
    exact execUpdPassGo_up hmay hup
  case begin =>
    intro part s hup hdue
    exact (onPage_up (f := fun s => s.passBegin part.val) hup).trans (congrArg _ (passBegin_due hdue))
  case bad =>
    intro part s z x addr s1 bs d hup hon htodo hlate hx hdesc hlayer haddr hs1 hbs hd hreason
    subst haddr
    exact (onPage_up (f := fun s => s.layerCmd part.val) hup).trans (congrArg _
      (layerCmd_begins hon htodo hlate hx hdesc hlayer (layerBegin_bad (Prod.ext hs1.symm hbs) hd hreason)))
  case ready =>
    intro part s z x addr s1 bs d hup hon htodo hlate hx hdesc hlayer haddr hs1 hbs hd hreason hready
    subst haddr
    exact (onPage_up (f := fun s => s.layerCmd part.val) hup).trans (congrArg _
      (layerCmd_begins hon htodo hlate hx hdesc hlayer (layerBegin_ready (Prod.ext hs1.symm hbs) hd hreason hready)))
  case ends =>
    intro part s z x hup hon htodo hlate hx hdesc hlayer
    exact (onPage_up (f := fun s => s.passEndCmd part.val) hup).trans (congrArg _
      (passEndCmd_ends hon htodo hlate hx hdesc hlayer))

end Sys2Proof.Machine

/-! # The groups of a layer

A built-in program's command computes the next group of its layer; a row of ADAGRAD_ROW is read first, and its groups follow. -/

namespace Sys2Proof.Machine

open Sys2Proof

section

variable {s : State} {d : List Byte}

/-! ### The program that a descriptor names (R136) -/

theorem ldProg_sgdMom (hprog : ldProgram d = 1) : s.ldProg d = some (.words progSgdMom) := by
  simp only [State.ldProg, hprog, if_true]

theorem ldProg_nesterov (hprog : ldProgram d = 2) : s.ldProg d = some (.words progNesterov) := by
  simp only [State.ldProg, hprog, Nat.succ_ne_self, if_true, if_false]

theorem ldProg_adamw (hprog : ldProgram d = 3) : s.ldProg d = some (.words progAdamw) := by
  simp only [State.ldProg, hprog, Nat.reduceEqDiff, Nat.succ_ne_self, if_true, if_false]

theorem ldProg_lion (hprog : ldProgram d = 4) : s.ldProg d = some (.words progLion) := by
  simp only [State.ldProg, hprog, Nat.reduceEqDiff, Nat.succ_ne_self, if_true, if_false]

/-! ### A group of a row whose sum is known (R137) -/

/-- The oldest group of a row that has been read is computed when its copy may be written; the accumulator goes with the first. -/
theorem rowGroup_computes {p : Nat} {x : Pass} {y : RowGroup} {ys : List RowGroup} (hlate : x.late = y :: ys)
    (hdesc : x.desc = some d) (hgen : ldGenFmt d = 0 ∨ s.nextPins p = 0)
    (hturn : (s.genTurn p d y.elem y.ins.length).2 = true) :
    s.rowGroup p x =
      (let v := (s.genTurn p d y.elem y.ins.length).1
       let os := y.ins.map (adagradElem (fun i => x.hpWord (ldHpSet d) i) y.acc)
       (v.groupDone p x d y.elem os, some
         { x with late := ys, due := v.dueOf p, slots := if ldTlm d then nsAdd x.slots (ldSlot d) else x.slots,
                  todo := groupWrites d y.elem os
                    ++ (if y.elem % ldRow d = 0 then stateWrites (ldAddr d 8) 4 (y.elem / ldRow d) [y.acc] else []) })) := by
  have hpinned : ¬ (ldGenFmt d ≠ 0 ∧ s.nextPins p ≠ 0) := fun h => hgen.elim h.1 h.2
  have hv : s.genTurn p d y.elem y.ins.length = ((s.genTurn p d y.elem y.ins.length).1, true) := Prod.ext rfl hturn
  simp only [State.rowGroup, hdesc, hlate, if_neg hpinned]
  rw [hv]

end

/-- Settles O14: each command computes a group under the program its descriptor names; none of the programs strays. -/
theorem builtInProgramsUpdateElements : Obligations.BuiltInProgramsUpdateElements := by
  refine ⟨?sgdMom, ?nesterov, ?adamw, ?lion, ?genOnly, ?row, ?rowEnd, ?rowGroup⟩
  case sgdMom =>
    intro part s z x d q e n r v xs os hup hon htodo hlate hx hdesc hprog hpos hgen hq he hn hr hxs hv hturn hos
    exact (onPage_up (f := fun s => s.progCmd part.val 1) hup).trans (congrArg _ (progCmd_words hon htodo hlate hx hdesc hprog
      (by rw [ldProg_sgdMom hprog, Option.getD_some]) rfl hpos hgen hq he hn hr hxs hv hturn hos))
  case nesterov =>
    intro part s z x d q e n r v xs os hup hon htodo hlate hx hdesc hprog hpos hgen hq he hn hr hxs hv hturn hos
    exact (onPage_up (f := fun s => s.progCmd part.val 2) hup).trans (congrArg _ (progCmd_words hon htodo hlate hx hdesc hprog
      (by rw [ldProg_nesterov hprog, Option.getD_some]) rfl hpos hgen hq he hn hr hxs hv hturn hos))
  case adamw =>
    intro part s z x d q e n r v xs os hup hon htodo hlate hx hdesc hprog hpos hgen hq he hn hr hxs hv hturn hos
    exact (onPage_up (f := fun s => s.progCmd part.val 3) hup).trans (congrArg _ (progCmd_words hon htodo hlate hx hdesc hprog
      (by rw [ldProg_adamw hprog, Option.getD_some]) rfl hpos hgen hq he hn hr hxs hv hturn hos))
  case lion =>
    intro part s z x d q e n r v xs os hup hon htodo hlate hx hdesc hprog hpos hgen hq he hn hr hxs hv hturn hos
    exact (onPage_up (f := fun s => s.progCmd part.val 4) hup).trans (congrArg _ (progCmd_words hon htodo hlate hx hdesc hprog
      (by rw [ldProg_lion hprog, Option.getD_some]) rfl hpos hgen hq he hn hr hxs hv hturn hos))
  case genOnly =>
    intro part s z x d q e n r v xs hup hon htodo hlate hx hdesc hprog hpos hgen hq he hn hr hxs hv hturn
    exact (onPage_up (f := fun s => s.progCmd part.val 6) hup).trans (congrArg _
      (progCmd_genOnly hon htodo hlate hx hdesc hprog hpos hgen hq he hn hr hxs hv hturn))
  case row =>
    intro part s z x d q e r xs hup hon htodo hlate hx hdesc hprog hpos hgen hq he hr hxs hleft
    obtain ⟨hpart, -⟩ := progCmd_adagrad hon htodo hlate hx hdesc hprog hpos hgen hq he hr hxs
    exact (onPage_up (f := fun s => s.progCmd part.val 5) hup).trans (congrArg _ (hpart hleft))
  case rowEnd =>
    intro part s z x d q e r xs u ab acc hup hon htodo hlate hx hdesc hprog hpos hgen hq he hr hxs hfull hu hab hacc
    obtain ⟨-, hlast⟩ := progCmd_adagrad hon htodo hlate hx hdesc hprog hpos hgen hq he hr hxs
    subst hacc
    exact (onPage_up (f := fun s => s.progCmd part.val 5) hup).trans (congrArg _ (hlast u ab (Nat.not_lt.mpr hfull) hu hab))
  case rowGroup =>
    intro s p x d y ys v os hlate hdesc hgen hv hturn hos
    subst hv hos
    exact rowGroup_computes hlate hdesc hgen hturn

end Sys2Proof.Machine

/-! # Programs, flips, Belvedere's window and noise fills

Each of these is a register write whose path may make it and whose block has its clocks; what is left to say is what the block does in
each of its cases. -/

namespace Sys2Proof.Machine

open Sys2Proof

section

variable {s : State} {path : Path} {value : Word}

/-! ### Loading a program (R133) -/

/-- A load that passes the checks fills its slot. -/
theorem progLoad_fills {v bad : Nat} {ws : List Nat}
    (hws : ws = (List.range (bits v 0 5)).map fun i => s.rd R.UPD_PROG_DATA (i + 32 * bits v 8 3))
    (hcheck : progReason (bits v 0 5) ws (s.slotInUse (bits v 8 3)) = (0, bad)) :
    s.progLoad v =
      (let s1 := (s.fset F.UPD_PROG_STAT_REASON 0 0).fset F.UPD_PROG_STAT_FIRST_BAD 0 bad
       let s2 := { s1 with upd := { s1.upd with progs := alPut s1.upd.progs (bits v 8 3) ws } }
       s2.fset F.UPD_PROG_STAT_VALID 0 (setBit (s2.fget F.UPD_PROG_STAT_VALID) (bits v 8 3) true)) := by
  subst hws
  simp only [State.progLoad, hcheck, ne_eq, not_true_eq_false, if_false]

/-- A load that a check refuses leaves the reason and the first bad word. -/
theorem progLoad_refused {v r bad : Nat} {ws : List Nat}
    (hws : ws = (List.range (bits v 0 5)).map fun i => s.rd R.UPD_PROG_DATA (i + 32 * bits v 8 3))
    (hcheck : progReason (bits v 0 5) ws (s.slotInUse (bits v 8 3)) = (r, bad)) (hr : r ≠ 0) :
    s.progLoad v = (s.fset F.UPD_PROG_STAT_REASON 0 r).fset F.UPD_PROG_STAT_FIRST_BAD 0 bad := by
  subst hws
  simp only [State.progLoad, hcheck, if_pos hr]

theorem execProgLoad_up (hmay : s.pathMay path R.UPD_PROG_CMD = true) (hup : s.Up Page.UPD) (hload : bit value.toNat 16 = true) :
    execProgLoad path value s = .next (s.progLoad value.toNat) := by
  rw [execProgLoad, fromPath_may hmay, onPage_up hup, if_pos hload]

/-! ### The flip (R145) -/

theorem flipWrite_armed {p v : Nat} (hreason : s.flipReason p v = 0) :
    s.flipWrite p v =
      (let s1 := s.fset F.UPD_FLIP_STAT_REASON p 0
       (s1.setUpdPart p { s1.updPart p with flip := some (v, s.tick.hall) }).set1 F.UPD_FLIP_STAT_ARMED p) := by
  simp only [State.flipWrite, hreason, ne_eq, not_true_eq_false, if_false, fset_tick]

theorem flipWrite_refused {p v : Nat} (hreason : s.flipReason p v ≠ 0) :
    s.flipWrite p v = (s.fset F.UPD_FLIP_STAT_REASON p (s.flipReason p v)).irq Page.UPD 3 := by
  simp only [State.flipWrite, if_pos hreason]

theorem execUpdFlip_up (hmay : s.pathMay path R.UPD_FLIP = true) (hup : s.Up Page.UPD) :
    execUpdFlip path value s = .next (s.flipWrite (s.sel path F.UPD_PART_SEL_PART) value.toNat) := by
  rw [execUpdFlip, fromPath_may hmay, onPage_up hup]

/-! ### Belvedere's registers (R154, R158) -/

theorem execTlmRdSelWrite_up (hmay : s.pathMay path R.TLM_RD_SEL = true) (hup : s.Up Page.TLM) :
    execTlmRdSelWrite path value s = .next (s.tlmReadSel path value.toNat) := by
  rw [execTlmRdSelWrite, fromPath_may hmay, onPage_up hup]

theorem execTlmClear_one (hmay : s.pathMay path R.TLM_CLEAR = true) (hup : s.Up Page.TLM) (hone : bit value.toNat 12 = false) :
    execTlmClear path value s = .next (s.tlmZero (bits value.toNat 0 12)) := by
  simp only [execTlmClear, fromPath_may hmay, onPage_up hup, State.tlmClear, hone, Bool.false_eq_true, if_false]

theorem execTlmClearAll_all (hmay : s.pathMay path R.TLM_CLEAR = true) (hup : s.Up Page.TLM) (hall : bit value.toNat 12 = true) :
    execTlmClearAll path value s = .next ((s.upd.tlm.map (·.1)).foldl (fun x i => x.tlmZero i) s) := by
  simp only [execTlmClearAll, fromPath_may hmay, onPage_up hup, State.tlmClear, hall, if_true]

/-! ### Noise (R155, R156, R159) -/

/-- The fill that the registers ask for. -/
def State.noiseAsked (s : State) : Noise :=
  let p := s.fget F.CNV_NOISE_DST_PART
  ⟨p, s.fget F.CNV_NOISE_DST_PAGE * 4096, s.rd R.CNV_NOISE_COUNT, s.rd R.CNV_NOISE_TID, s.rd R.CNV_NOISE_STEP,
    s.rd R.CNV_SEED_LO p + s.rd R.CNV_SEED_HI p * 2 ^ 32, s.fget F.CNV_NOISE_CFG_DIST, s.flag F.CNV_NOISE_CFG_FMT, 0⟩

/-- With none running, the fill asked for is refused or starts. -/
theorem noiseGo_idle (hidle : s.flag F.CNV_NOISE_STAT_BUSY = false) :
    s.noiseGo =
      if s.noiseAsked.dist = 3 ∨ s.flag F.CNV_STAT_KAT_FAIL = true ∨
          s.runInMap s.noiseAsked.part s.noiseAsked.addr (s.noiseAsked.size * s.noiseAsked.count) = false then
        ((s.set1 F.CNV_NOISE_STAT_DONE).fset F.CNV_NOISE_STAT_RESULT 0 1).irq Page.CNV 0
      else { s.set1 F.CNV_NOISE_STAT_BUSY with upd := { s.upd with noise := some s.noiseAsked } } := by
  unfold State.noiseGo
  rw [if_neg (Bool.eq_false_iff.mp hidle)]
  rfl

theorem noiseGo_starts (hidle : s.flag F.CNV_NOISE_STAT_BUSY = false) (hdist : s.noiseAsked.dist ≠ 3)
    (hkat : s.flag F.CNV_STAT_KAT_FAIL = false)
    (hmap : s.runInMap s.noiseAsked.part s.noiseAsked.addr (s.noiseAsked.size * s.noiseAsked.count) = true) :
    s.noiseGo = { s.set1 F.CNV_NOISE_STAT_BUSY with upd := { s.upd with noise := some s.noiseAsked } } := by
  rw [noiseGo_idle hidle, if_neg]
  rintro (h | h | h)
  · exact hdist h
  · exact Bool.eq_false_iff.mp hkat h
  · exact Bool.eq_false_iff.mp h hmap

theorem noiseGo_refused (hidle : s.flag F.CNV_NOISE_STAT_BUSY = false) (hdist : s.fget F.CNV_NOISE_CFG_DIST = 3) :
    s.noiseGo = ((s.set1 F.CNV_NOISE_STAT_DONE).fset F.CNV_NOISE_STAT_RESULT 0 1).irq Page.CNV 0 := by
  rw [noiseGo_idle hidle, if_pos (.inl hdist)]

theorem execNoiseGo_up (hmay : s.pathMay path R.CNV_NOISE_CMD = true) (hup : s.Up Page.CNV) :
    execNoiseGo path s = .next s.noiseGo := by
  rw [execNoiseGo, fromPath_may hmay, onPage_up hup]

variable {n : Noise} {stop r : Nat}

/-- A fill that is aborted, or has written its last element, ends. -/
theorem noiseTo_ends {f : State × Noise} (hf : f = State.noiseFill stop (n.count + 1) n s) (hend : f.2.pos = f.2.count ∨ r = 2) :
    s.noiseTo n stop r = f.1.noiseEnd (if f.2.pos = f.2.count then 0 else r) := by
  subst hf
  simp only [State.noiseTo, if_pos hend]

theorem execNoiseAbort_running {written : Nat} (hmay : s.pathMay path R.CNV_NOISE_CMD = true) (hup : s.Up Page.CNV)
    (hnoise : s.upd.noise = some n) : execNoiseAbort path written s = .next (s.noiseTo n written 2) := by
  simp only [execNoiseAbort, fromPath_may hmay, onPage_up hup, hnoise]

theorem execNoiseDone_running (hup : s.Up Page.CNV) (hnoise : s.upd.noise = some n) :
    execNoiseDone s = .next (s.noiseTo n n.count 0) := by
  simp only [execNoiseDone, onPage_up hup, hnoise]

end

/-- Settles O17: each command reaches its block, and the block does what its lemma above says; a noise request that is refused sets DONE
(log entry 103). -/
theorem programsFlipsAndNoise : Obligations.ProgramsFlipsAndNoise := by
  refine ⟨?load, ?loadRefused, ?flip, ?flipRefused, ?window, fun _ _ _ => execTlmClear_one, fun _ _ _ => execTlmClearAll_all, ?go,
    fun _ => noiseGo_refused, ?abort, ?done⟩
  case load =>
    intro path value s slot ws bad hmay hup hload hslot hws hcheck
    subst hslot
    exact (execProgLoad_up hmay hup hload).trans (congrArg _ (progLoad_fills hws hcheck))
  case loadRefused =>
    intro path value s slot ws r bad hmay hup hload hslot hws hcheck hr
    subst hslot
    exact (execProgLoad_up hmay hup hload).trans (congrArg _ (progLoad_refused hws hcheck hr))
  case flip =>
    intro path value s p hmay hup hp hreason
    subst hp
    exact (execUpdFlip_up hmay hup).trans (congrArg _ (flipWrite_armed hreason))
  case flipRefused =>
    intro path value s p hmay hup hp hreason
    subst hp
    exact (execUpdFlip_up hmay hup).trans (congrArg _ (flipWrite_refused hreason))
  case window =>
    intro path value s slot bs hmay hup hslot hbs
    subst hslot hbs
    exact execTlmRdSelWrite_up hmay hup
  case go =>
    intro path s n hmay hup hidle hn hdist hkat hmap
    subst hn
    exact (execNoiseGo_up hmay hup).trans (congrArg _ (noiseGo_starts hidle hdist hkat hmap))
  case abort =>
    intro path written s n r hmay hup hnoise hr
    exact (execNoiseAbort_running hmay hup hnoise).trans (congrArg _ (noiseTo_ends hr (.inr rfl)))
  case done =>
    intro s n r hup hnoise hr hpos
    calc exec .noiseDone s
        = .next (s.noiseTo n n.count 0) := execNoiseDone_running hup hnoise
      _ = _ := by rw [noiseTo_ends hr (.inl hpos), if_pos hpos]

end Sys2Proof.Machine

/-! # Chains and queues of the lanes

A chain that closes releases its pin, and the limit reports it under the plan that its partition runs, which closing it leaves as it
was. A write to a queue's registers is its block's write, to which the lane kind adds what it keeps of the tails. -/

namespace Sys2Proof.Machine

open Sys2Proof

section

variable {s t : State} {q : Nat} {c : Chain}

/-! ### What a report leaves unchanged -/

@[simp] theorem logErr_lane (s : State) (e : ErrIn) : (s.logErr e).lane = s.lane := by
  obtain ⟨r, u, k, h⟩ := logErr_touches s e
  rw [h]

@[simp] theorem chainReport_chain? (s : State) (q p i : Nat) : (s.chainReport q p).chain? i = s.chain? i := by
  simp only [State.chain?, State.chainReport, irq_lane, logErr_lane]

/-- The report carries the plan that ran before the chain closed (R205). -/
theorem chainReport_of_plans (hplans : t.plans = s.plans) (q p : Nat) :
    t.chainReport q p =
      (t.logErr { block := Page.LNP, code := 0x0208, sev := 0, part := some p, detail := [0, 0, q * 65536, s.planId p] }).irq
        Page.LNP 1 := by
  have hplan : t.planId p = s.planId p := by rw [State.planId, hplans, State.planId]
  rw [State.chainReport, hplan]

/-! ### A chain that closes (R204) -/

theorem closeChain_open (hchain : s.chain? q = some c) :
    s.closeChain q =
      (let s1 := (s.unpinBuf c).set0 F.LNP_Q_STAT_CHAIN_OPEN q
       { s1 with lane := { s1.lane with chains := alDel s.lane.chains q } }) := by
  rw [State.closeChain, hchain]
  rfl

theorem closeChain_plans (s : State) (q : Nat) : (s.closeChain q).plans = s.plans := by
  unfold State.closeChain
  split <;> rfl

theorem execChainEnd_ended {queue : Fin 16} (hup : s.Up Page.LNP) (hchain : s.chain? queue.val = some c) (hended : c.ended = true) :
    execChainEnd queue s = .next (s.closeChain queue.val).colAdvance := by
  simp only [execChainEnd, onPage_up hup, hchain, hended, if_true]

/-! ### Chains that their queues have gone on from (R204) -/

variable {f : Nat × Chain → Bool}

/-- The state with its earlier chains forgotten, their pins not yet released. -/
def State.forgetOld (s : State) : State := { s with lane := { s.lane with oldChains := [] } }

@[simp] theorem forgetOld_chain? (s : State) (q : Nat) : s.forgetOld.chain? q = s.chain? q := rfl

@[simp] theorem unpinBuf_chain? (s : State) (c : Chain) (q : Nat) : (s.unpinBuf c).chain? q = s.chain? q := rfl

theorem closeOld_none (hold : s.lane.oldChains = []) : s.closeOld f = s := by
  have hlane : { s.lane with oldChains := [] } = s.lane := by rw [← hold]
  simp only [State.closeOld, hold, List.filter_nil, List.foldl_nil, hlane]

theorem closeOld_one {x : Nat × Chain} (hold : s.lane.oldChains = [x]) (hf : f x = true) : s.closeOld f = s.forgetOld.unpinBuf x.2 := by
  simp only [State.closeOld, hold, List.filter_cons, hf, Bool.not_true, Bool.false_eq_true, if_true, if_false, List.filter_nil,
    List.foldl_cons, List.foldl_nil, State.forgetOld]

/-! ### The limit (R205) -/

/-- With no earlier chain of any queue, the limit is that of the queue's own chain. -/
theorem chainLimit_own (hold : s.lane.oldChains = []) (hchain : s.chain? q = some c)
    (hstood : max 1 (s.fget F.LNP_CHAIN_LIMIT_TICKS) ≤ c.bounds) :
    s.chainLimit q = ((s.closeChain q).chainReport q c.part).colAdvance := by
  simp only [State.chainLimit, hold, List.filter_nil, List.foldl_nil, closeOld_none hold, hchain, decide_eq_true hstood, if_true]

/-- An earlier chain of a queue that has none of its own now is closed and reported alone. -/
theorem chainLimit_earlier (hold : s.lane.oldChains = [(q, c)]) (hchain : s.chain? q = none)
    (hstood : max 1 (s.fget F.LNP_CHAIN_LIMIT_TICKS) ≤ c.bounds) :
    s.chainLimit q = ((s.forgetOld.unpinBuf c).chainReport q c.part).colAdvance := by
  have hsel : (s.lane.oldChains.filter fun x => x.1 == q && decide (max 1 (s.fget F.LNP_CHAIN_LIMIT_TICKS) ≤ x.2.bounds))
      = [(q, c)] := by
    rw [hold, List.filter_cons_of_pos (by rw [beq_self_eq_true, decide_eq_true hstood, Bool.and_true]), List.filter_nil]
  have hclosed : (s.closeOld fun x => [(q, c)].contains x) = s.forgetOld.unpinBuf c :=
    closeOld_one (x := (q, c)) hold (List.contains_iff_mem.mpr (List.mem_singleton_self (q, c)))
  simp only [State.chainLimit, hsel, hclosed, List.foldl_cons, List.foldl_nil, chainReport_chain?,
    unpinBuf_chain?, forgetOld_chain?, hchain]

theorem execChainLimit_up {queue : Fin 16} (hup : s.Up Page.LNP) :
    execChainLimit queue s = .next (s.chainLimit queue.val) := onPage_up (f := fun s => s.chainLimit queue.val) hup

/-! ### Tails (R194, R197) -/

variable {path : Path} {k : QKind} {value : Word} {v : Nat}

/-- A tail within the ring and not past its room stands. -/
theorem qTailWrite_good (hring : v < s.qSize k q)
    (hroom : (v + s.qSize k q - s.fget k.tail q % s.qSize k q) % s.qSize k q
      ≤ s.qSize k q - 1 - (s.fget k.tail q + s.qSize k q - s.fget k.head q) % s.qSize k q) :
    s.qTailWrite k q v = s.fset k.tail q v :=
  if_neg fun h => h.elim (Nat.not_le.mpr hring) (Nat.not_lt.mpr hroom)

theorem qTailWrite_bad
    (hbad : s.qSize k q ≤ v ∨ s.qSize k q - 1 - (s.fget k.tail q + s.qSize k q - s.fget k.head q) % s.qSize k q
      < (v + s.qSize k q - s.fget k.tail q % s.qSize k q) % s.qSize k q) :
    s.qTailWrite k q v = (s.set1 k.tailBad q).irq k.regPage k.irqs.2.2 :=
  if_pos hbad

theorem execQTailWrite_up (hmay : s.pathMay path (k.cfg + 0xC) = true) (hup : s.Up k.regPage) :
    execQTailWrite path k value s = .next (s.tailWrite path k value.toNat) := by
  rw [execQTailWrite, fromPath_may hmay, onPage_up hup]

/-- A queue that is not a lane's keeps no tails. -/
theorem tailWrite_other (hkind : k ≠ .lane) :
    s.tailWrite path k v = s.qTailWrite k (s.regItem path (k.cfg + 0xC)) (bits v 0 12) :=
  if_neg fun h => hkind h.1

/-- A lane queue notes a tail that changed. -/
theorem tailWrite_lane (hq : q = s.regItem path R.LNP_Q_TAIL) (ht : t = s.qTailWrite .lane q (bits v 0 12))
    (hmoved : t.fget (QKind.tail .lane) q ≠ s.fget (QKind.tail .lane) q) :
    s.tailWrite path .lane v = t.noteTail q (t.fget (QKind.tail .lane) q) := by
  subst hq ht
  exact if_pos ⟨rfl, hmoved⟩

/-! ### Enabling (R220, R263) -/

/-- Enabling a queue that was off zeroes its four indices. -/
theorem qEnable_opens (hoff : s.flag k.enable q = false) :
    s.qEnable k q true =
      (((((s.set1 k.enable q).fset k.tail q 0).fset k.head q 0).fset k.ctail q 0).fset k.chead q 0).qShowFull k q := by
  rw [State.qEnable, hoff, if_pos (by decide)]

theorem execQEnable_up (hmay : s.pathMay path k.cfg = true) (hup : s.Up k.regPage) :
    execQEnable path k value s = .next (s.qCfgWrite path k value.toNat) := by
  rw [execQEnable, fromPath_may hmay, onPage_up hup]

/-- The configuration of a queue that is off takes the whole word; one that is switched on is then enabled, and a lane queue forgets the
tails it noted. -/
theorem qCfgWrite_opens (hoff : s.flag k.enable (s.regItem path k.cfg) = false) (hon : bit v 8 = true) :
    s.qCfgWrite path k v =
      (let q := s.regItem path k.cfg
       let s1 := s.accWrite k.cfg q (setBit v 8 false)
       let s2 := (s1.fset k.sizeLog q (clamp 6 12 (s1.fget k.sizeLog q))).qEnable k q true
       if k = .lane then { s2 with lane := { s2.lane with tails := alDel s2.lane.tails q } } else s2) := by
  simp only [State.qCfgWrite, hoff, hon, Bool.false_eq_true, if_false, and_true]

end

/-- Settles O19: the limit's report is about the state after the chain closed, whose plans are those before; each register write is its
block's, by the kind of the queue. -/
theorem laneChainsAndQueues : Obligations.LaneChainsAndQueues := by
  refine ⟨fun _ _ _ => execChainEnd_ended, ?own, ?earlier, fun _ _ _ => closeChain_open, ?tail, ?laneTail, ?bad, ?enable, ?laneEnable,
    fun _ _ _ => qEnable_opens⟩
  case own =>
    intro queue s c hup hold hchain hstood
    calc exec (.chainLimit queue) s
        = .next (s.chainLimit queue.val) := execChainLimit_up hup
      _ = .next ((s.closeChain queue.val).chainReport queue.val c.part).colAdvance := by rw [chainLimit_own hold hchain hstood]
      _ = _ := by rw [chainReport_of_plans (closeChain_plans s queue.val)]
  case earlier =>
    intro queue s c hup hold hchain hstood
    have hplans : (s.forgetOld.unpinBuf c).plans = s.plans := rfl
    calc exec (.chainLimit queue) s
        = .next (s.chainLimit queue.val) := execChainLimit_up hup
      _ = .next ((s.forgetOld.unpinBuf c).chainReport queue.val c.part).colAdvance := by rw [chainLimit_earlier hold hchain hstood]
      _ = _ := by rw [chainReport_of_plans hplans]; rfl
  case tail =>
    intro path kind value s q n t hmay hup hkind hq hn ht hring hroom
    subst hq hn ht
    calc exec (.qTailWrite path kind value) s
        = .next (s.tailWrite path kind value.toNat) := execQTailWrite_up hmay hup
      _ = _ := by rw [tailWrite_other hkind, qTailWrite_good hring hroom]
  case laneTail =>
    intro path value s q s1 hmay hup hq hs1 hmoved
    exact (execQTailWrite_up (k := .lane) hmay hup).trans (congrArg _ (tailWrite_lane hq hs1 hmoved))
  case bad =>
    intro s k q v n t o hn ht ho hbad
    subst ho hn ht
    exact qTailWrite_bad hbad
  case enable =>
    intro path kind value s q s1 s2 hmay hup hkind hq hoff hon hs1 hs2
    subst hs2 hs1 hq
    calc exec (.qEnable path kind value) s
        = .next (s.qCfgWrite path kind value.toNat) := execQEnable_up hmay hup
      _ = _ := by rw [qCfgWrite_opens hoff hon]; exact congrArg _ (if_neg hkind)
  case laneEnable =>
    intro path value s q s1 s2 hmay hup hq hoff hon hs1 hs2
    subst hs2 hs1 hq
    exact (execQEnable_up (k := .lane) hmay hup).trans (congrArg _ (qCfgWrite_opens hoff hon))

end Sys2Proof.Machine

/-! # The arbiter and refresh

A grant to a free resource is the opportunity that passes, the request picked from those that the throttle leaves open, and its count.
The order of classes is that of the alternatives of a pick. -/

namespace Sys2Proof.Machine

open Sys2Proof

section

variable {s t : State} {b : Fin 512} {k : Fin 8} {res : ArbRes} {reqs : List ArbReq} {holder : Option (ArbReq × Bool)} {r : ArbReq}

/-! ### The order of classes (R378, R379) -/

/-- At a bank nothing comes before class 1 while it is not masked. -/
theorem arbPick_first (hopen : s.flag F.ARB_STAT_MASKED = false) (h1 : s.arbUnit (ArbRes.bank b).key 1 reqs = some r) :
    s.arbPick (.bank b) reqs = some r := by
  simp only [State.arbPick, hopen, h1, Bool.false_eq_true, if_false, Option.orElse_eq_orElse, Option.orElse_none, Option.orElse_some]

theorem arbSwitch_none {key : Nat} (hnone : (reqs.find? fun r => r.cls.val == 4) = none) : s.arbSwitch key reqs = none := by
  have hempty : (reqs.filter fun r => r.cls.val == 4) = [] := List.filter_eq_nil_iff.mpr (List.find?_eq_none.mp hnone)
  simp only [State.arbSwitch, hempty, List.find?_nil, List.head?_nil, Option.bind_fun_none, Option.orElse_eq_orElse, Option.orElse_none]

/-- While class 1 is masked, class 2 comes after the switch transfers alone. -/
theorem arbPick_masked (hmasked : s.flag F.ARB_STAT_MASKED = true) (hnone : (reqs.find? fun r => r.cls.val == 4) = none)
    (h2 : s.arbUnit (ArbRes.bank b).key 2 reqs = some r) : s.arbPick (.bank b) reqs = some r := by
  simp only [State.arbPick, hmasked, arbSwitch_none hnone, h2, if_true, Option.orElse_eq_orElse, Option.orElse_none,
    Option.orElse_some]

/-! ### A grant (R378) -/

/-- A resource that no access holds is granted to the request picked. -/
theorem arbCycle_free (hpick : (s.arbOpp res).1.arbPick res (arbOpen (s.arbOpp res).2 reqs) = some r) :
    s.arbCycle res reqs none = (((s.arbOpp res).1.arbTake res r).arbOppUse res r, some r) := by
  simp only [State.arbCycle, hpick]

variable {cmds : List TowerCmd} {damage : List (BitVec 33 × BitVec 9)}

/-- A bank then takes the commands of the granted access. -/
theorem execArbGrant_bank (hrun : s.run = .running)
    (hcycle : (s.flipCells damage).arbCycle (.bank b) reqs holder = (t, some r)) :
    execArbGrant (.bank b) reqs holder cmds damage s = .next (cmds.foldl (fun x c => x.bankCmd b.val r.cls.val c) t) := by
  simp only [execArbGrant, onUp_running hrun, hcycle]

/-- A channel takes no bank command. -/
theorem execArbGrant_channel (hrun : s.run = .running)
    (hcycle : (s.flipCells damage).arbCycle (.channel k) reqs holder = (t, some r)) :
    execArbGrant (.channel k) reqs holder cmds damage s = .next t := by
  simp only [execArbGrant, onUp_running hrun, hcycle]

/-! ### Refresh outside a plan (R233) -/

theorem execAutonomousRefresh_running {eyes : List Nat} (hrun : s.run = .running) :
    execAutonomousRefresh b eyes s = .next (if s.tower.planRef.contains b.val then s else s.refBank b.val eyes) :=
  onUp_running hrun

end

/-- Settles O20: the clauses of a grant are a cycle at a free resource, and an idle channel leaves every request open. -/
theorem arbiterAndRefresh : Obligations.ArbiterAndRefresh := by
  refine ⟨?bank, ?channel, fun _ _ _ _ => arbPick_first, fun _ _ _ _ => arbPick_masked, fun _ => onUp_running, ?own, ?planned⟩
  case bank =>
    intro b reqs cmds damage s s1 ok r hrun hs1 hok hpick
    subst hs1 hok
    exact execArbGrant_bank hrun (arbCycle_free hpick)
  case channel =>
    intro k reqs cmds damage s s1 r hrun hs1 hpick
    subst hs1
    exact execArbGrant_channel hrun (arbCycle_free hpick)
  case own =>
    intro bank eyes s hrun hplan
    exact (execAutonomousRefresh_running hrun).trans (congrArg _ (if_neg (Bool.eq_false_iff.mp hplan)))
  case planned =>
    intro bank eyes s hrun hplan
    exact (execAutonomousRefresh_running hrun).trans (congrArg _ (if_pos hplan))

end Sys2Proof.Machine

/-! # Repair, temperature and probes of the tower

Each command runs one operation of the tower where its guards let it through. The sensors that a sample logs are those that were not
faulty before it, and the time it counts under the throttle leaves them as they were. -/

namespace Sys2Proof.Machine

open Sys2Proof

section

variable {s : State} {path : Path} {e g : Nat}

/-! ### The Orangery (R240, R241) -/

/-- The entry of the Orangery that a repair entry word asks for: a vertical lane waits for the next warm start (R242). -/
def orgAsked (w : Nat) : Org :=
  ⟨if (repairOf w).kind = 3 then .pendingWarm else .copying, repairOf w, bit w 2, false, ⟨[], []⟩⟩

theorem applyOrg_accepted (hok : s.applyReason e = 0) :
    s.applyOrg e =
      (let s1 := s.fset F.TWR_ORG_STAT_REASON 0 0
       let o := orgAsked (s1.rd R.TWR_ORG_ENTRY e)
       { s1 with tower :=
          { s1.tower with orangery := alPut s1.tower.orangery e o, spares := nsAdd s1.tower.spares o.repair.spareKey } }) := by
  simp only [State.applyOrg, hok, bne_self_eq_false, Bool.false_eq_true, if_false, orgAsked]

theorem applyOrg_refused (hbad : s.applyReason e ≠ 0) :
    s.applyOrg e = (s.fset F.TWR_ORG_STAT_REASON 0 (s.applyReason e)).irq Page.TWR 1 := by
  simp only [State.applyOrg, bne_iff_ne.mpr hbad, if_true]

theorem execApply_up (hmay : s.pathMay path R.TWR_ORG_CMD = true) (hup : s.Up Page.TWR) :
    execApply path s = .next (s.applyOrg (s.sel path F.TWR_ORG_SEL_ENTRY)) := by
  rw [execApply, fromPath_may hmay, onPage_up hup]

theorem execOrangeryCopyDone_copying {entry : Fin 256} {o : Org} (hup : s.Up Page.TWR) (horg : s.org entry = some o)
    (hcopying : o.state = .copying) :
    execOrangeryCopyDone entry s = .next
      (({ s with tower := { s.tower with orangery := alPut s.tower.orangery entry { o with copied := true } } } : State).repaired
        (o.repair.word o.fill)) := by
  simp only [execOrangeryCopyDone, onPage_up hup, horg, hcopying, if_true]

/-! ### Temperature (R245, R248, R253) -/

/-- The span since the last sample, counted under the throttle. -/
theorem throttledSpan_tower : (if s.tower.throttle = true then s.bump F.TTH_THROTTLE_US_US 0 10 else s).tower = s.tower := by
  split
  · exact bump_tower _ _ _ _
  · rfl

/-- The sensors logged are the faulty ones that were not faulty before the sample. -/
theorem tempSample_steps {readings : List (Option Int)} {s1 s2 s3 : State} {hot : Nat}
    (hs1 : s1 = (if s.tower.throttle = true then s.bump F.TTH_THROTTLE_US_US 0 10 else s).sensors (padTo 32 none readings))
    (hhot : hot = (List.range 8).foldl (fun b i => if s1.tempEff b < s1.tempEff i then i else b) 0)
    (hs2 : s2 = ((s1.showTemps hot (s1.tempEff hot)).warnStep (s1.tempEff hot)).throttleStep (s1.tempEff hot))
    (hs3 : s3 = if s2.tower.critical = false ∧ 1600 ≤ s1.tempEff hot then s2.critHalt (s1.tempEff hot) else s2) :
    s.tempSample readings =
      ((s3.tower.badSensors.filter fun i => !nsMem s.tower.badSensors i).foldl (fun x i => x.sensorLog i) s3).updHalf := by
  simp only [State.tempSample, throttledSpan_tower, ← hs1, ← hhot, ← hs2, Bool.and_eq_true, Bool.not_eq_true', decide_eq_true_eq,
    ← hs3]

theorem execTempSample_running {readings : List (Option Int)} (hrun : s.run = .running) :
    execTempSample readings s = .next (s.tempSample readings) := onUp_running (f := fun s => s.tempSample readings) hrun

/-- With every layer at or below 90 °C, plans resume at the next boundary. -/
theorem critClear_cool (hcrit : s.tower.critical = true) (hcool : ((List.range 8).all fun i => decide (s.tempEff i ≤ 1440)) = true) :
    s.critClear =
      ((({ s with tower := { s.tower with critical := false, resume := true } } : State).set0 F.TTH_STAT_HALTED).set0
        F.LNF_STAT_HALTED).updHalf :=
  if_pos (Bool.and_eq_true_iff.mpr ⟨hcrit, hcool⟩)

theorem execCritClear_up (hmay : s.pathMay path R.TTH_CRIT_CLEAR = true) (hup : s.Up Page.TTH) :
    execCritClear path s = .next s.critClear := by
  rw [execCritClear, fromPath_may hmay, onPage_up hup]

theorem execTthPeakWrite_up (hmay : s.pathMay path R.TTH_PEAK = true) (hup : s.Up Page.TTH) :
    execTthPeakWrite path s = .next (s.fset F.TTH_PEAK_TEMP 0 (unsigned 16 (s.tempEff (s.fget F.TTH_MAX_LAYER)))) := by
  rw [execTthPeakWrite, fromPath_may hmay, onPage_up hup]

/-! ### Probes (R249) -/

theorem probeGo_idle (hidle : s.tower.probe = none) (hawake : s.tower.selfRefresh = false) :
    s.probeGo g =
      ({ s with tower := { s.tower with probe := some ⟨g⟩, probeRows := nsAdd s.tower.probeRows g } } : State).set1
        F.TWR_PROBE_RES_BUSY := by
  simp only [State.probeGo, hidle, hawake, Option.isSome_none, Bool.or_self, Bool.false_eq_true, if_false]

theorem execProbeGo_up (hmay : s.pathMay path R.TWR_PROBE_CFG = true) (hup : s.Up Page.TWR) :
    execProbeGo path s = .next (s.probeGo (s.sel path F.TWR_PROBE_SEL_GROUP)) := by
  rw [execProbeGo, fromPath_may hmay, onPage_up hup]

variable {fails : Nat}

theorem probeDone_busy {p : Probe} {s1 s2 : State} (hprobe : s.tower.probe = some p)
    (hs1 : s1 = ((({ s with tower := { s.tower with probe := none } } : State).fset F.TWR_PROBE_RES_FAIL_BITS 0
      (min fails 0xFFFF)).set0 F.TWR_PROBE_RES_BUSY).set1 F.TWR_PROBE_RES_DONE)
    (hs2 : s2 = (s1.fset F.TWR_PROBE_TEMP_TEMP 0 (s1.fget (tempField (layerOf (8 * p.group))))).irq Page.TWR 2) :
    s.probeDone fails =
      if fails = 0 then s2
      else s2.logErr { block := Page.TWR, code := 0x0130, sev := 0,
                       detail := [8 * p.group, 0, s2.fget (tempField (layerOf (8 * p.group))), 0] } := by
  simp only [State.probeDone, hprobe, ← hs1, ← hs2]

theorem execProbeDone_up (hup : s.Up Page.TWR) : execProbeDone fails s = .next (s.probeDone fails).replanGo :=
  onPage_up (f := fun s => (s.probeDone fails).replanGo) hup

end

/-- Settles O21: each command reaches its operation of the tower, and the operation does what its lemma above says. -/
theorem towerRepairTemperatureAndProbe : Obligations.TowerRepairTemperatureAndProbe := by
  refine ⟨?apply, ?applyRefused, fun _ _ _ => execOrangeryCopyDone_copying, ?sample, ?clear, ?probe, ?probeEnd,
    fun _ _ => execTthPeakWrite_up⟩
  case apply =>
    intro path s e w hmay hup he hok _
    subst he
    exact (execApply_up hmay hup).trans (congrArg _ (applyOrg_accepted hok))
  case applyRefused =>
    intro path s e hmay hup he hbad
    subst he
    exact (execApply_up hmay hup).trans (congrArg _ (applyOrg_refused hbad))
  case sample =>
    intro readings s s1 hot s2 s3 hrun hs1 hhot hs2 hs3
    exact (execTempSample_running hrun).trans (congrArg _ (tempSample_steps hs1 hhot hs2 hs3))
  case clear =>
    intro path s hmay hup hcrit hcool
    exact (execCritClear_up hmay hup).trans (congrArg _ (critClear_cool hcrit hcool))
  case probe =>
    intro path s g hmay hup hg hidle hawake
    subst hg
    exact (execProbeGo_up hmay hup).trans (congrArg _ (probeGo_idle hidle hawake))
  case probeEnd =>
    intro fails s p s1 c s2 hup hprobe hs1 hc hs2
    subst hc
    exact (execProbeDone_up hup).trans (congrArg (fun t => Host.Outcome.next t.replanGo) (probeDone_busy hprobe hs1 hs2))

end Sys2Proof.Machine

/-! # Units of the page queue

A unit whose page's entry reads well goes on from the state after the read, by what the entry holds; one that reserves a frame goes by
the frame's use. -/

namespace Sys2Proof.Machine

open Sys2Proof

section

variable {s s1 : State} {p i : Nat} {d : List Byte} {e : Pme}

/-! ### Mapping and unmapping a page (R258, R266) -/

/-- The entry that a ZERO mapping gives a page, with the flags of its descriptor. -/
def zeroEntry (d : List Byte) (gen : Nat) : Pme :=
  { state := PgZero, master := bit (dFlags d) 0, dropOk := bit (dFlags d) 1, lock := bit (dFlags d) 2, home := noHome, anchor := true,
    gen := gen, refs := 1 }

theorem mapUnit_zero (hread : s.pmeRead p (dFirst d % 2 ^ 24 + i) = (s1, .pme e)) (hstate : e.state = PgUnmapped)
    (hkind : dKind d = 0) :
    s.mapUnit p d i = (s1.setPme p (dFirst d % 2 ^ 24 + i) (zeroEntry d e.gen), .ended 0) := by
  simp only [State.mapUnit, hread, hstate, hkind, ne_eq, not_true_eq_false, false_and, if_false, zeroEntry]

theorem mapUnit_mapped (hread : s.pmeRead p (dFirst d % 2 ^ 24 + i) = (s1, .pme e)) (hmapped : e.state ≠ PgUnmapped)
    (hkept : e.state ≠ PgDropped) : s.mapUnit p d i = (s1, .ended 7) := by
  simp only [State.mapUnit, hread, if_pos (And.intro hmapped hkept)]

theorem unmapUnit_read (hread : s.pmeRead p (dFirst d % 2 ^ 24 + i) = (s1, .pme e)) :
    s.unmapUnit p d i =
      if e.anchor = true then
        ((s1.setPme p (dFirst d % 2 ^ 24 + i) { e with anchor := false }).dropRef p (dFirst d % 2 ^ 24 + i), .ended 0)
      else (s1, .ended 9) := by
  simp only [State.unmapUnit, hread]
  cases e.anchor with
  | true => rfl
  | false => rfl

/-! ### Moving a page (R268) -/

/-- A FIXED page in T1 has no move, not even to T1. -/
theorem moveUnit_fixed (hread : s.pmeRead p (dFirst d % 2 ^ 24 + i) = (s1, .pme e)) (hstate : e.state = PgT1) (hfixed : e.fixed = true) :
    s.moveUnit p d i = (s1, .ended 3) := by
  have hmapped : ¬ (e.state = PgUnmapped ∨ e.state = PgDropped) := by rw [hstate]; decide
  have hstill : e.state ≠ PgMoving := by rw [hstate]; decide
  simp only [State.moveUnit, hread, if_neg hmapped, if_neg hstill, hfixed, Bool.true_or, if_true]

/-- A ZERO page counts as being in T1, where even a LOCK page may go. -/
theorem moveUnit_zero (hread : s.pmeRead p (dFirst d % 2 ^ 24 + i) = (s1, .pme e)) (hstate : e.state = PgZero) (hfixed : e.fixed = false)
    (hkind : dKind d = 1) : s.moveUnit p d i = (s1, .ended 0) := by
  have hmapped : ¬ (e.state = PgUnmapped ∨ e.state = PgDropped) := by rw [hstate]; decide
  have hstill : e.state ≠ PgMoving := by rw [hstate]; decide
  have huncoded : (e.state == PgCoded) = false := by rw [hstate]; decide
  have hthere : e.state = 1 + 1 ∨ e.state = PgZero := .inr hstate
  simp only [State.moveUnit, hread, if_neg hmapped, if_neg hstill, hfixed, huncoded, Bool.or_self, Bool.false_eq_true, hkind,
    ne_eq, not_true_eq_false, false_and, if_false, if_pos hthere]

/-! ### Reserving a frame and giving it back (R266) -/

theorem reserveUnit_free (hbar : s.frameBarred (tierOfKind (dKind d)) (dFirst d + i) = false) (hback : bit (dFlags d) 3 = false)
    (hfree : s.frame (tierOfKind (dKind d)) (dFirst d + i) = .free) :
    s.reserveUnit p d i = (s.setFrame (tierOfKind (dKind d)) (dFirst d + i) (.reserved p true), .ended 0) := by
  simp only [State.reserveUnit, hbar, hback, hfree, Bool.false_eq_true, if_false]

theorem reserveUnit_back {c : Bool} (hbar : s.frameBarred (tierOfKind (dKind d)) (dFirst d + i) = false)
    (hback : bit (dFlags d) 3 = true) (hown : s.frame (tierOfKind (dKind d)) (dFirst d + i) = .reserved p c) :
    s.reserveUnit p d i = (s.releaseFrame (tierOfKind (dKind d)) (dFirst d + i), .ended 0) := by
  simp only [State.reserveUnit, hbar, hback, hown, Bool.false_eq_true, if_false, if_true]

end

/-- Settles O23: the state and the entry that a clause names are those of one read, and each unit goes on from it as its lemma says. -/
theorem pageUnitsMapAndReserve : Obligations.PageUnitsMapAndReserve := by
  refine ⟨?zero, ?mapped, ?unmap, ?fixed, ?moveZero, fun _ _ _ _ => reserveUnit_free, fun _ _ _ _ _ => reserveUnit_back⟩
  case zero => exact fun _ _ _ _ _ _ hs1 hpme => mapUnit_zero (Prod.ext hs1.symm hpme)
  case mapped => exact fun _ _ _ _ _ _ hs1 hpme => mapUnit_mapped (Prod.ext hs1.symm hpme)
  case unmap => exact fun _ _ _ _ _ _ hs1 hpme => unmapUnit_read (Prod.ext hs1.symm hpme)
  case fixed => exact fun _ _ _ _ _ _ hs1 hpme => moveUnit_fixed (Prod.ext hs1.symm hpme)
  case moveZero => exact fun _ _ _ _ _ _ hs1 hpme => moveUnit_zero (Prod.ext hs1.symm hpme)

end Sys2Proof.Machine

/-! # The mover's work, the maps and the PFT

Outside self-refresh each event of the mover comes to one operation, once its turn in the mover's order (R267) has come; the writes of
maps and of `PFT_CFG` go through their path and their page. -/

namespace Sys2Proof.Machine

open Sys2Proof

section

variable {s t : State} {p pg : Nat}

/-! ### Moves and pins (R268, R276) -/

/-- A copy within the engine switches its page over when nothing stands before it. -/
theorem pageMoveDone_turn {m : Move} (hmove : s.moveOf p pg = some m) (hturn : s.moveBehind m = false) (htier : m.tier ≠ 3) :
    s.pageMoveDone p pg = (s.finishMove m).1 := by
  simp only [State.pageMoveDone, hmove, hturn, Bool.false_eq_true, if_false]
  split
  · contradiction
  · rfl

theorem execPageMoveDone_awake {part : Fin 8} {page : BitVec 24} (hup : s.Up Page.PGM) (hawake : s.tower.selfRefresh = false) :
    execPageMoveDone part page s = .next (s.pageMoveDone part.val page.toNat).runJobs :=
  onMover_up (f := fun s => (s.pageMoveDone part.val page.toNat).runJobs) hup hawake

/-- With no source frame waiting for the pin, its end leaves the page's release alone to be looked at. -/
theorem unpin_pinned (hmap : s.inMap p pg = true) (hpins : 0 < (s.pme p pg).pins)
    (ht : t = s.setPme p pg { s.pme p pg with pins := (s.pme p pg).pins - 1 })
    (hlinger : (t.pages.linger.find? fun x => x.part == p && x.page == pg) = none) : s.unpin p pg = t.releaseCheck p pg := by
  simp only [State.unpin, hmap, Nat.ne_of_gt hpins, ← ht, hlinger, Bool.not_true, Bool.false_eq_true, if_false]

theorem execPinRelease_awake {part : Fin 8} {page : BitVec 24} (hup : s.Up Page.XLT) (hawake : s.tower.selfRefresh = false) :
    execPinRelease part page s = .next (s.unpin part.val page.toNat).runJobs := by
  simp only [execPinRelease, onPage_up hup, hawake, Bool.false_eq_true, if_false]

/-! ### The ager, evictions and fills (R270, R271, R272) -/

theorem execAgerPass_due (hup : s.Up Page.PGM) (hawake : s.tower.selfRefresh = false) (hturn : s.fillBehind = false)
    (hnext : s.fillNext = none) (hdue : max 1 (s.fget F.PGM_AGE_TICKS_TICKS) ≤ s.pages.ageTicks) :
    execAgerPass s = .next s.agerPass := by
  simp only [execAgerPass, onMover_up hup hawake, hturn, hnext, Option.isSome_none, Bool.or_self, Bool.false_eq_true, if_false,
    if_pos hdue]

/-- While eviction is in progress the next page is the oldest that may go. -/
theorem evictNext_evicting (hevicting : s.flag F.PGM_STAT_EVICTING = true) :
    s.evictNext = s.oldest ((s.poolPages .t1).filter fun x => s.evictable x.1 x.2) :=
  if_pos hevicting

/-- The next page is evicted; when T2 has no frame for it at all, its allocation fails. -/
theorem execEvict_next (hup : s.Up Page.PGM) (hawake : s.tower.selfRefresh = false) (ht : t = s.updEvicting)
    (hturn : t.moverBusy 2 = false) (hnext : t.evictNext = some (p, pg)) :
    execEvict s = .next (if (t.evictPage p pg false).2 = .none then (t.evictPage p pg false).1.noSpace p pg false
      else (t.evictPage p pg false).1.runJobs) := by
  subst ht
  simp only [execEvict, onMover_up hup hawake, hturn, hnext, Bool.false_eq_true, if_false]
  obtain ⟨u, left⟩ := s.updEvicting.evictPage p pg false
  cases left with
  | frame f => simp only [reduceCtorEq, if_false]
  | wait => simp only [reduceCtorEq, if_false]
  | none => simp only [if_true]

theorem execZeroFill_dirty {t2 : Bool} {frame : Nat} {tier : Tier} (hup : s.Up Page.PGM) (hawake : s.tower.selfRefresh = false)
    (htier : tier = if t2 = true then Tier.t2 else Tier.t1) (hturn : s.fillBehind = false)
    (hnext : s.fillNext = some (frameKey tier frame)) (hdirty : s.frame tier frame = .dirty) :
    execZeroFill t2 frame s = .next (((s.fillFrame tier frame).setFrame tier frame .free).updEvicting) := by
  simp only [execZeroFill, onMover_up hup hawake, ← htier, hturn, hnext, hdirty, bne_self_eq_false, Bool.or_self, Bool.false_eq_true,
    if_false]

/-! ### Maps (R259) -/

/-- A frame of T1 that a map may take: in the pool or waiting for its fill, outside every Summerhouse and coded region. -/
def State.mapMay (s : State) (f : Nat) : Prop :=
  f < tierFrames .t1 ∧ s.isSummerhouse f = false ∧ s.inCoded .t1 f = false
    ∧ (s.frame .t1 f = .free ∨ s.frame .t1 f = .dirty ∨ s.frame .t1 f = .kept)

/-- The check of a write of `PGM_MAP_PAGES` finds no fault with such a frame. -/
theorem mapMay_unbarred {f : Nat} (h : s.mapMay f) :
    (decide (tierFrames .t1 ≤ f) || s.isSummerhouse f || s.inCoded .t1 f
      || !(s.frame .t1 f == .free || s.frame .t1 f == .dirty || s.frame .t1 f == .kept)) = false := by
  obtain ⟨hlt, hhouse, hcoded, huse⟩ := h
  have hpool : (s.frame .t1 f == .free || s.frame .t1 f == .dirty || s.frame .t1 f == .kept) = true := by
    simpa only [Bool.or_eq_true, beq_iff_eq, or_assoc] using huse
  simp only [decide_eq_false (Nat.not_le.mpr hlt), hhouse, hcoded, hpool, Bool.not_true, Bool.or_self]

/-- A map not yet set takes its frames, those that wait for their fill filled first. -/
theorem mapPagesWrite_takes {v n : Nat} {l : List Nat} (hn : n = min (v % 2 ^ 25) (2 ^ 24) / 256 * 256)
    (hunset : s.fget F.PGM_MAP_PAGES_PAGES p = 0) (hpos : n ≠ 0)
    (hl : l = (List.range (mapFrames n)).map (· + s.fget F.PGM_MAP_BASE_FRAME p)) (hmay : ∀ f ∈ l, s.mapMay f) :
    s.mapPagesWrite p v =
      (l.foldl (fun x f => (if (x.frame .t1 f).toFill = true then x.fillFrame .t1 f else x).setFrame .t1 f (.map p)) s).fset
        F.PGM_MAP_PAGES_PAGES p n := by
  have hgood : (l.any fun f => decide (tierFrames .t1 ≤ f) || s.isSummerhouse f || s.inCoded .t1 f
      || !(s.frame .t1 f == .free || s.frame .t1 f == .dirty || s.frame .t1 f == .kept)) = false :=
    List.any_eq_false.mpr fun f hf => Bool.eq_false_iff.mp (mapMay_unbarred (hmay f hf))
  simp only [State.mapPagesWrite, hunset, ← hn, hpos, ← hl, hgood, ne_eq, not_true_eq_false, Bool.false_eq_true, if_false]

/-- The map of a partition that is in use stays as it is. -/
theorem mapPagesWrite_inUse {v : Nat} (hset : s.fget F.PGM_MAP_PAGES_PAGES p ≠ 0) (huse : s.fget F.PTC_STAT_STATE p ≠ 0) :
    s.mapPagesWrite p v = s.set1 F.PGM_STAT_MAP_REFUSED := by
  simp only [State.mapPagesWrite, hset, huse, ne_eq, not_false_eq_true, and_false, if_true, if_false]

variable {path : Path} {w : Word}

theorem execMapPagesWrite_up (hmay : s.pathMay path R.PGM_MAP_PAGES = true) (hup : s.Up Page.PGM) :
    execMapPagesWrite path w s = .next (s.mapPagesWrite (s.sel path F.PGM_PART_SEL_PART) w.toNat) := by
  rw [execMapPagesWrite, fromPath_may hmay, onPage_up hup]

/-! ### The PFT (R289) -/

theorem pftCfgWrite_on {v : Nat} (hon : s.flag F.PFT_CFG_ENABLE = true) :
    s.pftCfgWrite v = s.fset F.PFT_CFG_ENABLE 0 (bits v 8 1) := by
  simp only [State.pftCfgWrite, hon, Bool.not_true, Bool.false_and, Bool.false_eq_true, if_true, if_false]

/-- The state with VALID cleared in each entry of a table of `n` bytes at `lo`: bit 7 of byte 14 of each 16. -/
def State.clearTable (s : State) (lo n : Nat) : State :=
  { s with tower := { s.tower with mem := { s.tower.mem with
      cells := (s.tower.mem.cells.map fun c =>
        if (decide (lo ≤ c.1) && decide (c.1 < lo + n) && c.1 % 16 == 14) = true then (c.1, c.2 &&& 0x7F) else c).filter
          fun c => c.2 != 0 } } }

/-- A table that is switched on takes its size first, and is cleared at that size. -/
theorem pftCfgWrite_enables {v lo n : Nat} (hoff : s.flag F.PFT_CFG_ENABLE = false) (hon : bit v 8 = true)
    (ht : t = (s.fset F.PFT_CFG_LOG2 0 (clamp 4 17 (bits v 0 5))).fset F.PFT_CFG_ENABLE 0 (bits v 8 1)) (hlo : lo = t.pftAddr 0)
    (hn : n = 128 * t.pftBuckets) :
    s.pftCfgWrite v = (((t.clearTable lo n).mirrorFill lo n).secsWritten lo n).fset F.PFT_USED_ENTRIES 0 0 := by
  simp only [State.pftCfgWrite, hoff, hon, ← ht, ← hlo, ← hn, Bool.not_false, Bool.and_self, Bool.false_eq_true, if_true, if_false,
    State.clearTable]

theorem execPftEnable_up (hmay : s.pathMay path R.PFT_CFG = true) (hup : s.Up Page.PFT) :
    execPftEnable path w s = .next (s.pftCfgWrite w.toNat) := by
  rw [execPftEnable, fromPath_may hmay, onPage_up hup]

end

/-- Settles O24: each command reaches its operation once its turn has come, and the operation does what its lemma above says. -/
theorem pagesMoveAgeEvictAndFill : Obligations.PagesMoveAgeEvictAndFill := by
  refine ⟨?move, ?pin, fun _ => execAgerPass_due, ?evict, fun _ _ _ _ => execZeroFill_dirty, ?map, fun _ _ _ => mapPagesWrite_inUse,
    ?pftOn, ?pftEnable⟩
  case move =>
    intro part page s m hup hawake hmove hturn htier
    calc exec (.pageMoveDone part page) s
        = .next (s.pageMoveDone part.val page.toNat).runJobs := execPageMoveDone_awake hup hawake
      _ = _ := by rw [pageMoveDone_turn hmove hturn htier]
  case pin =>
    intro part page s d s1 hup hawake hmap hd hpins hs1 hlinger
    subst hd
    calc exec (.pinRelease part page) s
        = .next (s.unpin part.val page.toNat).runJobs := execPinRelease_awake hup hawake
      _ = _ := by rw [unpin_pinned hmap hpins hs1 hlinger]
  case evict =>
    intro s s1 p pg hup hawake hs1 hturn hevicting holdest
    exact execEvict_next hup hawake hs1 hturn ((evictNext_evicting hevicting).trans holdest)
  case map =>
    intro path v s p n l hmay hup hp hn hunset hpos hl hframes
    subst hp
    exact (execMapPagesWrite_up hmay hup).trans (congrArg _ (mapPagesWrite_takes hn hunset hpos hl hframes))
  case pftOn =>
    intro path v s hmay hup hon
    exact (execPftEnable_up hmay hup).trans (congrArg _ (pftCfgWrite_on hon))
  case pftEnable =>
    intro path v s s1 lo n hmay hup hoff hon hs1 hlo hn
    exact (execPftEnable_up hmay hup).trans (congrArg _ (pftCfgWrite_enables hoff hon hs1 hlo hn))

end Sys2Proof.Machine

/-! # Inbound requests

Every inbound request goes through one guard, whatever its type; past it the checks of R303 stand in a fixed order, and each lemma below
takes what the checks before its own have let through. -/

namespace Sys2Proof.Machine

open Sys2Proof

section

/-! ### Taking a request in (R295, R297) -/

/-- A command for requests of one type checks those of any operation. -/
theorem inbound_anyOp {typ : Nat} (hlow : 1 ≤ typ) (hhigh : typ ≤ 6) (hdr payload : List Byte) (s : State) (t : Txn) (s1 : State)
    (hup : s.Up Page.FBP) (ht : t = Txn.ofHeader hdr payload) (hroom : s.rxCredits t.vc t.resp ≠ 0)
    (hs1 : s1 = s.received t.vc t.resp (hdr ++ payload)) (hlen : hdr.length = 32) (hcrc : crcOk hdr 28 = true) (htyp : t.typ = typ)
    (hdst : t.dst = s1.fget F.FBP_NODE_NODE) (hdstMax : t.dst ≤ 262143) (hsrcMax : t.src ≤ 262143) :
    inbound typ none hdr payload s = .next (s1.fabRequest hdr t) :=
  inbound_good hup.1 hup.2 ht hroom hs1 hlen hcrc htyp hlow hhigh hdst hdstMax hsrcMax (.inl rfl)

/-- A command for one atomic operation checks the atomics of that operation. -/
theorem inbound_atomicOp {op : Nat} (hdr payload : List Byte) (s : State) (t : Txn) (s1 : State)
    (hup : s.Up Page.FBP) (ht : t = Txn.ofHeader hdr payload) (hroom : s.rxCredits t.vc t.resp ≠ 0)
    (hs1 : s1 = s.received t.vc t.resp (hdr ++ payload)) (hlen : hdr.length = 32) (hcrc : crcOk hdr 28 = true) (htyp : t.typ = 3)
    (hop : t.op = op) (hdst : t.dst = s1.fget F.FBP_NODE_NODE) (hdstMax : t.dst ≤ 262143) (hsrcMax : t.src ≤ 262143) :
    inbound 3 (some op) hdr payload s = .next (s1.fabRequest hdr t) :=
  inbound_good hup.1 hup.2 ht hroom hs1 hlen hcrc htyp (by decide) (by decide) hdst hdstMax hsrcMax (.inr (congrArg some hop.symm))

end

section

variable {s : State} {hdr : List Byte} {t : Txn} {p a f off : Nat} {q : Option Nat}

/-! ### Requests that get no further than the gate, the block list, the stage or their form (R291, R303, R320, R321) -/

/-- The gate of the tower's tests bars every channel but channel 0. -/
theorem fabRequest_gated (hgate : t.gate = true) (hvc : t.vc ≠ 0) :
    s.fabRequest hdr t = (s.gateDrop t.src t.vc t.tag 3).refuseReq hdr 2 3 := by
  have hbarred : (t.gate && t.vc != 0) = true := Bool.and_eq_true_iff.mpr ⟨hgate, bne_iff_ne.mpr hvc⟩
  rw [State.fabRequest, if_pos hbarred]

variable (hgate : t.gate = false)
include hgate

/-- R321 comes before every check that answers. -/
theorem fabRequest_blocked
    (hlisted : (List.range 16).any (fun b => s.flag F.FBK_BLK_NODE_VALID b && s.fget F.FBK_BLK_NODE_NODE b == t.src) = true) :
    s.fabRequest hdr t = s.bump F.FBK_BLOCKED_CNT_COUNT := by
  simp only [State.fabRequest, hgate, hlisted, Bool.false_and, Bool.false_eq_true, if_false, if_true]

variable (hopen : (List.range 16).any (fun b => s.flag F.FBK_BLK_NODE_VALID b && s.fget F.FBK_BLK_NODE_NODE b == t.src) = false)
include hopen

theorem fabRequest_otherStage (hstage : sameStage t.src (s.fget F.FBP_NODE_NODE) = false) :
    s.fabRequest hdr t = (s.bump F.FBP_RX_HOSTILE_COUNT).refuseReq hdr 4 3 := by
  simp only [State.fabRequest, hgate, hopen, hstage, Bool.false_and, Bool.not_false, Bool.false_eq_true, if_false, if_true]

variable (hstage : sameStage t.src (s.fget F.FBP_NODE_NODE) = true)
include hstage

theorem fabRequest_malformed (hform : t.wellFormed = false) :
    s.fabRequest hdr t = (s.bump F.FBP_RX_BAD_COUNT).refuseReq hdr 5 5 := by
  simp only [State.fabRequest, hgate, hopen, hstage, hform, Bool.false_and, Bool.not_true, Bool.not_false, Bool.false_eq_true, if_false,
    if_true]

/-! ### Well-formed requests: what they name decides (R299, R303, R304, R306) -/

variable (hform : t.wellFormed = true)
include hform

theorem fabRequest_noTarget (htarget : s.reqTarget t = none) : s.fabRequest hdr t = s.keyFail hdr := by
  simp only [State.fabRequest, hgate, hopen, hstage, hform, htarget, Bool.false_and, Bool.not_true, Bool.false_eq_true, if_false]

/-- A request of COUNT 0 combines no others, so nothing is counted on the way. -/
theorem fabRequest_lent (htarget : s.reqTarget t = some (.lent f off)) (hcount : t.count = 0) :
    s.fabRequest hdr t = s.lentAccess hdr t f off := by
  have hsingle : ¬ 2 ≤ t.count := by omega
  simp only [State.fabRequest, hgate, hopen, hstage, hform, htarget, if_neg hsingle, Bool.false_and, Bool.not_true, Bool.false_eq_true,
    if_false]

variable (htarget : s.reqTarget t = some (.addr p q a))
include htarget

theorem fabRequest_resetting (hreset : s.fget F.PTC_STAT_STATE p = 4) : s.fabRequest hdr t = s.refuseReq hdr 7 5 := by
  simp only [State.fabRequest, hgate, hopen, hstage, hform, htarget, if_pos hreset, Bool.false_and, Bool.not_true, Bool.false_eq_true,
    if_false]

/-- The TYPE gives the access; a type that is neither LOAD nor STORE is an ATOMIC here. -/
theorem fabRequest_made (hlive : s.fget F.PTC_STAT_STATE p ≠ 4) :
    s.fabRequest hdr t =
      (let s1 := if 2 ≤ t.count then s.bump F.FBP_COMBINED_CNT_COUNT else s
       s1.access (if t.typ = 1 then ⟨2, .fabLoad hdr, p, q, a, t.len, [], 0⟩
         else (if t.typ = 2 then ⟨2, .fabStore hdr, p, q, a, 0, t.payload.map some, 0⟩
           else ⟨2, .fabAtomic hdr t.payload, p, q, a, t.span, [], 0⟩))) := by
  simp only [State.fabRequest, hgate, hopen, hstage, hform, htarget, if_neg hlive, Bool.false_and, Bool.not_true, Bool.false_eq_true,
    if_false]
  refine congrArg _ ?_
  generalize t.typ = typ
  match typ with
  | 1 => rfl
  | 2 => rfl
  | 0 => rfl
  | _ + 3 => rfl

end

/-- Settles O26: each command is `inbound` at its type, an atomic's at its operation too. -/
theorem inboundRequestsReachTheChecks : Obligations.InboundRequestsReachTheChecks :=
  ⟨inbound_anyOp (by decide) (by decide), inbound_anyOp (by decide) (by decide), inbound_anyOp (by decide) (by decide),
    inbound_atomicOp, inbound_atomicOp, inbound_atomicOp, inbound_atomicOp, inbound_atomicOp, inbound_atomicOp, inbound_atomicOp,
    inbound_atomicOp, inbound_atomicOp, inbound_atomicOp, inbound_atomicOp, inbound_atomicOp, inbound_atomicOp, inbound_atomicOp,
    inbound_atomicOp⟩

/-- Settles O27: a clause for each way out of the checks, in their order. -/
theorem inboundRequestChecks : Obligations.InboundRequestChecks := by
  refine ⟨?gated, ?blocked, ?otherStage, ?malformed, ?noTarget, ?resetting, ?made, ?lent⟩
  case gated => exact fun _ _ _ => fabRequest_gated
  case blocked => exact fun _ _ _ => fabRequest_blocked
  case otherStage => exact fun _ _ _ => fabRequest_otherStage
  case malformed => exact fun _ _ _ => fabRequest_malformed
  case noTarget => exact fun _ _ _ => fabRequest_noTarget
  case resetting => exact fun _ _ _ _ _ _ => fabRequest_resetting
  case made => exact fun _ _ _ _ _ _ => fabRequest_made
  case lent => exact fun _ _ _ _ _ => fabRequest_lent

end Sys2Proof.Machine

/-! # The atomics (R296)

The signed atomics compare signed values and pick a word, so the signed value of the word picked is the lesser or the greater one; the
other operations are those of `atomNew` as they stand. -/

namespace Sys2Proof.Machine

open Sys2Proof

section

variable {w old x : Nat}

/-- The word picked by a signed minimum has the lesser signed value. -/
theorem signed_pickLesser : signed w (if signed w x < signed w old then x else old) = min (signed w old) (signed w x) := by
  rw [apply_ite (signed w)]
  split
  next hlt => exact (Int.min_eq_right (Int.le_of_lt hlt)).symm
  next hge => exact (Int.min_eq_left (Int.not_lt.mp hge)).symm

/-- The word picked by a signed maximum has the greater signed value. -/
theorem signed_pickGreater : signed w (if signed w old < signed w x then x else old) = max (signed w old) (signed w x) := by
  rw [apply_ite (signed w)]
  split
  next hlt => exact (Int.max_eq_right (Int.le_of_lt hlt)).symm
  next hge => exact (Int.max_eq_left (Int.not_lt.mp hge)).symm

/-- The table of R296: which of its 15 operations take 8 bytes, and which may not be combined. -/
theorem atomics_table : ∀ op < 16, 1 ≤ op →
    atomWidth op = some (if op ∈ [2, 5, 7, 10, 12, 15] then 8 else 4) ∧ atomCombinable op = !([3, 8, 13, 14, 15].contains op) := by
  decide

end

/-- Settles O28: the four signed atomics by the value of the word picked, width and combining by the table, the rest as defined. -/
theorem atomicNewValues : Obligations.AtomicNewValues := by
  refine ⟨?addI32, ?addI64, ?addF32, ?minS32, ?minS64, ?minU32, ?minU64, ?minF32, ?maxS32, ?maxS64, ?maxU32, ?maxU64, ?maxF32, ?cas32,
    ?cas64, ?table⟩
  case minS32 | minS64 => exact fun _ _ _ => signed_pickLesser
  case maxS32 | maxS64 => exact fun _ _ _ => signed_pickGreater
  case table => exact fun op hlow hhigh => atomics_table op (Nat.lt_succ_of_le hhigh) hlow
  case addI32 | addI64 | addF32 | minU32 | minU64 | minF32 | maxU32 | maxU64 | maxF32 | cas32 | cas64 => exact fun _ _ _ => rfl

end Sys2Proof.Machine

/-! # Collective groups and the start of a collective

What an install does rests on the read of its own entry of the member table, so there is a lemma for each way that the read and the
checks come out. The seven operations share one command, which takes the head of the queue when it is of its opcode. -/

namespace Sys2Proof.Machine

open Sys2Proof

section

variable {s t : State} {path : Path} {g : Nat}

/-! ### Install and removal of a group (R327) -/

/-- The state with the wait of a group's install ended. -/
def State.dropInstall (s : State) (g : Nat) : State := { s with col := { s.col with installs := s.col.installs.erase g } }

/-- The state with what was kept of an earlier group of an entry forgotten: sequences, READYs, ARRIVALs and broadcasts of weights. -/
def State.forgetGroup (s : State) (g : Nat) : State :=
  { s with col :=
      { s.col with
        seqs := alDel s.col.seqs g, ready := s.col.ready.filter (·.group != g), arrived := s.col.arrived.filter (·.group != g),
        weights := s.col.weights.filter (·.1 != g) } }

theorem colInstallOn_refused {own : List (Option Nat)} (hbad : s.colInstallReason g own.head?.join ≠ 0) :
    s.colInstallOn g (some own) =
      (s.dropInstall g).fset F.COL_GRP_STAT_REASON g (s.colInstallReason g own.head?.join) :=
  if_pos hbad

theorem colInstallOn_installs {own : List (Option Nat)} (hok : s.colInstallReason g own.head?.join = 0)
    (ht : t = (s.dropInstall g).fset F.COL_GRP_STAT_REASON g 0) :
    s.colInstallOn g (some own) =
      (let shape := t.grpShape (t.fget F.COL_GRP_CFG_PART g) (t.grpAxes g)
       (((t.set1 F.COL_GRP_CFG_VALID g).fset F.COL_GRP_STAT_MEMBERS g shape.1).fset F.COL_GRP_STAT_RANK g shape.2).forgetGroup g) := by
  subst ht
  simp only [State.colInstallOn, hok, ne_eq, not_true_eq_false, if_false, State.dropInstall, State.forgetGroup]

/-- While the entry is not read, only a reason that holds whatever it is decides the install. -/
theorem colInstallOn_waits
    (hopen : ¬ (1 ≤ s.colInstallReason g (some (s.fget F.FBP_NODE_NODE)) ∧ s.colInstallReason g (some (s.fget F.FBP_NODE_NODE)) ≤ 4)) :
    s.colInstallOn g none = { s with col := { s.col with installs := nsAdd s.col.installs g } } :=
  if_neg hopen

/-- INSTALL is decided by the read of the group's own entry of the member table. -/
theorem execColInstall_up (hmay : s.pathMay path R.COL_GRP_CMD = true) (hup : s.Up Page.COL) (hg : g = s.sel path F.COL_GRP_SEL_ENTRY)
    {m : State × Option (List (Option Nat))}
    (hm : m = s.colMembers g (s.grpShape (s.fget F.COL_GRP_CFG_PART g) (s.grpAxes g)).2 1) :
    execColInstall path s = .next (m.1.colInstallOn g m.2) := by
  subst hm hg
  rw [execColInstall, fromPath_may hmay, onPage_up hup, State.colInstall]

theorem colRemove_idle (hidle : (s.col.jobs.any fun x => x.group == g && x.ended.isNone) = false) :
    s.colRemove g = ((s.dropInstall g).fset F.COL_GRP_STAT_REASON g 0).set0 F.COL_GRP_CFG_VALID g :=
  if_neg (Bool.eq_false_iff.mp hidle)

theorem execColRemove_up (hmay : s.pathMay path R.COL_GRP_CMD = true) (hup : s.Up Page.COL) :
    execColRemove path s = .next (s.colRemove (s.sel path F.COL_GRP_SEL_ENTRY)) := by
  rw [execColRemove, fromPath_may hmay, onPage_up hup]

/-! ### The head of a collective queue (R328) -/

variable {part : Fin 8} {d : List Byte}

/-- The command of an operation takes the head of the queue of a live partition that has no collective in execution. -/
theorem onPage_colOp_takes {opcode : Nat} (hknown : (decide (0x30 ≤ opcode) && decide (opcode ≤ 0x36)) = true) (hup : s.Up Page.COL)
    (hidle : s.colJob part.val = none) (hused : s.fget F.PTC_STAT_STATE part.val ≠ 0) (hset : s.fget F.PTC_STAT_STATE part.val ≠ 4)
    (hready : s.qReady .collective part.val = true) (ht : t = (s.qHead .collective part.val 2).1)
    (hd : (s.qHead .collective part.val 2).2 = some d) (hhead : descHeadOk d false = true) (hop : fieldLE d 0 1 = opcode) :
    onPage s Page.COL (fun s => s.colOp part.val opcode) =
      .next (t.colTake part.val (t.fget (QKind.head .collective) part.val) d) := by
  have hlive : ¬ (s.fget F.PTC_STAT_STATE part.val = 0 ∨ s.fget F.PTC_STAT_STATE part.val = 4) := not_or.mpr ⟨hused, hset⟩
  rw [onPage_up hup, State.colOp, hidle, if_neg (by decide), if_neg hlive, qRun_front hready ht hd hhead hknown hop]

/-! ### Refused or started (R328, R329, R343) -/

variable {p i : Nat}

theorem colTake_refused {q : State × List (Option Byte) × Span}
    (hq : q = if cdWeights d = true then s.readRange 2 p (s.fget F.UPD_LTAB_BASE_BASE p * 4096 + 64 * fieldLE d 36 2) 64
      else (s, [], .ok))
    (hread : q.2.2 ≠ .wait) (hbad : q.1.colReason p d (q.2.1.map (·.getD 0xFF)) ≠ 0) :
    s.colTake p i d =
      (q.1.qTake .collective p).qRefuse .collective p i d (q.1.colReason p d (q.2.1.map (·.getD 0xFF))) := by
  rw [State.colTake, ← hq]
  obtain ⟨u, bs, span⟩ := q
  cases span with
  | wait => exact absurd rfl hread
  | ok | refused | late => exact if_pos hbad

/-- Without WEIGHTS no layer's descriptor is read. -/
theorem colTake_accepted (hplain : cdWeights d = false) (hok : s.colReason p d [] = 0) : s.colTake p i d = s.colStart p i d [] := by
  simp only [State.colTake, hplain, Bool.false_eq_true, if_false, List.map_nil, hok, ne_eq, not_true_eq_false]

/-- The state with a job's sequence noted for its group and the job in execution. -/
def State.enterCol (s : State) (x : ColJob) : State :=
  { s with col := { s.col with seqs := alPut s.col.seqs x.group x.seq, jobs := s.col.jobs ++ [x] } }

/-- A collective that has no data of its own to bring in first starts when its member table has been read. -/
theorem colStart_enters {nodes : List (Option Nat)} {x : ColJob} (hplain : cdWeights d = false)
    (hread : s.colMembers (cdGroup d) 0 (s.fget F.COL_GRP_STAT_MEMBERS (cdGroup d)) = (t, some nodes))
    (hx : x = t.colFresh p i d [] nodes) (hlocal : x.local_ = none) :
    s.colStart p i d [] = ((t.qTake .collective p).enterCol x).colAdvance := by
  subst hx
  simp only [State.colStart, hread, hplain, hlocal, Bool.false_eq_true, false_and, if_false]
  rfl

end

/-- Settles O32: an install goes by the read of its own entry, each operation is the one command at its opcode, and a collective that
starts keeps the nodes read from the member table (log entry 70). -/
theorem collectivesStartFromTheirQueue : Obligations.CollectivesStartFromTheirQueue := by
  refine ⟨?installRefused, ?install, ?installWaits, ?remove, ?allReduce, ?reduceScatter, ?allGather, ?broadcast, ?allToAll, ?barrier,
    ?kvRing, ?refused, fun _ _ _ _ _ => rfl, ?started⟩
  case installRefused =>
    intro path s g r m own hmay hup hg hm hown hr hbad
    subst hr
    calc exec (.colInstall path) s
        = .next (m.1.colInstallOn g m.2) := execColInstall_up hmay hup hg hm
      _ = _ := by rw [hown, colInstallOn_refused hbad]; rfl
  case install =>
    intro path s g m own s1 q hmay hup hg hm hown hok hs1 hq
    subst hq
    calc exec (.colInstall path) s
        = .next (m.1.colInstallOn g m.2) := execColInstall_up hmay hup hg hm
      _ = _ := by rw [hown, colInstallOn_installs hok hs1]; rfl
  case installWaits =>
    intro path s g r m hmay hup hg hm hown hr hopen
    subst hr
    calc exec (.colInstall path) s
        = .next (m.1.colInstallOn g m.2) := execColInstall_up hmay hup hg hm
      _ = _ := by rw [hown, colInstallOn_waits hopen]
  case remove =>
    intro path s g hmay hup hg hidle
    subst hg
    exact (execColRemove_up hmay hup).trans (congrArg _ (colRemove_idle hidle))
  case allReduce | reduceScatter | allGather | broadcast | allToAll | barrier | kvRing =>
    exact fun _ _ _ _ => onPage_colOp_takes (by decide)
  case refused =>
    intro s p i r d q hq hread hr hbad
    subst hr
    exact colTake_refused hq hread hbad
  case started =>
    intro s p i g d m nodes s1 s2 x hok hplain hg hm hnodes hs1 hx hlocal hs2
    subst hs2 hm hg
    have hfresh : x = s1.colFresh p i d [] nodes := by
      rw [hx, State.colFresh, hplain]
      rfl
    have hgroup : x.group = cdGroup d := congrArg ColJob.group hx
    calc s.colTake p i d
        = s.colStart p i d [] := colTake_accepted hplain hok
      _ = _ := by rw [colStart_enters hplain (Prod.ext hs1.symm hnodes) hfresh hlocal, State.enterCol, hgroup]

end Sys2Proof.Machine

/-! # Archive points and a restore

A partition's point goes from ARMED to CAPTURING to DRAINING and back to IDLE. The lemmas follow it in that order: the commands that
begin and abort it, the moment it takes effect, the walk of the table, the acknowledgements and the records sent again. A restore takes
the head of its own queue as the other queues' commands do. -/

namespace Sys2Proof.Machine

open Sys2Proof

section

variable {s : State} {path : Path} {p seq : Nat} {pt : ArcPoint} {r : ArcRec}

/-! ### Arming and aborting (R348, R356) -/

theorem execArchiveArm_accepted {full : Bool} (hmay : s.pathMay path R.ARC_CMD = true) (hup : s.Up Page.ARC)
    (hp : p = s.sel path F.ARC_PART_SEL_PART) (hok : s.arcReason p = 0) :
    execArchiveArm path full s =
      .next (((s.fset F.ARC_STAT_REASON p 0).fset F.ARC_STAT_STATE p 1).setArcPoint p
        (some ⟨full, (s.fset F.ARC_STAT_REASON p 0).rd64 R.ARC_POINT_LO p, 0, 0, 0, false, [], false⟩)) := by
  subst hp
  simp only [execArchiveArm, fromPath_may hmay, onPage_up hup, hok, ne_eq, not_true_eq_false, if_false]

theorem execArchiveArm_refused {full : Bool} (hmay : s.pathMay path R.ARC_CMD = true) (hup : s.Up Page.ARC)
    (hp : p = s.sel path F.ARC_PART_SEL_PART) (hbad : s.arcReason p ≠ 0) :
    execArchiveArm path full s = .next ((s.fset F.ARC_STAT_REASON p (s.arcReason p)).irq Page.ARC 2) := by
  subst hp
  simp only [execArchiveArm, fromPath_may hmay, onPage_up hup, if_pos hbad]

/-- An abort ends a point of any state but IDLE and, unlike a failure, logs nothing. -/
theorem arcFail_aborts (hlive : s.fget F.ARC_STAT_STATE p ≠ 0) :
    s.arcFail p 3 =
      ((((s.mapJoin p).setArcPoint p none).fset F.ARC_STAT_STATE p 0).fset F.ARC_STAT_RESULT p 3).irq Page.ARC 0 :=
  if_neg hlive

theorem execArchiveAbort_up (hmay : s.pathMay path R.ARC_CMD = true) (hup : s.Up Page.ARC) :
    execArchiveAbort path s = .next (s.arcFail (s.sel path F.ARC_PART_SEL_PART) 3) := by
  rw [execArchiveAbort, fromPath_may hmay, onPage_up hup]

/-! ### Taking effect and capturing (R349, R350) -/

variable {part : Fin 8}

theorem execArchivePoint_due (hup : s.Up Page.ARC) (hdue : s.arcDue part.val = true) :
    execArchivePoint part s =
      .next (((s.fset F.ARC_STAT_LIVE part.val (s.capMap part.val)).bump F.ARC_SEQ_SEQ part.val).fset F.ARC_STAT_STATE part.val 2) := by
  rw [execArchivePoint, onPage_up hup, if_pos hdue]

/-- With room in the window, a capture writes the cached map words out and walks on. -/
theorem execCaptureRecord_walks (hup : s.Up Page.ARC) (hpoint : s.arcPoint part.val = some pt)
    (hcapturing : s.fget F.ARC_STAT_STATE part.val = 2) (hroom : pt.recs.length < clamp 1 64 (s.fget F.ARC_WINDOW_RECORDS)) :
    execCaptureRecord part s = .next (State.arcWalk part.val (s.arcPlaces part.val) pt (s.wordsOut part.val)) := by
  simp only [execCaptureRecord, onPage_up hup, hpoint, if_pos (And.intro hcapturing hroom)]

/-- Once the table has been walked, only the end record is left to stage. -/
theorem execCaptureRecord_draining (hup : s.Up Page.ARC) (hpoint : s.arcPoint part.val = some pt)
    (hdraining : s.fget F.ARC_STAT_STATE part.val = 3) : execCaptureRecord part s = .next (s.arcEnd part.val) := by
  have hwalked : ¬ (s.fget F.ARC_STAT_STATE part.val = 2 ∧ pt.recs.length < clamp 1 64 (s.fget F.ARC_WINDOW_RECORDS)) :=
    fun h => absurd (hdraining.symm.trans h.1) (by decide)
  simp only [execCaptureRecord, onPage_up hup, hpoint, if_neg hwalked]

theorem arcWalk_tableEnd {k : Nat} (hend : s.fget F.ARC_TAB_COUNT_COUNT p ≤ pt.entry) :
    State.arcWalk p (k + 1) pt s = ((s.setArcPoint p (some pt)).fset F.ARC_STAT_STATE p 3).arcEnd p :=
  if_pos hend

/-! ### Acknowledgements and records sent again (R355, R356) -/

/-- Whether an acknowledgement from a node is for a partition's point: from its target, for the latest point, which is under way. -/
def State.acksPoint (s : State) (src : BitVec 20) (msg : List Byte) (p : Nat) : Bool :=
  s.flag F.ARC_TARGET_VALID p && s.fget F.ARC_TARGET_NODE p == src.toNat && s.rd R.ARC_SEQ p == fieldLE msg 4 4
    && decide (2 ≤ s.fget F.ARC_STAT_STATE p)

/-- A sound acknowledgement is given to every partition whose point it is for. -/
theorem execArchiveAck_good {gate : Bool} {src : BitVec 20} {msg : List Byte} {s1 : State}
    (h : s.Receives 6 true gate src msg s1) (hlen : msg.length = 32) (htyp : fieldLE msg 0 1 = 0x31) (hver : fieldLE msg 1 1 = 1)
    (hcrc : crcOk msg 28 = true) (hpad : fieldLE msg 2 2 = 0) (htail : fieldLE msg 12 16 = 0) :
    execArchiveAck gate src msg s =
      .next ((List.range 8).foldl (fun y p => if y.acksPoint src msg p = true then y.arcAck p (fieldLE msg 8 4) else y) s1) := by
  have hsound : ¬ (msg.length ≠ 32 ∨ fieldLE msg 0 1 ≠ 0x31 ∨ fieldLE msg 1 1 ≠ 1 ∨ crcOk msg 28 = false ∨
      (fieldLE msg 2 2 == 0 && fieldLE msg 12 16 == 0) = false) := by
    simp [hlen, htyp, hver, hcrc, hpad, htail]
  rw [execArchiveAck, onMsg_receives h]
  exact congrArg _ (if_neg hsound)

/-- The acknowledgement that leaves an ended point no record completes it. -/
theorem arcAck_last (hpoint : s.arcPoint p = some pt) (hended : pt.ended = true)
    (hnone : (pt.recs.filter fun x => decide (seq < x.seq)) = []) : s.arcAck p seq = s.arcDone p := by
  simp only [State.arcAck, hpoint, hended, hnone, and_self, if_true]

theorem arcResend_again (hpoint : s.arcPoint p = some pt) (hrec : (pt.recs.find? fun x => x.seq == seq) = some r) (hmay : r.resent < 8) :
    s.arcResend p seq =
      ((s.setArcPoint p (some
        { pt with recs := pt.recs.map fun x => if x.seq == seq then { x with resent := x.resent + 1 } else x })).bump
          F.ARC_RESEND_CNT_COUNT).arcTransmit p r := by
  simp only [State.arcResend, hpoint, hrec, if_neg (Nat.not_le.mpr hmay)]

theorem arcResend_exhausted (hpoint : s.arcPoint p = some pt) (hrec : (pt.recs.find? fun x => x.seq == seq) = some r)
    (hspent : 8 ≤ r.resent) : s.arcResend p seq = s.arcFail p 2 := by
  simp only [State.arcResend, hpoint, hrec, if_pos hspent]

theorem execArchiveResend_up (hup : s.Up Page.ARC) : execArchiveResend part seq s = .next (s.arcResend part.val seq) := onPage_up hup

/-! ### Restoring (R357, R358) -/

variable {t : State} {d : List Byte}

/-- With no restore in progress, a live partition takes the head of its restore queue. -/
theorem execRestore_takes (hup : s.Up Page.ARC) (hidle : (s.arc.restores.find? fun x => x.part == part.val) = none)
    (hused : s.fget F.PTC_STAT_STATE part.val ≠ 0) (hset : s.fget F.PTC_STAT_STATE part.val ≠ 4)
    (hready : s.qReady .restore part.val = true) (ht : t = (s.qHead .restore part.val 2).1)
    (hd : (s.qHead .restore part.val 2).2 = some d) (hhead : descHeadOk d false = true) (hop : fieldLE d 0 1 = 0x40) :
    execRestore part s = .next (t.arcTake part.val (t.fget (QKind.head .restore) part.val) d) := by
  have hlive : ¬ (s.fget F.PTC_STAT_STATE part.val = 0 ∨ s.fget F.PTC_STAT_STATE part.val = 4) := not_or.mpr ⟨hused, hset⟩
  simp only [execRestore, onPage_up hup, hidle, if_neg hlive]
  exact congrArg _ (qRun_front hready ht hd hhead rfl hop)

/-- A descriptor that passes its checks begins at its first record. -/
theorem arcTake_accepted {i : Nat} (hok : (s.qTake .restore p).arcDescReason p d = 0) :
    s.arcTake p i d =
      State.arcRun (rsCount d + 1) ⟨p, i, d, 0, fieldLE d 8 4 * 4096, [], false⟩ (s.qTake .restore p) :=
  if_neg (not_not_intro hok)

end

/-- Settles O34: each command reaches its operation on the point, and the operation does what its lemma above says; a restore runs the
descriptor that it takes. -/
theorem archivePointsAndRestore : Obligations.ArchivePointsAndRestore := by
  refine ⟨fun _ _ _ _ => execArchiveArm_accepted, fun _ _ _ _ => execArchiveArm_refused, ?abort, fun _ _ => execArchivePoint_due,
    fun _ _ _ => execCaptureRecord_walks, fun _ _ _ => execCaptureRecord_draining, fun _ _ _ _ => arcWalk_tableEnd, ?ack,
    fun _ _ _ _ => arcAck_last, ?resend, ?resendFails, ?restore⟩
  case abort =>
    intro path s p hmay hup hp hlive
    subst hp
    exact (execArchiveAbort_up hmay hup).trans (congrArg _ (arcFail_aborts hlive))
  case ack =>
    intro gate src msg s s1 hup hroom hnode huntested hs1
    exact execArchiveAck_good ⟨hup, hroom, hnode, huntested, hs1⟩
  case resend =>
    intro part seq s pt r hup hpoint hrec hmay
    exact (execArchiveResend_up hup).trans (congrArg _ (arcResend_again hpoint hrec hmay))
  case resendFails =>
    intro part seq s pt r hup hpoint hrec hspent
    exact (execArchiveResend_up hup).trans (congrArg _ (arcResend_exhausted hpoint hrec hspent))
  case restore =>
    intro part s s1 d s2 hup hidle hused hset hready hs1 hd hhead hop hs2 hok
    subst hs2
    exact (execRestore_takes hup hidle hused hset hready hs1 hd hhead hop).trans (congrArg _ (arcTake_accepted hok))

end Sys2Proof.Machine

/-! # Every step keeps the canonical form

Each command's meaning keeps it (the lemmas of `Laws/Keeps`), so running any command does, and so does a step: taking the command off the
queue touches neither registers nor memories. -/

namespace Sys2Proof.Machine

open Sys2Proof

section

variable {s : State}

/-- Whatever the command, a canonical state is left canonical. -/
theorem keeps_exec (h : s.Canon) : (c : Instr) → Keeps (exec c s)
  | .hallStrobe .. => keeps_execHallStrobe _ _ _ h
  | .holdover => keeps_execHoldover _ h
  | .holdoverTimeout => keeps_execHoldoverTimeout _ h
  | .holdoverEnd => keeps_execHoldoverEnd _ h
  | .tickBoundary => keeps_execTickBoundary _ h
  | .planSlot .. => keeps_execPlanSlot _ _ _ h
  | .feedEntry .. => keeps_execFeedEntry _ _ _ _ _ h
  | .laneEntry .. => keeps_execLaneEntry _ _ _ _ _ _ _ _ h
  | .updateSlot .. => keeps_execUpdateSlot _ _ _ h
  | .bankEntry .. => keeps_execBankEntry _ _ _ _ h
  | .refreshEntry .. => keeps_execRefreshEntry _ _ _ h
  | .planRetire .. => keeps_execPlanRetire _ _ _ h
  | .timeCommit .. => keeps_execTimeCommit _ _ h
  | .timeEpoch => keeps_execTimeEpoch _ h
  | .planCommit .. => keeps_execPlanCommit _ _ _ h
  | .planCheckDone .. => keeps_execPlanCheckDone _ _ h
  | .planCancel .. => keeps_execPlanCancel _ _ _ h
  | .planDataAccess .. => keeps_execPlanDataAccess _ _ _ h
  | .barrierArm .. => keeps_execBarrierArm _ _ _ h
  | .ringRelease .. => keeps_execRingRelease _ _ _ h
  | .releaseTimeout => keeps_execReleaseTimeout _ h
  | .ringSeal .. => keeps_execRingSeal _ _ _ h
  | .ringArrival .. => keeps_execRingArrival _ _ _ h
  | .ringCounter .. => keeps_execRingCounter _ _ _ h
  | .ringRelay .. => keeps_execRingRelay _ _ _ h
  | .ringCheck .. => keeps_execRingCheck _ _ _ h
  | .checkTimeout => keeps_execCheckTimeout _ h
  | .hostWrite .. => keeps_execHostWrite _ _ _ _ h
  | .hostRead .. => keeps_execHostRead _ _ _ h
  | .writeAdmit => keeps_execWriteAdmit _ h
  | .deltaSend .. => keeps_execDeltaSend _ _ _ h
  | .deltaRecord .. => keeps_execDeltaRecord _ _ _ _ h
  | .ackSend .. => keeps_execAckSend _ _ _ h
  | .ack .. => keeps_execAck _ _ _ _ h
  | .nak .. => keeps_execNak _ _ _ _ h
  | .resend .. => keeps_execResend _ _ _ h
  | .ackTimeout .. => keeps_execAckTimeout _ _ _ h
  | .memberSeal .. => keeps_execMemberSeal _ _ _ _ h
  | .groupSeal .. => keeps_execGroupSeal _ _ _ _ h
  | .installGroup .. => keeps_execInstallGroup _ _ h
  | .zeroFillDone .. => keeps_execZeroFillDone _ _ h
  | .tagCheckDone .. => keeps_execTagCheckDone _ _ h
  | .drainSlot .. => keeps_execDrainSlot _ _ h
  | .resume .. => keeps_execResume _ _ h
  | .dissolve .. => keeps_execDissolve _ _ h
  | .declareLost .. => keeps_execDeclareLost _ _ _ h
  | .rebuildInstallDone .. => keeps_execRebuildInstallDone _ _ h
  | .replace .. => keeps_execReplace _ _ _ _ h
  | .startRebuild .. => keeps_execStartRebuild _ _ _ h
  | .rebuildRow .. => keeps_execRebuildRow _ _ h
  | .gatherRequest .. => keeps_execGatherRequest _ _ _ _ h
  | .gatherResponse .. => keeps_execGatherResponse _ _ _ _ _ h
  | .gatherTimeout .. => keeps_execGatherTimeout _ _ _ _ h
  | .repairRecord .. => keeps_execRepairRecord _ _ _ _ h
  | .reseed .. => keeps_execReseed _ _ _ _ h
  | .arrival .. => keeps_execArrival _ _ _ _ h
  | .arrivalMissing .. => keeps_execArrivalMissing _ _ _ _ h
  | .stragWindowEnd .. => keeps_execStragWindowEnd _ _ h
  | .updPassGo .. => keeps_execUpdPassGo _ _ h
  | .passBegin .. => keeps_execPassBegin _ _ h
  | .layerBegin .. => keeps_execLayerBegin _ _ h
  | .passEnd .. => keeps_execPassEnd _ _ h
  | .sgdMom .. => keeps_execSgdMom _ _ h
  | .sgdNesterov .. => keeps_execSgdNesterov _ _ h
  | .adamw .. => keeps_execAdamw _ _ h
  | .lion .. => keeps_execLion _ _ h
  | .adagradRow .. => keeps_execAdagradRow _ _ h
  | .genOnly .. => keeps_execGenOnly _ _ h
  | .nopOp d a b c => keeps_execNopOp d a b c _ h
  | .movOp .. => keeps_execMovOp _ _ _ _ _ h
  | .addOp .. => keeps_execAddOp _ _ _ _ _ h
  | .subOp .. => keeps_execSubOp _ _ _ _ _ h
  | .mulOp .. => keeps_execMulOp _ _ _ _ _ h
  | .fmaOp .. => keeps_execFmaOp _ _ _ _ _ h
  | .fnmaOp .. => keeps_execFnmaOp _ _ _ _ _ h
  | .divOp .. => keeps_execDivOp _ _ _ _ _ h
  | .sqrtOp .. => keeps_execSqrtOp _ _ _ _ _ h
  | .maxOp .. => keeps_execMaxOp _ _ _ _ _ h
  | .minOp .. => keeps_execMinOp _ _ _ _ _ h
  | .absOp .. => keeps_execAbsOp _ _ _ _ _ h
  | .negOp .. => keeps_execNegOp _ _ _ _ _ h
  | .signOp .. => keeps_execSignOp _ _ _ _ _ h
  | .selOp .. => keeps_execSelOp _ _ _ _ _ h
  | .sqrOp .. => keeps_execSqrOp _ _ _ _ _ h
  | .progLoad .. => keeps_execProgLoad _ _ _ h
  | .updFlip .. => keeps_execUpdFlip _ _ _ h
  | .tlmRdSelWrite .. => keeps_execTlmRdSelWrite _ _ _ h
  | .tlmClear .. => keeps_execTlmClear _ _ _ h
  | .tlmClearAll .. => keeps_execTlmClearAll _ _ _ h
  | .noiseGo .. => keeps_execNoiseGo _ _ h
  | .noiseAbort .. => keeps_execNoiseAbort _ _ _ h
  | .noiseDone => keeps_execNoiseDone _ h
  | .bypassWrite .. => keeps_execBypassWrite _ _ _ _ h
  | .kwidthPinWrite .. => keeps_execKwidthPinWrite _ _ _ h
  | .rowTest .. => keeps_execRowTest _ _ h
  | .rowTestDone .. => keeps_execRowTestDone _ _ _ h
  | .idleWindow .. => keeps_execIdleWindow _ _ h
  | .streamMm .. => keeps_execStreamMm _ _ _ h
  | .gatherPool .. => keeps_execGatherPool _ _ h
  | .reduceAdd .. => keeps_execReduceAdd _ _ h
  | .chainEnd .. => keeps_execChainEnd _ _ h
  | .chainLimit .. => keeps_execChainLimit _ _ h
  | .operandLand .. => keeps_execOperandLand _ _ h
  | .qTailWrite .. => keeps_execQTailWrite _ _ _ _ h
  | .qEnable .. => keeps_execQEnable _ _ _ _ h
  | .arbGrant .. => keeps_execArbGrant _ _ _ _ _ _ h
  | .quotaWindow => keeps_execQuotaWindow _ h
  | .autonomousRefresh .. => keeps_execAutonomousRefresh _ _ _ h
  | .apply .. => keeps_execApply _ _ h
  | .orangeryCopyDone .. => keeps_execOrangeryCopyDone _ _ h
  | .tempSample .. => keeps_execTempSample _ _ h
  | .critClear .. => keeps_execCritClear _ _ h
  | .probeGo .. => keeps_execProbeGo _ _ h
  | .probeDone .. => keeps_execProbeDone _ _ h
  | .tthPeakWrite .. => keeps_execTthPeakWrite _ _ h
  | .mapPages .. => keeps_execMapPages _ _ h
  | .unmap .. => keeps_execUnmap _ _ h
  | .movePages .. => keeps_execMovePages _ _ h
  | .pageMoveDone .. => keeps_execPageMoveDone _ _ _ h
  | .reserveFrames .. => keeps_execReserveFrames _ _ h
  | .seqAdd .. => keeps_execSeqAdd _ _ h
  | .seqShare .. => keeps_execSeqShare _ _ h
  | .seqFree .. => keeps_execSeqFree _ _ h
  | .cow .. => keeps_execCow _ _ h
  | .pftLookup .. => keeps_execPftLookup _ _ h
  | .pftInsert .. => keeps_execPftInsert _ _ h
  | .pftRemove .. => keeps_execPftRemove _ _ h
  | .pinRelease .. => keeps_execPinRelease _ _ _ h
  | .agerPass => keeps_execAgerPass _ h
  | .evict => keeps_execEvict _ h
  | .zeroFill .. => keeps_execZeroFill _ _ _ h
  | .mapPagesWrite .. => keeps_execMapPagesWrite _ _ _ h
  | .pftEnable .. => keeps_execPftEnable _ _ _ h
  | .loan .. => keeps_execLoan _ _ _ _ h
  | .grant .. => keeps_execGrant _ _ _ _ h
  | .loanTimeout .. => keeps_execLoanTimeout _ _ _ h
  | .returnFrame .. => keeps_execReturnFrame _ _ _ _ h
  | .revoke .. => keeps_execRevoke _ _ _ _ h
  | .lendPagesWrite .. => keeps_execLendPagesWrite _ _ _ h
  | .lenderNodeWrite .. => keeps_execLenderNodeWrite _ _ _ h
  | .borrowerNodeWrite .. => keeps_execBorrowerNodeWrite _ _ _ h
  | .fabricEnable .. => keeps_execFabricEnable _ _ _ h
  | .fabLoad .. => keeps_execFabLoad _ _ _ h
  | .fabStore .. => keeps_execFabStore _ _ _ h
  | .atomic .. => keeps_execAtomic _ _ _ h
  | .addI32 .. => keeps_execAddI32 _ _ _ h
  | .addI64 .. => keeps_execAddI64 _ _ _ h
  | .addF32 .. => keeps_execAddF32 _ _ _ h
  | .minS32 .. => keeps_execMinS32 _ _ _ h
  | .minS64 .. => keeps_execMinS64 _ _ _ h
  | .minU32 .. => keeps_execMinU32 _ _ _ h
  | .minU64 .. => keeps_execMinU64 _ _ _ h
  | .minF32 .. => keeps_execMinF32 _ _ _ h
  | .maxS32 .. => keeps_execMaxS32 _ _ _ h
  | .maxS64 .. => keeps_execMaxS64 _ _ _ h
  | .maxU32 .. => keeps_execMaxU32 _ _ _ h
  | .maxU64 .. => keeps_execMaxU64 _ _ _ h
  | .maxF32 .. => keeps_execMaxF32 _ _ _ h
  | .cas32 .. => keeps_execCas32 _ _ _ h
  | .cas64 .. => keeps_execCas64 _ _ _ h
  | .response .. => keeps_execResponse _ _ _ h
  | .teardown .. => keeps_execTeardown _ _ _ h
  | .fabGet .. => keeps_execFabGet _ _ h
  | .fabPut .. => keeps_execFabPut _ _ h
  | .atomicDescriptor .. => keeps_execAtomicDescriptor _ _ h
  | .transactionSend .. => keeps_execTransactionSend _ _ _ h
  | .msTimeout .. => keeps_execMsTimeout _ _ _ h
  | .generationStep .. => keeps_execGenerationStep _ _ h
  | .partnerWrite .. => keeps_execPartnerWrite _ _ _ h
  | .regionEntryWrite .. => keeps_execRegionEntryWrite _ _ _ _ h
  | .blockRemove .. => keeps_execBlockRemove _ _ _ h
  | .fvcBufWrite .. => keeps_execFvcBufWrite _ _ _ h
  | .linkUp .. => keeps_execLinkUp _ _ h
  | .linkDown => keeps_execLinkDown _ h
  | .linkRetry => keeps_execLinkRetry _ h
  | .creditReturn .. => keeps_execCreditReturn _ _ _ h
  | .colInstall .. => keeps_execColInstall _ _ h
  | .colRemove .. => keeps_execColRemove _ _ h
  | .allReduce .. => keeps_execAllReduce _ _ h
  | .reduceScatter .. => keeps_execReduceScatter _ _ h
  | .allGather .. => keeps_execAllGather _ _ h
  | .broadcast .. => keeps_execBroadcast _ _ h
  | .allToAll .. => keeps_execAllToAll _ _ h
  | .colBarrier .. => keeps_execColBarrier _ _ h
  | .kvRing .. => keeps_execKvRing _ _ h
  | .colSegment .. => keeps_execColSegment _ _ _ _ h
  | .colReady .. => keeps_execColReady _ _ _ _ h
  | .barrierArrival .. => keeps_execBarrierArrival _ _ _ _ h
  | .colTimeout .. => keeps_execColTimeout _ _ h
  | .archiveArm .. => keeps_execArchiveArm _ _ _ h
  | .archiveAbort .. => keeps_execArchiveAbort _ _ h
  | .archivePoint .. => keeps_execArchivePoint _ _ h
  | .captureRecord .. => keeps_execCaptureRecord _ _ h
  | .archiveAck .. => keeps_execArchiveAck _ _ _ _ h
  | .archiveResend .. => keeps_execArchiveResend _ _ _ h
  | .restore .. => keeps_execRestore _ _ h
  | .createPart .. => keeps_execCreatePart _ _ h
  | .switchPart .. => keeps_execSwitchPart _ _ h
  | .switchDone .. => keeps_execSwitchDone _ _ _ h
  | .resetPart .. => keeps_execResetPart _ _ h
  | .drainLimit .. => keeps_execDrainLimit _ _ h
  | .resetDone .. => keeps_execResetDone _ _ h
  | .slowdownWindow => keeps_execSlowdownWindow _ h
  | .xtResponse .. => keeps_execXtResponse _ _ _ _ h
  | .eruPop .. => keeps_execEruPop _ _ h
  | .eruInject .. => keeps_execEruInject _ _ _ h
  | .fatalClear .. => keeps_execFatalClear _ _ h
  | .ctrCfgWrite .. => keeps_execCtrCfgWrite _ _ _ h
  | .preload .. => keeps_execPreload _ _ _ h
  | .snapshot .. => keeps_execSnapshot _ _ _ h
  | .freeze .. => keeps_execFreeze _ _ _ h
  | .unfreeze .. => keeps_execUnfreeze _ _ _ h
  | .snapTime => keeps_execSnapTime _ h
  | .latchedRead .. => keeps_execLatchedRead _ _ _ h
  | .restart .. => keeps_execRestart _ _ h
  | .haltCore .. => keeps_execHaltCore _ _ h
  | .wdtKick .. => keeps_execWdtKick _ _ _ h
  | .watchdogExpiry .. => keeps_execWatchdogExpiry _ _ h
  | .kioskDoorbell .. => keeps_execKioskDoorbell _ _ h
  | .kioskTake .. => keeps_execKioskTake _ _ h
  | .kioskHello .. => keeps_execKioskHello _ _ h
  | .kioskStatus .. => keeps_execKioskStatus _ _ h
  | .logRead .. => keeps_execLogRead _ _ h
  | .repairPut .. => keeps_execRepairPut _ _ h
  | .repairGet .. => keeps_execRepairGet _ _ h
  | .ageingGet .. => keeps_execAgeingGet _ _ h
  | .replan .. => keeps_execReplan _ _ _ h
  | .fwStage .. => keeps_execFwStage _ _ h
  | .fwActivate .. => keeps_execFwActivate _ _ h
  | .coreExchange .. => keeps_execCoreExchange _ _ _ h
  | .fwRevert .. => keeps_execFwRevert _ _ h
  | .replanTimer .. => keeps_execReplanTimer _ _ h
  | .replanNow .. => keeps_execReplanNow _ _ _ _ h
  | .budgetRequest .. => keeps_execBudgetRequest _ _ _ h
  | .budgetGrant .. => keeps_execBudgetGrant _ _ h
  | .governorStep .. => keeps_execGovernorStep _ _ h
  | .setEndpointId .. => keeps_execSetEndpointId _ _ h
  | .getEndpointId .. => keeps_execGetEndpointId _ _ h
  | .getEndpointUuid .. => keeps_execGetEndpointUuid _ _ h
  | .getMctpVersionSupport .. => keeps_execGetMctpVersionSupport _ _ h
  | .getMessageTypeSupport .. => keeps_execGetMessageTypeSupport _ _ h
  | .getVendorDefinedMsgSupport .. => keeps_execGetVendorDefinedMsgSupport _ _ h
  | .vendorDefinedMessage .. => keeps_execVendorDefinedMessage _ _ h
  | .openGate .. => keeps_execOpenGate _ _ _ h
  | .gateEraseDone .. => keeps_execGateEraseDone _ _ _ h
  | .wsBypass => keeps_execWsBypass _ h
  | .wsIdcode => keeps_execWsIdcode _ h
  | .wsExtest => keeps_execWsExtest _ h
  | .wsIntestScan => keeps_execWsIntestScan _ h
  | .towerAccess .. => keeps_execTowerAccess _ _ _ h
  | .coldReset => keeps_execColdReset _ h
  | .coldStart .. => keeps_execColdStart _ _ _ _ _ h
  | .warmReset => keeps_execWarmReset _ h
  | .warmStart .. => keeps_execWarmStart _ _ h
  | .startLimit => keeps_execStartLimit _ h
  | .monitorWindow .. => keeps_execMonitorWindow _ _ h
  | .pllLockLoss .. => keeps_execPllLockLoss _ _ h
  | .recal .. => keeps_execRecal _ _ _ h
  | .runMode .. => keeps_execRunMode _ _ h
  | .sleepMode .. => keeps_execSleepMode _ _ h
  | .deepSleep .. => keeps_execDeepSleep _ _ h
  | .lockPage .. => keeps_execLockPage _ _ _ h
  | .irqSet .. => keeps_execIrqSet _ _ _ _ h
  | .clrCnt .. => keeps_execClrCnt _ _ _ h
  | .cdjHwmWrite .. => keeps_execCdjHwmWrite _ _ h
  | .arbC1MaxWrite .. => keeps_execArbC1MaxWrite _ _ h
  | .registerWrite .. => keeps_execRegisterWrite _ _ _ _ h
  | .powerOn => keeps_execPowerOn _ h
  | .managementSramParityError .. => keeps_execManagementSramParityError _ _ _ h
  | .rspReady .. => keeps_execRspReady _ _ _ h
  | .kioskReply .. => keeps_execKioskReply _ _ _ h

/-- The queue of commands is no part of the canonical form. -/
theorem canon_pending {l : List Instr} (h : s.Canon) : ({ s with pending := l } : State).Canon := canon_upd h rfl rfl rfl rfl rfl rfl

/-- A step on an empty queue changes nothing; any other runs the command at the front. -/
theorem keeps_step (h : s.Canon) : Keeps (step s) := by
  unfold step
  split
  · exact keeps_next h
  · exact keeps_exec (canon_pending h) _

end

/-- Settles O53: a step runs one command, and every command keeps the canonical form. -/
theorem everyStepKeepsTheCanonicalForm : Obligations.EveryStepKeepsTheCanonicalForm := fun _ => keeps_step

/-- Settles O52: nothing is listed after reset. -/
theorem theResetStateIsCanonical : Obligations.TheResetStateIsCanonical := canon_reset

end Sys2Proof.Machine

/-! # Registers read back what was written -/

namespace Sys2Proof.Machine

open Sys2Proof

/-- Settles O56: the laws of a register word and of a field, for every register and item; a write touches the registers alone. -/
theorem registersReadWhatWasWritten : Obligations.RegistersReadWhatWasWritten :=
  ⟨fun _ off item v hs => rd_wr_same hs off item v, fun s off item off' item' v => rd_wr_other s off item v off' item',
    fun _ f item v hs => fget_fset_same hs f item v, fun _ f g item v hs => fget_fset_beside hs f g item v, fun _ _ _ _ => ⟨_, rfl⟩⟩

end Sys2Proof.Machine

/-! # Error records: what they touch, and their numbers

A record goes through counting, an event, the queue and, when it is fatal, the latch. The lemmas of `Laws/Ops` say what each of these
touches, those of `Laws/Starts` which register words each leaves alone: none but the record's own count changes its number. -/

namespace Sys2Proof.Machine

open Sys2Proof

section

variable (s : State)

/-! ### The record queue (R387) -/

/-- With room, a record goes to the end of the queue. -/
theorem enqueue_room {s : State} (x : ErrRec) (h : s.eru.queue.length < 32) : (s.enqueue x).eru.queue = s.eru.queue ++ [x] := by
  unfold State.enqueue
  rw [if_pos h]
  dsimp only
  split <;> rfl

/-- With 32 records queued, a record is counted as lost. -/
theorem enqueue_full {s : State} (x : ErrRec) (h : 32 ≤ s.eru.queue.length) :
    s.enqueue x = ((s.bump F.ERU_LOST_COUNT).set1 F.ERU_STAT_OVERFLOW).irq Page.ERU 1 := if_neg (Nat.not_lt.mpr h)

/-- The fatal latch leaves the queue as it is. -/
theorem latchFatal_queue (x : ErrRec) : (s.latchFatal x).eru.queue = s.eru.queue := by
  unfold State.latchFatal
  split <;> rfl

/-- An event leaves the error unit as it is. -/
theorem event_eru (ev n : Nat) (part : Option Nat) : (s.event ev part n).eru = s.eru := by
  obtain ⟨r, u, h⟩ := event_touches s ev part n
  rw [h]

/-! ### The number of a record (R388) -/

/-- SEQUENCE is the whole of its register. -/
theorem fget_seqNext : s.fget F.ERU_SEQ_NEXT_SEQ = s.rd R.ERU_SEQ_NEXT :=
  Nat.mod_eq_of_lt (rd_lt s R.ERU_SEQ_NEXT 0)

/-- Counting a record moves SEQUENCE on by one. -/
theorem rd_bump_seqNext {s : State} (h : s.Canon) :
    (s.bump F.ERU_SEQ_NEXT_SEQ).rd R.ERU_SEQ_NEXT = (s.rd R.ERU_SEQ_NEXT + 1) % 2 ^ 32 := by
  rw [← fget_seqNext, ← fget_seqNext]
  exact fget_fset_same h _ _ _ (by decide)

/-- No page's error count is SEQUENCE: it lies in the head of its page. -/
theorem seqNext_ne_errCnt (p : Nat) : regKey R.ERU_SEQ_NEXT 0 ≠ regKey (errCntOff p) 0 := by
  simp only [regKey, errCntOff, R.ERU_SEQ_NEXT]
  omega

/-- What becomes of a record once it is counted: the event, the queue, the latch. -/
def State.fileRecord (s : State) (e : ErrIn) (r : ErrRec) : State :=
  let s := (s.event (e.block * 256) e.part).enqueue r
  if e.sev = 2 then s.latchFatal r else s

/-- The record that an error makes. -/
def State.recordOf (s : State) (e : ErrIn) : ErrRec where
  code := e.code
  sev := e.sev
  block := e.block
  part := e.part
  addrKind := e.kind
  nested := e.nested
  injected := e.injected
  suppressed := min ((alGet s.eru.suppressed e.code).getD 0) 0xFFFF
  addr := e.addr
  hall := s.tick.hall
  tick := s.tick.now
  tickSeal := s.engineSeal
  detail := padTo 4 0 e.detail
  seq := s.rd R.ERU_SEQ_NEXT

/-- The state with a record counted, in SEQUENCE and at its page. -/
def State.countRecord (s : State) (e : ErrIn) : State :=
  let s := ({ s with eru := { s.eru with suppressed := alDel s.eru.suppressed e.code } }).bump F.ERU_SEQ_NEXT_SEQ
  s.wr (errCntOff e.block) 0 (s.rd (errCntOff e.block) + 1)

theorem logErr_eq (e : ErrIn) : s.logErr e = (s.countRecord e).fileRecord e (s.recordOf e) := rfl

@[simp] theorem countRecord_queue (e : ErrIn) : (s.countRecord e).eru.queue = s.eru.queue := by
  rw [State.countRecord, wr_eru, bump_eru]

theorem rd_seqNext_countRecord {s : State} (h : s.Canon) (e : ErrIn) :
    (s.countRecord e).rd R.ERU_SEQ_NEXT = (s.rd R.ERU_SEQ_NEXT + 1) % 2 ^ 32 := by
  have hcanon : ({ s with eru := { s.eru with suppressed := alDel s.eru.suppressed e.code } } : State).Canon :=
    canon_upd h rfl rfl rfl rfl rfl rfl
  rw [State.countRecord, rd_wr_other _ _ _ _ _ _ (seqNext_ne_errCnt e.block), rd_bump_seqNext hcanon,
    rd_congr (s := { s with eru := { s.eru with suppressed := alDel s.eru.suppressed e.code } }) (t := s) rfl]

/-- Taking a counted record in leaves SEQUENCE as it is. -/
theorem rd_seqNext_fileRecord (e : ErrIn) (x : ErrRec) : (s.fileRecord e x).rd R.ERU_SEQ_NEXT = s.rd R.ERU_SEQ_NEXT := by
  have hqueued : ((s.event (e.block * 256) e.part).enqueue x).rd R.ERU_SEQ_NEXT = s.rd R.ERU_SEQ_NEXT :=
    (rd_enqueue_other _ _ _ _ (by decide) (by decide) (by decide)).trans
      (rd_event_other _ _ _ _ _ _ (by decide) (by decide) (by decide))
  unfold State.fileRecord
  dsimp only
  split
  · exact (rd_latchFatal_other _ _ _ _ (by decide) (by decide)).trans hqueued
  · exact hqueued

/-- With room, a counted record is the last of the queue. -/
theorem fileRecord_queue {s : State} (e : ErrIn) (x : ErrRec) (h : s.eru.queue.length < 32) :
    (s.fileRecord e x).eru.queue = s.eru.queue ++ [x] := by
  have hqueued : ((s.event (e.block * 256) e.part).enqueue x).eru.queue = s.eru.queue ++ [x] := by
    rw [enqueue_room, event_eru]
    rwa [event_eru]
  unfold State.fileRecord
  dsimp only
  split
  · exact (latchFatal_queue _ _).trans hqueued
  · exact hqueued

/-- A cold reset puts SEQUENCE back to 1. -/
theorem rd_seqNext_toCold : (s.toCold coldMask).rd R.ERU_SEQ_NEXT = 1 :=
  (rd_keepRegs_zero coldMask s _ _ _ rfl (by decide)).trans (by decide)

/-- A warm reset keeps SEQUENCE (R489). -/
theorem rd_seqNext_toWarm {s : State} (h : s.Canon) : s.toWarm.rd R.ERU_SEQ_NEXT = s.rd R.ERU_SEQ_NEXT :=
  rd_keepRegs_all h (warmMask (s.locked Page.FBP)) _ _ _ rfl (if_pos (by decide))

end

/-- Settles O58: what each of the three touches, and the two outcomes of queueing a record. -/
theorem recordsAndInterruptsTouchOnlyTheirState : Obligations.RecordsAndInterruptsTouchOnlyTheirState :=
  ⟨irq_touches, fun s ev n part => event_touches s ev part n, logErr_touches, fun _ x => enqueue_room x, fun _ x => enqueue_full x⟩

/-- Settles O59: a record is counted once, in SEQUENCE too, before it is queued or lost; SEQUENCE is none of what a cold reset keeps and
one of what a warm reset keeps. -/
theorem recordsAreNumberedInSequence : Obligations.RecordsAreNumberedInSequence := by
  refine ⟨fun s => ⟨by decide, rd_seqNext_toCold s⟩, ?counted, ?carried, fun _ => rd_seqNext_toWarm⟩
  case counted =>
    intro s e hs
    rw [logErr_eq, rd_seqNext_fileRecord, rd_seqNext_countRecord hs]
  case carried =>
    intro s e hroom
    rw [← countRecord_queue s e] at hroom
    rw [logErr_eq, fileRecord_queue _ _ hroom, List.getLast?_concat]
    rfl

end Sys2Proof.Machine

/-! # Held in a cold reset

A command's guard asks for a running engine, or for a page that is up; a held engine has neither. Only a message of the ring has a
guard that lets it through: it is passed on (R458, log entry 8). -/

namespace Sys2Proof.Machine

open Sys2Proof

/-- The outcome leaves everything as it was but for messages passed on along the ring. -/
def State.OnlyRings (s : State) (o : Host.Outcome State Fault Refusal) : Prop := ∃ l, o = .next { s with ring := s.ring ++ l }

section

variable {s : State}

theorem onlyRings_same : s.OnlyRings (.next s) := ⟨[], by rw [List.append_nil]⟩

/-! ### The guards of a held engine -/

variable (h : s.run = .heldCold) {f : State → State}
include h

theorem portUp_heldCold : s.portUp = false := by simp only [State.portUp, h]

theorem not_running_of_heldCold : s.run ≠ .running := by simp only [h, ne_eq, reduceCtorEq, not_false_eq_true]

theorem onlyRings_onUp : s.OnlyRings (onUp s f) := by
  rw [onUp_off (not_running_of_heldCold h)]
  exact onlyRings_same

theorem onlyRings_onPage {p : Nat} : s.OnlyRings (onPage s p f) := by
  rw [onPage_off (not_running_of_heldCold h)]
  exact onlyRings_same

theorem onlyRings_onReg {p : Nat} : s.OnlyRings (onReg s p f) := by
  rw [onReg_off (pageUp_heldCold h)]
  exact onlyRings_same

theorem onlyRings_writeAt {path : Path} {p o : Nat} : s.OnlyRings (.next (s.writeAt path p o f)) := by
  rw [State.writeAt, portUp_heldCold h]
  exact onlyRings_same

/-- A core does not run in a reset; the port meets the guard of the register. -/
theorem onlyRings_fromPath {path : Path} {off : Nat} {g : State → Host.Outcome State Fault Refusal} (hg : s.OnlyRings (g s)) :
    s.OnlyRings (fromPath path off s g) := by
  cases path with
  | port => exact hg
  | core c =>
    rw [fromPath, if_pos (Or.inl (pageUp_heldCold h))]
    exact onlyRings_same

/-- A ring message in order is passed on. -/
theorem onlyRings_onRing {typ : Nat} {hdr : BitVec 64} {payload : List (BitVec 64)} : s.OnlyRings (onRing s typ hdr payload f) := by
  simp only [onRing, h]
  split
  · exact onlyRings_same
  · exact ⟨[⟨hdr.toNat, payload.map (·.toNat)⟩], by simp only [h]⟩

/-! ### The guards built on other guards -/

theorem onlyRings_onMover : s.OnlyRings (onMover s f) := onlyRings_onPage h

theorem onlyRings_pageQueueOp {part : Fin 8} {opcode : Nat} : s.OnlyRings (pageQueueOp part opcode s) := onlyRings_onMover h

theorem onlyRings_fabQueueOp {part : Fin 8} {opcode : Nat} : s.OnlyRings (fabQueueOp part opcode s) := onlyRings_onPage h

theorem onlyRings_onMsg {vc : Nat} {resp gate : Bool} {src : BitVec 20} {msg : List Byte} :
    s.OnlyRings (onMsg s vc resp gate src msg f) := onlyRings_onPage h

theorem onlyRings_onTxn {hdr payload : List Byte} {g : State → Txn → State} : s.OnlyRings (onTxn hdr payload s g) := onlyRings_onPage h

theorem onlyRings_inbound {typ : Nat} {op : Option Nat} {hdr payload : List Byte} : s.OnlyRings (inbound typ op hdr payload s) :=
  onlyRings_onTxn h

theorem onlyRings_onKiosk {mbox : Fin 4} {op : Nat} {g : State → List Byte → Nat → State × Nat × List Byte} :
    s.OnlyRings (onKiosk s mbox op g) := onlyRings_onReg h

theorem onlyRings_onSideband {pkts : List (List Byte)} {typ : Nat} {g : State → MctpMsg → State} :
    s.OnlyRings (onSideband s pkts typ g) := onlyRings_onReg h

theorem onlyRings_onControl {pkts : List (List Byte)} {cmd : Nat} {g : State → MctpMsg → List Byte → State × List Byte} :
    s.OnlyRings (onControl s pkts cmd g) := onlyRings_onSideband h

variable {path : Path} {off p : Nat}

theorem onlyRings_fromPath_onUp : s.OnlyRings (fromPath path off s fun t => onUp t f) := onlyRings_fromPath h (onlyRings_onUp h)

theorem onlyRings_fromPath_onReg : s.OnlyRings (fromPath path off s fun t => onReg t p f) := onlyRings_fromPath h (onlyRings_onReg h)

theorem onlyRings_fromPath_onPage : s.OnlyRings (fromPath path off s fun t => onPage t p f) := onlyRings_fromPath h (onlyRings_onPage h)

theorem onlyRings_fromPath_writeAt {o : Nat} : s.OnlyRings (fromPath path off s fun t => .next (t.writeAt path p o f)) :=
  onlyRings_fromPath h (onlyRings_writeAt h)

/-! ### The commands with a condition of their own -/

theorem onlyRings_execPlanDataAccess {wr : Option Word} : s.OnlyRings (execPlanDataAccess path wr s) := by
  unfold execPlanDataAccess
  cases wr with
  | none => exact onlyRings_onPage h
  | some w => exact onlyRings_fromPath_onPage h

/-- A CHECK of its own a held engine does not know either. -/
theorem onlyRings_execRingCheck {hdr : BitVec 64} {payload : List (BitVec 64)} : s.OnlyRings (execRingCheck hdr payload s) := by
  rw [execRingCheck, if_neg fun hc => not_running_of_heldCold h hc.1]
  exact onlyRings_onRing h

/-- The register port does not answer a read either. -/
theorem onlyRings_execLatchedRead {a : BitVec 17} : s.OnlyRings (execLatchedRead path a s) := by
  simp only [execLatchedRead, portUp_heldCold h, Bool.and_false, Bool.false_and, Bool.false_eq_true, if_false]
  exact onlyRings_same

theorem onlyRings_execWarmReset : s.OnlyRings (execWarmReset s) := by
  rw [execWarmReset, if_pos (Or.inl h)]
  exact onlyRings_same

theorem onlyRings_execWarmStart {inp : StartIn} : s.OnlyRings (execWarmStart inp s) := by
  rw [execWarmStart, if_pos (by rw [h]; decide)]
  exact onlyRings_same

theorem onlyRings_execStartLimit : s.OnlyRings (execStartLimit s) := by
  rw [execStartLimit, if_neg fun hc => by simp only [h, reduceCtorEq, or_self, false_and] at hc]
  exact onlyRings_same

theorem onlyRings_execMonitorWindow {count : BitVec 12} : s.OnlyRings (execMonitorWindow count s) := by
  simp only [execMonitorWindow, h]
  exact onlyRings_same

end

/-! ### All commands -/

/-- The commands that a held engine takes: resets, starts, power-on and the test wrapper's. -/
def heldTakes : Instr → Bool
  | .coldReset | .coldStart .. | .powerOn | .openGate .. | .wsBypass | .wsIdcode | .wsExtest | .wsIntestScan | .towerAccess .. => true
  | _ => false

/-- Every other command goes through a guard that lets nothing but a ring message through. -/
theorem onlyRings_exec {s : State} (h : s.run = .heldCold) (c : Instr) (hc : heldTakes c = false) : s.OnlyRings (exec c s) := by
  unfold exec
  cases c with
  | coldReset | coldStart | powerOn | openGate | wsBypass | wsIdcode | wsExtest | wsIntestScan | towerAccess => cases hc
  | latchedRead => exact onlyRings_execLatchedRead h
  | warmReset => exact onlyRings_execWarmReset h
  | warmStart => exact onlyRings_execWarmStart h
  | startLimit => exact onlyRings_execStartLimit h
  | monitorWindow => exact onlyRings_execMonitorWindow h
  | hallStrobe | holdover | holdoverTimeout | holdoverEnd | tickBoundary | bankEntry | refreshEntry | timeEpoch | planCheckDone
  | releaseTimeout | checkTimeout | deltaSend | ackSend | resend | ackTimeout | zeroFillDone | tagCheckDone | rebuildInstallDone
  | rebuildRow | gatherTimeout | arrivalMissing | stragWindowEnd | arbGrant | quotaWindow | autonomousRefresh | tempSample
  | linkUp | linkDown | linkRetry | creditReturn | xtResponse | snapTime | gateEraseDone | pllLockLoss | rspReady =>
    exact onlyRings_onUp h
  | watchdogExpiry | coreExchange | replanTimer | budgetGrant | managementSramParityError => exact onlyRings_onReg h
  | planSlot | feedEntry | laneEntry | updateSlot | planRetire | hostWrite | hostRead | writeAdmit | passBegin | layerBegin
  | passEnd | sgdMom | sgdNesterov | adamw | lion | adagradRow | genOnly | nopOp | movOp | addOp | subOp | mulOp | fmaOp
  | fnmaOp | divOp | sqrtOp | maxOp | minOp | absOp | negOp | signOp | selOp | sqrOp | noiseDone | rowTestDone | idleWindow
  | streamMm | gatherPool | reduceAdd | chainEnd | chainLimit | operandLand | orangeryCopyDone | probeDone | pinRelease
  | loanTimeout | transactionSend | msTimeout | generationStep | allReduce | reduceScatter | allGather | broadcast | allToAll
  | colBarrier | kvRing | colTimeout | archivePoint | captureRecord | archiveResend | restore | switchDone | drainLimit
  | resetDone | slowdownWindow | governorStep => exact onlyRings_onPage h
  | pageMoveDone | agerPass | evict | zeroFill => exact onlyRings_onMover h
  | mapPages | unmap | movePages | reserveFrames | seqAdd | seqShare | seqFree | cow | pftLookup | pftInsert | pftRemove =>
    exact onlyRings_pageQueueOp h
  | fabGet | fabPut | atomicDescriptor => exact onlyRings_fabQueueOp h
  | deltaRecord | ack | nak | memberSeal | groupSeal | gatherRequest | gatherResponse | repairRecord | reseed | arrival | loan
  | grant | returnFrame | revoke | colSegment | colReady | barrierArrival | archiveAck => exact onlyRings_onMsg h
  | response | teardown | kioskReply => exact onlyRings_onTxn h
  | fabLoad | fabStore | atomic | addI32 | addI64 | addF32 | minS32 | minS64 | minU32 | minU64 | minF32 | maxS32 | maxS64
  | maxU32 | maxU64 | maxF32 | cas32 | cas64 => exact onlyRings_inbound h
  | ringRelease | ringSeal | ringArrival | ringCounter | ringRelay => exact onlyRings_onRing h
  | kioskHello | kioskStatus | logRead | repairPut | repairGet | ageingGet | replan | fwStage | fwActivate | fwRevert =>
    exact onlyRings_onKiosk h
  | vendorDefinedMessage => exact onlyRings_onSideband h
  | setEndpointId | getEndpointId | getEndpointUuid | getMctpVersionSupport | getMessageTypeSupport | getVendorDefinedMsgSupport =>
    exact onlyRings_onControl h
  | lockPage | irqSet | clrCnt | registerWrite => exact onlyRings_fromPath_writeAt h
  | snapshot | freeze | unfreeze => exact onlyRings_fromPath_onUp h
  | eruPop | eruInject | fatalClear | ctrCfgWrite | preload | restart | haltCore | wdtKick | kioskDoorbell | kioskTake
  | replanNow | budgetRequest | recal | runMode | sleepMode | deepSleep => exact onlyRings_fromPath_onReg h
  | timeCommit | planCommit | planCancel | barrierArm | installGroup | drainSlot | resume | dissolve | declareLost | replace
  | startRebuild | updPassGo | progLoad | updFlip | tlmRdSelWrite | tlmClear | tlmClearAll | noiseGo | noiseAbort | bypassWrite
  | kwidthPinWrite | rowTest | qTailWrite | qEnable | apply | critClear | probeGo | tthPeakWrite | mapPagesWrite | pftEnable
  | lendPagesWrite | lenderNodeWrite | borrowerNodeWrite | fabricEnable | partnerWrite | regionEntryWrite | blockRemove
  | fvcBufWrite | colInstall | colRemove | archiveArm | archiveAbort | createPart | switchPart | resetPart | cdjHwmWrite
  | arbC1MaxWrite => exact onlyRings_fromPath_onPage h
  | planDataAccess => exact onlyRings_execPlanDataAccess h
  | ringCheck => exact onlyRings_execRingCheck h

/-- Settles O55: a command is one of those that a held engine takes, or does no more than pass a ring message on. -/
theorem aHeldEngineTakesOnlyStarts : Obligations.AHeldEngineTakesOnlyStarts := by
  intro c s h
  have hrest : heldTakes c = false → s.OnlyRings (exec c s) := onlyRings_exec h c
  unfold heldTakes at hrest
  split at hrest
  · exact .inl rfl
  · exact .inr (.inl ⟨_, _, _, _, rfl⟩)
  · exact .inr (.inr (.inl rfl))
  · exact .inr (.inr (.inr (.inl ⟨_, _, rfl⟩)))
  · exact .inr (.inr (.inr (.inr (.inl rfl))))
  · exact .inr (.inr (.inr (.inr (.inr (.inl rfl)))))
  · exact .inr (.inr (.inr (.inr (.inr (.inr (.inl rfl))))))
  · exact .inr (.inr (.inr (.inr (.inr (.inr (.inr (.inl rfl)))))))
  · exact .inr (.inr (.inr (.inr (.inr (.inr (.inr (.inr (.inl ⟨_, _, rfl⟩))))))))
  · exact .inr (.inr (.inr (.inr (.inr (.inr (.inr (.inr (.inr (hrest rfl)))))))))

end Sys2Proof.Machine

/-! # Writes of the registers of the pages -/

namespace Sys2Proof.Machine

open Sys2Proof

section

variable {s : State} {path : Path}

/-- A write at 0x100 of a page or above goes to the page's own register. -/
theorem execRegisterWrite_plain {off : BitVec 17} {value : Word} {a : Nat} (ha : a = off.toNat / 4 * 4) (hmay : s.pathMay path a = true)
    (htakes : s.takesWrite (a / 0x1000) (a % 0x1000) = true) (hown : 0x100 ≤ a % 0x1000) :
    execRegisterWrite path off value s = .next ((s.plainWrite path a value.toNat).portEnds path (a / 0x1000)) := by
  subst ha
  rw [execRegisterWrite, fromPath_may hmay, writeAt_takes htakes, if_neg (Nat.not_lt.mpr hown)]

variable {off v item : Nat}

/-- A register with no rule of its own takes the word under its access codes, within its ranges, and what depends on it follows. -/
theorem plainWrite_ordinary (hitem : item = s.regItem path off) (hown : ownRegs.contains off = false)
    (hstage : s.stageTime off v = none) (hlock : s.locked (off / 0x1000) = false) (hdrop : s.dropsWrite path off item v = false)
    (hslot : slotConfig.contains off = false) (hmap : off ≠ R.PGM_MAP_BASE) (herr : off ≠ R.ERU_STAT) :
    s.plainWrite path off v = ((s.accWrite off item v).clampFields off item).afterWrite off item := by
  subst hitem
  have hnode : off ≠ R.CDE_MEMB_NODE := by
    rintro rfl
    exact absurd hslot (by decide)
  simp only [State.plainWrite, hown, hstage, hlock, hdrop, hslot, hnode, hmap, herr, Bool.false_and, Bool.false_eq_true, false_and,
    if_false]

/-- A locked word is left whole, and `STAT.LOCK_DROP` tells (R501). -/
theorem accWrite_locked (hlockable : (regDefAt off).any RegDef.lockable = true) (hlock : s.locked (off / 0x1000) = true) :
    s.accWrite off item v = s.wr (off / 0x1000 * 0x1000 + 0x00C) 0 (setBit (s.rd (off / 0x1000 * 0x1000 + 0x00C)) 3 true) := by
  unfold State.accWrite
  cases hd : regDefAt off with
  | none =>
    rw [hd] at hlockable
    cases hlockable
  | some d =>
    rw [hd, Option.any_some] at hlockable
    simp only [hlockable, hlock, Bool.and_self, if_true]

/-- On a page that is not locked each field takes its part of the word (R500). -/
theorem accWrite_unlocked {d : RegDef} (hd : regDefAt off = some d) (hlock : s.locked (off / 0x1000) = false) :
    s.accWrite off item v = s.wr off item (d.flds.foldl (fun w f => f.write w v) (s.rd off item)) := by
  simp only [State.accWrite, hd, hlock, Bool.and_false, Bool.false_eq_true, if_false]

/-- A core that does not run writes nothing. -/
theorem fromPath_halted {c : Fin 4} {f : State → Host.Outcome State Fault Refusal} (h : s.fget F.MGC_CORE_STAT_STATE c ≠ 1) :
    fromPath (.core c) off s f = .next s := if_pos (Or.inr h)

end

/-- Settles O47: a write reaches its register as the guards of its path and page allow, and takes effect under the access codes. -/
theorem registerWritesOfThePages : Obligations.RegisterWritesOfThePages :=
  ⟨fun _ _ _ _ _ => execRegisterWrite_plain, fun _ _ _ _ _ => plainWrite_ordinary, fun _ _ _ _ => accWrite_locked,
    fun _ _ _ _ _ => accWrite_unlocked, fun _ _ _ _ => fromPath_foreign, fun _ _ _ _ => fromPath_halted⟩

end Sys2Proof.Machine

/-! # The management cores, their firmware and the Kiosk window -/

namespace Sys2Proof.Machine

open Sys2Proof

section

variable {s : State} {path : Path} {c : Nat}

/-! ### Restarting and halting a core (R414, R422) -/

/-- A core whose segment fails the check of its start stays halted. -/
theorem startCore_refused (h : s.segMayStart c = false) :
    s.startCore c = (s.fset F.MGC_CORE_STAT_STATE c 0).logErr { block := Page.MGC, code := 0x0903, sev := 1 } := by
  rw [State.startCore, h, if_neg Bool.false_ne_true]

/-- A restart forgets the core's past restarts and starts it. -/
theorem execRestart_starts (hmay : s.pathMay path R.MGC_CORE_CTRL = true) (hup : s.pageUp Page.MGC = true)
    (hc : c = s.sel path F.MGC_CORE_SEL_CORE) (hgate : s.fget F.TSG_STAT_STATE = 0) (hport : s.coreState c ≠ 0 ∨ path = .port) :
    execRestart path s = .next
      ((({ s with mgmt := { s.mgmt with restarts := s.mgmt.restarts.set c [] } } : State).restartCore c).coreEvent c 0) := by
  subst hc
  have hallowed : ¬ (s.fget F.TSG_STAT_STATE ≠ 0 ∨
      ((s.coreState (s.sel path F.MGC_CORE_SEL_CORE) == 0) = true ∧ path ≠ .port)) := by
    rintro (hopen | ⟨hhalted, hcore⟩)
    · exact hopen hgate
    · exact hport.elim (absurd (eq_of_beq hhalted)) hcore
  rw [execRestart, fromPath_may hmay, onReg_up hup]
  exact congrArg _ (if_neg hallowed)

/-- A halt of a core that runs halts it and tells it. -/
theorem execHaltCore_halts (hmay : s.pathMay path R.MGC_CORE_CTRL = true) (hup : s.pageUp Page.MGC = true)
    (hc : c = s.sel path F.MGC_CORE_SEL_CORE) (hruns : s.coreState c ≠ 0) :
    execHaltCore path s = .next ((s.haltCore c).coreEvent c 1) := by
  subst hc
  rw [execHaltCore, fromPath_may hmay, onReg_up hup]
  exact congrArg _ (if_neg hruns)

/-! ### The watchdogs (R411, R421, R422) -/

/-- A core kicks its own watchdog. -/
theorem execWdtKick_own {core : Fin 4} {value : BitVec 2} (hmay : s.pathMay (.core core) R.MGC_WDT_KICK = true)
    (hup : s.pageUp Page.MGC = true) (hown : value.toNat = core.val) : execWdtKick (.core core) value s = .next (s.kick core) := by
  rw [execWdtKick, fromPath_may hmay, onReg_up hup]
  exact congrArg _ (if_pos hown)

/-- The first kick after a start sets ALIVE, and with no exchange to end does no more. -/
theorem kick_first (hfirst : s.flag F.MGC_CORE_STAT_ALIVE c = false) (hswap : s.mgmt.swap = none) :
    s.kick c = s.set1 F.MGC_CORE_STAT_ALIVE c := by
  have hswap' : (s.set1 F.MGC_CORE_STAT_ALIVE c).mgmt.swap = none := hswap
  simp only [State.kick, hfirst, hswap', Bool.false_eq_true, if_false]

theorem execWatchdogExpiry_runs {core : Fin 4} (hup : s.pageUp Page.MGC = true) (hruns : s.coreState core = 1)
    (hen : s.flag F.MGC_WDT_CFG_EN core = true) : execWatchdogExpiry core s = .next (s.watchdog core) := by
  rw [execWatchdogExpiry, onReg_up hup, if_pos ⟨hruns, hen⟩]

/-- A byte that a running core reads with bad parity keeps it, and the core is treated as by its watchdog. -/
theorem execManagementSramParityError_runs {core : Fin 4} {addr : BitVec 19} (hup : s.pageUp Page.MGC = true)
    (hruns : s.coreState core = 1) :
    execManagementSramParityError core addr s = .next (({ s with mgmt := { s.mgmt with
      sram := s.mgmt.sram.putBad addr.toNat (s.mgmt.sram.byte addr.toNat) } } : State).watchdog core) := by
  rw [execManagementSramParityError, onReg_up hup, if_neg (not_not_intro hruns)]

section

variable {past : List Nat} (hswap : s.mgmt.swap = none)
  (hpast : past = ((s.mgmt.restarts[c]?).getD []).filter fun t => decide (s.tick.hall ≤ t + 60000000000))
include hswap hpast

/-- Up to two restarts within a minute, a watchdog restarts its core. -/
theorem watchdog_restarts (hfew : past.length < 2) : s.watchdog c =
    ((((({ s with mgmt := { s.mgmt with restarts := s.mgmt.restarts.set c (s.tick.hall :: past) } } : State).bumpSat
      F.MGC_CORE_STAT_RESTARTS c).logErr { block := Page.MGC, code := 0x0901, sev := 0 }).restartCore c).coreEvent c 0) := by
  subst hpast
  simp only [State.watchdog, hswap, Bool.false_eq_true, if_false, if_neg (Nat.not_le.mpr hfew)]

/-- After two, it halts its core. -/
theorem watchdog_halts (hmany : 2 ≤ past.length) : s.watchdog c =
    (((({ s with mgmt := { s.mgmt with restarts := s.mgmt.restarts.set c [] } } : State).haltCore c).logErr
      { block := Page.MGC, code := 0x0902, sev := 1 }).coreEvent c 1) := by
  subst hpast
  simp only [State.watchdog, hswap, Bool.false_eq_true, if_false, if_pos hmany]

end

/-! ### The Kiosk window (R415, R417, R420) -/

theorem execKioskDoorbell_rings (hmay : s.pathMay path R.MGC_KSK_DOORBELL = true) (hup : s.pageUp Page.MGC = true) :
    execKioskDoorbell path s = .next (s.kskIn (s.sel path F.MGC_KSK_SEL_MBOX) .window s.kskWindow) := by
  rw [execKioskDoorbell, fromPath_may hmay, onReg_up hup]

/-- A message in order that fits waits behind the mailbox's requests. -/
theorem kskIn_queued {b : Nat} {src : KskSrc} {m : List Byte} (hok : kskOk m = true)
    (hfits : ringBytes ((s.box b).req.map (·.msg)) + m.length ≤ kskRing) :
    s.kskIn b src m = s.setBox b { s.box b with req := (s.box b).req ++ [⟨src, m⟩] } := by
  simp only [State.kskIn, if_neg (Nat.not_lt.mpr hfits), hok, Bool.not_true, Bool.false_eq_true, if_false]

/-- With nothing waiting in shared SRAM, a take frees the reply at the front and does no more. -/
theorem execKioskTake_frees {b : Nat} (hmay : s.pathMay path R.MGC_KSK_TAKE = true) (hup : s.pageUp Page.MGC = true)
    (hb : b = s.sel path F.MGC_KSK_SEL_MBOX) (hspill : (s.box b).spill = []) :
    execKioskTake path s = .next (s.setBox b { s.box b with rep := (s.box b).rep.drop 1 }) := by
  subst hb
  rw [execKioskTake, fromPath_may hmay, onReg_up hup]
  simp only [hspill, List.length_nil, Mbox.refill, List.take_nil, List.foldl_nil]

/-! ### Firmware (R423, R424) -/

/-- The exchange of an activation that waits goes on. -/
theorem execCoreExchange_waiting {ver : BitVec 16} {area : List Byte} (hup : s.pageUp Page.MGC = true) (hact : s.mgmt.act = some c) :
    execCoreExchange ver area s = .next (s.activated c ver.toNat area) := by
  simp only [execCoreExchange, onReg_up hup, hact]

variable {major : Nat} {bs : List Byte}

theorem activate_refused (h : s.activateRefused c major = true) : s.activate c major = (s, 5) := if_pos h

theorem activate_accepted (h : s.activateRefused c major = false) :
    s.activate c major = (({ s with mgmt := { s.mgmt with act := some c } } : State).set1 F.MGC_STAT_ACTIVATING, 7) :=
  if_neg (ne_true_of_eq_false h)

theorem activateRefused_unstaged (h : s.flag F.MGC_STAT_STAGED = false) : s.activateRefused c major = true := by
  simp only [State.activateRefused, h, beq_self_eq_true, Bool.true_or]

/-- A revert goes back to the segment exchanged last. -/
theorem fwRevert_back {x : Swap} (hact : s.mgmt.act = none) (hswap : s.mgmt.swap = some x) (hc : x.core = c) :
    s.fwRevert c = (s.revertCore c, 0) := by
  simp only [State.fwRevert, hact, hswap, hc, Option.isSome_none, Bool.false_eq_true, if_false, if_true]

theorem fwRevert_nothing (hact : s.mgmt.act = none) (hswap : s.mgmt.swap = none) : s.fwRevert c = (s, 5) := by
  simp only [State.fwRevert, hact, hswap, Option.isSome_none, Bool.false_eq_true, if_false]

theorem fwRevert_activating (hact : s.mgmt.act.isSome = true) : s.fwRevert c = (s, 4) := if_pos hact

theorem stage_activating (h : s.mgmt.act.isSome = true ∨ s.flag F.MGC_STAT_ACTIVATING = true) : s.stage bs = (s, 4) := if_pos h

/-- A segment of a length out of range is not staged. -/
theorem stage_badLength (hact : s.mgmt.act = none) (hidle : s.flag F.MGC_STAT_ACTIVATING = false)
    (hlen : bs.length < 64 ∨ 65536 < bs.length) : s.stage bs = (s, 3) := by
  simp only [State.stage, hact, hidle, hlen, Option.isSome_none, Bool.false_eq_true, or_self, if_false, if_true]

end

/-- Settles O38: each command does what its rule says once its guards have let it through. -/
theorem coresRestartHaltAndAreWatched : Obligations.CoresRestartHaltAndAreWatched :=
  ⟨fun _ _ _ => execRestart_starts, fun _ _ => startCore_refused, fun _ _ _ => execHaltCore_halts, fun _ _ _ => execWdtKick_own,
    fun _ _ => kick_first, fun _ _ => execWatchdogExpiry_runs, fun _ _ _ => execManagementSramParityError_runs,
    fun _ _ _ => watchdog_restarts, fun _ _ _ => watchdog_halts, fun _ _ => execKioskDoorbell_rings, fun _ _ _ _ => kskIn_queued,
    fun _ _ _ => execKioskTake_frees, fun _ _ _ _ => execCoreExchange_waiting⟩

/-- Settles O41: the branches of staging, activating and reverting. -/
theorem firmwareStagesActivatesAndReverts : Obligations.FirmwareStagesActivatesAndReverts :=
  ⟨fun _ _ _ => activate_refused, fun _ _ _ => activate_accepted, fun _ _ _ => activateRefused_unstaged, fun _ _ _ => fwRevert_back,
    fun _ _ => fwRevert_nothing, fun _ _ => fwRevert_activating, fun _ _ => stage_activating, fun _ _ => stage_badLength⟩

end Sys2Proof.Machine

/-! # Answers and messages at the ports: the sideband, the host, other nodes -/

namespace Sys2Proof.Machine

open Sys2Proof

section

variable {s : State}

/-! ### Sideband control requests (R430, log entry 43) -/

/-- The manager takes a control request of a command code: it joins whole, its core 0 runs and its Kiosk is up; `d` is the request's
data. -/
structure State.Asked (s : State) (pkts : List (List Byte)) (cmd : Nat) (m : MctpMsg) (d : List Byte) : Prop where
  page : s.pageUp Page.MGC = true
  manager : s.isMgr = true
  firmware : s.fwRuns = true
  kiosk : s.kskState ≠ 0
  joined : mctpJoin (s.fget F.MGC_MCTP_EID_EID) pkts = some m
  control : fieldLE m.body 0 1 = 0
  length : 3 ≤ m.body.length
  request : bit (fieldLE m.body 1 1) 7 = true
  command : fieldLE m.body 2 1 = cmd
  data : d = m.body.drop 3

/-- A control response: its header with the number of the request, then `out`. -/
def controlBody (m : MctpMsg) (cmd : Nat) (out : List Byte) : List Byte :=
  leBytes 1 0 ++ leBytes 1 (fieldLE m.body 1 1 % 32) ++ leBytes 1 cmd ++ out

variable {pkts : List (List Byte)} {cmd : Nat} {m : MctpMsg} {d : List Byte}

/-- What holds of a request that the manager takes follows from the conditions one by one. -/
theorem of_asked {P : Prop} (h : s.Asked pkts cmd m d → P) (page : s.pageUp Page.MGC = true) (manager : s.isMgr = true)
    (firmware : s.fwRuns = true) (kiosk : s.kskState ≠ 0) (joined : mctpJoin (s.fget F.MGC_MCTP_EID_EID) pkts = some m)
    (control : fieldLE m.body 0 1 = 0) (length : 3 ≤ m.body.length) (request : bit (fieldLE m.body 1 1) 7 = true)
    (command : fieldLE m.body 2 1 = cmd) (data : d = m.body.drop 3) : P :=
  h ⟨page, manager, firmware, kiosk, joined, control, length, request, command, data⟩

/-- A control request is answered with what its command gives. -/
theorem onControl_asked {f : State → MctpMsg → List Byte → State × List Byte} (h : s.Asked pkts cmd m d) {t : State} {out : List Byte}
    (hf : f s m d = (t, out)) : onControl s pkts cmd f = .next (t.sbSend m.src m.tag false (controlBody m cmd out)) := by
  rw [onControl_answers h.page h.manager h.firmware h.kiosk h.joined h.control h.length h.request h.command, ← h.data, hf]
  rfl

/-- An endpoint id is set by the operations that may set one, to one that is neither null nor broadcast. -/
theorem execSetEndpointId_sets (h : s.Asked pkts 1 m d) (hlen : d.length = 2) (hop : fieldLE d 0 1 % 4 < 2) (hnull : fieldLE d 1 1 ≠ 0)
    (hall : fieldLE d 1 1 ≠ 0xFF) :
    execSetEndpointId pkts s = .next
      ((({ s with mgmt := { s.mgmt with tray := m.src } } : State).fset F.MGC_MCTP_EID_EID 0 (fieldLE d 1 1)).sbSend m.src m.tag false
        (controlBody m 1 (leBytes 2 0 ++ leBytes 1 (fieldLE d 1 1) ++ leBytes 1 0))) :=
  onControl_asked h (by simp only [hlen, ne_eq, not_true_eq_false, if_false, Nat.not_le.mpr hop, hnull, hall, or_self])

/-- Setting an endpoint id with data of another length is answered with completion code 3. -/
theorem execSetEndpointId_badLength (h : s.Asked pkts 1 m d) (hlen : d.length ≠ 2) :
    execSetEndpointId pkts s = .next (s.sbSend m.src m.tag false (controlBody m 1 (leBytes 1 3))) :=
  onControl_asked h (if_pos hlen)

theorem execGetEndpointId_answers (h : s.Asked pkts 2 m d) :
    execGetEndpointId pkts s = .next (s.sbSend m.src m.tag false
      (controlBody m 2 (leBytes 1 0 ++ leBytes 1 (s.fget F.MGC_MCTP_EID_EID) ++ leBytes 2 0))) :=
  onControl_asked h rfl

theorem execGetEndpointUuid_answers (h : s.Asked pkts 3 m d) :
    execGetEndpointUuid pkts s = .next (s.sbSend m.src m.tag false
      (controlBody m 3 (leBytes 1 0 ++ (List.range 16).map Config.endpointUuid))) :=
  onControl_asked h rfl

/-- The version of the base, of control messages and of the vendor's type is given. -/
theorem execGetMctpVersionSupport_answers (h : s.Asked pkts 4 m d) (hlen : d.length = 1)
    (htype : [0xFF, 0x00, 0x7F].contains (fieldLE d 0 1) = true) :
    execGetMctpVersionSupport pkts s = .next (s.sbSend m.src m.tag false
      (controlBody m 4 (leBytes 1 0 ++ leBytes 1 1 ++ beBytes4 0xF1F3FF00))) :=
  onControl_asked h (by simp only [hlen, htype, ne_eq, not_true_eq_false, if_false, if_true])

theorem execGetMessageTypeSupport_answers (h : s.Asked pkts 5 m d) :
    execGetMessageTypeSupport pkts s = .next (s.sbSend m.src m.tag false
      (controlBody m 5 (leBytes 1 0 ++ leBytes 1 1 ++ leBytes 1 0x7F))) :=
  onControl_asked h rfl

/-- The first vendor of the set is the only one. -/
theorem execGetVendorDefinedMsgSupport_answers (h : s.Asked pkts 6 m d) (hlen : d.length = 1) (hset : fieldLE d 0 1 = 0) :
    execGetVendorDefinedMsgSupport pkts s = .next (s.sbSend m.src m.tag false
      (controlBody m 6 (leBytes 1 0 ++ leBytes 1 0xFF ++ leBytes 1 1 ++ beBytes4 (s.rd R.MGC_MCTP_IANA) ++ leBytes 2 0))) :=
  onControl_asked h (by simp only [hlen, hset, ne_eq, not_true_eq_false, if_false])

/-! ### Vendor-defined messages (R431, log entry 81) -/

/-- A vendor-defined message of this vendor goes on to the Kiosk it names. -/
theorem execVendorDefinedMessage_goesOn (hup : s.pageUp Page.MGC = true) (hmgr : s.isMgr = true) (hfw : s.fwRuns = true)
    (hksk : s.kskState ≠ 0) (hjoin : mctpJoin (s.fget F.MGC_MCTP_EID_EID) pkts = some m) (htype : fieldLE m.body 0 1 = 0x7F)
    (heid : s.fget F.MGC_MCTP_EID_EID ≠ 0) (hiana : fieldLE ((m.body.drop 1).take 4).reverse 0 4 = s.rd R.MGC_MCTP_IANA)
    (hlen : 6 ≤ m.body.length) :
    execVendorDefinedMessage pkts s = .next (s.vendorIn m.src m.tag (fieldLE m.body 5 1) (m.body.drop 6)) := by
  rw [execVendorDefinedMessage, onSideband_takes hup hmgr hfw hksk hjoin htype]
  simp only [heid, hiana, Nat.not_lt.mpr hlen, ne_eq, not_true_eq_false, or_self, if_false]

variable {src tag inst : Nat} {k : List Byte}

theorem vendorIn_own (h : inst = s.ownInst) : s.vendorIn src tag inst k = s.kskIn 1 (.sideband src tag) k := if_pos h

theorem vendorIn_present (hother : inst ≠ s.ownInst) (hpresent : (s.tick.checks.any fun c => c.1 == inst) = true) :
    s.vendorIn src tag inst k = (s.forward src tag inst k).relaySend inst 1 k := by
  rw [State.vendorIn, if_neg hother, if_pos hpresent]

theorem vendorIn_absent (hother : inst ≠ s.ownInst) (habsent : (s.tick.checks.any fun c => c.1 == inst) = false)
    (hok : kskOk k = true) :
    s.vendorIn src tag inst k =
      s.sbKiosk src tag false inst (kskMsg (kskMajor k) (kskOp k) (kskSeq k) 1 (leBytes 4 6)) := by
  simp only [State.vendorIn, if_neg hother, habsent, hok, Bool.not_true, Bool.false_eq_true, if_false]

end

/-- Settles O42: a control request that the manager takes is answered as its command gives; a vendor-defined message goes where the
engine it names is. -/
theorem sidebandRequestsAreAnswered : Obligations.SidebandRequestsAreAnswered :=
  ⟨fun _ _ _ _ => of_asked execSetEndpointId_sets, fun _ _ _ _ => of_asked execSetEndpointId_badLength,
    fun _ _ _ _ => of_asked execGetEndpointId_answers, fun _ _ _ _ => of_asked execGetEndpointUuid_answers,
    fun _ _ _ _ => of_asked execGetMctpVersionSupport_answers, fun _ _ _ _ => of_asked execGetMessageTypeSupport_answers,
    fun _ _ _ _ => of_asked execGetVendorDefinedMsgSupport_answers, fun _ _ _ => execVendorDefinedMessage_goesOn,
    fun _ _ _ _ _ => vendorIn_own, fun _ _ _ _ _ => vendorIn_present, fun _ _ _ _ _ => vendorIn_absent⟩

end Sys2Proof.Machine

/-! # Beats that the host takes, and Kiosk messages of other nodes -/

namespace Sys2Proof.Machine

open Sys2Proof

section

variable {s : State}

/-! ### A beat taken from a response channel (R446) -/

/-- A channel that holds a response gives a beat, its latency noted when it is given. -/
theorem execRspReady_gives {ch : Fin 4} {lat : Option Nat} (hrun : s.run = .running)
    (hany : (s.host.rsp.any fun r => r.ch == ch.val) = true) :
    execRspReady ch lat s = .next ((lat.elim s s.c1Latency).takeBeat ch.val) := by
  rw [execRspReady, onUp_running hrun, if_pos hany]
  cases lat <;> rfl

variable {ch i : Nat} {r : HostRsp} {b : HostBeat} (hfind : s.host.rsp.findIdx? (fun r => r.ch == ch) = some i)
  (hrsp : s.host.rsp[i]? = some r)
include hfind hrsp

/-- With its last beat a response goes, and its tag is free. -/
theorem takeBeat_last (hbeats : r.beats = [b]) :
    s.takeBeat ch = { s.active 2 1 with host := ⟨s.host.rsp.eraseIdx i, s.host.busy.erase (ch * 4096 + r.tag)⟩ } := by
  simp only [State.takeBeat, hfind, hrsp, hbeats, active_host]

/-- Any other beat leaves those behind it. -/
theorem takeBeat_more {a : HostBeat} {l : List HostBeat} (hbeats : r.beats = a :: b :: l) :
    s.takeBeat ch = { s.active 2 1 with host :=
      { s.host with rsp := modifyAt (fun _ => { r with beats := b :: l }) i s.host.rsp } } := by
  simp only [State.takeBeat, hfind, hrsp, hbeats, active_host]

end

section

/-! ### Kiosk messages over the fabric (R415, R425, log entry 41) -/

/-- A Kiosk message arrives from another node: its header is good and within its credits, `m` is the message within the payload. -/
structure State.Told (s : State) (hdr payload : List Byte) (t : Txn) (s1 : State) (m : List Byte) : Prop where
  up : s.Up Page.FBP
  txn : t = Txn.ofHeader hdr payload
  credits : s.rxCredits t.vc t.resp ≠ 0
  received : s1 = s.received t.vc t.resp (hdr ++ payload)
  length : hdr.length = 32
  crc : crcOk hdr 28 = true
  typ : t.typ = 5
  dst : t.dst = s1.fget F.FBP_NODE_NODE
  dstMax : t.dst ≤ 262143
  srcMax : t.src ≤ 262143
  channel : t.vc = 0
  message : m = t.payload.take (16 + fieldLE t.payload 8 2)

variable {s s1 : State} {hdr payload m : List Byte} {t : Txn}

/-- What holds of a Kiosk message that arrives follows from the conditions one by one. -/
theorem of_told {P : Prop} (h : s.Told hdr payload t s1 m → P) (up : s.Up Page.FBP) (txn : t = Txn.ofHeader hdr payload)
    (credits : s.rxCredits t.vc t.resp ≠ 0) (received : s1 = s.received t.vc t.resp (hdr ++ payload)) (length : hdr.length = 32)
    (crc : crcOk hdr 28 = true) (typ : t.typ = 5) (dst : t.dst = s1.fget F.FBP_NODE_NODE) (dstMax : t.dst ≤ 262143)
    (srcMax : t.src ≤ 262143) (channel : t.vc = 0) (message : m = t.payload.take (16 + fieldLE t.payload 8 2)) : P :=
  h ⟨up, txn, credits, received, length, crc, typ, dst, dstMax, srcMax, channel, message⟩

/-- What a Kiosk message does, by its class: a request goes to mailbox 2, a reply in order may tell its node's majors. -/
def State.kskFrom (s : State) (t : Txn) (m : List Byte) : State :=
  if !t.resp then s.kskIn 2 (.fabric t.src) m
  else if !kskOk m then s.kskBad
  else if kskOp m == 1 && fieldLE m 16 4 == 0 && s.fwRuns then
    { s with mgmt := { s.mgmt with peers := alPut s.mgmt.peers t.src (fieldLE m 20 1, fieldLE m 21 1) } }
  else s

theorem execKioskReply_told (h : s.Told hdr payload t s1 m) : execKioskReply hdr payload s = .next (s1.kskFrom t m) := by
  have hgood : ¬ (t.typ ≠ 5 ∨ t.vc ≠ 0) := not_or.mpr ⟨not_not_intro h.typ, not_not_intro h.channel⟩
  have hmin : 1 ≤ t.typ := by rw [h.typ]; decide
  have hmax : t.typ ≤ 6 := by rw [h.typ]; decide
  rw [execKioskReply, onTxn_good h.up.1 h.up.2 h.txn h.credits h.received h.length h.crc hmin hmax h.dst h.dstMax h.srcMax, if_neg hgood,
    ← h.message]
  rfl

/-- A reply to HELLO tells its node's majors. -/
theorem execKioskReply_majors (h : s.Told hdr payload t s1 m) (hresp : t.resp = true) (hok : kskOk m = true) (hop : kskOp m = 1)
    (hstatus : fieldLE m 16 4 = 0) (hfw : s1.fwRuns = true) : execKioskReply hdr payload s = .next
      { s1 with mgmt := { s1.mgmt with peers := alPut s1.mgmt.peers t.src (fieldLE m 20 1, fieldLE m 21 1) } } := by
  rw [execKioskReply_told h]
  simp only [State.kskFrom, hresp, hok, hop, hstatus, hfw, Bool.not_true, Bool.false_eq_true, beq_self_eq_true, Bool.and_self,
    if_false, if_true]

/-- Any other reply leaves nothing. -/
theorem execKioskReply_other (h : s.Told hdr payload t s1 m) (hresp : t.resp = true) (hok : kskOk m = true)
    (hother : kskOp m ≠ 1 ∨ fieldLE m 16 4 ≠ 0 ∨ s1.fwRuns = false) : execKioskReply hdr payload s = .next s1 := by
  have hno : (kskOp m == 1 && fieldLE m 16 4 == 0 && s1.fwRuns) = false := by
    rcases hother with hop | hstatus | hfw
    · rw [beq_false_of_ne hop, Bool.false_and, Bool.false_and]
    · rw [beq_false_of_ne hstatus, Bool.and_false, Bool.false_and]
    · rw [hfw, Bool.and_false]
  rw [execKioskReply_told h]
  simp only [State.kskFrom, hresp, hok, hno, Bool.not_true, Bool.false_eq_true, if_false]

/-- A reply that is not in order is counted. -/
theorem execKioskReply_bad (h : s.Told hdr payload t s1 m) (hresp : t.resp = true) (hbad : kskOk m = false) :
    execKioskReply hdr payload s = .next s1.kskBad := by
  rw [execKioskReply_told h]
  simp only [State.kskFrom, hresp, hbad, Bool.not_true, Bool.not_false, Bool.false_eq_true, if_false, if_true]

/-- A request of another node is for mailbox 2. -/
theorem execKioskReply_request (h : s.Told hdr payload t s1 m) (hreq : t.resp = false) :
    execKioskReply hdr payload s = .next (s1.kskIn 2 (.fabric t.src) m) := by
  rw [execKioskReply_told h]
  simp only [State.kskFrom, hreq, Bool.not_false, if_true]

end

/-- Settles O48: the beat by what it leaves of its response, the message by its class and what it says. -/
theorem answersTakenByTheHostAndPeers : Obligations.AnswersTakenByTheHostAndPeers := by
  refine ⟨?beat, fun _ _ _ _ _ => takeBeat_last, fun _ _ _ _ _ _ _ hfind hrsp => takeBeat_more hfind hrsp,
    fun _ _ _ _ _ _ => of_told execKioskReply_majors, fun _ _ _ _ _ _ => of_told execKioskReply_other,
    fun _ _ _ _ _ _ => of_told execKioskReply_bad, fun _ _ _ _ _ _ => of_told execKioskReply_request⟩
  case beat =>
    intro ch lat s hrun hany
    cases lat with
    | none => exact execRspReady_gives (lat := none) hrun hany
    | some ns => exact execRspReady_gives (lat := some ns) hrun hany

end Sys2Proof.Machine

/-! # Power: re-plans, the budget, the governor, the modes -/

namespace Sys2Proof.Machine

open Sys2Proof

section

variable {s s1 : State} {path : Path} {value : Word}

/-! ### Re-plans (R428) -/

theorem execReplanTimer_starts {ro : List (BitVec 24)} (hup : s.pageUp Page.PWA = true) :
    execReplanTimer ro s = .next (s.replanStart (ro.map (·.toNat))) := onReg_up hup

/-- A write of the register takes its hours, and with the bit set starts a re-plan. -/
theorem execReplanNow_written {ro : List (BitVec 24)} (hmay : s.pathMay path R.PWA_REPLAN = true) (hup : s.pageUp Page.PWA = true)
    (hs1 : s1 = s.fset F.PWA_REPLAN_HOURS 0 (clamp 1 8760 (bits value.toNat 0 14))) :
    execReplanNow path value ro s = .next (if bit value.toNat 16 = true then s1.replanStart (ro.map (·.toNat)) else s1) := by
  subst hs1
  rw [execReplanNow, fromPath_may hmay, onReg_up hup]

/-- None starts while core 2 is down or one is under way. -/
theorem replanStart_not {ro : List Nat} (h : s.coreState 2 ≠ 1 ∨ s.mgmt.replan.isSome = true) : s.replanStart ro = s := if_pos h

/-! ### Budget and governor (R426, R427, R461, R463) -/

theorem execBudgetRequest_toggles (hmay : s.pathMay path R.PWA_BUDGET_REQ = true) (hup : s.pageUp Page.PWA = true)
    (hs1 : s1 = s.fset F.PWA_BUDGET_REQ_REQ 0 (bits value.toNat 0 10)) :
    execBudgetRequest path value s = .next { s1 with pwr := { s1.pwr with reqTgl := !s1.pwr.reqTgl } } := by
  subst hs1
  rw [execBudgetRequest, fromPath_may hmay, onReg_up hup]

theorem execBudgetGrant_taken {grant : BitVec 10} (hup : s.pageUp Page.PWA = true)
    (hs1 : s1 = (s.fset F.PWA_BUDGET_GRANT_GRANT 0 grant.toNat).set1 F.PWA_BUDGET_GRANT_VALID) :
    execBudgetGrant grant s = .next { s1 with pwr := { s1.pwr with grant := some grant.toNat } } := by
  subst hs1
  exact onReg_up hup

variable {more : Nat}

/-- With no coefficient set the estimate is 0. -/
theorem estimate_unweighted (hall : (List.range 16).all (fun i => s.rd R.PWA_COEF i == 0) = true) :
    s.estimate more = (0, { s with pwr := { s.pwr with activity := [], since := s.tick.hall } }) := if_pos hall

/-- With one set the estimate is the weighted counts as power and what the command adds (log entry 94). -/
theorem estimate_weighted {w : Nat} (hall : (List.range 16).all (fun i => s.rd R.PWA_COEF i == 0) = false)
    (hw : wattsOf (max 1 ((s.tick.hall - s.pwr.since) / 1000)) (s.pwr.activity.foldl (fun a c =>
      a.add ((f32 (s.rd R.PWA_COEF (Config.activityCoef c.1 % 16))).mul (.fin false c.2 0))) (.fin false 0 0)) = some w) :
    s.estimate more = (min 1023 (w + more), { s with pwr := { s.pwr with activity := [], since := s.tick.hall } }) := by
  simp only [State.estimate, hall, hw, Bool.false_eq_true, if_false]

/-- An estimate writes no register. -/
theorem estimate_regs (s : State) (more : Nat) : (s.estimate more).2.regs = s.regs := by
  unfold State.estimate
  dsimp only
  split
  · rfl
  · split
    · rfl
    · rfl

/-- The demand that an estimate sets by the rule of R427. -/
def State.demandFor (s : State) (e : Nat) : Nat :=
  governed (s.flag F.PWA_CTRL_GOV_EN) (s.fget F.PWA_BUDGET_EFF_BUDGET) (s.fget F.PWA_FLOOR_FLOOR) (s.fget F.PWA_CTRL_HYST) e
    (s.fget F.LNF_IDLE_POWER)

/-- It depends on the registers alone. -/
theorem demandFor_congr {e : Nat} (h : s1.regs = s.regs) : s1.demandFor e = s.demandFor e := by
  simp only [State.demandFor, State.flag, fget_congr h]

/-- A governor step shows the estimate and sets its demand. -/
theorem execGovernorStep_shows {est : BitVec 10} {e d : Nat} (hup : s.Up Page.PWA) (hest : (e, s1) = s.estimate est.toNat)
    (hd : d = s.demandFor e) :
    execGovernorStep est s = .next
      (((s1.fset F.PWA_EST_POWER 0 e).fset F.LNF_IDLE_POWER 0 d).fset F.PWA_STAT_GOVERNING 0 (if d = 0 then 0 else 1)) := by
  have hregs : s1.regs = s.regs := by rw [← estimate_regs s est.toNat, ← hest]
  rw [hd, ← demandFor_congr hregs, execGovernorStep, onPage_up hup, State.governorStep, ← hest]
  rfl

/-! ### The power modes (R482, R483, R484) -/

section

variable {req reason : Nat} {f : State → State}

/-- A mode with no reason against it is entered by its rule. -/
theorem modeWrite_entered (hs1 : s1 = s.fset F.CRG_PWR_MODE_REQ 0 req) (hreason : reason = 0) (hready : s1.notReady = false) :
    s.modeWrite req reason f = f s1 := by
  subst hs1 hreason
  simp only [State.modeWrite, hready, ne_eq, not_true_eq_false, Bool.false_eq_true, if_false, if_true]

/-- A refused mode reports its reason, with interrupt 1. -/
theorem modeWrite_refused (hreason : reason ≠ 0) :
    s.modeWrite req reason f = ((s.fset F.CRG_PWR_MODE_REQ 0 req).fset F.CRG_PWR_MODE_REASON 0 reason).irq Page.CRG 1 := by
  simp only [State.modeWrite, if_pos hreason, if_neg hreason]

end

variable (hmay : s.pathMay path R.CRG_PWR_MODE = true) (hup : s.pageUp Page.CRG = true)
include hmay hup

theorem execRunMode_entered (hs1 : s1 = s.fset F.CRG_PWR_MODE_REQ 0 0) (hready : s1.notReady = false) :
    execRunMode path s = .next s1.wake := by
  rw [execRunMode, fromPath_may hmay, onReg_up hup, modeWrite_entered hs1 rfl hready]

theorem execSleepMode_entered (hs1 : s1 = s.fset F.CRG_PWR_MODE_REQ 0 1) (hreason : s.sleepReason = 0) (hready : s1.notReady = false) :
    execSleepMode path s = .next s1.goSleep := by
  rw [execSleepMode, fromPath_may hmay, onReg_up hup, modeWrite_entered hs1 hreason hready]

theorem execDeepSleep_entered (hs1 : s1 = s.fset F.CRG_PWR_MODE_REQ 0 2) (hreason : s.deepReason = 0) (hready : s1.notReady = false) :
    execDeepSleep path s = .next s1.goDeep := by
  rw [execDeepSleep, fromPath_may hmay, onReg_up hup, modeWrite_entered hs1 hreason hready]

end

/-- Settles O39: the guards let each command through; the governor's rule reads registers that the estimate leaves alone. -/
theorem replansAndPower : Obligations.ReplansAndPower :=
  ⟨fun _ _ => execReplanTimer_starts, fun _ _ _ _ _ => execReplanNow_written, fun _ _ => replanStart_not,
    fun _ _ _ _ => execBudgetRequest_toggles, fun _ _ _ => execBudgetGrant_taken, fun _ _ _ _ _ => execGovernorStep_shows,
    fun _ _ => estimate_unweighted, fun _ _ _ => estimate_weighted⟩

end Sys2Proof.Machine

/-! # Resets, starts, the clock monitor and the fallback -/

namespace Sys2Proof.Machine

open Sys2Proof

section

variable {s : State} {i : StartIn}

/-! ### Where a start stops (R487, R493) -/

/-- A record leaves the run as it is. -/
theorem logErr_run (s : State) (e : ErrIn) : (s.logErr e).run = s.run := by
  obtain ⟨r, u, c, h⟩ := logErr_touches s e
  rw [h]

theorem warmFailed_run (s : State) : s.warmFailed.run = s.run := by
  unfold State.warmFailed
  split
  · rw [bumpSat_run]
  · rfl

/-- The first failure of a warm start is counted. -/
theorem warmFailed_counts (hkind : s.fget F.CRG_START_STAT_KIND = 1) (hfirst : s.pwr.failed = false) :
    s.warmFailed = ({ s with pwr := { s.pwr with failed := true } } : State).bumpSat F.CRG_WARM_FAIL_COUNT := if_pos ⟨hkind, hfirst⟩

theorem startFail_run (s : State) (warm : Bool) (step : Nat) : (s.startFail warm step).run = .stopped warm step := by
  rw [State.startFail, warmFailed_run, logErr_run, fset_run, fset_run]

/-! ### A cold start (R485) -/

/-- A start's input with no failing step makes no step fail. -/
theorem startFails_none (hfail : i.fail = none) (step : Nat) : startFails i step = false := by
  rw [startFails, hfail, Option.any_none]

/-- A CHECK on the ring leaves the run as it is. -/
theorem sendCheck_run (s : State) : s.sendCheck.run = s.run := rfl

/-- Steps 3 to 7, all good, leave a running engine. -/
theorem coldRest_run (hfail : i.fail = none) (hext : i.extOk = true) (hrows : deadRow i.tests = false) :
    (s.coldRest i).run = .running := by
  simp only [State.coldRest, startFails_none hfail, hext, hrows, Bool.not_true, Bool.or_self, Bool.false_eq_true, if_false, sendCheck_run,
    fset_run]

/-- With every step good the engine runs. -/
theorem coldSteps_runs {forced : Bool} {b : Nat} (hbase : baseOf i.windows = some b) (hfail : i.fail = none) (hext : i.extOk = true)
    (hrows : deadRow i.tests = false) : (s.coldSteps i forced).run = .running := by
  simp only [State.coldSteps, hbase, startFails_none hfail, Bool.false_eq_true, if_false]
  exact coldRest_run hfail hext hrows

/-- With no window in range the start stops at step 1. -/
theorem coldSteps_noBase {forced : Bool} (hbase : baseOf i.windows = none) : (s.coldSteps i forced).run = .stopped false 1 := by
  simp only [State.coldSteps, hbase, startFail_run]

theorem execColdStart_held {mgr : Bool} {inst : BitVec 4} {refdly : BitVec 8} (hheld : s.run = .heldCold) :
    execColdStart mgr inst refdly i s = .next
      ((s.wr R.IDN_STRAP 0 (mgr.toNat + 16 * inst.toNat + 256 * refdly.toNat)).coldSteps i false) := by
  rw [execColdStart, if_pos hheld]

/-! ### Warm resets and starts (R488, R491, R493) -/

/-- A warm reset that is not absorbed into a cold start counts a start that was not READY as failed, notes what has not drained and
keeps what its rules say. -/
theorem execWarmReset_keeps {s1 : State} (hrun : s.run = .running ∨ s.run = .fallback) (hready : s.coldPending = false)
    (hs1 : s1 = if s.fget F.CRG_STAT_PHASE = 15 then s else s.warmFailed) :
    execWarmReset s = .next ((s1.noteUndrained.toWarm.set1 F.TWC_FILL_STAT_SELFREF).fset F.CRG_START_STAT_FALLBACK_PRIOR 0
      (s.run == .fallback).toNat) := by
  subst hs1
  have hcold : s.run ≠ .heldCold := by rcases hrun with h | h <;> simp only [h, ne_eq, reduceCtorEq, not_false_eq_true]
  have hwarm : s.run ≠ .heldWarm := by rcases hrun with h | h <;> simp only [h, ne_eq, reduceCtorEq, not_false_eq_true]
  rw [execWarmReset, if_neg (by simp only [hcold, hwarm, hready, Bool.false_eq_true, or_self, not_false_eq_true])]

theorem execWarmStart_warm (hheld : s.run = .heldWarm) (hcount : s.fget F.CRG_WARM_FAIL_COUNT ≠ 3) :
    execWarmStart i s = .next (s.warmSteps i) := by
  rw [execWarmStart, if_neg (not_not_intro hheld), if_neg hcount]

/-- After the third failure in a row a warm start is a forced cold start: it keeps LOCK too (log entry 16), and UNDRAINED stands as the
reset before it noted it (log entry 17). -/
theorem execWarmStart_forced (hheld : s.run = .heldWarm) (hcount : s.fget F.CRG_WARM_FAIL_COUNT = 3) :
    execWarmStart i s = .next ((s.toCold (forcedMask (s.locked Page.FBP))).coldSteps i true) := by
  rw [execWarmStart, if_neg (not_not_intro hheld), if_pos hcount]

/-- A start past its limit counts as failed. -/
theorem execStartLimit_passed (hrun : s.run = .running ∨ s.run = .fallback) (hphase : s.fget F.CRG_STAT_PHASE ≠ 15) :
    execStartLimit s = .next s.warmFailed := by
  rw [execStartLimit, if_pos ⟨hrun, hphase⟩]

/-! ### The monitor and the fallback (R478, R479) -/

theorem execMonitorWindow_judged {count : BitVec 12} (hrun : s.run = .running ∨ s.run = .fallback) :
    execMonitorWindow count s = .next (s.window count.toNat) := by
  rcases hrun with h | h
  · simp only [execMonitorWindow, h]
  · simp only [execMonitorWindow, h]

/-- A window in range of a recalibration asked for becomes the base and ends the request. -/
theorem window_recal {n : Nat} (hrecal : s.pwr.recal = true) (hmin : 1680 ≤ n) (hmax : n ≤ 2600) : s.window n =
    (({ s.fset F.CRG_MON_CNT_COUNT 0 n with
        pwr := { (s.fset F.CRG_MON_CNT_COUNT 0 n).pwr with recal := false, outs := 0 } } : State).fset
      F.CRG_MON_BASE_COUNT 0 n).set0 F.CRG_STAT_MON_OUT := by
  have hrecal' : (s.fset F.CRG_MON_CNT_COUNT 0 n).pwr.recal = true := hrecal
  rw [State.window, if_pos hrecal', if_pos ⟨hmin, hmax⟩]

/-- A PLL that had lock and loses it falls the engine back. -/
theorem execPllLockLoss_fallsBack {pll : Fin 3} (hrun : s.run = .running) (hlocked : bit (s.fget F.CRG_STAT_LOCKED) pll.val = true) :
    execPllLockLoss pll s = .next
      ((s.fset F.CRG_STAT_LOCKED 0 (setBit (s.fget F.CRG_STAT_LOCKED) pll.val false)).fallBack 0x0A11) := by
  rw [execPllLockLoss, onUp_running hrun, if_pos hlocked]

/-- A recalibration is asked for with the tolerance brought into its range. -/
theorem execRecal_kept {path : Path} {value : Word} {s1 : State} (hmay : s.pathMay path R.CRG_MON_CFG = true)
    (hup : s.pageUp Page.CRG = true) (hs1 : s1 = s.fset F.CRG_MON_CFG_TOL 0 (clamp 4 64 (bits value.toNat 0 8))) :
    execRecal path value s = .next (if bit value.toNat 8 = true then { s1 with pwr := { s1.pwr with recal := true } } else s1) := by
  subst hs1
  rw [execRecal, fromPath_may hmay, onReg_up hup]

end

/-- Settles O44: where the run of a start stands after its steps, and which of the resets and starts each state takes. -/
theorem coldAndWarmStarts : Obligations.ColdAndWarmStarts :=
  ⟨fun _ => rfl, fun _ => rfl, fun _ _ _ _ _ => execColdStart_held, fun _ _ _ _ => coldSteps_runs, fun _ _ _ => coldSteps_noBase,
    fun _ _ => execWarmReset_keeps, fun _ _ => execWarmStart_warm, fun _ _ => execWarmStart_forced, fun _ => execStartLimit_passed,
    fun _ => warmFailed_counts⟩

/-- Settles O45: the monitor and the PLLs by what a window or a loss finds, the modes by the reasons against them. -/
theorem clocksMonitorsAndPowerModes : Obligations.ClocksMonitorsAndPowerModes :=
  ⟨fun _ _ => execMonitorWindow_judged, fun _ _ => window_recal, fun _ _ => execPllLockLoss_fallsBack, fun _ _ => rfl,
    fun _ _ _ _ => execRecal_kept, fun _ _ _ => execRunMode_entered, fun _ _ _ => execSleepMode_entered,
    fun _ _ _ => execDeepSleep_entered, fun _ _ _ _ => modeWrite_refused, fun _ => rfl⟩

end Sys2Proof.Machine

/-! # Partitions

Creating, switching and resetting a partition go from a command through its checks to an operation; each lemma says one of the outcomes
(R367, R369, R375, R376, R377). -/

namespace Sys2Proof.Machine

open Sys2Proof

section

variable {s s1 : State} {path : Path} {p : Nat}

/-! ### Results of a command -/

theorem ptcResult_refused {reason : Nat} (h : reason ≠ 0) : s.ptcResult p reason = (s.fset F.PTC_STAT_REASON p reason).irq Page.PTC 2 :=
  if_neg h

theorem ptcResult_accepted : s.ptcResult p 0 = s.fset F.PTC_STAT_REASON p 0 := rfl

/-! ### Creating (R367) -/

theorem createPart_refused (h : s.createReason p ≠ 0) :
    s.createPart p = (s.fset F.PTC_STAT_REASON p (s.createReason p)).irq Page.PTC 2 := by
  rw [State.createPart, if_pos h, ptcResult_refused h]

/-- A partition created is counted for its client. -/
def State.createCounted (s : State) (p : Nat) : State :=
  ((s.fset F.PTC_STAT_REASON p 0).bump F.PTC_JOB_CNT_COUNT ((s.fset F.PTC_STAT_REASON p 0).fget F.PTC_CFG_CLIENT p)).topDownZero p

/-- On a free seat it is RESIDENT. -/
theorem createPart_resident (hok : s.createReason p = 0) (hs1 : s1 = s.createCounted p) (hfree : s1.seatHolder (s1.seatOf p) = none) :
    s.createPart p = (s1.clearSeat p).setPart p 2 := by
  subst hs1
  unfold State.createCounted at hfree ⊢
  simp only [State.createPart, hok, ptcResult_accepted, hfree, ne_eq, not_true_eq_false, if_false]

/-- On a seat that is held it is PARKED. -/
theorem createPart_parked {r : Nat} (hok : s.createReason p = 0) (hs1 : s1 = s.createCounted p)
    (hheld : s1.seatHolder (s1.seatOf p) = some r) : s.createPart p = s1.setPart p 1 := by
  subst hs1
  unfold State.createCounted at hheld ⊢
  simp only [State.createPart, hok, ptcResult_accepted, hheld, ne_eq, not_true_eq_false, if_false]

/-! ### Switching (R369, R370) -/

theorem switchPart_refused (h : s.switchReason p ≠ 0) :
    s.switchPart p = (s.fset F.PTC_STAT_REASON p (s.switchReason p)).irq Page.PTC 2 := by
  rw [State.switchPart, if_pos h, ptcResult_refused h]

/-- A switch that passes its checks is asked for, and begins when it can. -/
theorem switchPart_asked (hok : s.switchReason p = 0) (hs1 : s1 = s.fset F.PTC_STAT_REASON p 0) :
    s.switchPart p =
      (({ s1 with ptc := { s1.ptc with switches := s1.ptc.switches ++
        [⟨s1.seatOf p, p, s1.seatHolder (s1.seatOf p), s1.tick.hall, false, false, 0, 0⟩] } } : State).switchBegin (s1.seatOf p)) := by
  subst hs1
  simp only [State.switchPart, hok, ptcResult_accepted, ne_eq, not_true_eq_false, if_false]

/-- Once the boundary has passed and the outgoing partition is quiet, its image is written and its bytes move (log entry 89). -/
theorem switchBegin_moves {seat r : Nat} {x : Switch} (hfind : (s.ptc.switches.find? fun y => y.seat == seat) = some x)
    (hstill : x.moving = false) (hholder : s.seatHolder seat = some r) (hbound : x.bound = true) (hstate : Part.state s r = 2)
    (hquiet : s.partQuiet r = true) :
    s.switchBegin seat = ((s.setPart r 3).saveImage r).setSwitch
      { x with outP := some r, moving := true, began := s.tick.hall, left := s.imageBytes seat } := by
  simp only [State.switchBegin, hfind, hstill, hholder, hbound, hstate, hquiet, beq_self_eq_true, Bool.and_self, Bool.false_eq_true,
    if_false, if_true]

/-- A switch whose bytes have moved ends at the time given. -/
theorem execSwitchDone_ends {seat : Fin 8} {time : BitVec 64} {w : Switch} (hup : s.Up Page.PTC) (hs1 : s1 = s.passTo time.toNat)
    (hfind : (s1.ptc.switches.find? fun x => x.seat == seat.val) = some w) (hmoving : w.moving = true)
    (hcritical : s1.tower.critical = false) : execSwitchDone seat time s = .next (s1.switchEnd w) := by
  subst hs1
  rw [execSwitchDone, onPage_up hup]
  simp only [hfind, hmoving, hcritical, Bool.not_false, Bool.and_self, if_true]

/-- The end of a switch once the outgoing partition is parked: the incoming one is RESIDENT and counted, and a reset that waited for
the switch begins. -/
def State.switchIn (s : State) (x : Switch) : State :=
  let s3 := (s.loadImage x.inP).setPart x.inP 2
  let s4 : State := { s3 with ptc := { s3.ptc with switches := s3.ptc.switches.filter fun y => y.seat != x.seat } }
  let s5 := (((s4.fset F.PTC_SWITCH_US_US x.inP (min 65535 ((s4.tick.hall - x.began) / 1000))).set1 F.PTC_STAT_DONE x.inP).bump
    F.PTC_SWITCH_CNT_COUNT).irq Page.PTC 0
  (s5.ptc.resets.filter (·.waits)).foldl (fun (y : State) r => if r.part = x.inP ∨ some r.part = x.outP then y.resetBegin r.part else y) s5

/-- A switch that ends parks the partition that goes out, if there is one, and brings the other in. -/
theorem switchEnd_eq (s : State) (x : Switch) : s.switchEnd x = (x.outP.elim s fun r => s.setPart r 1).switchIn x := by
  unfold State.switchEnd
  split
  next r hout =>
    rw [show (x.outP.elim s fun r => s.setPart r 1) = s.setPart r 1 by rw [hout, Option.elim_some]]
    rfl
  next hout =>
    rw [show (x.outP.elim s fun r => s.setPart r 1) = s by rw [hout, Option.elim_none]]
    rfl

/-! ### Resetting (R375, R376, R377) -/

/-- A reset of a partition whose switch runs waits for its end. -/
theorem resetPart_waits (hswitching : Part.state s p = 3) : s.resetPart p =
    { s with ptc := { s.ptc with resets := (s.ptc.resets.filter fun x => x.part != p) ++ [⟨p, s.tick.hall, false, true⟩] } } :=
  if_pos (Or.inl hswitching)

variable {part : Fin 8}

/-- At the groups' drain limit the slots that are left are dissolved, each with its record and interrupt. -/
theorem execDrainLimit_dissolves (hup : s.Up Page.PTC) (hs1 : s1 = s.emptyDrained) (hresetting : Part.state s1 part = 4) :
    execDrainLimit part s = .next ((List.range 16).foldl (fun (y : State) g =>
      if Grp.part y g = part.val ∧ y.slotTaken g = true then
        ((y.dissolveSlot g).logErr { block := Page.PTC, code := 0x0802, sev := 1, part := some part.val }).irq Page.PTC 3
      else y) s1) := by
  simp only [execDrainLimit, onPage_up hup, ← hs1, if_neg (not_not_intro hresetting)]

/-- A reset whose work has all ended is done. -/
theorem execResetDone_ends (hup : s.Up Page.PTC) (hs1 : s1 = s.emptyDrained) (hresetting : Part.state s1 part = 4)
    (hquiet : s1.resetQuiet part = true) : execResetDone part s = .next (s1.resetEnd part) := by
  simp only [execResetDone, onPage_up hup, ← hs1, hresetting, hquiet, and_self, if_true]

/-- A window of the slowdown ends with each partition's figure, and the sums start again (R373). -/
theorem execSlowdownWindow_ends (hup : s.Up Page.PTC)
    (hs1 : s1 = (List.range 8).foldl (fun (y : State) p => y.slowdown p) s) :
    execSlowdownWindow s = .next { s1 with ptc := { s1.ptc with slow := [] } } := by
  rw [hs1, execSlowdownWindow, onPage_up hup]

/-! ### The commands of `PTC_CMD` -/

variable (hmay : s.pathMay path R.PTC_CMD = true) (hup : s.Up Page.PTC) (hp : p = s.sel path F.PTC_PART_SEL_PART)
include hmay hup hp

theorem execCreatePart_up : execCreatePart path s = .next (s.createPart p) := by
  rw [execCreatePart, fromPath_may hmay, onPage_up hup, hp]

theorem execSwitchPart_up : execSwitchPart path s = .next (s.switchPart p) := by
  rw [execSwitchPart, fromPath_may hmay, onPage_up hup, hp]

theorem execResetPart_empty (hempty : Part.state s p = 0) :
    execResetPart path s = .next ((s.fset F.PTC_STAT_REASON p 1).irq Page.PTC 2) := by
  subst hp
  rw [execResetPart, fromPath_may hmay, onPage_up hup]
  exact congrArg _ (if_pos hempty)

theorem execResetPart_begins (hused : Part.state s p ≠ 0) :
    execResetPart path s = .next ((s.fset F.PTC_STAT_REASON p 0).resetPart p) := by
  subst hp
  rw [execResetPart, fromPath_may hmay, onPage_up hup]
  exact congrArg _ (if_neg hused)

end

/-- Settles O35: each command reaches its operation through its guards and checks, and the operation does what its lemma above says. -/
theorem partitionsCreatedSwitchedAndReset : Obligations.PartitionsCreatedSwitchedAndReset := by
  refine ⟨?createRefused, ?resident, ?parked, ?switchRefused, ?switchAsked, fun _ _ _ _ _ => execSwitchDone_ends,
    fun _ _ _ _ => switchBegin_moves, switchEnd_eq, fun _ _ _ => execResetPart_empty, fun _ _ _ => execResetPart_begins,
    fun _ _ => resetPart_waits, fun _ _ _ => execDrainLimit_dissolves, fun _ _ _ => execResetDone_ends,
    fun _ hup => execSlowdownWindow_ends hup rfl⟩
  case createRefused =>
    intro path s p hmay hup hp hreason
    exact (execCreatePart_up hmay hup hp).trans (congrArg _ (createPart_refused hreason))
  case resident =>
    intro path s p s1 hmay hup hp hok hs1 hfree
    exact (execCreatePart_up hmay hup hp).trans (congrArg _ (createPart_resident hok hs1 hfree))
  case parked =>
    intro path s p s1 r hmay hup hp hok hs1 hheld
    exact (execCreatePart_up hmay hup hp).trans (congrArg _ (createPart_parked hok hs1 hheld))
  case switchRefused =>
    intro path s p hmay hup hp hreason
    exact (execSwitchPart_up hmay hup hp).trans (congrArg _ (switchPart_refused hreason))
  case switchAsked =>
    intro path s p s1 hmay hup hp hok hs1
    exact (execSwitchPart_up hmay hup hp).trans (congrArg _ (switchPart_asked hok hs1))

end Sys2Proof.Machine

/-! # Lane commands: the front descriptor, masks, pins, row tests and idle windows

A lane program's command takes the front descriptor of its queue when it is of the command's kind; a landed operand carries any kind
on. The register commands go through the guards of their page to one operation on the state. -/

namespace Sys2Proof.Machine

open Sys2Proof

section

variable {s s1 : State} {q r : Nat} {kind : Nat → Bool} {faults : List LaneFault} {j : LaneJob} {d : List Byte} {path : Path}

/-! ### The front descriptor (R44, R206, R211, R214) -/

section

variable (hs1 : s1 = s.laneRefetch q) (hfront : s1.laneFront q = some j) (hdesc : j.desc = some d)
include hs1 hfront hdesc

theorem laneRun_streamMm (hj : j.kind = 1) (hkind : kind 1 = true) :
    s.laneRun q kind faults = (s1.smGo { j with wait := false } d faults).colAdvance := by
  subst hs1
  simp only [State.laneRun, hfront, hdesc, hj, hkind, Bool.not_true, Bool.false_eq_true, if_false]

theorem laneRun_gatherPool (hj : j.kind = 2) (hkind : kind 2 = true) :
    s.laneRun q kind faults = (s1.gpGo { j with wait := false } d).colAdvance := by
  subst hs1
  simp only [State.laneRun, hfront, hdesc, hj, hkind, Bool.not_true, Bool.false_eq_true, if_false]

theorem laneRun_reduceAdd (hj : j.kind = 3) (hkind : kind 3 = true) :
    s.laneRun q kind faults = s1.raGo { j with wait := false } d := by
  subst hs1
  simp only [State.laneRun, hfront, hdesc, hj, hkind, Bool.not_true, Bool.false_eq_true, if_false]

end

section

variable {queue : Fin 16} (hup : s.Up Page.LNF)
include hup

theorem execStreamMm_up : execStreamMm queue faults s = .next (s.laneRun queue.val (· == 1) faults) :=
  onPage_up (f := fun s => s.laneRun queue.val (· == 1) faults) hup

theorem execGatherPool_up : execGatherPool queue s = .next (s.laneRun queue.val (· == 2) []) :=
  onPage_up (f := fun s => s.laneRun queue.val (· == 2) []) hup

theorem execReduceAdd_up : execReduceAdd queue s = .next (s.laneRun queue.val (· == 3) []) :=
  onPage_up (f := fun s => s.laneRun queue.val (· == 3) []) hup

theorem execOperandLand_up : execOperandLand queue s = .next (s.laneRun queue.val (fun _ => true) []) :=
  onPage_up (f := fun s => s.laneRun queue.val (fun _ => true) []) hup

end

/-! ### Masks and the pin (R186) -/

theorem execBypassWrite_up {cols : Bool} {value : Word} (hr : r = if cols then R.LNF_ROW_COL_BYP else R.LNF_ROW_LANE_BYP)
    (hmay : s.pathMay path r = true) (hup : s.Up Page.LNF) :
    execBypassWrite path cols value s = .next (s.pathWrite path r value.toNat).showPending := by
  rw [execBypassWrite, ← hr, fromPath_may hmay, onPage_up hup]

/-- A pin that changes no row's K-width is in force at once. -/
theorem pinWrite_noRow {v w : Nat} (hw : w = min 32 (bits v 0 6)) (hs1 : s1 = s.fset F.LNF_KWIDTH_PIN_WIDTH 0 w)
    (hnone : ((List.range 768).any fun r => s1.pinChanges r) = false) :
    s.pinWrite v = ({ s1 with lane := { s1.lane with pin := s1.pinWritten } } : State).showPending := by
  subst hs1 hw
  simp only [State.pinWrite, hnone, Bool.false_eq_true, if_false]

theorem execKwidthPinWrite_up {value : Word} (hmay : s.pathMay path R.LNF_KWIDTH_PIN = true) (hup : s.Up Page.LNF) :
    execKwidthPinWrite path value s = .next (s.pinWrite value.toNat) := by
  rw [execKwidthPinWrite, fromPath_may hmay, onPage_up hup]

/-! ### Row tests (R189) -/

/-- A row of no partition is in no plan, so its test runs. -/
theorem rowTest_unowned (hidle : s.flag F.LNF_TEST_STAT_BUSY = false) (howner : s.rowOwner r = none) :
    s.rowTest r =
      (let s1 := ((s.set1 F.LNF_TEST_STAT_BUSY).set0 F.LNF_TEST_STAT_REFUSED).fset F.LNF_TEST_STAT_ROW 0 r
       { s1 with lane := { s1.lane with test := some r } }) := by
  simp only [State.rowTest, hidle, howner, Option.any_none, Bool.false_eq_true, if_false]

theorem execRowTest_up (hmay : s.pathMay path R.LNF_ROW_TEST = true) (hup : s.Up Page.LNF) :
    execRowTest path s = .next (s.rowTest (s.sel path F.LNF_ROW_SEL_ROW)) := by
  rw [execRowTest, fromPath_may hmay, onPage_up hup]

theorem execRowTestDone_running {lanes cols : Word} (hup : s.Up Page.LNF) (htest : s.lane.test = some r) :
    execRowTestDone lanes cols s = .next
      (let s1 := { s with lane := { s.lane with test := none } }
       let s2 := ((s1.set0 F.LNF_TEST_STAT_BUSY).set1 F.LNF_TEST_STAT_DONE).fset F.LNF_TEST_STAT_PASS 0 (lanes == 0 && cols == 0).toNat
       ((s2.wr R.LNF_TEST_LANES 0 lanes.toNat).wr R.LNF_TEST_COLS 0 cols.toNat).irq Page.LNF 2) := by
  simp only [execRowTestDone, onPage_up hup, htest, Option.isNone_some, Bool.false_eq_true, if_false]

/-! ### Idle windows (R190) -/

section

variable {len a n : Nat} (hs1 : s1 = s.fset F.LNF_IDLE_THERMAL 0 s.thermalDemand)
  (ha : a = min 63 (max (s1.fget F.LNF_IDLE_THERMAL) (max (s1.fget F.LNF_IDLE_POWER) (s1.fget F.LNF_IDLE_MIN))))
  (hn : n = min len 64 * a / 64)
include hs1 ha hn

/-- A window that comes to no whole cycle shows the fraction applied. -/
theorem idleWindow_none (hnone : n = 0) : s.idleWindow len = s1.fset F.LNF_IDLE_APPLIED 0 a := by
  subst hs1 ha hn
  exact if_pos hnone

/-- A window of idle cycles counts them, and wastes them on the rows of every RESIDENT partition. -/
theorem idleWindow_some (hsome : n ≠ 0) :
    s.idleWindow len = (List.range 8).foldl
      (fun x p => if x.fget F.PTC_STAT_STATE p = 2 then (x.rowCycles p 1 (n * (x.partRows p).length)).spend p n else x)
      (((s1.fset F.LNF_IDLE_APPLIED 0 a).bump F.LNF_IDLE_CNT_CYCLES 0 n).event 0x0701 none n) := by
  subst hs1 ha hn
  exact if_neg hsome

end

theorem execIdleWindow_up {len : Nat} (hup : s.Up Page.LNF) : execIdleWindow len s = .next (s.idleWindow len) :=
  onPage_up (f := fun s => s.idleWindow len) hup

end

/-- Settles O18: each lane program by the kind of the front descriptor, each register command by its operation under the page's
guards. -/
theorem laneCommandsRunTheFrontDescriptor : Obligations.LaneCommandsRunTheFrontDescriptor := by
  refine ⟨?streamMm, ?gatherPool, ?reduceAdd, ?operandLand, fun _ _ _ _ _ => execBypassWrite_up, ?pin, ?rowTest,
    fun _ _ _ _ => execRowTestDone_running, ?idleNone, ?idleSome⟩
  case streamMm =>
    intro queue faults s s1 j d hup hs1 hfront hdesc hkind
    exact (execStreamMm_up hup).trans (congrArg _ (laneRun_streamMm hs1 hfront hdesc hkind rfl))
  case gatherPool =>
    intro queue s s1 j d hup hs1 hfront hdesc hkind
    exact (execGatherPool_up hup).trans (congrArg _ (laneRun_gatherPool hs1 hfront hdesc hkind rfl))
  case reduceAdd =>
    intro queue s s1 j d hup hs1 hfront hdesc hkind
    exact (execReduceAdd_up hup).trans (congrArg _ (laneRun_reduceAdd hs1 hfront hdesc hkind rfl))
  case operandLand =>
    intro queue s s1 j d hup hs1 hfront hdesc hkind
    exact (execOperandLand_up hup).trans (congrArg _ (laneRun_streamMm hs1 hfront hdesc hkind rfl))
  case pin =>
    intro path value s w hmay hup hw hnone
    exact (execKwidthPinWrite_up hmay hup).trans (congrArg _ (pinWrite_noRow hw rfl hnone))
  case rowTest =>
    intro path s r hmay hup hr hidle howner
    subst hr
    exact (execRowTest_up hmay hup).trans (congrArg _ (rowTest_unowned hidle howner))
  case idleNone =>
    intro len s s1 a n hup hs1 ha hn hnone
    exact (execIdleWindow_up hup).trans (congrArg _ (idleWindow_none hs1 ha hn hnone))
  case idleSome =>
    intro len s s1 a n hup hs1 ha hn hsome
    exact (execIdleWindow_up hup).trans (congrArg _ (idleWindow_some hs1 ha hn hsome))

end Sys2Proof.Machine

/-! # Plan buffers: commit, check, cancel and the data port

A commit marks the next buffer as being checked, and the end of the check decides by the reason it found; the data port works on the
word that `State.planWord` names. -/

namespace Sys2Proof.Machine

open Sys2Proof

section

variable {s s1 : State} {p r : Nat} {path : Path} {part : Fin 8} {c : PlanCheck} {y : Plan} {img : List Byte}

/-! ### Commits and checks (R36, R37) -/

theorem execPlanCommit_free (hmay : s.pathMay path R.TCK_PLAN_COMMIT = true) (hup : s.Up Page.TCK)
    (hfree : (s.planState part.val).locked = false) :
    execPlanCommit path part s = .next (s.setPlan part.val { s.planState part.val with check := some ⟨s.tick.hall, false⟩ }) := by
  simp only [execPlanCommit, fromPath_may hmay, onPage_up hup, hfree, Bool.false_eq_true, if_false]

theorem execPlanCommit_locked (hmay : s.pathMay path R.TCK_PLAN_COMMIT = true) (hup : s.Up Page.TCK)
    (hlocked : (s.planState part.val).locked = true) :
    execPlanCommit path part s = .next (s.set1 F.TCK_STAT_PLAN_LOCKED_WR) := by
  simp only [execPlanCommit, fromPath_may hmay, onPage_up hup, hlocked, if_true]

theorem execPlanCheckDone_running (hrun : s.run = .running) : execPlanCheckDone part s = .next (s.planChecked part.val) :=
  onUp_running (f := fun s => s.planChecked part.val) hrun

/-- The state that shows the outcome of a check: its reason and the plan's number. -/
def State.showCheck (s : State) (p r : Nat) (img : List Byte) : State :=
  (s.fset F.TCK_PLAN_STAT_REASON p r).wr R.TCK_PLAN_ID p (fieldLE img 8 4)

@[simp] theorem showCheck_tick : (s.showCheck p r img).tick = s.tick := rfl

/-- A check with no reason against the plan accepts it, for the pending epoch if the plan is staged for it (R32, R36). -/
theorem planChecked_accepts (hcheck : (s.planState p).check = some c) (hcancel : c.cancelled = false)
    (himg : img = s.planImage p (s.planState p).nextBlk) (hplan : planOf img = some y) (hreason : s.planReason p (some y) = 0)
    (hs1 : s1 = s.showCheck p 0 img) :
    s.planChecked p =
      s1.setPlan p { s.planState p with
        check := none, accepted := some (y, s.tick.hall), barred := false,
        acceptedEpoch := if s1.stagedFor y then s.tick.commit.map (·.2.1) else none } := by
  subst hs1 himg
  simp only [State.planChecked, hcheck, hplan, hreason, hcancel, Bool.false_eq_true, if_false]
  rfl

/-- A check that found a reason raises the interrupt. -/
theorem planChecked_refuses (hcheck : (s.planState p).check = some c) (himg : img = s.planImage p (s.planState p).nextBlk)
    (hreason : s.planReason p (planOf img) ≠ 0) :
    s.planChecked p =
      ((s.showCheck p (s.planReason p (planOf img)) img).setPlan p { s.planState p with check := none }).irq Page.TCK 1 := by
  subst himg
  simp only [State.planChecked, hcheck]
  split
  case h_1 hzero _ => exact absurd hzero hreason
  case h_2 => rfl

/-! ### Withdrawals (R36) -/

theorem execPlanCancel_up (hmay : s.pathMay path R.TCK_PLAN_CANCEL = true) (hup : s.Up Page.TCK) :
    execPlanCancel path part s = .next (s.planCancel part.val) := by
  rw [execPlanCancel, fromPath_may hmay, onPage_up hup]

theorem planCancel_unchecked (hcheck : (s.planState p).check = none)
    (hearly : s.swapsAt (s.planState p) s.nextBoundary = false ∨ s.slotAfter s.tick.hall s.nextBoundary = true) :
    s.planCancel p = s.setPlan p { s.planState p with accepted := none, acceptedEpoch := none } := by
  have hfar : (s.swapsAt (s.planState p) s.nextBoundary && !s.slotAfter s.tick.hall s.nextBoundary) = false := by
    rcases hearly with h | h
    · rw [h, Bool.false_and]
    · rw [h, Bool.not_true, Bool.and_false]
  simp only [State.planCancel, hcheck, hfar, Bool.false_eq_true, if_false]

theorem planCancel_checking (hcheck : (s.planState p).check = some c) :
    s.planCancel p = s.setPlan p { s.planState p with check := some { c with cancelled := true } } := by
  simp only [State.planCancel, hcheck]

/-! ### The data port (R34, R496) -/

theorem execPlanDataAccess_read (hup : s.Up Page.TCK) :
    execPlanDataAccess path none s = .next
      (({ s with rdata := BitVec.ofNat 32 (ofLE (s.t0.bytes (s.planWord path).2.2 4)) } : State).bump F.TCK_PLAN_ADDR_WORD
        (s.planWord path).2.1) := by
  simp only [execPlanDataAccess, onPage_up hup]

section

variable {w : Word} (hmay : s.pathMay path R.TCK_PLAN_DATA = true) (hup : s.Up Page.TCK)
include hmay hup

theorem execPlanDataAccess_write (hfree : (s.planState (s.planWord path).1).locked = false) :
    execPlanDataAccess path (some w) s = .next
      (({ s with t0 := s.t0.puts (s.planWord path).2.2 (leBytes 4 w.toNat) } : State).bump F.TCK_PLAN_ADDR_WORD
        (s.planWord path).2.1) := by
  simp only [execPlanDataAccess, fromPath_may hmay, onPage_up hup, hfree, Bool.false_eq_true, if_false]

/-- A write to a locked buffer is dropped with its flag; the word address moves on all the same. -/
theorem execPlanDataAccess_drop (hlocked : (s.planState (s.planWord path).1).locked = true) :
    execPlanDataAccess path (some w) s = .next
      ((s.set1 F.TCK_STAT_PLAN_LOCKED_WR).bump F.TCK_PLAN_ADDR_WORD (s.planWord path).2.1) := by
  simp only [execPlanDataAccess, fromPath_may hmay, onPage_up hup, hlocked, if_true]

end

end

/-- Settles O5: a commit by the lock of the buffer, the end of a check by its reason, a withdrawal by the check in progress, an access
by its direction and the lock. -/
theorem planCommitCheckCancel : Obligations.PlanCommitCheckCancel := by
  refine ⟨fun _ _ _ => execPlanCommit_free, fun _ _ _ => execPlanCommit_locked, ?accepts, ?refuses, ?unchecked, ?checking,
    fun _ _ => execPlanDataAccess_read, fun _ _ _ => execPlanDataAccess_write, fun _ _ _ => execPlanDataAccess_drop⟩
  case accepts =>
    intro part s c y hrun hcheck hcancel hplan hreason
    exact (execPlanCheckDone_running hrun).trans (congrArg _ (planChecked_accepts hcheck hcancel rfl hplan hreason rfl))
  case refuses =>
    intro part s c hrun hcheck hreason
    exact (execPlanCheckDone_running hrun).trans (congrArg _ (planChecked_refuses hcheck rfl hreason))
  case unchecked =>
    intro path part s hmay hup hcheck hearly
    exact (execPlanCancel_up hmay hup).trans (congrArg _ (planCancel_unchecked hcheck hearly))
  case checking =>
    intro path part s c hmay hup hcheck
    exact (execPlanCancel_up hmay hup).trans (congrArg _ (planCancel_checking hcheck))

end Sys2Proof.Machine

/-! # Time commits and their epochs

A commit is decided by one condition on the staged values; at the epoch the values come into force, every partition drops a plan for
another period and the arms at or after the epoch are cancelled. -/

namespace Sys2Proof.Machine

open Sys2Proof

section

variable {s : State} {p e us base h : Nat} {path : Path}

/-! ### The condition of a commit (R30, R492) -/

/-- Whether the staged values may be committed: far enough ahead, none pending, and after the first commit on the grid of the values in
effect with a base past the last tick number under them. -/
def State.commitOk (s : State) : Bool :=
  decide (s.tick.hall + 2000 ≤ s.tick.stEpoch) && s.tick.commit.isNone &&
    (!s.tick.committed ||
      (decide (s.tick.epoch ≤ s.tick.stEpoch) && (s.tick.stEpoch - s.tick.epoch) % max 1 s.periodNs == 0 &&
        decide (s.tick.base + (s.tick.stEpoch - s.tick.epoch) / max 1 s.periodNs - 1 < s.tick.stBase)))

theorem commitOk_iff : s.commitOk = true ↔
    s.tick.hall + 2000 ≤ s.tick.stEpoch ∧ s.tick.commit = none ∧
      (s.tick.committed = false ∨ s.tick.epoch ≤ s.tick.stEpoch ∧ (s.tick.stEpoch - s.tick.epoch) % max 1 s.periodNs = 0 ∧
        s.tick.base + (s.tick.stEpoch - s.tick.epoch) / max 1 s.periodNs - 1 < s.tick.stBase) := by
  simp only [State.commitOk, Bool.and_eq_true, Bool.or_eq_true, decide_eq_true_eq, Option.isNone_iff_eq_none, Bool.not_eq_true',
    beq_iff_eq, and_assoc]

/-- The condition fails for a pending commit, an epoch too near, and after the first commit for one off the grid or too low a base. -/
theorem commitOk_eq_false (hbad : s.tick.commit.isSome = true ∨ s.tick.stEpoch < s.tick.hall + 2000 ∨
      (s.tick.committed = true ∧ (s.tick.stEpoch < s.tick.epoch ∨ (s.tick.stEpoch - s.tick.epoch) % max 1 s.periodNs ≠ 0 ∨
        s.tick.stBase ≤ s.tick.base + (s.tick.stEpoch - s.tick.epoch) / max 1 s.periodNs - 1))) :
    s.commitOk = false := by
  refine Bool.eq_false_iff.mpr fun hok => ?_
  obtain ⟨hsoon, hnone, hgrid⟩ := commitOk_iff.mp hok
  rcases hbad with hpending | hnear | ⟨hcommitted, hoff⟩
  · rw [hnone] at hpending
    cases hpending
  · omega
  · obtain ⟨hafter, hon, hbase⟩ := hgrid.resolve_left (by rw [hcommitted]; decide)
    omega

theorem timeCommit_accepted (hok : s.commitOk = true) :
    s.timeCommit =
      ({ s with tick := { s.tick with commit := some (s.tick.stPeriod, s.tick.stEpoch, s.tick.stBase), committed := true } } :
        State).cancelArms s.tick.stEpoch :=
  if_neg (by rw [← State.commitOk, hok]; decide)

theorem timeCommit_refused (hbad : s.commitOk = false) : s.timeCommit = (s.set1 F.TCK_STAT_TIME_REFUSED).irq Page.TCK 2 :=
  if_pos (by rw [← State.commitOk, hbad]; decide)

theorem execTimeCommit_up (hmay : s.pathMay path R.TCK_CTRL = true) (hup : s.Up Page.TCK) :
    execTimeCommit path s = .next s.timeCommit := by
  rw [execTimeCommit, fromPath_may hmay, onPage_up hup]

/-! ### The arms that an epoch cancels (R39) -/

theorem cancelArms_before (hbefore : ∀ h ∈ s.tick.armed, h < e) : s.cancelArms e = s := by
  have hnone : (s.tick.armed.filter fun h => decide (e ≤ h)) = [] :=
    List.filter_eq_nil_iff.mpr fun h hh => by simpa using hbefore h hh
  rw [State.cancelArms, hnone, List.foldl_nil]

theorem cancelArms_one (harmed : s.tick.armed = [h]) (hlate : e ≤ h) :
    s.cancelArms e =
      (let s1 : State := { s with tick := { s.tick with armed := [], releases := s.tick.releases.filter (· != h) } }
       ((s1.fset F.TCK_STAT_ARMED 0 0).set1 F.TCK_STAT_ARM_REFUSED).ringSend 3 none 1 [h]) := by
  have hsel : (s.tick.armed.filter fun x => decide (e ≤ x)) = [h] := by
    rw [harmed, List.filter_cons_of_pos (by simpa using hlate), List.filter_nil]
  have hleft : s.tick.armed.filter (· != h) = [] := by
    rw [harmed, List.filter_cons_of_neg (by simp), List.filter_nil]
  simp only [State.cancelArms, hsel, List.foldl_cons, List.foldl_nil, State.cancelArm, hleft, List.isEmpty_nil, Bool.not_true,
    Bool.toNat_false]

/-! ### The epoch (R30, R32) -/

theorem passTo_past {t : Nat} (hpast : t ≤ s.tick.hall) : s.passTo t = s := if_pos (Or.inl hpast)

theorem timeEpoch_commit (hcommit : s.tick.commit = some (us, e, base)) (hpast : e ≤ s.tick.hall) :
    s.timeEpoch =
      (let s1 : State := { s with tick := { s.tick with commit := none, epoch := e, base := base } }
       let s2 := ((s1.fset F.TCK_PERIOD_US 0 us).wr64 R.TCK_EPOCH_LO 0 e).wr64 R.TCK_TICK_BASE_LO 0 base
       let s3 := (List.range 8).foldl (fun x p => x.epochPlan us p) (s2.fset F.TCK_SLOTS_S 0 (slotsPer us s2.lclk))
       s3.cancelArms e) := by
  simp only [State.timeEpoch, hcommit, passTo_past hpast]

theorem execTimeEpoch_due (hrun : s.run = .running) (hcommit : s.tick.commit = some (us, e, base)) (hdue : e ≤ s.nextBoundary) :
    execTimeEpoch s = .next s.timeEpoch := by
  simp only [execTimeEpoch, onUp_running hrun, hcommit, hdue, if_true]

/-- An accepted plan of another period is withdrawn with reason 0x2 (R32). -/
theorem epochPlan_drops {y : Plan} (haccepted : (s.planState p).accepted = some (y, h)) (hperiod : y.period ≠ us) :
    s.epochPlan us p = (s.fset F.TCK_PLAN_STAT_REASON p 2).setPlan p
      { s.planState p with
        accepted := none, acceptedEpoch := none, inForce := (s.planState p).inForce.filter fun z => z.period == us } := by
  simp only [State.epochPlan, haccepted, Option.any_some, bne_iff_ne.mpr hperiod, if_true]

end

/-- Settles O4: a commit by its condition, the arms by the filter of R39, the epoch by the order in which it puts the values in
force. -/
theorem timeCommitsAndEpochs : Obligations.TimeCommitsAndEpochs := by
  refine ⟨?accepted, fun _ _ => cancelArms_before, fun _ _ _ => cancelArms_one, ?refused, ?epoch, ?plan⟩
  case accepted =>
    intro path s hmay hup hsoon hnone hgrid
    exact (execTimeCommit_up hmay hup).trans (congrArg _ (timeCommit_accepted (commitOk_iff.mpr ⟨hsoon, hnone, hgrid⟩)))
  case refused =>
    intro path s hmay hup hbad
    exact (execTimeCommit_up hmay hup).trans (congrArg _ (timeCommit_refused (commitOk_eq_false hbad)))
  case epoch =>
    intro s us e base hrun hcommit hdue hpast
    exact (execTimeEpoch_due hrun hcommit hdue).trans (congrArg _ (timeEpoch_commit hcommit hpast))
  case plan =>
    intro s us p y h hp haccepted hperiod
    have hdrop := epochPlan_drops haccepted hperiod
    exact ⟨by rw [hdrop, planState_setPlan_same (s.fset _ _ _) _ _ hp], hdrop⟩

end Sys2Proof.Machine

/-! # Boundaries, plan slots and retirement

A boundary gives its tick a number and opens the gate; a partition that may start takes its plan in force. A plan slot is carried out
unless lane work or a hold keeps the slot before it open, and a plan past its last slot retires. -/

namespace Sys2Proof.Machine

open Sys2Proof

section

variable {s : State} {p n b : Nat} {i : Inst} {part : Fin 8} {eyes : List (Nat × List Nat)}

/-! ### The boundary (R29, R35, R39) -/

theorem execTickBoundary_ticking (hrun : s.run = .running) (hticking : s.ticking = true) :
    execTickBoundary s = .next (s.takeBoundary s.nextBoundary) := by
  simp only [execTickBoundary, onUp_running hrun, hticking, if_true]

/-- The first release engages the barrier (R39). -/
theorem gate_first (hclosed : s.tick.released = false) (hrelease : b ∈ s.tick.releases) :
    (s.gate n b).1.tick.released = true ∧ (s.gate n b).1.tick.armed = [] ∧ (s.gate n b).2 = true := by
  have hmem : s.tick.releases.contains b = true := List.contains_iff_mem.mpr hrelease
  simp only [State.gate, hclosed, hmem, Bool.not_false, Bool.and_self, if_true, set0_tick, and_self]

theorem startWaiting_first {rest : List Inst} (hwaiting : (s.planState p).waiting = i :: rest) :
    s.startWaiting p = s.setPlan p { s.planState p with running := some i, waiting := rest } := by
  simp only [State.startWaiting, hwaiting]

theorem mayStart_resident (hstate : Part.state s p = 2) (hmanager : s.tick.managerLost = false) (hreleased : s.tick.released = true)
    (hmode : s.fget F.CRG_STAT_MODE = 0) : s.mayStart p = true := by
  simp only [State.mayStart, hstate, hmanager, hreleased, hmode, beq_self_eq_true, Bool.not_false, Bool.and_self]

/-- At a released boundary a partition that may start, with no plan running or waiting, starts its plan in force (R35). -/
theorem partBoundary_starts {y : Plan} (hp : p < s.plans.length) (hmay : s.mayStart p = true) (hcritical : s.tower.critical = false)
    (hswitch : s.switchHolds p = false) (hrunning : (s.planState p).running = none) (hwaiting : (s.planState p).waiting = [])
    (hforce : (s.planState p).inForce = some y) :
    ((s.partBoundary n b true p).planState p).running = some ⟨y, n, b, 1 - (s.planState p).nextBlk, 0⟩ := by
  have hstart : s.partBoundary n b true p =
      (s.setPlan p { s.planState p with waiting := [⟨y, n, b, 1 - (s.planState p).nextBlk, 0⟩] }).startWaiting p := by
    simp only [State.partBoundary, hmay, hswitch, hrunning, hwaiting, hforce, hcritical, Bool.true_eq_false, Bool.false_eq_true,
      or_self, if_false, if_true, Option.map_some, Option.toList_some, Option.isSome_none, List.nil_append]
  have hwaits := planState_setPlan_same s p { s.planState p with waiting := [⟨y, n, b, 1 - (s.planState p).nextBlk, 0⟩] } hp
  rw [hstart, startWaiting_first (congrArg PlanState.waiting hwaits), planState_setPlan_same _ _ _ (by simpa using hp)]

/-! ### Plan slots (R198, R507) -/

theorem execPlanSlot_up (hup : s.Up Page.TCK) : execPlanSlot part eyes s = .next (s.planSlot part.val eyes) :=
  onPage_up (f := fun s => s.planSlot part.val eyes) hup

section

variable (hrunning : (s.planState p).running = some i) (hplane : s.planeHalted = false) (hstate : Part.state s p ≠ 4)
include hrunning hplane hstate

theorem planSlot_done (hslot : i.slot < i.plan.slots) (hfree : s.spanOpen p i.slot = false) :
    s.planSlot p eyes = s.doSlot p i eyes := by
  simp only [State.planSlot, hrunning, hplane, hstate, hfree, Nat.not_le.mpr hslot, Bool.false_eq_true, if_false]

theorem planSlot_held (hopen : s.laneOver p i.slot = true ∨ (s.planState p).holds i.slot ≠ []) :
    s.planSlot p eyes = s.holdSlot p i.slot := by
  have hspan : s.spanOpen p i.slot = true := by
    rw [State.spanOpen, Bool.or_eq_true, Bool.not_eq_true', List.isEmpty_eq_false_iff]
    exact hopen
  simp only [State.planSlot, hrunning, hplane, hstate, hspan, Bool.false_eq_true, if_false, if_true]

end

/-! ### Retirement (R41) -/

theorem execPlanRetire_ends {time : BitVec 64} (hup : s.Up Page.TCK) (hpast : time.toNat ≤ s.tick.hall)
    (hrunning : (s.planState part.val).running = some i) (hplane : s.planeHalted = false) (hstate : Part.state s part.val ≠ 4)
    (hlast : i.plan.slots ≤ i.slot) (hfree : s.spanOpen part.val i.plan.slots = false) :
    execPlanRetire part time s = .next (s.retire part.val i) := by
  simp only [execPlanRetire, onPage_up hup, passTo_past hpast, hrunning, hplane, hstate, hfree, Nat.not_lt.mpr hlast,
    Bool.false_eq_true, or_self, if_false]

end

/-- Settles O2: the boundary by its command and the gate, the start by the partition's turn, a slot by what holds it. -/
theorem boundariesStartPlans : Obligations.BoundariesStartPlans := by
  refine ⟨fun _ => execTickBoundary_ticking, fun _ _ => ⟨rfl, rfl, rfl⟩, fun _ _ _ => gate_first, ?starts, ?slot, ?held,
    fun _ _ _ _ => execPlanRetire_ends⟩
  case starts =>
    intro s p n b y hp hstate hmanager hreleased hmode hcritical hswitch hrunning hwaiting hforce
    exact partBoundary_starts hp (mayStart_resident hstate hmanager hreleased hmode) hcritical hswitch hrunning hwaiting hforce
  case slot =>
    intro part eyes s i hup hrunning hplane hstate hslot hfree
    exact (execPlanSlot_up hup).trans (congrArg _ (planSlot_done hrunning hplane hstate hslot hfree))
  case held =>
    intro part eyes s i hs n hup hrunning hplane hstate hhs hopen hn
    subst hhs hn
    exact (execPlanSlot_up hup).trans (congrArg _ (planSlot_held hrunning hplane hstate hopen))

end Sys2Proof.Machine

/-! # The entries of a plan, one by one

Each entry's command goes through its guards to the unit it works on: the feeders, a lane queue's consume point, the update unit, a
bank. A bank's commands are settled by one lemma each on `State.bankCmd`. -/

namespace Sys2Proof.Machine

open Sys2Proof

section

variable {s : State} {part : Fin 8}

/-! ### Feed entries -/

section

variable {trio pair : Fin 256} {rows : BitVec 3}

theorem execFeedEntry_running {i : Inst} (hup : s.Up Page.LNF) (hrunning : (s.planState part.val).running = some i)
    (hplane : s.planeHalted = false) :
    execFeedEntry part trio pair rows s = .next (s.feed trio.val pair.val rows.toNat) := by
  simp only [execFeedEntry, onPage_up hup, hrunning, hplane, Option.isSome_some, Bool.not_false, Bool.and_self, if_true]

theorem execFeedEntry_idle (hup : s.Up Page.LNF)
    (hidle : (s.planState part.val).running = none ∨ s.planeHalted = true) : execFeedEntry part trio pair rows s = .next s := by
  have hno : ((s.planState part.val).running.isSome && !s.planeHalted) = false := by
    rcases hidle with h | h
    · rw [h, Option.isSome_none, Bool.false_and]
    · rw [h, Bool.not_true, Bool.and_false]
  simp only [execFeedEntry, onPage_up hup, hno, Bool.false_eq_true, if_false]

end

/-! ### Lane entries (R194) -/

theorem execLaneEntry_resident {queue : Fin 16} {kind : Fin 4} {split slots : Nat} {first last : Fin 256} (hup : s.Up Page.LNP)
    (hstate : Part.state s part.val = 2) (hplane : s.planeHalted = false) :
    execLaneEntry part queue kind split first last slots s = .next
      (s.consume part.val queue.val kind.val split first.val last.val slots
        (((s.plans[part.val]?).bind (fun x => x.running.map (·.slot))).getD 0 + slots)) := by
  simp only [execLaneEntry, onPage_up hup, hstate, hplane, ne_eq, not_true_eq_false, Bool.false_eq_true, or_self, if_false]

/-- A consume point of an enabled queue of its RESIDENT partition, none of its rows held, with a descriptor that a tail covers and room
for its completion, takes the head descriptor and reads it. -/
theorem consume_takes {p q kind split first last span stop : Nat} (hstate : Part.state s p = 2) (hpart : s.qPart .lane q = p)
    (hheld : s.laneHeld p q (pointRows first last) = false) (hen : s.flag (QKind.enable .lane) q = true)
    (htail : s.fget (QKind.head .lane) q ≠ s.fget (QKind.tail .lane) q) (hseen : s.fget (QKind.head .lane) q ≠ s.seenTail q)
    (hroom : s.qFull .lane q = false) :
    s.consume p q kind split first last span stop =
      (let j := LaneJob.taken s.lane.nextJob q p (s.fget (QKind.head .lane) q) kind split (pointRows first last) span stop (s.dueOf p)
         (s.planId p)
       State.laneFetch { s.qTake .lane q with
         lane := { (s.qTake .lane q).lane with
           jobs := (s.qTake .lane q).lane.jobs ++ [j], nextJob := (s.qTake .lane q).lane.nextJob + 1 } } j) := by
  simp only [State.consume, hstate, hpart, hheld, hen, htail, hseen, hroom, ne_eq, not_true_eq_false, Bool.false_eq_true,
    Bool.true_eq_false, or_self, if_false]

/-! ### Update entries (R129) -/

section

variable {cycles : Nat}

theorem execUpdateSlot_pass {x : Pass} (hup : s.Up Page.UPD) (hplane : s.planeHalted = false) (hpass : s.passOn part.val = some x) :
    execUpdateSlot part cycles s = .next (State.updRun part.val (cycles * s.eclk / max 1 s.lclk) s) := by
  simp only [execUpdateSlot, onPage_up hup, hplane, State.updSlots, hpass, Bool.false_eq_true, if_false]

/-- A partition that is not RESIDENT has its pass suspended (R371). -/
theorem execUpdateSlot_suspended (hup : s.Up Page.UPD) (hstate : Part.state s part.val ≠ 2) :
    execUpdateSlot part cycles s = .next s := by
  simp only [execUpdateSlot, onPage_up hup, State.updSlots, State.passOn, hstate, if_false, ite_self]

end

/-! ### Commands on a bank (R223, R232, R467) -/

section

variable {b cls r x : Nat} (hawake : s.tower.selfRefresh = false)
include hawake

theorem bankCmd_act (hclosed : (s.bank b).openRow = none) (hr : r < 6144) :
    s.bankCmd b cls (.act r) =
      (s.issue b [cmdWord 1 b 0, s.issuedRow b r]).setBank b { s.bank b with openRow := some r } := by
  simp only [State.bankCmd, hawake, hclosed, hr, Bool.false_eq_true, if_false, if_true]

theorem bankCmd_rd (hopen : (s.bank b).openRow = some r) (hx : x < 32) (hr : r < 6144) :
    s.bankCmd b cls (.rd x) = (s.issueRd b x).bankRead (tAddr b r (64 * x) / 64) := by
  simp only [State.bankCmd, hawake, hopen, hx, hr, and_self, Bool.false_eq_true, if_false, if_true]

theorem bankCmd_pre (hopen : (s.bank b).openRow = some r) :
    s.bankCmd b cls .pre = (s.issue b [cmdWord 5 b 0]).setBank b { s.bank b with openRow := none } := by
  simp only [State.bankCmd, hawake, hopen, Bool.false_eq_true, if_false]

theorem bankCmd_wr {be : BitVec 64} {data : List Byte} (hopen : (s.bank b).openRow = some r) (hx : x < 32) (hr : r < 6144) :
    s.bankCmd b cls (.wr x be data) = (s.issueWr b x be.getLsbD).towerPut (tAddr b r (64 * x)) (enabled be data) := by
  simp only [State.bankCmd, hawake, hopen, hx, hr, and_self, Bool.false_eq_true, if_false, if_true]

theorem bankCmd_ref {eyes : List Nat} : s.bankCmd b cls (.ref eyes) = s.refBank b eyes := by
  simp only [State.bankCmd, hawake, Bool.false_eq_true, if_false]

/-- A refresh closes the bank and moves its position on by one of 770 (R232). -/
theorem refBank_awake {eyes : List Nat} :
    s.refBank b eyes = ((s.issue b [cmdWord 6 b (if eyes.isEmpty then 0 else 2), (s.bank b).refPos]).setBank b
      { s.bank b with openRow := none, refPos := ((s.bank b).refPos + 1) % 770 }).recordEyes b eyes := by
  simp only [State.refBank, hawake, Bool.false_eq_true, if_false]

end

/-- Class 0 never writes part of a byte (R228). -/
theorem bankCmd_merge_plan {b x : Nat} {mask data : List Byte} : s.bankCmd b 0 (.merge x mask data) = s := by
  cases hrow : (s.bank b).openRow with
  | none => simp only [State.bankCmd, hrow, ite_self]
  | some r => simp only [State.bankCmd, hrow, ne_eq, not_true_eq_false, and_false, if_false, ite_self]

section

variable {bank : Fin 512} {user : Fin 5} {c : TowerCmd} {eyes : List Nat}

theorem execBankEntry_one (hrun : s.run = .running) (huser : user ≠ 0) :
    execBankEntry bank user [c] s = .next (s.bankCmd bank.val 0 c) := by
  simp only [execBankEntry, onUp_running hrun, huser, if_false, List.foldl_cons, List.foldl_nil]

/-- User 0 is none of R507’s users: such an entry issues nothing. -/
theorem execBankEntry_none {cmds : List TowerCmd} (hrun : s.run = .running) : execBankEntry bank 0 cmds s = .next s := by
  simp only [execBankEntry, onUp_running hrun, if_true]

/-- With a plan's refresh rate not halved, every refresh is performed. -/
theorem execRefreshEntry_full (hrun : s.run = .running) (hplane : s.planeHalted = false)
    (hhalf : s.flag F.TWC_REF_CTRL_HALF = false) : execRefreshEntry bank eyes s = .next (s.refBank bank.val eyes) := by
  simp only [execRefreshEntry, onUp_running hrun, hplane, State.planRefresh, hhalf, Bool.false_eq_true, if_false]

/-- With it halved, a refresh marked to be skipped only loses its mark (R38). -/
theorem execRefreshEntry_skipped (hrun : s.run = .running) (hplane : s.planeHalted = false)
    (hhalf : s.flag F.TWC_REF_CTRL_HALF = true) (hskip : (s.bank bank.val).skipNext = true) :
    execRefreshEntry bank eyes s = .next (s.setBank bank.val { s.bank bank.val with skipNext := false }) := by
  simp only [execRefreshEntry, onUp_running hrun, hplane, State.planRefresh, hhalf, hskip, Bool.false_eq_true, if_false, if_true]

end

end

/-- Settles O3: each entry by its unit, each command of a bank entry by what it does on the bank. -/
theorem slotEntriesActOnTheirUnits : Obligations.SlotEntriesActOnTheirUnits := by
  refine ⟨fun _ _ _ _ _ _ => execFeedEntry_running, fun _ _ _ _ _ => execFeedEntry_idle, ?lane, fun _ _ _ _ => execUpdateSlot_pass,
    fun _ _ _ => execUpdateSlot_suspended, ?act, ?rd, ?pre, ?wr, ?ref, ?merge, fun _ _ _ => execRefreshEntry_full,
    fun _ _ _ hawake => refBank_awake hawake, fun _ _ _ => execRefreshEntry_skipped⟩
  case lane =>
    intro part queue kind split first last slots s rows hup hstate hplane htail hrows hheld hpart hen hseen hroom
    subst hrows
    exact (execLaneEntry_resident hup hstate hplane).trans (congrArg _ (consume_takes hstate hpart hheld hen htail hseen hroom))
  case act =>
    intro s bank user r hrun huser hawake hclosed hr
    exact (execBankEntry_one hrun huser).trans (congrArg _ (bankCmd_act hawake hclosed hr))
  case rd =>
    intro s bank user r x hrun huser hawake hopen hx hr
    exact (execBankEntry_one hrun huser).trans (congrArg _ (bankCmd_rd hawake hopen hx hr))
  case pre =>
    intro s bank user r hrun huser hawake hopen
    exact (execBankEntry_one hrun huser).trans (congrArg _ (bankCmd_pre hawake hopen))
  case wr =>
    intro s bank user r x be data hrun huser hawake hopen hx hr
    exact (execBankEntry_one hrun huser).trans (congrArg _ (bankCmd_wr hawake hopen hx hr))
  case ref =>
    intro s bank user eyes hrun huser hawake
    exact (execBankEntry_one hrun huser).trans (congrArg _ (bankCmd_ref hawake))
  case merge =>
    intro s bank user x mask data hrun
    by_cases huser : user = 0
    · subst huser
      exact execBankEntry_none hrun
    · exact (execBankEntry_one hrun huser).trans (congrArg _ bankCmd_merge_plan)

end Sys2Proof.Machine

/-! # What leaves the tick state alone

Of all that happens at a boundary only the few operations treated under "Strobes, holdover and the boundaries that a step passes"
write the tick state. Every other one leaves it as it was, at whatever depth it is called: one lemma per operation, in the order of
the model, each by the lemmas of the operations it is made of. -/

namespace Sys2Proof.Machine

open Sys2Proof

section

/-! ### Folds -/

theorem foldl_tick {α : Type} {f : State → α → State} {l : List α} {s : State} (h : ∀ s a, (f s a).tick = s.tick) :
    (l.foldl f s).tick = s.tick := by
  induction l generalizing s with
  | nil => rfl
  | cons a l ih => exact ih.trans (h s a)

theorem foldl_fst_tick {α β : Type} {f : State × β → α → State × β} {l : List α} {x : State × β}
    (h : ∀ x a, (f x a).1.tick = x.1.tick) : (l.foldl f x).1.tick = x.1.tick := by
  induction l generalizing x with
  | nil => rfl
  | cons a l ih => exact ih.trans (h x a)

/-! ### Branches and record updates -/

theorem tick_ite {c : Prop} [Decidable c] {a b : State} {t : Tick} (ha : a.tick = t) (hb : b.tick = t) :
    (if c then a else b).tick = t := by
  split <;> assumption

theorem fst_tick_ite {α : Type} {c : Prop} [Decidable c] {a b : State × α} {t : Tick} (ha : a.1.tick = t) (hb : b.1.tick = t) :
    (if c then a else b).1.tick = t := by
  split <;> assumption

/-- The tick state of a record update that gives it. -/
theorem mk_tick {regs latched run eru ctr tick plans tower t0 ext xt pages freeCtr coding fab host upd lane col ring ptc arb arc mgmt pwr
      turns rdata regErr pending} :
    (State.mk regs latched run eru ctr tick plans tower t0 ext xt pages freeCtr coding fab host upd lane col ring ptc arb arc mgmt pwr
      turns rdata regErr pending).tick = tick := rfl

variable (s : State)

/-! ### `Ops.lean` -/

@[simp] theorem countOne_tick (c n : Nat) : (s.countOne c n).tick = s.tick := by
  grind [State.countOne, wr_tick, irq_tick]

@[simp] theorem event_tick (ev : Nat) (part : Option Nat) (n : Nat) : (s.event ev part n).tick = s.tick := by
  unfold State.event
  split
  · rfl
  · exact foldl_tick fun s c => by grind [countOne_tick]

@[simp] theorem topDown_tick (p cls n : Nat) : (s.topDown p cls n).tick = s.tick := by
  grind [State.topDown]

@[simp] theorem enqueue_tick (r : ErrRec) : (s.enqueue r).tick = s.tick := by
  grind [State.enqueue, irq_tick, set1_tick, bump_tick]

@[simp] theorem latchFatal_tick (r : ErrRec) : (s.latchFatal r).tick = s.tick := by
  grind [State.latchFatal, irq_tick, set1_tick]

@[simp] theorem logErr_tick (e : ErrIn) : (s.logErr e).tick = s.tick := by
  grind [State.logErr, bump_tick, wr_tick, event_tick, enqueue_tick, latchFatal_tick]

@[simp] theorem logMs_tick (e : ErrIn) : (s.logMs e).tick = s.tick := by
  grind [State.logMs, logErr_tick]

@[simp] theorem free_tick : s.free.2.tick = s.tick := rfl

@[simp] theorem freeBytes_tick (n : Nat) : (State.freeBytes n s).2.tick = s.tick := by
  induction n generalizing s with
  | zero => rfl
  | succ n ih => exact (ih _).trans (free_tick s)

/-! ### `Tower.lean` -/

@[simp] theorem secsWritten_tick (a n : Nat) (hit : Nat → Bool) : (s.secsWritten a n hit).tick = s.tick := by
  unfold State.secsWritten
  split
  · rfl
  · exact foldl_tick fun s i => by grind [event_tick, active_tick]

@[simp] theorem towerPut_tick (a : Nat) (bs : List (Option Byte)) : (s.towerPut a bs).tick = s.tick := by
  grind [State.towerPut, secsWritten_tick]

@[simp] theorem mirrorFill_tick (a n : Nat) : (s.mirrorFill a n).tick = s.tick := by
  grind [State.mirrorFill]

@[simp] theorem xtSend_tick (wr : Bool) (g : Nat) (data : List (Option Byte)) : (s.xtSend wr g data).tick = s.tick := by
  grind [State.xtSend, active_tick]

@[simp] theorem xtRun_tick (gs : List Nat) : (s.xtRun gs).tick = s.tick := foldl_tick fun s _ => xtSend_tick s _ _ _

@[simp] theorem xtStore_tick (gs : List Nat) : (s.xtStore gs).tick = s.tick := foldl_tick fun s _ => xtSend_tick s _ _ _

@[simp] theorem parityPoison_tick (sec : Nat) : (s.parityPoison sec).tick = s.tick := by
  grind [State.parityPoison, secsWritten_tick, mirrorFill_tick, irq_tick, bump_tick, logErr_tick]

@[simp] theorem readSec_tick (t : Tier) (sec : Nat) : (s.readSec t sec).1.tick = s.tick := by
  cases t with
  | t1 => grind [State.readSec, active_tick, event_tick, bump_tick, irq_tick, parityPoison_tick]
  | t2 => grind [State.readSec, xtSend_tick, bump_tick, irq_tick]

@[simp] theorem readTier_tick (t : Tier) (a n : Nat) : (s.readTier t a n).1.tick = s.tick := by
  unfold State.readTier
  exact foldl_fst_tick (x := (s, [], [])) fun x sec => readSec_tick x.1 t sec

@[simp] theorem writeTier_tick (t : Tier) (a : Nat) (bs : List (Option Byte)) : (s.writeTier t a bs).tick = s.tick := by
  cases t with
  | t1 => exact towerPut_tick s a bs
  | t2 => exact foldl_tick fun s sec => xtSend_tick s _ _ _

@[simp] theorem setPlanRef_tick (bs : List Nat) : (s.setPlanRef bs).tick = s.tick := by
  grind [State.setPlanRef, fset_tick]

@[simp] theorem applyOrg_tick (e : Nat) : (s.applyOrg e).tick = s.tick := by
  grind [State.applyOrg, fset_tick, irq_tick]

@[simp] theorem orgTakeOver_tick (e : Nat) (o : Org) : (s.orgTakeOver e o).tick = s.tick := by
  grind [State.orgTakeOver, logErr_tick, irq_tick]

@[simp] theorem orgBoundary_tick : s.orgBoundary.tick = s.tick := by
  unfold State.orgBoundary
  exact foldl_tick fun s e => by grind [orgTakeOver_tick]

/-! ### `Coding.lean` -/

@[simp] theorem tagPut_tick (g r : Nat) (t : TagLine) : (s.tagPut g r t).tick = s.tick := foldl_tick fun s _ => writeTier_tick s _ _ _

@[simp] theorem report_tick (g r stamp count kind parity : Nat) : (s.report g r stamp count kind parity).tick = s.tick := by
  grind [State.report, wr_tick, writeTier_tick, irq_tick]

@[simp] theorem dropGather_tick (g r : Nat) : (s.dropGather g r).tick = s.tick := rfl

@[simp] theorem setLeft_tick (g left : Nat) : (s.setLeft g left).tick = s.tick := by
  grind [State.setLeft, fset_tick, irq_tick, set0_tick, logErr_tick]

@[simp] theorem rowDone_tick (g : Nat) : (s.rowDone g).tick = s.tick := by
  grind [State.rowDone, setLeft_tick]

@[simp] theorem recount_tick (g : Nat) : (s.recount g).tick = s.tick := by
  grind [State.recount, setLeft_tick]

@[simp] theorem escalateAs_tick (g r kind : Nat) (tag : TagLine) : (s.escalateAs g r kind tag).tick = s.tick := by
  grind [State.escalateAs, tagPut_tick, dropGather_tick, logErr_tick, report_tick, irq_tick, bump_tick, rowDone_tick]

@[simp] theorem tagRead_tick (g r : Nat) : (s.tagRead g r).1.tick = s.tick := by
  unfold State.tagRead
  dsimp only
  split
  · exact foldl_tick fun s c => by grind [logErr_tick, writeTier_tick]
  · grind [freeBytes_tick, tagPut_tick, logErr_tick, escalateAs_tick, recount_tick]

@[simp] theorem escalate_tick (g r kind : Nat) : (s.escalate g r kind).tick = s.tick := by
  grind [State.escalate, tagRead_tick, escalateAs_tick]

@[simp] theorem offer_tick (t : Txn) : (s.offer t).tick = s.tick := rfl

@[simp] theorem sendMsg_tick (vc dst : Nat) (payload : List Byte) (part : Option Nat) (resp : Bool) :
    (s.sendMsg vc dst payload part resp).tick = s.tick := by
  grind [State.sendMsg, offer_tick]

@[simp] theorem sendRole_tick (g role : Nat) (m : List Byte) (resp : Bool) : (s.sendRole g role m resp).tick = s.tick := by
  grind [State.sendRole, sendMsg_tick]

@[simp] theorem updCdj_tick : s.updCdj.tick = s.tick := by
  refine (wr64_tick _ _ _ _).trans (tick_ite ((fset_tick _ _ _ _).trans ?counted) ?counted)
  exact (fset_tick _ _ _ _).trans (fset_tick s _ _ _)

@[simp] theorem setOpen_tick (l : List Delta) : (s.setOpen l).tick = s.tick := updCdj_tick _

theorem openDelta_tick {s t : State} {g r due count0 n : Nat} {behind : Bool × Bool} {ds : List (Nat × List Byte)}
    (h : s.openDelta g r due count0 behind ds = some (t, n)) : t.tick = s.tick := by
  grind [State.openDelta, setOpen_tick, event_tick, irq_tick]

@[simp] theorem sendSeal_tick (g role typ tick : Nat) : (s.sendSeal g role typ tick).tick = s.tick := by
  grind [State.sendSeal, sendRole_tick]

@[simp] theorem setGrpSeal_tick (g t : Nat) : (s.setGrpSeal g t).tick = s.tick := by
  unfold State.setGrpSeal
  split
  · exact wr64_tick s _ _ _
  · rfl

@[simp] theorem formGrpSeal_tick (g : Nat) : (s.formGrpSeal g).tick = s.tick := by
  unfold State.formGrpSeal
  split
  · rfl
  · dsimp only
    split
    · split
      · exact (foldl_tick fun s p => sendSeal_tick s _ _ _ _).trans (setGrpSeal_tick s _ _)
      · rfl
    · rfl

@[simp] theorem tellSeal_tick (g : Nat) : (s.tellSeal g).tick = s.tick := by
  grind [State.tellSeal, formGrpSeal_tick, sendSeal_tick]

@[simp] theorem updSeal_tick (g : Nat) : (s.updSeal g).tick = s.tick := by
  unfold State.updSeal
  dsimp only
  refine tick_ite rfl (tick_ite ((tellSeal_tick _ g).trans ?written) ((formGrpSeal_tick _ g).trans ?written))
  exact tick_ite (wr64_tick s _ _ _) rfl

@[simp] theorem updSeals_tick : s.updSeals.tick = s.tick := foldl_tick fun s g => updSeal_tick s g

@[simp] theorem fullStall_tick (w : Who) (b sectors : Nat) : (s.fullStall w b sectors).tick = s.tick := by
  grind [State.fullStall, bump_tick, irq_tick]

@[simp] theorem fullOver_tick (w : Who) (b : Nat) : (s.fullOver w b).tick = s.tick := rfl

@[simp] theorem sendReseeds_tick (g r : Nat) : (s.sendReseeds g r).tick = s.tick := foldl_tick fun s _ => sendRole_tick s _ _ _ _

@[simp] theorem codedWrite_tick (w : Who) (g L off due : Nat) (bs : List (Option Byte)) :
    (s.codedWrite w g L off due bs).1.tick = s.tick := by
  grind [State.codedWrite, fullOver_tick, writeTier_tick, tagRead_tick, tagPut_tick, sendReseeds_tick, readTier_tick,
    openDelta_tick, fullStall_tick]

@[simp] theorem codedRead_tick (g L off n : Nat) : (s.codedRead g L off n).1.tick = s.tick := by
  grind [State.codedRead, tagRead_tick, readTier_tick]

/-! ### `Groups.lean` -/

@[simp] theorem zeroSlots_tick (t : Tier) (base n : Nat) : (s.zeroSlots t base n).tick = s.tick := by
  cases t with
  | t1 => grind [State.zeroSlots, mirrorFill_tick, secsWritten_tick]
  | t2 => grind [State.zeroSlots, xtStore_tick]

@[simp] theorem lastFail_tick (src step : Nat) : (s.lastFail src step).tick = s.tick := by
  grind [State.lastFail, wr_tick]

@[simp] theorem rxSet_tick (x : RxStream) : (s.rxSet x).tick = s.tick := rfl

@[simp] theorem sendAck_tick (g role : Nat) : (s.sendAck g role).tick = s.tick := by
  grind [State.sendAck, rxSet_tick, sendRole_tick]

@[simp] theorem applyRecord_tick (g : Nat) (m : List Byte) : (s.applyRecord g m).1.tick = s.tick := by
  unfold State.applyRecord
  extract_lets r q c t a
  split
  next s1 olds hread =>
    have hs1 : s1.tick = s.tick := by
      rw [← congrArg (fun x => x.1.tick) hread]
      exact foldl_fst_tick fun x a => readTier_tick x.1 _ _ _
    split
    · exact hs1
    · exact (tagPut_tick _ _ _ _).trans ((tagRead_tick _ _ _).trans ((foldl_tick fun s x => writeTier_tick s _ _ _).trans hs1))

@[simp] theorem rxCount_tick (g role : Nat) : (s.rxCount g role).tick = s.tick := by
  grind [State.rxCount, rxSet_tick, sendAck_tick]

/-! ### `Rebuild.lean` -/

@[simp] theorem putGather_tick (x : Gather) : (s.putGather x).tick = s.tick := by
  grind [State.putGather, dropGather_tick]

@[simp] theorem releaseHeld_tick (g role fuel : Nat) : (State.releaseHeld g role fuel s).tick = s.tick := by
  induction fuel generalizing s with
  | zero => rfl
  | succ fuel ih => grind [State.releaseHeld, tagRead_tick, rxSet_tick, rxCount_tick, applyRecord_tick]

@[simp] theorem releaseAll_tick (g : Nat) : (s.releaseAll g).tick = s.tick := by
  unfold State.releaseAll
  exact foldl_tick fun s x => releaseHeld_tick s _ _ _

@[simp] theorem askRole_tick (x : Gather) (role : Nat) (tagOnly : Bool) : (s.askRole x role tagOnly).1.tick = s.tick := by
  grind [State.askRole, sendRole_tick]

@[simp] theorem askRoles_tick (x : Gather) (roles : List Nat) (tagOnly : Bool) : (s.askRoles x roles tagOnly).1.tick = s.tick :=
  foldl_fst_tick (x := (s, x)) fun y _ => askRole_tick y.1 _ _ _

@[simp] theorem gatherBegin_tick (x : Gather) : (s.gatherBegin x).tick = s.tick := by
  grind [State.gatherBegin, releaseAll_tick, escalate_tick, dropGather_tick, askRoles_tick, putGather_tick]

@[simp] theorem gatherStart_tick (g r : Nat) (use : GatherUse) (found : List Nat) : (s.gatherStart g r use found).tick = s.tick := by
  grind [State.gatherStart, gatherBegin_tick, releaseAll_tick, escalate_tick]

@[simp] theorem gatherFor_tick (g : Nat) (need : Option (Nat × GatherUse)) : (s.gatherFor g need).tick = s.tick := by
  unfold State.gatherFor
  split
  · rfl
  · split
    · rfl
    · exact (gatherStart_tick _ _ _ _ _).trans (bump_tick s _ _ _)
  · exact gatherStart_tick s _ _ _ _

@[simp] theorem countLast_tick (g role : Nat) : (s.countLast g role).tick = s.tick := by
  grind [State.countLast, bumpSat_tick, fset_tick, logErr_tick, irq_tick]

@[simp] theorem settleTick_tick (g t : Nat) : (s.settleTick g t).tick = s.tick := by
  unfold State.settleTick
  dsimp only
  split
  · exact foldl_tick fun s o => countLast_tick s _ _
  · rfl

@[simp] theorem noteArrival_tick (g role t off : Nat) : (s.noteArrival g role t off).tick = s.tick := by
  grind [State.noteArrival, wr_tick, settleTick_tick]

@[simp] theorem tellArrival_tick (t off : Nat) : (s.tellArrival t off).tick = s.tick := by
  unfold State.tellArrival
  exact foldl_tick fun s g => by grind [noteArrival_tick, sendRole_tick]

/-! ### `Frames.lean` -/

@[simp] theorem setFrame_tick (t : Tier) (f : Nat) (v : Frame) : (s.setFrame t f v).tick = s.tick := by
  cases t with
  | t1 => rfl
  | t2 => rfl

@[simp] theorem fillFrame_tick (t : Tier) (f : Nat) : (s.fillFrame t f).tick = s.tick := by
  grind [State.fillFrame, bump_tick, zeroSlots_tick]

@[simp] theorem takeFree_tick (t : Tier) : (s.takeFree t).1.tick = s.tick := by
  grind [State.takeFree, fillFrame_tick]

@[simp] theorem noteDirty_tick (t : Tier) (f : Nat) : (s.noteDirty t f).tick = s.tick := rfl

@[simp] theorem releaseFrame_tick (t : Tier) (f : Nat) : (s.releaseFrame t f).tick = s.tick := by
  grind [State.releaseFrame, noteDirty_tick, setFrame_tick]

@[simp] theorem unfixFrame_tick (t : Tier) (f p : Nat) : (s.unfixFrame t f p).tick = s.tick := by
  grind [State.unfixFrame, noteDirty_tick, setFrame_tick]

@[simp] theorem putPme_tick (p pg : Nat) (d : Pme) : (s.putPme p pg d).tick = s.tick := by
  grind [State.putPme, towerPut_tick]

@[simp] theorem setPme_tick (p pg : Nat) (d : Pme) : (s.setPme p pg d).tick = s.tick := by
  grind [State.setPme, readSec_tick, putPme_tick]

@[simp] theorem wordOut_tick (k : Nat) : (s.wordOut k).tick = s.tick := by
  grind [State.wordOut, towerPut_tick]

@[simp] theorem cachePme_tick (k : Nat) : (s.cachePme k).tick = s.tick := by
  grind [State.cachePme, wordOut_tick]

@[simp] theorem pmeRead_tick (p pg : Nat) : (s.pmeRead p pg).1.tick = s.tick := by
  refine fst_tick_ite rfl (fst_tick_ite (fst_tick_ite ?looked ((logErr_tick _ _).trans (mk_tick.trans ?looked)))
    ((cachePme_tick _ _).trans (mk_tick.trans ?looked)))
  exact tick_ite rfl (tick_ite ((readSec_tick _ _ _).trans (bump_tick s _ _ _)) (bump_tick s _ _ _))

@[simp] theorem touch_tick (p pg : Nat) : (s.touch p pg).tick = s.tick := by
  grind [State.touch, setPme_tick]

/-! ### `FabOps.lean` -/

@[simp] theorem offerReq_tick (use : ReqUse) (typ vc entry op key offset len : Nat) (payload : List Byte) (part : Option Nat)
    (combinable kx : Bool) :
    (s.offerReq use typ vc entry op key offset len payload part combinable kx).tick = s.tick := by
  grind [State.offerReq, offer_tick]

/-! ### `Moves.lean` -/

@[simp] theorem endUnit_tick (p st : Nat) : (s.endUnit p st).tick = s.tick := rfl

@[simp] theorem forgetFar_tick (p pg : Nat) : (s.forgetFar p pg).tick = s.tick := rfl

@[simp] theorem moverUnpin_tick (p pg : Nat) : (s.moverUnpin p pg).tick = s.tick := by
  grind [State.moverUnpin, setPme_tick]

@[simp] theorem giveBack_tick (p pg : Nat) : (s.giveBack p pg).tick = s.tick := by
  grind [State.giveBack, forgetFar_tick, fset_tick, sendMsg_tick]

@[simp] theorem giveBackAfterPins_tick (p pg pins : Nat) : (s.giveBackAfterPins p pg pins).tick = s.tick := by
  grind [State.giveBackAfterPins, giveBack_tick, forgetFar_tick]

@[simp] theorem cancelMove_tick (m : Move) (st : Nat) : (s.cancelMove m st).tick = s.tick := by
  grind [State.cancelMove, releaseFrame_tick, fset_tick, sendMsg_tick, setPme_tick, endUnit_tick]

@[simp] theorem freeFrames_tick (p pg : Nat) (d : Pme) : (s.freeFrames p pg d).tick = s.tick := by
  grind [State.freeFrames, unfixFrame_tick, releaseFrame_tick, giveBack_tick]

@[simp] theorem dropPage_tick (p pg : Nat) : (s.dropPage p pg).tick = s.tick := by
  grind [State.dropPage, cancelMove_tick, freeFrames_tick, bump_tick, setPme_tick]

@[simp] theorem releasePage_tick (p pg : Nat) : (s.releasePage p pg).tick = s.tick := by
  grind [State.releasePage, cancelMove_tick, freeFrames_tick, setPme_tick]

@[simp] theorem releaseCheck_tick (p pg : Nat) : (s.releaseCheck p pg).tick = s.tick := by
  grind [State.releaseCheck, releasePage_tick]

@[simp] theorem dropRef_tick (p pg : Nat) : (s.dropRef p pg).tick = s.tick := by
  grind [State.dropRef, releaseCheck_tick, setPme_tick]

@[simp] theorem poisonFull_tick (gran : Nat) : (s.poisonFull gran).tick = s.tick := by
  grind [State.poisonFull, irq_tick, logErr_tick, escalate_tick, dropPage_tick, cancelMove_tick]

@[simp] theorem extPoison_tick (gran : Nat) : (s.extPoison gran).tick = s.tick := by
  grind [State.extPoison, xtStore_tick, poisonFull_tick]

@[simp] theorem putPoison_tick (t : Tier) (sec : Nat) : (s.putPoison t sec).tick = s.tick := by
  cases t with
  | t1 => grind [State.putPoison, mirrorFill_tick, secsWritten_tick]
  | t2 => exact extPoison_tick s sec

@[simp] theorem frameBad_tick (t : Tier) (f : Nat) : (s.frameBad t f).1.tick = s.tick := by
  cases t with
  | t1 =>
    refine (foldl_fst_tick fun x a => ?_).trans ((event_tick _ _ _ _).trans (active_tick s _ _))
    exact readSec_tick x.1 _ _
  | t2 => rfl

@[simp] theorem readFrame_tick (t : Tier) (f : Nat) : (s.readFrame t f).tick = s.tick := by
  cases t with
  | t1 => rfl
  | t2 => exact xtRun_tick s _

@[simp] theorem copyFrame_tick (t : Tier) (f : Nat) (t' : Tier) (f' : Nat) : (s.copyFrame t f t' f').1.tick = s.tick := by
  unfold State.copyFrame
  split
  next s1 bad hbad =>
    have hs1 : s1.tick = s.tick := (congrArg (·.1.tick) hbad.symm).trans (frameBad_tick s t f)
    refine (foldl_tick fun s sec => putPoison_tick s _ _).trans ?_
    cases t' with
    | t1 => exact (secsWritten_tick _ _ _ _).trans ((mirrorFill_tick _ _ _).trans (mk_tick.trans ((readFrame_tick _ _ _).trans hs1)))
    | t2 => exact (xtStore_tick _ _).trans (mk_tick.trans ((readFrame_tick _ _ _).trans hs1))

@[simp] theorem pinStall_tick (w : Who) : (s.pinStall w).tick = s.tick := by
  grind [State.pinStall, bump_tick]

@[simp] theorem pinGo_tick (w : Who) : (s.pinGo w).tick = s.tick := by
  grind [State.pinGo]

@[simp] theorem noSpace_tick (p pg : Nat) (unit : Bool) : (s.noSpace p pg unit).tick = s.tick := by
  grind [State.noSpace, irq_tick, set1_tick, bump_tick, logErr_tick]

@[simp] theorem putMove_tick (m : Move) : (s.putMove m).tick = s.tick := by
  grind [State.putMove, setPme_tick]

@[simp] theorem startLoan_tick (p pg : Nat) (drop : Bool) (prio : Nat) : (s.startLoan p pg drop prio).1.tick = s.tick := by
  grind [State.startLoan, putMove_tick, sendMsg_tick]

@[simp] theorem fetchPieces_tick (p pg : Nat) : (s.fetchPieces p pg).tick = s.tick :=
  foldl_tick fun s _ => offerReq_tick s _ _ _ _ _ _ _ _ _ _ _ _

@[simp] theorem startCopy_tick (p pg : Nat) (t : Tier) (f : Nat) (keepHome : Bool) (prio : Nat) :
    (s.startCopy p pg t f keepHome prio).tick = s.tick := by
  cases t with
  | t1 => grind [State.startCopy, setFrame_tick, putMove_tick, fetchPieces_tick]
  | t2 => grind [State.startCopy, setFrame_tick, putMove_tick, fetchPieces_tick]

@[simp] theorem releaseAfterPins_tick (p pg : Nat) (t : Tier) (f pins : Nat) : (s.releaseAfterPins p pg t f pins).tick = s.tick := by
  unfold State.releaseAfterPins
  split
  · exact releaseFrame_tick s t f
  · rfl

@[simp] theorem logPoisonMove_tick (p pg st gen : Nat) (unit : Bool) : (s.logPoisonMove p pg st gen unit).tick = s.tick := by
  grind [State.logPoisonMove, logErr_tick]

@[simp] theorem switchPage_tick (m : Move) (f : Nat) : (s.switchPage m f).tick = s.tick := by
  grind [State.switchPage, releaseFrame_tick, setFrame_tick, releaseAfterPins_tick, event_tick, setPme_tick]

@[simp] theorem markFar_tick (p pg : Nat) (bad : List Nat) : (s.markFar p pg bad).tick = s.tick := rfl

@[simp] theorem finishMove_tick (m : Move) : (s.finishMove m).1.tick = s.tick := by
  grind [State.finishMove, cancelMove_tick, moverUnpin_tick, logPoisonMove_tick, endUnit_tick, frameBad_tick, markFar_tick,
    switchPage_tick, giveBackAfterPins_tick, setPme_tick, setFrame_tick, event_tick, copyFrame_tick]

@[simp] theorem makeT2_tick (n : Nat) : (State.makeT2 n s).1.tick = s.tick := by
  induction n generalizing s with
  | zero => grind [State.makeT2, takeFree_tick]
  | succ n ih => grind [State.makeT2, takeFree_tick, dropPage_tick, startLoan_tick]

@[simp] theorem countEvict_tick (p : Nat) : (s.countEvict p).tick = s.tick := by
  grind [State.countEvict, event_tick, bump_tick]

@[simp] theorem evictHome_tick (p pg : Nat) : (s.evictHome p pg).tick = s.tick := by
  grind [State.evictHome, setPme_tick, setFrame_tick, releaseFrame_tick, copyFrame_tick, zeroSlots_tick, logPoisonMove_tick]

@[simp] theorem evictPage_tick (p pg : Nat) (now : Bool) : (s.evictPage p pg now).1.tick = s.tick := by
  grind [State.evictPage, evictHome_tick, countEvict_tick, dropPage_tick, startLoan_tick, makeT2_tick, startCopy_tick, finishMove_tick]

@[simp] theorem makeT1_tick (stuck : List (Nat × Nat)) (n : Nat) : (State.makeT1 stuck n s).1.tick = s.tick := by
  induction n generalizing s stuck with
  | zero => grind [State.makeT1, takeFree_tick]
  | succ n ih => grind [State.makeT1, takeFree_tick, evictPage_tick]

@[simp] theorem takeT1_tick (p pg : Nat) (unit : Bool) : (s.takeT1 p pg unit).1.tick = s.tick := by
  grind [State.takeT1, makeT1_tick, noSpace_tick]

/-! ### `Access.lean` -/

@[simp] theorem pin_tick (p pg : Nat) : (s.pin p pg).tick = s.tick := by
  grind [State.pin, setPme_tick]

@[simp] theorem park_tick (a : Access) : (s.park a).tick = s.tick := rfl

@[simp] theorem masterRefused_tick (p a : Nat) : (s.masterRefused p a).tick = s.tick := by
  grind [State.masterRefused, logErr_tick, irq_tick, bump_tick]

@[simp] theorem mapWord_tick (p pg : Nat) : (s.mapWord p pg).1.tick = s.tick := by
  grind [State.mapWord, readSec_tick]

@[simp] theorem noteWrite_tick (p a : Nat) : (s.noteWrite p a).tick = s.tick := by
  grind [State.noteWrite, mapWord_tick, cachePme_tick]

@[simp] theorem discard_tick (p a st : Nat) (d : Pme) : (s.discard p a st d).1.tick = s.tick := by
  grind [State.discard, logErr_tick, bump_tick]

@[simp] theorem pruneWaits_tick (w : Who) : (s.pruneWaits w).tick = s.tick := by
  grind [State.pruneWaits]

@[simp] theorem pageRead_tick (cls p a n : Nat) : (s.pageRead cls p a n).1.tick = s.tick := by
  grind [State.pageRead, pmeRead_tick, masterRefused_tick, touch_tick, readTier_tick, codedRead_tick, gatherFor_tick]

@[simp] theorem frameWrite_tick (p a : Nat) (t : Tier) (d : Pme) (bs : List (Option Byte)) :
    (s.frameWrite p a t d bs).tick = s.tick := by
  grind [State.frameWrite, writeTier_tick, setPme_tick]

@[simp] theorem pageWrite_tick (w : Who) (p a due : Nat) (bs : List (Option Byte)) : (s.pageWrite w p a due bs).1.tick = s.tick := by
  grind [State.pageWrite, pmeRead_tick, discard_tick, masterRefused_tick, touch_tick, takeT1_tick, setPme_tick, setFrame_tick,
    noteWrite_tick, frameWrite_tick, codedWrite_tick, pruneWaits_tick, gatherFor_tick]

@[simp] theorem poisonAt_tick (w : Who) (p a : Nat) : (s.poisonAt w p a).tick = s.tick := by
  unfold State.poisonAt
  dsimp only
  generalize hs1 : (if s.effState p (a / frameSize) (s.pme p (a / frameSize)) = PgZero then
    (s.pageWrite w p (a / 64 * 64) s.tick.now (List.replicate 64 (some 0xFF))).1 else s) = s1
  have ht : s1.tick = s.tick := by
    rw [← hs1]
    exact tick_ite (pageWrite_tick s _ _ _ _ _) rfl
  refine tick_ite rfl ?_
  split
  · exact (noteWrite_tick _ _ _).trans ((putPoison_tick _ _ _).trans ht)
  · exact (noteWrite_tick _ _ _).trans ((putPoison_tick _ _ _).trans ht)
  · exact tick_ite ((noteWrite_tick _ _ _).trans ((putPoison_tick _ _ _).trans ht)) ht
  · exact ht

@[simp] theorem farPin_tick (p pg : Nat) : (s.farPin p pg).tick = s.tick := by
  grind [State.farPin, pin_tick]

@[simp] theorem pieceFetch_tick (p a n l x : Nat) : (s.pieceFetch p a n l x).1.tick = s.tick := by
  unfold State.pieceFetch
  extract_lets ks got
  split
  · grind [readTier_tick]
  · split
    · exact pinStall_tick s _
    · refine (foldl_tick fun s k => ?_).trans ((farPin_tick _ _ _).trans (pinGo_tick s _))
      grind [offerReq_tick]

@[simp] theorem farTaken_tick (p a n : Nat) : (s.farTaken p a n).tick = s.tick := rfl

@[simp] theorem readSpan_tick (cls p a n : Nat) : (s.readSpan cls p a n).1.tick = s.tick := by
  unfold State.readSpan
  extract_lets r
  have hr : r.1.tick = s.tick := foldl_fst_tick (x := (s, _)) fun x g => by grind [pageRead_tick, pieceFetch_tick]
  clear_value r
  split
  · exact hr
  · exact (farTaken_tick _ _ _ _).trans hr

@[simp] theorem readRange_tick (cls p a n : Nat) : (s.readRange cls p a n).1.tick = s.tick := by
  grind [State.readRange, pinStall_tick, readSpan_tick, pinGo_tick]

@[simp] theorem writeRange_tick (w : Who) (p a due : Nat) (bs : List (Option Byte)) : (s.writeRange w p a due bs).1.tick = s.tick := by
  unfold State.writeRange
  split
  · exact pinStall_tick s w
  · exact (foldl_fst_tick (x := (s.pinGo w, Span.ok)) fun x g => by grind [pageWrite_tick]).trans (pinGo_tick s w)

@[simp] theorem seqLookup_tick (p q v : Nat) : (s.seqLookup p q v).1.tick = s.tick := by
  grind [State.seqLookup, readRange_tick]

@[simp] theorem seqSet_tick (w : Who) (p q v : Nat) (pg : Option Nat) : (s.seqSet w p q v pg).1.tick = s.tick :=
  writeRange_tick s _ _ _ _ _

@[simp] theorem kvTake_tick (p : Nat) : (s.kvTake p).1.tick = s.tick := by
  grind [State.kvTake, irq_tick]

@[simp] theorem kvReturn_tick (p pg : Nat) : (s.kvReturn p pg).tick = s.tick := by
  grind [State.kvReturn]

@[simp] theorem putSectors_tick (sec n : Nat) (bs : List (Option Byte)) : (s.putSectors sec n bs).tick = s.tick := by
  induction n generalizing s sec bs with
  | zero => rfl
  | succ n ih => grind [State.putSectors, putPoison_tick, writeTier_tick]

@[simp] theorem cowSwitch_tick (p pg x f : Nat) (bs : List (Option Byte)) : (s.cowSwitch p pg x f bs).tick = s.tick := by
  unfold State.cowSwitch
  refine (dropRef_tick _ _ _).trans ((bump_tick _ _ _ _).trans ?_)
  refine (foldl_tick fun s i => noteWrite_tick s _ _).trans ((setPme_tick _ _ _ _).trans ?_)
  split
  · exact copyFrame_tick s _ _ _ _
  · exact copyFrame_tick s _ _ _ _
  · exact putSectors_tick s _ _ _

@[simp] theorem cowPoint_tick (w : Who) (p q v pg x f : Nat) (bs : List (Option Byte)) :
    (s.cowPoint w p q v pg x f bs).1.tick = s.tick := by
  grind [State.cowPoint, seqSet_tick, setFrame_tick, cowSwitch_tick, kvReturn_tick]

@[simp] theorem cowCopy_tick (w : Who) (p q v pg x : Nat) (bs : List (Option Byte)) : (s.cowCopy w p q v pg x bs).1.tick = s.tick := by
  unfold State.cowCopy
  split
  · grind [pmeRead_tick, kvReturn_tick]
  · grind [pmeRead_tick, kvReturn_tick]
  · extract_lets unit
    grind [pmeRead_tick, pin_tick, takeT1_tick, moverUnpin_tick, kvReturn_tick, cowPoint_tick]

@[simp] theorem cowPage_tick (w : Who) (p q v pg : Nat) : (s.cowPage w p q v pg).1.tick = s.tick := by
  grind [State.cowPage, pmeRead_tick, pinStall_tick, pinGo_tick, readRange_tick, kvTake_tick, cowCopy_tick]

/-! ### `Arbiter.lean` -/

@[simp] theorem arbWindow_tick : s.arbWindow.tick = s.tick := by
  grind [State.arbWindow, set0_tick]

/-! ### `Request.lean` -/

@[simp] theorem accPage_tick (a : Access) : (s.accPage a).1.tick = s.tick := by
  grind [State.accPage, seqLookup_tick, cowPage_tick, bump_tick]

@[simp] theorem atomicAt_tick (w : Who) (p addr : Nat) (hdr payload : List Byte) :
    (s.atomicAt w p addr hdr payload).1.tick = s.tick := by
  grind [State.atomicAt, pageRead_tick, pageWrite_tick]

@[simp] theorem tryAccess_tick (a : Access) : (s.tryAccess a).1.tick = s.tick := by
  unfold State.tryAccess
  split
  · rfl
  · split
    · grind [writeRange_tick]
    · split
      · rfl
      · split
        · grind [writeRange_tick]
        · grind [readRange_tick]
        · grind [accPage_tick, atomicAt_tick, pageRead_tick, pin_tick, pageWrite_tick]

@[simp] theorem hostAnswer_tick (ch : Nat) (h : BitVec 128) (st : Nat) (beats : List HostBeat) :
    (s.hostAnswer ch h st beats).tick = s.tick := rfl

@[simp] theorem hostReadDone_tick (ch : Nat) (h : BitVec 128) (st : Nat) (bs : List (Option Byte)) :
    (s.hostReadDone ch h st bs).tick = s.tick := by
  grind [State.hostReadDone, hostAnswer_tick]

@[simp] theorem respond_tick (hdr : List Byte) (st : Nat) (payload : List Byte) (poison : Bool) :
    (s.respond hdr st payload poison).tick = s.tick := by
  grind [State.respond, offer_tick]

@[simp] theorem respondData_tick (hdr : List Byte) (bs : List (Option Byte)) : (s.respondData hdr bs).tick = s.tick := by
  grind [State.respondData, respond_tick]

@[simp] theorem refuseReq_tick (hdr : List Byte) (step st : Nat) : (s.refuseReq hdr step st).tick = s.tick := by
  grind [State.refuseReq, logMs_tick, lastFail_tick, respond_tick]

@[simp] theorem unitDone_tick (j u st : Nat) : (s.unitDone j u st).tick = s.tick := rfl

@[simp] theorem putUnit_tick (x : FabJob) (u : Nat) (bs : List Byte) : (s.putUnit x u bs).tick = s.tick := by
  grind [State.putUnit, offerReq_tick]

@[simp] theorem farRead_tick (use : ReqUse) (a : Access) (l i pg : Nat) : (s.farRead use a l i pg).tick = s.tick := by
  grind [State.farRead, offerReq_tick, pin_tick]

@[simp] theorem accDone_tick (a : Access) (o : AccOut) : (s.accDone a o).tick = s.tick := by
  unfold State.accDone
  split
  case h_13 =>
    extract_lets n bad s1
    have hs1 : s1.tick = s.tick := by
      unfold s1
      split
      · exact foldl_tick fun s k => poisonAt_tick s _ _ _
      · rfl
    exact (unitDone_tick _ _ _ _).trans hs1
  all_goals grind [hostReadDone_tick, farRead_tick, hostAnswer_tick, respondData_tick, refuseReq_tick, respond_tick, unitDone_tick,
    putUnit_tick, set1_tick, irq_tick]

@[simp] theorem access_tick (a : Access) : (s.access a).tick = s.tick := by
  grind [State.access, park_tick, tryAccess_tick, pinStall_tick, accDone_tick]

/-! ### `Update.lean` -/

@[simp] theorem setUpdPart_tick (p : Nat) (u : UpdPart) : (s.setUpdPart p u).tick = s.tick := rfl

@[simp] theorem setPass_tick (p : Nat) (x : Option Pass) : (s.setPass p x).tick = s.tick := by
  grind [State.setPass, setUpdPart_tick]

@[simp] theorem bankTurns_tick (p user : Nat) (banks : List Nat) (lo hi : Nat) : (s.bankTurns p user banks lo hi).1.tick = s.tick := by
  grind [State.bankTurns]

@[simp] theorem updFlush_tick (p due : Nat) (ys : List (Nat × List (Option Byte))) : (State.updFlush p due ys s).1.tick = s.tick := by
  induction ys generalizing s with
  | nil => rfl
  | cons y ys ih => grind [State.updFlush, bankTurns_tick, writeRange_tick]

@[simp] theorem passFlush_tick (p : Nat) : (s.passFlush p).tick = s.tick := by
  grind [State.passFlush, updFlush_tick, setPass_tick]

@[simp] theorem passesFlush_tick : s.passesFlush.tick = s.tick := foldl_tick fun s p => passFlush_tick s p

@[simp] theorem flipAt_tick (p : Nat) : (s.flipAt p).tick = s.tick := by
  grind [State.flipAt, setUpdPart_tick, fset_tick, irq_tick, set0_tick, wr_tick]

/-! ### `Rows.lean` -/

@[simp] theorem showPlan_tick (p : Nat) : (s.showPlan p).tick = s.tick := by
  grind [State.showPlan, fset_tick, wr_tick]

@[simp] theorem showPending_tick : s.showPending.tick = s.tick := by
  grind [State.showPending, fset_tick]

@[simp] theorem applyMasks_tick (r : Nat) : (s.applyMasks r).tick = s.tick := by
  grind [State.applyMasks]

@[simp] theorem classChanged_tick (rows : List Nat) : (s.classChanged rows).tick = s.tick := by
  unfold State.classChanged
  exact foldl_tick fun s p => by grind [setPlan_tick, set1_tick, logErr_tick, irq_tick]

@[simp] theorem bypassApply_tick : s.bypassApply.tick = s.tick := by
  refine tick_ite ?shown ((showPending_tick _).trans ?shown)
  refine tick_ite ?pinned ((classChanged_tick _ _).trans ?pinned)
  refine tick_ite (mk_tick.trans ?masked) ?masked
  exact foldl_tick fun s r => applyMasks_tick s r

@[simp] theorem rowCycles_tick (p cls n : Nat) : (s.rowCycles p cls n).tick = s.tick := by
  grind [State.rowCycles, topDown_tick]

/-! ### `Lane.lean` -/

@[simp] theorem onChains_tick (f : Chain → Bool) (g : Chain → Chain) : (s.onChains f g).tick = s.tick := rfl

/-! ### `Time.lean` -/

@[simp] theorem ringSend_tick (typ : Nat) (dst : Option Nat) (fld : Nat) (payload : List Nat) :
    (s.ringSend typ dst fld payload).tick = s.tick := rfl

@[simp] theorem showArrivals_tick : s.showArrivals.tick = s.tick := by
  grind [State.showArrivals, fset_tick, wr64_tick]

/-! ### `Counters.lean` -/

@[simp] theorem applyCtr_tick : s.applyCtr.tick = s.tick := foldl_tick (s := s) fun s _ => wr_tick s _ _ _

@[simp] theorem userBlocks_tick : s.userBlocks.tick = s.tick := foldl_tick fun s p => by grind [access_tick]

@[simp] theorem snapNow_tick : s.snapNow.tick = s.tick := by
  grind [State.snapNow, userBlocks_tick, irq_tick, set1_tick, bump_tick]

@[simp] theorem snapAct_tick : s.snapAct.tick = s.tick := by
  unfold State.snapAct
  split
  · rfl
  · dsimp only
    split
    · exact (snapNow_tick _).trans ((set0_tick _ _ _).trans mk_tick)
    · exact (fset_tick _ _ _ _).trans (mk_tick.trans ((snapNow_tick _).trans ((set0_tick _ _ _).trans mk_tick)))
    · exact (fset_tick _ _ _ _).trans (mk_tick.trans ((set0_tick _ _ _).trans mk_tick))

/-! ### `Kiosk.lean` -/

@[simp] theorem setBox_tick (b : Nat) (x : Mbox) : (s.setBox b x).tick = s.tick := rfl

@[simp] theorem sbSend_tick (dst tag : Nat) (owner : Bool) (body : List Byte) : (s.sbSend dst tag owner body).tick = s.tick := by
  grind [State.sbSend]

@[simp] theorem sbKiosk_tick (dst tag : Nat) (owner : Bool) (inst : Nat) (m : List Byte) :
    (s.sbKiosk dst tag owner inst m).tick = s.tick := by
  grind [State.sbKiosk, sbSend_tick]

@[simp] theorem relaySend_tick (inst b : Nat) (m : List Byte) : (s.relaySend inst b m).tick = s.tick :=
  foldl_tick fun s _ => ringSend_tick s _ _ _ _

@[simp] theorem kskWait_tick (b : Nat) (note : Bool) (m : List Byte) : (s.kskWait b note m).tick = s.tick := by
  grind [State.kskWait, irq_tick, setBox_tick, bumpSat_tick]

@[simp] theorem toOperator_tick (m : List Byte) : (s.toOperator m).tick = s.tick := by
  grind [State.toOperator, sbKiosk_tick, relaySend_tick]

@[simp] theorem notify_tick (op : Nat) (vals : List Nat) (sb : Bool) : (s.notify op vals sb).tick = s.tick := by
  grind [State.notify, kskWait_tick, toOperator_tick]

/-! ### `Firmware.lean` -/

@[simp] theorem kskReady_tick : s.kskReady.tick = s.tick := by
  grind [State.kskReady, fset_tick]

@[simp] theorem fwApply_tick (w : Nat) : (s.fwApply w).1.tick = s.tick := by
  grind [State.fwApply, applyOrg_tick, wr_tick, fset_tick]

@[simp] theorem putApply_tick : s.putApply.tick = s.tick := by
  unfold State.putApply
  exact foldl_tick fun s w => by grind [fwApply_tick]

@[simp] theorem putGo_tick : s.putGo.tick = s.tick := by
  grind [State.putGo, putApply_tick, kskReady_tick]

@[simp] theorem repaired_tick (w : Nat) : (s.repaired w).tick = s.tick := by
  grind [State.repaired, notify_tick]

@[simp] theorem laneRepair_tick (item : Nat) : (s.laneRepair item).tick = s.tick := by
  grind [State.laneRepair, fwApply_tick, repaired_tick]

@[simp] theorem lanesGo_tick : s.lanesGo.tick = s.tick := foldl_tick fun s x => laneRepair_tick s x

@[simp] theorem repairGo_tick : s.repairGo.tick = s.tick := by
  grind [State.repairGo, putGo_tick, lanesGo_tick]

/-! ### `Modes.lean` -/

@[simp] theorem floorCheck_tick : s.floorCheck.tick = s.tick := by
  grind [State.floorCheck, set1_tick, fset_tick, irq_tick, logErr_tick]

@[simp] theorem budgetApply_tick : s.budgetApply.tick = s.tick := by
  grind [State.budgetApply, floorCheck_tick, fset_tick]

@[simp] theorem modeApply_tick : s.modeApply.tick = s.tick := by
  grind [State.modeApply, setPlanRef_tick, irq_tick, fset_tick]

/-! ### `Parts.lean` -/

@[simp] theorem setPart_tick (p v : Nat) : (s.setPart p v).tick = s.tick := by
  grind [State.setPart, fset_tick]

@[simp] theorem putImage_tick (a : Nat) (bs : List (Option Byte)) : (s.putImage a bs).tick = s.tick := by
  unfold State.putImage
  exact foldl_tick fun s x => by grind [putPoison_tick, writeTier_tick]

@[simp] theorem saveImage_tick (p : Nat) : (s.saveImage p).tick = s.tick := by
  unfold State.saveImage
  have hfree : ∀ t : State, (State.freeBytes 512 t).2.tick = t.tick := fun t => freeBytes_tick t 512
  generalize State.freeBytes 512 = free at hfree ⊢
  refine (putImage_tick _ _ _).trans ((hfree _).trans ?_)
  exact (putImage_tick _ _ _).trans ((putImage_tick _ _ _).trans (putImage_tick s _ _))

@[simp] theorem setSwitch_tick (x : Switch) : (s.setSwitch x).tick = s.tick := rfl

@[simp] theorem switchBegin_tick (seat : Nat) : (s.switchBegin seat).tick = s.tick := by
  grind [State.switchBegin, setSwitch_tick, setPart_tick, saveImage_tick]

@[simp] theorem switchesBegin_tick : s.switchesBegin.tick = s.tick := foldl_tick fun s _ => switchBegin_tick s _

@[simp] theorem slowAdd_tick (p a b : Nat) : (s.slowAdd p a b).tick = s.tick := rfl

/-! ### `Boundary.lean` -/

@[simp] theorem epochPlan_tick (us p : Nat) : (s.epochPlan us p).tick = s.tick := by
  grind [State.epochPlan, setPlan_tick, fset_tick]

@[simp] theorem wasteTick_tick (n p : Nat) : (s.wasteTick n p).tick = s.tick := by
  grind [State.wasteTick, rowCycles_tick]

@[simp] theorem idleTick_tick (n p : Nat) : (s.idleTick n p).tick = s.tick := by
  grind [State.idleTick, slowAdd_tick]

@[simp] theorem tickEnd_tick (b : Nat) : (s.tickEnd b).tick = s.tick :=
  (foldl_tick fun s p => idleTick_tick s _ p).trans (foldl_tick fun s p => wasteTick_tick s _ p)

@[simp] theorem planSwap_tick (b p : Nat) : (s.planSwap b p).tick = s.tick := by
  grind [State.planSwap, irq_tick, setPlan_tick]

@[simp] theorem overrun_tick (part : Option Nat) : (s.overrun part).tick = s.tick := by
  grind [State.overrun, event_tick, irq_tick, bump_tick]

@[simp] theorem startWaiting_tick (p : Nat) : (s.startWaiting p).tick = s.tick := by
  grind [State.startWaiting, setPlan_tick]

@[simp] theorem partBoundary_tick (t b : Nat) (go : Bool) (p : Nat) : (s.partBoundary t b go p).tick = s.tick := by
  grind [State.partBoundary, overrun_tick, setPlan_tick, startWaiting_tick]

@[simp] theorem countBoundary_tick : s.countBoundary.tick = s.tick := by
  grind [State.countBoundary, onChains_tick]

@[simp] theorem bindSwitches_tick (b : Nat) : (s.bindSwitches b).tick = s.tick := rfl

@[simp] theorem applyHeld_tick (b : Nat) : (s.applyHeld b).tick = s.tick := by
  unfold State.applyHeld
  refine (modeApply_tick _).trans ((bindSwitches_tick _ _).trans ((foldl_tick fun s p => flipAt_tick s p).trans ?_))
  refine (bypassApply_tick _).trans ((orgBoundary_tick _).trans ((foldl_tick fun s p => planSwap_tick s _ p).trans (applyCtr_tick s)))

end

end Sys2Proof.Machine

/-! # Strobes, holdover and the boundaries that a step passes

A boundary that is not ahead of the hall time leaves it as it is: what lets time pass to a point already reached does nothing, and no
other operation of a boundary writes it. So a step forward, which sets the hall time and then takes the boundaries it passed, leaves
the time at the port's. -/

namespace Sys2Proof.Machine

open Sys2Proof

section

variable {s : State} {b t : Nat}

/-! ### The hall time at a boundary (R27, R29) -/

theorem foldl_hall {α : Type} {f : State → α → State} {l : List α} {s : State} (h : ∀ s a, (f s a).tick.hall = s.tick.hall) :
    (l.foldl f s).tick.hall = s.tick.hall := by
  induction l generalizing s with
  | nil => rfl
  | cons a l ih => exact ih.trans (h s a)

/-- An operation that leaves the tick state alone leaves the hall time. -/
theorem hall_of_tick {s t : State} (h : t.tick = s.tick) : t.tick.hall = s.tick.hall := congrArg Tick.hall h

theorem cancelArm_hall (s : State) (h : Nat) : (s.cancelArm h).tick.hall = s.tick.hall := rfl

theorem cancelArms_hall (s : State) (e : Nat) : (s.cancelArms e).tick.hall = s.tick.hall := foldl_hall cancelArm_hall

theorem sendRelease_hall (s : State) (h : Nat) : (s.sendRelease h).tick.hall = s.tick.hall := rfl

theorem sealIn_hall (s : State) (i n : Nat) : (s.sealIn i n).tick.hall = s.tick.hall := by rw [sealIn_tick]

theorem tellTickSeal_hall (s : State) : s.tellTickSeal.tick.hall = s.tick.hall := by
  unfold State.tellTickSeal
  split
  · rfl
  · split
    · exact sealIn_hall s _ _
    · split
      · exact hall_of_tick (ringSend_tick s _ _ _ _)
      · rfl

theorem ringArrive_hall (s : State) (i n : Nat) : (s.ringArrive i n).tick.hall = s.tick.hall := by
  unfold State.ringArrive
  dsimp only
  split
  · rfl
  · split
    · rfl
    · refine (hall_of_tick (showArrivals_tick _)).trans ?_
      rfl

theorem arrive_hall (s : State) : s.arrive.tick.hall = s.tick.hall := by
  refine foldl_hall fun s x => ?_
  dsimp only
  split
  · exact hall_of_tick (tellArrival_tick s _ _)
  · split
    · exact (ringArrive_hall _ _ _).trans (hall_of_tick (tellArrival_tick s _ _))
    · split
      · exact hall_of_tick ((ringSend_tick _ _ _ _ _).trans (tellArrival_tick s _ _))
      · exact hall_of_tick (tellArrival_tick s _ _)

theorem gate_hall (s : State) (n b : Nat) : (s.gate n b).1.tick.hall = s.tick.hall := by
  dsimp only [State.gate]
  split <;> rfl

theorem leaveBoundary_hall (s : State) (n b : Nat) : (s.leaveBoundary n b).tick.hall = s.tick.hall := by
  have hsealed : s.passesFlush.updSeals.tellTickSeal.tick.hall = s.tick.hall :=
    (tellTickSeal_hall _).trans (hall_of_tick ((updSeals_tick _).trans (passesFlush_tick s)))
  unfold State.leaveBoundary
  generalize s.passesFlush.updSeals.tellTickSeal = x at hsealed ⊢
  refine (hall_of_tick ((repairGo_tick _).trans (mk_tick.trans (switchesBegin_tick _)))).trans ((arrive_hall _).trans ?_)
  split
  · exact hsealed
  · exact hsealed

theorem enterTick_hall (h : b ≤ s.tick.hall) : (s.enterTick b).tick.hall = s.tick.hall := Nat.max_eq_left h

theorem snapDue_hall (h : b ≤ s.tick.hall) : (s.snapDue b).tick.hall = s.tick.hall := by
  unfold State.snapDue
  split
  next a _ =>
    split
    next hdue =>
      rw [passTo_past (hdue.trans h)]
      exact hall_of_tick (snapAct_tick s)
    · rfl
  · rfl

theorem timeEpoch_hall {us e base : Nat} (hcommit : s.tick.commit = some (us, e, base)) (h : e ≤ s.tick.hall) :
    s.timeEpoch.tick.hall = s.tick.hall := by
  rw [timeEpoch_commit hcommit h]
  dsimp only
  refine (cancelArms_hall _ _).trans ((hall_of_tick (foldl_tick fun s p => epochPlan_tick s _ _)).trans ?_)
  rw [fset_tick, wr64_tick, wr64_tick, fset_tick]

/-- A boundary that is not ahead of the hall time leaves it. -/
theorem takeBoundary_hall (h : b ≤ s.tick.hall) : (s.takeBoundary b).tick.hall = s.tick.hall := by
  have hsnap : ((s.snapDue b).passTo b).tick.hall = s.tick.hall := by
    rw [passTo_past (by rwa [snapDue_hall h]), snapDue_hall h]
  unfold State.takeBoundary
  extract_lets s1 s2 s3 n s4
  have h1 : s1.tick.hall = s.tick.hall := hsnap
  have h2 : s2.tick.hall = s1.tick.hall := by
    unfold s2
    split
    next e _ hcommit =>
      split
      next hdue => exact timeEpoch_hall hcommit (hdue.trans (h1 ▸ h))
      · rfl
    · rfl
  have h3 : s3.tick.hall = s2.tick.hall := by
    have hended : (s2.tickEnd b).tick.hall = s2.tick.hall := hall_of_tick (tickEnd_tick s2 b)
    exact (enterTick_hall (by rw [hended, h2, h1]; exact h)).trans hended
  clear_value s3 n
  have h4 : s4.tick.hall = s.tick.hall := by
    rw [← h1, ← h2, ← h3]
    exact hall_of_tick (applyHeld_tick s3 b)
  clear_value s4
  split
  next s5 go hgate =>
    have h5 : s5.tick.hall = s.tick.hall := by
      rw [← h4, ← gate_hall s4 n b, hgate]
    extract_lets s6 s7 s8
    have h6 : s6.tick.hall = s5.tick.hall := hall_of_tick (foldl_tick fun s p => partBoundary_tick s _ _ _ p)
    have h7 : s7.tick.hall = s6.tick.hall := by
      unfold s7
      split
      · exact sendRelease_hall s6 _
      · rfl
    have h8 : s8.tick.hall = s7.tick.hall :=
      hall_of_tick ((arbWindow_tick _).trans ((countBoundary_tick _).trans (setPlanRef_tick s7 _)))
    clear_value s8
    rw [budgetApply_tick, leaveBoundary_hall, h8, h7, h6, h5]

/-! ### The boundaries that a step forward passes (R27) -/

theorem skipTo_next (n : Nat) (hpassed : s.nextBoundary < t) (hticking : s.ticking = true) :
    State.skipTo t (n + 1) s = State.skipTo t n (s.takeBoundary s.nextBoundary) := if_pos ⟨hpassed, hticking⟩

theorem skipTo_none (n : Nat) (hahead : t ≤ s.nextBoundary) : State.skipTo t n s = s := by
  cases n with
  | zero => rfl
  | succ n => exact if_neg fun h => Nat.not_lt.mpr hahead h.1

/-- The boundaries before the hall time, taken one after the other, leave it. -/
theorem skipTo_hall (n : Nat) (h : t ≤ s.tick.hall) : (State.skipTo t n s).tick.hall = s.tick.hall := by
  induction n generalizing s with
  | zero => rfl
  | succ n ih =>
    unfold State.skipTo
    dsimp only
    split
    next hnext =>
      have hkept := takeBoundary_hall (hnext.1.le.trans h)
      exact (ih (by rwa [hkept])).trans hkept
    · rfl

/-! ### Strobes (R25, R26) -/

variable {s1 : State} {here l : Nat}

/-- The state with a strobe noted: the strobes are there, and in holdover the good ones are counted. -/
def State.strobeSeen (s : State) : State :=
  { s with tick := { s.tick with
    holdover := false, goodStrobes := if s.flag F.TCK_STAT_HOLDOVER then s.tick.goodStrobes + 1 else 0 } }

/-- The state with the hall time set. -/
def State.setHall (s : State) (t : Nat) : State := { s with tick := { s.tick with hall := t } }

/-- The record of a strobe more than 1000 ns from the local time. -/
def State.logStep (s : State) : State := s.logErr { block := Page.TCK, code := 0x0A21, sev := 0 }

@[simp] theorem tailsMove_tick (s : State) (l t : Nat) : (s.tailsMove l t).tick = s.tick := rfl

section

variable (hs1 : s1 = s.strobeSeen.passTo here)
include hs1

/-- The first strobe since a start adopts the port's time (log entry 50). -/
theorem strobe_first (hfirst : s.tick.synced = false) :
    s.strobe t here = { s1 with tick := { s1.tick with synced := true, hall := t, lastBoundary := none } } := by
  subst hs1
  exact if_pos (by rw [hfirst]; decide)

variable (hsynced : s.tick.synced = true) (hl : l = s1.tick.hall)
include hsynced hl

theorem strobe_later :
    s.strobe t here =
      (let s3 := (if 1000 < max l t - min l t then s1.logStep else s1).setHall t
       (if l < t ∧ s3.ticking = true then State.skipTo t ((t - l) / 10000 + 2) s3 else s3).tailsMove l t) := by
  subst hs1 hl
  exact if_neg (by rw [hsynced]; decide)

theorem strobe_near (habove : t ≤ l + 1000) (hbelow : l ≤ t + 1000) :
    s.strobe t here =
      (let s3 := s1.setHall t
       (if l < t ∧ s3.ticking = true then State.skipTo t ((t - l) / 10000 + 2) s3 else s3).tailsMove l t) := by
  have hnear : ¬ 1000 < max l t - min l t := by omega
  rw [strobe_later hs1 hsynced hl, if_neg hnear]

theorem strobe_ahead (hahead : l + 1000 < t) :
    s.strobe t here =
      (let s3 := s1.logStep.setHall t
       (if s3.ticking = true then State.skipTo t ((t - l) / 10000 + 2) s3 else s3).tailsMove l t) := by
  have hfar : 1000 < max l t - min l t := by omega
  have hforward : l < t := by omega
  rw [strobe_later hs1 hsynced hl, if_pos hfar]
  simp only [hforward, true_and]

/-- A step backward takes no boundary. -/
theorem strobe_behind (hbehind : t + 1000 < l) : s.strobe t here = (s1.logStep.setHall t).tailsMove l t := by
  have hfar : 1000 < max l t - min l t := by omega
  have hback : ¬ l < t := by omega
  rw [strobe_later hs1 hsynced hl, if_pos hfar]
  simp only [hback, false_and, if_false]

end

/-- A step to a time leaves it standing there, whether or not it passes boundaries. -/
theorem steppedTo_hall (s : State) (c : Prop) [Decidable c] (n : Nat) :
    (if c then State.skipTo t n (s.setHall t) else s.setHall t).tick.hall = t := by
  split
  · exact skipTo_hall (s := s.setHall t) n le_rfl
  · rfl

/-- After a strobe the hall time is the port's. -/
theorem strobe_hall (s : State) (t here : Nat) : (s.strobe t here).tick.hall = t := by
  cases hsynced : s.tick.synced with
  | false => rw [strobe_first rfl hsynced]
  | true =>
    rw [strobe_later rfl hsynced rfl]
    exact steppedTo_hall _ _ _

theorem execHallStrobe_running {time here : BitVec 64} (hrun : s.run = .running) :
    execHallStrobe time here s = .next (s.strobe time.toNat here.toNat) :=
  onUp_running (f := fun s => s.strobe time.toNat here.toNat) hrun

/-- What logs a step and moves the tails leaves the last boundary, after which the next one lies. -/
theorem nextBoundary_after {e : ErrIn} (hlast : s.tick.lastBoundary = some b) :
    s.nextBoundary = s.boundaryFrom (b + 1) ∧ ((s.logErr e).tailsMove l t).tick.lastBoundary = some b :=
  ⟨by simp only [State.nextBoundary, hlast], by rw [tailsMove_tick, logErr_tick, hlast]⟩

/-! ### Holdover (R28) -/

theorem execHoldover_running (hrun : s.run = .running) :
    execHoldover s = .next { s with tick := { s.tick with holdover := true, goodStrobes := 0 } } := onUp_running hrun

theorem execHoldoverTimeout_enters (hrun : s.run = .running) (hlost : s.tick.holdover = true)
    (hout : s.flag F.TCK_STAT_HOLDOVER = false) :
    execHoldoverTimeout s = .next
      (((s.set1 F.TCK_STAT_HOLDOVER).irq Page.TCK 3).logErr { block := Page.TCK, code := 0x0A20, sev := 1 }) := by
  simp only [execHoldoverTimeout, onUp_running hrun, hlost, hout, Bool.not_false, Bool.and_self, if_true]

theorem execHoldoverEnd_leaves (hrun : s.run = .running) (hback : s.tick.holdover = false) (hgood : 16 ≤ s.tick.goodStrobes) :
    execHoldoverEnd s = .next (s.set0 F.TCK_STAT_HOLDOVER) := by
  simp only [execHoldoverEnd, onUp_running hrun, hback, decide_eq_true hgood, Bool.not_false, Bool.and_self, if_true]

end

/-- Settles O1: a strobe by how far it lies from the local time; the boundaries it passes leave the hall time by induction on their
number. -/
theorem strobesSetHallTime : Obligations.StrobesSetHallTime := by
  refine ⟨?hall, ?first, ?near, ?ahead, ?behind, fun _ _ n => skipTo_next n, fun _ _ n => skipTo_none n,
    fun _ _ _ _ _ => nextBoundary_after, fun _ => execHoldover_running, fun _ => execHoldoverTimeout_enters,
    fun _ => execHoldoverEnd_leaves⟩
  case hall =>
    intro time here s hrun
    exact ⟨_, execHallStrobe_running hrun, strobe_hall s time.toNat here.toNat⟩
  case first =>
    intro time here s hrun hfirst
    exact (execHallStrobe_running hrun).trans (congrArg _ (strobe_first rfl hfirst))
  case near =>
    intro time here s s1 l hrun hsynced hs1 hl habove hbelow
    exact (execHallStrobe_running hrun).trans (congrArg _ (strobe_near hs1 hsynced hl habove hbelow))
  case ahead =>
    intro time here s s1 l hrun hsynced hs1 hl hahead
    exact (execHallStrobe_running hrun).trans (congrArg _ (strobe_ahead hs1 hsynced hl hahead))
  case behind =>
    intro time here s s1 l hrun hsynced hs1 hl hbehind
    exact (execHallStrobe_running hrun).trans (congrArg _ (strobe_behind hs1 hsynced hl hbehind))

end Sys2Proof.Machine
